-- ==== Sys2Proof/Word.lean ====
section
/-! DEFINITION. The widths the manual counts in (00 R2, R4, R8): bits, words, TIME64 and ANG64. -/

namespace Sys2Proof

/-- A 32-bit register word (00 R8). -/
abbrev W32 := BitVec 32
/-- A 64-bit value: an engine register, an SRAM word, a TIME64 or an ANG64. -/
abbrev W64 := BitVec 64
/-- TIME64 (R2): a signed 64-bit count of grains since the domain epoch; bits [63:6] count TCLK. -/
abbrev Time64 := BitVec 64
/-- ANG64 (R4): a signed 64-bit angle; bits [63:32] are turns, bits [31:0] the fraction. -/
abbrev Ang64 := BitVec 64
/-- One byte. -/
abbrev Byte := BitVec 8
/-- A microword of 192 bits (R253). -/
abbrev Microword := BitVec 192

/-- A sparse bank of like things by number: strictly rising keys, no entry equal to what an unlisted
key reads as. Plain data: equal banks are equal lists. -/
abbrev Bank (α : Type) := List (Nat × α)

end Sys2Proof
end

