-- ==== Sys2Proof/Machine/Bank.lean ====
section
/-! DEFINITION. Sparse banks in one canonical form: the read and the write every instance of a block goes through. -/

namespace Sys2Proof.Machine

/-- What key `k` holds; a key that is not listed holds `d`. -/
def Bank.get {α : Type} (d : α) : Bank α → Nat → α
  | [], _ => d
  | (j, v) :: t, k => if j = k then v else Bank.get d t k

/-- Insertion of an entry in key order, replacing an entry of the same key. -/
def Bank.put {α : Type} : Bank α → Nat → α → Bank α
  | [], k, v => [(k, v)]
  | (j, w) :: t, k, v =>
    if k < j then (k, v) :: (j, w) :: t
    else if k = j then (k, v) :: t
    else (j, w) :: Bank.put t k v

/-- Removal of a key. -/
def Bank.erase {α : Type} : Bank α → Nat → Bank α
  | [], _ => []
  | (j, w) :: t, k => if j = k then Bank.erase t k else (j, w) :: Bank.erase t k

/-- A write of `v` at key `k`: writing what an unlisted key holds removes the entry, so that the form stays canonical. -/
def Bank.set {α : Type} [DecidableEq α] (d : α) (b : Bank α) (k : Nat) (v : α) : Bank α :=
  if v = d then Bank.erase b k else Bank.put b k v

/-- A change of the entry at key `k`. -/
def Bank.upd {α : Type} [DecidableEq α] (d : α) (b : Bank α) (k : Nat) (f : α → α) : Bank α :=
  Bank.set d b k (f (Bank.get d b k))

/-- Keys strictly rising above a bound. -/
def Bank.rising {α : Type} : Option Nat → Bank α → Bool
  | _, [] => true
  | lo, (j, _) :: t => (match lo with | none => true | some l => decide (l < j)) && Bank.rising (some j) t

/-- No entry holds the unlisted value. -/
def Bank.tight {α : Type} [DecidableEq α] (d : α) (b : Bank α) : Bool :=
  b.all fun e => decide (e.2 ≠ d)

/-- The canonical form: keys strictly rising, no entry equal to the unlisted value. -/
def Bank.wf {α : Type} [DecidableEq α] (d : α) (b : Bank α) : Bool :=
  Bank.rising none b && Bank.tight d b

end Sys2Proof.Machine
end

