-- ==== Sys2Proof/Machine/Blocks.lean ====
section
/-! DEFINITION. The state of the block as plain data: every register, counter, queue, buffer, mode and pin the
manual gives the EL4096, one structure per block, and the state right after reset. A control or status register that
software reads whole is kept as its 32-bit word with the manual's bit positions; registers of numbered instances lie
in sparse banks that list only what differs from reset. -/

namespace Sys2Proof.Machine

/-- One interrupt source (R298–R307): its IC_SRC word and its three records. -/
structure IntSource where
  /-- IC_SRCnnnn: EN [31], TGT [20:16], SENSE [15:14], FILT [13:8], WAKE [7], PRI [2:0]. -/
  src : W32 := 0
  /-- IC_PEND bit (R301). -/
  pend : Bool := false
  /-- IC_ACT bit (R301). -/
  act : Bool := false
  /-- IC_LOST bit (R301). -/
  lost : Bool := false
  /-- still claimable after a write that cleared EN (R306). -/
  span : Bool := false
  /-- TCLK of the write that cleared EN, of which the span of R306 is counted. -/
  spanAt : Nat := 0
  /-- the two stages of the synchroniser of a pin source (R300). -/
  sync1 : Bool := false
  sync2 : Bool := false
  /-- consecutive synchronised samples that differ from the accepted level (R300). -/
  count : Nat := 0
  /-- TCLK of the last event gathered from the members (R298). -/
  firedAt : Option Nat := none
  /-- TCLK in which the handshake of the event that crosses ends (R313). -/
  hsEnd : Nat := 0
  /-- an event waits behind the one that crosses (R313). -/
  hsWait : Bool := false
  /-- accepted pin level of a pin source (R300). -/
  level : Bool := false
  /-- the asynchronous wake latch is armed (R309). -/
  wakeArmed : Bool := false
  /-- the wake latch has caught a transition (R309). -/
  wakeSet : Bool := false
  deriving DecidableEq, Repr

/-- The interrupt controller and the crossing records (R298–R312, R313–R324). -/
structure IntCtl where
  /-- IC_STAT [3:0]: CFG_BUSY, CFG_ERR, COMP_ERR, DB_REJ. -/
  stat : W32 := 0
  /-- IC_AXEV [13:0]. -/
  axev : W32 := 0
  /-- the 1,024 sources. -/
  sources : Bank IntSource := []
  /-- IC_CHEVgg, 64 words. -/
  chev : Bank W32 := []
  /-- IC_CHWgg, 64 words. -/
  chw : Bank W32 := []
  /-- IC_AXWgg, 64 words of 64 bits. -/
  axw : Bank W64 := []
  /-- IC_XSTAT: MACRST [7:4], QSPIRST [3], PCIERST [2], XOVR [1], XRESET [0]. -/
  xstat : W32 := 0
  /-- IC_XSEL [1:0]. -/
  xsel : W32 := 0
  /-- IC_XOVR0–7, saturating 16-bit counts. -/
  xovr : Bank (BitVec 16) := []
  /-- host vector levels signalled so far, one bit for each of vectors 0–3 (R305, R422). -/
  vlevel : BitVec 4 := 0
  /-- vectors that had a claimable source in the FCLK before (R305). -/
  vfirst : BitVec 4 := 0
  /-- vectors that are to be signalled: the second FCLK after the first claimable source (R305). -/
  vdue : BitVec 4 := 0
  deriving DecidableEq, Repr

/-- One level request that is to act in a coming merge (R168, R177). -/
structure LevelReq where
  /-- the local TCLK in whose merge it acts. -/
  due : Nat
  /-- its grain position. -/
  grain : BitVec 6
  /-- the level requested. -/
  level : Bool
  /-- a forced level of FRISE or FFALL (applied last), not a compare match. -/
  forced : Bool
  deriving DecidableEq, Repr

/-- A write to PER, CMPR, CMPF or CMPG on its way: it lands at the end of the TCLK (R169, R170). -/
structure CompareLanding where
  /-- SHD = 0: it goes to the value in force. -/
  direct : Bool
  /-- the register's offset. -/
  reg : Nat
  val : W32
  deriving DecidableEq, Repr

/-- The output stage of one channel (R165–R189): registers in force, shadows and level. -/
structure ChanOut where
  /-- CHnnn_CTL: EN [31], CMODE [30:29], RLD [28:27], SHD [26], QEN [25], QG [24:20]. -/
  ctl : W32 := 0x04000000#32
  /-- CHnnn_OUT: SRC [7:6], DRV [5:4], POL [3], IDL [2]. -/
  out : W32 := 0
  /-- CHnnn_STAT, its W1C bits [10], [8:2]. -/
  stat : W32 := 0
  per : W32 := 0xFFFFFFFF#32
  cmpr : W32 := 0xFFFFFFFF#32
  cmpf : W32 := 0xFFFFFFFF#32
  cmpg : W32 := 0
  /-- shadow of PER (R169). -/
  sper : W32 := 0xFFFFFFFF#32
  scmpr : W32 := 0xFFFFFFFF#32
  scmpf : W32 := 0xFFFFFFFF#32
  scmpg : W32 := 0
  /-- STAT.SHP: a shadow holds a value not yet transferred. -/
  shp : Bool := false
  /-- EN as the present TCLK's work sees it: EN taken in a TCLK governs from the next one on (R178, R179). -/
  enNow : Bool := false
  /-- the stage takes EN = 1 in the present TCLK (R179). -/
  starting : Bool := false
  /-- writes of the present TCLK to the period and the compares, oldest first (R169, R170, R173). -/
  writes : List CompareLanding := []
  /-- a reload takes place at the end of the present TCLK (R167). -/
  rel : Bool := false
  /-- LVL, the level before polarity (R166). -/
  lvl : Bool := false
  /-- LVL at the start of the present TCLK (R176). -/
  lvlWas : Bool := false
  /-- the instant of its last change, local grains (R176). -/
  lvlAt : Nat := 0
  /-- changes of LVL by requests in the present TCLK (R176). -/
  changes : Nat := 0
  /-- level requests waiting for their merge (R168, R177). -/
  reqs : List LevelReq := []
  /-- the pending end of a pulse, local grains (R175). -/
  pulseEnd : Option Nat := none
  /-- on a remote channel, the TCLKs by which the pending end acts ahead of its edge time (R188). -/
  endLead : Nat := 0
  /-- CHnnn_RMAP: HEAD [26:16], HOUT [3:0]. -/
  rmap : W32 := 0
  deriving DecidableEq, Repr

/-- The counter of one channel (R167, R209–R224). -/
structure ChanCnt where
  cnt : W32 := 0
  /-- a write has set the count of the next TCLK: it wins over every action (R9, R214). -/
  wr : Option W32 := none
  /-- the present TCLK has been terminal for this counter: its event has been raised (R167, R213, R221). -/
  term : Bool := false
  /-- a reset has acted in the present TCLK (R217). -/
  rst : Bool := false
  /-- the stage below is terminal in the present TCLK (R221). -/
  carry : Bool := false
  /-- a start, a start by a command, a stop has acted in the present TCLK (R217, R218). -/
  go : Bool := false
  goCmd : Bool := false
  halt : Bool := false
  /-- the next TCLK in which the count would advance is terminal (R173, R214). -/
  cut : Bool := false
  /-- down phase of an up-down count (R212). -/
  down : Bool := false
  /-- TSTAT.RUN. -/
  run : Bool := false
  /-- TCLKs since the divider last advanced (R209). -/
  divc : Nat := 0
  /-- CMPR, CMPF has matched at this count and its source has not advanced since (R210). -/
  mr : Bool := false
  mf : Bool := false
  /-- a TSTART waits for the next tick strobe (R219). -/
  tstart : Bool := false
  /-- an edge for an edge-driven count in this TCLK (R209). -/
  edge : Bool := false
  /-- CHnnn_LNK: WRAP [31], HOLDEN [30], CSRC [29:28], RTRG [27], CDIV [15:0]. -/
  lnk : W32 := 0
  /-- CHnnn_MACT. -/
  mact : W32 := 0
  /-- CHnnn_MACT as the present TCLK's events take it (R216). -/
  mactNow : W32 := 0
  /-- CHnnn_TSTAT, its W1C bits [3:1]. -/
  tstat : W32 := 0
  /-- the write shadow of a chain stage (R224). -/
  wshadow : Option W32 := none
  deriving DecidableEq, Repr

/-- The capture path of one channel (R225–R231). -/
structure ChanCap where
  /-- CHnnn_CAPC: CEN [31], CGATE [30], CAPM [29:28], CEDGE [27:26], CSEL [25:23], CPRE [15:0]. -/
  capc : W32 := 0
  /-- CHnnn_CAPS. -/
  caps : W32 := 0
  cap0 : W32 := 0
  cap1 : W32 := 0
  cap0t : Time64 := 0
  cap1t : Time64 := 0
  /-- the capture prescaler's count. -/
  pre : Nat := 0
  /-- CAPM 10b: the last passed rise waits for its fall (R225). -/
  fallDue : Bool := false
  /-- the opening of the last window, local grains, and its closing: none while it closes at its first capture (R229). -/
  openAt : Nat := 0
  closeAt : Option Nat := some 0
  /-- the open window closes at its first capture. -/
  closeFirst : Bool := false
  deriving DecidableEq, Repr

/-- A step of an encoder emulation that has yet to show at the pins (R183, R184). -/
structure EmStep where
  /-- its instant, local grains. -/
  at_ : Nat
  /-- +1 or −1. -/
  delta : Int
  /-- E_c has taken it already (R184); a step moved by EMGAP changes E_c at its instant (R183). -/
  counted : Bool
  deriving DecidableEq, Repr

/-- Encoder emulation of one channel (R181–R185). -/
structure ChanEm where
  /-- CHnnn_EMC: EMEN [31], EMSRC [30], EMDIR [29:28], EMSWAP [27], EMGAP [23:16], EMAXIS [11:0]. -/
  emc : W32 := 0x000A0000#32
  /-- CHnnn_EMS: EMSTEPS [24:0]. -/
  ems : W32 := 0
  /-- CHnnn_EMZ: ZW [25:24], ZPOS [23:0]. -/
  emz : W32 := 0x03000000#32
  /-- E_c (R182). -/
  ec : Int := 0
  /-- E_c less the steps that have yet to show. -/
  shown : Int := 0
  /-- the steps that have yet to show, oldest first. -/
  moves : List EmStep := []
  /-- instant of the last step, local grains, none before the first (R183, R184). -/
  last : Option Nat := none
  /-- the angle of EMAXIS published one TCLK before the present one (R184). -/
  was : Option Ang64 := none
  deriving DecidableEq, Repr
/-- A transition the pin stage's sampler has captured (R60, R62). -/
structure PinCand where
  /-- the level after it: of the ball in the synchroniser, after INV from the filter on (R63). -/
  level : Bool
  stamp : Time64
  grain : BitVec 6
  sg : BitVec 2
  coarse : Bool
  /-- the local TCLK of the transition. -/
  tclk : Nat
  deriving DecidableEq, Repr

/-- An accepted edge on its way through the prescaler to the decoder (R65). -/
structure PinPass where
  edge : PinCand
  /-- the local TCLK in which the filter accepted it. -/
  acc : Nat
  /-- the filtered level after it, as a later change of INV leaves it (R63). -/
  to_ : Bool
  /-- the partner pin's filtered level in that TCLK (R70). -/
  partner : Bool := false
  /-- the edge prescaler has passed it (R64). -/
  passed : Bool := false
  deriving DecidableEq, Repr

/-- The pin stage of one timer pin (R59–R66). -/
structure PinStage where
  /-- CHnnn_PIN: INV [10], EDGE [9:8], FILT [7:0]. -/
  pin : W32 := 3
  /-- CHnnn_PIN as the present TCLK's sample takes INV and FILT (R63). -/
  pinNow : W32 := 3
  /-- CHnnn_PRE [15:0]. -/
  pre : W32 := 0
  /-- level at the ball. -/
  ball : Bool := false
  /-- what the device has driven on the ball at last, none for high impedance (R165). -/
  drv : Option Bool := none
  /-- the transition of the present TCLK, while it leaves the ball at another level than `seen`: captured at its end (R62). -/
  change : Option PinCand := none
  /-- the level the sampler took at the end of the previous TCLK (R62). -/
  seen : Bool := false
  /-- captured transitions in the synchroniser, oldest first (R65). -/
  line : List PinCand := []
  /-- filtered level after INV. -/
  level : Bool := false
  /-- the transition under the filter's judgement (R63). -/
  cand : Option PinCand := none
  /-- local TCLK of the last capture, none before the first (R62). -/
  lastCap : Option Nat := none
  /-- edges counted by the prescaler (R64). -/
  count : Nat := 0
  /-- M of the period under way; a new PRE applies from the next passed edge (R64). -/
  div : Nat := 1
  /-- accepted edges that the decoder has yet to take, oldest first (R65). -/
  pipe : List PinPass := []
  deriving DecidableEq, Repr

/-- One ring entry: stamp and attribute word (R82). -/
structure RingEntry where
  stamp : Time64 := 0
  attr : W32 := 0
  deriving DecidableEq, Repr

/-- Configuration of one tooth decoder (R67, R76, R428). -/
structure DecCfg where
  tdc : W32 := 0
  udiv : W32 := 0
  pwt1 : W32 := 0x1D4C#32
  pwt2 : W32 := 0x3A98#32
  pwt3 : W32 := 0x7530#32
  /-- CHnnn_IDX. -/
  idx : W32 := 0x300#32
  wpat : W32 := 0x180000#32
  /-- CHnnn_WGAP0–7. -/
  wgap : Bank W32 := []
  deriving DecidableEq, Repr

/-- The advance of TOTAL that a tooth makes one TCLK after the decoder has formed it, and the update latch it loads (R65, R83). -/
structure TotalStep where
  /-- it is an update tooth. -/
  upd : Bool
  stamp : Time64
  attr : W32
  pos : W32
  deriving DecidableEq, Repr

/-- The tooth decoder of one pin (R67–R85): what it has counted and seen. -/
structure Decoder where
  cfg : DecCfg := {}
  /-- EN as the present TCLK's work sees it (R69). -/
  on : Bool := false
  /-- edges of transitions before this local TCLK were in the pipeline when EN was cleared last: they are not counted (R69). -/
  from_ : Nat := 0
  /-- local TCLK in which CLR was written last (R69). -/
  clrAt : Option Nat := none
  /-- the advance of TOTAL due in the next TCLK (R65). -/
  adv : Option TotalStep := none
  /-- CHnnn_TDSTAT, its W1C bits [13:2]. -/
  tdstat : W32 := 0
  total : W32 := 0
  pos : W32 := 0
  slot : Nat := 0
  updcnt : BitVec 16 := 0
  /-- UPDCNT as the ECLK domain has seen it (R81). -/
  updSeen : BitVec 16 := 0
  /-- the decimation count (R83). -/
  decim : Nat := 0
  lstamp : Time64 := 0
  ustamp : Time64 := 0
  uattr : W32 := 0
  /-- TOTAL and POS of the update latch (R83). -/
  utotal : W32 := 0
  upos : W32 := 0
  pww : W32 := 0
  icap : Time64 := 0
  ipos : W32 := 0
  glitchc : BitVec 16 := 0
  qerrc : BitVec 16 := 0
  pfltc : BitVec 16 := 0
  coarsec : BitVec 16 := 0
  /-- the ring, 16 entries by TOTAL mod 16 (R81). -/
  ring : Bank RingEntry := []
  /-- an index for this decoder was accepted since the previous tooth (R82). -/
  idxPend : Bool := false
  /-- local TCLK in which its last tooth was formed (R110). -/
  toothAt : Option Nat := none
  /-- the reference gap has been found since enable or CLR (R80). -/
  refFound : Bool := false
  deriving DecidableEq, Repr

/-- What a decoder remembers to judge its next tooth (R73, R78). -/
structure DecTrack where
  /-- leading stamp of the pulse under way; none once it has reached PWT3 (R73). -/
  lead : Option Time64 := none
  leadCoarse : Bool := false
  leadSg : BitVec 2 := 0
  /-- stamp of the previous tooth in the present direction (R78). -/
  prev : Option Time64 := none
  /-- I′: the last interval that was not a gap. -/
  ivl : Option Int := none
  /-- direction of the previous tooth: true is reverse. -/
  rev : Bool := false
  deriving DecidableEq, Repr

/-- One battery-backed quadrature counter (R88–R90). -/
structure Aoq where
  cnt : W32 := 0
  /-- SC_AOQnCTL: ERRCNT [15:8], VALID [4], ERR [3], SWAP [1], EN [0]. -/
  ctl : W32 := 0
  pre : W32 := 0
  /-- levels of its two inputs: A is bit 1, B bit 0. -/
  ab : BitVec 2 := 0
  deriving DecidableEq, Repr

/-- The minimum-pulse filter of one commanded level (R193). Instants are local grains. -/
structure PulseFilter where
  /-- Q, the commanded level. -/
  q : Bool := false
  /-- the instant of the last change of Q. -/
  qAt : Nat := 0
  /-- Qf, the filtered level. -/
  qf : Bool := false
  /-- the instant of the last change of Qf. -/
  qfAt : Nat := 0
  deriving DecidableEq, Repr

/-- One side of a bridge pair (R195). Instants are local grains. -/
structure Side where
  on : Bool := false
  /-- the instant of its last turn-on. -/
  onAt : Nat := 0
  /-- the instant of its last turn-off, or of the enable. -/
  offAt : Nat := 0
  /-- the dead time that was in force when its last off time began, for the other side's turn-on (R196). -/
  dead : Nat := 0
  deriving DecidableEq, Repr

/-- The state a pair is in (BPnnn_STAT.STATE). -/
inductive PairState where
  | disabled | run | stopping | tripped
  deriving DecidableEq, Repr

/-- One bridge pair (R190–R201). -/
structure Pair where
  /-- BPnnn_CTL. -/
  ctl : W32 := 0x32#32
  dtr : W32 := 0x3E80#32
  dtf : W32 := 0x3E80#32
  /-- DTR and DTF in force in the present TCLK (R196). -/
  dtrNow : W32 := 0x3E80#32
  dtfNow : W32 := 0x3E80#32
  bsmax : W32 := 0x7A120#32
  bspw : W32 := 0x12C#32
  /-- BPnnn_STAT, its W1C bits [15:8]. -/
  stat : W32 := 0
  refc : BitVec 16 := 0
  eatc : BitVec 16 := 0
  tripc : BitVec 16 := 0
  filtc : BitVec 16 := 0
  ovlc : BitVec 16 := 0
  state : PairState := .disabled
  high : Side := {}
  low : Side := {}
  fhigh : PulseFilter := {}
  flow : PulseFilter := {}
  /-- the instant at which the refresh in progress began (R198). -/
  refresh : Option Nat := none
  /-- what the present TCLK has ordered for the next one: an enable (R199), a resume (R205), a disable (R200). -/
  enableDue : Bool := false
  resumeDue : Bool := false
  stopDue : Bool := false
  /-- the instant at which STOPPING began (R200). -/
  stopAt : Nat := 0
  deriving DecidableEq, Repr

/-- One trip input (R202–R205). -/
structure Trip where
  /-- TInn_CTL: EN [31], ACTH [30], TFILT [19:16], BLANK [9:0]. -/
  ctl : W32 := 0x00010032#32
  clrRej : Bool := false
  latch : Bool := false
  /-- level at the ball; until its first transition that of an inactive input at reset (log entry 74: DESIGN CHOICE). -/
  ball : Bool := true
  /-- filtered LEVEL: 1 active. -/
  level : Bool := false
  /-- a blanking window is open in the present TCLK. -/
  window : Bool := false
  /-- the last local TCLK of the blanking window opened last. -/
  blankEnd : Option Nat := none
  /-- samples taken active in a row, up to the present TCLK (R202). -/
  active : Nat := 0
  /-- samples active in a row whatever the windows, for the cap (R202). -/
  raw : Nat := 0
  /-- a software trip is to be accepted in the next TCLK (R203). -/
  soft : Bool := false
  /-- a trip accepted in the present TCLK takes the pairs to TRIPPED in the next one (R203). -/
  hit : Bool := false
  /-- the local TCLK in which the last trip was accepted (R201, R205). -/
  acceptedIn : Option Nat := none
  tripc : BitVec 16 := 0
  blankc : BitVec 16 := 0
  deriving DecidableEq, Repr

/-- The sync state of an axis (R108, R109), in the order of its codes. -/
inductive Sync where
  | search | locking | locked | ghosted | coasting | syncLost
  deriving DecidableEq, Repr

/-- A second-order segment, or the fitted model (R98, R112): θ0 at t0, speed and acceleration in the formats of
R261: w in ANG64 units per grain with 32 fraction bits, a in units per grain squared with 64 fraction bits. -/
structure Segment where
  theta0 : Ang64 := 0
  t0 : Time64 := 0
  w : W64 := 0
  a : W64 := 0
  deriving DecidableEq, Repr

/-- The pacing values an engine loads with a speed model (R95, R96). -/
structure Pacing where
  /-- RATE, unsigned Q16.32. -/
  rate : Nat := 0
  /-- DRATE, signed, 32 fraction bits. -/
  drate : Int := 0
  /-- ivl, unsigned Q48.16 grains. -/
  ivl : Nat := 0
  /-- divl, signed, the format of ivl. -/
  divl : Int := 0
  deriving DecidableEq, Repr

/-- Configuration of one axis (R115, R116, R145). -/
structure AxisCfg where
  /-- AXnnnn_CFG. -/
  cfg : W32 := 0x0033A000#32
  src : W32 := 0
  tpt : W32 := 0
  win : W32 := 0x01800080#32
  ghmax : W32 := 250000#32
  stop : W32 := 25000000#32
  ofs : Ang64 := 0
  /-- GEAR (4000h + a:0Fh). -/
  gear : Ang64 := 0x100000000#64
  /-- AOQ_OFFSET (4000h + a:12h). -/
  aoqOfs : W32 := 0
  /-- REMOTE_MISS (4000h + a:13h), ticks. -/
  remoteMiss : Nat := 4
  /-- COAST_LIMIT (4000h + a:14h), ticks. -/
  coastLimit : Nat := 16
  /-- AXnnnn_HOR.HGUARD (R145). -/
  hguard : Nat := 128
  deriving DecidableEq, Repr

/-- What an axis has met: its sync state, flags and counts (R108, R115). -/
structure AxisStat where
  sync : Sync := .search
  /-- AXnnnn_STAT, its W1C bits [20:19] and [15:7]. -/
  stat : W32 := 0
  valid : Bool := false
  stopped : Bool := false
  model : Bool := false
  dir : Bool := false
  earlyc : BitVec 16 := 0
  ghostc : BitVec 16 := 0
  slipc : BitVec 16 := 0
  lostc : BitVec 16 := 0
  slipv : W32 := 0
  /-- ticks spent in COASTING, or without a sample (R108). -/
  ticks : Nat := 0
  /-- the AOQ counter has still to be read after EN has risen (R110). -/
  seeding : Bool := false
  /-- the instant of the angle read last as object ANGLE, which ANGLE_TIME returns (R116). -/
  angRead : Option Time64 := none
  /-- POLICY_BUSY (R151, R164). -/
  policyBusy : Bool := false
  deriving DecidableEq, Repr

/-- The interpolating track of one axis (R92–R106). -/
structure Track where
  /-- C, signed count of slots (R93), taken modulo 2^64. -/
  c : Int := 0
  /-- angle published at the end of the last TCLK (R92), its instant, and the sync state and DIR published with it (R136, R183). -/
  ang : Ang64 := 0
  angT : Time64 := 0
  pubSync : Sync := .search
  pubDir : Bool := false
  anchorAng : Ang64 := 0
  anchorT : Time64 := 0
  /-- predicted time of the anchored tooth (R100). -/
  p : Time64 := 0
  span : Nat := 1
  m : Int := 0
  mm : Nat := 0
  acc : Nat := 0
  /-- a tooth or a ghost has set mm to its value at the end of the present TCLK (R96). -/
  took : Bool := false
  catching : Bool := false
  halted : Bool := false
  pace : Pacing := {}
  /-- early limit, prediction and deadline of the next tooth (R100). -/
  early : Time64 := 0
  predict : Time64 := 0
  deadline : Time64 := 0
  /-- the ghost's deadline while GHOSTED, for the absorption window (R103). -/
  ghostDl : Time64 := 0
  /-- teeth stamped at or after the deadline, held until the ghost (R102): stamp, attribute word, update tooth. -/
  held : List (Time64 × W32 × Bool) := []
  /-- TPT learning: C and direction at the first index tooth (R111). -/
  learn : Option (Int × Bool) := none
  /-- local TCLK of the last accepted tooth (R107). -/
  lastTooth : Nat := 0
  /-- local TCLK in which TIME64 has reached the deadline, none before (R102). -/
  dueAt : Option Nat := none
  /-- the ghost decision for this deadline has been taken (R102). -/
  decided : Bool := false
  deriving DecidableEq, Repr

/-- One fit point: stamp, the count of its tooth, and its angle (R98, R99). -/
structure FitPoint where
  stamp : Time64
  c : Int
  ang : Ang64
  deriving DecidableEq, Repr

/-- The model and segment of one axis (R98, R112–R114). -/
structure AxisModel where
  /-- the segment in force, or the model fitted last. -/
  seg : Segment := {}
  /-- a segment is in force (remote, virtual and master-derived axes). -/
  segOn : Bool := false
  /-- newest first. -/
  points : List FitPoint := []
  /-- the newest update tooth not yet served: stamp, its STEP_GEN, C, and whether it is a fit point (R26, R98). -/
  upd : Option (Time64 × BitVec 2 × Int × Bool) := none
  /-- the last update tooth or sample lay within its windows (R108). -/
  updIn : Bool := true
  /-- position samples waiting for the tick work of the tick after theirs, oldest first: position, stamp, and the number of the
  tick in which they came (R21, R114). -/
  samples : List (W32 × Time64 × Nat) := []
  deriving DecidableEq, Repr

/-- One axis. -/
structure Axis where
  cfg : AxisCfg := {}
  st : AxisStat := {}
  trk : Track := {}
  mdl : AxisModel := {}
  deriving DecidableEq, Repr

/-- Slug states (R120), in the order of their codes. -/
inductive SlugState where
  | free | parked | pending | armed | committed | done | missed | cancelled
  deriving DecidableEq, Repr

/-- Result codes of slug commands (R142), in the order of their codes; FULL and NOT_VALID are channel-bus codes. -/
inductive GlCode where
  | ok | noFree | badField | stale | committed | wrongState
  deriving DecidableEq, Repr

/-- One slug (R118), its fields; the SID is its storage index. -/
structure Slug where
  axis : Nat := 0
  chan : Nat := 0
  act : Nat := 0
  state : SlugState := .free
  revp : Nat := 0
  losp : Nat := 0
  mode : Bool := false
  rpt : Bool := false
  angle : Ang64 := 0
  /-- TOFS × 64 + TOFSF, grains (R121). -/
  tofs : Nat := 0
  /-- D, grains (R121). -/
  dur : Nat := 0
  dmin : Nat := 0
  dmax : Nat := 0
  seq : W32 := 0
  /-- has been assigned since reset (R146); before that its image reads as zero. -/
  used : Bool := false
  /-- met CHASE_FULL while PENDING (R127). -/
  metFull : Bool := false
  deriving DecidableEq, Repr

/-- One chase entry (R133). -/
structure Entry where
  t : Time64
  g : Ang64
  d : Nat
  sid : Nat
  axis : Nat
  chan : Nat
  act : Nat
  mode : Bool
  supp : Bool
  revp : Nat
  losp : Nat
  rpt : Bool
  seq : W32
  /-- RLEAD in force at arming (R134). -/
  lead : Nat
  /-- released under LOSP COAST: its commit carries COAST (R153, R156). -/
  coast : Bool := false
  deriving DecidableEq, Repr

/-- One chase of 64 entries: slot number to entry (R131, R133). -/
structure Chase where
  entries : Bank (Option Entry) := []
  /-- the entries as they stood at the start of the present TCLK: its compare takes them (R135, R137). -/
  start : Bank (Option Entry) := []
  /-- the slot that has committed in the present TCLK; it is held up to the next one (R132, R135). -/
  committed : Option Nat := none
  peak : Nat := 0
  ovfc : BitVec 16 := 0
  latec : BitVec 16 := 0
  deriving DecidableEq, Repr

/-- A committed occurrence on its way through the channel stage (R135, R136, R162). -/
structure Occurrence where
  sid : Nat
  axis : Nat
  chan : Nat
  act : Nat
  /-- edge time E. -/
  e : Time64
  /-- E as R174 places it: moved by the phase steps since its commit. -/
  place : Time64
  d : Nat
  seq : W32
  /-- STEP_GEN of the TCLK of its commit (R174). -/
  sg : BitVec 2
  late : Bool
  lateTclk : Nat
  ghosted : Bool
  coast : Bool
  rpt : Bool
  /-- RLEAD of its entry, TCLK: by so much an action of a remote channel leaves the stage ahead of E (R188). -/
  lead : Nat := 0
  /-- the DIR of its axis as published with the angle used at commit: true is reverse (R183). -/
  back : Bool := false
  /-- the bridge pair of its channel has been in RUN at or after its commit (R162). -/
  ran : Bool := false
  tripped : Bool := false
  /-- cut by a bridge-pair disable, REASON 1001b (R162). -/
  cut : Bool := false
  /-- has acted at E and waits for the end of D. -/
  begun : Bool := false
  /-- the end of D of an action that has begun, local grains. -/
  endAt : Nat := 0
  deriving DecidableEq, Repr

/-- A record in the commit FIFO (R127, R316). -/
inductive CommitRec where
  /-- an entry committed. -/
  | commit (o : Occurrence)
  /-- the channel stage reports the action complete. -/
  | complete (o : Occurrence)
  deriving DecidableEq, Repr

/-- The axis events that raise a policy request (R148, R150). -/
inductive PolicyKind where
  | reversal | stopped | syncLost | search | disabled | resync | suppressed
  deriving DecidableEq, Repr

/-- A request in a cluster's update queue (R26, R129, R150). -/
inductive UpdReq where
  | update (axis : Nat)
  | arm (axis : Nat)
  /-- event kind, whether the axis was absolute (R158), the slugs whose entries were acted on and the PARKED and PENDING
  slugs in the list at the event, by SID and SEQ (R150, R151), the TIME64 of the event. -/
  | policy (axis : Nat) (kind : PolicyKind) (absolute : Bool) (ents sids : List (Nat × W32)) (at_ : Time64)
  deriving DecidableEq, Repr

/-- An outcome record (R140). -/
structure Outcome where
  time : Time64
  sid : Nat
  axis : Nat
  chan : Nat
  state : SlugState
  reason : Nat
  late : Bool
  ghosted : Bool
  coast : Bool
  tripped : Bool
  rept : Bool
  lateTclk : Nat
  deriving DecidableEq, Repr

/-- Operations of the galley (R142, R263). -/
inductive GlOp where
  | insert | remove | modify | modifyDur | free | pop | pend | mark | read
  deriving DecidableEq, Repr

/-- Who presents a galley request (R325). -/
inductive GlReq where
  | commit | host | link | fieldPort | compositor | engine (e : Nat) (ctx : Nat)
  deriving DecidableEq, Repr

/-- A galley operation presented to the top arbiter, granted or not (R325, R326). -/
structure GlWork where
  who : GlReq
  op : GlOp
  /-- SID named. -/
  sid : Nat := 0
  seq : W32 := 0
  /-- the staged slug. -/
  slug : Slug := {}
  /-- a reserved bit, ACT, REVP, LOSP or OP that makes the operation BAD_FIELD (R123, R142). -/
  bad : Bool := false
  /-- axis and angle bound of POP, PEND (R263); target state of MARK and its flags. -/
  arg : W64 := 0
  arg2 : W64 := 0
  /-- data-space address of the block to be written. -/
  blk : Nat := 0
  age : Nat := 0
  /-- the published angle of the slug's axis at the grant (R127). -/
  pub : Ang64 := 0
  /-- the value to which its grant has advanced the sequence counter (R138). -/
  newSeq : W32 := 0
  /-- the event group whose template it is (R393). -/
  group : Option Nat := none
  deriving DecidableEq, Repr

/-- The galley (R118–R147, R325–R327). -/
structure Galley where
  cfg : W32 := 0x13880071#32
  /-- GL_STAT, its W1C bits [6:1]. -/
  stat : W32 := 0
  seq : W32 := 0
  /-- GL_CMD: OP [26:24], SID [17:0]. -/
  cmd : W32 := 0
  /-- GL_CMD.GO reads 1. -/
  go : Bool := false
  /-- GL_RESULT. -/
  result : W32 := 0
  rseq : W32 := 0
  /-- GL_SW0–GL_SW7. -/
  sw : Bank W32 := []
  orhead : Nat := 0
  ortail : Nat := 0
  orlost : W32 := 0
  /-- GL_COMPACT.START: a compaction runs. -/
  compacting : Bool := false
  /-- grant slots given to requests since the compaction took one (R144). -/
  slots : Nat := 0
  /-- GL_ARB.WMAX. -/
  wmax : Nat := 0
  chaseFull : W32 := 0
  missed : W32 := 0
  late : W32 := 0
  deriving DecidableEq, Repr

/-- The galley's storage: slugs, the free list's order, records. -/
structure GalleyStore where
  slugs : Bank Slug := []
  /-- SIDs freed since reset or compaction, next to be assigned after the never-assigned ones; oldest first. -/
  freed : List Nat := []
  /-- SIDs below this one have left the initial free list. -/
  fresh : Nat := 0
  /-- slugs retired from service by an uncorrectable error (R448). -/
  retired : List Nat := []
  /-- the commit FIFO, oldest first (R316). -/
  fifo : List CommitRec := []
  /-- committed occurrences whose completion is to come (U of R316). -/
  flight : List Occurrence := []
  /-- requests presented to the top arbiter, in order of arrival (R325). -/
  presented : List GlWork := []
  /-- operations granted and not yet complete, in grant order (R125). -/
  granted : List GlWork := []
  deriving DecidableEq, Repr

/-- The policy counts of 5002h (R164). -/
structure PolicyCounts where
  revParked : W32 := 0
  revFired : W32 := 0
  revCancelled : W32 := 0
  lospHeld : W32 := 0
  lospCoasted : W32 := 0
  lospCancelled : W32 := 0
  searchCancelled : W32 := 0
  suppressedMissed : W32 := 0
  tripped : W32 := 0
  deriving DecidableEq, Repr

/-- The impression tick (R15–R22): the objects 2010h and what a boundary takes up. -/
structure TickCtl where
  /-- P, TCLK. -/
  period : Nat := 31250
  /-- A. -/
  anchor : Time64 := 0
  number : BitVec 16 := 0
  /-- NEXT_PERIOD (2010h:03h). -/
  nextPeriod : W32 := 0
  nextAnchor : Time64 := 0
  /-- CHANGE_STATE: 0 none, 1 pending, 2 done, 3 rejected. -/
  change : Nat := 0
  lastBoundary : Time64 := 0
  /-- the local TCLK of the last strobe, and its TIME64. -/
  strobeAt : Option Nat := none
  strobeTime : Time64 := 0
  /-- boundaries since reset, whatever the tick number does. -/
  count : Nat := 0
  /-- the next boundary that raises a strobe. -/
  next : Time64 := 2000000#64
  /-- after a time set, the boundary still to come that raises no strobe (R49). -/
  quiet : Option Time64 := none
  /-- a time set still waits for its first strobe: the field-port plans and the link windows rest until it (R49). -/
  unsettled : Bool := false
  deriving DecidableEq, Repr

/-- The load objects of 2011h (R28). -/
structure LoadObj where
  /-- ECLK_MHZ, as the margin plan in force sets it (R28, R442). -/
  eclk : Nat := 500
  /-- an engine has raised TICK_OVERRUN in the present tick. -/
  overNow : Bool := false
  tickLoad : BitVec 16 := 0
  tickLoadPeak : BitVec 16 := 0
  overruns : W32 := 0
  coalesced : W32 := 0
  deriving DecidableEq, Repr

/-- The servo states (R43), in the order of their codes. -/
inductive Servo where
  | unset | acquire | locked | holdover | free
  deriving DecidableEq, Repr

/-- A step or time set that waits for a boundary (R45, R47, R49). -/
inductive PendingStep where
  /-- a phase step; `host` for one committed through TB_STEP. -/
  | step (s : W64) (host : Bool)
  | timeSet (o : W64)
  deriving DecidableEq, Repr

/-- The timebase (R34–R36, R43–R49): counter, trim, registers. -/
structure Timebase where
  time : Time64 := 0
  /-- 48-bit fraction of the R34 accumulator. -/
  frac : BitVec 48 := 0
  /-- TIME64 up to which the instants of the tick have been met: what lies after it and not after TIME64 is met in the present TCLK
  (R342, R360). -/
  mark : Time64 := 0
  /-- untrimmed TCLKs since reset (R36). -/
  tclk : Nat := 0
  /-- trim in force, ppt. -/
  trim : Int := 0
  /-- the trims set that are not yet in force, each with the TCLKs until it takes effect, oldest first (R35). -/
  trimNext : List (Int × Nat) := []
  htrim : Int := 0
  /-- TB_CTL: PLANT [3], ROLE [2:1], SERVO [0]. -/
  ctl : W32 := 1
  /-- TB_STAT, its W1C bits HTRIM_REJ [13], STEP_REJ [12], ALIGN_LOST [10], TORN [7], TIME_SET [5], STEP_DONE [4]. -/
  stat : W32 := 0
  plantHold : Bool := false
  slewing : Bool := false
  stepGen : BitVec 2 := 0
  pending : Option PendingStep := none
  /-- the step or time set taken up by the boundary of the present TCLK (R45). -/
  stepNow : Option PendingStep := none
  /-- boundaries since the last step or time set; none before the first (R47). -/
  sinceStep : Option Nat := none
  /-- S of the last step, for stamps of the previous generation (R47). -/
  lastS : W64 := 0
  /-- has been LOCKED since the last reset or exit from HOLD (R44). -/
  lockedOnce : Bool := false
  /-- ALIGN_OK as last reported (R53). -/
  alignOk : Bool := false
  deriving DecidableEq, Repr

/-- The objects of 2000h and the servo's memory (R43, R44, R52, R56). -/
structure ServoObj where
  /-- TB_STAT.STATE. -/
  servo : Servo := .unset
  offset : W64 := 0
  stepMax : Nat := 1024
  slewMax : Nat := 5000000
  lockThreshold : Nat := 8
  lockCount : Nat := 8
  alignLimit : Nat := 15
  wanderLimit : Nat := 1000
  lastStep : W64 := 0
  stepCount : W32 := 0
  timeSetCount : W32 := 0
  /-- EPOCH in force: as read at reset, captured, or announced by the manager (R41). -/
  epochS : W64 := 0
  epochNs : W32 := 0
  /-- EPOCH as the objects 2000h:10h and 11h hold it: a write acts at the next reset (R41). -/
  epochObjS : W64 := 0
  epochObjNs : W32 := 0
  /-- EPOCH in use was captured at the first plant LOCKED (R41). -/
  epochCaptured : Bool := false
  slewRemaining : W64 := 0
  /-- consecutive offsets within LOCK_THRESHOLD. -/
  within : Nat := 0
  /-- absolute offsets of the last Syncs, newest first, at most 64 (E0, R52). -/
  offsets : List Nat := []
  /-- the last servo trims, newest first, at most 16 (R52). -/
  trims : List Int := []
  /-- E0 of the present HOLDOVER as a sum of absolute offsets and the number of them (R52). -/
  e0 : Nat := 0
  e0n : Nat := 0
  /-- the last trim the servo set without a slew: a slew offsets it by up to SLEW_MAX (R44). -/
  trimBase : Int := 0
  /-- the receive stamp of the last accepted Sync. -/
  lastSync : Time64 := 0
  /-- the time set of the present ACQUIRE has been ordered (R49). -/
  setDone : Bool := false
  /-- this manager took over as a standby manager (R55). -/
  tookOver : Bool := false
  /-- the manager has sent its first Sync (R53). -/
  syncSent : Bool := false
  deriving DecidableEq, Repr

/-- The data set of the grandmaster a device follows (R38, R42): priority1, clock quality, priority2, identity, steps removed. -/
structure Announce where
  priority1 : Nat := 255
  quality : W32 := 0
  priority2 : Nat := 255
  identity : W64 := 0
  steps : Nat := 0
  port : Nat := 0
  deriving DecidableEq, Repr

/-- The PTP objects of one MAC (R58) and its peer-delay memory. -/
structure PtpPort where
  txLatency : W32 := 0
  rxLatency : W32 := 0
  asymmetry : W32 := 0
  meanLinkDelay : W32 := 0
  /-- t1 of the request sent and t4, t2 of its response, while one is under way. -/
  reqSent : Option Time64 := none
  respAt : Option (Time64 × Time64) := none
  deriving DecidableEq, Repr

/-- A PTP time as messages carry it (R40): seconds, nanoseconds, and a correction field in units of 2^-16 ns. -/
structure PtpTime where
  s : Nat := 0
  ns : Nat := 0
  corr : Int := 0
  deriving DecidableEq, Repr

/-- A PTP message the device sends: the port and the sequence number first; those of the domain instance carry DOMAIN_NUMBER (R38). -/
inductive PtpMsg where
  | sync (port dom : Nat) (seq : BitVec 16)
  | followUp (port dom : Nat) (seq : BitVec 16) (origin : PtpTime)
  | announce (port dom : Nat) (seq : BitVec 16) (priority1 : Nat)
  | pdelayReq (port : Nat) (seq : BitVec 16)
  | pdelayResp (port : Nat) (seq : BitVec 16) (received : Time64)
  | pdelayRespFollowUp (port : Nat) (seq : BitVec 16) (sent : Time64)
  deriving DecidableEq, Repr

/-- PTP (R37–R42, R57). -/
structure Ptp where
  domain : Nat := 20
  plantDomain : Nat := 0
  portMask : Nat := 1
  logSync : Int := -5
  logPdelay : Int := 0
  logAnnounce : Int := -3
  syncTimeout : Nat := 3
  announceTimeout : Nat := 3
  ports : Bank PtpPort := []
  /-- the grandmaster selected, in the domain instance and in the plant instance. -/
  best : Option Announce := none
  plantBest : Option Announce := none
  /-- the last Announce of each port, in the domain instance and in the plant instance: what the best master clock algorithm compares. -/
  heard : List Announce := []
  plantHeard : List Announce := []
  /-- the offset to plant time a standby manager measures (R55). -/
  plantOffset : Int := 0
  plantSync : Option (Nat × BitVec 16 × Time64) := none
  /-- messages sent, oldest first: the model's own record of the wire. -/
  sent : List PtpMsg := []
  /-- a Sync received and waiting for its Follow_Up: port, sequence number, receive stamp. -/
  syncRx : Option (Nat × BitVec 16 × Time64) := none
  seqSync : BitVec 16 := 0
  seqAnnounce : BitVec 16 := 0
  seqPdelay : BitVec 16 := 0
  deriving DecidableEq, Repr

/-- One compositor (R233–R249): its registers. -/
structure CompRegs where
  /-- CPnn_CTL: EN [31], ISD [30], OSD [29], FTH [22:16], DIV [15:0]. -/
  ctl : W32 := 0x00400000#32
  /-- CPnn_PINS: OBASE [31:24], OCNT [19:16], IBASE [15:8], OEI [7:0]. -/
  pins : W32 := 0
  /-- CPnn_STAT, its W1C bits [11:5]. -/
  stat : W32 := 0
  pc : BitVec 6 := 0
  txd : W32 := 0
  rxd : W32 := 0
  txf : Bool := false
  rxf : Bool := false
  s : W64 := 0
  bc : Nat := 0
  c0 : W32 := 0
  c1 : W32 := 0
  wt : Time64 := 0
  oli : BitVec 8 := 0
  deriving DecidableEq, Repr

/-- One compositor at work (R234, R236, R240, R246). -/
structure Comp where
  r : CompRegs := {}
  /-- CPnn_IMEM. -/
  imem : Bank W32 := []
  run : Bool := false
  tpend : Bool := false
  stall : Bool := false
  /-- output levels and drive enables by output index. -/
  levels : BitVec 8 := 0
  drives : BitVec 8 := 0
  /-- steps of DLY still to pass. -/
  dly : Nat := 0
  /-- a HALT instruction waits for its DLY to pass (R242). -/
  halting : Bool := false
  /-- a tick WAIT is under way, and whether a strobe has fallen since its first step (R240). -/
  waitTick : Bool := false
  tickSeen : Bool := false
  /-- TCLKs until the next step. -/
  until_ : Nat := 0
  /-- what has changed in the present TCLK, for the rules that read a value as it stood at its start (R234, R243, R247–R249): it has
  started; a halt has landed; it has halted by itself; EN, levels and drive enables before their changes; TXD has been written; the
  write of TXD that found it full, with TXOVR as it was; RXD before it was written; WT before it was written. -/
  fresh : Bool := false
  stop : Bool := false
  ended : Bool := false
  pinsWere : Option (Bool × BitVec 8 × BitVec 8) := none
  txNew : Bool := false
  txTry : Option (W32 × Bool) := none
  rxWas : Option W32 := none
  wtWas : Option W64 := none
  deriving DecidableEq, Repr

/-- The control half of one Nguvar engine (R252, R268–R277). -/
structure EngineCtl where
  /-- NExx_CTL: CTICK [7], ICTX [6:5], LOCK [2], OFFLINE [0]. -/
  ctl : W32 := 0x40#32
  /-- NExx_STAT, its W1C bits [16:12]. -/
  stat : W32 := 0
  ready : BitVec 4 := 0
  /-- wakes that arrived while a context was running or ready, or could not run yet (R270). -/
  pendWake : BitVec 4 := 0
  /-- the context running. -/
  ctx : Nat := 0
  /-- a context is running (none is before the first safe point that finds one ready). -/
  busy : Bool := false
  paired : Bool := false
  chalted : Bool := true
  online : Bool := true
  /-- an accepted offline request waits for its safe point (R274). -/
  offReq : Bool := false
  /-- an online request waits for the next boundary (R275). -/
  onReq : Bool := false
  /-- CHALT waits for the next safe point (R270). -/
  chaltReq : Bool := false
  /-- NExx_FAULT. -/
  fault : W32 := 0
  /-- a fault recorded and not yet taken at a safe point: code, context, address (R277). -/
  pendFault : Option (Nat × Nat × Nat) := none
  centry : W32 := 0x6000#32
  tback : W32 := 0
  /-- tick number whose work context 0 serves. -/
  tickNo : BitVec 16 := 0
  ovrc : BitVec 16 := 0
  faultc : BitVec 16 := 0
  load : BitVec 16 := 0
  /-- update credit count (R25). -/
  credits : Int := 0
  /-- the request context 1 has taken (R271). -/
  taken : Option UpdReq := none
  /-- ECLK spent by context 1 on the request it has taken. -/
  spent : Nat := 0
  /-- a SAFE word has executed and the poll is still to come (R268). -/
  atSafe : Bool := false
  /-- ECLK spent in contexts 0 and 1 in the present tick (R28). -/
  cycles : Nat := 0
  /-- m and j of R273 for the present tick. -/
  shareM : Nat := 4
  shareJ : Nat := 0
  /-- a trace record was written in the last ECLK (R278). -/
  traced : Bool := false
  /-- ECLK until the engine's divider is free (R260). -/
  divBusy : Nat := 0
  /-- LOCK as the last boundary took it up (R276). -/
  lockIn : Bool := false
  deriving DecidableEq, Repr

/-- A result latch with the results still on their way to it: ECLK until each arrives, oldest first (R256, R259, R265). -/
structure Latch where
  cur : W64 := 0
  /-- it holds an arrival that no GET has taken. -/
  fresh : Bool := false
  fly : List (Nat × W64) := []
  deriving DecidableEq, Repr

/-- An angle-unit operation in flight: ECLK until it completes, its result, and what it sets AHEAD and NOROOT to. -/
structure AngOp where
  left : Nat
  result : W64
  ahead : Option Bool := none
  noroot : Option Bool := none
  deriving DecidableEq, Repr

/-- One thread context of an engine (R253). -/
structure Ctx where
  regs : Bank W64 := []
  z : Bool := false
  n : Bool := false
  c : Bool := false
  v : Bool := false
  pc : BitVec 15 := 0
  /-- the next resumption begins at the context's entry address (R269). -/
  start : Bool := true
  /-- return addresses, newest first, at most 8. -/
  stack : List (BitVec 15) := []
  xb : BitVec 24 := 0
  xt : BitVec 12 := 0
  mrd : Latch := {}
  mdr : Latch := {}
  anr : W64 := 0
  anrFresh : Bool := false
  angs : List AngOp := []
  ahead : Bool := false
  noroot : Bool := false
  grs : W64 := 0
  /-- galley result code: the codes of GL_RESULT, and 6 NONE. -/
  galCode : Nat := 0
  /-- a galley operation has been issued since the last GETG. -/
  galIssued : Bool := false
  /-- a galley operation is in flight. -/
  galBusy : Bool := false
  /-- the return queue: operations issued and not yet popped, oldest first; none until completed. -/
  retq : List (Option W64) := []
  /-- the angle unit's model latch. -/
  model : Segment := {}
  /-- a fault suppresses port operations and stores up to the next safe point (R277). -/
  faulted : Bool := false
  deriving DecidableEq, Repr

/-- A channel-bus operation on its lane (R264): engine, context, CHOP code, CHSEL + XT, IMM2, G(BSA), block address. -/
structure ChanOp where
  eng : Nat
  ctx : Nat
  op : Nat
  target : Nat
  imm2 : W32
  data : W64
  blk : Nat
  /-- the block as it stood at issue (R266). -/
  block : List W64 := []
  /-- the slug, by SID and SEQ, of the chase entry named, as it stood at issue (R137). -/
  ent : Option (Nat × W32) := none
  deriving DecidableEq, Repr

/-- The channel-bus lane of one cluster: operations in order of issue, and the engine granted last (R265). -/
structure Lane where
  ops : List ChanOp := []
  last : Nat := 3
  deriving DecidableEq, Repr

/-- The control store's RAM, vectors and loader objects (R280–R297). The four copies hold the same words. -/
structure Store where
  /-- words 4000h–7FFFh. -/
  words : Bank Microword := []
  /-- the 256 patch vectors. -/
  vectors : Bank W32 := []
  /-- IMAGE (2040h:01h). -/
  image : List Byte := []
  /-- the open-forme image in force (R390). -/
  running : List Byte := []
  /-- OPEN_STATE: 0 none, 1 loading, 2 loaded. -/
  openState : Nat := 0
  /-- OPEN_STATE before the load in progress. -/
  openPrev : Nat := 0
  openResult : Nat := 0
  openBase : Nat := 0
  openWords : Nat := 0
  openPatchReq : W32 := 0
  patchState : Nat := 0
  patchResult : Nat := 0
  patchVersion : W32 := 0
  repairs : W32 := 0
  /-- 5F00h: STATE, PROGRESS, POSITION, PHASE, KIND. -/
  loState : Nat := 0
  progress : Nat := 0
  position : W32 := 0
  phase : Nat := 0
  kind : Nat := 0
  deriving DecidableEq, Repr

/-- The engine trace ring's pointers (R394); its records lie in the trace region of the data space. -/
structure TraceRing where
  head : Nat := 0
  tail : Nat := 0
  dropped : W32 := 0
  deriving DecidableEq, Repr

/-- One entry of a gate-drive head's edge queue (R187, R346). -/
structure EdgeEntry where
  e : Time64
  level : Bool
  hout : Nat
  /-- the channel it came from. -/
  chan : Nat
  /-- local TCLK in which it enters the queue: the one after it leaves the stage (R346). -/
  tclk : Nat
  deriving DecidableEq, Repr

/-- One remote head (R340–R350): its registers. -/
structure Head where
  /-- HDnnnn_CFG, staged: EN [31], RDIV [30:28], RPH [27:22], N [19:16]. -/
  cfg : W32 := 0x10000#32
  /-- the configuration in force since the last load (R344). -/
  use : W32 := 0x10000#32
  /-- TYPE: 0 none, 1 encoder, 2 gate-drive, 3 I/O. -/
  htype : Nat := 0
  hstat : Byte := 0
  enumd : Bool := false
  /-- HDnnnn_STAT, its W1C bits [6:2]. -/
  stat : W32 := 0
  slot : BitVec 16 := 0
  len : BitVec 16 := 0
  ld : BitVec 20 := 0
  /-- Q as the port last wrote it to the head (R344, R348). -/
  q : Nat := 0
  version : Byte := 0
  cap : W32 := 0
  /-- the edge queue, oldest first. -/
  eq : List EdgeEntry := []
  /-- entries carried by the request on the line, kept until its exchange has succeeded. -/
  sent : List EdgeEntry := []
  seqb : BitVec 4 := 0
  paramIndex : Byte := 8
  /-- an I/O head's input levels as it last latched them. -/
  inputs : BitVec 16 := 0
  /-- staged configuration taken up by an accepted load and not yet in force (R344). -/
  next : Option W32 := none
  /-- it has been served in the present tick. -/
  served : Bool := false
  /-- its SLOT has changed: the next service is shifted and its samples are discarded (R344). -/
  moved : Bool := false
  deriving DecidableEq, Repr

/-- Who made a dictionary request (R385): the PCIe or QSPI mailbox, or an acyclic session. -/
inductive DictWho where
  | pcie | qspi | session (n : Nat)
  deriving DecidableEq, Repr

/-- An acyclic request of a field port (R345, R348). -/
inductive AcyKind where
  | identify
  /-- parameters 00h–07h of an identified head: TYPE, VERSION, CAP, LD, Q. -/
  | setup (type version cap ld q : Nat)
  /-- the new Q of a plan (R344). -/
  | newQ (q : Nat)
  | read (pidx len : Nat)
  | write (pidx : Nat) (data : List Byte)
  deriving DecidableEq, Repr

structure AcyReq where
  head : Nat
  kind : AcyKind
  /-- the dictionary requester that waits for it. -/
  who : Option DictWho := none
  /-- bytes of a split access done so far, and those read (R345). -/
  done : Nat := 0
  /-- failed tries of an exchange that must wait for the next acyclic slot. -/
  tries : Nat := 0
  got : List Byte := []
  /-- the dictionary service that waits for it, and the bytes a READ_SEG asks for (R382). -/
  svc : Nat := 1
  want : Nat := 0
  deriving DecidableEq, Repr

/-- The exchange on the line of a port (R333, R337, R343). -/
structure Exchange where
  head : Nat
  /-- the acyclic request it serves; none for a cyclic exchange. -/
  acy : Option AcyReq := none
  /-- the request frame. -/
  frame : List Byte := []
  /-- TIME64 of the TCLK in which the request's start bit leaves, and its planned value. -/
  x : Time64 := 0
  xnom : Time64 := 0
  /-- TCLK in which the request's start bit leaves (R336). -/
  start : Nat := 0
  tries : Nat := 0
  /-- bytes of the acyclic access in this exchange. -/
  n : Nat := 0
  /-- samples are discarded (R344). -/
  skip : Bool := false
  /-- the tick in which a cyclic exchange started, in boundaries since reset (R21). -/
  tick : Nat := 0
  /-- it may not be repeated: the port was disabled, or the tick has ended (R30, R349). -/
  last : Bool := false
  deriving DecidableEq, Repr

/-- One field port (R331–R350): its registers. -/
structure FieldPort where
  cfg : W32 := 0x10000400#32
  /-- FPnn_STAT, its W1C bits [10:2]. -/
  stat : W32 := 0
  planBusy : Bool := false
  pend : BitVec 16 := 0
  acylen : BitVec 16 := 0
  crcc : BitVec 16 := 0
  norc : BitVec 16 := 0
  retryc : BitVec 16 := 0
  ovrc : BitVec 16 := 0
  latec : BitVec 16 := 0
  eovfc : BitVec 16 := 0
  discc : BitVec 16 := 0
  acyfc : BitVec 16 := 0
  line : Option Exchange := none
  /-- a retry of this tick or a plan carried past the boundary has moved its later exchanges back, by so many TCLK (R30, R343). -/
  shifted : Bool := false
  delay : Nat := 0
  /-- the plan in force no longer fits the tick period: the port serves its acyclic slot alone (R19). -/
  unplanned : Bool := false
  /-- TCLK in which the port was disabled last (R350). -/
  offIn : Option Nat := none
  /-- the acyclic queue, oldest first. -/
  acy : List AcyReq := []
  /-- the address enumeration has reached (R348). -/
  enumAt : Option Nat := none
  deriving DecidableEq, Repr


/-- A long operation of 5F00h–5F05h (R392): STATE 0 idle, 1 running, 2 done, 3 refused. -/
structure LongOp where
  state : Nat := 0
  progress : Nat := 0
  position : Nat := 0
  deriving DecidableEq, Repr

/-- Head enumeration (5F05h, R392): its addresses in all and those finished, and whether a port's ended refused. -/
structure EnumOp where
  op : LongOp := {}
  total : Nat := 0
  done : Nat := 0
  refused : Bool := false
  /-- it is the enumeration that follows a boot: the plans are loaded at its end (R389). -/
  boot : Bool := false
  deriving DecidableEq, Repr

/-- The lifecycle of the mordant (R397), in the order of its codes. -/
inductive Lifecycle where
  | blank | develop | field | retired
  deriving DecidableEq, Repr

/-- The state of a command-key slot (R399), in the order of its codes. -/
inductive SlotState where
  | empty | valid | voided
  deriving DecidableEq, Repr

/-- One command-key slot (R399). -/
structure KeySlot where
  state : SlotState := .empty
  key : BitVec 256 := 0
  /-- the key wrapped under K_WRAP (R401); empty until a key is written. -/
  wrapped : List Byte := []
  /-- SCOPE of slots 1–3; slot 0 reads FFh whatever stands here (R400). -/
  scope : Byte := 0
  /-- counter and fingerprint in the always-on island. -/
  counter : W64 := 0
  finger : W64 := 0
  deriving DecidableEq, Repr

/-- The mordant, the key slots and what the always-on island keeps for them (R396–R409). The device key and the vendor
public-key hash are Config constants. -/
structure Vault where
  /-- log entry 19: DESIGN CHOICE, a device as it ships. -/
  lifecycle : Lifecycle := .develop
  /-- customer key hash, once fused (R398). -/
  custHash : Option (BitVec 256) := none
  slots : Bank KeySlot := []
  /-- the bootstrap counter (R406). -/
  bootCounter : W64 := 0
  bootNonce : W64 := 0
  /-- the tamper latch (R409). -/
  tamper : Bool := false
  /-- VBAT is lost (R399, R320). -/
  vbatLost : Bool := false
  deriving DecidableEq, Repr

/-- The SC registers of rejected writes and failed keys (R403, R408). -/
structure Sec where
  /-- SC_SECSTAT, its W1C bits [7:4]. -/
  stat : W32 := 0
  rwkRej : W32 := 0
  rwkc : BitVec 16 := 0
  failures : W32 := 0
  lastFail : W32 := 0
  deriving DecidableEq, Repr

/-- The path of one port, or of one engine's GREG, into the register fabric (R418, R419). -/
structure PortPath where
  /-- latched words not yet spent, by BAR0 offset; words of BAR2 stand at 400_0000h above (R418, R143). -/
  latch : List (Nat × W32) := []
  /-- the staged lower word of a wide value: its BAR0 offset and value (R419). -/
  stage : Option (Nat × W32) := none
  deriving DecidableEq, Repr

/-- The host status of one port (R420), in the port's own reset domain. -/
structure HostStat where
  /-- HS_STAT, its W1C bits [6:3]. -/
  stat : W32 := 0
  dropc : BitVec 16 := 0
  badc : BitVec 16 := 0
  tornAddr : W32 := 0
  linten : Bool := false
  deriving DecidableEq, Repr

/-- The dictionary mailbox of one port (R423, R424). -/
structure Mailbox where
  /-- HI_MBCTL: MSGEN [30], MSG [23:16], LEN [10:0]. -/
  ctl : W32 := 0
  go : Bool := false
  /-- HI_MBSTAT, its W1C bits [13:11]. -/
  stat : W32 := 0
  rlen : Nat := 0
  req : Bank W32 := []
  rsp : Bank W32 := []
  deriving DecidableEq, Repr

/-- Interrupt signalling of the PCIe endpoint (R411, R412, R422). -/
structure PcieSig where
  msixEn : Bool := false
  /-- mask and pending bits of the four MSI-X entries. -/
  mask : BitVec 4 := 15
  pend : BitVec 4 := 0
  /-- the MSI-X table of BAR4 by word: address low and high, data (the mask bits stand in `mask`). -/
  table : Bank W32 := []
  msiEn : Bool := false
  /-- MSI vectors granted: 1, 2 or 4. -/
  vectors : Nat := 1
  intDis : Bool := false
  /-- messages sent, oldest first: an MSI-X entry, or 4 + the MSI vector. -/
  sent : List Nat := []
  deriving DecidableEq, Repr

/-- The QSPI transaction under way (R414–R416). -/
structure QspiTxn where
  /-- data words answered so far, with their status bytes (R415). -/
  answers : List (Byte × W32) := []
  /-- the word accepted or read whose status has not been sent: a write's address and value, or a read. -/
  open_ : Option (Nat × Option W32) := none
  /-- a TARGET RESET waits for HQ_CS_N to rise. -/
  resetDue : Bool := false
  /-- the opcode is unknown: ignored until HQ_CS_N rises. -/
  ignored : Bool := false
  deriving DecidableEq, Repr

/-- The host interfaces (R411–R424). Port 0 is PCIe, 1 QSPI; the path of engine e's GREG is 16 + e. -/
structure HostIf where
  paths : Bank PortPath := []
  stats : Bank HostStat := []
  boxes : Bank Mailbox := []
  pcie : PcieSig := {}
  txn : QspiTxn := {}
  /-- the domain of port 0 or 1 is in reset (R320). -/
  pcieReset : Bool := false
  qspiReset : Bool := false
  /-- the value the last read returned, by path: the model's own record of what the port answered. -/
  data : Bank W32 := []
  deriving DecidableEq, Repr

/-- The galley records that several requesters keep (R146, R393). -/
structure SlugReply where
  code : Nat := 0
  sid : Nat := 0
  seq : W32 := 0
  deriving DecidableEq, Repr

/-- A dictionary request in the service queue (R385). -/
structure SvcReq where
  who : DictWho
  body : List Byte
  deriving DecidableEq, Repr

/-- A session's snapshot or staging (R383). -/
structure SegStore where
  index : Nat
  sub : Nat
  bytes : List Byte
  /-- a snapshot of 6000h:06h: the ring position after its last record (R394). -/
  mark : Nat := 0
  deriving DecidableEq, Repr

/-- What the dictionary keeps for one requester (R146, R383). -/
structure DictUser where
  /-- the capture time latched by its last read of a capture count: the object that returns it, once (R232). -/
  capTime : Option (Nat × Nat × Time64) := none
  snap : Option SegStore := none
  stage : Option SegStore := none
  reply : SlugReply := {}
  /-- its last response body: the model's own record of what was answered. -/
  answer : List Byte := []
  deriving DecidableEq, Repr

/-- One acyclic session (R372). -/
structure Session where
  /-- source IPv4 address and UDP port. -/
  ip : W32
  port : Nat
  mac : Nat
  tag : Nat
  /-- a request is in service. -/
  busy : Bool
  /-- the last response, with its KIND and TAG. -/
  last : List Byte
  deriving DecidableEq, Repr

/-- An entry of a dictionary image (R388). -/
structure DictEntry where
  index : Nat
  sub : Nat
  type : Nat
  value : List Byte
  deriving DecidableEq, Repr

/-- A valid dictionary image of the boot flash (R388, R407). -/
structure FlashImage where
  gen : W32
  entries : List DictEntry
  /-- the seal verifies when it equals HMAC(K_SEAL) over the other entries. -/
  sealTag : List Byte
  deriving DecidableEq, Repr

/-- The boot flash (R462): absent images are none. -/
structure Flash where
  patch : Option (List Byte) := none
  openForme : Option (List Byte) := none
  a : Option FlashImage := none
  b : Option FlashImage := none
  deriving DecidableEq, Repr

/-- One event group (R393). -/
structure EventGroup where
  enable : Bool := false
  trigger : W32 := 0
  templates : List Byte := []
  fired : W32 := 0
  refused : W32 := 0
  dropped : W32 := 0
  deriving DecidableEq, Repr

/-- One declaration of the customer range (R394). -/
structure CustomerDecl where
  index : Nat
  sub : Nat
  type : Nat
  access : Nat
  persist : Bool
  word : Nat
  deriving DecidableEq, Repr

/-- The dictionary store (R377–R394). -/
structure DictStore where
  queue : List SvcReq := []
  users : Bank DictUser := []
  sessions : Bank (Option Session) := []
  /-- datagrams sent in answer, newest last: session, bytes. -/
  sent : List (Nat × List Byte) := []
  flash : Flash := {}
  /-- the snapshot a commit is writing (R390). -/
  snap : Option FlashImage := none
  imageState : Nat := 0
  imageGen : W32 := 0
  imageSize : Nat := 0
  bootErrors : BitVec 16 := 0
  firstError : W32 := 0
  groups : Bank EventGroup := []
  /-- groups whose input has happened and whose trigger is still to be served. -/
  trigs : List Nat := []
  custom : List CustomerDecl := []
  customBytes : List Byte := []
  customMsg : Nat := 0xFFFF
  readSid : Nat := 0
  /-- boot entries of remote channel enables that wait for the third pass (R389). -/
  third : List DictEntry := []
  deriving DecidableEq, Repr

/-- The long operations 5F01h–5F05h (R392); 5F00h stands with the store. -/
structure LongOps where
  compact : LongOp := {}
  cal : LongOp := {}
  survey : LongOp := {}
  flash : LongOp := {}
  /-- 1 a commit, 2 an erase. -/
  flashKind : Nat := 0
  enum : EnumOp := {}
  deriving DecidableEq, Repr

/-- A margin plan (R433): ECLKC, VTRIM, GUARD, CALINT, BUDGET. -/
structure Plan where
  eclkc : Nat := 0
  vtrim : Int := 0
  guard : Nat := 0
  calint : W32 := 0x100000#32
  bud : W32 := 0xF424#32
  deriving DecidableEq, Repr

/-- The fastness monitor (R435–R446). -/
structure Monitor where
  /-- FM_STAT, its W1C bits [6:3]. -/
  stat : W32 := 0
  plan : Plan := {}
  prop : Plan := {}
  propValid : Bool := false
  /-- a plan that waits for the next boundary, with APPLIED, FORCED to set. -/
  due : Option (Plan × Bool) := none
  margin : Nat := 0xFFFF
  mE : Nat := 0xFFFF
  mS : Nat := 0xFFFF
  mO : Nat := 0xFFFF
  proj : Time64 := 0x7FFFFFFFFFFFFFFF#64
  last : Time64 := 0
  /-- VALUE of SENT00–47, those of the last survey and those of the survey under way. -/
  values : Bank (BitVec 16) := []
  fresh : Bank (BitVec 16) := []
  /-- the survey under way: the sentinels measured; none while none runs. -/
  surveying : Option Nat := none
  /-- a survey has been asked for (R437). -/
  asked : Bool := false
  /-- the tick count at the start of the last survey, and whether it was abandoned. -/
  startedAt : Option Nat := none
  abandoned : Bool := false
  /-- die temperature at the first sentinel of the survey, tenths of a degree. -/
  tjFirst : Int := 0
  tj : Int := 0
  surveys : W32 := 0
  period : Nat := 16777216
  threshold : Nat := 2500
  consent : W32 := 0
  forced : W32 := 0
  /-- (TIME64, d) of the last 16 surveys, newest first (R445). -/
  history : List (Time64 × Nat) := []
  /-- VTRIM as it stands, moving toward the plan's (R442). -/
  vtrimNow : Int := 0
  deriving DecidableEq, Repr

/-- The power states (R464). -/
inductive PowerState where
  | run | idle | hold | deep
  deriving DecidableEq, Repr

/-- A cause of a core reset (R431, R460). -/
inductive ResetCause where
  | por | ext | warmCmd | warmStore | warmLock
  deriving DecidableEq, Repr

/-- Power, reset and boot (R431, R456–R471). -/
structure Power where
  state : PowerState := .run
  /-- GB_PWR.REQ, and GO as it reads. -/
  req : Nat := 0
  go : Bool := false
  /-- IDLE was entered on the way to HOLD or DEEP, and which of them (R466). -/
  toward : Option PowerState := none
  /-- the engines are stopping at their safe points (R466). -/
  stopping : Bool := false
  /-- the state before the GO in progress (R469). -/
  before : PowerState := .run
  /-- engines that were online at the entry to IDLE (R466). -/
  wasOnline : List Nat := []
  /-- the clocks have returned from HOLD and the first boundary is to come (R467). -/
  restart : Bool := false
  /-- wake-enabled pin sources that were pending when the GO in progress landed (R469). -/
  pendAtGo : List Nat := []
  /-- HOLD or DEEP is being left: the clocks return (R467). -/
  waking : Bool := false
  /-- a warm restart has been ordered, by which cause (R450). -/
  ordered : Option ResetCause := none
  /-- the core is in reset, and by which cause. -/
  inReset : Option ResetCause := none
  /-- a warm restart has frozen the pins: the levels of TP0–TP255 that are held. -/
  frozen : Option (Bank (Option Bool)) := none
  /-- SYS_RST_N is low. -/
  sysRst : Bool := false
  /-- a core supply is below its limit. -/
  supplyLow : Bool := false
  boot : Nat := 0
  coreUp : Bool := false
  /-- GB_STAT.CMD_REJ. -/
  cmdRej : Bool := false
  /-- GB_RSTC [4:0]. -/
  rstc : BitVec 5 := 1
  /-- GB_STRAP [3:0], and the levels at the strap balls. -/
  strap : BitVec 4 := 0
  strapBalls : BitVec 4 := 0
  pwrEn : Bool := true
  wakeCause : Nat := 0
  wakeSource : Nat := 0xFFFF
  holdTime : W64 := 0
  xt32 : Bool := false
  bootTime : W32 := 0
  warmRestarts : W32 := 0
  restartTime : W32 := 0
  deriving DecidableEq, Repr

/-- SRAM error counts and the scrub (R447–R449, R431, R455). -/
structure EccState where
  cecc : BitVec 16 := 0
  uecc : BitVec 16 := 0
  addr : W32 := 0
  scrubEn : Bool := true
  /-- the word reached, of 2,097,152. -/
  word : Nat := 0
  passes : W32 := 0
  retired : W32 := 0
  /-- an uncorrectable error since the last summary (R448, R359). -/
  alarm : Bool := false
  deriving DecidableEq, Repr

/-- The instructions of the JTAG port (R495). -/
inductive JtagIr where
  | bypass | idcode | sample | extest | highz
  deriving DecidableEq, Repr

/-- The JTAG port. -/
structure Jtag where
  ir : JtagIr := .idcode
  /-- boundary cells preloaded, and the levels sampled last, by cell. -/
  preload : List Bool := []
  sampled : List Bool := []
  /-- the identification register as IDCODE captured it last. -/
  code : W32 := 0
  deriving DecidableEq, Repr

/-- A message that waits for the cyclic gate of its MAC to close (R360): a Sync or a peer-delay request with the grain of its TCLK at
which it leaves, an Announce, the answer to a peer-delay request received at `rx`; an ARP (0) or ICMP echo (1) reply; a datagram to a
session. -/
inductive Waiting where
  | sync (grain : Nat)
  | announce
  | pdelayReq (grain : Nat)
  | pdelayResp (seq : BitVec 16) (rx : Time64) (grain : Nat)
  | reply (kind : Nat) (dest : W32) (data : List Byte)
  | datagram (session : Nat) (bytes : List Byte)
  deriving DecidableEq, Repr

/-- One Ethernet MAC (R375): its registers. -/
structure Mac where
  /-- EMn_CFG: EN [31], IF [30], SPEED [29:28]. -/
  cfg : W32 := 0x20000000#32
  /-- EMn_STAT, its W1C bits [15:3]. -/
  stat : W32 := 0
  linkUp : Bool := false
  rxdropc : BitVec 16 := 0
  rxerrc : BitVec 16 := 0
  latec : BitVec 16 := 0
  dupc : BitVec 16 := 0
  stalec : BitVec 16 := 0
  sumdropc : BitVec 16 := 0
  acyerr : BitVec 16 := 0
  addr : BitVec 48 := 0
  ip : W32 := 0xC0A82860#32
  mask : W32 := 0xFFFFFF00#32
  gateway : W32 := 0
  /-- the cyclic gate is open (R360). -/
  gate : Bool := false
  /-- what waits in the PTP and acyclic queues while the cyclic gate is open, oldest first (R360). -/
  held : List Waiting := []
  deriving DecidableEq, Repr

/-- Domain states (R364), in the order of their codes. -/
inductive DomState where
  | off | waitTime | joining | joined | masterLost | standby | manager
  deriving DecidableEq, Repr

/-- One entry of a trajectory frame (R356). -/
structure TrajEntry where
  master : Nat
  angle : Ang64
  speed : W64
  /-- signed, in units of 2²⁰ ANG64 units per second². -/
  accel : Int
  state : Byte
  deriving DecidableEq, Repr

/-- A trajectory frame (R355, R356). -/
structure Trajectory where
  domain : Nat
  src : Nat
  gen : BitVec 8
  stby : Bool
  tick : BitVec 16
  tref : Time64
  period : Nat
  nextPeriod : W32
  nextAnchor : Time64
  epochS : W64
  epochNs : W32
  entries : List TrajEntry
  deriving DecidableEq, Repr

/-- One member of a manager's table (R374). -/
structure Member where
  summary : List Byte := []
  full : List Byte := []
  missed : W32 := 0
  mac : BitVec 48 := 0
  /-- a summary has arrived for the present tick, and for the last. -/
  seen : Bool := false
  seenLast : Bool := false
  /-- consecutive ticks without a summary. -/
  misses : Nat := 0
  lost : Bool := false
  /-- a summary has ever arrived. -/
  known : Bool := false
  /-- what has arrived and waits for the manager's work of the next tick: the tick it was sent in, its bytes, and whether it is a full
  status (R21). -/
  inbox : Option (BitVec 16 × List Byte × Bool) := none
  deriving DecidableEq, Repr

/-- The settings of the domain (1100h, R374). -/
structure DomCfg where
  domainId : Nat := 1
  address : Nat := 1
  linkOffset : Nat := 2500
  cyclicLength : Nat := 20000
  sumOffset : Nat := 0
  sumSpacing : Nat := 0
  fullPhase : Nat := 255
  coastMax : Nat := 16
  linkMask : Nat := 1
  pcp : Nat := 6
  appWord : Nat := 0
  udpPort : Nat := 48150
  /-- MASTER_SOURCE of masters 0–63 (1101h). -/
  sources : Bank Nat := []
  deriving DecidableEq, Repr

/-- A cyclic frame sent: the MAC, its destination address, the priority of its tag, its payload (R354, R355). -/
structure CyclicFrame where
  mac : Nat
  dst : BitVec 48
  pcp : Nat
  payload : List Byte
  deriving DecidableEq, Repr

/-- Bamben Link and the domain (R353–R376). -/
structure Link where
  macs : Bank Mac := []
  cfg : DomCfg := {}
  /-- LINK_OFFSET and CYCLIC_LENGTH in force (R360). -/
  gofs : Nat := 2500
  glen : Nat := 20000
  state : DomState := .off
  gen : BitVec 8 := 0
  /-- a trajectory frame has been accepted since the domain was joined, and its source MAC address. -/
  accepted : Bool := false
  srcMac : BitVec 48 := 0
  /-- the tick of the last copy accepted (R363). -/
  copyTick : Option (BitVec 16) := none
  /-- a frame has been accepted in the present tick (R368). -/
  heard : Bool := false
  /-- the frame accepted in the present tick, applied by the work of the next (R21). -/
  taken : Option Trajectory := none
  /-- the frame the manager sent, or would have sent, in the present tick. -/
  formed : Option Trajectory := none
  /-- the frame the work of the present tick applies. -/
  due : Option Trajectory := none
  /-- MACs that have sent the trajectory of the present tick. -/
  sentOn : BitVec 4 := 0
  /-- the full-status body taken at the last boundary; its first 32 bytes are the summary (R359). -/
  body : List Byte := []
  /-- consecutive grid mismatches in JOINED (R364). -/
  mismatches : Nat := 0
  /-- a grid to adopt: TREF, P, tick number (R364). -/
  adopt : Option (Time64 × Nat × BitVec 16) := none
  /-- consecutive misses of each master, and the masters lost (R366). -/
  masterMiss : Bank Nat := []
  lostMask : BitVec 64 := 0
  /-- consecutive ticks without an accepted manager frame (R368). -/
  silent : Nat := 0
  /-- a demotion waits for the next boundary (R369). -/
  demote : Bool := false
  missed : W32 := 0
  takeovers : W32 := 0
  blocked : W32 := 0
  members : Bank Member := []
  /-- ports that had an error bit set since the previous full status (R359). -/
  fpErr : BitVec 64 := 0
  /-- cyclic frames sent, oldest first: the model's own record of the wire. -/
  sent : List CyclicFrame := []
  /-- ARP (0) and ICMP echo (1) replies sent: MAC, kind, destination address, echoed data (R370). -/
  replies : List (Nat × Nat × W32 × List Byte) := []
  deriving DecidableEq, Repr

/-- The regions of the SRAM, in the order of R32, which is that of GB_ECCADDR.REGION (R431). -/
inductive SramRegion where
  | galley | engineData | controlStore | dictionary | trace | buffers | compositor | chase | scratch
  deriving DecidableEq, Repr

/-- Who reads the word, where a region's outcome needs it: an engine and its context, a MAC, a field port, or a dictionary
access to the object that holds the word; `background` is the scrub and every other reader. -/
inductive SramReader where
  | engine (e c : Nat)
  | mac (m : Nat)
  | port (p : Nat)
  | object (index sub : Nat) (who : Option DictWho)
  | background
  deriving DecidableEq, Repr

/-- The channels' banks, by channel number. -/
structure Channels where
  out : Bank ChanOut := []
  cnt : Bank ChanCnt := []
  cap : Bank ChanCap := []
  em : Bank ChanEm := []
  /-- the 32 quoin locks: 1 closed (R171). -/
  quoin : W32 := 0
  /-- the locks as they stood at the start of the present TCLK (R171). -/
  quoinStart : W32 := 0
  /-- the groups opened in the present TCLK (R172). -/
  quoinOpened : W32 := 0
  deriving DecidableEq, Repr

/-- Pins, decoders and the always-on counters. -/
structure Tooth where
  pins : Bank PinStage := []
  decs : Bank Decoder := []
  track : Bank DecTrack := []
  aoq : Bank Aoq := []
  deriving DecidableEq, Repr

/-- Bridge pairs and trip inputs. -/
structure Bridge where
  pairs : Bank Pair := []
  trips : Bank Trip := []
  /-- BPnnn_GRD.GUARD, the same in every pair (R194, R434). -/
  guard : BitVec 12 := 0
  deriving DecidableEq, Repr

/-- Axes and the cluster update queues (R26). -/
structure Axes where
  axes : Bank Axis := []
  /-- update queue of each cluster, oldest first. -/
  queues : Bank (List UpdReq) := []
  /-- walks of the service context that wait or run, oldest first (R151). -/
  walks : List UpdReq := []
  pol : PolicyCounts := {}
  deriving DecidableEq, Repr

/-- Everything the device holds but the key store and the queue of commands. -/
structure Dev where
  /-- the model's own count of free values drawn so far. -/
  free : Nat := 0
  /-- the model's own count: how often the events of the present TCLK have been queued. -/
  polled : Nat := 0
  ic : IntCtl := {}
  ch : Channels := {}
  tooth : Tooth := {}
  br : Bridge := {}
  ax : Axes := {}
  gl : Galley := {}
  gs : GalleyStore := {}
  chases : Bank Chase := []
  tick : TickCtl := {}
  load : LoadObj := {}
  tb : Timebase := {}
  so : ServoObj := {}
  ptp : Ptp := {}
  comps : Bank Comp := []
  ne : Bank EngineCtl := []
  ctxs : Bank Ctx := []
  lanes : Bank Lane := []
  store : Store := {}
  trace : TraceRing := {}
  /-- the data space of the engines (R262), words by address; unwritten words read 0. -/
  mem : Bank W64 := []
  heads : Bank Head := []
  fps : Bank FieldPort := []
  sec : Sec := {}
  hi : HostIf := {}
  ds : DictStore := {}
  lo : LongOps := {}
  fm : Monitor := {}
  pw : Power := {}
  ecc : EccState := {}
  jtag : Jtag := {}
  lk : Link := {}
  deriving DecidableEq, Repr

/-- The key store and the rest of the device. -/
structure Core where
  vault : Vault := {}
  dev : Dev := {}
  deriving DecidableEq, Repr

end Sys2Proof.Machine
end

