-- ==== Sys2Proof/Syntax.lean ====
section
/-! DEFINITION. The commands of the block: one constructor for each row of the opcode table, with its operands: first the rows
with operands, then those without. Each docstring names the row and the rule that gives it its meaning. -/

namespace Sys2Proof

open Sys2Proof.Machine

/-- The commands. -/
inductive Instr where
  /-- REGISTER_WRITE (R9): A host or GREG write to a register that has no row of its own acts on each field under its
  access code, reserved-field and lock rules. Operands: `p` the path: 0 PCIe BAR0, 1 QSPI, 2 PCIe configuration space,
  3 PCIe BAR4, 16 + e the GREG of engine e; `a` the register address; `v` the word written. -/
  | registerWrite (p : Nat) (a : Nat) (v : W32)
  /-- WIDE_VALUE_LOW_READ (R418): A read of the lowest word of a wide value latches all its linked words into the
  port's read latch in one clock of the owning domain. Operands: `p` the access path: 0 PCIe, 1 QSPI, 16 + e the GREG
  of engine e; `a` the BAR0 address. -/
  | wideValueLowRead (p : Nat) (a : Nat)
  /-- WIDE_VALUE_HIGH_READ (R418): A read of a word of a wide value returns the latched word once, or else the live
  value, and then sets TORN. Operands: `p` the access path: 0 PCIe, 1 QSPI, 16 + e the GREG of engine e; `a` the BAR0
  address. -/
  | wideValueHighRead (p : Nat) (a : Nat)
  /-- WIDE_VALUE_LOW_WRITE (R419): A write to a lower word of a wide value is held in the port's write stage, and any
  stage of another value is discarded. Operands: `p` the access path: 0 PCIe, 1 QSPI, 16 + e the GREG of engine e; `a`
  the BAR0 address; `v` the word written. -/
  | wideValueLowWrite (p : Nat) (a : Nat) (v : W32)
  /-- WIDE_VALUE_COMMIT (R419): A write to the highest word of a wide value commits it together with the staged lower
  words, using the value in force and setting TORN where none is staged. Operands: `p` the access path: 0 PCIe, 1
  QSPI, 16 + e the GREG of engine e; `a` the BAR0 address; `v` the word written. -/
  | wideValueCommit (p : Nat) (a : Nat) (v : W32)
  /-- TICK_STROBE_REACHES_ENGINE (R272): The tick strobe reaches an online engine and makes context 0 ready for that
  tick. Operands: `e` the engine. -/
  | tickStrobeReachesEngine (e : Nat)
  /-- NEXT_PERIOD_WRITE (R18): A write to NEXT_PERIOD arms, replaces, rejects or cancels a tick-period change.
  Operands: `v` the word written. -/
  | nextPeriodWrite (v : W32)
  /-- NEXT_ANCHOR_WRITE (R18): A write to NEXT_ANCHOR stores the anchor and cancels any pending period change.
  Operands: `v` a TIME64. -/
  | nextAnchorWrite (v : Time64)
  /-- UPDATE_CREDIT (R25): Every 500 ECLK an engine's update credit count grows by one, up to UQ. Operands: `e` the
  engine. -/
  | updateCredit (e : Nat)
  /-- TB_HTRIM_WRITE (R48): A write to TB_HTRIM stores the host trim, or refuses an out-of-range value and sets
  HTRIM_REJ. Operands: `v` the word written. -/
  | tbHtrimWrite (v : W32)
  /-- TB_STEP_COMMIT (R48): A write to TB_STEP_HI commits a host phase step for the next permitted boundary, or
  refuses it and sets STEP_REJ. Operands: `v` the value written. -/
  | tbStepCommit (v : W64)
  /-- SERVO_WRITE (R48): A change of TB_CTL.SERVO hands the trim between the host and the servo and drops a pending
  host step. Operands: `b` the value of SERVO. -/
  | servoWrite (b : Bool)
  /-- SYNC (R43): A PTP Sync message is received and time-stamped at the MAC. Operands: `p` the MAC; `dom` the domain
  number of the message; `seq` the sequence number; `g` the grain of the present TCLK; `oneStep` the source time of a
  one-step message with its correction field; none for a two-step one. -/
  | sync (p : Nat) (dom : Nat) (seq : BitVec 16) (g : Nat) (oneStep : Option PtpTime)
  /-- FOLLOW_UP (R43): A PTP Follow_Up is received, and the offset is computed and corrected by trim, step, slew or
  time set. Operands: `p` the MAC; `dom` the domain number of the message; `seq` the sequence number; `origin` the
  source time with the correction field. -/
  | followUp (p : Nat) (dom : Nat) (seq : BitVec 16) (origin : PtpTime)
  /-- ANNOUNCE (R42): A PTP Announce is received and enters the best master clock algorithm. Operands: `dom` the
  domain number of the message; `m` the data set announced. -/
  | announce (dom : Nat) (m : Announce)
  /-- PDELAY_REQ (R38): A peer-delay request is received and answered. Operands: `p` the MAC; `seq` the sequence
  number; `g` the grain of the present TCLK; `g2` the grain of the answer. -/
  | pdelayReq (p : Nat) (seq : BitVec 16) (g : Nat) (g2 : Nat)
  /-- PDELAY_RESP (R38): A peer-delay response is received and time-stamped. Operands: `p` the MAC; `g` the grain of
  the present TCLK; `t2` the time stamp the peer reports. -/
  | pdelayResp (p : Nat) (g : Nat) (t2 : PtpTime)
  /-- PDELAY_RESP_FOLLOW_UP (R38): A peer-delay response follow-up is received and MEAN_LINK_DELAY is updated.
  Operands: `p` the MAC; `t3` the time stamp the peer reports. -/
  | pdelayRespFollowUp (p : Nat) (t3 : PtpTime)
  /-- PTP_MANAGEMENT_MESSAGE (R38): A PTP management message is received and discarded. Operands: `p` the MAC. -/
  | ptpManagementMessage (p : Nat)
  /-- SYNC_RECEIPT_TIMEOUT (R43): SYNC_RECEIPT_TIMEOUT sync intervals pass without a Sync, moving the servo to
  HOLDOVER or UNSET. Operands: `plant` the plant instance. -/
  | syncReceiptTimeout (plant : Bool)
  /-- ANNOUNCE_RECEIPT_TIMEOUT (R43): ANNOUNCE_RECEIPT_TIMEOUT announce intervals pass with no grandmaster, and a
  standalone device enters FREE. Operands: `plant` the plant instance. -/
  | announceReceiptTimeout (plant : Bool)
  /-- SYNC_SEND (R37): At each sync interval a time transmitter sends a two-step Sync and its Follow_Up. Operands: `p`
  the MAC; `g` the grain of the present TCLK. -/
  | syncSend (p : Nat) (g : Nat)
  /-- ANNOUNCE_SEND (R38): At each announce interval a time transmitter sends an Announce. Operands: `p` the MAC. -/
  | announceSend (p : Nat)
  /-- PDELAY_REQ_SEND (R38): At each peer-delay interval a port sends a peer-delay request. Operands: `p` the MAC; `g`
  the grain of the present TCLK. -/
  | pdelayReqSend (p : Nat) (g : Nat)
  /-- PIN_TRANSITION (R60): A level transition at a timer pin is captured by the delay-line sampler with its grain
  stamp. Operands: `p` the ball: TP0–TP255, then TRIP0–TRIP15; `lvl` the new level; `g` the grain of the present TCLK.
  -/
  | pinTransition (p : Nat) (lvl : Bool) (g : BitVec 6)
  /-- EDGE_ACCEPTED (R63): The glitch filter has counted N stable samples and accepts the edge with the stamp of its
  last transition. Operands: `p` the timer pin. -/
  | edgeAccepted (p : Nat)
  /-- PWD_FAULT (R73): A pulse reaches PWT3, so PWD_FAULT is set and its trailing edge is ignored. Operands: `n` the
  decoder. -/
  | pwdFault (n : Nat)
  /-- UPDATE_REQUEST (R26): A change of UPDCNT reaches the ECLK domain and queues, or coalesces, the axis's update
  request. Operands: `n` the decoder. -/
  | updateRequest (n : Nat)
  /-- PIN_WRITE (R63): A write to CHnnn_PIN applies INV without forming an edge, and refuses an EDGE of 11b with
  CFG_ERR. Operands: `p` the timer pin; `v` the word written. -/
  | pinWrite (p : Nat) (v : W32)
  /-- DECODER_ENABLE (R68): A write that sets decoder EN is checked, then accepted or refused with CFG_ERR. Operands:
  `n` the decoder. -/
  | decoderEnable (n : Nat)
  /-- DECODER_DISABLE (R69): Clearing decoder EN stops tooth formation and discards edges still in the pipeline.
  Operands: `n` the decoder. -/
  | decoderDisable (n : Nat)
  /-- CLR (R69): CLR clears TOTAL, POS, SLOT, UPDCNT and the decimation and prescaler counts in one TCLK. Operands:
  `n` the decoder. -/
  | clr (n : Nat)
  /-- USTAMP_LO_READ (R85): A read of CHnnn_USTAMP_LO latches USTAMP_HI, UATTR, TOTAL and POS. Operands: `p` the
  access path: 0 PCIe, 1 QSPI, 16 + e the GREG of engine e; `n` the decoder. -/
  | ustampLoRead (p : Nat) (n : Nat)
  /-- AOQ_TRANSITION (R88): An AOQ input transition advances the always-on ×4 counter, or sets ERR on an illegal
  transition. Operands: `k` the always-on counter; `chB` channel B, else A; `illegal` both inputs change within 1 µs;
  `nearPreset` the transition falls beside a PRESET. -/
  | aoqTransition (k : Nat) (chB : Bool) (illegal : Bool) (nearPreset : Bool)
  /-- PRESET (R90): PRESET loads AOQnPRE into the AOQ counter and sets VALID. Operands: `k` the always-on counter. -/
  | preset (k : Nat)
  /-- GHOST (R102): No tooth arrives by deadline + GD, so a ghost tooth is inserted and the axis becomes GHOSTED.
  Operands: `a` the axis. -/
  | ghost (a : Nat)
  /-- STOPPED (R107): STOP_TIME passes without an accepted tooth, so the axis is set STOPPED and its model is cleared.
  Operands: `a` the axis. -/
  | stopped (a : Nat)
  /-- RESYNC (R108): RESYNC enters SEARCH from any state as a disturbance. Operands: `a` the axis. -/
  | resync (a : Nat)
  /-- AXIS_ENABLE (R115): A write that sets axis EN is checked, then enters SEARCH or is refused with CFG_ERR.
  Operands: `a` the axis. -/
  | axisEnable (a : Nat)
  /-- AXIS_DISABLE (R148): Clearing axis EN withdraws its entries and cancels its slugs. Operands: `a` the axis. -/
  | axisDisable (a : Nat)
  /-- AOQ_SEED (R110): With REFSRC AOQ, the track takes its seed from the AOQ counter once no tooth lies in the last 3
  TCLK. Operands: `a` the axis. -/
  | aoqSeed (a : Nat)
  /-- REMOTE_MISS (R108): REMOTE_MISS ticks pass with no sample, so a remote axis enters COASTING. Operands: `a` the
  axis. -/
  | remoteMiss (a : Nat)
  /-- COAST_LIMIT (R108): COAST_LIMIT ticks in COASTING send a remote axis to SYNC_LOST. Operands: `a` the axis. -/
  | coastLimit (a : Nat)
  /-- COAST_MAX (R366): COAST_MAX ticks after a master loss send a master-derived axis to SYNC_LOST. Operands: `a` the
  axis. -/
  | coastMax (a : Nat)
  /-- UPDATE_SERVICE (R98): Context 1 serves an update request: it fits the speed model, loads it and re-times the
  axis's armed entries. Operands: `e` the engine; `a` the axis. -/
  | updateService (e : Nat) (a : Nat)
  /-- ARMING_PASS (R129): A pass retries PENDING slugs and arms slugs inside the horizon into chase entries. Operands:
  `e` the engine; `a` the axis. -/
  | armingPass (e : Nat) (a : Nat)
  /-- POLICY_SERVICE (R150): Context 1 serves a policy request and sets slug states, outcome records and policy
  counts. Operands: `e` the engine; `a` the axis. -/
  | policyService (e : Nat) (a : Nat)
  /-- POLICY_WALK (R151): The service context walks the axis list and applies a policy to its PARKED and PENDING
  slugs. Operands: `a` the axis. -/
  | policyWalk (a : Nat)
  /-- TICK_WORK (R24): Context 0 performs the cyclic work of a tick. Operands: `e` the engine. -/
  | tickWork (e : Nat)
  /-- REMOVE (R142): GL_CMD REMOVE cancels a slug, withdrawing its entry, or is refused with STALE or COMMITTED.
  Operands: `sid` the SID. -/
  | remove (sid : Nat)
  /-- MODIFY (R142): GL_CMD MODIFY changes and re-sorts a PARKED slug with a new SEQ. Operands: `sid` the SID. -/
  | modify (sid : Nat)
  /-- MODIFY_DUR (R142): GL_CMD MODIFY_DUR changes a slug's duration, rewriting an armed entry's D. Operands: `sid`
  the SID. -/
  | modifyDur (sid : Nat)
  /-- FREE (R142): GL_CMD FREE returns a final slug to the free list when AUTOFREE is 0. Operands: `sid` the SID. -/
  | free (sid : Nat)
  /-- SLUG_INSERT_OBJECT (R146): A dictionary write to 5001h:01h inserts a slug and records its RESULT for the
  requester. Operands: `who` the requester; `l` the value. -/
  | slugInsertObject (who : DictWho) (l : List Byte)
  /-- SLUG_REMOVE_OBJECT (R146): A dictionary write to 5001h:02h removes a slug and records its RESULT for the
  requester. Operands: `who` the requester; `l` the value. -/
  | slugRemoveObject (who : DictWho) (l : List Byte)
  /-- GALLEY_WINDOW_READ (R143): A read of the lowest word of a slug, record or entry in BAR2 latches all its words.
  Operands: `p` the host port: 0 PCIe, 1 QSPI; `a` the BAR2 address. -/
  | galleyWindowRead (p : Nat) (a : Nat)
  /-- CLRPK (R146): CLRPK sets a chase's PEAK to its present OCC. Operands: `cs` the chase. -/
  | clrpk (cs : Nat)
  /-- CHASE_COMMIT (R135): An eligible chase entry commits with edge time E and passes through the crossbar. Operands:
  `cs` the chase. -/
  | chaseCommit (cs : Nat)
  /-- EDGE_RISE (R119): An edge-rise command acts at E in the channel merge. Operands: `n` the channel; `sid` the SID;
  `e` the edge time E. -/
  | edgeRise (n : Nat) (sid : Nat) (e : Time64)
  /-- EDGE_FALL (R119): An edge-fall command acts at E in the channel merge. Operands: `n` the channel; `sid` the SID;
  `e` the edge time E. -/
  | edgeFall (n : Nat) (sid : Nat) (e : Time64)
  /-- PULSE (R174): A pulse command rises at E and records its end at E + D. Operands: `n` the channel; `sid` the SID;
  `e` the edge time E; `dur` D in grains. -/
  | pulse (n : Nat) (sid : Nat) (e : Time64) (dur : Nat)
  /-- TOGGLE (R119): A toggle command inverts LVL at E. Operands: `n` the channel; `sid` the SID; `e` the edge time E.
  -/
  | toggle (n : Nat) (sid : Nat) (e : Time64)
  /-- CAPTURE_ARM (R229): A capture-arm command opens the channel's capture window at E. Operands: `n` the channel;
  `sid` the SID; `e` the edge time E; `dur` D in grains. -/
  | captureArm (n : Nat) (sid : Nat) (e : Time64) (dur : Nat)
  /-- ENGINE_WAKE (R270): An engine-wake action wakes context 2 or 3 of an engine, or sets WAKE_IGN. Operands: `chan`
  CHAN of the slug; `sid` the SID; `t` the edge time E. -/
  | engineWake (chan : Nat) (sid : Nat) (t : Time64)
  /-- DOORBELL (R119): A doorbell action fires galley doorbell source CHAN[7:0]. Operands: `chan` CHAN of the slug;
  `sid` the SID; `t` the edge time E. -/
  | doorbell (chan : Nat) (sid : Nat) (t : Time64)
  /-- EMULATION_STEP (R183): An emulation-step command moves E_c by one step, respecting EMGAP. Operands: `n` the
  channel; `a` the axis; `sid` the SID; `e` the edge time E. -/
  | emulationStep (n : Nat) (a : Nat) (sid : Nat) (e : Time64)
  /-- PULSE_END (R175): The pending end of a pulse falls due and requests LVL := 0. Operands: `n` the channel. -/
  | pulseEnd (n : Nat)
  /-- CHANNEL_ENABLE (R179): Setting channel EN restarts the count with LVL = IDL and unsuppresses or misses
  suppressed entries. Operands: `n` the channel. -/
  | channelEnable (n : Nat)
  /-- CHANNEL_DISABLE (R178): Clearing channel EN holds the count, suppresses entries and returns LVL to IDL.
  Operands: `n` the channel. -/
  | channelDisable (n : Nat)
  /-- COUNTER_TERMINAL (R167): A terminal TCLK returns the count to 0 and reloads the shadows unless the quoin is
  closed. Operands: `n` the channel. -/
  | counterTerminal (n : Nat)
  /-- COMPARE_MATCH (R168): The count equals CMPR or CMPF and requests a level change in the merge of k + 2. Operands:
  `n` the channel; `rise` the rise, else the fall. -/
  | compareMatch (n : Nat) (rise : Bool)
  /-- COMPARE_WRITE (R169): A write to CMPR, CMPF or CMPG goes to the shadow with SHD = 1, or straight into force.
  Operands: `n` the channel; `r` the offset of the register: 0Ch CMPR, 10h CMPF, 14h CMPG; `v` the word written. -/
  | compareWrite (n : Nat) (r : Nat) (v : W32)
  /-- PERIOD_WRITE (R173): A write to PER shadows it, or, when direct, may cut the period in progress. Operands: `n`
  the channel; `v` the word written. -/
  | periodWrite (n : Nat) (v : W32)
  /-- QUOIN_CLOSE (R171): Writing QCLOSE or 2012h:01h closes quoin groups. Operands: `v` the word written. -/
  | quoinClose (v : W32)
  /-- QUOIN_OPEN (R171): Writing QOPEN or 2012h:02h opens quoin groups. Operands: `v` the word written. -/
  | quoinOpen (v : W32)
  /-- FRISE (R177): FRISE forces LVL to 1 three TCLK later, or is refused with FORCE_REJ. Operands: `n` the channel.
  -/
  | frise (n : Nat)
  /-- FFALL (R177): FFALL forces LVL to 0 three TCLK later, or is refused with FORCE_REJ. Operands: `n` the channel.
  -/
  | ffall (n : Nat)
  /-- RELOAD (R167): CMD.RELOAD reloads the channel at the end of the TCLK in which it lands. Operands: `n` the
  channel. -/
  | reload (n : Nat)
  /-- COUNT_WRITE (R214): A write to CHnnn_CNT sets the count of the next TCLK, and may make it terminal. Operands:
  `n` the channel; `v` the word written. -/
  | countWrite (n : Nat) (v : W32)
  /-- EMEN (R181): Setting EMEN starts encoder emulation on three channels, or is refused with CFG_ERR. Operands: `n`
  the channel. -/
  | emen (n : Nat)
  /-- EMULATION_AXIS_STEP (R184): An axis-following emulation emits one step toward its target, or jumps with EM_JUMP.
  Operands: `n` the channel. -/
  | emulationAxisStep (n : Nat)
  /-- MIN_PULSE_FILTER (R193): The minimum-pulse filter changes a filtered command level of a bridge pair. Operands:
  `p` the pair; `high` the high side, else the low side; `t` the local instant in grains. -/
  | minPulseFilter (p : Nat) (high : Bool) (t : Nat)
  /-- SIDE_TURN_ON (R195): A side of a bridge pair turns on once its dead time from the other side's turn-off has run.
  Operands: `p` the pair; `high` the high side, else the low side; `t` the local instant in grains. -/
  | sideTurnOn (p : Nat) (high : Bool) (t : Nat)
  /-- SIDE_TURN_OFF (R195): A side of a bridge pair turns off once its command ends and its MINP hold has run.
  Operands: `p` the pair; `high` the high side, else the low side; `t` the local instant in grains. -/
  | sideTurnOff (p : Nat) (high : Bool) (t : Nat)
  /-- REFRESH_START (R198): A class A pair whose low side has been off for BSMAX starts a bootstrap refresh. Operands:
  `p` the pair; `t` the local instant in grains. -/
  | refreshStart (p : Nat) (t : Nat)
  /-- REFRESH_END (R198): The refresh pulse ends after D_F + BSPW. Operands: `p` the pair; `t` the local instant in
  grains. -/
  | refreshEnd (p : Nat) (t : Nat)
  /-- DIS (R200): BPnnn_CMD.DIS, or object 3200h + n:0Fh, puts the pair into STOPPING without a key. Operands: `p` the
  pair. -/
  | dis (p : Nat)
  /-- STOPPING_DONE (R200): Both sides have been off for max(D_R, D_F), so the pair becomes DISABLED and releases its
  pins. Operands: `p` the pair. -/
  | stoppingDone (p : Nat)
  /-- TRIP_ACCEPTED (R202): A trip input's filter accepts a trip and sets LATCH. Operands: `j` the trip input. -/
  | tripAccepted (j : Nat)
  /-- SWTRIP (R203): SWTRIP, or object 2020h + i:08h, makes the input accept a trip in the next TCLK. Operands: `j`
  the trip input. -/
  | swtrip (j : Nat)
  /-- LATCH_CLEAR (R205): A write to clear LATCH clears the trip latch only while LEVEL is inactive, otherwise it sets
  CLR_REJ. Operands: `j` the trip input. -/
  | latchClear (j : Nat)
  /-- GSTART (R219): CCMD.GSTART starts the named counters of the group in one TCLK. Operands: `n` the channel; `mask`
  the counters of the group, bit j its j-th. -/
  | gstart (n : Nat) (mask : Nat)
  /-- GRESET (R219): CCMD.GRESET resets the named counters of the group in one TCLK. Operands: `n` the channel; `mask`
  the counters of the group, bit j its j-th. -/
  | greset (n : Nat) (mask : Nat)
  /-- COUNTER_TSTART (R219): CCMD.TSTART arms a counter start at the next tick strobe. Operands: `n` the channel. -/
  | counterTstart (n : Nat)
  /-- COUNTER_START (R217): CCMD.START starts the counter from the next TCLK. Operands: `n` the channel. -/
  | counterStart (n : Nat)
  /-- COUNTER_STOP (R217): CCMD.STOP stops the counter and cancels a pending TSTART. Operands: `n` the channel. -/
  | counterStop (n : Nat)
  /-- SWCAP (R230): CCMD.SWCAP captures the count and TIME64 in the TCLK in which it lands. Operands: `n` the channel.
  -/
  | swcap (n : Nat)
  /-- CHAIN_COUNT_READ (R223): A read of the lowest stage's CNT latches the counts of every stage of the chain.
  Operands: `p` the access path: 0 PCIe, 1 QSPI, 16 + e the GREG of engine e; `n` the channel. -/
  | chainCountRead (p : Nat) (n : Nat)
  /-- CHAIN_COUNT_WRITE (R224): A CNT write to a lower stage is staged, and a write to the highest stage loads every
  staged stage. Operands: `n` the channel; `v` the word written. -/
  | chainCountWrite (n : Nat) (v : W32)
  /-- CAPTURE_READ (R228): A read of CAPn returns the count, clears FULLn and latches the stamp. Operands: `p` the
  access path: 0 PCIe, 1 QSPI, 16 + e the GREG of engine e; `n` the channel; `second` CAP1, else CAP0. -/
  | captureRead (p : Nat) (n : Nat) (second : Bool)
  /-- CAPTURE_WINDOW_CLOSE (R229): A capture window closes at E + D. Operands: `n` the channel. -/
  | captureWindowClose (n : Nat)
  /-- SET (R238): Compositor SET loads output levels, drive enables, C0 or C1. Operands: `k` the compositor. -/
  | cpSet (k : Nat)
  /-- OUT (R239): Compositor OUT shifts CNT bits of S to output pins. Operands: `k` the compositor. -/
  | cpOut (k : Nat)
  /-- IN (R239): Compositor IN shifts CNT input bits into S. Operands: `k` the compositor. -/
  | cpIn (k : Nat)
  /-- WAIT (R240): Compositor WAIT is re-evaluated each step until its pin, counter, time or tick condition holds.
  Operands: `k` the compositor. -/
  | cpWait (k : Nat)
  /-- MOV (R241): Compositor MOV moves a value between sources and destinations, stalling on TXD and RXD. Operands:
  `k` the compositor. -/
  | cpMov (k : Nat)
  /-- JMP (R242): Compositor JMP branches on its condition, decrementing a counter where the condition says so.
  Operands: `k` the compositor. -/
  | cpJmp (k : Nat)
  /-- SIG (R242): Compositor SIG sets SIG in CPnn_STAT. Operands: `k` the compositor. -/
  | cpSig (k : Nat)
  /-- HALT (R242): Compositor HALT halts after its DLY and sets SELF_HALT. Operands: `k` the compositor. -/
  | cpHalt (k : Nat)
  /-- ILLOP (R242): An instruction reserved in any field halts the compositor at once with ILLOP. Operands: `k` the
  compositor. -/
  | cpIllop (k : Nat)
  /-- COMPOSITOR_DELAY_STEP (R236): A compositor step passes without action during DLY. Operands: `k` the compositor.
  -/
  | compositorDelayStep (k : Nat)
  /-- TXD_WRITE (R243): A write to CPnn_TXD is stored and sets TXF, or is ignored with TXOVR. Operands: `k` the
  compositor; `v` the word written. -/
  | txdWrite (k : Nat) (v : W32)
  /-- RXD_READ (R243): A read of CPnn_RXD returns the held value and clears RXF. Operands: `p` the access path: 0
  PCIe, 1 QSPI, 16 + e the GREG of engine e; `k` the compositor. -/
  | rxdRead (p : Nat) (k : Nat)
  /-- COMPOSITOR_START (R246): CMD.START starts a halted compositor at PC, clearing its state first with CLEAN.
  Operands: `k` the compositor; `clean` CLEAN. -/
  | compositorStart (k : Nat) (clean : Bool)
  /-- COMPOSITOR_TSTART (R246): CMD.TSTART sets TPEND so that the first step falls at the next tick strobe. Operands:
  `k` the compositor; `clean` CLEAN. -/
  | compositorTstart (k : Nat) (clean : Bool)
  /-- COMPOSITOR_HALT (R247): CMD.HALT halts the compositor from the next TCLK. Operands: `k` the compositor. -/
  | compositorHalt (k : Nat)
  /-- COMPOSITOR_ENABLE (R245): Setting compositor EN loads OLI and OEI onto the pins, or is refused with CFG_ERR.
  Operands: `k` the compositor. -/
  | compositorEnable (k : Nat)
  /-- COMPOSITOR_DISABLE (R245): Clearing compositor EN halts it and makes its outputs high-impedance. Operands: `k`
  the compositor. -/
  | compositorDisable (k : Nat)
  /-- PROGRAM_WRITE (R248): A write to IMEM, PC, C0 or C1 takes effect only while the compositor is halted, otherwise
  it sets PROG_BUSY. Operands: `k` the compositor; `r` the offset of the register: 10h PC, 28h C0, 2Ch C1, 100h–1FCh
  IMEM; `v` the word written. -/
  | programWrite (k : Nat) (r : Nat) (v : W32)
  /-- MICROWORD (R256): An engine issues one microword, running its ALU, MDU, angle, memory and sequencer fields.
  Operands: `e` the engine. -/
  | microword (e : Nat)
  /-- SAFE_POINT (R268): After a SAFE word the engine polls its events and resumes the highest-ranked ready context.
  Operands: `e` the engine. -/
  | safePoint (e : Nat)
  /-- ENDW (R269): ENDW ends the context's work, restarting it at its entry if more work remains. Operands: `e` the
  engine. -/
  | endw (e : Nat)
  /-- CSTART (R270): CSTART restarts context 3 at CENTRY, or is refused with CFG_ERR. Operands: `e` the engine. -/
  | cstart (e : Nat)
  /-- CHALT (R270): CHALT halts context 3 at its next safe point. Operands: `e` the engine. -/
  | chalt (e : Nat)
  /-- OFFLINE_REQUEST (R274): Writing OFFLINE = 1 requests that an engine go offline, or is refused with CFG_ERR.
  Operands: `e` the engine. -/
  | offlineRequest (e : Nat)
  /-- ONLINE_REQUEST (R275): Writing OFFLINE = 0 brings an engine online at the next boundary, or cancels a pending
  offline request. Operands: `e` the engine. -/
  | onlineRequest (e : Nat)
  /-- LOCK_WRITE (R276): A write of LOCK pairs or separates NE(2i) and NE(2i+1) at the next tick boundary. Operands:
  `e` the engine; `v` LOCK. -/
  | lockWrite (e : Nat) (v : Bool)
  /-- LOCKSTEP_MISMATCH (R276): A mismatch takes both engines of a checked pair offline at once with fault 06h.
  Operands: `e` the engine. -/
  | lockstepMismatch (e : Nat)
  /-- INS (R263): Galley port INS inserts a slug. Operands: `e` the engine; `c` the context; `blk` the address of the
  block in the engine data memory. -/
  | ins (e : Nat) (c : Nat) (blk : Nat)
  /-- REM (R263): Galley port REM removes a slug. Operands: `e` the engine; `c` the context; `v` the value operand
  G(BSA). -/
  | rem (e : Nat) (c : Nat) (v : W64)
  /-- MOD (R263): Galley port MOD modifies a slug. Operands: `e` the engine; `c` the context; `v` the value operand
  G(BSA); `blk` the address of the block in the engine data memory. -/
  | mod (e : Nat) (c : Nat) (v : W64) (blk : Nat)
  /-- MODD (R263): Galley port MODD changes a slug's duration. Operands: `e` the engine; `c` the context; `v` the
  value operand G(BSA); `blk` the address of the block in the engine data memory. -/
  | modd (e : Nat) (c : Nat) (v : W64) (blk : Nat)
  /-- GALLEY_PORT_FREE (R263): Galley port FREE frees a final slug. Operands: `e` the engine; `c` the context; `v` the
  value operand G(BSA). -/
  | galleyPortFree (e : Nat) (c : Nat) (v : W64)
  /-- POP (R263): Galley port POP takes the nearest PARKED slug within the bound and makes it PENDING. Operands: `e`
  the engine; `c` the context; `a` the axis; `blk` the address of the block in the engine data memory. -/
  | pop (e : Nat) (c : Nat) (a : Nat) (blk : Nat)
  /-- PEND (R263): Galley port PEND returns the next PENDING slug in angle order. Operands: `e` the engine; `c` the
  context; `a` the axis; `v` the value operand G(BSA); `blk` the address of the block in the engine data memory. -/
  | pend (e : Nat) (c : Nat) (a : Nat) (v : W64) (blk : Nat)
  /-- MARK (R263): Galley port MARK sets a slug's state and writes its outcome record. Operands: `e` the engine; `c`
  the context; `v` the value operand G(BSA); `imm2` IMM2. -/
  | mark (e : Nat) (c : Nat) (v : W64) (imm2 : W32)
  /-- GALLEY_PORT_READ (R263): Galley port READ returns a slug image. Operands: `e` the engine; `c` the context; `v`
  the value operand G(BSA); `blk` the address of the block in the engine data memory. -/
  | galleyPortRead (e : Nat) (c : Nat) (v : W64) (blk : Nat)
  /-- CRD (R264): Channel-bus CRD reads a channel register. Operands: `e` the engine; `k` the context; `t` the
  channel; `imm2` IMM2. -/
  | crd (e : Nat) (k : Nat) (t : Nat) (imm2 : W32)
  /-- CWR (R264): Channel-bus CWR writes a channel register. Operands: `e` the engine; `k` the context; `t` the
  channel; `imm2` IMM2; `v` the value operand G(BSA). -/
  | cwr (e : Nat) (k : Nat) (t : Nat) (imm2 : W32) (v : W64)
  /-- ARD (R264): Channel-bus ARD reads an axis register. Operands: `e` the engine; `k` the context; `t` the axis;
  `imm2` IMM2. -/
  | ard (e : Nat) (k : Nat) (t : Nat) (imm2 : W32)
  /-- AWR (R264): Channel-bus AWR writes an axis register. Operands: `e` the engine; `k` the context; `t` the axis;
  `imm2` IMM2; `v` the value operand G(BSA). -/
  | awr (e : Nat) (k : Nat) (t : Nat) (imm2 : W32) (v : W64)
  /-- DECRD (R264): Channel-bus DECRD reads a decoder's counts, latch and ring entry coherently. Operands: `e` the
  engine; `k` the context; `t` the decoder; `imm2` IMM2; `v` the value operand G(BSA); `blk` the address of the block
  in the engine data memory. -/
  | decrd (e : Nat) (k : Nat) (t : Nat) (imm2 : W32) (v : W64) (blk : Nat)
  /-- MLOAD (R99): Channel-bus MLOAD loads a speed model into an axis track, or is refused with NOT_VALID. Operands:
  `e` the engine; `k` the context; `t` the axis; `blk` the address of the block in the engine data memory. -/
  | mload (e : Nat) (k : Nat) (t : Nat) (blk : Nat)
  /-- SEGLD (R264): Channel-bus SEGLD loads a segment into a remote, virtual or master-derived axis. Operands: `e` the
  engine; `k` the context; `t` the axis; `blk` the address of the block in the engine data memory. -/
  | segld (e : Nat) (k : Nat) (t : Nat) (blk : Nat)
  /-- CHRD (R264): Channel-bus CHRD reads chain counts and captures coherently and clears FULL. Operands: `e` the
  engine; `k` the context; `t` the channel; `blk` the address of the block in the engine data memory. -/
  | chrd (e : Nat) (k : Nat) (t : Nat) (blk : Nat)
  /-- CHWR (R264): Channel-bus CHWR writes a whole chain as one commit. Operands: `e` the engine; `k` the context; `t`
  the channel; `blk` the address of the block in the engine data memory. -/
  | chwr (e : Nat) (k : Nat) (t : Nat) (blk : Nat)
  /-- ARM (R131): Channel-bus ARM places a chase entry in the quarter, or is refused with FULL. Operands: `e` the
  engine; `k` the context; `blk` the address of the block in the engine data memory. -/
  | arm (e : Nat) (k : Nat) (blk : Nat)
  /-- RETIME (R137): Channel-bus RETIME writes a new T and G for an entry, or returns COMMITTED. Operands: `e` the
  engine; `k` the context; `t` the entry; `v` the value operand G(BSA); `blk` the address of the block in the engine
  data memory. -/
  | retime (e : Nat) (k : Nat) (t : Nat) (v : W64) (blk : Nat)
  /-- WDRAW (R137): Channel-bus WDRAW withdraws an entry, or returns COMMITTED. Operands: `e` the engine; `k` the
  context; `t` the entry. -/
  | wdraw (e : Nat) (k : Nat) (t : Nat)
  /-- DURW (R137): Channel-bus DURW changes an entry's duration, or returns COMMITTED. Operands: `e` the engine; `k`
  the context; `t` the entry; `v` the value operand G(BSA). -/
  | durw (e : Nat) (k : Nat) (t : Nat) (v : W64)
  /-- CPOP (R244): Channel-bus CPOP writes TXD or CMD, or reads RXD or STAT, of a compositor. Operands: `e` the
  engine; `k` the context; `t` the compositor; `imm2` IMM2; `v` the value operand G(BSA). -/
  | cpop (e : Nat) (k : Nat) (t : Nat) (imm2 : W32) (v : W64)
  /-- GREG (R264): Channel-bus GREG reads or writes any register with the effects of a host access. Operands: `e` the
  engine; `k` the context; `imm2` IMM2; `v` the value operand G(BSA). -/
  | greg (e : Nat) (k : Nat) (imm2 : W32) (v : W64)
  /-- CHANNEL_BUS_GRANT (R265): A cluster's lane grants one channel-bus operation in a TCLK and returns its completion
  word. Operands: `q` the cluster. -/
  | channelBusGrant (q : Nat)
  /-- INTERRUPT_EVENT (R301): A member event reaches its interrupt source and sets PEND, or sets LOST. Operands: `n`
  the source. -/
  | interruptEvent (n : Nat)
  /-- PIN_SENSE_ACCEPT (R300): A pin source's filter accepts a new level and fires the source per SENSE. Operands: `n`
  the timer pin; `lvl` the new level. -/
  | pinSenseAccept (n : Nat) (lvl : Bool)
  /-- IC_DBELL (R299): A write to IC_DBELL fires a message source, or is refused with DB_REJ. Operands: `v` the word
  written. -/
  | icDbell (v : W32)
  /-- IC_SETP (R301): A write of 1 to an IC_SETP bit sets PEND, or LOST if the source is pending or active. Operands:
  `w` the word; `v` the word written. -/
  | icSetp (w : Nat) (v : W32)
  /-- IC_PEND_CLEAR (R301): A write of 1 to an IC_PEND bit clears PEND. Operands: `w` the word; `v` the word written.
  -/
  | icPendClear (w : Nat) (v : W32)
  /-- CLAIM (R303): A read of IC_CLAIMtt returns and activates the target's winning source, or returns 8000_0000h.
  Operands: `p` the access path: 0 PCIe, 1 QSPI, 16 + e the GREG of engine e; `t` the target. -/
  | claim (p : Nat) (t : Nat)
  /-- COMPLETE (R304): A write to IC_COMPtt completes an active source, or sets COMP_ERR. Operands: `t` the target;
  `v` the word written. -/
  | complete (t : Nat) (v : W32)
  /-- IC_SOURCE_WRITE (R307): A write to IC_SRC changes EN and PRI at any time, and other fields only while the source
  is disabled and inactive. Operands: `n` the source; `v` the word written. -/
  | icSourceWrite (n : Nat) (v : W32)
  /-- CHW_READ (R298): A read of IC_CHWgg returns the recorded channel events and clears them. Operands: `p` the
  access path: 0 PCIe, 1 QSPI, 16 + e the GREG of engine e; `g` the group. -/
  | chwRead (p : Nat) (g : Nat)
  /-- AXW_LO_READ (R298): A read of IC_AXWgg_LO latches the HI word and clears both. Operands: `p` the access path: 0
  PCIe, 1 QSPI, 16 + e the GREG of engine e; `g` the group. -/
  | axwLoRead (p : Nat) (g : Nat)
  /-- HOST_VECTOR_MESSAGE (R422): A rise of a host vector level sends an MSI-X or MSI message, or asserts INTA or an
  HQ_INT line. Operands: `v` the host vector. -/
  | hostVectorMessage (v : Nat)
  /-- MSIX_UNMASK (R422): Unmasking an MSI-X entry with its pending bit set sends the message if the vector is still
  1. Operands: `v` the host vector. -/
  | msixUnmask (v : Nat)
  /-- WAKE_LATCH (R309): In HOLD, a qualifying transition on a wake-enabled pin sets its asynchronous latch. Operands:
  `n` the timer pin; `rise` the rise, else the fall. -/
  | wakeLatch (n : Nat) (rise : Bool)
  /-- PCIE_RESET (R323): A fundamental reset, hot reset, link down or FLR resets the PCIe domain and quiesces its
  crossings. Operands: `k` the entries in flight. -/
  | pcieReset (k : Nat)
  /-- MAC_LINE_RESET (R320): The loss of a MAC's line clock, or a MAC reset, resets its line side. Operands: `m` the
  MAC; `k` the entries in flight. -/
  | macLineReset (m : Nat) (k : Nat)
  /-- CROSSING_RESYNC (R322): Both sides are out of reset and a crossing resumes, clearing its reset flag. Operands:
  `k` the crossing: 0 PCIe, 1 QSPI, 2 + m MAC m. -/
  | crossingResync (k : Nat)
  /-- CYCLIC_EXCHANGE_START (R342): At PLANOFS + SLOT a field port sends a head's cyclic request. Operands: `h` the
  head. -/
  | cyclicExchangeStart (h : Nat)
  /-- ENCODER_RESPONSE (R338): An encoder head's response delivers its stamped samples. Operands: `p` the field port;
  `frame` the frame received; `framing` a framing error was seen. -/
  | encoderResponse (p : Nat) (frame : List Byte) (framing : Bool)
  /-- GATE_DRIVE_RESPONSE (R339): A gate-drive head's response reports its status and flags. Operands: `p` the field
  port; `frame` the frame received; `framing` a framing error was seen. -/
  | gateDriveResponse (p : Nat) (frame : List Byte) (framing : Bool)
  /-- IO_RESPONSE (R339): An I/O head's response returns its latched input levels. Operands: `p` the field port;
  `frame` the frame received; `framing` a framing error was seen. -/
  | ioResponse (p : Nat) (frame : List Byte) (framing : Bool)
  /-- NO_RESPONSE (R336): A response window expires without a start edge, and the exchange is retried or fails.
  Operands: `p` the field port. -/
  | noResponse (p : Nat)
  /-- ACYCLIC_EXCHANGE_START (R345): In the acyclic slot a port starts a queued IDENTIFY, READ or WRITE that fits
  before the boundary. Operands: `p` the field port. -/
  | acyclicExchangeStart (p : Nat)
  /-- IDENTIFY_RESPONSE (R348): A head answers IDENTIFY, and the port measures LD and writes its parameters. Operands:
  `p` the field port; `frame` the frame received; `framing` a framing error was seen; `trip` response start − request
  end − 4 BT in grains. -/
  | identifyResponse (p : Nat) (frame : List Byte) (framing : Bool) (trip : Nat)
  /-- READ_RESPONSE (R345): A head answers an acyclic READ with parameter data. Operands: `p` the field port; `frame`
  the frame received; `framing` a framing error was seen. -/
  | readResponse (p : Nat) (frame : List Byte) (framing : Bool)
  /-- WRITE_RESPONSE (R345): A head answers an acyclic WRITE. Operands: `p` the field port; `frame` the frame
  received; `framing` a framing error was seen. -/
  | writeResponse (p : Nat) (frame : List Byte) (framing : Bool)
  /-- PORT_ENABLE (R344): Setting a field port's EN takes up the staged plan, or refuses it with PLAN_ERR. Operands:
  `p` the field port. -/
  | portEnable (p : Nat)
  /-- PORT_DISABLE (R349): Clearing a field port's EN ends its exchanges and discards queued requests and entries.
  Operands: `p` the field port. -/
  | portDisable (p : Nat)
  /-- LOAD (R344): FPnn_CMD.LOAD takes up the staged head configuration for the next boundary, or refuses it.
  Operands: `p` the field port. -/
  | load (p : Nat)
  /-- ENUM (R348): FPnn_CMD.ENUM starts enumeration of the port's 32 addresses. Operands: `p` the field port. -/
  | enum (p : Nat)
  /-- CYCLIC_GATE_OPEN (R360): A MAC's cyclic gate opens at B + LINK_OFFSET. Operands: `m` the MAC. -/
  | cyclicGateOpen (m : Nat)
  /-- CYCLIC_GATE_CLOSE (R360): A MAC's cyclic gate closes and the PTP and acyclic queues open. Operands: `m` the MAC.
  -/
  | cyclicGateClose (m : Nat)
  /-- TRAJECTORY_FRAME (R363): A worker or standby receives a trajectory frame and accepts it, discards it, or adopts
  the grid. Operands: `m` the MAC; `src` the source MAC address; `f` the frame. -/
  | trajectoryFrame (m : Nat) (src : BitVec 48) (f : Trajectory)
  /-- SUMMARY_SEND (R361): A worker or standby sends its summary or full status at its offset in the window. Operands:
  `m` the MAC. -/
  | summarySend (m : Nat)
  /-- SUMMARY (R362): The manager receives a worker's summary. Operands: `m` the MAC; `dom` the domain number; `src`
  the source MAC address; `a` the domain address; 0 is the standby manager; `tick` the tick number; `body` the body.
  -/
  | summary (m : Nat) (dom : Nat) (src : BitVec 48) (a : Nat) (tick : BitVec 16) (body : List Byte)
  /-- FULL_STATUS (R359): The manager receives a worker's full status. Operands: `m` the MAC; `dom` the domain number;
  `src` the source MAC address; `a` the domain address; 0 is the standby manager; `tick` the tick number; `body` the
  body. -/
  | fullStatus (m : Nat) (dom : Nat) (src : BitVec 48) (a : Nat) (tick : BitVec 16) (body : List Byte)
  /-- MASTER_LOST (R366): A third consecutive miss of a master sends its master-derived axes to COASTING. Operands:
  `m` the master. -/
  | masterLost (m : Nat)
  /-- WORKER_LOST (R362): Three consecutive missing summaries of a worker set WORKER_LOST. Operands: `a` the domain
  address; 0 is the standby manager. -/
  | workerLost (a : Nat)
  /-- ARP (R370): A MAC answers an ARP request for its IPv4 address. Operands: `m` the MAC; `sender` the sender's IPv4
  address; `target` the IPv4 address asked for. -/
  | arp (m : Nat) (sender : W32) (target : W32)
  /-- ICMP_ECHO (R370): A MAC answers an ICMP echo request. Operands: `m` the MAC; `sender` the sender's IPv4 address;
  `target` the IPv4 address asked for; `data` the echo data; `plain` neither options nor a fragment. -/
  | icmpEcho (m : Nat) (sender : W32) (target : W32) (data : List Byte) (plain : Bool)
  /-- ACYCLIC_DATAGRAM (R372): A UDP datagram to UDP_PORT is served, resent, discarded or answered busy per its
  session. Operands: `m` the MAC; `ip` the sender's IPv4 address; `port` the source UDP port; `target` the IPv4
  address asked for; `dest` the destination UDP port; `l` the datagram; `plain` neither options nor a fragment, and a
  right or zero UDP checksum. -/
  | acyclicDatagram (m : Nat) (ip : W32) (port : Nat) (target : W32) (dest : Nat) (l : List Byte) (plain : Bool)
  /-- SESSION_EXPIRY (R372): An acyclic session ends after 10 s without a request. Operands: `n` the session. -/
  | sessionExpiry (n : Nat)
  /-- MAC_ENABLE (R375): Setting EMn_CFG.EN enables the MAC. Operands: `m` the MAC. -/
  | macEnable (m : Nat)
  /-- MAC_DISABLE (R375): Clearing EMn_CFG.EN completes the frame on the wire, discards queued frames and resets the
  line side. Operands: `m` the MAC; `queued` the frames still waiting. -/
  | macDisable (m : Nat) (queued : Nat)
  /-- LINK_DOWN (R320): An Ethernet link is lost. Operands: `m` the MAC. -/
  | linkDown (m : Nat)
  /-- LINK_UP (R320): An Ethernet link comes up. Operands: `m` the MAC. -/
  | linkUp (m : Nat)
  /-- RECEIVE_ERROR (R375): A MAC receives a frame with an FCS or framing error, sets RXERR and counts it in RXERRC.
  Operands: `m` the MAC. -/
  | receiveError (m : Nat)
  /-- READ (R382): Dictionary READ returns an object's whole value. Operands: `who` the requester; `index` the index;
  `sub` the subindex. -/
  | read (who : DictWho) (index : Nat) (sub : Nat)
  /-- WRITE (R382): Dictionary WRITE checks and applies an object's whole value. Operands: `who` the requester;
  `index` the index; `sub` the subindex; `l` the value. -/
  | write (who : DictWho) (index : Nat) (sub : Nat) (l : List Byte)
  /-- KEYED_WRITE (R403): A keyed write is checked for slot, scope, counter and tag, and then applied. Operands: `who`
  the requester; `index` the index; `sub` the subindex; `l` the value with its trailer. -/
  | keyedWrite (who : DictWho) (index : Nat) (sub : Nat) (l : List Byte)
  /-- DESCRIBE (R382): DESCRIBE returns an object's type, access, PERSIST and limit. Operands: `who` the requester;
  `index` the index; `sub` the subindex. -/
  | describe (who : DictWho) (index : Nat) (sub : Nat)
  /-- READ_SEG (R383): READ_SEG returns segments of a value, taking a snapshot at OFFSET 0. Operands: `who` the
  requester; `index` the index; `sub` the subindex; `offset` OFFSET; `count` COUNT. -/
  | readSeg (who : DictWho) (index : Nat) (sub : Nat) (offset : Nat) (count : Nat)
  /-- WRITE_SEG (R383): WRITE_SEG stages segments and applies the value at LAST. Operands: `who` the requester;
  `index` the index; `sub` the subindex; `offset` OFFSET; `last` LAST; `l` the value. -/
  | writeSeg (who : DictWho) (index : Nat) (sub : Nat) (offset : Nat) (last : Bool) (l : List Byte)
  /-- READ_ALL (R382): READ_ALL returns every subindex of an index taken together. Operands: `who` the requester;
  `index` the index. -/
  | readAll (who : DictWho) (index : Nat)
  /-- MAILBOX_GO (R423): A write of GO to HI_MBCTL submits a mailbox request to the service queue, or refuses it.
  Operands: `p` the host port: 0 PCIe, 1 QSPI; `v` the word written. -/
  | mailboxGo (p : Nat) (v : W32)
  /-- MAILBOX_RESPONSE (R423): A served mailbox request places its response in HI_MBRSP, sets DONE and may fire MSG.
  Operands: `p` the host port: 0 PCIe, 1 QSPI. -/
  | mailboxResponse (p : Nat)
  /-- COMMIT_DONE (R390): A dictionary commit or erase ends done or refused in 5F04h. Operands: `ok` the operation
  ended done. -/
  | commitDone (ok : Bool)
  /-- EVENT_GROUP_TRIGGER (R393): An I/O-head input edge or a compositor SIG inserts a group's template slugs, or is
  dropped. Operands: `g` the event group. -/
  | eventGroupTrigger (g : Nat)
  /-- QSPI_READ (R415): QSPI READ reads words of BAR0 or BAR2 with status bytes. Operands: `a` the address word; `n`
  the words whose status has been sent; `more` one further word is in flight. -/
  | qspiRead (a : Nat) (n : Nat) (more : Bool)
  /-- QSPI_WRITE (R416): QSPI WRITE writes words, each taking effect once its OK is sent. Operands: `a` the address
  word; `l` the words whose OK has been sent; `more` a further word that awaits its status. -/
  | qspiWrite (a : Nat) (l : List W32) (more : Option W32)
  /-- CLEAR_HOST_STATUS (R420): QSPI CLEAR HOST STATUS clears HS_STAT bits and sets LINTEN. Operands: `v` the word
  written. -/
  | clearHostStatus (v : W32)
  /-- HQ_CS_N_RISE (R416): HQ_CS_N rises before a word's status, so that access is abandoned. Operands: `crossed` the
  read in flight has crossed. -/
  | hqCsNRise (crossed : Bool)
  /-- HQ_RST_N (R416): A low HQ_RST_N resets the QSPI domain. Operands: `k` the entries in flight. -/
  | hqRstN (k : Nat)
  /-- POWER_REQUEST (R465): GB_PWR.GO, or 2070h:02h, requests a power state, which is checked or refused with CMD_REJ.
  Operands: `r` the state asked for: 0 RUN, 1 IDLE, 2 HOLD, 3 DEEP. -/
  | powerRequest (r : Nat)
  /-- WAKE_N (R467): A low WAKE_N wakes the device from HOLD or DEEP. Operands: `n` XT32 periods spent in HOLD. -/
  | wakeN (n : Nat)
  /-- HOLD_EXIT (R467): The clocks return, TIME64 advances and the servo enters UNSET. Operands: `n` XT32 periods
  spent in HOLD. -/
  | holdExit (n : Nat)
  /-- SYS_RST_N (R460): SYS_RST_N held low causes a core reset. Operands: `low` the level is low. -/
  | sysRstN (low : Bool)
  /-- WRST (R431): GB_CMD.WRST with code 5752h orders a warm restart, and any other code sets CMD_REJ. Operands:
  `code` the code written. -/
  | wrst (code : BitVec 16)
  /-- BOOT (R463): The boot firmware samples the straps, loads the images, applies the dictionary and releases the
  pins. Operands: `strap` the levels at the strap balls; `xt32` a crystal is fitted; `patch` the vendor patch that
  stands in flash; `us` the microseconds boot took. -/
  | boot (strap : BitVec 4) (xt32 : Bool) (patch : Option (List Byte)) (us : Nat)
  /-- SAMPLE_PRELOAD (R495): The JTAG SAMPLE/PRELOAD instruction samples and preloads the boundary cells. Operands:
  `cells` the boundary cells preloaded. -/
  | samplePreload (cells : List Bool)
  /-- SENTINEL_MEASURED (R436): A 1 ms sentinel measurement completes, or the survey is abandoned. Operands: `v` the
  reading; `tj` the die temperature in tenths of a degree. -/
  | sentinelMeasured (v : BitVec 16) (tj : Int)
  /-- SURVEY_DONE (R436): The survey completes, the margins are computed and a plan is derived, applied, proposed or
  forced. Operands: `drift` the delay-line code's movement over the last 2²⁰ ticks. -/
  | surveyDone (drift : Nat)
  /-- CALIBRATION_DONE (R61): Delay-line calibration ends done or refused in 5F02h. Operands: `ok` the operation ended
  done. -/
  | calibrationDone (ok : Bool)
  /-- CORRECTABLE_ERROR (R447): An SRAM read finds a correctable error, delivers corrected data and schedules a
  write-back. Operands: `r` the region; `w` the word of the region. -/
  | correctableError (r : SramRegion) (w : Nat)
  /-- UNCORRECTABLE_ERROR (R448): An SRAM read finds an uncorrectable error, and the reader's region takes its
  outcome. Operands: `r` the region; `w` the word of the region; `reader` who reads it; `allBad` all four copies have
  failed. -/
  | uncorrectableError (r : SramRegion) (w : Nat) (reader : SramReader) (allBad : Bool)
  /-- CLAIMABLE_SPAN_END (R306): Eight FCLK after a write that cleared EN, a still-pending source stops being
  claimable, and the level of its host vector may fall. Operands: `n` the source. -/
  | claimableSpanEnd (n : Nat)
  /-- TRIP_LEVEL_INACTIVE (R202): A trip input is sampled inactive, so its filtered LEVEL falls and the blanking cap
  of the assertion ends. Operands: `j` the trip input. -/
  | tripLevelInactive (j : Nat)
  /-- TICK_BOUNDARY (R15): TIME64 reaches a tick boundary: the tick strobe is raised, the tick number advances, and
  boundary-bound changes take effect. -/
  | tickBoundary
  /-- ALIGN_LOST (R53): In HOLDOVER, HOLDOVER_ERR grows past ALIGN_LIMIT, so ALIGN_OK falls and ALIGN_LOST is set. -/
  | alignLost
  /-- INSERT (R142): GL_CMD INSERT allocates a slug and links it into its axis list, or refuses it. -/
  | insert
  /-- COMPACT (R144): Compaction is started by GL_COMPACT.START or by 5000h:0Bh. -/
  | compact
  /-- COMPACTION_DONE (R144): Compaction has freed the retained final slugs and rebuilt the free list. -/
  | compactionDone
  /-- GALLEY_GRANT (R326): The top arbiter grants the oldest presented galley request in a grant slot. -/
  | galleyGrant
  /-- GALLEY_OP_COMPLETE (R125): A galley operation completes, atomically, 16 ECLK after its grant. -/
  | galleyOpComplete
  /-- COMMIT_RECORD (R139): The galley takes a commit record, marks the slug COMMITTED and re-inserts an RPT slug one
  turn later. -/
  | commitRecord
  /-- ACTION_COMPLETE (R127): The channel stage reports an action complete, and the slug becomes DONE. -/
  | actionComplete
  /-- OPEN_FORME_LOAD_DONE (R291): The loader's phases end, and the load is accepted or refused and its words cleared.
  -/
  | openFormeLoadDone
  /-- CLRW (R327): GL_ARB.CLRW clears WMAX. -/
  | clrw
  /-- ENUMERATION_DONE (R392): Head enumeration ends done or refused in 5F05h. -/
  | enumerationDone
  /-- TAKEOVER (R368): A ready standby takes over as manager after three ticks without a manager frame. -/
  | takeover
  /-- COMMIT (R390): A write of 1 to COMMIT snapshots the persistent objects for writing to the older flash copy. -/
  | commit
  /-- RESTORE (R391): RESTORE sets every persistent object to its default, or is refused while a pair is not DISABLED.
  -/
  | restore
  /-- ERASE (R390): ERASE invalidates both dictionary image copies. -/
  | erase
  /-- DICTIONARY_THIRD_PASS (R389): After enumeration ends, the ENABLE entries of remote channels are applied. -/
  | dictionaryThirdPass
  /-- READ_HOST_STATUS (R414): QSPI READ HOST STATUS returns the port's HS_STAT. -/
  | readHostStatus
  /-- TARGET_RESET (R414): QSPI TARGET RESET resets the QSPI domain when HQ_CS_N rises. -/
  | targetReset
  /-- QSPI_UNKNOWN_OPCODE (R414): An unknown QSPI opcode is ignored until HQ_CS_N rises, and BADOP is set. -/
  | qspiUnknownOpcode
  /-- BAD_ACCESS (R413): A PCIe memory request that is not one DW with byte enables 1111b is aborted or discarded, and
  BADACC and BADC are set. -/
  | badAccess
  /-- TAMPER (R409): TAMPER_N asserts, the tamper latch sets, counters restart and slots become VOID. -/
  | tamper
  /-- VBAT_LOSS (R399): Loss of VBAT resets the always-on island, invalidates the AOQ counts and voids the slots. -/
  | vbatLoss
  /-- VBAT_RESTORE (R409): VBAT is restored after a loss, and the tamper latch sets. -/
  | vbatRestore
  /-- IDLE_ENTRY (R466): At the boundary the engines stop at their safe points and the device enters IDLE. -/
  | idleEntry
  /-- IDLE_EXIT (R466): At the boundary the engines restart and the device returns to RUN. -/
  | idleExit
  /-- HOLD_ENTRY (R466): At the boundary the crossings empty, the wake latches arm and the PLLs stop. -/
  | holdEntry
  /-- PWR_EN_FALL (R466): 10 µs after HOLD entry for DEEP, PWR_EN falls. -/
  | pwrEnFall
  /-- SUPPLY_FAULT (R457): A supply falls below its limit, so the outputs go high-impedance and the core is held in
  reset. -/
  | supplyFault
  /-- WARM_RESTART (R450): A warm restart freezes the pins, resets the core and reboots. -/
  | warmRestart
  /-- BYPASS (R495): The JTAG BYPASS instruction is loaded. -/
  | bypass
  /-- IDCODE (R495): The JTAG IDCODE instruction returns the identification code. -/
  | idcode
  /-- EXTEST (R495): The JTAG EXTEST instruction drives the balls, only while SYS_RST_N is low. -/
  | extest
  /-- HIGHZ (R495): The JTAG HIGHZ instruction floats the balls, only while SYS_RST_N is low. -/
  | highz
  /-- SURVEY (R437): FM_CTL.SURVEY, or 5F03h:10h, requests a survey at the next boundary, or is refused with BUSY. -/
  | survey
  /-- SURVEY_START (R437): A periodic, first or requested survey starts at a tick boundary. -/
  | surveyStart
  /-- MARGIN_PLAN_TAKES_EFFECT (R442): At a tick boundary a plan changes ECLK, guard, budget and calibration interval
  together. -/
  | marginPlanTakesEffect
  /-- VTRIM_STEP (R442): Every 256 TCLK, VTRIM moves one 5 mV step toward its new value. -/
  | vtrimStep
  /-- CALIBRATION_START (R392): Delay-line calibration starts at the margin plan's interval or on 5F02h:10h. -/
  | calibrationStart
  /-- SCRUB (R449): The background scrub reads the next SRAM word. -/
  | scrub
  deriving DecidableEq, Repr

end Sys2Proof
end

