-- ==== Sys2Proof/Config.lean ====
section
/-! DEFINITION. What one part fixes and the manual leaves open: free values (constants without a body, so that nothing
can be proved of their value), the mask ROM, the device's own identity and keys, and the cryptographic functions the
manual names by reference to published standards. -/

namespace Sys2Proof

/-- The free values: the n-th value the manual leaves open in a run (log entry 1). -/
opaque Config.freeWord : Nat → BitVec 64

/-- What the reserved codes of stored fields do (R9, R165, R181, R227; log entry 3): DRV 11b from the level of the stage to
what is driven, EMDIR 11b from the axis's direction to the step's, CEDGE 11b from an edge (true a rise) to its selection. -/
opaque Config.reservedDrive : Bool → Option Bool
opaque Config.reservedEmDir : Bool → Bool
opaque Config.reservedEdge : Bool → Bool

/-- The clock quality, priority2 and clock identity of the device in the best master clock algorithm (R38). -/
opaque Config.clockQuality : BitVec 32
opaque Config.clockPriority2 : Nat
opaque Config.clockIdentity : BitVec 64

/-- The ROM baseline, words 0000h–3FFFh of the control store (R280), and its version (R296). -/
opaque Config.romWord : Nat → Microword
opaque Config.romVersion : BitVec 32

/-- The functions of the published standards the manual names (R287, R398, R401, R402): SHA-256, HMAC-SHA-256 (key, message),
AES-256-GCM decryption (key, IV, additional data, ciphertext, tag), AES key wrap and unwrap of RFC 3394 (wrapping key), and
verification of an ECDSA P-256 signature (public key x then y, signature r then s, digest). -/
opaque Config.sha256 : List Byte → BitVec 256
opaque Config.hmacSha256 : List Byte → List Byte → BitVec 256
opaque Config.gcmOpen : BitVec 256 → List Byte → List Byte → List Byte → List Byte → Option (List Byte)
opaque Config.keyWrap : BitVec 256 → BitVec 256 → List Byte
opaque Config.keyUnwrap : BitVec 256 → List Byte → Option (BitVec 256)
opaque Config.ecdsaVerify : List Byte → List Byte → BitVec 256 → Bool

/-- What Eloarad fuses at test (R396). -/
opaque Config.deviceId : BitVec 64
opaque Config.deviceKey : BitVec 256
opaque Config.vendorKeyHash : BitVec 256

/-- The MAC addresses a device is delivered with (R375). -/
opaque Config.macAddress : Nat → BitVec 48

end Sys2Proof
end

