-- ==== Sys2Proof/Machine/Ops.lean ====
section
/-! DEFINITION. The small operations every family shares: bit fields, saturating counts, signed time and angle
differences, the draw of a free value, and the reads and changes of the numbered instances. -/

namespace Sys2Proof.Machine

/-- Bit `i` of a word. -/
def bit {n : Nat} (w : BitVec n) (i : Nat) : Bool := w.getLsbD i

/-- The field of `len` bits whose lowest bit is `lo`. -/
def fld {n : Nat} (w : BitVec n) (lo len : Nat) : Nat := (w.toNat / 2 ^ lo) % 2 ^ len

/-- A word of ones in the field of `len` bits at `lo`. -/
def fmask (lo len : Nat) : W32 := BitVec.ofNat 32 ((2 ^ len - 1) * 2 ^ lo)

/-- The word with its field of `len` bits at `lo` replaced by `v`. -/
def setFld (w : W32) (lo len v : Nat) : W32 :=
  (w &&& ~~~ fmask lo len) ||| BitVec.ofNat 32 ((v % 2 ^ len) * 2 ^ lo)

/-- The word with bit `i` set. -/
def orBit (w : W32) (i : Nat) : W32 := w ||| BitVec.ofNat 32 (2 ^ i)

/-- The word with bit `i` cleared. -/
def clrBit (w : W32) (i : Nat) : W32 := w &&& ~~~ BitVec.ofNat 32 (2 ^ i)

/-- The word with bit `i` set to `b`. -/
def putBit (w : W32) (i : Nat) (b : Bool) : W32 := if b then orBit w i else clrBit w i

/-- 1 at bit `i` if `b` holds, otherwise 0. -/
def atBit (b : Bool) (i : Nat) : W32 := if b then BitVec.ofNat 32 (2 ^ i) else 0

/-- A count that saturates at its largest value. -/
def incSat {n : Nat} (c : BitVec n) : BitVec n := if c = BitVec.allOnes n then c else c + 1

/-- A count advanced by `k`, saturating. -/
def addSat {n : Nat} (c : BitVec n) (k : Nat) : BitVec n :=
  if c.toNat + k < 2 ^ n then BitVec.ofNat n (c.toNat + k) else BitVec.allOnes n

/-- `a − b` of two TIME64 or ANG64 values as their order compares them (R3, R5). -/
def sdiff (a b : W64) : Int := (a - b).toInt

/-- `a` lies at or after `b` (R3, R5). -/
def atOrAfter (a b : W64) : Bool := decide (0 ≤ sdiff a b)

/-- A 64-bit value plus a signed integer, modulo 2^64. -/
def plusInt (a : W64) (k : Int) : W64 := a + BitVec.ofInt 64 k

/-- The two words of a wide value (R8). -/
def loWord (v : W64) : W32 := v.setWidth 32
def hiWord (v : W64) : W32 := (v >>> 32).setWidth 32
def wide (hi lo : W32) : W64 := (hi.setWidth 64 <<< 32) ||| lo.setWidth 64

/-- A word split into two 16-bit halves. -/
def halves (hi lo : BitVec 16) : W32 := (hi.setWidth 32 <<< 16) ||| lo.setWidth 32

/-- A write to a saturating count of 16 bits: only FFFFh clears it (the W1C counts of every block). -/
def clearCount (c : BitVec 16) (v : Nat) : BitVec 16 := if v % 65536 = 65535 then 0 else c

/-- The next free value, and the state that has drawn it (log entry 1). -/
def Dev.draw (d : Dev) : W64 × Dev := (Config.freeWord d.free, { d with free := d.free + 1 })

/-- Reads of numbered instances. -/
def Dev.chOut (d : Dev) (n : Nat) : ChanOut := Bank.get {} d.ch.out n
def Dev.chCnt (d : Dev) (n : Nat) : ChanCnt := Bank.get {} d.ch.cnt n
def Dev.chCap (d : Dev) (n : Nat) : ChanCap := Bank.get {} d.ch.cap n
def Dev.chEm (d : Dev) (n : Nat) : ChanEm := Bank.get {} d.ch.em n
def Dev.pin (d : Dev) (n : Nat) : PinStage := Bank.get {} d.tooth.pins n
def Dev.dec (d : Dev) (n : Nat) : Decoder := Bank.get {} d.tooth.decs n
def Dev.decTrk (d : Dev) (n : Nat) : DecTrack := Bank.get {} d.tooth.track n
def Dev.aoq (d : Dev) (n : Nat) : Aoq := Bank.get {} d.tooth.aoq n
def Dev.pair (d : Dev) (n : Nat) : Pair := Bank.get {} d.br.pairs n
def Dev.trip (d : Dev) (n : Nat) : Trip := Bank.get {} d.br.trips n
def Dev.axis (d : Dev) (n : Nat) : Axis := Bank.get {} d.ax.axes n
def Dev.queue (d : Dev) (q : Nat) : List UpdReq := Bank.get [] d.ax.queues q
def Dev.slug (d : Dev) (n : Nat) : Slug := Bank.get {} d.gs.slugs n
def Dev.chase (d : Dev) (n : Nat) : Chase := Bank.get {} d.chases n
def Dev.comp (d : Dev) (n : Nat) : Comp := Bank.get {} d.comps n
def Dev.source (d : Dev) (n : Nat) : IntSource := Bank.get {} d.ic.sources n
def Dev.eng (d : Dev) (n : Nat) : EngineCtl := Bank.get {} d.ne n
def Dev.head (d : Dev) (n : Nat) : Head := Bank.get {} d.heads n
def Dev.fp (d : Dev) (n : Nat) : FieldPort := Bank.get {} d.fps n
def Dev.ptpPort (d : Dev) (n : Nat) : PtpPort := Bank.get {} d.ptp.ports n

/-- Changes of numbered instances. -/
def Dev.updOut (d : Dev) (n : Nat) (f : ChanOut → ChanOut) : Dev :=
  { d with ch := { d.ch with out := Bank.upd {} d.ch.out n f } }
def Dev.updCnt (d : Dev) (n : Nat) (f : ChanCnt → ChanCnt) : Dev :=
  { d with ch := { d.ch with cnt := Bank.upd {} d.ch.cnt n f } }
def Dev.updCap (d : Dev) (n : Nat) (f : ChanCap → ChanCap) : Dev :=
  { d with ch := { d.ch with cap := Bank.upd {} d.ch.cap n f } }
def Dev.updEm (d : Dev) (n : Nat) (f : ChanEm → ChanEm) : Dev :=
  { d with ch := { d.ch with em := Bank.upd {} d.ch.em n f } }
def Dev.updPin (d : Dev) (n : Nat) (f : PinStage → PinStage) : Dev :=
  { d with tooth := { d.tooth with pins := Bank.upd {} d.tooth.pins n f } }
def Dev.updDec (d : Dev) (n : Nat) (f : Decoder → Decoder) : Dev :=
  { d with tooth := { d.tooth with decs := Bank.upd {} d.tooth.decs n f } }
def Dev.updDecTrk (d : Dev) (n : Nat) (f : DecTrack → DecTrack) : Dev :=
  { d with tooth := { d.tooth with track := Bank.upd {} d.tooth.track n f } }
def Dev.updAoq (d : Dev) (n : Nat) (f : Aoq → Aoq) : Dev :=
  { d with tooth := { d.tooth with aoq := Bank.upd {} d.tooth.aoq n f } }
def Dev.updPair (d : Dev) (n : Nat) (f : Pair → Pair) : Dev :=
  { d with br := { d.br with pairs := Bank.upd {} d.br.pairs n f } }
def Dev.updTrip (d : Dev) (n : Nat) (f : Trip → Trip) : Dev :=
  { d with br := { d.br with trips := Bank.upd {} d.br.trips n f } }
def Dev.updAxis (d : Dev) (n : Nat) (f : Axis → Axis) : Dev :=
  { d with ax := { d.ax with axes := Bank.upd {} d.ax.axes n f } }
def Dev.updQueue (d : Dev) (q : Nat) (f : List UpdReq → List UpdReq) : Dev :=
  { d with ax := { d.ax with queues := Bank.upd [] d.ax.queues q f } }
def Dev.updSlug (d : Dev) (n : Nat) (f : Slug → Slug) : Dev :=
  { d with gs := { d.gs with slugs := Bank.upd {} d.gs.slugs n f } }
def Dev.updChase (d : Dev) (n : Nat) (f : Chase → Chase) : Dev :=
  { d with chases := Bank.upd {} d.chases n f }
def Dev.updComp (d : Dev) (n : Nat) (f : Comp → Comp) : Dev :=
  { d with comps := Bank.upd {} d.comps n f }
def Dev.updSource (d : Dev) (n : Nat) (f : IntSource → IntSource) : Dev :=
  { d with ic := { d.ic with sources := Bank.upd {} d.ic.sources n f } }
def Dev.updEng (d : Dev) (n : Nat) (f : EngineCtl → EngineCtl) : Dev :=
  { d with ne := Bank.upd {} d.ne n f }
def Dev.updHead (d : Dev) (n : Nat) (f : Head → Head) : Dev :=
  { d with heads := Bank.upd {} d.heads n f }
def Dev.updFp (d : Dev) (n : Nat) (f : FieldPort → FieldPort) : Dev :=
  { d with fps := Bank.upd {} d.fps n f }
def Dev.updPtpPort (d : Dev) (n : Nat) (f : PtpPort → PtpPort) : Dev :=
  { d with ptp := { d.ptp with ports := Bank.upd {} d.ptp.ports n f } }

/-- Contexts by engine and number, lanes by cluster. -/
def Dev.ctx (d : Dev) (e c : Nat) : Ctx := Bank.get {} d.ctxs (4 * e + c)
def Dev.updCtx (d : Dev) (e c : Nat) (f : Ctx → Ctx) : Dev := { d with ctxs := Bank.upd {} d.ctxs (4 * e + c) f }
def Dev.lane (d : Dev) (q : Nat) : Lane := Bank.get {} d.lanes q
def Dev.updLane (d : Dev) (q : Nat) (f : Lane → Lane) : Dev := { d with lanes := Bank.upd {} d.lanes q f }

/-- MACs, ports, mailboxes, dictionary requesters, event groups, members. -/
def Dev.mac (d : Dev) (n : Nat) : Mac := Bank.get {} d.lk.macs n
def Dev.updMac (d : Dev) (n : Nat) (f : Mac → Mac) : Dev := { d with lk := { d.lk with macs := Bank.upd {} d.lk.macs n f } }
def Dev.member (d : Dev) (n : Nat) : Member := Bank.get {} d.lk.members n
def Dev.updMember (d : Dev) (n : Nat) (f : Member → Member) : Dev := { d with lk := { d.lk with members := Bank.upd {} d.lk.members n f } }
def Dev.path (d : Dev) (n : Nat) : PortPath := Bank.get {} d.hi.paths n
def Dev.updPath (d : Dev) (n : Nat) (f : PortPath → PortPath) : Dev := { d with hi := { d.hi with paths := Bank.upd {} d.hi.paths n f } }
def Dev.hstat (d : Dev) (n : Nat) : HostStat := Bank.get {} d.hi.stats n
def Dev.updHstat (d : Dev) (n : Nat) (f : HostStat → HostStat) : Dev := { d with hi := { d.hi with stats := Bank.upd {} d.hi.stats n f } }
def Dev.box (d : Dev) (n : Nat) : Mailbox := Bank.get {} d.hi.boxes n
def Dev.updBox (d : Dev) (n : Nat) (f : Mailbox → Mailbox) : Dev := { d with hi := { d.hi with boxes := Bank.upd {} d.hi.boxes n f } }
def Dev.user (d : Dev) (n : Nat) : DictUser := Bank.get {} d.ds.users n
def Dev.updUser (d : Dev) (n : Nat) (f : DictUser → DictUser) : Dev := { d with ds := { d.ds with users := Bank.upd {} d.ds.users n f } }
def Dev.group (d : Dev) (n : Nat) : EventGroup := Bank.get {} d.ds.groups n
def Dev.updGroup (d : Dev) (n : Nat) (f : EventGroup → EventGroup) : Dev := { d with ds := { d.ds with groups := Bank.upd {} d.ds.groups n f } }
def Dev.session (d : Dev) (n : Nat) : Option Session := Bank.get none d.ds.sessions n
def Dev.setSession (d : Dev) (n : Nat) (s : Option Session) : Dev := { d with ds := { d.ds with sessions := Bank.set none d.ds.sessions n s } }

/-- A word of the data space (R262). -/
def Dev.read64 (d : Dev) (a : Nat) : W64 := Bank.get 0 d.mem a
def Dev.write64 (d : Dev) (a : Nat) (v : W64) : Dev := { d with mem := Bank.set 0 d.mem a v }

/-- A 128-bit record at word `a`: the low word first (log entry 16: DESIGN CHOICE, the manual gives no layout of the trace region). -/
def Dev.read128 (d : Dev) (a : Nat) : BitVec 128 :=
  ((d.read64 (a + 1)).setWidth 128 <<< 64) ||| (d.read64 a).setWidth 128
def Dev.write128 (d : Dev) (a : Nat) (v : BitVec 128) : Dev :=
  (d.write64 a (v.setWidth 64)).write64 (a + 1) ((v >>> 64).setWidth 64)

/-- Where the outcome ring and the engine trace ring lie in the trace region (log entry 16). -/
def outcomeBase : Nat := 0x300000
def traceBase : Nat := 0x302000

/-- The largest 48-bit fraction's unit count per TCLK: 64 × (1 + TRIM × 10⁻¹²) grains in units of 2⁻⁴⁸ grain, rounded
down (R34; log entry 2: DEDUCED). -/
def trimStep (trim : Int) : Nat := (64 * (1000000000000 + trim) * 2 ^ 48 / 1000000000000).toNat

/-- The increment i_k of the present TCLK in grains (R34), without a phase step. -/
def Dev.inc (d : Dev) : Nat := (trimStep d.tb.trim + d.tb.frac.toNat) / 2 ^ 48

/-- The present local instant in grains: untrimmed TCLKs times 64 (R36). -/
def Dev.localNow (d : Dev) : Nat := d.tb.tclk * 64

/-- Apply `f` for each element of a list, in order. -/
def forEach {α : Type} (l : List α) (f : α → Dev → Dev) (d : Dev) : Dev := l.foldl (fun acc a => f a acc) d

end Sys2Proof.Machine
end

