-- ==== Sys2Proof/Machine/Angle.lean ====
section
/-! DEFINITION. Angle arithmetic (R93, R112, R261): segments, gears, the angle of a count, and the time at which a
segment reaches an angle. All of it is exact and rounds down. -/

namespace Sys2Proof.Machine

/-- w·dt + a·dt²/2 of a segment in units of 2⁻⁶⁵ ANG64 unit: w has 32 fraction bits, a has 64 (R261). -/
def segProgress (s : Segment) (dt : Int) : Int := s.w.toInt * dt * 2 ^ 33 + s.a.toInt * dt * dt

/-- R112, R261: floor of θ0 + w(t − t0) + a(t − t0)²/2, modulo 2⁶⁴. -/
def evalSeg (s : Segment) (t : Time64) : Ang64 := plusInt s.theta0 (segProgress s (sdiff t s.t0) / 2 ^ 65)

/-- The speed of a segment at `t`, in its own format (32 fraction bits), rounded down. -/
def segSpeed (s : Segment) (t : Time64) : W64 := plusInt s.w (s.a.toInt * sdiff t s.t0 / 2 ^ 32)

/-- The segment re-anchored at `t` (R112: the values at tc). -/
def segAt (s : Segment) (t : Time64) : Segment := ⟨evalSeg s t, t, segSpeed s t, s.a⟩

/-- R112, R261 GEAR: floor(A × B / 2³²) mod 2⁶⁴, both signed. -/
def gearMul (a b : W64) : W64 := BitVec.ofInt 64 (a.toInt * b.toInt / 2 ^ 32)

/-- R93, R261 CANG: floor(C × 2³² / TPT) mod 2⁶⁴; TPT 0 gives 0. -/
def countAngle (c : Int) (tpt : Nat) : Ang64 := if tpt = 0 then 0 else BitVec.ofInt 64 (c * 2 ^ 32 / (tpt : Int))

/-- R93, R111: ang(C) = ANG_OFS + floor(C × 2³² / TPT); ANG_OFS while TPT is 0. -/
def angOf (cfg : AxisCfg) (c : Int) : Ang64 := cfg.ofs + countAngle c (fld cfg.tpt 0 25)

/-- The least `dt` in (lo, lo + 2^k] with `f dt`, where `f` turns true once, or lo + 2^k. -/
def bisect (f : Int → Bool) : Nat → Int → Int
  | 0, lo => lo + 1
  | k + 1, lo => if f (lo + 2 ^ k) then bisect f k lo else bisect f k (lo + 2 ^ k)

/-- R261 ATIME: the earliest t ≥ t0 with θ(t) − A ≥ 0 under R5; none if none falls within 2³⁸ grains. The angle rises up
to the vertex of a decelerating segment, and beyond the vertex of one that first runs backward. -/
def atime (s : Segment) (a : Ang64) : Option Time64 :=
  let reach (dt : Int) : Bool := decide (0 ≤ sdiff s.theta0 a + segProgress s dt / 2 ^ 65)
  let w := s.w.toInt
  let acc := s.a.toInt
  let top : Int := 2 ^ 38
  if reach 0 then some s.t0
  else if 0 ≤ w ∧ 0 ≤ acc then
    if reach top then some (plusInt s.t0 (bisect reach 38 0)) else none
  else if 0 ≤ w then
    -- decelerating: the vertex lies at w · 2³² / −a
    let v := min top (w * 2 ^ 32 / (-acc))
    if reach v then some (plusInt s.t0 (bisect (fun dt => decide (v ≤ dt) || reach dt) 38 0))
    else if v < top ∧ reach (v + 1) then some (plusInt s.t0 (v + 1)) else none
  else if 0 < acc then
    let v := min top ((-w) * 2 ^ 32 / acc)
    if reach top then some (plusInt s.t0 (bisect (fun dt => decide (v ≤ dt) && reach dt) 38 0)) else none
  else none

/-- R121: the TIME64 at which a segment places `a`: ahead of its anchor under ATIME, or behind it where the motion that
leads through the anchor has already passed `a`; none where neither falls within 2³⁸ grains. -/
def placed (s : Segment) (a : Ang64) : Option Time64 :=
  let reach (dt : Int) : Bool := decide (0 ≤ sdiff s.theta0 a + segProgress s dt / 2 ^ 65)
  let w := s.w.toInt
  let acc := s.a.toInt
  if reach 0 && decide (0 < w) then
    let lo : Int := -(2 ^ 38)
    let v : Int := if 0 < acc then max lo (-(w * 2 ^ 32 / acc)) else lo
    if reach v then none else some (plusInt s.t0 (bisect (fun dt => decide (v ≤ dt) && reach dt) 38 lo))
  else atime s a

/-! ### Fields of an axis, and the angle it publishes (R92, R95, R112) -/

def axKind (x : Axis) : Nat := fld x.cfg.cfg 28 3
def axEn (x : Axis) : Bool := bit x.cfg.cfg 31
def axSrc (x : Axis) : Nat := fld x.cfg.src 0 12
def axRef (x : Axis) : Nat := fld x.cfg.cfg 25 3
def axMtb (x : Axis) : Nat := fld x.cfg.cfg 10 5
def axTpt (x : Axis) : Nat := fld x.cfg.tpt 0 25

/-- R95: limit, the micro-ticks of the span. -/
def limitOf (x : Axis) : Nat := x.trk.span * 2 ^ axMtb x

/-- R92: the instant of the angle published at the end of the present TCLK. -/
def endNow (d : Dev) : Time64 := d.tb.time + BitVec.ofNat 64 d.inc

/-- R95: the angle of a physical axis: between its tooth and the next one in its direction (log entry 8: DEDUCED). -/
def physAngle (x : Axis) : Ang64 :=
  let t := x.trk
  let sp := sdiff (angOf x.cfg (if x.st.dir then t.c - t.span else t.c + t.span)) (angOf x.cfg t.c)
  plusInt t.anchorAng (t.m * sp / (limitOf x : Int))

/-- The angle an axis publishes at instant `now` (R92, R112). A remote axis without a segment stands at its count. -/
def angleNow (x : Axis) (now : Time64) : Ang64 :=
  if axKind x = 0 then physAngle x
  else if x.mdl.segOn then evalSeg x.mdl.seg now
  else if axKind x = 1 ∧ x.st.valid then angOf x.cfg x.trk.c
  else x.trk.ang

end Sys2Proof.Machine
end

