-- ==== Sys2Proof/Machine/Alu.lean ====
section
/-! DEFINITION. The fields of a microword (R254) and the arithmetic of an engine's units: the ALU operations (R259), their
flags (R256), the multiply/divide unit (R260), the angle unit (R261), the branch conditions (R258). -/

namespace Sys2Proof.Machine

/-! ### Fields (R254) -/

def mwNxt (w : Microword) : Nat := fld w 177 15
def mwBcond (w : Microword) : Nat := fld w 171 6
def mwSeq (w : Microword) : Nat := fld w 169 2
def mwSafe (w : Microword) : Bool := bit w 168
def mwTrc (w : Microword) : Bool := bit w 167
def mwAop (w : Microword) : Nat := fld w 161 6
def mwAsa (w : Microword) : Nat := fld w 155 6
def mwAsb (w : Microword) : Nat := fld w 149 6
def mwAdst (w : Microword) : Nat := fld w 143 6
def mwBop (w : Microword) : Nat := fld w 137 6
def mwBsa (w : Microword) : Nat := fld w 131 6
def mwBsb (w : Microword) : Nat := fld w 125 6
def mwBdst (w : Microword) : Nat := fld w 119 6
def mwMdu (w : Microword) : Nat := fld w 115 4
def mwMsrc (w : Microword) : Nat := fld w 109 6
def mwAng (w : Microword) : Nat := fld w 105 4
def mwGal (w : Microword) : Nat := fld w 101 4
def mwDma (w : Microword) : Nat := fld w 85 16
def mwDmop (w : Microword) : Nat := fld w 82 3
def mwChsel (w : Microword) : Nat := fld w 73 9
def mwChop (w : Microword) : Nat := fld w 69 4
def mwImm (w : Microword) : W32 := BitVec.ofNat 32 (fld w 37 32)
def mwIa (w : Microword) : Bool := bit w 36
def mwIb (w : Microword) : Bool := bit w 35
def mwK64 (w : Microword) : Bool := bit w 34
def mwFa (w : Microword) : Bool := bit w 33
def mwFb (w : Microword) : Bool := bit w 32
def mwImm2 (w : Microword) : W32 := w.setWidth 32

/-! ### ALU operations (R259) -/

/-- Leading zeros of a 64-bit value. -/
def clz64 (a : W64) : Nat :=
  match (List.range 64).find? fun i => a.getLsbD (63 - i) with | some i => i | none => 64

/-- Ones in a 64-bit value. -/
def popcount64 (a : W64) : Nat := (List.range 64).foldl (fun m i => if a.getLsbD i then m + 1 else m) 0

/-- A signed value limited to 64 bits. -/
def satInt64 (v : Int) : W64 := BitVec.ofInt 64 (max (-(2 ^ 63)) (min (2 ^ 63 - 1) v))

/-- The results of the operations 00h–1Bh that depend on A and B alone. -/
def aluResult (op : Nat) (a b : W64) : W64 :=
  let sh := fld b 0 6
  match op with
  | 0x01 => a
  | 0x02 => b
  | 0x03 => a + b
  | 0x04 => a - b
  | 0x05 => -a
  | 0x06 => a &&& b
  | 0x07 => a ||| b
  | 0x08 => a ^^^ b
  | 0x09 => a &&& ~~~b
  | 0x0A => ~~~a
  | 0x0B => a <<< sh
  | 0x0C => a >>> sh
  | 0x0D => a.sshiftRight sh
  | 0x0E => a.rotateLeft sh
  | 0x0F => if a.toInt ≤ b.toInt then a else b
  | 0x10 => if a.toInt ≤ b.toInt then b else a
  | 0x11 => if a.toNat ≤ b.toNat then a else b
  | 0x12 => if a.toNat ≤ b.toNat then b else a
  | 0x13 => if a.toInt < 0 then -a else a
  | 0x14 => satInt64 (a.toInt + b.toInt)
  | 0x15 => satInt64 (a.toInt - b.toInt)
  | 0x16 => a - b
  | 0x17 => a &&& b
  | 0x18 => let n := fld b 8 6; if n = 0 then a >>> sh else (a >>> sh) &&& BitVec.ofNat 64 (2 ^ n - 1)
  | 0x19 => (a <<< (63 - sh)).sshiftRight (63 - sh)
  | 0x1A => BitVec.ofNat 64 (clz64 a)
  | 0x1B => BitVec.ofNat 64 (popcount64 a)
  | _ => 0

/-- The operation writes its destination register. -/
def aluWrites (op : Nat) : Bool :=
  op != 0 && op != 0x16 && op != 0x17 && decide (op ≤ 0x1B ∨ (0x20 ≤ op ∧ op ≤ 0x26) ∨ op = 0x29)

/-- The operation sets flags where FA or FB asks for them. -/
def aluFlags (op : Nat) : Bool := op != 0 && decide (op ≤ 0x1B ∨ (0x20 ≤ op ∧ op ≤ 0x26) ∨ op = 0x29)

/-- C and V after an operation (R256): ADD, SUB and CMP by their rule; logical, shift and GET operations clear them; for the
other arithmetic operations the manual states neither, and the bits `r` are free (log entry 18). -/
def aluCarry (op : Nat) (a b : W64) (r : W64) : Bool × Bool :=
  match op with
  | 0x03 => (decide (2 ^ 64 ≤ a.toNat + b.toNat), decide ((a + b).toInt ≠ a.toInt + b.toInt))
  | 0x04 | 0x16 => (decide (b.toNat ≤ a.toNat), decide ((a - b).toInt ≠ a.toInt - b.toInt))
  | 0x05 | 0x0F | 0x10 | 0x11 | 0x12 | 0x13 | 0x14 | 0x15 | 0x1A | 0x1B => (bit r 0, bit r 1)
  | _ => (false, false)

/-! ### Multiply and divide (R260) -/

/-- MDR; `r` is the quotient of DIVS where no signed value holds it, which the manual does not state (log entry 18). -/
def mduResult (op : Nat) (a b r : W64) : W64 :=
  match op with
  | 1 => a * b
  | 2 => BitVec.ofInt 64 (a.toInt * b.toInt / 2 ^ 64)
  | 3 => BitVec.ofNat 64 (a.toNat * b.toNat / 2 ^ 64)
  | 4 => gearMul a b
  | 5 => if b = 0 then BitVec.allOnes 64 else if a = BitVec.intMin 64 ∧ b = BitVec.allOnes 64 then r else BitVec.ofInt 64 (a.toInt.tdiv b.toInt)
  | 6 => if b = 0 then BitVec.allOnes 64 else BitVec.ofNat 64 (a.toNat / b.toNat)
  | 7 => if b = 0 then a else BitVec.ofInt 64 (a.toInt.tmod b.toInt)
  | 8 => if b = 0 then a else BitVec.ofNat 64 (a.toNat % b.toNat)
  | _ => 0

def isDivision (op : Nat) : Bool := decide (5 ≤ op ∧ op ≤ 8)

/-! ### The angle unit (R261) -/

/-- The operation's result, with what it sets AHEAD and NOROOT to; `r` is what ANR holds where no root exists, which the
manual does not state (log entry 18). -/
def angResult (op : Nat) (m : Segment) (a b r : W64) : AngOp :=
  match op with
  | 1 => ⟨3, a - b, some (decide (0 ≤ (a - b).toInt)), none⟩
  | 2 => ⟨3, gearMul a b, none, none⟩
  | 3 => if b = 0 then ⟨3, 0, none, some true⟩ else ⟨3, BitVec.ofInt 64 ((a.toInt * 2 ^ 32).fdiv b.toInt), none, some false⟩
  | 6 => match atime m a with | some t => ⟨8, t, none, some false⟩ | none => ⟨8, r, none, some true⟩
  | _ => ⟨3, evalSeg m a, none, none⟩

/-- MODA and MODB load the model latch. -/
def angModel (op : Nat) (m : Segment) (a b : W64) : Segment :=
  match op with
  | 4 => { m with theta0 := a, t0 := b }
  | 5 => { m with w := a, a := b }
  | _ => m

/-! ### Branch conditions (R258) -/

/-- The condition holds, as the context's flags stand before the word; `queued` is code 14h, `more` code 15h. -/
def branchHolds (x : Ctx) (code : Nat) (queued more : Bool) : Bool :=
  match code with
  | 0x00 => true
  | 0x02 => x.z
  | 0x03 => !x.z
  | 0x04 => x.n
  | 0x05 => !x.n
  | 0x06 => x.c
  | 0x07 => !x.c
  | 0x08 => x.v
  | 0x09 => !x.v
  | 0x0A => x.n != x.v
  | 0x0B => x.n == x.v
  | 0x0C => x.z || x.n != x.v
  | 0x0D => !x.z && x.n == x.v
  | 0x0E => x.ahead
  | 0x0F => !x.ahead
  | 0x10 => x.noroot
  | 0x11 => x.galCode == 0
  | 0x12 => x.galCode != 0
  | 0x13 => x.galCode == 6
  | 0x14 => queued
  | 0x15 => more
  | _ => false

/-- A branch that tests AHEAD, NOROOT or the galley result code waits for the operations in flight (R256). -/
def branchWaits (x : Ctx) (code : Nat) : Bool := decide (0x0E ≤ code ∧ code ≤ 0x13) && (!x.angs.isEmpty || x.galBusy)

end Sys2Proof.Machine
end

