-- ==== Sys2Proof/Machine/Interrupt.lean ====
section
/-! DEFINITION. The interrupt controller (R298–R312): pending, active and lost; claim and complete; the gathering of
member events; the wake of an engine (R270), which an interrupt, a slug or a tick strobe can cause. -/

namespace Sys2Proof.Machine

/-! ### Engine wakes (R270) -/

/-- A wake of context `c` (2 or 3) of engine `e`. A context that is running or ready, or whose engine is offline, or
context 3 while halted, keeps it as its pending wake; several merge into one. -/
def wakeEngine (e c : Nat) (d : Dev) : Dev :=
  let g := d.eng e
  if !g.online || (c == 3 && g.chalted) || bit g.ready c || (g.busy && g.ctx == c) then
    d.updEng e fun g => { g with pendWake := g.pendWake ||| BitVec.ofNat 4 (2 ^ c) }
  else
    d.updEng e fun g => { g with ready := g.ready ||| BitVec.ofNat 4 (2 ^ c) }

/-- The context an interrupt wakes: ICTX 11b is context 3, every other value context 2. -/
def ictxOf (g : EngineCtl) : Nat := if fld g.ctl 5 2 = 3 then 3 else 2

/-! ### Sources -/

def srcEn (s : IntSource) : Bool := bit s.src 31
def srcTgt (s : IntSource) : Nat := fld s.src 16 5
def srcSense (s : IntSource) : Nat := fld s.src 14 2
def srcPri (s : IntSource) : Nat := fld s.src 0 3

/-- R302, R306: claimable by its target. -/
def claimable (s : IntSource) : Bool := s.pend && !s.act && (srcEn s || s.span)

/-- Target `t` is a host vector 0–3 or an engine 16–31 (R305). -/
def isTarget (t : Nat) : Bool := t < 4 || (16 ≤ t && t < 32)

/-- The claimable source of highest PRI, the lowest number among equals (R302), as (PRI, number). -/
def winnerIn (t : Nat) : Bank IntSource → Option (Nat × Nat)
  | [] => none
  | (n, s) :: rest =>
    let r := winnerIn t rest
    if claimable s && srcTgt s == t then
      match r with
      | none => some (srcPri s, n)
      | some (p, m) => if p ≤ srcPri s then some (srcPri s, n) else some (p, m)
    else r

/-- The winner of target `t` (R302). -/
def winner (t : Nat) (d : Dev) : Option Nat := (winnerIn t d.ic.sources).map (·.2)

/-- R422: the level of a host vector falls with its last claimable source. -/
def settleVectors (d : Dev) : Dev :=
  let lv := (List.range 4).foldl
    (fun (acc : BitVec 4) t => if (winner t d).isSome then acc ||| BitVec.ofNat 4 (2 ^ t) else acc) 0
  { d with ic := { d.ic with vlevel := d.ic.vlevel &&& lv } }

/-- The wake of an engine target that has just gained its first claimable source (R305). -/
def wakeIfFirst (t : Nat) (had : Bool) (d : Dev) : Dev :=
  if 16 ≤ t && !had && (winner t d).isSome then wakeEngine (t - 16) (ictxOf (d.eng (t - 16))) d else d

/-- Row 2 of R301 for source `n`: an event, or a software set. A level source never records a lost event (R300). -/
def fireSource (n : Nat) (d : Dev) : Dev :=
  let s := d.source n
  let levelSrc := decide (0x100 ≤ n ∧ n < 0x200) && srcSense s == 3
  if s.pend || s.act then
    if levelSrc then d else d.updSource n fun s => { s with lost := true }
  else
    let had := (winner (srcTgt s) d).isSome
    wakeIfFirst (srcTgt s) had (d.updSource n fun s => { s with pend := true })

/-- R314: the crossing source 3AEh fires for the events IC_XSEL selects; bit 1 overruns, bit 0 quiesces. -/
def fireCrossing (b : Nat) (d : Dev) : Dev := if bit d.ic.xsel b then fireSource 0x3AE d else d

/-- An overrun of crossing counter `i` by `k` (R313, R321). -/
def crossOverrun (i k : Nat) (d : Dev) : Dev :=
  if k = 0 then d else
    fireCrossing 1 { d with ic := { d.ic with
      xovr := Bank.upd 0 d.ic.xovr i (addSat · k), xstat := orBit d.ic.xstat 1 } }

/-- The counter of IC_XOVR for the type H crossing of source `n`: 0 from TCLK, 1 from ECLK (R298, R315); none where the source belongs
to the FCLK domain. -/
def eventCrossing (n : Nat) : Option Nat :=
  if n < 0x100 ∨ (0x200 ≤ n ∧ n < 0x390) ∨ n = 0x3A4 ∨ n = 0x3A5 then some 0
  else if (0x390 ≤ n ∧ n < 0x3A0) ∨ n = 0x3A6 ∨ n = 0x3A7 ∨ (0x3A9 ≤ n ∧ n ≤ 0x3AB) then some 1
  else none

/-- The TCLKs that a handshake of source `n` takes: 6 from TCLK, 5 from ECLK (R313, R315). -/
def eventSpan (n : Nat) : Nat := if eventCrossing n = some 0 then 6 else 5

/-- The handshake of an H crossing in TCLK `t`: when the event that crosses is acknowledged, `span` after it left, and whether another
waits (R313). -/
def handshakeAt (s : IntSource) (span t : Nat) : Nat × Bool :=
  if t < s.hsEnd then (s.hsEnd, s.hsWait)
  else if s.hsWait && decide (t < s.hsEnd + span) then (s.hsEnd + span, false)
  else (t, false)

/-- A member of source `n` records an event: the members' events of one clock are one event (R298); a third within the handshakes of
two merges with the waiting one and is an overrun (R313, R317). An event after the claim of another is one of its own (log entry
89: DESIGN CHOICE). -/
def memberEvent (n : Nat) (d : Dev) : Dev :=
  let s := d.source n
  let t := d.tb.tclk
  if s.firedAt = some t ∧ s.pend = true then d
  else
    let h := handshakeAt s (eventSpan n) t
    let d1 := d.updSource n fun s => { s with firedAt := some t }
    match eventCrossing n with
    | none => fireSource n d1
    | some x =>
      if t < h.1 ∧ h.2 = true then crossOverrun x 1 d1
      else fireSource n (d1.updSource n fun s => if t < h.1 then { s with hsEnd := h.1, hsWait := true } else { s with hsEnd := t + eventSpan n, hsWait := false })

/-- A channel event of R216 (TM 0, MR 1, MF 2, CP 3) at channel `n`: recorded in IC_CHWgg and gathered into source
2C0h + g when IC_CHEVgg selects it (R298). -/
def chanEvent (n ev : Nat) (d : Dev) : Dev :=
  let g := n / 8
  let b := 4 * (n % 8) + ev
  if bit (Bank.get 0 d.ic.chev g) b then
    memberEvent (0x2C0 + g) { d with ic := { d.ic with chw := Bank.upd 0 d.ic.chw g (orBit · b) } }
  else d

/-- A W1C event bit `b` (7–20) of AXnnnn_STAT recorded for axis `a`, gathered by IC_AXEV (R298). -/
def axisEvent (a b : Nat) (d : Dev) : Dev :=
  let g := a / 64
  if 7 ≤ b && bit d.ic.axev (b - 7) then
    memberEvent (0x300 + g) { d with ic := { d.ic with
      axw := Bank.upd 0 d.ic.axw g (· ||| BitVec.ofNat 64 (2 ^ (a % 64))) } }
  else d

/-! ### Commands -/

/-- IC_STAT flag `b`. -/
def icFlag (b : Nat) (d : Dev) : Dev := { d with ic := { d.ic with stat := orBit d.ic.stat b } }

/-- R299: a write to IC_DBELL. -/
def icDoorbell (v : W32) (d : Dev) : Dev :=
  let n := fld v 0 10
  if n < 256 then fireSource n d else icFlag 0 d

/-- R301: a write of ones to IC_SETPww. -/
def icSetPending (w : Nat) (v : W32) (d : Dev) : Dev :=
  forEach (List.range 32) (fun b d => if bit v b then fireSource (32 * w + b) d else d) d

/-- A level source that is neither pending nor active fires again while its accepted level is high: after a completion, a
clearing of IC_PEND, a change of SENSE (R300). -/
def refireLevel (n : Nat) (d : Dev) : Dev :=
  let s := d.source n
  if decide (0x100 ≤ n ∧ n < 0x200) && srcSense s == 3 && s.level && !s.pend && !s.act then fireSource n d else d

/-- R301: a write of ones to IC_PENDww. -/
def icClearPending (w : Nat) (v : W32) (d : Dev) : Dev :=
  let d1 := settleVectors (forEach (List.range 32)
    (fun b d => if bit v b then d.updSource (32 * w + b) fun s => { s with pend := false } else d) d)
  forEach (List.range 32) (fun b d => if bit v b then refireLevel (32 * w + b) d else d) d1

/-- A write of ones to IC_LOSTww. -/
def icClearLost (w : Nat) (v : W32) (d : Dev) : Dev :=
  forEach (List.range 32)
    (fun b d => if bit v b then d.updSource (32 * w + b) fun s => { s with lost := false } else d) d

/-- R303: a read of IC_CLAIMtt: the value and the state after it. -/
def icClaim (t : Nat) (d : Dev) : W32 × Dev :=
  if isTarget t then
    match winner t d with
    | some n => (BitVec.ofNat 32 n,
        settleVectors (d.updSource n fun s => { s with pend := false, act := true, span := false }))
    | none => (0x80000000#32, d)
  else (0x80000000#32, d)

/-- R304: a write to IC_COMPtt. -/
def icComplete (t : Nat) (v : W32) (d : Dev) : Dev :=
  let n := fld v 0 10
  let s := d.source n
  if isTarget t && s.act && srcTgt s == t then
    refireLevel n (d.updSource n fun s => { s with act := false })
  else icFlag 2 d

/-- R298, R305, R306, R307, R314: a write to IC_SRCnnnn. A write that sets EN of a reserved source, or of 3AEh while IC_XSEL is
0, is ignored with CFG_ERR. EN and PRI always act; TGT, and on pin sources SENSE, FILT and WAKE, only while EN = 0 and ACT = 0. -/
def icSourceWrite (n : Nat) (v : W32) (d : Dev) : Dev :=
  let s := d.source n
  let isPin := decide (0x100 ≤ n ∧ n < 0x200)
  let locked := if isPin then fmask 16 5 ||| fmask 7 9 else fmask 16 5
  let barred := decide (0x3AF ≤ n) || (n == 0x3AE && d.ic.xsel &&& 3#32 == 0#32)
  let lockNow := srcEn s || s.act
  let changes := (v ^^^ s.src) &&& locked ≠ 0
  let enNew := bit v 31
  let src1 := setFld s.src 0 3 (fld v 0 3)
  let src2 := if lockNow then src1 else (src1 &&& ~~~locked) ||| (v &&& locked)
  let src3 := putBit src2 31 enNew
  let span := if srcEn s && !enNew then s.pend else if enNew then false else s.span
  let had := (winner (fld src3 16 5) d).isSome
  let d1 := d.updSource n fun s => { s with src := src3, span := span, spanAt := if srcEn s && !enNew then d.tb.tclk else s.spanAt }
  let d2 := if lockNow && changes then icFlag 3 d1 else d1
  if bit v 31 && barred && !srcEn s then icFlag 2 d
  else settleVectors (wakeIfFirst (fld src3 16 5) had (refireLevel n d2))

/-- R306: the span of eight FCLK after a write that cleared EN ends. -/
def icSpanEnd (n : Nat) (d : Dev) : Dev :=
  settleVectors (d.updSource n fun s => if srcEn s then s else { s with span := false })

/-- The eight FCLK of R306 are over. An FCLK passes with each TCLK (log entry 89: DESIGN CHOICE). -/
def spanOver (d : Dev) (n : Nat) : Bool := (d.source n).span && decide ((d.source n).spanAt + 8 < d.tb.tclk)

/-- A pin source in one FCLK: the synchroniser samples the ball, and the filter counts samples of a new level (R300). -/
def icSample (p : Nat) (d : Dev) : Dev :=
  let b := (d.pin p).ball
  let s := d.source (0x100 + p)
  if s.level = b ∧ s.sync1 = b ∧ s.sync2 = b then d
  else d.updSource (0x100 + p) fun s => { s with sync1 := b, sync2 := s.sync1, count := if s.sync1 = s.level then 0 else s.count + 1 }

/-- The pins whose interrupt stage has something to sample. -/
def icPins (d : Dev) : List Nat :=
  let l := (d.tooth.pins.map (·.1)).filter fun p => decide (p < 256)
  l ++ ((d.ic.sources.filterMap fun e => if 0x100 ≤ e.1 ∧ e.1 < 0x200 then some (e.1 - 0x100) else none).filter fun p => !l.contains p)

/-- N = FILT + 1 samples of a new level have been counted (R300). -/
def icAccepts (d : Dev) (p : Nat) : Bool :=
  decide (fld (d.source (0x100 + p)).src 8 6 + 1 ≤ (d.source (0x100 + p)).count)

/-- An FCLK of the controller: the pin sources sample, and a vector is due the second FCLK after its first claimable source
(R300, R305). -/
def icTclk (d : Dev) : Dev :=
  let now := (List.range 4).foldl (fun (m : BitVec 4) t => if (winner t d).isSome then m ||| BitVec.ofNat 4 (2 ^ t) else m) 0
  forEach (icPins d) icSample { d with ic := { d.ic with vfirst := now, vdue := d.ic.vfirst &&& now } }

/-- R300: the filter of a pin source accepts a new level and fires per SENSE. -/
def icPinSense (n : Nat) (lvl : Bool) (d : Dev) : Dev :=
  let k := 0x100 + n
  let s := d.source k
  let was := s.level
  let d := d.updSource k fun s => { s with level := lvl, count := 0 }
  let fires := match srcSense s with
    | 0 => !was && lvl
    | 1 => was && !lvl
    | 2 => was != lvl
    | _ => lvl && !s.pend && !s.act
  if fires then fireSource k d else d

/-- R298: a read of IC_CHWgg returns the recorded events and clears them. -/
def icChwRead (g : Nat) (d : Dev) : W32 × Dev :=
  (Bank.get 0 d.ic.chw g, { d with ic := { d.ic with chw := Bank.set 0 d.ic.chw g 0 } })

/-- R298: a read of IC_AXWgg_LO returns both words (the port latches HI) and clears them. -/
def icAxwRead (g : Nat) (d : Dev) : W64 × Dev :=
  (Bank.get 0 d.ic.axw g, { d with ic := { d.ic with axw := Bank.set 0 d.ic.axw g 0 } })

/-- One of the 32-bit records by word: PEND, ACT or LOST of sources 32w to 32w + 31. -/
def icWord (f : IntSource → Bool) (w : Nat) (d : Dev) : W32 :=
  (List.range 32).foldl (fun acc b => if f (d.source (32 * w + b)) then orBit acc b else acc) 0

/-- R309: at HOLD entry each enabled pin source with WAKE arms its latch. -/
def armWakeLatches (d : Dev) : Dev :=
  forEach (List.range 256)
    (fun n d => let s := d.source (0x100 + n)
      if srcEn s && bit s.src 7 then d.updSource (0x100 + n) fun s => { s with wakeArmed := true } else d) d

/-- R309: a transition at an armed ball; `rise` says which. Level sense is taken as rise. -/
def wakeLatchCatches (s : IntSource) (rise : Bool) : Bool :=
  s.wakeArmed && (match srcSense s with | 1 => !rise | 2 => true | _ => rise)

/-- R309: in the first FCLK after the clocks return, each set latch fires its source once and every latch is cleared. -/
def fireWakeLatches (d : Dev) : Dev :=
  forEach (List.range 256)
    (fun n d => let s := d.source (0x100 + n)
      if s.wakeArmed || s.wakeSet then
        let d1 := if s.wakeSet then fireSource (0x100 + n) d else d
        d1.updSource (0x100 + n) fun s => { s with wakeArmed := false, wakeSet := false }
      else d) d

end Sys2Proof.Machine
end

