-- ==== Sys2Proof/Machine/Channel.lean ====
section
/-! DEFINITION. Channel output stages (R165–R189): pin ownership, shadows and quoins, the merge of compares, pulse
ends, galley commands and forces, enable and disable, encoder emulation, remote edge lists. -/

namespace Sys2Proof.Machine

/-! ### Fields -/

def chEn (o : ChanOut) : Bool := bit o.ctl 31
/-- The next TCLK's work finds EN = 1, or the present one's does: forces are taken (R177, R178). -/
def chTakes (o : ChanOut) : Bool := chEn o || o.enNow
def chMode (o : ChanOut) : Nat := fld o.ctl 29 2
def chRld (o : ChanOut) : Nat := fld o.ctl 27 2
def chShd (o : ChanOut) : Bool := bit o.ctl 26
def chQen (o : ChanOut) : Bool := bit o.ctl 25
def chQg (o : ChanOut) : Nat := fld o.ctl 20 5
def outSrc (o : ChanOut) : Nat := fld o.out 6 2
def outDrv (o : ChanOut) : Nat := fld o.out 4 2
def outPol (o : ChanOut) : Bool := bit o.out 3
def outIdl (o : ChanOut) : Bool := bit o.out 2
def emEn (e : ChanEm) : Bool := bit e.emc 31
def emSrc (e : ChanEm) : Bool := bit e.emc 30
def emDir (e : ChanEm) : Nat := fld e.emc 28 2
def emSwap (e : ChanEm) : Bool := bit e.emc 27
/-- EMGAP; 0 is used as 1. -/
def emGap (e : ChanEm) : Nat := max 1 (fld e.emc 16 8)
def emAxis (e : ChanEm) : Nat := fld e.emc 0 12
def emSteps (e : ChanEm) : Nat := fld e.ems 0 25
/-- CH256–CH511 have no pin (R59, R187). -/
def isRemote (n : Nat) : Bool := decide (256 ≤ n)

/-- A W1C flag of CHnnn_STAT. -/
def chFlag (n b : Nat) (d : Dev) : Dev := d.updOut n fun o => { o with stat := orBit o.stat b }

/-- A pair is enabled while it is not DISABLED (R191, R200). -/
def pairEnabled (p : Pair) : Bool := p.state != .disabled

/-! ### Pin ownership (R165) -/

/-- Who drives TP n. -/
inductive PinOwner where
  | pair (p : Nat) | comp (k : Nat) | none | channel
  deriving DecidableEq, Repr

/-- EN, the levels and the drive enables of a compositor as its pins have them in the present TCLK: a change reaches them in the next one
(R234, R245). -/
def compPins (c : Comp) : Bool × BitVec 8 × BitVec 8 := c.pinsWere.getD (bit c.r.ctl 31, c.levels, c.drives)

/-- The enabled compositor whose output window holds TP n (R233). -/
def compOwner (d : Dev) (n : Nat) : Option Nat :=
  (d.comps.find? fun e =>
    (compPins e.2).1 && decide (fld e.2.r.pins 24 8 ≤ n) && decide (n < fld e.2.r.pins 24 8 + fld e.2.r.pins 16 4)).map (·.1)

/-- R165, by rows: a reserved SRC code falls to the last two. -/
def pinOwner (d : Dev) (n : Nat) : PinOwner :=
  if pairEnabled (d.pair (n / 2)) then .pair (n / 2)
  else if outSrc (d.chOut n) = 1 then (match compOwner d n with | some k => .comp k | Option.none => .none)
  else if outDrv (d.chOut n) = 0 then .none
  else .channel

/-- The level driven on TP n, none for high impedance (R166, R191, R234); DRV 11b is reserved (log entry 3). -/
def pinDrive (d : Dev) (n : Nat) : Option Bool :=
  match pinOwner d n with
  | .pair p =>
    let b := d.pair p
    if n % 2 = 0 then some (b.high.on != bit b.ctl 27) else some (b.low.on != bit b.ctl 26)
  | .comp k =>
    let c := d.comp k
    let i := n - fld c.r.pins 24 8
    if bit (compPins c).2.2 i then some (bit (compPins c).2.1 i) else Option.none
  | .none => Option.none
  | .channel =>
    let l := (d.chOut n).lvl != outPol (d.chOut n)
    match outDrv (d.chOut n) with
    | 2 => if l then Option.none else some false
    | 3 => Config.reservedDrive l
    | _ => some l

/-! ### Remote edge lists (R187, R346) -/

/-- A field-port event bit `b` of FPnn_STAT: bits [9:2] fire source 340h + p; the next full status reports it (R359). -/
def fpFlag (p b : Nat) (d : Dev) : Dev :=
  let d := { d.updFp p fun f => { f with stat := orBit f.stat b } with
    lk := { d.lk with fpErr := d.lk.fpErr ||| BitVec.ofNat 64 (2 ^ p) } }
  if 2 ≤ b && b ≤ 9 then memberEvent (0x340 + p) d else d

/-- A W1C bit `b` of HDnnnn_STAT fires its port's source. -/
def hdFlag (h b : Nat) (d : Dev) : Dev :=
  memberEvent (0x340 + h / 32) (d.updHead h fun x => { x with stat := orBit x.stat b })

/-- The edge-list entry of remote channel `n` of the present TCLK goes from the queue of head `h`. -/
def undoEdge (n h : Nat) (d : Dev) : Dev :=
  if (d.head h).eq.any fun x => x.chan == n && x.tclk == d.tb.tclk + 1 then
    d.updHead h fun x => { x with eq := x.eq.filter fun x => !(x.chan == n && x.tclk == d.tb.tclk + 1) }
  else d

/-- R187, R346: the change of LVL of remote channel `n` in the present TCLK, with edge time `e`. Two changes of one TCLK are
one change and an even number of them none (R176): the entry of this TCLK goes, and with `net` a new one enters its head's queue
of 32, or is discarded with EDGE_OVF; for a head of a disabled port it is discarded and counted (R349). -/
def queueEdge (n : Nat) (lvl net : Bool) (e : Time64) (d : Dev) : Dev :=
  let h := fld (d.chOut n).rmap 16 11
  let hout := fld (d.chOut n).rmap 0 4
  let d1 := undoEdge n h d
  if !net then d1
  else if !bit (d1.fp (h / 32)).cfg 31 then
    fpFlag (h / 32) 8 (d1.updFp (h / 32) fun f => { f with discc := incSat f.discc })
  else if (d1.head h).eq.length < 32 then
    d1.updHead h fun x => { x with eq := x.eq ++ [⟨e, lvl, hout, n, d.tb.tclk + 1⟩] }
  else fpFlag (h / 32) 7 (d1.updFp (h / 32) fun f => { f with eovfc := incSat f.eovfc })

/-! ### The merge (R176) -/

/-- The channel whose enabled encoder emulation channel `n` shows, the nearest below it (R181). -/
def emBase (d : Dev) (n : Nat) : Option Nat :=
  if 256 ≤ n then Option.none
  else if emEn (d.chEm n) then some n
  else if 1 ≤ n && emEn (d.chEm (n - 1)) then some (n - 1)
  else if 2 ≤ n && emEn (d.chEm (n - 2)) then some (n - 2)
  else Option.none

/-- The channel shows an encoder emulation. -/
def emulated (d : Dev) (n : Nat) : Bool := (emBase d n).isSome

/-- R60, R174: the local instant, in grains, of a TIME64 value inside the present TCLK. -/
def localAt (d : Dev) (e : Time64) : Nat :=
  let off := (sdiff e d.tb.time).toNat
  d.localNow + (2 * off * 64 + d.inc) / (2 * d.inc)

/-- The TIME64 value of a local instant, by the increment of the present TCLK. -/
def timeAt (d : Dev) (g : Nat) : Time64 :=
  plusInt d.tb.time ((((g : Int) - d.localNow) * 2 * d.inc + 64) / 128)

/-- LVL of channel `n` takes `v` at local instant `g`: an edge-list entry of edge time `e` on a remote channel. A bridge pair and a
pin take the level that this TCLK's merge leaves (R176, R190). -/
def putLevel (n : Nat) (v : Bool) (e : Time64) (g : Nat) (d : Dev) : Dev :=
  let o := d.chOut n
  if o.lvl = v then d
  else
    let d1 := d.updOut n fun o => { o with lvl := v, lvlAt := g }
    if isRemote n then queueEdge n v (v != o.lvlWas) e d1 else d1

/-- A request takes LVL to `v` at local instant `g`, edge time `e`: ECOLL at the second change in one TCLK (R176). -/
def setLevel (n : Nat) (v : Bool) (e : Time64) (g : Nat) (d : Dev) : Dev :=
  let o := d.chOut n
  if o.lvl = v then d
  else
    putLevel n v e g (d.updOut n fun o =>
      { o with changes := o.changes + 1, stat := if 1 ≤ o.changes then orBit o.stat 4 else o.stat })

/-- A request of R176 on channel `n`; on an emulated channel it is ignored and sets ECOLL (R181). -/
def levelRequest (n : Nat) (v : Bool) (e : Time64) (g : Nat) (d : Dev) : Dev :=
  if emulated d n then chFlag n 4 d else setLevel n v e g d

/-- LVL takes IDL without a request: at a change of the pin's owner (R166), at an enable (R179), and when the last command of a
disabled channel has acted (R178). An encoder emulation keeps the level of its own (R181). -/
def takeIdle (n : Nat) (d : Dev) : Dev :=
  if emulated d n then d else putLevel n (outIdl (d.chOut n)) d.tb.time d.localNow d

/-- R166: the stages of the pins `ps` whose owner `f` changes start at IDL. -/
def withOwner (ps : List Nat) (f : Dev → Dev) (d : Dev) : Dev :=
  forEach ps (fun p x => if pinOwner d p = pinOwner x p then x else takeIdle p x) (f d)

/-- R178: a disabled channel with no committed command, compare or pulse end left. -/
def atRest (d : Dev) (n : Nat) : Bool :=
  let o := d.chOut n
  !chEn o && o.pulseEnd.isNone && o.reqs.isEmpty && !(d.gs.flight.any fun x => x.chan == n && decide (x.act ≤ 3))

/-! ### Completion of an occurrence (R127, R140, R316) -/

/-- Same occurrence of a slug. -/
def sameOcc (a b : Occurrence) : Bool := a.sid == b.sid && a.seq == b.seq && a.e == b.e

/-- The channel stage reports occurrence `o` complete: its completion record enters the commit FIFO. -/
def reportComplete (o : Occurrence) (d : Dev) : Dev :=
  { d with gs := { d.gs with flight := d.gs.flight.filter (fun x => !sameOcc x o),
                             fifo := d.gs.fifo ++ [.complete o] } }

/-- The occurrence in flight for slug `sid` that is placed at `e`. -/
def findOcc (d : Dev) (sid : Nat) (e : Time64) : Option Occurrence :=
  d.gs.flight.find? fun x => x.sid == sid && x.place == e && !x.begun

/-- R162 at an instant of the action of occurrence `o`: a pair held at its safe levels by a trip marks it TRIPPED, and a pair in
STOPPING or DISABLED marks it cut if the pair has been in RUN since the commit. -/
def markCut (d : Dev) (o : Occurrence) : Occurrence :=
  if o.chan < 256 then
    match (d.pair (o.chan / 2)).state with
    | .tripped => { o with tripped := true }
    | .run => { o with ran := true }
    | _ => { o with cut := o.cut || o.ran }
  else o

/-- The state of pair `p` has changed: the occurrences in flight on its two channels that act at this instant take its mark, and
all of them know that it has been in RUN (R162). -/
def markPair (p : Nat) (d : Dev) : Dev :=
  { d with gs := { d.gs with flight := d.gs.flight.map fun o =>
      if o.chan / 2 = p ∧ o.chan < 256 ∧ o.act ≤ 4 ∧ (o.begun ∨ (d.pair p).state = .run) then markCut d o else o } }

/-- RLEAD: by so many TCLK an action of a remote channel leaves the stage ahead of its edge time (R134, R188). -/
def leadOf (d : Dev) (n sid : Nat) (e : Time64) : Nat :=
  if isRemote n then (match findOcc d sid e with | some o => o.lead | none => fld d.gl.cfg 16 16) else 0

/-- The local instant at which an action of channel `n` with edge time `e` acts in the stage. -/
def actsAt (d : Dev) (n sid : Nat) (e : Time64) : Nat := localAt d (plusInt e (-((leadOf d n sid e * 64 : Nat) : Int)))

/-! ### Galley commands at E (R119, R174–R176, R183, R229) -/

/-- R182: S, the steps per turn of an emulation: EMSTEPS, or the TPT of EMAXIS when EMSTEPS is 0. -/
def emS (d : Dev) (e : ChanEm) : Nat :=
  if emSteps e = 0 then fld (d.axis (emAxis e)).cfg.tpt 0 25 else emSteps e

/-- R182: the levels A, B and Z of a step count. -/
def emLevels (s : Nat) (e : ChanEm) (ec : Int) : Bool × Bool × Bool :=
  let q := (ec % 4).toNat
  let a := q == 1 || q == 2
  let b := q == 2 || q == 3
  let z := s != 0 && decide (((ec - (fld e.emz 0 24 : Nat)) % (s : Int)).toNat < fld e.emz 24 2 + 1)
  if emSwap e then (b, a, z) else (a, b, z)

/-- A local instant lies in the present TCLK or before. -/
def reachedLocal (d : Dev) (g : Nat) : Bool := decide (g < d.localNow + 64)

/-- The level channel `n` shows of the emulation of channel `b` (R182). -/
def emLevel (d : Dev) (b n : Nat) : Bool :=
  let e := d.chEm b
  let l := emLevels (emS d e) e e.shown
  if n = b then l.1 else if n = b + 1 then l.2.1 else l.2.2

/-- Channel `n` takes the level of the emulation it shows at local instant `g`; while EN = 0 it rests at IDL (R181). -/
def emPut (n g : Nat) (d : Dev) : Dev :=
  match emBase d n with
  | some b =>
    let v := if (d.chOut n).enNow then emLevel d b n else outIdl (d.chOut n)
    putLevel n v (timeAt d g) g d
  | none => d

/-- The three channels of emulation `b` show its steps at local instant `g`. -/
def emShow (b g : Nat) (d : Dev) : Dev := emPut (b + 2) g (emPut (b + 1) g (emPut b g d))

/-- A step of emulation `b` reaches the pins at local instant `m.at_`. -/
def emMove (b : Nat) (m : EmStep) (d : Dev) : Dev :=
  emShow b m.at_ (d.updEm b fun e => { e with
    ec := if m.counted then e.ec else e.ec + m.delta, shown := e.shown + m.delta })

/-- The steps of emulation `b` that fall due in the present TCLK show, in order (R183, R184). -/
def emMoves (b : Nat) (d : Dev) : Dev :=
  let due := (d.chEm b).moves.filter fun m => reachedLocal d m.at_
  forEach due (emMove b) (d.updEm b fun e => { e with moves := e.moves.filter fun m => !reachedLocal d m.at_ })

/-- R183: one emulation step at local instant `g`; less than EMGAP TCLK after the previous one it is moved to EMGAP TCLK after it
and EM_LAG set. -/
def emStep (n : Nat) (back : Bool) (g : Nat) (d : Dev) : Dev :=
  let e := d.chEm n
  let free := match e.last with | some k => k + emGap e * 64 | none => g
  let at_ := max g free
  let m : EmStep := ⟨at_, if back then -1 else 1, false⟩
  let d1 := d.updEm n fun e => { e with last := some at_, moves := e.moves ++ [m] }
  emMoves n (if g < free then chFlag n 6 d1 else d1)

/-- An edge-rise, edge-fall or toggle command acts at E (R119, R176). -/
def galleyLevel (n sid : Nat) (e : Time64) (v : Bool) (d : Dev) : Dev :=
  let d1 := levelRequest n v e (actsAt d n sid e) d
  match findOcc d sid e with
  | some o => reportComplete (markCut d { o with begun := true }) d1
  | none => d1

/-- A pulse or capture arm of slug `sid` placed at `e` begins; its end is local instant `fin`. -/
def beginOcc (sid : Nat) (e : Time64) (fin : Nat) (d : Dev) : Dev :=
  { d with gs := { d.gs with flight := d.gs.flight.map fun o =>
      if o.sid = sid ∧ o.place = e ∧ o.begun = false then markCut d { o with begun := true, endAt := fin } else o } }

/-- R174–R176: a pulse rises at E and records its end, D local grains later; a later end replaces the pending one. An end in
the same TCLK clears LVL directly and does not become the pending end. -/
def galleyPulse (n sid : Nat) (e : Time64) (dur : Nat) (d : Dev) : Dev :=
  let at_ := actsAt d n sid e
  let lead := leadOf d n sid e
  let fin := at_ + dur
  let d1 := levelRequest n true e at_ d
  if reachedLocal d fin then
    let d2 := levelRequest n false (plusInt (timeAt d fin) (lead * 64 : Nat)) fin d1
    match findOcc d sid e with
    | some o => reportComplete (markCut d { o with begun := true }) d2
    | none => d2
  else
    let d2 := d1.updOut n fun o => match o.pulseEnd with
      | some p => if fin ≤ p then o else { o with pulseEnd := some fin, endLead := lead }
      | none => { o with pulseEnd := some fin, endLead := lead }
    beginOcc sid e fin d2

/-- R175: a pulse of channel `n` whose end has come is complete. -/
def pulsesDone (n : Nat) (fin : Nat) (d : Dev) : Dev :=
  forEach (d.gs.flight.filter fun o => o.chan == n && o.act == 2 && o.begun && decide (o.endAt ≤ fin)) reportComplete d

/-- R175: the pending end of a pulse falls due; the occurrences whose own end has come are reported complete. -/
def pulseEnds (n : Nat) (d : Dev) : Dev :=
  match (d.chOut n).pulseEnd with
  | some fin =>
    pulsesDone n fin (levelRequest n false (plusInt (timeAt d fin) ((d.chOut n).endLead * 64 : Nat)) fin
      (d.updOut n fun o => { o with pulseEnd := none, endLead := 0 }))
  | none => d

/-! ### Registers with effects -/

/-- R171, R172: quoin writes; an opening write of a TCLK prevails over the closing ones. -/
def quoinClose (v : W32) (d : Dev) : Dev :=
  { d with ch := { d.ch with quoin := d.ch.quoin ||| (v &&& ~~~d.ch.quoinOpened) } }
def quoinOpen (v : W32) (d : Dev) : Dev :=
  { d with ch := { d.ch with quoin := d.ch.quoin &&& ~~~v, quoinOpened := d.ch.quoinOpened ||| v } }

/-- A force of channel `n` to level `v` is on its way: CMD.FRISE or CMD.FFALL reads 1 (R9). -/
def forcing (v : Bool) (o : ChanOut) : Bool := o.reqs.any fun r => r.forced && r.level == v

/-- R177: FRISE and FFALL; refused on a remote, disabled, bridge-owned or emulated channel, on the last with ECOLL as well (R181).
A second one while the first is on its way is ignored (R9). -/
def forceLevel (n : Nat) (v : Bool) (d : Dev) : Dev :=
  if isRemote n || !chTakes (d.chOut n) || pairEnabled (d.pair (n / 2)) || emulated d n then
    (if emulated d n then chFlag n 4 (chFlag n 7 d) else chFlag n 7 d)
  else if forcing v (d.chOut n) then d
  else d.updOut n fun o => { o with reqs := o.reqs ++ [⟨d.tb.tclk + 3, 0, v, true⟩] }

/-- R180, R181: EMEN is refused. -/
def emRefused (d : Dev) (n : Nat) (e : ChanEm) : Bool :=
  decide (253 < n) || pairEnabled (d.pair (n / 2)) || pairEnabled (d.pair ((n + 1) / 2)) || pairEnabled (d.pair ((n + 2) / 2))
    || decide (emSteps e % 4 ≠ 0) || (emSrc e && !bit (d.axis (emAxis e)).cfg.cfg 31)

/-- R184: the target k = floor(θ × S / 2³²) of an axis-following emulation; 0 while S is 0. -/
def emTarget (d : Dev) (e : ChanEm) : Int :=
  (d.axis (emAxis e)).trk.ang.toInt * (emS d e : Int) / 4294967296

/-- A write to CHnnn_EMC (R180, R181). At an accepted AXIS enable E_c takes the target without a step (R184). -/
def emcWrite (n : Nat) (v : W32) (d : Dev) : Dev :=
  if isRemote n then d
  else
    let e := d.chEm n
    let v := v &&& 0xF8FF0FFF#32
    if emEn e then
      let changes := ((v ^^^ e.emc) &&& 0x78FF0FFF#32) ≠ 0
      let d := if changes then chFlag n 2 d else d
      d.updEm n fun e => { e with emc := putBit e.emc 31 (bit v 31), moves := if bit v 31 then e.moves else [] }
    else
      let e' := { e with emc := v }
      if bit v 31 && emRefused d n e' then
        chFlag n 3 (d.updEm n fun e => { e with emc := clrBit v 31 })
      else if bit v 31 then
        let k := if emSrc e' then emTarget d e' else e.ec
        emShow n d.localNow (d.updEm n fun e => { e with emc := v, last := none, was := none, moves := [], ec := k, shown := k })
      else d.updEm n fun e => { e with emc := v }

/-- A write to CHnnn_EMS or CHnnn_EMZ (R180). -/
def emsWrite (n : Nat) (v : W32) (d : Dev) : Dev :=
  if isRemote n then d
  else
    let v := v &&& 0x01FFFFFF#32
    if emEn (d.chEm n) then (if v ≠ (d.chEm n).ems then chFlag n 2 d else d)
    else d.updEm n fun e => { e with ems := v }
def emzWrite (n : Nat) (v : W32) (d : Dev) : Dev :=
  if isRemote n then d
  else
    let v := v &&& 0x03FFFFFF#32
    if emEn (d.chEm n) then (if v ≠ (d.chEm n).emz then chFlag n 2 d else d)
    else d.updEm n fun e => { e with emz := v }

/-- EMCNT reads E_c mod S, or E_c while S is 0 (R182). -/
def emcnt (n : Nat) (d : Dev) : W32 :=
  let e := d.chEm n
  let s := emS d e
  if s = 0 then BitVec.ofInt 32 e.ec else BitVec.ofInt 32 (e.ec % (s : Int))

/-- A write to CHnnn_OUT (R192): ignored with CFG_BUSY while the pin's pair is enabled, absent on remote channels. A change of the
pin's owner takes LVL to IDL (R166). -/
def outWrite (n : Nat) (v : W32) (d : Dev) : Dev :=
  if isRemote n then d
  else
    let v := v &&& 0xFC#32
    if pairEnabled (d.pair (n / 2)) then (if v ≠ (d.chOut n).out then chFlag n 2 d else d)
    else withOwner [n] (fun d => d.updOut n fun o => { o with out := v }) d

/-- A write to CHnnn_RMAP (R180): locked while EN = 1. -/
def rmapWrite (n : Nat) (v : W32) (d : Dev) : Dev :=
  let v := if isRemote n then v &&& 0x07FF000F#32 else v &&& 0xF#32
  if chEn (d.chOut n) then (if v ≠ (d.chOut n).rmap then chFlag n 2 d else d)
  else d.updOut n fun o => { o with rmap := v }

/-- R184: where in the last TCLK, in grains from its start, the angle interpolated linearly between the two last published values
crosses the boundary of the step from `ec` (log entry 70). -/
def emCross (was now : Ang64) (s : Nat) (ec : Int) (back : Bool) : Nat :=
  let edge := if back then ec * 4294967296 else (ec + 1) * 4294967296
  let a := was.toInt * (s : Int)
  let b := now.toInt * (s : Int)
  if a = b then 0 else (max 0 (min 64 (((edge - a) * 128 + (b - a)) / (2 * (b - a))))).toNat

/-- One TCLK of an axis-following emulation emits a step toward the target, which shows three TCLK later (R184). -/
def emEmit (n : Nat) (back single : Bool) (d : Dev) : Dev :=
  let e := d.chEm n
  let now := (d.axis (emAxis e)).trk.ang
  let g := if single then emCross (e.was.getD now) now (emS d e) e.ec back else 64
  let delta : Int := if back then -1 else 1
  let m : EmStep := ⟨d.localNow + 128 + g, delta, true⟩
  d.updEm n fun e => { e with ec := e.ec + delta, last := some d.localNow, moves := e.moves ++ [m] }

/-- R184, R185: one TCLK of an axis-following emulation: a step toward the target, a jump beyond half a turn, or nothing. -/
def emFollow (n : Nat) (d : Dev) : Dev :=
  let e := d.chEm n
  let a := d.axis (emAxis e)
  if !emEn e || !emSrc e || !a.st.valid then d
  else
    let k := emTarget d e
    let diff := k - e.ec
    if diff = 0 then d
    else if (emS d e : Int) < 2 * diff.natAbs then
      chFlag n 5 (emShow n d.localNow (d.updEm n fun e => { e with ec := k, shown := k, moves := [] }))
    else
      let d := if 1 < diff.natAbs then chFlag n 6 d else d
      match e.last with
      | some t => if d.localNow < t + emGap e * 64 then d else emEmit n (decide (diff < 0)) (diff.natAbs == 1) d
      | none => emEmit n (decide (diff < 0)) (diff.natAbs == 1) d

/-- The direction of an emulation step under EMDIR; `dir` is the DIR of the slug's axis at commit (R183). -/
def emBack (e : ChanEm) (dir : Bool) : Bool :=
  match emDir e with | 0 => false | 1 => true | 2 => dir | _ => Config.reservedEmDir dir

/-- R183: an emulation-step command for channel `n`; the direction of EMDIR 10b is the DIR its commit found, that of axis `a` for a
command without an occurrence. -/
def emulationStep (n a sid : Nat) (e : Time64) (d : Dev) : Dev :=
  let x := d.chEm n
  let dir := match findOcc d sid e with | some o => o.back | none => (d.axis a).st.dir
  let d1 := if emEn x && !emSrc x then emStep n (emBack x dir) (actsAt d n sid e) d else d
  match findOcc d sid e with
  | some o => reportComplete { o with begun := true } d1
  | none => d1

/-- R229: a capture-arm command opens the channel's window at E. -/
def captureArm (n sid : Nat) (e : Time64) (dur : Nat) (d : Dev) : Dev :=
  let c := d.chCap n
  if bit c.capc 30 then
    let at_ := actsAt d n sid e
    let fin := at_ + dur
    let opened := bit c.caps 6
    beginOcc sid e fin (d.updCap n fun c =>
      { c with
        caps := orBit c.caps 6
        pre := if opened then c.pre else 0
        openAt := if opened then c.openAt else at_
        closeFirst := (opened && c.closeFirst) || dur = 0
        closeAt := if dur = 0 then (if opened then c.closeAt else Option.none) else
          match c.closeAt with
          | some p => if opened then some (max p fin) else some fin
          | Option.none => some fin })
  else
    match findOcc d sid e with
    | some o => reportComplete (markCut d { o with begun := true }) d
    | Option.none => d

/-- R229: the window closes; the occurrences that opened it are complete. -/
def windowClose (n : Nat) (d : Dev) : Dev :=
  if bit (d.chCap n).caps 6 then
    let done := d.gs.flight.filter fun o => o.chan == n && o.act == 4 && o.begun
    forEach done reportComplete (d.updCap n fun c =>
      { c with caps := clrBit c.caps 6, closeFirst := false, closeAt := match c.closeAt with
        | some p => some p
        | Option.none => some c.openAt })
  else d

end Sys2Proof.Machine
end

