-- ==== Sys2Proof/Machine/Galley.lean ====
section
/-! DEFINITION. The galley and its chases (R118–R147): slug images, the list operations, outcome records, placing,
re-timing and withdrawing entries, the compare and the commit. -/

namespace Sys2Proof.Machine

/-! ### Codes and images (R118–R124) -/

def slugStateCode (s : SlugState) : Nat :=
  match s with
  | .free => 0 | .parked => 1 | .pending => 2 | .armed => 3 | .committed => 4 | .done => 5 | .missed => 6 | .cancelled => 7

def slugStateOf (n : Nat) : SlugState :=
  match n with
  | 1 => .parked | 2 => .pending | 3 => .armed | 4 => .committed | 5 => .done | 6 => .missed | 7 => .cancelled | _ => .free

def glCodeNo (c : GlCode) : Nat :=
  match c with | .ok => 0 | .noFree => 1 | .badField => 2 | .stale => 3 | .committed => 4 | .wrongState => 5

/-- The slug an inserter's image describes: SID, STATE and SEQ are ignored (R123). -/
def slugOfImage (w : BitVec 256) : Slug :=
  { axis := fld w 226 12, chan := fld w 217 9, act := fld w 213 4, revp := fld w 208 2, losp := fld w 206 2,
    mode := bit w 205, rpt := bit w 204, angle := BitVec.ofNat 64 (fld w 128 64), tofs := fld w 96 32, dur := fld w 64 32,
    dmin := fld w 48 16, dmax := fld w 32 16, used := true }

/-- A reserved bit of the image is 1 (R123). -/
def imageReserved (w : BitVec 256) : Bool := fld w 192 12 != 0

/-- The image of the slug at `sid` (R118); a slug not used since reset reads as zero (R146). -/
def slugImage (sid : Nat) (s : Slug) : BitVec 256 :=
  if s.used then
    BitVec.ofNat 256 (sid % 2 ^ 18 * 2 ^ 238 + s.axis * 2 ^ 226 + s.chan * 2 ^ 217 + s.act * 2 ^ 213 +
      slugStateCode s.state * 2 ^ 210 + s.revp * 2 ^ 208 + s.losp * 2 ^ 206 + (if s.mode then 2 ^ 205 else 0) +
      (if s.rpt then 2 ^ 204 else 0) + s.angle.toNat * 2 ^ 128 + s.tofs * 2 ^ 96 + s.dur * 2 ^ 64 + s.dmin * 2 ^ 48 +
      s.dmax * 2 ^ 32 + s.seq.toNat)
  else 0

/-- The chase entry image (R133). -/
def entryImage (e : Entry) : BitVec 256 :=
  BitVec.ofNat 256 (e.t.toNat * 2 ^ 192 + e.g.toNat * 2 ^ 128 + e.d * 2 ^ 96 + e.sid * 2 ^ 78 + e.axis * 2 ^ 66 +
    e.chan * 2 ^ 57 + e.act * 2 ^ 53 + (if e.mode then 2 ^ 52 else 0) + 2 ^ 51 + (if e.supp then 2 ^ 50 else 0) +
    e.revp * 2 ^ 48 + e.losp * 2 ^ 46 + (if e.rpt then 2 ^ 45 else 0) + e.seq.toNat)

/-- R119: the channels an action accepts. -/
def chanOk (act chan : Nat) : Bool :=
  match act with
  | 0 | 1 | 2 | 3 => decide (chan < 512)
  | 4 | 7 => decide (chan < 256)
  | 5 => decide (chan < 64)
  | 6 => decide (chan < 256)
  | _ => false

/-- R123: a field makes the insertion BAD_FIELD. -/
def badSlug (s : Slug) : Bool :=
  !chanOk s.act s.chan || (s.act == 2 && s.dur == 0) || s.revp == 3 || s.losp == 3 ||
    (s.mode && (s.dmax == 0 || decide (s.dmax < s.dmin)))

/-! ### Flags, records, the free list -/

/-- A GL_STAT event bit (1–6), source 3A6h. -/
def glFlag (b : Nat) (d : Dev) : Dev := memberEvent 0x3A6 { d with gl := { d.gl with stat := orBit d.gl.stat b } }

/-- The published angle of an axis (R92). -/
def published (d : Dev) (a : Nat) : Ang64 := (d.axis a).trk.ang

/-- R138: the counter advances and the slug takes its new value. -/
def nextSeq (d : Dev) : W32 × Dev := (d.gl.seq + 1, { d with gl := { d.gl with seq := d.gl.seq + 1 } })

/-- GL_FREE (R142); retired slugs are not counted (R448). -/
def freeCount (d : Dev) : Nat :=
  262144 - d.gs.fresh - (d.gs.retired.filter fun n => decide (d.gs.fresh ≤ n)).length + d.gs.freed.length

/-- The first SID at or above `k` that is not retired. -/
def nextFresh (d : Dev) (k : Nat) : Nat :=
  ((List.range (d.gs.retired.length + 1)).map (k + ·)).find? (fun n => !d.gs.retired.contains n) |>.getD k

/-- The next SID of the free list: never-assigned SIDs in ascending order, then freed ones, oldest first (log entry 5:
DESIGN CHOICE, R124 does not order the list). A retired slug is never allocated (R448). -/
def allocSid (d : Dev) : Option (Nat × Dev) :=
  let f := nextFresh d d.gs.fresh
  if f < 262144 then some (f, { d with gs := { d.gs with fresh := f + 1 } })
  else match d.gs.freed with
    | s :: rest => some (s, { d with gs := { d.gs with freed := rest } })
    | [] => none

/-- R124: a slug returns to the free list: STATE FREE in its image, its other fields kept. -/
def freeSlug (sid : Nat) (d : Dev) : Dev :=
  let d := d.updSlug sid fun s => { s with state := .free }
  if d.gs.retired.contains sid then d else { d with gs := { d.gs with freed := d.gs.freed ++ [sid] } }

/-- R140: GL_CFG selects the record. -/
def recordSelected (d : Dev) (r : Outcome) : Bool :=
  match r.state with
  | .done => bit d.gl.cfg 7 || (bit d.gl.cfg 6 && (r.late || r.ghosted || r.coast || r.tripped || r.reason == 9))
  | .missed => bit d.gl.cfg 5
  | .cancelled => bit d.gl.cfg 4
  | _ => false

/-- The outcome record image (R140). -/
def recordImage (r : Outcome) : BitVec 128 :=
  BitVec.ofNat 128 (r.time.toNat * 2 ^ 64 + r.sid * 2 ^ 46 + r.axis * 2 ^ 34 + r.chan * 2 ^ 25 + slugStateCode r.state * 2 ^ 22 +
    r.reason * 2 ^ 18 + (if r.late then 2 ^ 17 else 0) + (if r.ghosted then 2 ^ 16 else 0) + (if r.coast then 2 ^ 15 else 0) +
    (if r.tripped then 2 ^ 14 else 0) + (if r.rept then 2 ^ 13 else 0) + r.lateTclk)

/-- R140: a selected record is written at ORHEAD, or dropped when the ring is full. Each record written fires 3A7h. -/
def writeRecord (r : Outcome) (d : Dev) : Dev :=
  if recordSelected d r then
    if (d.gl.orhead + 1) % 4096 = d.gl.ortail then
      glFlag 4 { d with gl := { d.gl with orlost := incSat d.gl.orlost } }
    else
      let d0 := d.write128 (outcomeBase + 2 * d.gl.orhead) (recordImage r)
      let d1 := { d0 with gl := { d0.gl with orhead := (d.gl.orhead + 1) % 4096 } }
      let d2 := if r.tripped then { d1 with ax := { d1.ax with pol := { d1.ax.pol with tripped := incSat d1.ax.pol.tripped } } } else d1
      memberEvent 0x3A7 d2
  else d

/-- A record without flags: MISSED and CANCELLED outcomes decided at `t`. -/
def plainRecord (sid : Nat) (s : Slug) (st : SlugState) (reason : Nat) (t : Time64) : Outcome :=
  ⟨t, sid, s.axis, s.chan, st, reason, false, false, false, false, s.rpt, 0⟩

/-! ### Requests to the engines (R26, R129) -/

/-- R11: the cluster of an axis. -/
def clusterOf (a : Nat) : Nat := a / 1024

/-- R129: at most one pending arm request per axis, a newer one in the position of the older. -/
def raiseArm (a : Nat) (d : Dev) : Dev :=
  d.updQueue (clusterOf a) fun q => if q.contains (.arm a) then q else q ++ [.arm a]


/-- The first master of `a` that is not virtual: chains are at most 4 deep (R112). -/
def rootAxis (d : Dev) : Nat → Nat → Nat
  | 0, a => a
  | k + 1, a => if axKind (d.axis a) = 2 then rootAxis d k (axSrc (d.axis a)) else a

/-- The number of virtual axes from `a` on, up to 5; 5 stands for too deep or a cycle (R112, R115). -/
def virtualDepth (d : Dev) : Nat → Nat → Nat
  | 0, _ => 0
  | k + 1, a => if axKind (d.axis a) = 2 then virtualDepth d k (axSrc (d.axis a)) + 1 else 0

/-- R108: the sync state of an axis; a virtual axis shows its master's. -/
def syncOf (d : Dev) (a : Nat) : Sync := (d.axis (rootAxis d 5 a)).st.sync

/-- R154: DIR of a virtual axis is its master's, inverted when GEAR is negative. -/
def dirOf (d : Dev) : Nat → Nat → Bool
  | 0, a => (d.axis a).st.dir
  | k + 1, a =>
    if axKind (d.axis a) = 2 then (dirOf d k (axSrc (d.axis a))) != decide ((d.axis a).cfg.gear.toInt < 0)
    else (d.axis a).st.dir

/-- R130, R151: the axis is armable. -/
def armable (d : Dev) (a : Nat) : Bool :=
  let x := d.axis a
  let r := d.axis (rootAxis d 5 a)
  axEn x && !x.st.policyBusy && !dirOf d 5 a &&
  (if axKind x = 2 then x.mdl.segOn else true) &&
  (match syncOf d a with
   | .locking => r.st.model
   | .locked | .ghosted | .coasting => true
   | _ => false)

/-- R158: absolute axes: master-derived, and virtual ones on them. -/
def absoluteAxis (d : Dev) (a : Nat) : Bool := axKind (d.axis (rootAxis d 5 a)) = 3

/-- The decoder that feeds axis `a` (R68, R91). -/
def feedingDecoder (d : Dev) (a : Nat) : Option Nat :=
  (d.tooth.decs.find? fun e => bit e.2.cfg.tdc 0 && fld e.2.cfg.tdc 2 3 != 5 && fld e.2.cfg.tdc 13 12 == a).map (·.1)

/-- The used gap entries of a decoder's wheel: POS, K, REF (R76). -/
def gapsOf (c : DecCfg) : List (Nat × Nat × Bool) :=
  ((List.range 8).map fun i => Bank.get 0 c.wgap i).filterMap fun w =>
    if fld w 8 8 = 0 then none else some (fld w 16 16, fld w 8 8, bit w 0)

/-- R94: the span of the next tooth from count `c` in the axis's direction. -/
def expectedSpan (d : Dev) (a : Nat) (c : Int) (rev : Bool) : Nat :=
  let x := d.axis a
  if axRef x != 1 || axTpt x == 0 then 1
  else match feedingDecoder d a with
    | none => 1
    | some n =>
      let tpt : Int := axTpt x
      let slot := c % tpt
      match (gapsOf (d.dec n).cfg).find? (fun g =>
          if rev then decide (slot = (g.1 : Int)) else decide (slot = ((g.1 : Int) - g.2.1 - 1) % tpt)) with
      | some g => g.2.1 + 1
      | none => 1

/-- The count after `k` more teeth from count `c` in the forward direction, across the gaps of the wheel (R94, R128). -/
def countAfter (d : Dev) (a : Nat) : Nat → Int → Int
  | 0, c => c
  | k + 1, c => countAfter d a k (c + (expectedSpan d a c false : Nat))

/-- The tick boundary after `next`: a pending period change that takes over there has given its period (R18, R128). -/
def boundaryTwo (d : Dev) : Time64 :=
  let p := if d.tick.change = 1 ∧ d.tick.nextPeriod ≠ 0 ∧ atOrAfter d.tick.next d.tick.nextAnchor = true then d.tick.nextPeriod.toNat
    else d.tick.period
  d.tick.next + BitVec.ofNat 64 (p * 64)

/-- R128: the horizon end. -/
def horizon (d : Dev) (a : Nat) : Ang64 :=
  let x := d.axis a
  if axKind x = 0 then
    match feedingDecoder d a with
    | some n =>
      let dec := d.dec n
      let dd : Int := fld dec.cfg.udiv 0 16 + 1
      let left := (dd - dec.decim).toNat
      let cu := if axRef x = 1 then countAfter d a left x.trk.c else x.trk.c + left
      let u := angOf x.cfg cu
      plusInt u ((x.cfg.hguard : Int) * sdiff u (angOf x.cfg (cu - dd)) / 256)
    | none => x.trk.ang
  else
    let b1 := evalSeg x.mdl.seg d.tick.next
    let b2 := evalSeg x.mdl.seg (boundaryTwo d)
    plusInt b1 ((x.cfg.hguard : Int) * sdiff b2 b1 / 256)

/-- R128: a slug lies inside the horizon. -/
def inHorizon (d : Dev) (a : Nat) (ang : Ang64) : Bool := atOrAfter (horizon d a) ang

/-- R129: an insertion inside the horizon of an armable axis raises its arm request. -/
def maybeArm (a : Nat) (ang : Ang64) (d : Dev) : Dev := if armable d a && inHorizon d a ang then raiseArm a d else d

/-! ### Ends of a slug (R127, R139–R141) -/

/-- R139: the slug is re-inserted one turn later, or at the first turn ahead with one MISSED record of REASON 0010b. -/
def reinsert (sid : Nat) (d : Dev) : Dev :=
  let s := d.slug sid
  let ang := s.angle + 0x100000000#64
  let behind := sdiff (published d s.axis) ang
  let q := nextSeq d
  if behind < 0 then
    maybeArm s.axis ang (q.2.updSlug sid fun s => { s with angle := ang, seq := q.1, state := .parked, metFull := false })
  else
    let ang2 := plusInt ang ((behind / 2 ^ 32 + 1) * 2 ^ 32)
    let d1 := writeRecord (plainRecord sid s .missed 2 d.tb.time)
      { q.2 with gl := { q.2.gl with missed := incSat q.2.gl.missed } }
    maybeArm s.axis ang2 (d1.updSlug sid fun s => { s with angle := ang2, seq := q.1, state := .parked, metFull := false })

/-- R140, R141: a final state: the record, the counts, and the free list under AUTOFREE. -/
def retireSlug (sid : Nat) (st : SlugState) (d : Dev) : Dev :=
  let d1 := d.updSlug sid fun s => { s with state := st }
  if bit d.gl.cfg 0 then freeSlug sid d1 else d1

/-- R127: a slug becomes MISSED at `t`; an RPT slug is re-inserted after its record (R139). -/
def missSlug (sid reason : Nat) (t : Time64) (d : Dev) : Dev :=
  let s := d.slug sid
  let d1 := writeRecord (plainRecord sid s .missed reason t) { d with gl := { d.gl with missed := incSat d.gl.missed } }
  if s.rpt then reinsert sid d1 else retireSlug sid .missed d1

/-- A slug becomes CANCELLED; its repetition ends (R139). -/
def cancelSlug (sid reason : Nat) (t : Time64) (d : Dev) : Dev :=
  retireSlug sid .cancelled (writeRecord (plainRecord sid (d.slug sid) .cancelled reason t) d)

/-! ### Chases (R131–R137, R316) -/

/-- The entries in the slots of a bank, by slot. -/
def slotEntries (b : Bank (Option Entry)) : List (Nat × Entry) := b.filterMap fun e => e.2.map fun x => (e.1, x)

/-- Entries of one chase, by slot: one that has committed in this TCLK still holds its slot (R132). -/
def chaseEntries (c : Chase) : List (Nat × Entry) := slotEntries c.entries

/-- OCC. -/
def occ (c : Chase) : Nat := (chaseEntries c).length

/-- All armed entries of the device as (chase, slot, entry), but for those that have committed. -/
def allEntries (d : Dev) : List (Nat × Nat × Entry) :=
  d.chases.flatMap fun c => ((chaseEntries c.2).filter fun e => c.2.committed != some e.1).map fun e => (c.1, e.1, e.2)

/-- NARMED and NSLUG of an axis (R145). -/
def narmed (d : Dev) (a : Nat) : Nat := ((allEntries d).filter fun e => e.2.2.axis == a).length
def nslug (d : Dev) (a : Nat) : Nat :=
  (d.gs.slugs.filter fun e => e.2.axis == a && (e.2.state == .parked || e.2.state == .pending || e.2.state == .armed)).length

/-- A change of one entry; `none` frees the slot. -/
def putEntry (cs k : Nat) (e : Option Entry) (d : Dev) : Dev :=
  d.updChase cs fun c =>
    let c1 := { c with entries := Bank.set none c.entries k e }
    { c1 with peak := max c1.peak (occ c1) }

/-- The lowest free slot of a chase. -/
def freeSlot (c : Chase) : Option Nat := (List.range 64).find? fun k => (Bank.get none c.entries k).isNone

/-- R316: W + U + 2A would pass 2,048 with one more armed entry. -/
def fifoFull (d : Dev) : Bool := decide (2048 < d.gs.fifo.length + d.gs.flight.length + 2 * ((allEntries d).length + 1))

/-- The outcome of placing an entry: the chase, the slot and whether it overflowed from its first choice; none for FULL. -/
def placeEntry (q : Nat) (e : Entry) (d : Dev) : Option (Nat × Nat × Bool) × Dev :=
  let tryAt := (List.range 4).findSome? fun i =>
    let cs := 4 * q + (e.chan + i) % 4
    (freeSlot (d.chase cs)).map fun k => (cs, k, i != 0)
  match (if fifoFull d then none else tryAt) with
  | some (cs, k, ovf) =>
    let d1 := putEntry cs k (some e) d
    (some (cs, k, ovf), if ovf then d1.updChase cs fun c => { c with ovfc := incSat c.ovfc } else d1)
  | none => (none, glFlag 5 { d with gl := { d.gl with chaseFull := incSat d.gl.chaseFull } })

/-- R134: nominal and least lead, TCLK. -/
def leadNom (act chan rlead : Nat) : Nat := if act ≤ 3 && decide (256 ≤ chan) then rlead else 8
def leadMin (act chan rlead : Nat) : Nat := if act ≤ 3 && decide (256 ≤ chan) then rlead else 3

/-- R122: D as an entry carries it. -/
def entryDur (s : Slug) (dur : Nat) : Nat := if s.mode then max (s.dmin * 4096) (min dur (s.dmax * 4096)) else dur

/-- The model or segment of an axis as ATIME uses it (R121). -/
def axisSeg (d : Dev) (a : Nat) : Segment := (d.axis a).mdl.seg

/-- R121, R134: fire time and gate angle of a slug under its axis's model, with the remote lead `rlead`; none when the model places no
such time. -/
def fireTime (d : Dev) (s : Slug) (rlead : Nat) : Option (Time64 × Ang64) :=
  (placed (axisSeg d s.axis) s.angle).map fun t0 =>
    let t := t0 + BitVec.ofNat 64 s.tofs
    let ln := leadNom s.act s.chan rlead * 64
    (t, if ln ≤ s.tofs then s.angle else evalSeg (axisSeg d s.axis) (plusInt t (-(ln : Int))))

/-- R131: a slug is placed: ARMED with its entry, or it stays PENDING. -/
def armSlug (sid : Nat) (t : Time64) (g : Ang64) (d : Dev) : Dev :=
  let s := d.slug sid
  let e : Entry := ⟨t, g, entryDur s s.dur, sid, s.axis, s.chan, s.act, s.mode,
    decide (s.act ≤ 4 ∨ s.act = 7) && !chEn (d.chOut s.chan), s.revp, s.losp, s.rpt, s.seq, fld d.gl.cfg 16 16, false⟩
  match placeEntry (clusterOf s.axis) e d with
  | (some _, d1) => d1.updSlug sid fun s => { s with state := .armed }
  | (none, d1) => d1.updSlug sid fun s => { s with state := .pending, metFull := true }

/-- Slugs in the order of an axis list: by angle, equal angles by SEQ (R125, R138). -/
def sortSlugs (l : List (Nat × Slug)) : List (Nat × Slug) :=
  l.foldl
    (fun acc e =>
      let before (x : Nat × Slug) : Bool :=
        decide (0 < sdiff e.2.angle x.2.angle) || (e.2.angle == x.2.angle && decide (0 ≤ (e.2.seq - x.2.seq).toInt))
      acc.takeWhile before ++ e :: acc.dropWhile before) []

/-- The slugs of an axis in state `st`, in the order of its list. -/
def axisSlugs (d : Dev) (a : Nat) (st : SlugState) : List (Nat × Slug) :=
  sortSlugs (d.gs.slugs.filter fun e => e.2.axis == a && e.2.state == st)

/-- R127, R160: the fire time of a PENDING slug has passed before it could be placed. -/
def passMissed (sid : Nat) (d : Dev) : Dev :=
  let s := d.slug sid
  let off := decide (s.act ≤ 4 ∨ s.act = 7) && !chEn (d.chOut s.chan)
  missSlug sid (if off then 5 else if s.metFull then 4 else 3) d.tb.time
    (if off then { d with ax := { d.ax with pol := { d.ax.pol with suppressedMissed := incSat d.ax.pol.suppressedMissed } } } else d)

/-- R127, R129, R158, R160: one selected slug in a pass: MISSED if its time has come, otherwise placed. An angle that the axis has
passed and its segment no longer reaches gives a time in the past. -/
def passSlug (sid : Nat) (d : Dev) : Dev :=
  let s := d.slug sid
  match fireTime d s (fld d.gl.cfg 16 16) with
  | none => if atOrAfter (published d s.axis) s.angle then passMissed sid d else d.updSlug sid fun s => { s with state := .pending }
  | some (t, g) => if atOrAfter d.tb.time t then passMissed sid d else armSlug sid t g d

/-- R129: an arming pass: the axis's PENDING slugs first, then the PARKED ones inside H, in angle order. -/
def armingPass (a : Nat) (d : Dev) : Dev :=
  if armable d a then
    let pend := (axisSlugs d a .pending).map (·.1)
    let park := ((axisSlugs d a .parked).filter fun e => inHorizon d a e.2.angle).map (·.1)
    forEach (pend ++ park) passSlug d
  else d

/-! ### The compare and the commit (R135, R136, R139) -/

/-- R135: eligible at this TCLK. -/
def eligible (d : Dev) (e : Entry) : Bool :=
  !e.supp && atOrAfter d.tb.time (plusInt e.t (-((leadNom e.act e.chan e.lead * 64 : Nat) : Int))) &&
    atOrAfter (published d e.axis) e.g

/-- The entry a chase commits in the present TCLK, of those it held at its start: the earliest T − Lnom, equal values in SEQ
order. It commits one in a TCLK (R135). -/
def commitChoice (d : Dev) (cs : Nat) : Option (Nat × Entry) :=
  if (d.chase cs).committed.isSome then none
  else ((slotEntries (d.chase cs).start).filter fun e => eligible d e.2).foldl
    (fun best e => match best with
      | none => some e
      | some b =>
        let k (x : Entry) : Time64 := plusInt x.t (-((leadNom x.act x.chan x.lead * 64 : Nat) : Int))
        let c := sdiff (k e.2) (k b.2)
        if c < 0 ∨ (c = 0 ∧ (e.2.seq - b.2.seq).toInt < 0) then some e else some b) none

/-- The entry in slot `k` of chase `cs` commits in the present TCLK: a write or withdrawal that meets the commit loses (R137, R148). -/
def commitsNow (d : Dev) (cs k : Nat) : Bool :=
  (d.chase cs).committed == some k || (match commitChoice d cs with | some e => e.1 == k | none => false)

/-- The slug's present occurrence has committed: its entry commits in this TCLK, its action is under way, or its records wait for the
galley (R127, R137). -/
def committing (d : Dev) (sid : Nat) (seq : W32) : Bool :=
  let same (o : Occurrence) : Bool := o.sid == sid && o.seq == seq
  (d.chases.any fun c => (slotEntries c.2.start).any fun e => e.2.sid == sid && e.2.seq == seq && commitsNow d c.1 e.1) ||
    d.gs.flight.any same || d.gs.fifo.any fun r => match r with | .commit o => same o | .complete o => same o

/-- The entries that no commit of the present TCLK takes. -/
def freeEntries (d : Dev) : List (Nat × Nat × Entry) := (allEntries d).filter fun e => !commitsNow d e.1 e.2.1

/-- The entry of a slug. -/
def findEntry (d : Dev) (sid : Nat) : Option (Nat × Nat × Entry) := (freeEntries d).find? fun e => e.2.2.sid == sid

/-- R137: every armed MODE = 0 entry of the axis takes its new T and G, but for one that commits in this TCLK. -/
def retimeAxis (a : Nat) (d : Dev) : Dev :=
  forEach ((freeEntries d).filter fun e => e.2.2.axis == a && !e.2.2.mode)
    (fun e d => match fireTime d (d.slug e.2.2.sid) e.2.2.lead with
      | some (t, g) => putEntry e.1 e.2.1 (some { e.2.2 with t := t, g := g }) d
      | none => d) d

/-- CHASE_COMMIT: the chase commits its chosen entry with edge time E; the command goes to its channel stage and the
commit record to the galley. The sync state and DIR are those published with the angle compared (R136, R183). -/
def chaseCommit (cs : Nat) (d : Dev) : Dev :=
  match commitChoice d cs with
  | none => d
  | some (k, e) =>
    let earliest := plusInt d.tb.time ((leadMin e.act e.chan e.lead * 64 : Nat) : Int)
    let late := decide (0 < sdiff earliest e.t)
    let edge := if late then earliest else e.t
    let lateT := min 8191 (((sdiff edge e.t).toNat + 63) / 64)
    let trk := (d.axis e.axis).trk
    let o : Occurrence :=
      { sid := e.sid, axis := e.axis, chan := e.chan, act := e.act, e := edge, place := edge, d := e.d, seq := e.seq
        sg := d.tb.stepGen, late := late, lateTclk := if late then lateT else 0
        ghosted := trk.pubSync == .ghosted, coast := trk.pubSync == .coasting || e.coast, rpt := e.rpt, lead := e.lead
        back := trk.pubDir, ran := decide (e.chan < 256) && (d.pair (e.chan / 2)).state == .run }
    let d1 := d.updChase cs fun c => { c with committed := some k, latec := if late then incSat c.latec else c.latec }
    { d1 with gs := { d1.gs with flight := d1.gs.flight ++ [o], fifo := d1.gs.fifo ++ [.commit o] }
              gl := { d1.gl with late := if late then incSat d1.gl.late else d1.gl.late } }

/-- The end of a TCLK in a chase: the slot of its commit is free, and the next compare takes the entries as they stand (R132, R135). -/
def landChase (c : Chase) : Chase :=
  let es := match c.committed with | some k => Bank.set none c.entries k none | none => c.entries
  { c with entries := es, start := es, committed := none }

def landChases (d : Dev) : Dev := forEach (d.chases.map (·.1)) (fun cs d => d.updChase cs landChase) d

/-- The slug of the chase entry that RETIME, WDRAW or DURW names, by SID and SEQ. -/
def entryName (op target : Nat) (d : Dev) : Option (Nat × W32) :=
  if op = 0xB ∨ op = 0xC ∨ op = 0xD then
    (Bank.get none (d.chase (target % 1024 / 64)).entries (target % 64)).map fun e => (e.sid, e.seq)
  else none

/-- The DONE record of an occurrence (R140, R162). -/
def doneRecord (o : Occurrence) : Outcome :=
  ⟨o.e, o.sid, o.axis, o.chan, .done, if o.cut then 9 else 0, o.late, o.ghosted, o.coast, o.tripped, o.rpt, o.lateTclk⟩

/-! ### Galley operations (R123–R127, R142) -/

/-- What an operation answers: code, state, SID and SEQ (GL_RESULT, GL_RSEQ). -/
structure GlAnswer where
  code : GlCode
  state : SlugState := .free
  sid : Nat := 0
  seq : W32 := 0
  deriving DecidableEq, Repr

/-- R123, R127, R138, R139: insert; `pub` is the published angle of the axis and `sq` the SEQ taken at the grant. -/
def opInsert (s : Slug) (reservedBit : Bool) (pub : Ang64) (sq : W32) (d : Dev) : GlAnswer × Dev :=
  if reservedBit || badSlug s then (⟨.badField, .free, 0, 0⟩, d)
  else match allocSid d with
    | none => (⟨.noFree, .free, 0, 0⟩, glFlag 2 d)
    | some (sid, d1) =>
      let d2 := { d1 with gs := { d1.gs with slugs := Bank.set {} d1.gs.slugs sid { s with seq := sq, state := .parked, used := true } } }
      if 0 < sdiff s.angle pub then (⟨.ok, .parked, sid, sq⟩, maybeArm s.axis s.angle d2)
      else if s.rpt then
        let behind := sdiff pub s.angle
        let ang := plusInt s.angle ((behind / 2 ^ 32 + 1) * 2 ^ 32)
        let d3 := writeRecord (plainRecord sid s .missed 2 d.tb.time) { d2 with gl := { d2.gl with missed := incSat d2.gl.missed } }
        let q2 := nextSeq d3
        (⟨.ok, .parked, sid, q2.1⟩, maybeArm s.axis ang (q2.2.updSlug sid fun s => { s with angle := ang, seq := q2.1 }))
      else (⟨.ok, .missed, sid, sq⟩, missSlug sid 2 d.tb.time d2)

/-- R124: the command names an existing slug by SID and SEQ. -/
def stale (d : Dev) (sid : Nat) (seq : W32) : Bool := (d.slug sid).state == .free || (d.slug sid).seq != seq

/-- The requests and walks of the engines, and the entry operations on the channel bus, go on naming a slug whose SEQ an operation
has changed (R137, R150, R151). -/
def renameReq (sid : Nat) (old new : W32) (r : UpdReq) : UpdReq :=
  let f (l : List (Nat × W32)) := l.map fun e => if e = (sid, old) then (sid, new) else e
  match r with
  | .policy a k ab ents sids t => .policy a k ab (f ents) (f sids) t
  | r => r

def renameSlug (sid : Nat) (old new : W32) (d : Dev) : Dev :=
  let op (o : ChanOp) : ChanOp := if o.ent = some (sid, old) then { o with ent := some (sid, new) } else o
  { d with
    ax := { d.ax with queues := d.ax.queues.map fun q => (q.1, q.2.map (renameReq sid old new))
                      walks := d.ax.walks.map (renameReq sid old new) }
    ne := d.ne.map fun g => (g.1, { g.2 with taken := g.2.taken.map (renameReq sid old new) })
    lanes := d.lanes.map fun l => (l.1, { l.2 with ops := l.2.ops.map op }) }

/-- R142: remove; an armed slug is withdrawn first, unless its entry commits in this TCLK or has committed (R137). -/
def opRemove (sid : Nat) (seq : W32) (d : Dev) : GlAnswer × Dev :=
  let s := d.slug sid
  if stale d sid seq then (⟨.stale, s.state, sid, s.seq⟩, d)
  else match s.state with
    | .parked | .pending => (⟨.ok, .cancelled, sid, s.seq⟩, cancelSlug sid 1 d.tb.time d)
    | .armed =>
      if committing d sid seq then (⟨.committed, s.state, sid, s.seq⟩, d)
      else
        let d1 := match findEntry d sid with | some (cs, k, _) => putEntry cs k none d | none => d
        (⟨.ok, .cancelled, sid, s.seq⟩, cancelSlug sid 1 d.tb.time d1)
    | .committed => (⟨.committed, s.state, sid, s.seq⟩, d)
    | _ => (⟨.wrongState, s.state, sid, s.seq⟩, d)

/-- R142: modify, of a PARKED slug only: the staged fields, re-sorted, the SEQ `sq` of its grant. -/
def opModify (sid : Nat) (seq : W32) (n : Slug) (sq : W32) (d : Dev) : GlAnswer × Dev :=
  let s := d.slug sid
  if stale d sid seq then (⟨.stale, s.state, sid, s.seq⟩, d)
  else if s.state != .parked then (⟨.wrongState, s.state, sid, s.seq⟩, d)
  else
    let s' := { s with angle := n.angle, tofs := n.tofs, dur := n.dur, dmin := n.dmin, dmax := n.dmax, revp := n.revp, losp := n.losp }
    if badSlug s' then (⟨.badField, s.state, sid, s.seq⟩, d)
    else (⟨.ok, .parked, sid, sq⟩, renameSlug sid seq sq (d.updSlug sid fun _ => { s' with seq := sq }))

/-- R142: modify duration; an armed entry's D is rewritten, clamped in MODE = 1, unless it commits in this TCLK or has committed. -/
def opModifyDur (sid : Nat) (seq : W32) (dur : Nat) (sq : W32) (d : Dev) : GlAnswer × Dev :=
  let s := d.slug sid
  if stale d sid seq then (⟨.stale, s.state, sid, s.seq⟩, d)
  else if badSlug { s with dur := dur } then (⟨.badField, s.state, sid, s.seq⟩, d)
  else match s.state with
    | .parked | .pending | .armed =>
      if s.state == .armed && committing d sid seq then (⟨.committed, s.state, sid, s.seq⟩, d)
      else
        let d1 := renameSlug sid seq sq (d.updSlug sid fun s => { s with dur := dur, seq := sq })
        let d2 := match findEntry d sid with
          | some (cs, k, e) => putEntry cs k (some { e with d := entryDur s dur, seq := sq }) d1
          | none => d1
        (⟨.ok, s.state, sid, sq⟩, d2)
    | .committed => (⟨.committed, s.state, sid, s.seq⟩, d)
    | _ => (⟨.wrongState, s.state, sid, s.seq⟩, d)

/-- R142: free a retained final slug. -/
def opFree (sid : Nat) (seq : W32) (d : Dev) : GlAnswer × Dev :=
  let s := d.slug sid
  if stale d sid seq then (⟨.stale, s.state, sid, s.seq⟩, d)
  else if (s.state == .done || s.state == .missed || s.state == .cancelled) && !bit d.gl.cfg 0 then
    (⟨.ok, .free, sid, s.seq⟩, freeSlug sid d)
  else (⟨.wrongState, s.state, sid, s.seq⟩, d)

/-! ### Host commands (R142) -/

/-- The staged image in GL_SW0–GL_SW7, GL_SW0 holding bits [31:0]. -/
def stagedImage (d : Dev) : BitVec 256 :=
  (List.range 8).foldl (fun acc i => acc ||| ((Bank.get 0 d.gl.sw i).setWidth 256 <<< (32 * i))) 0

/-- GL_RESULT and GL_RSEQ take an operation's answer; GO falls. -/
def glAnswer (r : GlAnswer × Dev) : Dev :=
  { r.2 with gl := { r.2.gl with
      go := false, rseq := r.1.seq,
      result := BitVec.ofNat 32 (slugStateCode r.1.state * 2 ^ 26 + glCodeNo r.1.code * 2 ^ 22 + r.1.sid) } }

/-- CLRPK: PEAK takes the present OCC. -/
def clearPeak (cs : Nat) (d : Dev) : Dev := d.updChase cs fun c => { c with peak := occ c }

end Sys2Proof.Machine
end

