-- ==== Sys2Proof/Machine/Service.lean ====
section
/-! DEFINITION. Bytes and checksums; the answers of the dictionary service to its requesters (R372, R381, R423); the long
operations' reports (R392). -/

namespace Sys2Proof.Machine

/-! ### Bytes -/

/-- A number from bytes, the first byte lowest. -/
def leNat (l : List Byte) : Nat := l.foldr (fun b acc => b.toNat + 256 * acc) 0

/-- A number from bytes, the first byte highest. -/
def beNat (l : List Byte) : Nat := l.foldl (fun acc b => 256 * acc + b.toNat) 0

/-- `n` bytes of a number, the highest first. -/
def beBytes (n v : Nat) : List Byte := (List.range n).map fun i => BitVec.ofNat 8 (v / 256 ^ (n - 1 - i))

/-- `n` bytes from offset `k`. -/
def slice (l : List Byte) (k n : Nat) : List Byte := (l.drop k).take n

def allZero (l : List Byte) : Bool := l.all (· == 0)

/-- `n` bytes of a number, the lowest first. -/
def leBytes (n v : Nat) : List Byte := (List.range n).map fun i => BitVec.ofNat 8 (v / 256 ^ i)

/-- A signed number from bytes, the first highest. -/
def beInt (l : List Byte) : Int :=
  let v := beNat l
  if l.length ≠ 0 ∧ 2 ^ (8 * l.length - 1) ≤ v then (v : Int) - 2 ^ (8 * l.length) else v

/-- One step of the CRC of R334: polynomial 1021h, not reflected. -/
def crc16Bit (c : BitVec 16) : BitVec 16 := if c.msb then (c <<< 1) ^^^ 0x1021#16 else c <<< 1

def crc16Byte (c : BitVec 16) (b : Byte) : BitVec 16 :=
  (List.range 8).foldl (fun c _ => crc16Bit c) (c ^^^ (b.setWidth 16 <<< 8))

/-- R334: initial value FFFFh, no final XOR. -/
def crc16 (l : List Byte) : BitVec 16 := l.foldl crc16Byte 0xFFFF#16

/-- R388: CRC-32 of IEEE 802.3, reflected, initial and final XOR FFFF_FFFFh. -/
def crc32Byte (c : W32) (b : Byte) : W32 :=
  (List.range 8).foldl (fun c _ => if c.getLsbD 0 then (c >>> 1) ^^^ 0xEDB88320#32 else c >>> 1) (c ^^^ b.setWidth 32)
def crc32 (l : List Byte) : W32 := ~~~ l.foldl crc32Byte 0xFFFFFFFF#32

/-! ### Result codes (R384) -/

/-- The result codes of the dictionary, in the order of their numbers. -/
inductive DictCode where
  | ok | noObject | noSub | readOnly | writeOnly | typeErr | range | state | key | busy | segment | role | tooBig | service | formatErr
  deriving DecidableEq, Repr

def dictCodeNo (c : DictCode) : Nat :=
  match c with
  | .ok => 0 | .noObject => 1 | .noSub => 2 | .readOnly => 3 | .writeOnly => 4 | .typeErr => 5 | .range => 6 | .state => 7
  | .key => 8 | .busy => 9 | .segment => 10 | .role => 11 | .tooBig => 12 | .service => 13 | .formatErr => 14

/-- A response body (R381): SVC + 80h, CODE, INDEX, SUB, type code, COUNT, the value's total length, data. -/
def responseBody (svc : Nat) (code : DictCode) (index sub type total : Nat) (data : List Byte) : List Byte :=
  [BitVec.ofNat 8 (svc + 0x80), BitVec.ofNat 8 (dictCodeNo code)] ++ beBytes 2 index ++
    [BitVec.ofNat 8 sub, BitVec.ofNat 8 type] ++ beBytes 2 data.length ++ beBytes 4 total ++ data

/-! ### Answers -/

/-- The number a requester keeps its records under. -/
def whoNo (w : DictWho) : Nat := match w with | .pcie => 0 | .qspi => 1 | .session n => 2 + n

/-- HI_MBRSP from bytes: byte 0 in bits [31:24] of word 0 (R423). -/
def boxWords (l : List Byte) : Bank W32 :=
  (List.range ((l.length + 3) / 4)).foldl (fun b i =>
    Bank.set 0 b i (BitVec.ofNat 32 (beNat ((slice l (4 * i) 4 ++ [0, 0, 0, 0]).take 4)))) []

/-- A mailbox takes its response: RLEN, DONE; GO clears; with MSGEN the message source fires (R423). -/
def boxAnswer (p : Nat) (body : List Byte) (d : Dev) : Dev :=
  let b := d.box p
  if b.go then
    let d1 := d.updBox p fun b => { b with rsp := boxWords body, rlen := body.length, stat := orBit b.stat 11, go := false }
    if bit b.ctl 30 then fireSource (fld b.ctl 16 8) d1 else d1
  else d

/-- The datagram that answers a session (R371): KIND 02h response, 03h busy. -/
def datagram (kind tag : Nat) (body : List Byte) : List Byte :=
  [0x42, 0x4C, 0x01, BitVec.ofNat 8 kind] ++ beBytes 2 tag ++ beBytes 2 body.length ++ body

/-- A message of the PTP or acyclic queue of MAC `m`: it leaves at once, or waits while the cyclic gate is open (R360). -/
def orWait (m : Nat) (w : Waiting) (leave : Dev → Dev) (d : Dev) : Dev :=
  if (d.mac m).gate then d.updMac m fun x => { x with held := x.held ++ [w] } else leave d

def datagramLeaves (n : Nat) (l : List Byte) (d : Dev) : Dev := { d with ds := { d.ds with sent := d.ds.sent ++ [(n, l)] } }
def sendDatagram (m n : Nat) (l : List Byte) (d : Dev) : Dev := orWait m (.datagram n l) (datagramLeaves n l) d

/-- The response to a request goes to its requester: a mailbox, or a session, whose request in service ends (R372, R423). -/
def respond (w : DictWho) (body : List Byte) (d : Dev) : Dev :=
  let d1 := d.updUser (whoNo w) fun u => { u with answer := body }
  match w with
  | .pcie => boxAnswer 0 body d1
  | .qspi => boxAnswer 1 body d1
  | .session n =>
    match d1.session n with
    | some s =>
      let l := datagram 2 s.tag body
      sendDatagram s.mac n l (d1.setSession n (some { s with busy := false, last := l }))
    | none => d1

/-! ### Long operations (R392) -/

/-- STATE becomes 2 or 3 and source 3A9h fires; PROGRESS is 10,000 when the operation is done. -/
def LongOp.finish (o : LongOp) (ok : Bool) : LongOp :=
  { o with state := if ok then 2 else 3, progress := if ok then 10000 else o.progress }

def loFinish (f : LongOps → LongOps) (d : Dev) : Dev := memberEvent 0x3A9 { d with lo := f d.lo }

def LongOp.begin : LongOp := ⟨1, 0, 0⟩

end Sys2Proof.Machine
end

