-- ==== Sys2Proof/Machine/GalleyPort.lean ====
section
/-! DEFINITION. Galley requests and their arbitration (R142, R325–R327), and the galley-port operations of the engines
(R263). A request is presented, granted in a grant slot, and takes effect as a whole when it completes. -/

namespace Sys2Proof.Machine

/-! ### The data space (R262) -/

/-- R262: words 0–FFFFh of an engine's data space are its own cluster's engine data memory. -/
def dataAddr (q a : Nat) : Nat := if a < 0x10000 then 0x10000 * (q + 1) + a else a

/-- R262: the regions of the data space that exist. -/
def dataExists (a : Nat) : Bool :=
  decide (a < 0x50000 ∨ (0x100000 ≤ a ∧ a < 0x136800) ∨ (0x200000 ≤ a ∧ a < 0x220000) ∨
    (0x300000 ≤ a ∧ a < 0x320000) ∨ (0x400000 ≤ a ∧ a < 0x418000))

/-- R262: a block lies in the own cluster's engine data memory. -/
def ownBlock (q a n : Nat) : Bool :=
  decide (a + n ≤ 0x10000) || (decide (0x10000 * (q + 1) ≤ a) && decide (a + n ≤ 0x10000 * (q + 2)))

/-- Four words from `a`, word 0 holding bits [63:0] (log entry 17: DEDUCED). -/
def Dev.read256 (d : Dev) (a : Nat) : BitVec 256 :=
  (List.range 4).foldl (fun acc i => acc ||| ((d.read64 (a + i)).setWidth 256 <<< (64 * i))) 0
def Dev.write256 (d : Dev) (a : Nat) (v : BitVec 256) : Dev :=
  forEach (List.range 4) (fun i d => d.write64 (a + i) ((v >>> (64 * i)).setWidth 64)) d

/-! ### The operations of the engines (R263) -/

/-- R127, R153: a state change that MARK may make. -/
def markAllowed (old new : SlugState) : Bool :=
  match old, new with
  | .parked, .pending | .pending, .parked | .pending, .armed | .pending, .missed | .armed, .parked | .armed, .missed
  | .parked, .cancelled | .pending, .cancelled | .armed, .cancelled => true
  | _, _ => false

/-- MARK: the slug's state, its outcome record with the REASON and flags of IMM2, RPT and AUTOFREE. -/
def opMark (sid : Nat) (seq imm2 : W32) (d : Dev) : GlAnswer × Dev :=
  let s := d.slug sid
  let st := slugStateOf (fld imm2 0 3)
  if stale d sid seq then (⟨.stale, s.state, sid, s.seq⟩, d)
  else if !markAllowed s.state st then (⟨.wrongState, s.state, sid, s.seq⟩, d)
  else
    let r : Outcome := ⟨d.tb.time, sid, s.axis, s.chan, st, fld imm2 4 4, bit imm2 8, bit imm2 9, bit imm2 10, false, s.rpt, 0⟩
    let d1 := match st with
      | .missed =>
        let d1 := writeRecord r { d with gl := { d.gl with missed := incSat d.gl.missed } }
        if s.rpt then reinsert sid d1 else retireSlug sid .missed d1
      | .cancelled => retireSlug sid .cancelled (writeRecord r d)
      | st => d.updSlug sid fun s => { s with state := st }
    (⟨.ok, (d1.slug sid).state, sid, (d1.slug sid).seq⟩, d1)

/-- What an engine's operation answers: the code (6 is NONE), SID and SEQ for GRS, and the image for block words 0–3. -/
structure PortAnswer where
  code : Nat
  sid : Nat := 0
  seq : W32 := 0
  image : Option (BitVec 256) := none
  deriving DecidableEq, Repr

def portAnswer (r : GlAnswer × Dev) : PortAnswer × Dev := (⟨glCodeNo r.1.code, r.1.sid, r.1.seq, none⟩, r.2)

/-- The answer that returns the slug at `sid` with its image. -/
def slugAnswer (sid : Nat) (d : Dev) : PortAnswer := ⟨0, sid, (d.slug sid).seq, some (slugImage sid (d.slug sid))⟩

/-- POP: the nearest PARKED slug of the axis, if it lies at or before the bound. -/
def opPop (a : Nat) (bound : Ang64) (d : Dev) : PortAnswer × Dev :=
  match axisSlugs d a .parked with
  | (sid, s) :: _ =>
    if atOrAfter bound s.angle then
      let d1 := d.updSlug sid fun s => { s with state := .pending }
      (slugAnswer sid d1, d1)
    else (⟨6, 0, 0, none⟩, d)
  | [] => (⟨6, 0, 0, none⟩, d)

/-- `x` comes after `y` in a list (R125). -/
def listedAfter (x y : Slug) : Bool :=
  decide (0 < sdiff x.angle y.angle) || (x.angle == y.angle && decide (0 < (x.seq - y.seq).toInt))

/-- PEND: the next PENDING slug of the axis after the one named. -/
def opPend (a sid : Nat) (seq : W32) (d : Dev) : PortAnswer :=
  let l := axisSlugs d a .pending
  if sid = 0x3FFFF then
    (match l with | (n, _) :: _ => slugAnswer n d | [] => ⟨6, 0, 0, none⟩)
  else if stale d sid seq then ⟨3, sid, (d.slug sid).seq, none⟩
  else match l.find? fun e => listedAfter e.2 (d.slug sid) with
    | some (n, _) => slugAnswer n d
    | none => ⟨6, 0, 0, none⟩

/-- A galley operation of an engine (R263), as one atomic act (R126). -/
def runPort (w : GlWork) (d : Dev) : PortAnswer × Dev :=
  match w.op with
  | .insert => portAnswer (opInsert w.slug w.bad w.pub w.newSeq d)
  | .remove => portAnswer (opRemove w.sid w.seq d)
  | .modify => portAnswer (opModify w.sid w.seq w.slug w.newSeq d)
  | .modifyDur => portAnswer (opModifyDur w.sid w.seq w.slug.dur w.newSeq d)
  | .free => portAnswer (opFree w.sid w.seq d)
  | .pop => opPop w.arg2.toNat w.arg d
  | .pend => (opPend w.arg2.toNat w.sid w.seq d, d)
  | .mark => portAnswer (opMark w.sid w.seq (loWord w.arg) d)
  | .read =>
    if stale d w.sid w.seq then (⟨3, w.sid, (d.slug w.sid).seq, none⟩, d) else (slugAnswer w.sid d, d)

/-- The answer reaches the context that issued the operation: GRS, the result code, the block (R263, R266). -/
def deliverPort (e c blk : Nat) (r : PortAnswer × Dev) : Dev :=
  let d1 := match r.1.image with | some im => r.2.write256 blk im | none => r.2
  d1.updCtx e c fun x => { x with
    galBusy := false, galCode := r.1.code
    grs := BitVec.ofNat 64 (r.1.code * 2 ^ 50 + r.1.sid % 2 ^ 18 * 2 ^ 32 + r.1.seq.toNat) }

/-- The request an engine's galley operation presents: `v` is the value operand, `imm2` MARK's, `blk` the block's address. -/
def portWork (e c : Nat) (op : GlOp) (v : W64) (imm2 : W32) (blk axis : Nat) (d : Dev) : GlWork :=
  let img := d.read256 blk
  { who := .engine e c, op := op, sid := fld v 32 18, seq := loWord v, slug := slugOfImage img, bad := imageReserved img
    arg := match op with | .pop => d.read64 (blk + 4) | .mark => imm2.setWidth 64 | _ => 0
    arg2 := BitVec.ofNat 64 axis, blk := blk }

/-! ### Presentation, grant, completion (R325–R327) -/

/-- GL_CMD (R142): while GO = 1 the write is ignored with CMD_BUSY; GO presents the host's request. -/
def glCmdWrite (v : W32) (d : Dev) : Dev :=
  if d.gl.go then (if v &&& 0x0703FFFF#32 = d.gl.cmd then d else glFlag 6 d)
  else
    let d1 := { d with gl := { d.gl with cmd := v &&& 0x0703FFFF#32, go := bit v 31 } }
    if bit v 31 then
      let img := stagedImage d
      let op : GlOp := match fld v 24 3 with | 0 => .insert | 1 => .remove | 2 => .modify | 3 => .modifyDur | 4 => .free | _ => .read
      let w : GlWork := { who := .host, op := op, sid := fld v 0 18, seq := Bank.get 0 d.gl.sw 0,
                          slug := slugOfImage img, bad := imageReserved img }
      { d1 with gs := { d1.gs with presented := d1.gs.presented ++ [w] } }
    else d1

/-- GL_SW0–GL_SW7 (R142). -/
def glSwWrite (i : Nat) (v : W32) (d : Dev) : Dev :=
  if d.gl.go then (if Bank.get 0 d.gl.sw i ≠ v then glFlag 6 d else d)
  else { d with gl := { d.gl with sw := Bank.set 0 d.gl.sw i v } }

/-- The order of a requester among equal ages (R325): an engine's port ranks by its cluster and its number. -/
def reqOrder (w : GlReq) : Nat :=
  match w with | .commit => 1 | .host => 2 | .link => 3 | .fieldPort => 4 | .compositor => 5 | .engine e _ => 6 + e

def sameReq (a b : GlReq) : Bool := reqOrder a == reqOrder b

/-- The requests at the front of their requesters: each presents one at a time, in order of arrival (R325). -/
def fronts : List GlWork → List GlReq → List (GlWork × Bool)
  | [], _ => []
  | w :: rest, seen => (w, !(seen.any (sameReq w.who))) :: fronts rest (w.who :: seen)

/-- The request granted: the oldest presented, the lowest order among equals (R326). -/
def grantChoice (l : List GlWork) : Option GlWork :=
  ((fronts l []).filter (·.2)).foldl (fun best w =>
    match best with
    | none => some w.1
    | some b => if b.age < w.1.age ∨ (b.age = w.1.age ∧ reqOrder w.1.who < reqOrder b.who) then some w.1 else some b) none

/-- R138: what a grant makes of a request: the published angle of its axis, the template's angle taken relative to it (R393), and for
an insertion, a modification or a duration change the next SEQ. -/
def grantWork (w : GlWork) (d : Dev) : GlWork × Dev :=
  let pub := published d w.slug.axis
  let w1 := { w with pub := pub, slug := { w.slug with angle := if w.group.isSome then pub + w.slug.angle else w.slug.angle } }
  match w.op with
  | .insert | .modify | .modifyDur => ({ w1 with newSeq := (nextSeq d).1 }, (nextSeq d).2)
  | _ => (w1, d)

/-- R144: compaction visits one SID: a retained final slug is freed. -/
def compactVisit (d : Dev) : Dev :=
  let sid := d.lo.compact.position
  let st := (d.slug sid).state
  let d1 := if st == .done || st == .missed || st == .cancelled then freeSlug sid d else d
  { d1 with
    gl := { d1.gl with slots := 0 }
    lo := { d1.lo with compact := { d1.lo.compact with
      position := if sid + 1 < 262144 then sid + 1 else d1.lo.compact.position
      progress := (sid + 1) * 10000 / 262144 } } }

/-- A request at the front of its requester that is not granted ages by one ECLK, its age saturating at 31 (R326). -/
def older (e : GlWork × Bool) : GlWork := if e.2 then { e.1 with age := min 31 (e.1.age + 1) } else e.1

/-- GALLEY_GRANT: one grant slot. The chosen request enters; every other request at the front of its requester ages; WMAX keeps the
longest wait (R326, R327). At most 16 operations are in flight (R125). A compaction takes one slot in 16 (R144). -/
def galleyGrant (d : Dev) : Dev :=
  let line := fronts d.gs.presented []
  if d.gl.compacting && decide (15 ≤ d.gl.slots) then
    compactVisit { d with gs := { d.gs with presented := line.map older } }
  else
    let d0 := if d.gl.compacting then { d with gl := { d.gl with slots := d.gl.slots + 1 } } else d
    match (if d.gs.granted.length < 16 then grantChoice d.gs.presented else none) with
    | some w =>
      let g := grantWork w d0
      { g.2 with
        gs := { g.2.gs with presented := (line.filter fun e => !(e.2 && e.1 == w)).map older, granted := d.gs.granted ++ [g.1] }
        gl := { g.2.gl with wmax := max d.gl.wmax w.age } }
    | none => { d0 with gs := { d0.gs with presented := line.map older } }

/-- The host's operation completes (R142). -/
def runHost (w : GlWork) (d : Dev) : Dev :=
  glAnswer (match w.op with
    | .insert => opInsert w.slug w.bad w.pub w.newSeq d
    | .remove => opRemove w.sid w.seq d
    | .modify => opModify w.sid w.seq w.slug w.newSeq d
    | .modifyDur => opModifyDur w.sid w.seq w.slug.dur w.newSeq d
    | .free => opFree w.sid w.seq d
    | _ => (⟨.badField, .free, w.sid, 0⟩, d))

/-- GALLEY_OP_COMPLETE: the operation granted first completes, as a whole (R125, R126). -/
def galleyComplete (d : Dev) : Dev :=
  match d.gs.granted with
  | [] => d
  | w :: rest =>
    let d1 := { d with gs := { d.gs with granted := rest } }
    match w.who with
    | .engine e c => deliverPort e c w.blk (runPort w d1)
    | .host => runHost w d1
    | _ =>
      let r := opInsert w.slug w.bad w.pub w.newSeq d1
      match w.group with
      | some g => if r.1.code = .ok then r.2 else r.2.updGroup g fun x => { x with refused := incSat x.refused }
      | none => r.2

/-- What has been granted takes effect before an operation that is granted and completes now (R126). -/
def settleGranted (d : Dev) : Dev := forEach d.gs.granted (fun _ d => galleyComplete d) d

/-! ### Operations in one act -/

/-- A GL_CMD operation carried out on its SID and the staged words, with GL_CMD's OP and SID; while GO = 1 it is ignored with
CMD_BUSY. -/
def hostOp (op : GlOp) (sid : Nat) (d : Dev) : Dev :=
  if d.gl.go then glFlag 6 d
  else
    let img := stagedImage d
    let code := match op with | .insert => 0 | .remove => 1 | .modify => 2 | .modifyDur => 3 | .free => 4 | _ => 5
    let w : GlWork := { who := .host, op := op, sid := sid, seq := Bank.get 0 d.gl.sw 0, slug := slugOfImage img, bad := imageReserved img }
    let d1 := settleGranted { d with gl := { d.gl with cmd := BitVec.ofNat 32 (code * 2 ^ 24 + sid % 2 ^ 18) } }
    let g := grantWork w d1
    runHost g.1 g.2

/-- One galley operation of a context carried out at once: the effect of the operation itself. -/
def galPort (e c : Nat) (op : GlOp) (v : W64) (imm2 : W32) (blk axis : Nat) (d : Dev) : Dev :=
  let a := dataAddr (e / 4) blk
  let d1 := settleGranted d
  let g := grantWork (portWork e c op v imm2 a axis d1) d1
  deliverPort e c a (runPort g.1 g.2)

/-- A slug command that completes as it is granted: an insertion, or a removal (R146). -/
def directInsert (s : Slug) (reservedBit : Bool) (d : Dev) : GlAnswer × Dev :=
  let d1 := settleGranted d
  let q := nextSeq d1
  opInsert s reservedBit (published d1 s.axis) q.1 q.2
def directRemove (sid : Nat) (seq : W32) (d : Dev) : GlAnswer × Dev := opRemove sid seq (settleGranted d)

/-- COMMIT_RECORD: the galley takes the oldest commit record: the slug is COMMITTED, or an RPT slug is re-inserted (R127, R139). -/
def commitRecord (d : Dev) : Dev :=
  match d.gs.fifo with
  | .commit o :: rest =>
    let d1 := settleGranted { d with gs := { d.gs with fifo := rest } }
    if o.rpt then reinsert o.sid d1 else d1.updSlug o.sid fun s => { s with state := .committed }
  | _ => d

/-- ACTION_COMPLETE: the galley takes the oldest completion record: its outcome record, and DONE unless it repeats. -/
def actionComplete (d : Dev) : Dev :=
  match d.gs.fifo with
  | .complete o :: rest =>
    let d1 := writeRecord (doneRecord o) (settleGranted { d with gs := { d.gs with fifo := rest } })
    if o.rpt then d1 else retireSlug o.sid .done d1
  | _ => d

/-- EVENT_GROUP_TRIGGER (R393): the templates of an armed group are presented in order, by the sequencer of R325 that saw
the input; a trigger that comes while the group's insertions are still in progress is dropped. -/
def groupTrigger (g : Nat) (d : Dev) : Dev :=
  let x := d.group g
  let d1 := { d with ds := { d.ds with trigs := d.ds.trigs.erase g } }
  let kind := fld x.trigger 28 4
  if !x.enable || kind == 0 || 4 ≤ kind then d1
  else if (d.gs.presented ++ d.gs.granted).any fun w => w.group == some g then
    d1.updGroup g fun x => { x with dropped := incSat x.dropped }
  else
    let who : GlReq := if kind = 3 then .compositor else .fieldPort
    let ws := (List.range (x.templates.length / 32)).map fun i =>
      let img : BitVec 256 := (List.range 8).foldl (fun acc k =>
        acc ||| (BitVec.ofNat 256 (beNat (slice x.templates (32 * i + 4 * k) 4)) <<< (32 * k))) 0
      ({ who := who, op := .insert, slug := slugOfImage img, bad := imageReserved img, group := some g } : GlWork)
    { (d1.updGroup g fun x => { x with fired := incSat x.fired }) with gs := { d1.gs with presented := d1.gs.presented ++ ws } }

/-- CLRW: WMAX is cleared (R327). -/
def clearWmax (d : Dev) : Dev := { d with gl := { d.gl with wmax := 0 } }

/-! ### Compaction as a long operation (R144, R392) -/

/-- COMPACT: compaction starts, unless one runs. -/
def compactBegin (d : Dev) : Dev :=
  if d.gl.compacting then d
  else { d with gl := { d.gl with compacting := true, slots := 0 }, lo := { d.lo with compact := LongOp.begin } }

/-- The place of a free SID in the order in which allocation draws from the banks in turn: its rank in its bank, then the bank (R124,
R144). -/
def bankRank (l : List Nat) (n : Nat) : Nat := (l.filter fun x => x % 16 == n % 16 && decide (x < n)).length * 16 + n % 16

/-- The rest of a compaction: the SIDs it has not reached are visited, and the free list is rebuilt (R144; log entry 5). -/
def compactDone (d : Dev) : Dev :=
  let at_ := d.lo.compact.position
  let final := (d.gs.slugs.filter fun e => decide (at_ ≤ e.1) && (e.2.state == .done || e.2.state == .missed || e.2.state == .cancelled)).map (·.1)
  let d1 := forEach final freeSlug d
  let l := d1.gs.freed
  let sorted := l.foldl (fun acc (x : Nat) =>
    acc.takeWhile (fun y => decide (bankRank l y < bankRank l x)) ++ x :: acc.dropWhile (fun y => decide (bankRank l y < bankRank l x))) []
  { d1 with gs := { d1.gs with freed := sorted }, gl := { d1.gl with compacting := false } }

/-- COMPACTION_DONE: POSITION stands at the last SID. -/
def compactFinish (d : Dev) : Dev :=
  if d.gl.compacting then
    loFinish (fun l => { l with compact := { l.compact.finish true with position := 262143 } }) (compactDone d)
  else d

end Sys2Proof.Machine
end

