-- ==== Sys2Proof/Machine/Timers.lean ====
section
/-! DEFINITION. Counters, links and capture (R167–R173, R209–R231): terminal counts, compares, match actions, chains,
shadows and reloads, and the capture registers. -/

namespace Sys2Proof.Machine

/-! ### Fields -/

def lnkWrap (c : ChanCnt) : Bool := bit c.lnk 31
def lnkHold (c : ChanCnt) : Bool := bit c.lnk 30
def lnkCsrc (c : ChanCnt) : Nat := fld c.lnk 28 2
def lnkRtrg (c : ChanCnt) : Bool := bit c.lnk 27
def lnkDiv (c : ChanCnt) : Nat := fld c.lnk 0 16

/-- A W1C flag of CHnnn_TSTAT. -/
def tsFlag (n b : Nat) (d : Dev) : Dev := d.updCnt n fun c => { c with tstat := orBit c.tstat b }

/-- R211: 2³² with WRAP = 1, otherwise PER. -/
def perLimit (o : ChanOut) (c : ChanCnt) : Nat := if lnkWrap c then 2 ^ 32 else o.per.toNat

/-- A stage above the lowest of a carry chain (R220). -/
def isStage (d : Dev) (n : Nat) : Bool := chMode (d.chOut n) == 3

/-- The lowest stage of the chain of `n` (R220): at most three positions down. -/
def lowestOf (d : Dev) (n : Nat) : Nat :=
  if isStage d n then
    if isStage d (n - 1) then (if isStage d (n - 2) then n - 3 else n - 2) else n - 1
  else n

/-- The stage above `n`, if it is an enabled stage of the same group (R220, R221). -/
def stageAbove (d : Dev) (n : Nat) : Option Nat :=
  if n % 8 < 7 && isStage d (n + 1) && chEn (d.chOut (n + 1)) then some (n + 1) else none

/-- The enabled stages above `n`, lowest first; at most three. -/
def stagesAbove (d : Dev) (n : Nat) : List Nat :=
  match stageAbove d n with
  | none => []
  | some a => match stageAbove d a with
    | none => [a]
    | some b => match stageAbove d b with
      | none => [a, b]
      | some c => [a, b, c]

/-- R222: a chain has one run state, held by its lowest stage. -/
def runningNow (d : Dev) (n : Nat) : Bool := (d.chCnt (lowestOf d n)).run && chEn (d.chOut n)

/-- The source of a counter that is no chain stage advances in this TCLK (R209). -/
def advances (c : ChanCnt) : Bool :=
  match lnkCsrc c with
  | 0 => true
  | 1 => decide (lnkDiv c ≤ c.divc)
  | 2 => c.edge
  | _ => false

/-- R167, R210, R212, R214: this TCLK is terminal for the counter by its own count. -/
def countEnds (d : Dev) (n : Nat) : Bool :=
  let o := d.chOut n
  let c := d.chCnt n
  o.enNow && c.run && !isStage d n && advances c &&
    (c.cut || (if chMode o = 1 then c.down && decide (c.cnt.toNat ≤ 1) else decide (perLimit o c ≤ c.cnt.toNat + 1)))

/-- R213: a start of this TCLK retriggers a running one-shot, unless a stop prevails (R218). -/
def retriggered (d : Dev) (n : Nat) : Bool :=
  let c := d.chCnt n
  (d.chOut n).enNow && chMode (d.chOut n) == 2 && c.run && c.go && !c.halt && lnkRtrg c

/-- This TCLK is terminal for the counter, and its event has still to be raised. -/
def terminalNow (d : Dev) (n : Nat) : Bool := !(d.chCnt n).term && (countEnds d n || retriggered d n)

/-- R212: this TCLK is the top of an up-down count. -/
def topNow (d : Dev) (n : Nat) : Bool :=
  let o := d.chOut n
  let c := d.chCnt n
  o.enNow && c.run && !c.halt && !c.cut && advances c && chMode o == 1 && !c.down && decide (perLimit o c ≤ c.cnt.toNat + 1)

/-! ### Reloads (R169–R172) -/

/-- A reload is due at the end of this TCLK under RLD 00b or 01b (R167, R217). -/
def reloadTerminal (n : Nat) (d : Dev) : Dev :=
  if chRld (d.chOut n) ≤ 1 then d.updOut n fun o => { o with rel := true } else d

/-- RELOAD: a reload at the end of this TCLK. -/
def reload (n : Nat) (d : Dev) : Dev := d.updOut n fun o => { o with rel := true }

/-- The values in force take the four shadows (R169). -/
def transfer (o : ChanOut) : ChanOut :=
  { o with per := o.sper, cmpr := o.scmpr, cmpf := o.scmpf, cmpg := o.scmpg, shp := false }

/-- A write reaches the shadow (R169), or the value in force, and its shadow too while no shadow waits for a transfer (log entry
71: DEDUCED). -/
def landWrite (o : ChanOut) (w : CompareLanding) : ChanOut :=
  match w.direct, w.reg with
  | false, 8 => { o with sper := w.val, shp := true }
  | false, 12 => { o with scmpr := w.val, shp := true }
  | false, 16 => { o with scmpf := w.val, shp := true }
  | false, _ => { o with scmpg := w.val, shp := true }
  | true, 8 => { o with per := w.val, sper := if o.shp then o.sper else w.val }
  | true, 12 => { o with cmpr := w.val, scmpr := if o.shp then o.scmpr else w.val }
  | true, 16 => { o with cmpf := w.val, scmpf := if o.shp then o.scmpf else w.val }
  | true, _ => { o with cmpg := w.val, scmpg := if o.shp then o.scmpg else w.val }

/-- The registers as the writes of this TCLK leave them: what a read returns and the next TCLK's checks see. -/
def landed (o : ChanOut) : ChanOut := o.writes.foldl landWrite o

/-- The reload of this TCLK, if there is one, transfers the shadows as they stood at its start, unless it finds the quoin group
closed, as the locks stood at its start (R170–R172); then the writes of the TCLK land. -/
def landOut (d : Dev) (n : Nat) (o : ChanOut) : ChanOut :=
  let want := o.rel || (topNow d n && chRld o == 1)
  let o1 := if !want then o
    else if chQen o && bit d.ch.quoinStart (chQg o) then { o with stat := orBit o.stat 8 }
    else transfer o
  landed o1

/-! ### Actions (R215–R219, R222) -/

/-- R217, R222: a reset of one stage: its next count is 0 and it reloads. The TCLK is terminal for it: the event TM is recorded,
once (log entry 72: DEDUCED). -/
def resetOne (n : Nat) (d : Dev) : Dev :=
  let c := d.chCnt n
  let d1 := if c.term || c.rst then d else chanEvent n 0 d
  reloadTerminal n (d1.updCnt n fun c => { c with rst := true })

/-- R217: a reset by an event. While EN = 0 it is ignored with START_IGN (R215); on a lowest stage it zeroes every stage (R222). -/
def counterResetBy (n : Nat) (d : Dev) : Dev :=
  if !chEn (d.chOut n) then tsFlag n 2 d
  else if isStage d n then resetOne n d
  else forEach (stagesAbove d n) resetOne (resetOne n d)

/-- R213, R217: a start; `cmd` says that a command makes it. A one-shot that runs is retriggered, or ignores it with START_IGN unless
it is reset as well (R218). -/
def counterStartBy (cmd : Bool) (n : Nat) (d : Dev) : Dev :=
  let c := d.chCnt n
  if !chEn (d.chOut n) || isStage d n then tsFlag n 2 d
  else if chMode (d.chOut n) == 2 && c.run && !lnkRtrg c && !c.rst then tsFlag n 2 d
  else d.updCnt n fun c => { c with go := true, goCmd := c.goCmd || cmd }

/-- R217, R219: stop; it prevails over every start of the TCLK (R218) and cancels a pending TSTART. -/
def counterStop (n : Nat) (d : Dev) : Dev :=
  if !chEn (d.chOut n) || isStage d n then tsFlag n 2 d
  else d.updCnt n fun c => { c with halt := true, tstart := false }

/-- The action `code` of an event of channel `n` with partner position `p` (R216). -/
def matchAction (n code p : Nat) (d : Dev) : Dev :=
  let q := n / 8 * 8 + p
  match code with
  | 1 => counterResetBy n d
  | 2 => counterStartBy false n d
  | 3 => counterStop n d
  | 4 => counterResetBy q d
  | 5 => counterStartBy false q d
  | 6 => counterStop q d
  | 7 => counterStartBy false q (counterResetBy q d)
  | _ => d

/-- The action that CHnnn_MACT holds for event `ev` of channel `n`, as it stood at the start of the TCLK (R216). -/
def eventAction (n ev : Nat) (d : Dev) : Dev :=
  let m := (d.chCnt n).mactNow
  let lo := match ev with | 0 => 18 | 1 => 12 | 2 => 6 | _ => 0
  matchAction n (fld m (lo + 3) 3) (fld m lo 3) d

/-- An event of R216 at channel `n` (TM 0, MR 1, MF 2, CP 3): the interrupt record and the action of CHnnn_MACT.
A disabled channel raises no events. -/
def counterEvent (n ev : Nat) (d : Dev) : Dev :=
  if !chTakes (d.chOut n) then d else eventAction n ev (chanEvent n ev d)

/-- GRESET and a reset by a command: its terminal TCLK raises TM with its action (R216, R217). -/
def counterReset (n : Nat) (d : Dev) : Dev :=
  let c := d.chCnt n
  let d1 := counterResetBy n d
  if !chEn (d.chOut n) || c.term then d1
  else eventAction n 0 (d1.updCnt n fun c => { c with term := true })

/-- GSTART and START. -/
def counterStart (n : Nat) (d : Dev) : Dev := counterStartBy true n d

/-! ### Terminal counts and compares -/

/-- The carry into stage `n`, from the TCLK after its enable on (R220, R221): it advances by one, or is terminal itself and passes
the carry on. -/
def carryInto : Nat → Nat → Dev → Dev
  | 0, _, d => d
  | fuel + 1, n, d =>
    let o := d.chOut n
    let c := d.chCnt n
    if !o.enNow then d
    else
      let d1 := d.updCnt n fun c => { c with carry := true }
      if c.cut || decide (perLimit o c ≤ c.cnt.toNat + 1) then
        let d2 := reloadTerminal n (d1.updCnt n fun c => { c with term := true })
        let d3 := if c.term then d2 else if c.rst then eventAction n 0 d2 else counterEvent n 0 d2
        match stageAbove d n with
        | some a => carryInto fuel a d3
        | none => d3
      else d1

/-- R167, R212, R213, R221: a terminal TCLK of counter `n`: its shadows reload at the end, the carry passes up and TM is raised. The
event of a retrigger that another event has caused selects no action (R218). Without a terminal count nothing happens. -/
def counterTerminal (n : Nat) (d : Dev) : Dev :=
  if terminalNow d n then
    let c := d.chCnt n
    let d1 := reloadTerminal n (d.updCnt n fun c => { c with term := true })
    let d2 := match stageAbove d n with | some a => carryInto 3 a d1 | none => d1
    let d3 := if c.rst then d2 else chanEvent n 0 d2
    if countEnds d n || c.goCmd then eventAction n 0 d3 else d3
  else d

/-- R168, R212: the count equals the compare and lies below the limit, in the phase the compare has. -/
def compareHits (d : Dev) (n : Nat) (rise : Bool) : Bool :=
  let o := d.chOut n
  let c := d.chCnt n
  let v := if rise then o.cmpr else o.cmpf
  o.enNow && (d.chCnt (lowestOf d n)).run && c.cnt == v && decide (v.toNat < perLimit o c) && !(if rise then c.mr else c.mf) &&
    (if chMode o = 1 then (if rise then !c.down else c.down) else true)

/-- R168, R210, R216: a compare match: a level request two TCLKs later at its grain (none on a remote channel, R187),
and the event MR or MF with its action. -/
def compareMatch (n : Nat) (rise : Bool) (d : Dev) : Dev :=
  if compareHits d n rise then
    let g := BitVec.ofNat 6 (if rise then fld (d.chOut n).cmpg 8 6 else fld (d.chOut n).cmpg 0 6)
    let d1 := d.updCnt n fun c => if rise then { c with mr := true } else { c with mf := true }
    let d2 := if isRemote n then d1
      else d1.updOut n fun o => { o with reqs := o.reqs ++ [⟨d.tb.tclk + 2, g, rise, false⟩] }
    counterEvent n (if rise then 1 else 2) d2
  else d

/-! ### Register writes -/

/-- R169, R173, R212: a write to PER (8), CMPR (12), CMPF (16) or CMPG (20), which lands at the end of the TCLK. PER below 2, or
below 3 on an enabled up-down channel, is ignored with CFG_ERR. -/
def compareWrite (n r : Nat) (v : W32) (d : Dev) : Dev :=
  let o := d.chOut n
  let v := if r = 20 then v &&& 0x3F3F#32 else v
  if r = 8 && (decide (v.toNat < 2) || (chEn o && chMode o == 1 && decide (v.toNat < 3))) then chFlag n 3 d
  else d.updOut n fun o => { o with writes := o.writes ++ [⟨!chShd o, r, v⟩] }

/-- R214: the count of the next TCLK is the written value. -/
def countLoad (n : Nat) (v : W32) (d : Dev) : Dev := d.updCnt n fun c => { c with wr := some v }

/-- R214, R224: a write to CHnnn_CNT. In a chain, a lower stage is staged and the highest loads every staged stage. -/
def countWrite (n : Nat) (v : W32) (d : Dev) : Dev :=
  match stageAbove d n with
  | some _ => d.updCnt n fun c => { c with wshadow := some v }
  | none =>
    if isStage d n then
      let lo := lowestOf d n
      let below := (List.range (n - lo)).map (lo + ·)
      let d1 := forEach below (fun k d => match (d.chCnt k).wshadow with
        | some w => countLoad k w (d.updCnt k fun c => { c with wshadow := none })
        | none => d) d
      countLoad n v d1
    else countLoad n v d

/-- R231: CHnnn_LNK is locked while EN = 1. -/
def lnkWrite (n : Nat) (v : W32) (d : Dev) : Dev :=
  let v := v &&& 0xF800FFFF#32
  if chEn (d.chOut n) then (if v ≠ (d.chCnt n).lnk then chFlag n 2 d else d)
  else d.updCnt n fun c => { c with lnk := v }

def mactWrite (n : Nat) (v : W32) (d : Dev) : Dev := d.updCnt n fun c => { c with mact := v &&& 0xFFFFFF#32 }

/-- R225, R227, R231: CHnnn_CAPC is locked while CEN = 1; CEN is refused with CAPM 11b and on remote channels. -/
def capcWrite (n : Nat) (v : W32) (d : Dev) : Dev :=
  let v := v &&& 0xFF80FFFF#32
  if isRemote n then (if bit v 31 then chFlag n 3 d else d)
  else
    let c := d.chCap n
    if bit c.capc 31 then
      let changes := (v ^^^ c.capc) &&& 0x7FFFFFFF#32 ≠ 0
      let d1 := d.updCap n fun c => { c with capc := putBit c.capc 31 (bit v 31) }
      if changes then chFlag n 2 d1 else d1
    else if bit v 31 && fld v 28 2 == 3 then
      chFlag n 3 (d.updCap n fun c => { c with capc := clrBit v 31 })
    else d.updCap n fun c => { c with capc := v, pre := if bit v 31 then 0 else c.pre, fallDue := false }

/-- R219: a write to CHnnn_CCMD: GRESET and GSTART over the group, then the channel's own commands; a stop prevails. -/
def groupReset (n mask : Nat) (d : Dev) : Dev :=
  forEach (List.range 8) (fun p d => if Nat.testBit mask p then counterReset (n / 8 * 8 + p) d else d) d
def groupStart (n mask : Nat) (d : Dev) : Dev :=
  forEach (List.range 8) (fun p d => if Nat.testBit mask p then counterStart (n / 8 * 8 + p) d else d) d

/-- R219: TSTART waits for the next tick strobe; while EN = 0 it is ignored with START_IGN. -/
def counterTstart (n : Nat) (d : Dev) : Dev :=
  if !chEn (d.chOut n) || isStage d n then tsFlag n 2 d
  else d.updCnt n fun c => { c with tstart := !c.halt }

/-! ### Enable and disable (R178–R180, R215, R220) -/

/-- R180, R209, R212, R220: a write that sets EN is refused. -/
def enableRefused (d : Dev) (n : Nat) : Bool :=
  let o := d.chOut n
  let c := d.chCnt n
  let h := d.head (fld o.rmap 16 11)
  (chMode o == 3 && (n % 8 == 0 || !chEn (d.chOut (n - 1)) ||
      (isStage d (n - 1) && isStage d (n - 2) && isStage d (n - 3)))) ||
  (chMode o != 3 && lnkCsrc c == 3) ||
  (chMode o == 1 && (lnkWrap c || decide ((landed o).per.toNat < 3))) ||
  (isRemote n && !(h.enumd && h.htype == 2))

/-- R179: the stage takes EN = 1; its count is 0, its level IDL and its shadows are in force from the next TCLK on. -/
def channelStart (n : Nat) (d : Dev) : Dev :=
  let d1 := d.updOut n fun o => { o with ctl := orBit o.ctl 31, starting := true, rel := true, pulseEnd := none, reqs := [] }
  d1.updCnt n fun c => { c with go := false, goCmd := false, halt := false, tstart := false }

/-- R178: the stage takes EN = 0. -/
def channelStop (n : Nat) (d : Dev) : Dev :=
  let d1 := d.updOut n fun o => { o with ctl := clrBit o.ctl 31, starting := false, reqs := o.reqs.filter (!·.forced) }
  d1.updCnt n fun c => { c with go := false, goCmd := false, tstart := false }

/-! ### Capture (R225–R230) -/

/-- R226: a capture of the lowest stage of a carry chain latches the counts of the higher stages into their capture count
registers, those of CAP0 or CAP1 as the capture itself (log entry 67: DEDUCED). -/
def latchChain (n : Nat) (second : Bool) (d : Dev) : Dev :=
  if isStage d n then d
  else forEach (stagesAbove d n) (fun k d =>
    let cnt := (d.chCnt k).cnt
    d.updCap k fun c => if second then { c with cap1 := cnt } else { c with cap0 := cnt }) d

/-- A capture of count, stamp, grain and generation into CAP0 or CAP1 (R226, R227). -/
def storeCapture (n : Nat) (second : Bool) (cnt : W32) (stamp : Time64) (g : BitVec 6) (sg : BitVec 2) (d : Dev) : Dev :=
  let c := d.chCap n
  let past := bit c.caps (if second then 2 else 1)
  let lo := if second then 24 else 16
  let s1 := setFld (setFld c.caps lo 6 g.toNat) (lo + 6) 2 sg.toNat
  let s2 := orBit s1 (if second then 2 else 1)
  let s3 := if past then
      setFld (orBit s2 (if second then 4 else 3)) 8 8 (min 255 (fld s2 8 8 + 1))
    else s2
  let d1 := d.updCap n fun c =>
    if second then { c with caps := s3, cap1 := cnt, cap1t := stamp } else { c with caps := s3, cap0 := cnt, cap0t := stamp }
  let d3 := counterEvent n 3 (tsFlag n 1 (latchChain n second d1))
  if bit c.caps 6 && c.closeFirst then windowClose n (d3.updCap n fun c => { c with closeAt := Option.none }) else d3

/-- R226, R227, R230: a capture under CAPM; `fall` is the fall of a rise-and-fall pair. -/
def takeCapture (n : Nat) (fall : Bool) (stamp : Time64) (g : BitVec 6) (sg : BitVec 2) (d : Dev) : Dev :=
  let c := d.chCap n
  let cnt := (d.chCnt n).cnt
  match fld c.capc 28 2 with
  | 1 =>
    let second := bit c.caps 5
    storeCapture n second cnt stamp g sg (d.updCap n fun c => { c with caps := putBit c.caps 5 (!second) })
  | 2 => storeCapture n fall cnt stamp g sg d
  | _ => storeCapture n false cnt stamp g sg d

/-- CEDGE takes this edge (R225); 11b is reserved (log entry 3). -/
def edgeTaken (c : ChanCap) (rise : Bool) : Bool :=
  match fld c.capc 26 2 with | 0 => rise | 1 => !rise | 2 => true | _ => Config.reservedEdge rise

/-- R225, R229: an accepted edge of the selected pin reaches the capture path of channel `n`. -/
def captureEdge (n : Nat) (rise : Bool) (at_ : Nat) (stamp : Time64) (g : BitVec 6) (sg : BitVec 2) (d : Dev) : Dev :=
  let c := d.chCap n
  let inWindow := !bit c.capc 30 || (decide (c.openAt ≤ at_) &&
    (match c.closeAt with | some t => decide (at_ < t) | none => bit c.caps 6) || (bit c.caps 6 && c.closeFirst))
  if !bit c.capc 31 || !inWindow then d
  else if fld c.capc 28 2 = 2 then
    if rise then
      if c.pre + 1 ≥ fld c.capc 0 16 + 1 then
        takeCapture n false stamp g sg (d.updCap n fun c => { c with pre := 0, fallDue := true })
      else d.updCap n fun c => { c with pre := c.pre + 1 }
    else if c.fallDue then takeCapture n true stamp g sg (d.updCap n fun c => { c with fallDue := false })
    else d
  else
    let sel := edgeTaken c rise
    if !sel then d
    else if c.pre + 1 ≥ fld c.capc 0 16 + 1 then
      takeCapture n false stamp g sg (d.updCap n fun c => { c with pre := 0 })
    else d.updCap n fun c => { c with pre := c.pre + 1 }

/-- The channels of the group of TP `p` whose CSEL names it (R225). -/
def captureChannels (d : Dev) (p : Nat) : List Nat :=
  ((List.range 8).map (p / 8 * 8 + ·)).filter fun n => fld (d.chCap n).capc 23 3 == p % 8

/-- R225: an accepted edge of TP `p` reaches the capture paths that take it. -/
def captureEdges (p : Nat) (rise : Bool) (at_ : Nat) (stamp : Time64) (g : BitVec 6) (sg : BitVec 2) (d : Dev) : Dev :=
  forEach (captureChannels d p) (fun n d => captureEdge n rise at_ stamp g sg d) d

/-- R209: the counts with CSRC 10b whose capture path takes this edge of TP `p` advance in the present TCLK. -/
def countEdges (p : Nat) (rise : Bool) (d : Dev) : Dev :=
  forEach (captureChannels d p) (fun n d =>
    if lnkCsrc (d.chCnt n) = 2 && edgeTaken (d.chCap n) rise then d.updCnt n fun c => { c with edge := true } else d) d

/-- R230: a software capture; the stamp is the TIME64 of the TCLK and g is 0. -/
def softCapture (n : Nat) (d : Dev) : Dev :=
  if isRemote n || !bit (d.chCap n).capc 31 then d
  else takeCapture n false d.tb.time 0 d.tb.stepGen d

/-- R228: a read of CAP0 or CAP1 returns the count and clears FULL. -/
def captureRead (n : Nat) (second : Bool) (d : Dev) : W32 × Dev :=
  let c := d.chCap n
  (if second then c.cap1 else c.cap0, d.updCap n fun c => { c with caps := clrBit c.caps (if second then 2 else 1) })

/-- STAGE of TSTAT: the stage number in a chain (0 lowest). -/
def stageNo (d : Dev) (n : Nat) : Nat := n - lowestOf d n

/-- CHnnn_TSTAT as read. -/
def tstatRead (n : Nat) (d : Dev) : W32 :=
  setFld ((d.chCnt n).tstat ||| atBit (runningNow d n) 0) 4 2 (stageNo d n)

/-- CHnnn_STAT as read. -/
def chStatRead (n : Nat) (d : Dev) : W32 :=
  let o := d.chOut n
  o.stat ||| atBit (landed o).shp 9 ||| atBit o.lvl 1 ||| atBit (chEn o && runningNow d n) 0

/-- CHnnn_CCMD (R219): resets and starts of the group, then STOP, START, TSTART and SWCAP of the channel. -/
def ccmdWrite (n : Nat) (v : W32) (d : Dev) : Dev :=
  let d1 := if bit v 1 then counterStop n d else d
  let d2 := groupReset n (fld v 8 8) d1
  let d3 := groupStart n (fld v 16 8) d2
  let d4 := if bit v 0 then counterStart n d3 else d3
  let d5 := if bit v 3 then counterTstart n d4 else d4
  if bit v 2 then softCapture n d5 else d5

/-! ### One TCLK (idle step) -/

/-- The counter of lowest stage `n` runs in the next TCLK (R178, R213, R215, R217, R218). -/
def runNext (d : Dev) (n : Nat) : Bool :=
  let o := d.chOut n
  let c := d.chCnt n
  if !chEn o || isStage d n || c.halt then false
  else if c.go then true
  else if o.starting then chMode o != 2 && !lnkHold c
  else if chMode o == 2 && (c.term || c.rst) then false
  else c.run

/-- The counter moves in this TCLK: its source advances it and neither a stop nor a disable holds it (R178, R209, R217). -/
def countMoves (d : Dev) (n : Nat) : Bool :=
  let low := lowestOf d n
  (d.chOut n).enNow && chEn (d.chOut n) && !(d.chCnt low).halt &&
    (if isStage d n then (d.chCnt n).carry else (d.chCnt n).run && advances (d.chCnt n))

/-- The count of the next TCLK, and whether it is taken afresh, so that compares may match it (R167, R179, R210, R212–R214, R217,
R221): a write wins, then a reset, an enable and a one-shot's start put it to 0. -/
def countNext (d : Dev) (n : Nat) : W32 × Bool :=
  let o := d.chOut n
  let c := d.chCnt n
  match c.wr with
  | some v => (v, true)
  | none =>
    if o.starting || c.rst then (0, true)
    else if chMode o == 2 && c.go && !c.halt then (0, true)
    else if countMoves d n then
      (if c.term then 0 else if topNow d n || c.down then c.cnt - 1 else c.cnt + 1, true)
    else (c.cnt, c.go && !c.run)

/-- The phase of the next TCLK of an up-down count (R212, R214). -/
def downNext (d : Dev) (n : Nat) : Bool :=
  let c := d.chCnt n
  if (d.chOut n).starting || c.rst then false
  else if c.wr.isSome || !countMoves d n then c.down
  else if c.term then false
  else c.down || topNow d n

/-- R173, R214: a direct write of PER, or a write of the count, makes the next TCLK terminal: it cuts the period. `o` is the output
stage as the writes have left it. -/
def cutsNext (d : Dev) (n : Nat) (o : ChanOut) : Bool :=
  let c := d.chCnt n
  runNext d (lowestOf d n) &&
    ((match c.wr with | some v => decide (perLimit o c ≤ v.toNat + 1) | none => false) ||
     (!lnkWrap c && ((d.chOut n).writes.any fun w => w.direct && w.reg == 8) && decide (o.per.toNat ≤ (countNext d n).1.toNat + 1)))

/-- The counter of channel `n` in the next TCLK. -/
def nextCnt (d : Dev) (n : Nat) : ChanCnt :=
  let o := d.chOut n
  let c := d.chCnt n
  let q := countNext d n
  { c with
    cnt := q.1, wr := none, term := false, rst := false, carry := false, go := false, goCmd := false, halt := false
    cut := cutsNext d n (landOut d n o) || (c.cut && !q.2), down := downNext d n, run := runNext d n
    divc := if o.starting || c.rst || (c.go && (!c.run || retriggered d n)) then 0
      else if o.enNow && c.run && !isStage d n then (if advances c then 0 else c.divc + 1) else c.divc
    mr := c.mr && !q.2, mf := c.mf && !q.2, edge := false, mactNow := c.mact }

/-- The output stage of channel `n` as this TCLK leaves it. -/
def nextOut (d : Dev) (n : Nat) : ChanOut :=
  let o := landOut d n (d.chOut n)
  { o with
    stat := if cutsNext d n o then orBit o.stat 10 else o.stat
    writes := [], rel := false, starting := false, enNow := chEn o, changes := 0, lvlWas := o.lvl }

/-- Channels with an output stage or a counter that has left its reset state. -/
def chanKeys (d : Dev) : List Nat :=
  d.ch.out.map (·.1) ++ (d.ch.cnt.map (·.1)).filter fun n => !(d.ch.out.any fun e => e.1 == n)

/-- The counters and output stages pass into the next TCLK, all from the state this one leaves; the quoin locks written in it govern
from now on (R171). -/
def landChannels (d : Dev) : Dev :=
  let d1 := forEach (chanKeys d) (fun n x => (x.updCnt n fun _ => nextCnt d n).updOut n fun _ => nextOut d n) d
  { d1 with ch := { d1.ch with quoinStart := d1.ch.quoin, quoinOpened := 0 } }

/-- The requests due in TCLK `k`, compares first in grain order with CMPR first, or the forces (R176). -/
def dueReqs (forced : Bool) (k : Nat) (o : ChanOut) : List LevelReq :=
  let l := o.reqs.filter fun r => decide (r.due ≤ k) && r.forced == forced
  l.foldl (fun acc r => acc.takeWhile (fun x => decide (x.grain.toNat < r.grain.toNat) || (x.grain == r.grain && (x.level || !r.level)))
    ++ r :: acc.dropWhile (fun x => decide (x.grain.toNat < r.grain.toNat) || (x.grain == r.grain && (x.level || !r.level)))) []

/-- The merge of the requests due for channel `n` (R176), each at its grain of the local TCLK. -/
def mergeDue (forced : Bool) (n : Nat) (d : Dev) : Dev :=
  let o := d.chOut n
  let l := dueReqs forced d.tb.tclk o
  let d1 := d.updOut n fun o => { o with reqs := o.reqs.filter fun r => !(decide (r.due ≤ d.tb.tclk) && r.forced == forced) }
  forEach l (fun r d => levelRequest n r.level d.tb.time (d.localNow + r.grain.toNat) d) d1

/-- The start of a TCLK for channel `n`: LVL takes IDL after an enable and once a disabled channel is at rest (R178, R179), or the
level of the emulation it shows (R181, R182), and the compares due in it merge (R176). `starting` is that of the TCLK before. -/
def openTclk (starting : Bool) (n : Nat) (d : Dev) : Dev :=
  let d1 := if emulated d n then emPut n d.localNow d
    else if starting || atRest d n then takeIdle n d else d
  mergeDue false n d1

end Sys2Proof.Machine
end

