-- ==== Sys2Proof/Machine/Policy.lean ====
section
/-! DEFINITION. Scheduled events when the machine misbehaves (R148–R164): entry actions, policy requests, the policy
matrix, walks, and the disable and enable of channels with armed entries. -/

namespace Sys2Proof.Machine

/-! ### Entry actions (R149) -/

def withdrawEntry (cs k : Nat) (d : Dev) : Dev := putEntry cs k none d

/-- RELEASE: the gate passes for any motion of less than 2³⁰ turns from the angle published with the event, and the entry is no longer
re-timed (R149). -/
def releaseEntry (cs k : Nat) (e : Entry) (coast : Bool) (d : Dev) : Dev :=
  putEntry cs k (some { e with g := angleNow (d.axis e.axis) (endNow d) - 0x4000000000000000#64, mode := true, coast := e.coast || coast }) d

/-- The entry action of an axis event on one entry (R153). -/
def entryAction (kind : PolicyKind) (cs k : Nat) (e : Entry) (d : Dev) : Dev :=
  match kind with
  | .reversal | .stopped => if e.revp = 2 then releaseEntry cs k e false d else withdrawEntry cs k d
  | .syncLost => if e.losp = 1 then releaseEntry cs k e true d else withdrawEntry cs k d
  | _ => withdrawEntry cs k d

/-! ### Raising a policy request (R148, R150, R151, R154) -/

/-- The slugs in the list of axis `a` at an event whose entry does not take the event's action: PARKED, PENDING, and those that an
earlier event has withdrawn and whose service is still to come, in one angle order (R151, R153). -/
def listedSlugs (d : Dev) (a : Nat) : List (Nat × W32) :=
  let live := d.chases.flatMap fun c => chaseEntries c.2
  (sortSlugs (d.gs.slugs.filter fun e => e.2.axis == a && (e.2.state == .parked || e.2.state == .pending ||
    (e.2.state == .armed && !(live.any fun x => x.2.sid == e.1) && !committing d e.1 e.2.seq)))).map fun e => (e.1, e.2.seq)

/-- One axis takes a disturbance: the chases apply its entry actions, but for an entry that commits in this TCLK, the policy request
is queued, POLICY_BUSY is set. -/
def disturbOne (kind : PolicyKind) (a : Nat) (d : Dev) : Dev :=
  let ents := (freeEntries d).filter fun e => e.2.2.axis == a
  let acted := ents.map fun e => (e.2.2.sid, e.2.2.seq)
  let req := UpdReq.policy a kind (absoluteAxis d a) acted (listedSlugs d a) d.tb.time
  let d1 := forEach ents (fun e d => entryAction kind e.1 e.2.1 e.2.2 d) d
  (d1.updQueue (clusterOf a) (· ++ [req])).updAxis a fun x => { x with st := { x.st with policyBusy := true } }

/-- `a` follows `m` through a chain of virtual axes (R154). -/
def follows (d : Dev) (m : Nat) : Nat → Nat → Bool
  | 0, _ => false
  | k + 1, a => axKind (d.axis a) == 2 && (axSrc (d.axis a) == m || follows d m k (axSrc (d.axis a)))

/-- The enabled virtual axes that follow `m`. -/
def followers (d : Dev) (m : Nat) : List Nat :=
  (d.ax.axes.filter fun e => axEn e.2 && follows d m 4 e.1).map (·.1)

/-- R148, R154: a disturbance of axis `a` and of every virtual axis on it in the same TCLK; a disable or RESYNC of a
master is SEARCH entered for its virtual axes. -/
def disturb (kind : PolicyKind) (a : Nat) (d : Dev) : Dev :=
  let vk := match kind with | .disabled | .resync => PolicyKind.search | k => k
  forEach (followers d a) (fun v d => disturbOne vk v d) (disturbOne kind a d)

/-! ### The policy matrix (R153) -/

def polCount (f : PolicyCounts → PolicyCounts) (d : Dev) : Dev := { d with ax := { d.ax with pol := f d.ax.pol } }
def parkSlug (sid : Nat) (d : Dev) : Dev := d.updSlug sid fun s => { s with state := .parked }

/-- The bookkeeping of one slug whose entry was acted on (the ARMED column). A slug changed meanwhile is skipped. -/
def serveEntry (kind : PolicyKind) (absolute : Bool) (t : Time64) (e : Nat × W32) (d : Dev) : Dev :=
  let s := d.slug e.1
  let still := s.state == .armed && s.seq == e.2
  match kind with
  | .reversal | .stopped =>
    if s.revp = 2 then polCount (fun p => { p with revFired := incSat p.revFired }) d
    else if !still then d
    else if s.revp = 1 then
      polCount (fun p => { p with revCancelled := incSat p.revCancelled }) (cancelSlug e.1 6 t d)
    else polCount (fun p => { p with revParked := incSat p.revParked }) (parkSlug e.1 d)
  | .syncLost =>
    if s.losp = 1 then polCount (fun p => { p with lospCoasted := incSat p.lospCoasted }) d
    else if !still then d
    else if s.losp = 2 then
      polCount (fun p => { p with lospCancelled := incSat p.lospCancelled }) (cancelSlug e.1 7 t d)
    else polCount (fun p => { p with lospHeld := incSat p.lospHeld }) (parkSlug e.1 d)
  | .suppressed =>
    if still then polCount (fun p => { p with suppressedMissed := incSat p.suppressedMissed }) (missSlug e.1 5 t d) else d
  | .search =>
    if !still then d
    else if absolute then parkSlug e.1 d
    else polCount (fun p => { p with searchCancelled := incSat p.searchCancelled }) (cancelSlug e.1 8 t d)
  | .disabled | .resync =>
    if still then polCount (fun p => { p with searchCancelled := incSat p.searchCancelled }) (cancelSlug e.1 8 t d) else d

/-- The walk over one slug (the PARKED and PENDING columns). -/
def walkSlug (kind : PolicyKind) (absolute : Bool) (t : Time64) (e : Nat × W32) (d : Dev) : Dev :=
  let s := d.slug e.1
  let pending := s.state == .pending
  if s.seq != e.2 || !(pending || s.state == .parked) then d
  else match kind with
  | .reversal | .stopped =>
    if !pending then d
    else if s.revp = 1 then
      polCount (fun p => { p with revCancelled := incSat p.revCancelled }) (cancelSlug e.1 6 t d)
    else if s.revp = 0 then polCount (fun p => { p with revParked := incSat p.revParked }) (parkSlug e.1 d)
    else parkSlug e.1 d
  | .syncLost =>
    if s.losp = 2 then
      polCount (fun p => { p with lospCancelled := incSat p.lospCancelled }) (cancelSlug e.1 7 t d)
    else if pending then polCount (fun p => { p with lospHeld := incSat p.lospHeld }) (parkSlug e.1 d)
    else d
  | .search =>
    if absolute then (if pending then parkSlug e.1 d else d)
    else polCount (fun p => { p with searchCancelled := incSat p.searchCancelled }) (cancelSlug e.1 8 t d)
  | .disabled | .resync =>
    polCount (fun p => { p with searchCancelled := incSat p.searchCancelled }) (cancelSlug e.1 8 t d)
  | .suppressed => d

/-! ### Service (R25, R150, R151) -/

/-- The odd engine of a checked pair has no budget and no work of its own (R23, R276). -/
def shadowed (d : Dev) (e : Nat) : Bool := (d.eng e).paired && e % 2 == 1

/-- R25: engine `e` may take a request of axis `a`: it is online, of its cluster and holds a credit. -/
def canServe (d : Dev) (e a : Nat) : Bool :=
  e / 4 == clusterOf a && (d.eng e).online && !shadowed d e && decide (0 < (d.eng e).credits)

/-- R25, R28: context 1 has spent `cost` ECLK on a request: one credit for every 120 or part of it, at least one, and the cycles of the
tick's load. -/
def chargeCredits (e cost : Nat) (d : Dev) : Dev :=
  d.updEng e fun g => { g with credits := g.credits - (max 1 ((cost + 119) / 120) : Nat), cycles := g.cycles + cost }

def isPolicyOf (a : Nat) (r : UpdReq) : Bool := match r with | .policy b _ _ _ _ _ => b == a | _ => false

/-- A policy request of axis `a` that a walk follows (R151). -/
def walksFor (a : Nat) (r : UpdReq) : Bool := match r with | .policy b k _ _ _ _ => b == a && k != .suppressed | _ => false

/-- R26, R150: the request of a queue that is served next: the oldest, but of an axis with a policy request that one before its update
request. -/
def nextReq (q : List UpdReq) : Option UpdReq :=
  match q with
  | [] => none
  | .update a :: rest => some ((rest.find? (isPolicyOf a)).getD (.update a))
  | r :: _ => some r

/-- Engine `e` serves a policy request: the bookkeeping of the entries acted on; its walk passes to the service context. -/
def servePolicy (e : Nat) (r : UpdReq) (d : Dev) : Dev :=
  match r with
  | .policy a kind ab ents _ t =>
    let d1 := settleGranted (d.updQueue (clusterOf a) fun q => q.erase r)
    let d2 := chargeCredits e (12 * ents.length) (forEach ents (serveEntry kind ab t) d1)
    if kind = .suppressed then d2 else { d2 with ax := { d2.ax with walks := d2.ax.walks ++ [r] } }
  | _ => d

/-- POLICY_WALK: the oldest walk of axis `a` runs; POLICY_BUSY falls when no request or walk of the axis is left. -/
def policyWalk (a : Nat) (d : Dev) : Dev :=
  match d.ax.walks.find? (isPolicyOf a) with
  | some (.policy b kind ab ents sids t) =>
    let d1 := forEach sids (walkSlug kind ab t)
      (settleGranted { d with ax := { d.ax with walks := d.ax.walks.erase (.policy b kind ab ents sids t) } })
    if d1.ax.walks.any (walksFor a) || (d1.queue (clusterOf a)).any (walksFor a) ||
        d1.ne.any (fun g => match g.2.taken with | some r => walksFor a r | none => false) then d1
    else d1.updAxis a fun x => { x with st := { x.st with policyBusy := false } }
  | _ => d

/-! ### Channel disable and enable (R159–R161, R178–R180) -/

/-- Does the entry act on channel `n`? Actions without a channel are never suppressed (R161). -/
def entryOfChan (n : Nat) (e : Entry) : Bool := e.chan == n && (decide (e.act ≤ 4) || e.act == 7)

/-- CHANNEL_DISABLE: the stage takes EN = 0 and its armed entries are suppressed (R159, R178). -/
def channelDisable (n : Nat) (d : Dev) : Dev :=
  if chEn (d.chOut n) then
    forEach ((freeEntries d).filter fun e => entryOfChan n e.2.2)
      (fun e d => putEntry e.1 e.2.1 (some { e.2.2 with supp := true }) d) (channelStop n d)
  else d

/-- R160: a suppressed entry of the channel at its re-enable: withdrawn if T − Lnom has come, else unsuppressed. -/
def unsuppress (e : Nat × Nat × Entry) (d : Dev) : Dev :=
  let x := e.2.2
  if atOrAfter d.tb.time (plusInt x.t (-((leadNom x.act x.chan x.lead * 64 : Nat) : Int))) then
    (withdrawEntry e.1 e.2.1 d).updQueue (clusterOf x.axis)
      (· ++ [.policy x.axis .suppressed false [(x.sid, x.seq)] [] d.tb.time])
  else putEntry e.1 e.2.1 (some { x with supp := false }) d

/-- CHANNEL_ENABLE: refused with CFG_ERR, or the stage takes EN = 1 (R179, R180, R160). -/
def channelEnable (n : Nat) (d : Dev) : Dev :=
  if chEn (d.chOut n) then d
  else if enableRefused d n then chFlag n 3 d
  else forEach ((freeEntries d).filter fun e => entryOfChan n e.2.2 && e.2.2.supp) unsuppress (channelStart n d)

/-- A write to CHnnn_CTL (R180, R499): CMODE, RLD, QEN and QG are locked while EN = 1; RLD 11b is refused. -/
def chCtlWrite (n : Nat) (v : W32) (d : Dev) : Dev :=
  let o := d.chOut n
  let v := v &&& 0xFFF00000#32
  let badRld := fld v 27 2 == 3
  let v := if badRld then setFld v 27 2 (chRld o) else v
  let d := if badRld then chFlag n 3 d else d
  if chEn o then
    let d1 := if (v ^^^ o.ctl) &&& 0x7BF00000#32 ≠ 0 then chFlag n 2 d else d
    let d2 := d1.updOut n fun o => { o with ctl := putBit o.ctl 26 (bit v 26) }
    if bit v 31 then d2 else channelDisable n d2
  else
    let d1 := d.updOut n fun o => { o with ctl := clrBit v 31 }
    if bit v 31 then channelEnable n d1 else d1

end Sys2Proof.Machine
end

