-- ==== Sys2Proof/Machine/Axis.lean ====
section
/-! DEFINITION. Axis tracks (R91–R117): the interpolation law, acceptance, windows, ghosts and absorption, references and
slips, reversal and standstill, sync states, seeding, model and segment loads, the least-squares fit, virtual axes. -/

namespace Sys2Proof.Machine

/-! ### Fields and small parts -/

def axCatchup (x : Axis) : Bool := bit x.cfg.cfg 22
def axGhen (x : Axis) : Bool := bit x.cfg.cfg 21
def axAutors (x : Axis) : Bool := bit x.cfg.cfg 20
/-- FITM1; 00000b is used as 00001b. -/
def axFit (x : Axis) : Nat := max 1 (fld x.cfg.cfg 15 5) + 1

/-- A W1C event bit of AXnnnn_STAT, with its interrupt record. -/
def axFlag (a b : Nat) (d : Dev) : Dev :=
  axisEvent a b (d.updAxis a fun x => { x with st := { x.st with stat := orBit x.st.stat b } })

/-- R47: an engine adds S to a stamp of the previous generation. -/
def fixStamp (d : Dev) (s : Time64) (sg : BitVec 2) : Time64 := if sg = d.tb.stepGen - 1 ∧ sg ≠ d.tb.stepGen then s + d.tb.lastS else s

/-- R100: the windows of the next tooth of the track's span, from stamp `s` and predicted time `p`. -/
def withWindows (x : Axis) (s p : Time64) : Axis :=
  let n : Int := x.trk.span
  let iv : Int := x.trk.pace.ivl
  let base := if atOrAfter s p then s else p
  { x with trk := { x.trk with
      p := p
      predict := plusInt s (n * iv / 2 ^ 16)
      early := plusInt base ((fld x.cfg.win 0 16 : Int) * n * iv / 2 ^ 24)
      deadline := plusInt s (((n - 1) * 256 + (fld x.cfg.win 16 16 : Int)) * iv / 2 ^ 24)
      dueAt := none, decided := false } }

/-- R96: mm at `now` for a tooth of stamp `s`, halted one micro-tick short as the law halts it (R95, R97). -/
def elapsed (x : Axis) (s now : Time64) : Nat := min (x.trk.pace.rate * (sdiff now s).toNat / 64 / 2 ^ 32) (limitOf x - 1)

def rateMax : Int := 2 ^ 48 - 1
def ivlMax : Int := 2 ^ 64 - 1
/-- Saturation at 0 and at the largest value of the format (R95). -/
def clampTo (m v : Int) : Nat := (max 0 (min v m)).toNat

/-- RATE and ivl moved on by `n` slots (R96, R99). -/
def rollPace (p : Pacing) (n : Int) : Pacing :=
  { p with rate := clampTo rateMax (p.rate + p.drate * n), ivl := clampTo ivlMax (p.ivl + p.divl * n) }

/-! ### The law of R95 -/

/-- One TCLK of the law, for a physical axis with MODEL = 1; a tooth or a ghost of this TCLK has set mm already (R96). -/
def lawStep (x : Axis) : Axis :=
  if axEn x && axKind x == 0 && x.st.model && !x.trk.took then
    let t := x.trk
    let tot := t.acc + t.pace.rate
    let step := tot / 2 ^ 32
    let mm := min (t.mm + step) (limitOf x - 1)
    let m : Int := if t.catching then min (t.m + 2 * step) mm else max t.m mm
    { x with trk := { t with acc := tot % 2 ^ 32, mm := mm, m := m, catching := t.catching && decide (m ≠ mm),
                             halted := mm == limitOf x - 1 } }
  else x

/-- The law of one TCLK of axis `a`, and the TCLK in which TIME64 reaches its deadline (R95, R102). -/
def lawTclk (a : Nat) (d : Dev) : Dev :=
  d.updAxis a fun x =>
    let y := lawStep x
    { y with trk := { y.trk with
      dueAt := if y.trk.dueAt.isNone && y.st.model && atOrAfter d.tb.time y.trk.deadline then some d.tb.tclk else y.trk.dueAt } }

/-- The angle that axis `a` publishes at the end of the TCLK, with its sync state and DIR (R92, R136, R183). -/
def publish (a : Nat) (d : Dev) : Dev :=
  let now := endNow d
  let sync := syncOf d a
  let back := dirOf d 5 a
  d.updAxis a fun x =>
    if axEn x then { x with trk := { x.trk with ang := angleNow x now, angT := now, pubSync := sync, pubDir := back, took := false } }
    else x

/-! ### Virtual axes (R112) -/

/-- The segment of virtual axis `v` computed from its master at the present TCLK. -/
def virtualSegment (d : Dev) (v : Nat) : Segment :=
  let x := d.axis v
  let m := d.axis (axSrc x)
  let g := x.cfg.gear
  let tc := d.tb.time
  let inForce := if axKind m = 0 then m.st.model else m.mdl.segOn
  let alive := match syncOf d (axSrc x) with | .search | .syncLost => false | _ => true
  if inForce && alive then
    let s := segAt m.mdl.seg tc
    ⟨gearMul g s.theta0 + x.cfg.ofs, tc, gearMul g s.w, gearMul g s.a⟩
  else ⟨gearMul g m.trk.ang + x.cfg.ofs, tc, 0, 0⟩

/-- VIRTUAL_SEGMENT: the computation and load of one virtual axis, and the re-timing of its entries. -/
def loadVirtual (v : Nat) (d : Dev) : Dev :=
  let x := d.axis v
  if axEn x && axKind x == 2 then
    let s := virtualSegment d v
    retimeAxis v (d.updAxis v fun x => { x with mdl := { x.mdl with seg := s, segOn := true } })
  else d

/-- The enabled virtual axes whose SRC is in `l`. -/
def virtualsOf (d : Dev) (l : List Nat) : List Nat :=
  (d.ax.axes.filter fun e => axEn e.2 && axKind e.2 == 2 && l.contains (axSrc e.2)).map (·.1)

/-- After a model or segment load of `a`: its virtual axes, masters before followers (R112). -/
def refreshVirtuals (a : Nat) (d : Dev) : Dev :=
  let l1 := virtualsOf d [a]
  let l2 := virtualsOf d l1
  let l3 := virtualsOf d l2
  let l4 := virtualsOf d l3
  forEach (l1 ++ l2 ++ l3 ++ l4) loadVirtual d

/-! ### Sync states (R108) -/

def setSync (s : Sync) (a : Nat) (d : Dev) : Dev := d.updAxis a fun x => { x with st := { x.st with sync := s } }

/-- No model is in force: RATE 0, MODEL 0, no fit points (R106). Teeth held for a ghost that will not come are discarded (log entry
79: DESIGN CHOICE). -/
def dropModel (x : Axis) : Axis :=
  { x with st := { x.st with model := false }
           trk := { x.trk with pace := { x.trk.pace with rate := 0 }, catching := false, held := [] }
           mdl := { x.mdl with points := [], upd := none } }

/-- SEARCH entered: VALID 0, no model (R108, R109). -/
def toSearch (x : Axis) : Axis :=
  let y := dropModel x
  { y with st := { y.st with sync := .search, valid := false }, trk := { y.trk with learn := none },
           mdl := { y.mdl with segOn := false, samples := [] } }

/-- An entry to SEARCH from a running state: a disturbance (R108, R148). -/
def enterSearch (a : Nat) (d : Dev) : Dev := disturb .search a (d.updAxis a toSearch)

/-- SYNC_LOST entered: LOST, LOSTC, the angle halted (R104, R108). -/
def enterLost (a : Nat) (d : Dev) : Dev :=
  let d1 := d.updAxis a fun x =>
    let y := dropModel x
    { y with
      st := { y.st with sync := .syncLost, lostc := incSat y.st.lostc, ticks := 0 }
      trk := if axKind y = 0 then
          { y.trk with mm := limitOf y - 1, m := limitOf y - 1, halted := true }
        else y.trk
      mdl := { y.mdl with segOn := false } }
  disturb .syncLost a (axFlag a 12 d1)

/-! ### Reference teeth (R105, R111) -/

def attrSlot (w : W32) : Nat := fld w 16 16
def attrGapk (w : W32) : Nat := fld w 8 8
def attrPat (w : W32) : Nat := fld w 6 2
def attrSg (w : W32) : BitVec 2 := BitVec.ofNat 2 (fld w 4 2)
def attrIdx (w : W32) : Bool := bit w 2
def attrRev (w : W32) : Bool := bit w 0

/-- R105: the expected slot if the tooth is a reference tooth. -/
def referenceSlot (d : Dev) (a : Nat) (attr : W32) : Option Int :=
  let x := d.axis a
  match axRef x with
  | 2 => if attrIdx attr then some 0 else none
  | 1 =>
    if axTpt x = 0 then none
    else match feedingDecoder d a with
      | none => none
      | some n => match (gapsOf (d.dec n).cfg).find? (fun g => g.2.2) with
        | none => none
        | some g =>
          if attrPat attr == 2 || (attrPat attr == 3 && attrGapk attr == g.2.1) then
            some (if attrRev attr then ((g.1 : Int) - g.2.1 - 1) % (axTpt x : Int) else g.1)
          else none
  | _ => none

/-- R105: e, reduced into (−TPT/2, TPT/2]. -/
def slipOf (tpt c want : Int) : Int :=
  let r := (c - want) % tpt
  if tpt < 2 * r then r - tpt else r

/-- R105 at an accepted or absorbed tooth, which found the axis in state `was`; `s` and `p` are those of its windows. The rows of R108
are taken in their order, so that a tooth that is also a reversal is checked in the state it found. -/
def checkReference (was : Sync) (a : Nat) (attr : W32) (s p : Time64) (d : Dev) : Dev :=
  let x := d.axis a
  match (if axTpt x = 0 then none else referenceSlot d a attr) with
  | none => d
  | some want =>
    let e := slipOf (axTpt x) x.trk.c want
    if e = 0 then d
    else match was with
      | .locking => enterSearch a d
      | .locked | .ghosted =>
        let c := x.trk.c - e
        let span := expectedSpan d a c x.st.dir
        axFlag a 11 (d.updAxis a fun x =>
          let y := { x with
            trk := { x.trk with c := c, anchorAng := angOf x.cfg c, span := span }
            st := { x.st with slipc := incSat x.st.slipc, slipv := BitVec.ofInt 32 e } }
          let z := { y with trk := { y.trk with mm := min y.trk.mm (limitOf y - 1), m := min y.trk.m ((limitOf y : Int) - 1) } }
          if z.st.model then withWindows z s p else z)
      | _ => d

/-! ### Acceptance (R96) -/

/-- The count, anchor and pacing of an accepted tooth or a ghost of stamp `s`. Without a model nothing is early: there is no angle
short of the anchor to catch up from (log entry 80: DEDUCED). -/
def acceptAt (a : Nat) (s : Time64) (ghost : Bool) (d : Dev) : Dev :=
  let x := d.axis a
  let p := x.trk.predict
  let n : Int := x.trk.span
  let c := if x.st.dir then x.trk.c - n else x.trk.c + n
  let span := expectedSpan d a c x.st.dir
  let early := x.st.model && !x.trk.halted && !ghost
  let now := endNow d
  d.updAxis a fun x =>
    let pace := if x.st.model then rollPace x.trk.pace n else x.trk.pace
    let y := { x with trk := { x.trk with c := c, anchorAng := angOf x.cfg c, anchorT := s, pace := pace, span := span } }
    let e := elapsed y s now
    let catch_ := early && axCatchup y
    let z := { y with trk := { y.trk with
      mm := e, took := true, catching := catch_, halted := e == limitOf y - 1,
      m := if catch_ then x.trk.m - (limitOf x : Int) else (e : Int) } }
    if z.st.model then withWindows z s p else z

/-- R98: the update tooth an engine will fit at its service. -/
def noteUpdate (a : Nat) (upd : Bool) (s : Time64) (sg : BitVec 2) (ok inWin : Bool) (d : Dev) : Dev :=
  if upd && (d.axis a).st.sync != .search then
    d.updAxis a fun x => { x with mdl := { x.mdl with upd := some (s, sg, x.trk.c, ok), updIn := inWin } }
  else d

/-- What every accepted tooth does: STOPPED clears, the reference check, the update record. -/
def afterTooth (was : Sync) (a : Nat) (attr : W32) (upd : Bool) (s p : Time64) (inWin : Bool) (d : Dev) : Dev :=
  let d1 := d.updAxis a fun x => { x with st := { x.st with stopped := false }, trk := { x.trk with lastTooth := d.tb.tclk } }
  noteUpdate a upd s d.tb.stepGen true inWin (checkReference was a attr s p d1)

/-- R106: a tooth against the track's direction. -/
def reversal (a : Nat) (attr : W32) (s : Time64) (d : Dev) : Dev :=
  let x := d.axis a
  let rev := attrRev attr
  let n : Int := expectedSpan d a x.trk.c rev
  let c := if rev then x.trk.c - n else x.trk.c + n
  let span := expectedSpan d a c rev
  let d1 := d.updAxis a fun x =>
    let y := dropModel x
    { y with
      st := { y.st with dir := rev, sync := if y.st.sync = .locked ∨ y.st.sync = .ghosted then .locking else y.st.sync }
      trk := { y.trk with c := c, anchorAng := angOf x.cfg c, anchorT := s, m := 0, mm := 0, halted := false, span := span } }
  disturb .reversal a (axFlag a 7 d1)

/-- R107: STOPPED, in every sync state: as a reversal, but no tooth moves the count, and DIR and m stay. -/
def stopAxis (a : Nat) (d : Dev) : Dev :=
  let x := d.axis a
  if axEn x && axKind x == 0 && !x.st.stopped then
    disturb .stopped a (axFlag a 7 (d.updAxis a fun x =>
      let y := dropModel x
      { y with st := { y.st with stopped := true, sync := if y.st.sync = .locked ∨ y.st.sync = .ghosted then .locking else y.st.sync } }))
  else d

/-- R107: no tooth has been accepted, and no ghost has fallen due, for STOP_TIME TCLK. -/
def stopDue (d : Dev) (a : Nat) : Bool :=
  let x := d.axis a
  axEn x && axKind x == 0 && !x.st.stopped && decide (x.trk.lastTooth + x.cfg.stop.toNat ≤ d.tb.tclk)

/-- The first tooth of a track that leaves SEARCH with count `c` (R108). -/
def startTrack (a : Nat) (c : Int) (attr : W32) (upd : Bool) (s : Time64) (d : Dev) : Dev :=
  let rev := attrRev attr
  let span := expectedSpan d a c rev
  let d1 := d.updAxis a fun x => { x with
    st := { x.st with sync := .locking, valid := true, dir := rev, stopped := false }
    trk := { x.trk with c := c, anchorAng := angOf x.cfg c, anchorT := s, m := 0, mm := 0, acc := 0, catching := false,
                        halted := false, span := span, lastTooth := d.tb.tclk, learn := none } }
  noteUpdate a upd s d.tb.stepGen true true d1

/-- A tooth in SEARCH (R108, R111). -/
def searchTooth (a : Nat) (attr : W32) (upd : Bool) (s : Time64) (d : Dev) : Dev :=
  let x := d.axis a
  let rev := attrRev attr
  match axRef x with
  | 0 => startTrack a 0 attr upd s d
  | 3 => d
  | _ =>
    if axRef x == 2 && axTpt x == 0 then
      let c := if rev then x.trk.c - 1 else x.trk.c + 1
      let d1 := d.updAxis a fun x => { x with trk := { x.trk with c := c } }
      let relearn (d : Dev) : Dev := d.updAxis a fun x => { x with trk := { x.trk with learn := some (c, rev) } }
      if !attrIdx attr then d1
      else match x.trk.learn with
        | none => relearn d1
        | some (c0, rev0) =>
          if rev0 != rev then relearn d1
          else
            let diff := if rev then c0 - c else c - c0
            if 1 ≤ diff ∧ diff ≤ 16777216 then
              startTrack a 0 attr upd s (d1.updAxis a fun x => { x with cfg := { x.cfg with tpt := BitVec.ofInt 32 diff } })
            else axFlag a 19 (relearn d1)
    else match referenceSlot d a attr with
      | some c => startTrack a c attr upd s d
      | none => d

/-! ### Ghosts (R102–R104) -/

/-- R102: the conditions of a ghost but for the sync state. -/
def ghostReady (x : Axis) : Bool :=
  axEn x && axKind x == 0 && axGhen x && x.st.model && decide (x.trk.pace.ivl ≤ (fld x.cfg.ghmax 0 32) * 64 * 65536)

/-- GD in TCLK (R102). -/
def ghostDelay (d : Dev) (a : Nat) : Nat :=
  match feedingDecoder d a with
  | none => 8
  | some n =>
    let c := d.dec n
    fld (d.pin n).pin 0 8 + 5 + (if fld c.cfg.tdc 2 3 = 4 then fld c.cfg.pwt2 0 20 else 0)

/-- R103: absorption of a real tooth in place of the ghost. -/
def absorb (a : Nat) (attr : W32) (upd : Bool) (s : Time64) (d : Dev) : Dev :=
  let now := endNow d
  let p := (d.axis a).trk.p
  let d1 := d.updAxis a fun x =>
    let e := elapsed x s now
    { x with
      st := { x.st with sync := .locked, stopped := false }
      trk := { x.trk with anchorT := s, mm := e, took := true, m := max x.trk.m e, halted := e == limitOf x - 1,
                          lastTooth := d.tb.tclk } }
  noteUpdate a upd s d.tb.stepGen true true (checkReference .ghosted a attr p p (axFlag a 9 d1))

/-- One tooth in a running state (R101–R106). A tooth against DIR is a reversal whatever its stamp (log entry 80: DEDUCED). -/
def runningTooth (a : Nat) (attr : W32) (upd : Bool) (s : Time64) (d : Dev) : Dev :=
  let x := d.axis a
  if attrRev attr != x.st.dir then
    afterTooth x.st.sync a attr upd s s true (reversal a attr s d)
  else if x.st.sync == .ghosted && atOrAfter s x.trk.ghostDl &&
      decide (sdiff s (plusInt x.trk.ghostDl ((x.trk.pace.ivl : Int) / 131072)) < 0) then
    absorb a attr upd s d
  else if x.st.model && decide (sdiff s x.trk.early < 0) then
    noteUpdate a upd s d.tb.stepGen false false
      (axFlag a 8 (d.updAxis a fun x => { x with st := { x.st with earlyc := incSat x.st.earlyc } }))
  else
    let p := x.trk.predict
    let late := x.st.model && atOrAfter s x.trk.deadline
    let d1 := acceptAt a s false d
    let d2 := if x.st.sync = .ghosted then setSync .locked a d1 else d1
    afterTooth x.st.sync a attr upd s p (!late) d2

/-- A tooth of the decoder that feeds axis `a` reaches its track. A tooth stamped at or after the deadline waits for the
ghost until it has been decided (R102). -/
def trackTooth (a : Nat) (stamp : Time64) (attr : W32) (upd : Bool) (d : Dev) : Dev :=
  let x := d.axis a
  let s := fixStamp d stamp (attrSg attr)
  if !axEn x || axKind x != 0 then d
  else match x.st.sync with
    | .search => searchTooth a attr upd s d
    | .syncLost => if axAutors x then enterSearch a d else d
    | .locking | .coasting => runningTooth a attr upd s d
    | _ =>
      if ghostReady x && !x.trk.decided && atOrAfter s x.trk.deadline then
        d.updAxis a fun x => { x with trk := { x.trk with held := x.trk.held ++ [(s, attr, upd)] } }
      else runningTooth a attr upd s d

/-- The teeth held for the ghost are processed after it. -/
def releaseHeld (a : Nat) (l : List (Time64 × W32 × Bool)) (d : Dev) : Dev :=
  forEach l (fun e d =>
    match (d.axis a).st.sync with
    | .syncLost => if axAutors (d.axis a) then enterSearch a d else d
    | .search => searchTooth a e.2.1 e.2.2 e.1 d
    | _ => runningTooth a e.2.1 e.2.2 e.1 d) d

/-- GHOST: no tooth has come by deadline + GD: a ghost, or SYNC_LOST at the second one (R102, R104). -/
def ghostDue (a : Nat) (d : Dev) : Dev :=
  let x := d.axis a
  let held := x.trk.held
  let d := d.updAxis a fun x => { x with trk := { x.trk with held := [], decided := true } }
  if !ghostReady x then releaseHeld a held d
  else match x.st.sync with
    | .locked =>
      let dl := x.trk.deadline
      let p := x.trk.predict
      let d1 := acceptAt a p true d
      let d2 := axFlag a 10 (d1.updAxis a fun x => { x with
        st := { x.st with sync := .ghosted, ghostc := incSat x.st.ghostc }
        trk := { x.trk with ghostDl := dl, lastTooth := d.tb.tclk } })
      releaseHeld a held d2
    | .ghosted => releaseHeld a held (enterLost a d)
    | _ => releaseHeld a held d

/-- GD TCLK after the deadline the ghost is decided, once (R102). -/
def ghostDecides (d : Dev) (a : Nat) : Bool :=
  let x := d.axis a
  axEn x && axKind x == 0 && !x.trk.decided &&
    (match x.trk.dueAt with | some k => decide (k + ghostDelay d a ≤ d.tb.tclk) | none => false)

/-! ### Loads (R99, R264, R154) -/

/-- What a model load carries: the count it was fitted at, the pacing, the model of angle against time. -/
structure ModelLoad where
  c : Int
  pace : Pacing
  seg : Option Segment
  setModel : Bool
  deriving DecidableEq, Repr

/-- R99: a model load may take effect. -/
def loadValid (d : Dev) (a : Nat) : Bool :=
  axEn (d.axis a) && (match (d.axis a).st.sync with | .search | .syncLost => false | _ => true)

/-- R99: the load: teeth accepted since the fitted tooth are rolled forward; the anchor and m stay; at the load that sets
MODEL the windows are formed from the anchored tooth. -/
def loadModel (a : Nat) (l : ModelLoad) (d : Dev) : Dev :=
  if loadValid d a then
    d.updAxis a fun x =>
      let slots := if x.st.dir then l.c - x.trk.c else x.trk.c - l.c
      let first := !x.st.model && l.setModel
      let y := { x with
        trk := { x.trk with pace := rollPace l.pace slots }
        st := { x.st with model := x.st.model || l.setModel }
        mdl := { x.mdl with seg := l.seg.getD x.mdl.seg } }
      if first then withWindows y y.trk.anchorT y.trk.anchorT else y
  else d

/-- R154: a segment load of a remote or master-derived axis with speed 0 is its STOPPED, and one with the sign opposite to the segment
before it its reversal. -/
def segmentEvent (a : Nat) (old new : Segment) (wasOn : Bool) (d : Dev) : Dev :=
  if new.w = 0 then disturb .stopped a d
  else if wasOn && old.w != 0 && decide (old.w.toInt < 0) != decide (new.w.toInt < 0) then disturb .reversal a (axFlag a 7 d)
  else d

/-- SEGLD (R264): the segment of a remote, virtual or master-derived axis; its entries are re-timed and its virtual
followers computed afresh. -/
def loadSegment (a : Nat) (s : Segment) (d : Dev) : Dev :=
  let x := d.axis a
  if axEn x && (axKind x == 1 || axKind x == 2 || axKind x == 3) then
    let d1 := d.updAxis a fun x => { x with
      mdl := { x.mdl with seg := s, segOn := true }
      st := if axKind x = 2 then x.st
        else { x.st with dir := if s.w = 0 then x.st.dir else decide (s.w.toInt < 0), stopped := s.w == 0 } }
    let d2 := if axKind x = 2 then d1 else segmentEvent a x.mdl.seg s x.mdl.segOn d1
    refreshVirtuals a (retimeAxis a d2)
  else d

/-! ### The least-squares fit (R98) -/

/-- Sums of x^k, k = 0–4, and of y·x^k, k = 0–2, over the points, relative to the newest. -/
def fitSums (pts : List (Int × Int)) : Int × Int × Int × Int × Int × Int × Int × Int :=
  pts.foldl (fun (s0, s1, s2, s3, s4, t0, t1, t2) (x, y) =>
    (s0 + 1, s1 + x, s2 + x * x, s3 + x * x * x, s4 + x * x * x * x, t0 + y, t1 + x * y, t2 + x * x * y))
    (0, 0, 0, 0, 0, 0, 0, 0)

def det3 (a b c d e f g h i : Int) : Int := a * (e * i - f * h) - b * (d * i - f * g) + c * (d * h - e * g)

/-- Cramer's rule for y = b0 + b1·x + b2·x² in least squares: the determinants D, D0, D1, D2. -/
def fitDets (pts : List (Int × Int)) : Int × Int × Int × Int :=
  let (s0, s1, s2, s3, s4, t0, t1, t2) := fitSums pts
  (det3 s0 s1 s2 s1 s2 s3 s2 s3 s4, det3 t0 s1 s2 t1 s2 s3 t2 s3 s4,
   det3 s0 t0 s2 s1 t1 s3 s2 t2 s4, det3 s0 s1 t0 s1 s2 t1 s2 s3 t2)

/-- Quotient of integers with a divisor of either sign, rounded down, plus the rounding bit `r` when it is inexact (log entry 7: the manual
states no rounding of a fitted value, so `r` is free). -/
def roundQ (num den : Int) (r : Bool) : Int :=
  (if den < 0 then (-num) / (-den) else num / den) + (if r && decide (num % den ≠ 0) then 1 else 0)

/-- The model fitted to `pts` (stamp, angle), newest first, in an axis of TPT `tpt` and MTB `mtb`; none with fewer than
three distinct stamps, or a speed at the newest stamp that is zero or against the direction (R98). -/
def fitModel (pts : List FitPoint) (tpt mtb : Nat) (rev : Bool) (r : W64) : Option ModelLoad :=
  match pts with
  | [] => none
  | newest :: _ =>
    let rel := pts.map fun p => (sdiff p.stamp newest.stamp, sdiff p.ang newest.ang)
    let (dd, d0, d1, d2) := fitDets rel
    if dd = 0 ∨ d1 = 0 ∨ tpt = 0 then none
    else
      let neg := decide (d1 < 0) != decide (dd < 0)
      if neg != rev then none
      else
        let ad : Int := dd.natAbs
        let a1 : Int := d1.natAbs
        let k : Int := 64 * 2 ^ mtb
        let t : Int := tpt
        some {
          c := newest.c
          pace := {
            rate := clampTo rateMax (roundQ (a1 * k * t) ad (bit r 0))
            drate := roundQ (k * 2 * d2 * 2 ^ 32) d1 (bit r 1)
            ivl := clampTo ivlMax (roundQ (ad * 2 ^ 48) (t * a1) (bit r 2))
            divl := roundQ (-(2 * d2 * dd * dd * 2 ^ 80)) (d1 * d1 * d1 * t * t) (bit r 3) }
          seg := some ⟨plusInt newest.ang (roundQ d0 dd (bit r 4)), newest.stamp,
            BitVec.ofInt 64 (roundQ (d1 * 2 ^ 32) dd (bit r 5)), BitVec.ofInt 64 (roundQ (2 * d2 * 2 ^ 64) dd (bit r 6))⟩
          setModel := true }

/-- R114: the segment of a remote axis fitted to its samples, anchored at the newest; a speed of zero is loaded too (R154). -/
def fitSegment (pts : List FitPoint) (r : W64) : Option Segment :=
  match pts with
  | [] => none
  | newest :: _ =>
    let rel := pts.map fun p => (sdiff p.stamp newest.stamp, sdiff p.ang newest.ang)
    let (dd, d0, d1, d2) := fitDets rel
    if dd = 0 then none
    else some ⟨plusInt newest.ang (roundQ d0 dd (bit r 4)), newest.stamp,
      BitVec.ofInt 64 (roundQ (d1 * 2 ^ 32) dd (bit r 5)), BitVec.ofInt 64 (roundQ (2 * d2 * 2 ^ 64) dd (bit r 6))⟩

/-- R98: the newest update tooth becomes a fit point, older points being brought to the present STEP_GEN (R47). -/
def takePoint (x : Axis) : Axis :=
  match x.mdl.upd with
  | some (s, _, c, true) =>
    { x with mdl := { x.mdl with upd := none, points := (⟨s, c, angOf x.cfg c⟩ :: x.mdl.points).take 33 } }
  | _ => { x with mdl := { x.mdl with upd := none } }

/-- The number of armed entries of an axis that a load re-times (R137). -/
def retimeCount (d : Dev) (a : Nat) : Nat := ((allEntries d).filter fun e => e.2.2.axis == a && !e.2.2.mode).length

/-- R98, R99, R108, R129: an engine serves the update of a physical axis: fit, load, LOCKING to LOCKED, re-time, virtual
followers, arming pass. -/
def serveUpdate (a : Nat) (d : Dev) : Dev :=
  let had := (d.axis a).mdl.upd.isSome
  let d1 := d.updAxis a takePoint
  let x := d1.axis a
  let pts := x.mdl.points.take (axFit x + 1)
  if had && decide (3 ≤ x.mdl.points.length) && loadValid d1 a then
    let q := d1.draw
    match fitModel pts (axTpt x) (axMtb x) x.st.dir q.1 with
    | none => q.2
    | some l =>
      let d2 := loadModel a l q.2
      let full := decide (axFit x + 1 ≤ x.mdl.points.length) && x.mdl.updIn
      let d3 := if x.st.sync = .locking ∧ full = true then setSync .locked a d2 else d2
      armingPass a (refreshVirtuals a (retimeAxis a d3))
  else d1

/-- Engine `e` takes the update request of axis `a` and is charged for it under R25 and R27. -/
def takeUpdate (e a : Nat) (d : Dev) : Dev :=
  let d1 := serveUpdate a (settleGranted (d.updQueue (clusterOf a) fun q => q.erase (.update a)))
  chargeCredits e (120 + 12 * retimeCount d a + 24 * (narmed d1 a - narmed d a)) d1

/-- POLICY_SERVICE: engine `e` serves the policy request of axis `a` when it is the next one, and with it the update request of the axis
(R26, R150). -/
def policyService (e a : Nat) (d : Dev) : Dev :=
  match nextReq (d.queue (clusterOf a)) with
  | some (.policy b kind ab ents sids t) =>
    if b = a ∧ canServe d e a = true then
      let d1 := servePolicy e (.policy b kind ab ents sids t) d
      if (d1.queue (clusterOf a)).contains (.update a) && canServe d1 e a then takeUpdate e a d1 else d1
    else d
  | _ => d

/-- UPDATE_SERVICE: engine `e` takes the axis's update request when it is the next one (R26); a policy request of the axis goes before
it (R150). -/
def updateService (e a : Nat) (d : Dev) : Dev :=
  match d.queue (clusterOf a) with
  | .update b :: _ =>
    if b = a ∧ canServe d e a = true then
      if (d.queue (clusterOf a)).any (isPolicyOf a) then policyService e a d else takeUpdate e a d
    else d
  | _ => d

/-- ARMING_PASS: engine `e` takes the arm request of axis `a` when it is the next one, charged with 24 ECLK for each slug placed; without
a request in the queue the pass is the tick context's own (R129). -/
def armingService (e a : Nat) (d : Dev) : Dev :=
  if (d.queue (clusterOf a)).contains (.arm a) then
    if nextReq (d.queue (clusterOf a)) = some (.arm a) ∧ canServe d e a = true then
      let d1 := armingPass a (settleGranted (d.updQueue (clusterOf a) fun q => q.erase (.arm a)))
      chargeCredits e (24 * (narmed d1 a - narmed d a)) d1
    else d
  else if (d.eng e).online && !shadowed d e && e / 4 == clusterOf a then
    let d1 := armingPass a (settleGranted d)
    d1.updEng e fun g => { g with cycles := g.cycles + 24 * (narmed d1 a - narmed d a) }
  else d

/-! ### Enable, disable, seed, resync (R108, R110, R115) -/

/-- R115: a write that sets EN is refused. -/
def axisRefused (d : Dev) (a : Nat) : Bool :=
  let x := d.axis a
  let k := axKind x
  let r := axRef x
  let feed := feedingDecoder d a
  decide (3 < k) || decide (3 < r) ||
  (axTpt x == 0 && !(k == 0 && r == 2)) ||
  (r == 1 && (match feed with
    | none => false
    | some n => !bit (d.dec n).cfg.tdc 11 || fld (d.dec n).cfg.wpat 0 16 != axTpt x)) ||
  ((r == 3 || r == 2) && k != 0) || (k == 0 && feed.isNone) ||
  decide (axMtb x < 4 ∨ 16 < axMtb x) ||
  (k == 2 && decide (4 < virtualDepth d 5 a))

/-- AXIS_ENABLE: SEARCH with VALID = 0, no disturbance; or CFG_ERR. With REFSRC = AOQ the counter is to be read (R110). -/
def axisEnable (a : Nat) (d : Dev) : Dev :=
  let x := d.axis a
  if axEn x then d
  else if axisRefused d a then axFlag a 19 d
  else d.updAxis a fun x =>
    let y := toSearch { x with cfg := { x.cfg with cfg := orBit x.cfg.cfg 31 } }
    { y with
      st := { y.st with stopped := false, ticks := 0, dir := false, seeding := axRef y == 3 }
      trk := { y.trk with m := 0, mm := 0, acc := 0, span := 1, halted := false, pace := {}, anchorAng := angOf y.cfg y.trk.c,
                          lastTooth := d.tb.tclk } }

/-- AXIS_DISABLE: the entries are withdrawn and the slugs cancelled (R148, R153). -/
def axisDisable (a : Nat) (d : Dev) : Dev :=
  if axEn (d.axis a) then
    disturb .disabled a (d.updAxis a fun x =>
      let y := toSearch x
      { y with cfg := { y.cfg with cfg := clrBit y.cfg.cfg 31 } })
  else d

/-- RESYNC: SEARCH from any state, a disturbance (R108). A virtual axis has no transitions of its own, and a RESYNC written to it
changes nothing (log entry 79: DEDUCED). -/
def resync (a : Nat) (d : Dev) : Dev :=
  if axEn (d.axis a) && axKind (d.axis a) != 2 then disturb .resync a (d.updAxis a toSearch) else d

/-- AOQ_SEED (R110): the read that follows the rise of EN; a tooth formed in the 3 TCLK before it puts it off by a TCLK. -/
def aoqSeed (a : Nat) (d : Dev) : Dev :=
  let x := d.axis a
  let recent := match feedingDecoder d a with
    | some n => match (d.dec n).toothAt with | some k => decide (k < d.tb.tclk ∧ d.tb.tclk ≤ k + 3) | none => false
    | none => false
  if axEn x && x.st.seeding && !recent then
    let q := d.aoq (fld x.cfg.cfg 23 2)
    let d1 := d.updAxis a fun x => { x with st := { x.st with seeding := false } }
    if !bit q.ctl 4 || bit q.ctl 3 then axFlag a 14 d1
    else
      let c := q.cnt.toInt - x.cfg.aoqOfs.toInt
      d1.updAxis a fun x => { x with
        st := { x.st with sync := .locking, valid := true }
        trk := { x.trk with c := c, anchorAng := angOf x.cfg c, anchorT := d.tb.time, m := 0, mm := 0, acc := 0, span := 1,
                            lastTooth := d.tb.tclk } }
  else d

/-- COASTING entered (R108). -/
def enterCoast (a : Nat) (d : Dev) : Dev :=
  axFlag a 13 (d.updAxis a fun x => { x with st := { x.st with sync := .coasting, ticks := 0 } })

/-- REMOTE_MISS: a LOCKED remote axis without samples coasts. -/
def remoteMiss (a : Nat) (d : Dev) : Dev :=
  let x := d.axis a
  if axEn x && axKind x == 1 && x.st.sync == .locked then enterCoast a d else d

/-- COAST_LIMIT: a coasting remote axis is lost. -/
def coastLimit (a : Nat) (d : Dev) : Dev :=
  let x := d.axis a
  if axEn x && axKind x == 1 && x.st.sync == .coasting then enterLost a d else d

/-- COAST_MAX (R366): a coasting master-derived axis is lost. -/
def coastMax (a : Nat) (d : Dev) : Dev :=
  let x := d.axis a
  if axEn x && axKind x == 3 && x.st.sync == .coasting then enterLost a d else d

/-! ### Remote axes (R108, R114) -/

/-- One sample of a remote axis: the state it brings, and its count, unwrapped by the nearest value modulo 2²⁴ (R338), as a
fit point. -/
def remoteSample (a : Nat) (pos : W32) (stamp : Time64) (d : Dev) : Dev :=
  let x := d.axis a
  let c : Int := if x.st.sync = .search then pos.toInt else x.trk.c - slipOf (2 ^ 24) x.trk.c pos.toInt
  d.updAxis a fun x =>
    { x with
      st := { x.st with sync := match x.st.sync with | .search => .locking | .coasting => .locked | s => s, valid := true, ticks := 0 }
      trk := { x.trk with c := c }
      mdl := { x.mdl with points := (⟨stamp, c, angOf x.cfg c⟩ :: x.mdl.points).take 33, updIn := true } }

/-- The model that the samples of a remote axis give: its segment is loaded, and LOCKING ends with a fit over FIT intervals. -/
def fitRemote (a : Nat) (d : Dev) : Dev :=
  let x := d.axis a
  if x.mdl.points.length < 3 then d
  else
    let q := d.draw
    match fitSegment (x.mdl.points.take (axFit x + 1)) q.1 with
    | none => q.2
    | some s =>
      let full := decide (axFit x + 1 ≤ x.mdl.points.length)
      (loadSegment a s q.2).updAxis a fun x => { x with
        st := { x.st with model := true, sync := if x.st.sync = .locking ∧ full = true then .locked else x.st.sync } }

/-- The samples of axis `a` that came before the present tick (R21). -/
def dueSamples (d : Dev) (a : Nat) : List (W32 × Time64 × Nat) :=
  (d.axis a).mdl.samples.filter fun s => s.2.2 != d.tick.count

/-- R21, R114: the samples of the last tick are applied: the fit is loaded as the axis's segment. Samples that find the axis lost take
it to SEARCH at most (R108). -/
def applySamples (a : Nat) (d : Dev) : Dev :=
  let l := dueSamples d a
  if l.isEmpty then d
  else
    let d1 := d.updAxis a fun x => { x with mdl := { x.mdl with samples := x.mdl.samples.filter fun s => s.2.2 == d.tick.count } }
    if (d.axis a).st.sync = .syncLost then (if axAutors (d.axis a) then enterSearch a d1 else d1)
    else fitRemote a (forEach l (fun s d => remoteSample a s.1 s.2.1 d) d1)

/-! ### Registers (R115, R145) -/

/-- AXnnnn_STAT as read; a virtual axis shows its master's state (R108, R154). -/
def axStatRead (a : Nat) (d : Dev) : W32 :=
  let x := d.axis a
  let s := syncOf d a
  let code := match s with | .search => 0 | .locking => 1 | .locked => 2 | .ghosted => 3 | .coasting => 4 | .syncLost => 5
  x.st.stat ||| atBit (s != .search) 18 ||| atBit x.st.stopped 17 ||| atBit x.st.model 16 ||| atBit (dirOf d 5 a) 6 |||
    atBit x.trk.catching 5 ||| atBit x.trk.halted 4 ||| BitVec.ofNat 32 code

/-- A write to AXnnnn_CFG: KIND, REFSRC, AOQSEL, MTB and FITM1 are locked while EN = 1 (R115, R499). -/
def axCfgWrite (a : Nat) (v : W32) (d : Dev) : Dev :=
  let x := d.axis a
  let v := v &&& 0xFFFFFC00#32
  let v := if fld v 15 5 = 0 then setFld v 15 5 1 else v
  let locked : W32 := 0x7F8FFC00#32
  if axEn x then
    let d1 := if (v ^^^ x.cfg.cfg) &&& locked ≠ 0 then axFlag a 20 d else d
    let d2 := d1.updAxis a fun x => { x with cfg := { x.cfg with cfg := (x.cfg.cfg &&& ~~~0x700000#32) ||| (v &&& 0x700000#32) } }
    if bit v 31 then d2 else axisDisable a d2
  else
    let d1 := d.updAxis a fun x => { x with cfg := { x.cfg with cfg := clrBit v 31 } }
    if bit v 31 then axisEnable a d1 else d1

/-- AXnnnn_SRC and AXnnnn_TPT are locked while EN = 1. -/
def axSrcWrite (a : Nat) (v : W32) (d : Dev) : Dev :=
  let v := v &&& 0xFFF#32
  if axEn (d.axis a) then (if v ≠ (d.axis a).cfg.src then axFlag a 20 d else d)
  else d.updAxis a fun x => { x with cfg := { x.cfg with src := v } }
def axTptWrite (a : Nat) (v : W32) (d : Dev) : Dev :=
  let v := v &&& 0x1FFFFFF#32
  if axEn (d.axis a) then (if v ≠ (d.axis a).cfg.tpt then axFlag a 20 d else d)
  else d.updAxis a fun x => { x with cfg := { x.cfg with tpt := v } }

/-- AXnnnn_WIN: a field outside its range is not stored and sets CFG_ERR (R100). -/
def axWinWrite (a : Nat) (v : W32) (d : Dev) : Dev :=
  let okL := decide (0x110 ≤ fld v 16 16 ∧ fld v 16 16 ≤ 0x400)
  let okE := decide (0x40 ≤ fld v 0 16 ∧ fld v 0 16 ≤ 0xF0)
  let d1 := d.updAxis a fun x =>
    let w1 := if okL then setFld x.cfg.win 16 16 (fld v 16 16) else x.cfg.win
    { x with cfg := { x.cfg with win := if okE then setFld w1 0 16 (fld v 0 16) else w1 } }
  if okL && okE then d1 else axFlag a 19 d1

/-- ANG_OFS: a physical axis's anchor follows it at once (R93). -/
def axOfsWrite (a : Nat) (v : Ang64) (d : Dev) : Dev :=
  d.updAxis a fun x =>
    let c := { x.cfg with ofs := v }
    { x with cfg := c, trk := if axKind x = 0 then { x.trk with anchorAng := angOf c x.trk.c } else x.trk }

/-- AXnnnn_HOR: HGUARD above 256 is stored as 256 (R145). -/
def axHorWrite (a : Nat) (v : W32) (d : Dev) : Dev :=
  d.updAxis a fun x => { x with cfg := { x.cfg with hguard := min 256 (fld v 0 9) } }

/-! ### A phase step (R45, R47) -/

/-- S is added to the anchor, the windows and the predicted time of every track, to its segment and its fit points. -/
def stepTrack (s : W64) (x : Axis) : Axis :=
  let t := x.trk
  { x with
    trk := { t with anchorT := t.anchorT + s, p := t.p + s, early := t.early + s, predict := t.predict + s,
                    deadline := t.deadline + s, ghostDl := t.ghostDl + s, held := t.held.map fun h => (h.1 + s, h.2) }
    mdl := { x.mdl with
      samples := x.mdl.samples.map fun p => (p.1, p.2.1 + s, p.2.2)
      seg := if axKind x = 3 then x.mdl.seg else { x.mdl.seg with t0 := x.mdl.seg.t0 + s }
      points := x.mdl.points.map fun p => { p with stamp := p.stamp + s }
      upd := x.mdl.upd.map fun u => (u.1 + s, u.2) } }

/-! ### One TCLK -/

/-- The end of a TCLK in the tracks, once the law has run and the teeth of the TCLK have come: ghosts, standstill, seeds, then the
angles published (R92, R102, R107, R110). -/
def tracksTclk (d : Dev) : Dev :=
  let axes := d.ax.axes.map (·.1)
  let d1 := forEach axes (fun a d => if ghostDecides d a then ghostDue a d else d) d
  let d2 := forEach axes (fun a d => if stopDue d a then stopAxis a d else d) d1
  forEach axes publish (forEach axes aoqSeed d2)

end Sys2Proof.Machine
end

