-- ==== Sys2Proof/Machine/Tooth.lean ====
section
/-! DEFINITION. Pin stages, tooth decoders and the always-on counters (R59–R90). Commands bring the transitions of the balls, the
acceptances of the filters and the register writes; the end of each TCLK moves the pipeline of R65 on (`toothTclk`). -/

namespace Sys2Proof.Machine

/-! ### Fields -/

def decEn (c : Decoder) : Bool := bit c.cfg.tdc 0
def decMode (c : Decoder) : Nat := fld c.cfg.tdc 2 3
def quadMode (c : Decoder) : Bool := decMode c == 1 || decMode c == 2 || decMode c == 3
/-- Enabled in a quadrature mode. -/
def isQuad (c : Decoder) : Bool := decEn c && quadMode c

/-- A W1C bit of CHnnn_TDSTAT. -/
def tdFlag (n b : Nat) (d : Dev) : Dev := d.updDec n fun c => { c with tdstat := orBit c.tdstat b }

/-- The other pin of the pair of TP `p`. -/
def partnerOf (p : Nat) : Nat := if p % 2 = 0 then p + 1 else p - 1

/-- R60: round(g × i / 64) added to the TIME64 of the TCLK; a half rounds up (log entry 10: DEDUCED). -/
def stampAt (d : Dev) (g : Nat) : Time64 := d.tb.time + BitVec.ofNat 64 ((2 * g * d.inc + 64) / 128)

/-! ### The sampler and the glitch filter (R60–R63) -/

/-- The sampler of TP `p` has not re-armed: a transition of this TCLK is stamped at the TCLK's centre (R62). -/
def notArmed (d : Dev) (p : Nat) : Bool := match (d.pin p).lastCap with | some k => decide (d.tb.tclk < k + 20) | none => false

/-- The capture of a transition of TP `p` to `lvl` at grain `g` of the present TCLK (R60, R62). -/
def captured (p : Nat) (lvl : Bool) (g : BitVec 6) (d : Dev) : PinCand :=
  let coarse := notArmed d p
  let g := if coarse then 32#6 else g
  ⟨lvl, stampAt d g.toNat, g, d.tb.stepGen, coarse, d.tb.tclk⟩

/-- PIN_TRANSITION: the ball of TP `p` changes to `lvl` at grain `g` of the present TCLK, and the sampler captures it. A change back
to the level it took at the end of the previous TCLK leaves no capture (R62). -/
def pinTransition (p : Nat) (lvl : Bool) (g : BitVec 6) (d : Dev) : Dev :=
  if (d.pin p).ball = lvl then d
  else d.updPin p fun s => { s with ball := lvl, change := if lvl = s.seen then none else some (captured p lvl g d) }

/-- The end of a TCLK for the sampler of TP `p`: a level other than that of the TCLK before is a capture. A level that no transition
has brought, as after a reset, is captured at grain 0 (log entry 76: DESIGN CHOICE). -/
def sampleTclk (p : Nat) (d : Dev) : Dev :=
  let s := d.pin p
  if s.ball = s.seen then d
  else
    let c := s.change.getD (captured p s.ball 0 d)
    let d1 := d.updPin p fun s => { s with
      seen := s.ball, change := none, line := s.line ++ [c], lastCap := if c.coarse then s.lastCap else some d.tb.tclk }
    if c.coarse then tdFlag p 6 (d1.updDec p fun x => { x with coarsec := incSat x.coarsec }) else d1

/-- The filter of TP `p` at the start of a TCLK: a transition of two TCLKs before is in its sample (R65). A level that changes back
before N samples is discarded: GLITCH (R63). -/
def filterSample (p : Nat) (d : Dev) : Dev :=
  let s := d.pin p
  match s.line with
  | [] => d
  | c :: rest =>
    if d.tb.tclk < c.tclk + 2 then d
    else
      let lv := c.level != bit s.pinNow 10
      let d1 := d.updPin p fun s => { s with line := rest, cand := if lv = s.level then none else some { c with level := lv } }
      if lv = s.level && s.cand.isSome then tdFlag p 5 (d1.updDec p fun x => { x with glitchc := incSat x.glitchc }) else d1

/-- The filter of TP `p` has counted N samples of its candidate's level by the present TCLK (R63, R65). -/
def filterEnds (d : Dev) (p : Nat) : Bool :=
  match (d.pin p).cand with
  | some c => decide (c.tclk + fld (d.pin p).pinNow 0 8 + 2 ≤ d.tb.tclk)
  | none => false

/-- EDGE_ACCEPTED: the filter of TP `p` takes its candidate: the level changes, and the edge enters the pipeline with the stamp of
the last transition into that level (R63, R65). -/
def edgeAccepted (p : Nat) (d : Dev) : Dev :=
  match (d.pin p).cand with
  | none => d
  | some c => d.updPin p fun s => { s with
      level := c.level, cand := none, pipe := s.pipe ++ [{ edge := c, acc := d.tb.tclk, to_ := c.level }] }

/-- PIN_WRITE (R63, R64): EDGE 11b is not stored and sets CFG_ERR; INV and FILT act from the next TCLK on. -/
def pinWrite (p : Nat) (v : W32) (d : Dev) : Dev :=
  let bad := fld v 8 2 == 3
  let d1 := d.updPin p fun s =>
    { s with pin := if bad then setFld (v &&& 0x7FF#32) 8 2 (fld s.pin 8 2) else v &&& 0x7FF#32 }
  if bad then tdFlag p 2 d1 else d1

/-- CHnnn_PIN is in force from the next TCLK on: a change of INV inverts the accepted level and what is on its way to it, and forms
no edge (R63). -/
def landPin (s : PinStage) : PinStage :=
  let flip := bit s.pin 10 != bit s.pinNow 10
  { s with
    pinNow := s.pin
    level := s.level != flip
    cand := s.cand.map fun c => { c with level := c.level != flip }
    pipe := s.pipe.map fun e => { e with to_ := e.to_ != flip } }

/-- The filtered level of a pin as it stood at the end of local TCLK `k`, one of the last three. -/
def levelAt (s : PinStage) (k : Nat) : Bool :=
  match s.pipe.find? fun e => decide (k < e.acc) with
  | some e => !e.to_
  | none => s.level

/-! ### Driven pins (R165) -/

/-- The grain of the present TCLK at which what drives TP `p` changed last; 0 if it did not change in it. -/
def driveGrain (d : Dev) (p : Nat) : BitVec 6 :=
  let at_ : Nat := match pinOwner d p with
    | .pair b =>
      let x := if p % 2 = 0 then (d.pair b).high else (d.pair b).low
      if x.on then x.onAt else x.offAt
    | .channel => (d.chOut p).lvlAt
    | _ => 0
  if d.localNow ≤ at_ ∧ at_ < d.localNow + 64 then BitVec.ofNat 6 (at_ - d.localNow) else 0

/-- The end of a TCLK for the ball of TP `p`: the pin stage samples what the device drives, whichever block owns the driver. A ball
that is not driven keeps the level that PIN_TRANSITION gave it last (log entry 77: DESIGN CHOICE). -/
def driveBall (p : Nat) (d : Dev) : Dev :=
  let v := pinDrive d p
  if v = (d.pin p).drv then d
  else
    let d1 := d.updPin p fun s => { s with drv := v }
    match v with
    | some lvl => pinTransition p lvl (driveGrain d p) d1
    | none => d1

/-! ### The wheel pattern (R76–R80) -/

/-- The missing slots of one gap: POS − K to POS − 1 modulo S. -/
def missingSlots (s : Nat) (g : Nat × Nat × Bool) : List Nat := (List.range g.2.1).map fun j => (g.1 + s - (j + 1) % s) % s

/-- Every pair of distinct positions of a list satisfies `f`. -/
def pairwiseDistinct {α : Type} (f : α → α → Bool) : List α → Bool
  | [] => true
  | a :: t => t.all (fun b => f a b && f b a) && pairwiseDistinct f t

/-- R77. -/
def patternValid (c : DecCfg) : Bool :=
  let s := fld c.wpat 0 16
  let gs := gapsOf c
  let refs := gs.filter fun g => g.2.2
  s != 0 && refs.length == 1 && gs.all (fun g => decide (g.1 < s)) &&
  (gs.filter fun g => !g.2.2).all (fun g => refs.all fun r => g.2.1 != r.2.1) &&
  decide ((gs.map fun g => g.2.1).sum < s) &&
  pairwiseDistinct (fun a b => (missingSlots s a).all (fun x => !(missingSlots s b).contains x) && !(missingSlots s b).contains a.1) gs

/-- R78: the gap of missing teeth the tooth follows (none for a normal tooth), and the comparison after it. With an I′ of 0 there is
no quotient, and the tooth is normal (log entry 41: DESIGN CHOICE). -/
def judgeInterval (c : DecCfg) (k : DecTrack) (stamp : Time64) (rev : Bool) : Option Nat × DecTrack :=
  match k.prev with
  | some t =>
    if k.rev != rev then (none, { k with prev := some stamp, ivl := none, rev := rev })
    else
      let i := sdiff stamp t
      match k.ivl with
      | some i' =>
        let r16 := 16 * i / i'
        if i' ≠ 0 ∧ (fld c.wpat 16 8 : Int) ≤ r16 then
          (some ((r16 + 8) / 16 - 1).toNat, { k with prev := some stamp })
        else (none, { k with prev := some stamp, ivl := some i })
      | none => (none, { k with prev := some stamp, ivl := some i })
  | none => (none, { k with prev := some stamp, ivl := none, rev := rev })

/-- R79, R80: the slot and the PAT code after a tooth with gap `g`, and the TDSTAT bits it sets (11 REF_SEEN,
10 GAP_ABSENT, 9 PAT_MISMATCH). -/
def checkPattern (c : Decoder) (g : Option Nat) (rev : Bool) : Nat × Nat × Bool × List Nat :=
  let s : Int := fld c.cfg.wpat 0 16
  let gs := gapsOf c.cfg
  let ref := gs.find? fun g => g.2.2
  let slotOf (g : Nat × Nat × Bool) : Int := if rev then ((g.1 : Int) - g.2.1 - 1) % s else (g.1 : Int)
  let refHit := match g, ref with | some k, some r => r.2.1 == k | _, _ => false
  if !c.refFound then
    match ref with
    | some r => if refHit then ((slotOf r).toNat, 2, true, [11]) else (c.slot, 0, false, [])
    | none => (c.slot, 0, false, [])
  else
    let k : Int := g.getD 0
    let slot := (if rev then (c.slot : Int) - (k + 1) else (c.slot : Int) + (k + 1)) % s
    match g with
    | some k =>
      match gs.find? (fun e => e.2.1 == k && decide (slotOf e = slot)) with
      | some e => if e.2.2 then (slot.toNat, 2, true, [11]) else (slot.toNat, 1, true, [])
      | none =>
        match ref with
        | some r => if refHit then ((slotOf r).toNat, 3, true, [9]) else (c.slot, 3, true, [9])
        | none => (c.slot, 3, true, [9])
    | none =>
      if gs.any (fun e => (missingSlots s.toNat e).contains slot.toNat) then (slot.toNat, 3, true, [10, 9])
      else (slot.toNat, 0, true, [])

/-! ### Teeth (R65, R70–R74, R81–R83) -/

/-- CLR was written in the present TCLK: it clears a tooth formed in it (R69). -/
def clearedNow (d : Dev) (n : Nat) : Bool := (d.dec n).clrAt == some d.tb.tclk

/-- The decoder forms a tooth: pattern, POS, decimation and ring entry; TOTAL and the update latch follow one TCLK later. The track
of its axis takes the tooth. A tooth formed in the TCLK of a CLR leaves the counts cleared (R69). -/
def formTooth (n : Nat) (stamp : Time64) (sg : BitVec 2) (coarse rev : Bool) (d : Dev) : Dev :=
  let c := d.dec n
  let clr := clearedNow d n
  let pat := bit c.cfg.tdc 11 && fld c.cfg.wpat 0 16 != 0
  let j := judgeInterval c.cfg (d.decTrk n) stamp rev
  let g := if pat then j.1 else none
  let chk := if pat then checkPattern c g rev else (c.slot, 0, c.refFound, [])
  let adv := g.getD 0 + 1
  let div := fld c.cfg.udiv 0 16 + 1
  let upd := !clr && decide (div ≤ c.decim + adv)
  let slot := if clr then 0 else chk.1
  let pos := if clr then 0 else if rev then c.pos - 1 else c.pos + 1
  let attr : W32 := BitVec.ofNat 32 (slot % 65536 * 65536 + min (g.getD 0) 255 * 256 + chk.2.1 * 64 + sg.toNat * 16 +
    (if coarse then 8 else 0) + (if c.idxPend then 4 else 0) + (if rev then 1 else 0))
  let d1 := if pat && !clr then d.updDecTrk n fun _ => j.2 else d
  let d2 := d1.updDec n fun c => { c with
    slot := slot, refFound := !clr && chk.2.2.1, pos := pos, idxPend := false
    tdstat := chk.2.2.2.foldl orBit c.tdstat
    decim := if clr then 0 else if upd then c.decim + adv - div else c.decim + adv
    ring := Bank.set {} c.ring (c.total.toNat % 16) ⟨stamp, attr⟩
    lstamp := stamp, toothAt := some d.tb.tclk
    adv := if clr then none else some ⟨upd, stamp, attr, pos⟩ }
  trackTooth (fld c.cfg.tdc 13 12) stamp attr upd d2

/-- The advance of TOTAL of the tooth formed in the TCLK before; an update tooth loads the latch and advances UPDCNT (R65, R83). -/
def advanceTotal (n : Nat) (d : Dev) : Dev :=
  match (d.dec n).adv with
  | none => d
  | some t => d.updDec n fun c => { c with
      adv := none
      total := c.total + 1
      ustamp := if t.upd then t.stamp else c.ustamp
      uattr := if t.upd then t.attr else c.uattr
      utotal := if t.upd then c.total + 1 else c.utotal
      upos := if t.upd then t.pos else c.upos
      updcnt := if t.upd then c.updcnt + 1 else c.updcnt }

/-- UPDATE_REQUEST: a change of UPDCNT reaches the ECLK domain: the axis's update request is queued, or replaces the one
still queued (R26, R81). -/
def updateRequest (n : Nat) (d : Dev) : Dev :=
  let c := d.dec n
  if c.updcnt = c.updSeen then d
  else
    let a := fld c.cfg.tdc 13 12
    let q := clusterOf a
    let d1 := d.updDec n fun c => { c with updSeen := c.updcnt }
    if (d1.queue q).contains (.update a) then
      { d1 with load := { d1.load with coalesced := d1.load.coalesced + 1 } }
    else d1.updQueue q (· ++ [.update a])

/-- R70: the direction of a single-edge tooth; `partner` is the partner pin's filtered level. -/
def singleDir (c : Decoder) (partner : Bool) : Bool :=
  match fld c.cfg.tdc 9 2 with | 0 => false | 1 => true | 2 => partner | _ => !partner

/-- The position of AB in the forward sequence 00b, 10b, 11b, 01b (R71); A is the first argument. -/
def quadIndex (a b : Bool) : Nat := if a then (if b then 2 else 1) else (if b then 3 else 0)

/-- R71, R72: the direction of the tooth that a change of AB forms, if it forms one. The change that makes a ×1 or ×2 tooth is one of
channel A; SWAP turns the sense of direction. -/
def quadTooth (mode : Nat) (swap : Bool) (a b a' b' : Bool) : Option Bool :=
  let o := quadIndex a b
  let w := quadIndex a' b'
  let rev := w != (o + 1) % 4
  let from_ := if rev then w else o
  match mode with
  | 3 => some (rev != swap)
  | 2 => if from_ % 2 = 0 then some (rev != swap) else none
  | _ => if from_ = 0 then some (rev != swap) else none

/-- R73, R74: an edge in pulse-width direction mode. A pulse that reached PWT3 has not completed and leaves PWW (log entry 78:
DEDUCED). -/
def pulseWidthEdge (n : Nat) (rise : Bool) (stamp : Time64) (sg : BitVec 2) (coarse : Bool) (d : Dev) : Dev :=
  let k := d.decTrk n
  let cfg := (d.dec n).cfg
  if rise then d.updDecTrk n fun k => { k with lead := some stamp, leadSg := sg, leadCoarse := coarse }
  else match k.lead with
    | none => d
    | some ls =>
      let w := (sdiff stamp ls).toNat
      let d1 := d.updDecTrk n fun k => { k with lead := none }
      if fld cfg.pwt3 0 20 * 64 ≤ w then
        tdFlag n 8 (d1.updDec n fun c => { c with pfltc := incSat c.pfltc })
      else
        let d2 := d1.updDec n fun c => { c with pww := BitVec.ofNat 32 (min w 4294967295) }
        if w < fld cfg.pwt1 0 20 * 64 then formTooth n ls k.leadSg k.leadCoarse false d2
        else if w < fld cfg.pwt2 0 20 * 64 then formTooth n ls k.leadSg k.leadCoarse true d2
        else stopAxis (fld cfg.tdc 13 12) (tdFlag n 7 d2)

/-- PWD_FAULT: the pulse under way reaches PWT3 (R73). -/
def pwdFault (n : Nat) (d : Dev) : Dev :=
  if (d.dec n).on && decMode (d.dec n) == 4 && (d.decTrk n).lead.isSome then
    tdFlag n 8 ((d.updDec n fun c => { c with pfltc := incSat c.pfltc }).updDecTrk n fun k => { k with lead := none })
  else d

/-- The pulse under way has reached PWT3 by the TIME64 of the present TCLK, whatever is still in the pin's pipeline (R73; log entry
78: DEDUCED). -/
def pwdDue (d : Dev) (n : Nat) : Bool :=
  match (d.decTrk n).lead with
  | some t => decide ((fld (d.dec n).cfg.pwt3 0 20 * 64 : Int) ≤ sdiff d.tb.time t) && decMode (d.dec n) == 4
  | none => false

/-- R75: AB for an index that serves decoder `m`, as it stood at the start of the TCLK: the state of a decoder in a quadrature mode, or
the two filtered levels. -/
def indexState (d : Dev) (m : Nat) : Nat :=
  let e := m / 2 * 2
  let k := if quadMode (d.dec m) then d.tb.tclk - 3 else d.tb.tclk - 1
  (if levelAt (d.pin e) k then 2 else 0) + (if levelAt (d.pin (e + 1)) k then 1 else 0)

/-- R75: a passed edge of a decoder in index mode, after the tooth that decoder IDXOF forms in the same TCLK. -/
def indexEdge (n : Nat) (stamp : Time64) (d : Dev) : Dev :=
  let i := (d.dec n).cfg.idx
  let m := fld i 0 8
  if bit i 10 && indexState d m != fld i 8 2 then d
  else
    let d1 := d.updDec n fun c => { c with ipos := (d.dec m).pos, icap := stamp, tdstat := orBit c.tdstat 13 }
    d1.updDec m fun c => { c with idxPend := true, pos := if bit i 11 then 0 else c.pos }

/-! ### The stages of the pipeline (R64, R65) -/

/-- The edge prescaler counts this edge (R64). -/
def edgeSelected (s : PinStage) (rise : Bool) : Bool :=
  match fld s.pin 8 2 with | 0 => rise | 1 => !rise | _ => true

/-- R64: the prescaler of a pin takes in TCLK `k` the edge accepted one TCLK before: it passes every Mth edge that EDGE selects. `clr` says that CLR
restarts the count in this TCLK. -/
def prescale (k : Nat) (clr : Bool) (s : PinStage) : PinStage :=
  match s.pipe.find? fun e => e.acc + 1 == k with
  | none => s
  | some e =>
    if !edgeSelected s e.edge.level then s
    else if s.count + 1 < s.div then { s with count := if clr then 0 else s.count + 1 }
    else { s with
      count := 0, div := fld s.pre 0 16 + 1
      pipe := s.pipe.map fun x => if x.acc + 1 = k then { x with passed := true } else x }

/-- The edge of TP `p` that the decoder stage takes in the present TCLK, if the pipeline of decoder `n` still counts it (R65, R69). -/
def decoderEdge (d : Dev) (n p : Nat) : Option PinPass :=
  (d.pin p).pipe.find? fun e => e.acc + 2 == d.tb.tclk && decide ((d.dec n).from_ ≤ e.edge.tclk)

/-- One TCLK of an enabled quadrature decoder (R71, R72): a change of one input is a transition, and of both is QERR. -/
def quadStage (n : Nat) (d : Dev) : Dev :=
  let c := d.dec n
  let k := d.tb.tclk
  let lev (p j : Nat) := levelAt (d.pin p) (k - j)
  match decoderEdge d n n, decoderEdge d n (n + 1) with
  | some _, some _ => tdFlag n 4 (d.updDec n fun x => { x with qerrc := incSat x.qerrc })
  | some e, none | none, some e =>
    (match quadTooth (decMode c) (bit c.cfg.tdc 8) (lev n 3) (lev (n + 1) 3) (lev n 2) (lev (n + 1) 2) with
     | some rev => formTooth n e.edge.stamp e.edge.sg e.edge.coarse rev d
     | none => d)
  | none, none => d

/-- One TCLK of the decoder stage of decoder `n`, but for the index mode (R65, R70–R74). -/
def decoderStage (n : Nat) (d : Dev) : Dev :=
  let c := d.dec n
  if !c.on then d
  else if quadMode c then quadStage n d
  else match decoderEdge d n n with
    | none => d
    | some e =>
      if decMode c = 4 then pulseWidthEdge n e.edge.level e.edge.stamp e.edge.sg e.edge.coarse d
      else if decMode c = 0 && e.passed then formTooth n e.edge.stamp e.edge.sg e.edge.coarse (singleDir c e.partner) d
      else d

/-- One TCLK of a decoder in index mode (R75). -/
def indexStage (n : Nat) (d : Dev) : Dev :=
  let c := d.dec n
  match decoderEdge d n n with
  | some e => if c.on && decMode c == 5 && e.passed then indexEdge n e.edge.stamp d else d
  | none => d

/-- The capture paths of the group take the edge of TP `p` accepted one TCLK ago (R65, R225). -/
def captureStage (p : Nat) (d : Dev) : Dev :=
  match (d.pin p).pipe.find? fun e => e.acc + 1 == d.tb.tclk with
  | some e => captureEdges p e.edge.level (e.edge.tclk * 64 + e.edge.grain.toNat) e.edge.stamp e.edge.grain e.edge.sg d
  | none => d

/-- The counts that edges of TP `p` drive advance in this TCLK, which begins (R209). -/
def countStage (p : Nat) (d : Dev) : Dev :=
  match (d.pin p).pipe.find? fun e => e.acc + 1 == d.tb.tclk with
  | some e => countEdges p e.edge.level d
  | none => d

/-- The end of a TCLK for the edges of TP `p`: the prescaler, the partner's level of an edge accepted in it (R70), and the edges that
have left the pipeline. -/
def movePipe (p : Nat) (d : Dev) : Dev :=
  let k := d.tb.tclk
  let lv := (d.pin (partnerOf p)).level
  d.updPin p fun s =>
    let s := prescale k (clearedNow d p) s
    { s with pipe := (s.pipe.filter fun e => decide (k < e.acc + 2)).map fun e => if e.acc = k then { e with partner := lv } else e }

/-- EN of the decoder is in force from the next TCLK on; cleared, the edges in the pipeline are not counted (R69). -/
def landDecoder (n : Nat) (d : Dev) : Dev :=
  let c := d.dec n
  if c.on = decEn c then d
  else if c.on then
    (d.updDec n fun c => { c with on := false, from_ := d.tb.tclk + 1 }).updDecTrk n fun k => { k with lead := none }
  else d.updDec n fun c => { c with on := true }

/-- The registers of the pin stages and decoders are in force from the next TCLK on. -/
def landTooth (d : Dev) : Dev :=
  forEach (d.tooth.pins.map (·.1)) (fun p d => d.updPin p landPin) (forEach (d.tooth.decs.map (·.1)) landDecoder d)

/-- The end of a TCLK in the pin stages and decoders (R65): TOTAL, teeth, then indexes; the prescalers; the samplers. -/
def toothTclk (d : Dev) : Dev :=
  let decs := d.tooth.decs.map (·.1)
  let pins := d.tooth.pins.map (·.1)
  let d1 := forEach decs indexStage (forEach decs decoderStage (forEach decs advanceTotal d))
  let d2 := forEach pins movePipe d1
  let d3 := forEach pins sampleTclk d2
  landTooth d3

/-- The start of a TCLK in the pin stages: the filters' samples, and the edges that drive counts. -/
def openPins (d : Dev) : Dev :=
  let pins := d.tooth.pins.map (·.1)
  forEach pins countStage (forEach pins filterSample d)

/-! ### Enable, disable, CLR, configuration (R67–R69) -/

/-- R68: the decoder modes 110b and 111b are reserved. -/
def decRefused (d : Dev) (n : Nat) : Bool :=
  let c := d.dec n
  let m := decMode c
  let quad := m == 1 || m == 2 || m == 3
  let preOf (p : Nat) : Nat := fld (d.pin p).pre 0 16
  decide (6 ≤ m) || (quad && n % 2 == 1) || (n % 2 == 1 && isQuad (d.dec (n - 1))) ||
  (quad && (preOf n != 0 || preOf (n + 1) != 0)) || (m == 4 && preOf n != 0) ||
  (m != 5 && d.tooth.decs.any fun e => e.1 != n && decEn e.2 && decMode e.2 != 5 && fld e.2.cfg.tdc 13 12 == fld c.cfg.tdc 13 12) ||
  !(decide (fld c.cfg.pwt1 0 20 < fld c.cfg.pwt2 0 20) && decide (fld c.cfg.pwt2 0 20 < fld c.cfg.pwt3 0 20)) ||
  (bit c.cfg.tdc 11 && !patternValid c.cfg)

/-- DECODER_ENABLE: accepted, or refused with CFG_ERR (R68). The prescaler count restarts (R64), and so does the comparison of
intervals (log entry 41: DEDUCED). -/
def decoderEnable (n : Nat) (d : Dev) : Dev :=
  if decEn (d.dec n) then d
  else if decRefused d n then tdFlag n 2 d
  else
    let d1 := d.updDec n fun c => { c with cfg := { c.cfg with tdc := orBit c.cfg.tdc 0 }, refFound := false }
    (d1.updDecTrk n fun _ => {}).updPin n fun s => { s with count := 0 }

/-- DECODER_DISABLE: no tooth from the next TCLK on (R69). -/
def decoderDisable (n : Nat) (d : Dev) : Dev :=
  if decEn (d.dec n) then d.updDec n fun c => { c with cfg := { c.cfg with tdc := clrBit c.cfg.tdc 0 } } else d

/-- CLR (R69): TOTAL, POS, SLOT, UPDCNT, the decimation and prescaler counts, and the advance of a tooth formed in the TCLK before.
The comparison of intervals restarts (log entry 41: DEDUCED). -/
def decoderClear (n : Nat) (d : Dev) : Dev :=
  let d1 := d.updDec n fun c => { c with
    total := 0, pos := 0, slot := 0, updcnt := 0, updSeen := 0, decim := 0, refFound := false, adv := none, clrAt := some d.tb.tclk }
  (d1.updDecTrk n fun k => { k with prev := none, ivl := none }).updPin n fun s => { s with count := 0 }

/-- A write to CHnnn_TDC (R67, R68): the fields but EN and CLR are locked while EN = 1. -/
def tdcWrite (n : Nat) (v : W32) (d : Dev) : Dev :=
  let c := d.dec n
  let w := v &&& 0x01FFEF1C#32
  let d1 :=
    if decEn c then
      if w ≠ (c.cfg.tdc &&& 0x01FFEF1C#32) then tdFlag n 3 d else d
    else d.updDec n fun c => { c with cfg := { c.cfg with tdc := w } }
  let d2 := if bit v 12 then decoderClear n d1 else d1
  if bit v 0 then decoderEnable n d2 else decoderDisable n d2

/-- A write to a locked configuration word of a decoder (R68). -/
def decCfgWrite (n : Nat) (same : DecCfg → Bool) (f : DecCfg → DecCfg) (d : Dev) : Dev :=
  let c := d.dec n
  if decEn c then (if same c.cfg then d else tdFlag n 3 d) else d.updDec n fun c => { c with cfg := f c.cfg }

/-- A write at offset `r` of the decoder's locked words: PWT1–3, IDX, WPAT, WGAP0–7. -/
def decWordWrite (n r : Nat) (v : W32) (d : Dev) : Dev :=
  let pw := v &&& 0xFFFFF#32
  match r with
  | 0x90 => decCfgWrite n (fun c => c.pwt1 == pw) (fun c => { c with pwt1 := pw }) d
  | 0x94 => decCfgWrite n (fun c => c.pwt2 == pw) (fun c => { c with pwt2 := pw }) d
  | 0x98 => decCfgWrite n (fun c => c.pwt3 == pw) (fun c => { c with pwt3 := pw }) d
  | 0x9C => let w := v &&& 0xFFF#32
            decCfgWrite n (fun c => c.idx == w) (fun c => { c with idx := w }) d
  | 0xA0 => let w := v &&& 0xFFFFFF#32
            decCfgWrite n (fun c => c.wpat == w) (fun c => { c with wpat := w }) d
  | _ => let w := v &&& 0xFFFFFF01#32
         let i := (r - 0xA4) / 4
         decCfgWrite n (fun c => Bank.get 0 c.wgap i == w) (fun c => { c with wgap := Bank.set 0 c.wgap i w }) d

/-- CHnnn_UDIV and CHnnn_PRE may be written at any time (R68); PRE applies from the next passed edge (R64). -/
def udivWrite (n : Nat) (v : W32) (d : Dev) : Dev := d.updDec n fun c => { c with cfg := { c.cfg with udiv := v &&& 0xFFFF#32 } }
def preWrite (n : Nat) (v : W32) (d : Dev) : Dev := d.updPin n fun s => { s with pre := v &&& 0xFFFF#32 }

/-- CHnnn_TDSTAT as read: ACT is EN from the TCLK after it is set. -/
def tdStatRead (n : Nat) (d : Dev) : W32 := (d.dec n).tdstat ||| atBit ((d.dec n).on && decEn (d.dec n)) 0

/-! ### The always-on counters (R88–R90) -/

def aoqErr (q : Aoq) : Aoq := { q with ctl := setFld (orBit q.ctl 3) 8 8 (min 255 (fld q.ctl 8 8 + 1)) }

/-- AOQ_TRANSITION: an input of counter `k` changes: channel A, or B. `illegal` says that both inputs change within 1 µs of
each other: the counter holds (R88). `nearPreset` says that the transition falls within 1 µs of a preset: ERR is set and the
counter holds the preset value or the preset value ±1, a free choice (R90; log entry 1). -/
def aoqTransition (k : Nat) (chB illegal nearPreset : Bool) (d : Dev) : Dev :=
  let q := d.aoq k
  let a := q.ab.getLsbD 1
  let b := q.ab.getLsbD 0
  if !bit q.ctl 0 then
    d.updAoq k fun q => { q with ab := q.ab ^^^ (if illegal then 3#2 else if chB then 1#2 else 2#2) }
  else if illegal then d.updAoq k fun q => aoqErr { q with ab := q.ab ^^^ 3#2 }
  else
    let a' := if chB then a else !a
    let b' := if chB then !b else b
    let ab : BitVec 2 := q.ab ^^^ (if chB then 1#2 else 2#2)
    if nearPreset then
      let r := d.draw
      r.2.updAoq k fun q => { q with ab := ab, ctl := orBit q.ctl 3, cnt := q.pre + BitVec.ofNat 32 (r.1.toNat % 3) - 1 }
    else
      let back := match quadTooth 3 (bit q.ctl 1) a b a' b' with | some r => r | none => false
      d.updAoq k fun q => { q with ab := ab, cnt := if back then q.cnt - 1 else q.cnt + 1 }

/-- PRESET: AOQnPRE is loaded, VALID is set and ERRCNT cleared. -/
def aoqPreset (k : Nat) (d : Dev) : Dev :=
  d.updAoq k fun q => { q with cnt := q.pre, ctl := setFld (orBit q.ctl 4) 8 8 0 }

/-- SC_AOQnCTL: EN and SWAP are written, ERR is cleared by 1, PRESET loads. -/
def aoqCtlWrite (k : Nat) (v : W32) (d : Dev) : Dev :=
  let d1 := d.updAoq k fun q =>
    let w := putBit (putBit q.ctl 0 (bit v 0)) 1 (bit v 1)
    { q with ctl := if bit v 3 then clrBit w 3 else w }
  if bit v 2 then aoqPreset k d1 else d1

end Sys2Proof.Machine
end

