-- ==== Sys2Proof/Machine/Engine.lean ====
section
/-! DEFINITION. The control of the Nguvar engines (R252, R268–R279): wakes, safe points, end of work, the tick thread,
offline and lockstep, faults, and the registers of the NE block. -/

namespace Sys2Proof.Machine

/-! ### Budgets (R23, R25) -/

/-- C, the ECLK of one tick (R23). -/
def cyclesPerTick (d : Dev) : Nat := d.tick.period * d.load.eclk / 250
/-- UQ = ceil(C / 500) (R25). -/
def updateQuota (d : Dev) : Nat := (cyclesPerTick d + 499) / 500

/-- UPDATE_CREDIT: 500 ECLK have passed; the count is capped at UQ, and an offline engine's does not grow (R25, R274). -/
def updateCredit (e : Nat) (d : Dev) : Dev :=
  if (d.eng e).online && !shadowed d e then
    d.updEng e fun g => { g with credits := min (g.credits + 1) (updateQuota d : Nat) }
  else d

/-- A shorter tick or a slower ECLK lowers UQ, and the counts of the online engines with it (R25). -/
def capCredits (d : Dev) : Dev :=
  forEach (List.range 16) (fun e d =>
    if (d.eng e).online then d.updEng e fun g => { g with credits := min g.credits (updateQuota d : Nat) } else d) d

/-! ### Flags and contexts -/

/-- A W1C bit 12–16 of NExx_STAT, source 390h + e. -/
def neFlag (e b : Nat) (d : Dev) : Dev := memberEvent (0x390 + e) (d.updEng e fun g => { g with stat := orBit g.stat b })

def setReady (e c : Nat) (on : Bool) (d : Dev) : Dev :=
  d.updEng e fun g => { g with ready := if on then g.ready ||| BitVec.ofNat 4 (2 ^ c) else g.ready &&& ~~~ BitVec.ofNat 4 (2 ^ c) }

/-- R269: the entry address of a context. -/
def entryOf (g : EngineCtl) (c : Nat) : BitVec 15 :=
  match c with | 0 => 0x10#15 | 1 => 0x20#15 | 2 => 0x30#15 | _ => g.centry.setWidth 15

def hasRequest (d : Dev) (e : Nat) : Bool :=
  !(d.queue (e / 4)).isEmpty && !shadowed d e && decide (0 < (d.eng e).credits)

/-- The engine that serves the device-wide items: rank 0 of the lowest cluster with an online engine (R273). -/
def deviceWide (d : Dev) (e : Nat) : Bool :=
  (d.eng e).shareJ == 0 && !shadowed d e && !(List.range (e / 4 * 4)).any fun x => (d.eng x).online

/-- R24: a dictionary request is queued for the service context, that of the engine with the device-wide items (log entry 82: DESIGN
CHOICE). -/
def serviceReady (d : Dev) (e : Nat) : Bool := (d.eng e).online && deviceWide d e && !d.ds.queue.isEmpty

/-- R24: context `c` of engine `e` is ready. -/
def isReady (d : Dev) (e c : Nat) : Bool :=
  bit (d.eng e).ready c || (c == 1 && (d.eng e).online && hasRequest d e) || (c == 2 && serviceReady d e)

/-- The tick context of engine `e` is the highest-ranked ready one (R24). -/
def tickMayRun (d : Dev) (e : Nat) : Bool := bit (d.eng e).ready 0 && !shadowed d e && !hasRequest d e

/-- The service context of the engine that serves the dictionary is the highest-ranked ready one (R24). -/
def serviceRuns (d : Dev) : Bool :=
  (List.range 16).any fun e => serviceReady d e && !hasRequest d e && !bit (d.eng e).ready 0

/-- R258, BCOND 15h: more work for context `c`. -/
def moreWork (d : Dev) (e c : Nat) : Bool :=
  let g := d.eng e
  match c with
  | 0 => g.tback != 0
  | 1 => hasRequest d e
  | 2 => bit g.pendWake 2 || serviceReady d e
  | _ => bit g.pendWake c

/-- R269: ENDW of context `c`: it restarts at its entry if more work remains, otherwise it ceases to be ready. -/
def endWork (e c : Nat) (d : Dev) : Dev :=
  let g := d.eng e
  let d1 := d.updCtx e c fun x => { x with start := true, stack := [] }
  match c with
  | 0 =>
    if g.tback = 0 then setReady e 0 false d1
    else d1.updEng e fun g => { g with tback := g.tback - 1, tickNo := g.tickNo + 1 }
  | 1 =>
    let d2 := d1.updEng e fun g => { g with taken := none, spent := 0 }
    setReady e 1 (hasRequest d2 e) d2
  | _ =>
    if bit g.pendWake c && !(c == 3 && g.chalted) then
      d1.updEng e fun g => { g with pendWake := g.pendWake &&& ~~~ BitVec.ofNat 4 (2 ^ c) }
    else setReady e c false d1

/-- ENDW: the context running on engine `e` ends its work. -/
def endwOp (e : Nat) (d : Dev) : Dev :=
  let g := d.eng e
  if g.online && g.busy then (endWork e g.ctx d).updEng e fun g => { g with atSafe := true } else d

/-! ### Requests (R271) -/

/-- R271: the request word. -/
def requestWord (d : Dev) (r : UpdReq) : W64 :=
  let upd (a : Nat) : Nat := match feedingDecoder d a with | some n => (d.dec n).updcnt.toNat | none => 0
  match r with
  | .update a => BitVec.ofNat 64 (upd a * 2 ^ 32 + a * 65536)
  | .arm a => BitVec.ofNat 64 (upd a * 2 ^ 32 + a * 65536 + 1)
  | .policy a _ _ _ _ _ => BitVec.ofNat 64 (upd a * 2 ^ 32 + a * 65536 + 2)

def requestAxis (r : UpdReq) : Nat := match r with | .update a => a | .arm a => a | .policy a _ _ _ _ _ => a

def setReg (x : Ctx) (i : Nat) (v : W64) : Ctx := { x with regs := Bank.set 0 x.regs i v }

/-- R271: context 1 takes the request of its cluster's queue that is served next. One credit is charged for its first 120 ECLK (R25). -/
def takeRequest (e : Nat) (d : Dev) : Dev :=
  match nextReq (d.queue (e / 4)) with
  | none => d
  | some r =>
    let a := requestAxis r
    let w := requestWord d r
    let d1 := (d.updQueue (e / 4) fun q => q.erase r).updEng e fun g => { g with taken := some r, spent := 0, credits := g.credits - 1 }
    d1.updCtx e 1 fun x => setReg { x with xt := BitVec.ofNat 12 a, xb := BitVec.ofNat 24 (a % 1024 * 64) } 63 w

/-! ### Offline and online (R274, R275) -/

/-- A request taken and not ended returns to the head of the cluster's queue (R274). -/
def requeue (e : Nat) (d : Dev) : Dev :=
  match (d.eng e).taken with
  | some r => (d.updQueue (e / 4) fun q => r :: q).updEng e fun g => { g with taken := none, spent := 0 }
  | none => d

/-- The engine leaves service; its contexts are left as R274 lays down. A fault that context 3 has made waits for the engine's next
safe point. -/
def goOffline (e : Nat) (d : Dev) : Dev :=
  let d2 := forEach [0, 1, 2] (fun c d => d.updCtx e c fun x => { x with start := true, stack := [], faulted := false }) (requeue e d)
  d2.updEng e fun h => { h with
    online := false, offReq := false, busy := false, atSafe := false, taken := none, spent := 0
    pendFault := h.pendFault.filter fun f => f.2.1 == 3
    ctl := orBit h.ctl 0
    pendWake := if bit h.ready 2 then h.pendWake ||| 4#4 else h.pendWake
    ready := h.ready &&& 8#4 }

/-- The engines of a cluster that are online and have no accepted offline request. -/
def staying (d : Dev) (q : Nat) : List Nat :=
  (List.range 4).map (4 * q + ·) |>.filter fun e => (d.eng e).online && !(d.eng e).offReq

/-- OFFLINE_REQUEST (R274, R276). -/
def offlineRequest (e : Nat) (d : Dev) : Dev :=
  let g := d.eng e
  if !g.online || g.offReq then
    (if g.onReq then d.updEng e fun g => { g with onReq := false, ctl := orBit g.ctl 0 } else d)
  else
    let leaves := if g.paired then [e, e + 1] else [e]
    if (g.paired && e % 2 == 1) || ((staying d (e / 4)).filter fun x => !leaves.contains x).isEmpty then neFlag e 12 d
    else d.updEng e fun g => { g with offReq := true, ctl := orBit g.ctl 0 }

/-- ONLINE_REQUEST (R275). -/
def onlineRequest (e : Nat) (d : Dev) : Dev :=
  let g := d.eng e
  if g.offReq then d.updEng e fun g => { g with offReq := false, ctl := clrBit g.ctl 0 }
  else if !g.online then d.updEng e fun g => { g with onReq := true, ctl := clrBit g.ctl 0 }
  else d

/-- R275: an engine comes online at a boundary. Wakes kept meanwhile make their contexts ready. -/
def comeOnline (e : Nat) (d : Dev) : Dev :=
  let d1 := forEach [0, 1, 2] (fun c d => d.updCtx e c fun x => { x with start := true, stack := [], faulted := false }) d
  d1.updEng e fun g =>
    let w := if g.chalted then g.pendWake &&& 4#4 else g.pendWake &&& 12#4
    { g with online := true, onReq := false, busy := false, atSafe := false, ready := (g.ready &&& 8#4) ||| w,
             pendWake := g.pendWake &&& ~~~w }

/-! ### Faults (R277) -/

/-- A fault of a context is recorded and suppresses its operations up to the next safe point, where it is taken. -/
def contextFault (code e c : Nat) (d : Dev) : Dev :=
  let pc := (d.ctx e c).pc.toNat
  (d.updEng e fun g => { g with pendFault := match g.pendFault with | some f => some f | none => some (code, c, pc) }).updCtx e c
    fun x => { x with faulted := true }

/-! ### Safe points (R268) -/

/-- R277: the recorded fault is taken: NExx_FAULT, FAULT, FAULTC; the context's work ends. -/
def takeFault (e : Nat) (d : Dev) : Dev :=
  match (d.eng e).pendFault with
  | none => d
  | some (code, c, addr) =>
    let d1 := d.updEng e fun g => { g with
      fault := BitVec.ofNat 32 (code * 2 ^ 24 + c * 65536 + addr), faultc := incSat g.faultc, pendFault := none
      chalted := g.chalted || c == 3 }
    let d2 := d1.updCtx e c fun x => { x with faulted := false }
    neFlag e 14 (endWork e c d2)

/-- CHALT takes effect (R270). -/
def takeChalt (e : Nat) (d : Dev) : Dev :=
  if (d.eng e).chaltReq then
    (d.updEng e fun g => { g with chaltReq := false, chalted := true, ready := g.ready &&& 7#4 })
  else d

/-- The highest-ranked ready context: 1, 0, 2, 3 (R24). -/
def pickContext (d : Dev) (e : Nat) : Option Nat :=
  let g := d.eng e
  if (bit g.ready 1 && g.taken.isSome) || hasRequest d e then some 1
  else if bit g.ready 0 then some 0
  else if isReady d e 2 then some 2
  else if bit g.ready 3 && !g.chalted then some 3
  else none

/-- The engine resumes context `c`, at its entry address when it begins new work (R269, R271). -/
def resume (e c : Nat) (d : Dev) : Dev :=
  let fresh := (d.ctx e c).start
  let d1 := d.updCtx e c fun x => if x.start then { x with start := false, pc := entryOf (d.eng e) c } else x
  let d2 := if c = 1 ∧ fresh = true then takeRequest e d1 else d1
  let g := d2.eng e
  let d3 := if c = 0 ∧ fresh = true then
      d2.updCtx e 0 fun x => setReg x 63 (BitVec.ofNat 64 (g.tback.toNat * 65536 + g.tickNo.toNat))
    else d2
  d3.updEng e fun g => { g with ctx := c, busy := true, atSafe := false, ready := g.ready ||| BitVec.ofNat 4 (2 ^ c) }

/-- SAFE_POINT: the poll after a SAFE word, or of an engine with no context running. -/
def safePoint (e : Nat) (d : Dev) : Dev :=
  let g := d.eng e
  if !g.online || (g.busy && !g.atSafe) then d
  else
    let d0 := d.updEng e fun g => { g with atSafe := false }
    if g.offReq then
      let d1 := goOffline e (takeFault e d0)
      if g.paired then goOffline (e + 1) d1 else d1
    else
      let d1 := takeChalt e (takeFault e d0)
      match pickContext d1 e with
      | some c => resume e c d1
      | none => d1.updEng e fun g => { g with busy := false }

/-! ### The tick thread (R272, R273) -/

/-- TICK_STROBE_REACHES_ENGINE. -/
def strobeReaches (e : Nat) (d : Dev) : Dev :=
  let g := d.eng e
  if !g.online then
    (if bit g.ctl 7 then wakeEngine e 3 d else d)
  else
    let d1 :=
      if bit g.ready 0 then
        let past := { d with load := { d.load with
          overruns := if d.load.overNow then d.load.overruns else d.load.overruns + 1, overNow := true } }
        neFlag e 13 (past.updEng e fun g => { g with ovrc := incSat g.ovrc, tback := g.tback + 1 })
      else setReady e 0 true (d.updEng e fun g => { g with tickNo := d.tick.number })
    if bit g.ctl 7 then wakeEngine e 3 d1 else d1

/-- R273: m and j of engine `e` among the online engines of its cluster; a pair counts as one. -/
def shareOf (d : Dev) (e : Nat) : Nat × Nat :=
  let l := ((List.range 4).map (4 * (e / 4) + ·)).filter fun x => (d.eng x).online && !((d.eng x).paired && x % 2 == 1)
  (l.length, (l.filter fun x => decide (x < e)).length)

/-- R28: a tick's load of an engine, in hundredths of a percent of C. -/
def loadOf (d : Dev) (g : EngineCtl) : BitVec 16 := BitVec.ofNat 16 (min 65535 (g.cycles * 10000 / max 1 (cyclesPerTick d)))

/-- R276: LOCK taken up at a boundary for the even engine `e`: the pair forms or separates, both restart contexts 0 to 2, and
context 3 is halted. A request that context 1 was serving goes back to the queue (log entry 88: DEDUCED). -/
def takeLock (e : Nat) (d : Dev) : Dev :=
  let want := bit (d.eng e).ctl 2
  if (d.eng e).lockIn = want then d
  else
    let both (d : Dev) (f : EngineCtl → EngineCtl) : Dev := (d.updEng e f).updEng (e + 1) f
    let d1 := forEach [e, e + 1] (fun x d =>
      forEach [0, 1, 2] (fun c d => d.updCtx x c fun y => { y with start := true, stack := [], faulted := false }) d) d
    let d2 := both (requeue e (requeue (e + 1) d1)) fun g =>
      { g with paired := want, lockIn := want, busy := false, atSafe := false, chalted := true, ready := g.ready &&& 7#4 }
    d2.updEng (e + 1) fun g => { g with lockIn := false }

/-- R28: the loads of the tick that ends, at the C that was in force for it. -/
def engineLoads (d : Dev) : Dev :=
  let all := List.range 16
  let d1 := forEach all (fun e d =>
    d.updEng e fun g => { g with load := loadOf d g, cycles := 0 }) d
  let peak := all.foldl (fun m e => max m (d1.eng e).load.toNat) 0
  { d1 with load := { d1.load with
    tickLoad := BitVec.ofNat 16 peak, tickLoadPeak := BitVec.ofNat 16 (max peak d1.load.tickLoadPeak.toNat), overNow := false } }

/-- What a boundary does to the engines beside their loads: online requests, lockstep, shares. -/
def boundaryEngines (d : Dev) : Dev :=
  let all := List.range 16
  let d3 := forEach all (fun e d => if (d.eng e).onReq then comeOnline e d else d) d
  let d4 := forEach [0, 2, 4, 6, 8, 10, 12, 14] takeLock d3
  forEach all (fun e d => let s := shareOf d e
    d.updEng e fun g => { g with shareM := s.1, shareJ := s.2 }) d4

/-! ### Commands of NExx_CTL (R270, R276) -/

/-- CSTART: refused while no open-forme code is loaded or CENTRY lies outside 6000h–7FFFh. -/
def cstart (e : Nat) (d : Dev) : Dev :=
  let g := d.eng e
  if d.store.openState ≠ 2 ∨ g.centry.toNat < 0x6000 ∨ 0x7FFF < g.centry.toNat then neFlag e 12 d
  else
    setReady e 3 true ((d.updEng e fun g => { g with chalted := false, chaltReq := false }).updCtx e 3 fun x =>
      { x with start := true, stack := [] })

/-- CHALT: context 3 halts at the engine's next safe point. -/
def chalt (e : Nat) (d : Dev) : Dev := d.updEng e fun g => { g with chaltReq := true }

/-- LOCK_WRITE: even engines only; it acts at the next boundary. -/
def lockWrite (e : Nat) (v : Bool) (d : Dev) : Dev :=
  if e % 2 = 0 then d.updEng e fun g => { g with ctl := putBit g.ctl 2 v } else d

/-- A write to NExx_CTL. -/
def neCtlWrite (e : Nat) (v : W32) (d : Dev) : Dev :=
  let d1 := d.updEng e fun g => { g with ctl := setFld (putBit g.ctl 7 (bit v 7)) 5 2 (fld v 5 2) }
  let d2 := lockWrite e (bit v 2) d1
  let d3 := if bit v 0 then (if bit (d2.eng e).ctl 0 then d2 else offlineRequest e d2) else onlineRequest e d2
  let d4 := if bit v 4 then cstart e d3 else d3
  if bit v 3 then chalt e d4 else d4

/-- NExx_STAT as read. -/
def neStatRead (e : Nat) (d : Dev) : W32 :=
  let g := d.eng e
  let ready := (List.range 4).foldl (fun w c => w ||| atBit (isReady d e c) (8 + c)) (0 : W32)
  g.stat ||| ready ||| BitVec.ofNat 32 (g.ctx * 64) ||| atBit g.paired 5 ||| atBit g.chalted 4 ||| atBit g.online 1

/-- ENGINE_WAKE: the action of a slug: context CHAN[5:4] of NE(CHAN[3:0]); contexts 0 and 1 are ignored with WAKE_IGN. -/
def engineWake (chan sid : Nat) (t : Time64) (d : Dev) : Dev :=
  let e := chan % 16
  let c := chan / 16 % 4
  let d1 := if c < 2 then neFlag e 16 d else wakeEngine e c d
  match findOcc d sid t with
  | some o => reportComplete { o with begun := true } d1
  | none => d1

/-- DOORBELL: the action of a slug fires message source CHAN[7:0] (R119). -/
def doorbellAction (chan sid : Nat) (t : Time64) (d : Dev) : Dev :=
  let d1 := memberEvent (chan % 256) d
  match findOcc d sid t with
  | some o => reportComplete { o with begun := true } d1
  | none => d1

/-- 2011h:08h ENGINES_ONLINE. -/
def enginesOnline (d : Dev) : Nat := (List.range 16).foldl (fun m e => if (d.eng e).online then m + 2 ^ e else m) 0

/-- Both engines of a checked pair leave service on a mismatch (R276). -/
def lockstepMismatch (e : Nat) (d : Dev) : Dev :=
  let a := e / 2 * 2
  if (d.eng a).paired && (d.eng a).online then
    forEach [a, a + 1] (fun x d =>
      let c := (d.eng x).ctx
      let pc := (d.ctx x c).pc
      let d1 := (goOffline x d).updEng x fun g => { g with
        fault := BitVec.ofNat 32 (6 * 2 ^ 24 + c * 65536 + pc.toNat), faultc := incSat g.faultc }
      neFlag x 14 (neFlag x 15 d1)) d
  else d

end Sys2Proof.Machine
end

