-- ==== Sys2Proof/Machine/Micro.lean ====
section
/-! DEFINITION. One microword of an engine (R253–R266, R277, R278, R284): fetch through the patch vectors, stalls, the
units, memory, the ports, the sequencer. One MICROWORD is one ECLK of its engine. -/

namespace Sys2Proof.Machine

/-! ### Fetch (R280, R284) -/

/-- R284: an address the sequencer has formed, redirected by an enabled vector. -/
def redirect (d : Dev) (a : Nat) : BitVec 15 :=
  if a < 0x4000 then
    match d.store.vectors.find? fun e => bit e.2 31 && fld e.2 13 14 == a with
    | some e => BitVec.ofNat 15 (0x4000 + fld e.2 0 13)
    | none => BitVec.ofNat 15 a
  else BitVec.ofNat 15 a

/-- The word at an address: ROM below 4000h, RAM above; a RAM word that no load has written reads 0 (R281). -/
def fetchWord (d : Dev) (a : BitVec 15) : Microword :=
  if a.toNat < 0x4000 then Config.romWord a.toNat else Bank.get 0 d.store.words a.toNat

/-! ### Latches (R256, R265) -/

/-- One ECLK of a latch: results in flight come nearer, and those that have arrived are taken, the last one standing. -/
def Latch.tick (l : Latch) : Latch :=
  let fly := l.fly.map fun e => (e.1 - 1, e.2)
  let come := fly.filter fun e => e.1 == 0
  { cur := (come.getLast?.map (·.2)).getD l.cur, fresh := l.fresh || !come.isEmpty, fly := fly.filter fun e => e.1 != 0 }

/-- One ECLK of a context's results in flight. -/
def tickCtx (x : Ctx) : Ctx :=
  let angs := x.angs.map fun o => { o with left := o.left - 1 }
  let come := angs.filter fun o => o.left == 0
  come.foldl (fun x o => { x with
      anr := o.result, anrFresh := true, ahead := o.ahead.getD x.ahead, noroot := o.noroot.getD x.noroot })
    { x with mrd := x.mrd.tick, mdr := x.mdr.tick, angs := angs.filter fun o => o.left != 0 }

/-- One ECLK of an engine: its results in flight, its divider. -/
def tickEngine (e : Nat) (d : Dev) : Dev :=
  (forEach [0, 1, 2, 3] (fun c d => d.updCtx e c tickCtx) d).updEng e fun g => { g with divBusy := g.divBusy - 1 }

/-! ### Stalls -/

/-- A GET operation that finds its value awaited (R259, R264). -/
def getStalls (x : Ctx) (op : Nat) : Bool :=
  match op with
  | 0x20 => !x.mrd.fresh && !x.mrd.fly.isEmpty
  | 0x21 => (match x.retq with | none :: _ => true | _ => false)
  | 0x22 => x.galBusy
  | 0x23 => !x.mdr.fresh && !x.mdr.fly.isEmpty
  | 0x24 => !x.anrFresh && !x.angs.isEmpty
  | _ => false

/-- The word cannot issue in this ECLK (R256, R259, R260, R263). -/
def stalls (g : EngineCtl) (x : Ctx) (w : Microword) : Bool :=
  getStalls x (mwAop w) || getStalls x (mwBop w) || branchWaits x (mwBcond w) ||
  (mwGal w != 0 && x.galBusy && !x.faulted) || (isDivision (mwMdu w) && decide (0 < g.divBusy))

/-! ### Operands and results -/

def gReg (x : Ctx) (i : Nat) : W64 := Bank.get 0 x.regs i

/-- R255: operand B of ALU-A and of ALU-B. -/
def operandAB (x : Ctx) (w : Microword) : W64 :=
  if mwIa w then (if mwK64 w then wide (mwImm2 w) (mwImm w) else (mwImm w).signExtend 64) else gReg x (mwAsb w)
def operandBB (x : Ctx) (w : Microword) : W64 := if mwIb w then (mwImm2 w).signExtend 64 else gReg x (mwBsb w)

/-- GETID (R271). -/
def identityWord (d : Dev) (e c : Nat) : W64 :=
  let g := d.eng e
  BitVec.ofNat 64 (d.tick.number.toNat * 2 ^ 48 + g.shareM % 8 * 2 ^ 45 + g.shareJ % 4 * 2 ^ 43 + c * 2 ^ 40 + e * 2 ^ 36 + e / 4 * 2 ^ 34)

/-- GETX. -/
def indexWord (x : Ctx) : W64 := BitVec.ofNat 64 (x.xt.toNat * 2 ^ 32 + x.xb.toNat)

/-- The value of an ALU operation; `r` is what the manual does not state: a return queue without a word, and the |A| of ABS where
no signed value holds it (log entry 18). -/
def aluValue (d : Dev) (e c : Nat) (x : Ctx) (op : Nat) (a b r : W64) : W64 :=
  match op with
  | 0x20 => x.mrd.cur
  | 0x21 => (match x.retq with | some v :: _ => v | _ => r)
  | 0x22 => x.grs
  | 0x23 => x.mdr.cur
  | 0x24 => x.anr
  | 0x25 => d.tb.time
  | 0x26 => identityWord d e c
  | 0x29 => indexWord x
  | 0x13 => if a = BitVec.intMin 64 then r else aluResult op a b
  | _ => aluResult op a b

/-- What an ALU operation does to its context: its register, its flags, the latch or register it takes from or sets. -/
def aluApply (op dst : Nat) (flags : Bool) (a b v r : W64) (x : Ctx) : Ctx :=
  let x1 := if aluWrites op then setReg x dst v else x
  let cv := aluCarry op a b r
  let x2 := if flags && aluFlags op then { x1 with z := v == 0, n := v.msb, c := cv.1, v := cv.2 } else x1
  match op with
  | 0x20 => { x2 with mrd := { x2.mrd with fresh := false } }
  | 0x21 => { x2 with retq := x2.retq.tail }
  | 0x22 => { x2 with galIssued := x2.galBusy }
  | 0x23 => { x2 with mdr := { x2.mdr with fresh := false } }
  | 0x24 => { x2 with anrFresh := false }
  | 0x27 => { x2 with xb := a.setWidth 24 }
  | 0x28 => { x2 with xt := a.setWidth 12 }
  | _ => x2

/-- The address a word's DMA names, and whether its data access or block is allowed there (R255, R262). -/
def dmaAddr (q : Nat) (x : Ctx) (w : Microword) : Nat :=
  dataAddr q (if mwDmop w = 3 ∨ mwDmop w = 4 ∨ mwDmop w = 5 then (x.xb.toNat + mwDma w) % 2 ^ 24 else mwDma w)

/-- Words of the block of a GAL or CHOP operation; 0 where it has none. -/
def galBlock (g : Nat) : Nat := match g with | 1 | 3 | 4 | 7 | 9 => 4 | 6 => 5 | _ => 0
def chopBlock (c : Nat) : Nat := match c with | 5 => 8 | 6 => 6 | 7 => 4 | 8 => 12 | 9 => 4 | 0xA => 4 | 0xB => 2 | _ => 0

/-- R277: the fault a word makes, if any: 02h, 03h, 04h, 07h, 08h. -/
def wordFault (q : Nat) (x : Ctx) (w : Microword) (cond : Bool) : Option Nat :=
  let a := dmaAddr q x w
  let blockBad := (galBlock (mwGal w) != 0 && !ownBlock q a (galBlock (mwGal w))) ||
                  (chopBlock (mwChop w) != 0 && !ownBlock q a (chopBlock (mwChop w)))
  let pops := mwAop w == 0x21 || mwBop w == 0x21
  let getg := mwAop w == 0x22 || mwBop w == 0x22
  if (mwDmop w == 3 || mwDmop w == 4) && !dataExists a then some 4
  else if blockBad then some 4
  else if pops && x.retq.isEmpty then some 7
  else if mwChop w != 0 && 4 ≤ x.retq.length - (if pops then 1 else 0) then some 7
  else if getg && !x.galIssued then some 8
  else if mwSeq w == 1 && cond && 8 ≤ x.stack.length then some 2
  else if mwSeq w == 2 && cond && x.stack.isEmpty then some 3
  else none

/-- R257: the next address and the stack; an empty stack gives an address the manual does not state (`r`), a full one is
kept (log entry 18). -/
def sequence (d : Dev) (x : Ctx) (w : Microword) (cond : Bool) (r : W64) : BitVec 15 × List (BitVec 15) :=
  let next := redirect d ((x.pc.toNat + 1) % 2 ^ 15)
  match mwSeq w with
  | 0 => (if cond then redirect d (mwNxt w) else next, x.stack)
  | 1 => if cond then (redirect d (mwNxt w), if x.stack.length < 8 then (x.pc + 1) :: x.stack else x.stack) else (next, x.stack)
  | 2 =>
    if cond then
      (match x.stack with
       | a :: rest => (redirect d a.toNat, rest)
       | [] => (r.setWidth 15, []))
    else (next, x.stack)
  | _ => (redirect d ((mwNxt w + fld (gReg x (mwAsa w)) 0 4) % 2 ^ 15), x.stack)

/-! ### Memory and ports -/

/-- R262: the data-memory access of a word; `quiet` suppresses its stores. -/
def memoryAccess (e c : Nat) (w : Microword) (a : Nat) (v r : W64) (quiet : Bool) (d : Dev) : Dev :=
  let load (x : W64) (d : Dev) : Dev := d.updCtx e c fun y => { y with mrd := { y.mrd with fly := y.mrd.fly ++ [(2, x)] } }
  match mwDmop w with
  | 1 => load (d.read64 a) d
  | 2 => if quiet then d else d.write64 a v
  | 3 => load (if dataExists a then d.read64 a else r) d
  | 4 => if quiet then d else d.write64 a v
  | 6 => let m := d.read64 a; load m (if quiet then d else d.write64 a (m + v))
  | _ => d

def galOpOf (g : Nat) : GlOp :=
  match g with
  | 1 => .insert | 2 => .remove | 3 => .modify | 4 => .modifyDur | 5 => .free | 6 => .pop | 7 => .pend | 8 => .mark | _ => .read

/-- The galley operation of a word is presented (R263, R325). -/
def issueGal (e c : Nat) (w : Microword) (a : Nat) (v : W64) (xt : Nat) (d : Dev) : Dev :=
  let g := portWork e c (galOpOf (mwGal w)) v (mwImm2 w) a xt d
  { (d.updCtx e c fun x => { x with galBusy := true, galIssued := true }) with
    gs := { d.gs with presented := d.gs.presented ++ [g] } }

/-- The channel-bus operation of a word goes to its cluster's lane (R264, R265). -/
def issueChop (e c : Nat) (w : Microword) (a : Nat) (v : W64) (xt : Nat) (d : Dev) : Dev :=
  let o : ChanOp :=
    { eng := e, ctx := c, op := mwChop w, target := mwChsel w + xt, imm2 := mwImm2 w, data := v, blk := a
      block := (List.range 12).map fun i => d.read64 (a + i), ent := entryName (mwChop w) (mwChsel w + xt) d }
  (d.updCtx e c fun x => { x with retq := x.retq ++ [none] }).updLane (e / 4) fun l => { l with ops := l.ops ++ [o] }

/-! ### The trace ring (R278, R394) -/

def traceCap : Nat := 61440

def traceRecord (d : Dev) (e c : Nat) (pc : BitVec 15) (v : W64) : BitVec 128 :=
  BitVec.ofNat 128 (d.tb.time.toNat * 2 ^ 64 + e * 2 ^ 60 + c * 2 ^ 58 + pc.toNat * 2 ^ 43 + (loWord v).toNat)

def traceWrite (e c : Nat) (pc : BitVec 15) (v : W64) (d : Dev) : Dev :=
  if (d.eng e).traced || (d.trace.head + 1) % traceCap == d.trace.tail then
    { d with trace := { d.trace with dropped := incSat d.trace.dropped } }
  else
    let d1 := d.write128 (traceBase + 2 * d.trace.head) (traceRecord d e c pc v)
    ({ d1 with trace := { d1.trace with head := (d1.trace.head + 1) % traceCap } }).updEng e fun g => { g with traced := true }

/-! ### The word -/

/-- R276: the odd engine of a checked pair stands as its even engine does. -/
def mirrorPair (e : Nat) (d : Dev) : Dev :=
  if (d.eng e).paired && e % 2 == 0 then
    let g := d.eng e
    (forEach [0, 1, 2, 3] (fun c d => d.updCtx (e + 1) c fun _ => d.ctx e c) d).updEng (e + 1) fun h => { h with
      ctx := g.ctx, busy := g.busy, ready := g.ready, atSafe := g.atSafe, pendWake := g.pendWake, tback := g.tback, tickNo := g.tickNo
      pendFault := g.pendFault, chalted := g.chalted, taken := none }
  else d

/-- ECLK spent by contexts 0 and 1, and by context 1 on its request: a credit for each 120 that begin (R25, R28). -/
def spendCycle (e c : Nat) (d : Dev) : Dev :=
  d.updEng e fun g => { g with
    cycles := if c ≤ 1 then g.cycles + 1 else g.cycles
    spent := if c = 1 then g.spent + 1 else g.spent
    credits := if c = 1 ∧ g.taken.isSome = true ∧ 0 < g.spent ∧ g.spent % 120 = 0 then g.credits - 1 else g.credits }

/-- A word of context `c` executes; `r1` to `r6` are free values for what the manual leaves open in it. -/
def executeWord (e c : Nat) (w : Microword) (r1 r2 r3 r4 r5 r6 : W64) (d : Dev) : Dev :=
  let x := d.ctx e c
  let q := e / 4
  let cond := branchHolds x (mwBcond w) (match x.retq with | none :: _ => true | _ => false) (moreWork d e c)
  let fault := wordFault q x w cond
  let quiet := x.faulted || fault.isSome
  let aA := gReg x (mwAsa w)
  let aB := operandAB x w
  let bA := gReg x (mwBsa w)
  let bB := operandBB x w
  let va := aluValue d e c x (mwAop w) aA aB r1
  let vb := aluValue d e c x (mwBop w) bA bB r4
  let a := dmaAddr q x w
  let sq := sequence d x w cond r3
  -- ports and memory read their sources before any register is written
  let d1 := memoryAccess e c w a bA r2 quiet d
  let d2 := if mwGal w = 0 ∨ quiet = true then d1 else issueGal e c w a bA x.xt.toNat d1
  let d3 := if mwChop w = 0 ∨ quiet = true then d2 else issueChop e c w a bA x.xt.toNat d2
  let d4 := d3.updCtx e c fun y =>
    let y1 := aluApply (mwAop w) (mwAdst w) (mwFa w) aA aB va r2 y
    let y2 := aluApply (mwBop w) (mwBdst w) (mwFb w) bA bB vb (r2 >>> 2) y1
    let y3 := if mwMdu w = 0 then y2
      else { y2 with mdr := { y2.mdr with fly := y2.mdr.fly ++ [(if isDivision (mwMdu w) then 36 else 3, mduResult (mwMdu w) bA (gReg x (mwMsrc w)) r5)] } }
    let y4 := if mwAng w = 0 then y3
      else if mwAng w = 4 ∨ mwAng w = 5 then { y3 with model := angModel (mwAng w) y3.model bA bB }
      else { y3 with angs := y3.angs ++ [angResult (mwAng w) x.model bA bB r6] }
    { y4 with pc := sq.1, stack := sq.2, faulted := quiet }
  let d5 := d4.updEng e fun g => { g with
    divBusy := if isDivision (mwMdu w) then 36 else g.divBusy
    atSafe := mwSafe w
    pendFault := match g.pendFault, fault with | none, some f => some (f, c, x.pc.toNat) | p, _ => p }
  let d6 := if mwTrc w then traceWrite e c x.pc va d5 else d5.updEng e fun g => { g with traced := false }
  let d7 := tickEngine e (spendCycle e c d6)
  -- a word that faults has its work ended at the safe point (R277)
  if (mwAop w = 0x2A ∨ mwBop w = 0x2A) ∧ (d7.eng e).pendFault.isNone = true then endWork e c d7 else d7

/-- MICROWORD: one ECLK of engine `e`. With no context running, or at a safe point, or in a stall, no word issues and only
the results in flight come nearer. The odd engine of a checked pair runs with its even one. -/
def microword (e : Nat) (d : Dev) : Dev :=
  let g := d.eng e
  if !g.online || (g.paired && e % 2 == 1) then d
  else if !g.busy || g.atSafe then mirrorPair e (tickEngine e (d.updEng e fun g => { g with traced := false }))
  else
    let c := g.ctx
    let w := fetchWord d (d.ctx e c).pc
    if stalls g (d.ctx e c) w then
      mirrorPair e (tickEngine e (spendCycle e c (d.updEng e fun g => { g with traced := false })))
    else
      let f1 := d.draw
      let f2 := f1.2.draw
      let f3 := f2.2.draw
      let f4 := f3.2.draw
      let f5 := f4.2.draw
      let f6 := f5.2.draw
      mirrorPair e (executeWord e c w f1.1 f2.1 f3.1 f4.1 f5.1 f6.1 f6.2)

/-- SAFE_POINT with the pair kept together. -/
def safePointOp (e : Nat) (d : Dev) : Dev :=
  if (d.eng e).paired && e % 2 == 1 then d else mirrorPair e (safePoint e d)

end Sys2Proof.Machine
end

