-- ==== Sys2Proof/Machine/Loader.lean ====
section
/-! DEFINITION. The control-store loader (R286–R297): images, the field rules of R267, the path analysis of R289 and R290,
vendor patches and the open forme. -/

namespace Sys2Proof.Machine

/-! ### Field rules (R267) -/

def reservedCode (w : Microword) : Bool :=
  let alu (op : Nat) : Bool := decide ((0x1C ≤ op ∧ op < 0x20) ∨ 0x2B ≤ op)
  decide (0x16 ≤ mwBcond w) || alu (mwAop w) || alu (mwBop w) || decide (9 ≤ mwMdu w) || decide (8 ≤ mwAng w) ||
    decide (0xA ≤ mwGal w) || mwDmop w == 7

/-- A CHOP that takes an offset in IMM2. -/
def chopOffset (c : Nat) : Bool := c == 1 || c == 2 || c == 3 || c == 4 || c == 5 || c == 0xE || c == 0xF

/-- R267: the word keeps every field rule but the last, which is a rule of paths. -/
def wordLegal (w : Microword) : Bool :=
  let other := mwGal w == 8 || chopOffset (mwChop w)
  let dmAccess := mwDmop w != 0 && mwDmop w != 5
  let gb := galBlock (mwGal w) != 0
  let cb := chopBlock (mwChop w) != 0
  let special (op : Nat) : Bool := op == 0x21 || op == 0x27 || op == 0x28 || op == 0x2A
  let endw := mwAop w == 0x2A || mwBop w == 0x2A
  !reservedCode w &&
  (mwImm2 w == 0 || mwIb w || mwK64 w || other) &&
  (!mwK64 w || (mwIa w && !mwIb w && !other)) &&
  (mwDma w == 0 || mwDmop w != 0 || gb || cb) &&
  !((dmAccess && gb) || (dmAccess && cb) || (gb && cb)) &&
  !(aluWrites (mwAop w) && aluWrites (mwBop w) && mwAdst w == mwBdst w) &&
  !(special (mwAop w) && special (mwBop w)) &&
  !(mwFa w && mwFb w) &&
  (!endw || mwSafe w) &&
  (mwSeq w != 3 || mwBcond w == 0)

/-! ### Path analysis (R289, R290) -/

/-- What the paths from one word come to, counts saturating just past their limits: `run`, the words with SAFE = 0 up to the
first safe point; `thru`, the same over a path that returns without one; `tail`, the words with SAFE = 0 between the last
safe point and the return; `depth`, nested calls; `past`, a run that passes 256 across a return. -/
structure PathSum where
  run : Nat := 0
  thru : Option Nat := none
  tail : Option Nat := none
  depth : Nat := 0
  past : Bool := false
  deriving DecidableEq, Repr

def capRun (n : Nat) : Nat := min n 257
def maxOpt (a b : Option Nat) : Option Nat :=
  match a, b with | some x, some y => some (max x y) | some x, none => some x | none, y => y
def plusOpt (a b : Option Nat) : Option Nat :=
  match a, b with | some x, some y => some (capRun (x + y)) | _, _ => none

/-- Either path. -/
def PathSum.or (a b : PathSum) : PathSum :=
  ⟨max a.run b.run, maxOpt a.thru b.thru, maxOpt a.tail b.tail, max a.depth b.depth, a.past || b.past⟩

/-- A called routine `f`, and then the words `k` after its return. -/
def PathSum.call (f k : PathSum) : PathSum :=
  let back := f.thru.isSome || f.tail.isSome
  let cross : Nat := match f.tail with | some t => t + k.run | none => 0
  { run := capRun (max f.run (match f.thru with | some t => t + k.run | none => 0))
    thru := plusOpt f.thru k.thru
    tail := maxOpt (if back then k.tail else none) (plusOpt f.tail k.thru)
    depth := min 9 (max (f.depth + 1) k.depth)
    past := f.past || (back && k.past) || decide (256 < cross) }

/-- One word in front of what follows it. -/
def PathSum.step (safe : Bool) (k : PathSum) : PathSum :=
  if safe then ⟨0, none, maxOpt k.tail k.thru, k.depth, k.past || decide (256 < k.run)⟩
  else ⟨capRun (k.run + 1), k.thru.map fun t => capRun (t + 1), k.tail, k.depth, k.past⟩

/-- Plain successors of a word at `a` (R289): NXT, this address + 1, DISP's sixteen. A conditional RET that is not taken goes
on to this address + 1 as R257 lays down (log entry 20: DEDUCED). -/
def plainSucc (a : Nat) (w : Microword) : List Nat :=
  let next := (a + 1) % 2 ^ 15
  match mwSeq w with
  | 0 => if mwBcond w = 0 then [mwNxt w] else if mwBcond w = 1 then [next] else [mwNxt w, next]
  | 1 => if mwBcond w = 0 then [] else [next]
  | 2 => if mwBcond w = 0 then [] else [next]
  | _ => (List.range 16).map fun i => (mwNxt w + i) % 2 ^ 15

/-- The summary of the word at `a` from the summaries `f` of the others. -/
def sumWord (f : Nat → PathSum) (a : Nat) (w : Microword) : PathSum :=
  let plain := (plainSucc a w).foldl (fun acc b => acc.or (f b)) {}
  let k := match mwSeq w with
    | 1 => plain.or (PathSum.call (f (mwNxt w)) (f ((a + 1) % 2 ^ 15)))
    | 2 => plain.or { thru := some 0 }
    | _ => plain
  PathSum.step (mwSafe w) k

/-- Words as a sequencer finds them: the word at an address, and the address that the vectors put in place of another (R284:
"this address" is the one actually fetched). -/
structure StoreView where
  word : Nat → Microword
  redir : Nat → Nat := id

/-- Summaries of words by the address fetched, taken forward until they no longer change or the fuel ends. -/
def relax (v : StoreView) (ext : Nat → PathSum) (nodes : List Nat) : Nat → Bank PathSum → Bank PathSum
  | 0, b => b
  | k + 1, b =>
    let look (a : Nat) : PathSum := let f := v.redir a; if nodes.contains f then Bank.get {} b f else ext f
    let b1 := nodes.map fun a => (a, sumWord look a (v.word a))
    if b1 = b then b else relax v ext nodes k b1

/-- Enough steps for every count to reach its limit: a path of 257 words through 9 nested calls over every word. -/
def relaxFuel (n : Nat) : Nat := 9 * (n + 258)

def analyse (v : StoreView) (ext : Nat → PathSum) (nodes : List Nat) : Bank PathSum :=
  relax v ext nodes (relaxFuel nodes.length) (nodes.map fun a => (a, {}))

/-- R290: the rule is broken at a word. -/
def pathBroken (p : PathSum) : Bool := decide (256 < p.run) || p.past || decide (8 < p.depth)

/-- Targets a word names. -/
def targetsOf (a : Nat) (w : Microword) : List Nat :=
  (plainSucc a w) ++ (if mwSeq w = 1 then [mwNxt w, (a + 1) % 2 ^ 15] else [])

/-- The ROM and the vendor patch in force, as the vectors redirect them: the figures of the service entries (R290). -/
def storeSums (d : Dev) : Bank PathSum :=
  analyse ⟨fun a => fetchWord d (BitVec.ofNat 15 a), fun a => (redirect d a).toNat⟩ (fun _ => {})
    ((List.range 0x4000) ++ (d.store.words.filter fun e => decide (e.1 < 0x6000)).map (·.1))

def isService (a : Nat) : Bool := decide (0x100 ≤ a ∧ a < 0x200)

/-- R289: where the analysis of a vendor patch starts: the context entries of R269 in ROM and the service entries. -/
def romEntries : List Nat := [0x10, 0x20, 0x30] ++ (List.range 0x100).map (0x100 + ·)

/-! ### Codes and images (R286–R288) -/

/-- Codes of R288. -/
inductive LoadCode where
  | ok | format | key | signature | decrypt | vector | word | target | safe | lifecycle | patchLevel | busy
  deriving DecidableEq, Repr

def loadCodeNo (c : LoadCode) : Nat :=
  match c with
  | .ok => 0 | .format => 1 | .key => 2 | .signature => 3 | .decrypt => 4 | .vector => 5 | .word => 6 | .target => 7
  | .safe => 8 | .lifecycle => 9 | .patchLevel => 10 | .busy => 11

/-- The header fields of an image. -/
def imVersion (im : List Byte) : Nat := leNat (slice im 0x08 4)
def imBase (im : List Byte) : Nat := leNat (slice im 0x0C 2)
def imWords (im : List Byte) : Nat := leNat (slice im 0x0E 2)
def imVecs (im : List Byte) : Nat := leNat (slice im 0x10 2)
def imPatchReq (im : List Byte) : Nat := leNat (slice im 0x30 4)
def imPubkey (im : List Byte) : List Byte := slice im 0x40 64
def imSig (im : List Byte) : List Byte := slice im 0x80 64
def imBody (im : List Byte) : List Byte := im.drop 0xC0

/-- R286: the header and the size are right. -/
def formatOk (vendor : Bool) (im : List Byte) : Bool :=
  let lo := if vendor then 0x4000 else 0x6000
  decide (0xC0 ≤ im.length) && decide (leNat (slice im 0 4) = 0x53434C45) && decide (leNat (slice im 4 2) = if vendor then 1 else 2) &&
  decide (leNat (slice im 6 2) = 1) && decide (1 ≤ imWords im ∧ imWords im ≤ 8192) && decide (imVecs im ≤ if vendor then 256 else 0) &&
  decide (lo ≤ imBase im ∧ imBase im + imWords im ≤ lo + 0x2000) && allZero (slice im 0x12 2) && allZero (slice im 0x34 12) &&
  (if vendor then decide (imPatchReq im = 0) && decide (1 ≤ imVersion im) else allZero (slice im 0x14 28)) &&
  decide (im.length = 0xC0 + 4 * imVecs im + 24 * imWords im)

/-- R287: the bytes the signature covers. -/
def signedDigest (im : List Byte) : BitVec 256 := Config.sha256 (slice im 0 0x80 ++ imBody im)

/-- R287, R288: key hash and signature against a fused hash. -/
def keyCode (hash : BitVec 256) (im : List Byte) : LoadCode :=
  if Config.sha256 (imPubkey im) ≠ hash then .key
  else if Config.ecdsaVerify (imPubkey im) (imSig im) (signedDigest im) then .ok
  else .signature

/-- The words of a body at `k`, as pairs of address and word. -/
def bodyWords (base n : Nat) (b : List Byte) : List (Nat × Microword) :=
  (List.range n).map fun i => (base + i, BitVec.ofNat 192 (leNat (slice b (24 * i) 24)))
def bodyVectors (n : Nat) (b : List Byte) : List W32 := (List.range n).map fun i => BitVec.ofNat 32 (leNat (slice b (4 * i) 4))

/-- R288: every vector is right. -/
def vectorsOk (base n : Nat) (v : List W32) : Bool :=
  v.all (fun w => fld w 27 4 == 0 && decide (base ≤ 0x4000 + fld w 0 13 ∧ 0x4000 + fld w 0 13 < base + n)) &&
  decide ((v.map fun w => fld w 13 14).Nodup)

/-- Where a load stops: its code, its phase and its position. -/
structure LoadEnd where
  code : LoadCode
  phase : Nat
  position : Nat
  deriving DecidableEq, Repr

/-- Phases 3 and 4 over the words of an image: `callOk` says which targets outside the image a call may have, `anyOk` which any
word may have, `ext` their figures. `more` are the words analysed together with the image and `redir` the redirection in force;
`entries` are where the paths start. A failure names the first word at which it shows in ascending order (log entry 20). -/
def checkWords (words : List (Nat × Microword)) (callOk : Nat → Bool) (anyOk : Nat → Bool) (ext : Nat → PathSum)
    (more : List (Nat × Microword)) (redir : Nat → Nat) (entries : List Nat) : LoadEnd :=
  let view : StoreView := ⟨fun a => Bank.get 0 (words ++ more) a, redir⟩
  let own := words.map (·.1)
  match words.find? fun e => !wordLegal e.2 with
  | some e => ⟨.word, 3, e.1⟩
  | none =>
    let good (e : Nat × Microword) : Bool :=
      (plainSucc e.1 e.2).all (fun b => own.contains b || anyOk b) &&
      (mwSeq e.2 != 1 || ((own.contains (mwNxt e.2) || anyOk (mwNxt e.2) || callOk (mwNxt e.2)) &&
        (own.contains ((e.1 + 1) % 2 ^ 15) || anyOk ((e.1 + 1) % 2 ^ 15))))
    match words.find? fun e => !good e with
    | some e => ⟨.target, 4, e.1⟩
    | none =>
      let broken (nodes : List Nat) : Bool :=
        let sums := analyse view ext nodes
        entries.any fun a => pathBroken (Bank.get {} sums (redir a))
      let extra := more.map (·.1)
      if broken (own ++ extra) then
        match own.find? fun a => broken ((own.filter fun b => decide (b ≤ a)) ++ extra) with
        | some a => ⟨.safe, 4, a⟩
        | none => ⟨.safe, 4, own.getLastD 0⟩
      else ⟨.ok, 4, own.getLastD 0⟩

/-! ### The open forme (R291–R295) -/

def romFigures (d : Dev) : Nat → PathSum := fun a => if isService a then Bank.get {} (storeSums d) a else {}

/-- R292: the lifecycle admits an open-forme image, and the hash it is checked against. -/
def openAdmits (v : Vault) : Option (Option (BitVec 256)) :=
  match v.lifecycle, v.custHash with
  | .develop, h => some h
  | .field, some h => some (some h)
  | _, _ => none

/-- The end of an open-forme load. -/
def openEnd (c : Core) (im : List Byte) : LoadEnd :=
  match openAdmits c.vault with
  | none => ⟨.lifecycle, 1, 0⟩
  | some h =>
    if !formatOk false im then ⟨.format, 1, 0⟩
    else
      let k := match h with | some x => keyCode x im | none => .ok
      if k ≠ .ok then ⟨k, 1, 0⟩
      else if imPatchReq im ≠ 0 ∧ (c.dev.store.patchState ≠ 1 ∨ c.dev.store.patchVersion.toNat < imPatchReq im) then ⟨.patchLevel, 1, 0⟩
      else checkWords (bodyWords (imBase im) (imWords im) (imBody im)) isService (fun _ => false) (romFigures c.dev) [] id
        ((bodyWords (imBase im) (imWords im) (imBody im)).map (·.1))

/-- The words of one region cleared. -/
def clearRegion (lo hi : Nat) (s : Store) : Store := { s with words := s.words.filter fun e => decide (e.1 < lo ∨ hi ≤ e.1) }

def writeWords (ws : List (Nat × Microword)) (s : Store) : Store :=
  { s with words := ws.foldl (fun b e => Bank.set 0 b e.1 e.2) s.words }

/-- R297, R392: the long operation ends; source 3A9h fires. -/
def loadReport (kind : Nat) (e : LoadEnd) (d : Dev) : Dev :=
  let s := { d.store with
    loState := if e.code = .ok then 2 else 3, kind := kind, phase := e.phase, position := BitVec.ofNat 32 e.position
    progress := if e.code = .ok then 10000 else match e.phase with | 0 | 1 => 0 | 2 => 3000 | 3 => 6000 | _ => 8000 }
  memberEvent 0x3A9 { d with store := s }

/-- R291: an open forme accepted is in force; refused after phase 1 its region is cleared, since phase 2 had begun to
overwrite it; refused in phase 1 the old one stays (R294). -/
def settleOpen (im : List Byte) (e : LoadEnd) (d : Dev) : Dev :=
  let s := d.store
  let s1 := { s with openResult := loadCodeNo e.code }
  let s2 :=
    if e.code = .ok then
      { writeWords (bodyWords (imBase im) (imWords im) (imBody im)) (clearRegion 0x6000 0x8000 s1) with
        openState := 2, openBase := imBase im, openWords := imWords im, openPatchReq := BitVec.ofNat 32 (imPatchReq im), running := im }
    else if e.phase ≤ 1 then { s1 with openState := s.openPrev }
    else { clearRegion 0x6000 0x8000 s1 with openState := 0, openBase := 0, openWords := 0, openPatchReq := 0, running := [] }
  loadReport 2 e { d with store := s2 }

/-- Context 3 is halted on every engine (R294). -/
def allHalted (d : Dev) : Bool := (List.range 16).all fun e => (d.eng e).chalted

/-- A run-time load begins (R294): OPEN_STATE is 1, or BUSY leaves it as it was. -/
def openLoadStart (d : Dev) : Dev :=
  if allHalted d then
    { d with store := { d.store with openPrev := d.store.openState, openState := 1, loState := 1, progress := 0, phase := 1, kind := 2, position := 0 } }
  else loadReport 2 ⟨.busy, 0, 0⟩ { d with store := { d.store with openResult := loadCodeNo .busy } }

/-- OPEN_FORME_LOAD_DONE: the phases of the load in progress end (R291). -/
def openLoadDone (c : Core) : Core :=
  if c.dev.store.openState = 1 then
    { c with dev := settleOpen c.dev.store.image (openEnd c c.dev.store.image) c.dev }
  else c

/-- UNLOAD (R294): under the same BUSY check, the region is cleared and OPEN_STATE is 0. -/
def openUnload (d : Dev) : Dev :=
  if allHalted d then
    { d with store := { clearRegion 0x6000 0x8000 d.store with openState := 0, openBase := 0, openWords := 0, openPatchReq := 0, running := [] } }
  else { d with store := { d.store with openResult := loadCodeNo .busy } }

/-! ### The vendor patch (R287, R291, R293) -/

/-- The end of a vendor patch's load, with the plaintext body. -/
def patchEnd (c : Core) (im : List Byte) : LoadEnd × List Byte :=
  if c.vault.lifecycle = .retired then (⟨.lifecycle, 1, 0⟩, [])
  else if !formatOk true im then (⟨.format, 1, 0⟩, [])
  else
    let k := keyCode Config.vendorKeyHash im
    if k ≠ .ok then (⟨k, 1, 0⟩, [])
    else match Config.gcmOpen Config.deviceKey (slice im 0x14 12) (slice im 0 0x40) (imBody im) (slice im 0x20 16) with
      | none => (⟨.decrypt, 2, 0⟩, [])
      | some b =>
        let ws := bodyWords (imBase im) (imWords im) (b.drop (4 * imVecs im))
        let vs := bodyVectors (imVecs im) b
        if !vectorsOk (imBase im) (imWords im) vs then (⟨.vector, 2, 0⟩, b)
        else
          -- analysed together with the ROM as its vectors redirect it
          let redir (a : Nat) : Nat := match vs.find? fun v => bit v 31 && fld v 13 14 == a with | some v => 0x4000 + fld v 0 13 | none => a
          let rom := (List.range 0x4000).map fun a => (a, Config.romWord a)
          (checkWords ws (fun a => decide (a < 0x4000)) (fun a => decide (a < 0x4000)) (fun _ => {}) rom redir romEntries, b)

/-- R293: a vendor patch found in flash. -/
def applyPatch (im : List Byte) (c : Core) : Core :=
  let r := patchEnd c im
  let s := c.dev.store
  if r.1.code = .ok then
    let ws := bodyWords (imBase im) (imWords im) (r.2.drop (4 * imVecs im))
    let vs := (bodyVectors (imVecs im) r.2).zipIdx
    let s1 := { writeWords ws (clearRegion 0x4000 0x6000 s) with
      vectors := vs.foldl (fun b v => Bank.set 0 b v.2 v.1) [], patchState := 1, patchResult := 0, patchVersion := BitVec.ofNat 32 (imVersion im) }
    { c with dev := loadReport 1 r.1 { c.dev with store := s1 } }
  else
    let s1 := { clearRegion 0x4000 0x6000 s with vectors := [], patchState := 2, patchResult := loadCodeNo r.1.code, patchVersion := 0 }
    { c with dev := memberEvent 0x3A8 (loadReport 1 r.1 { c.dev with store := s1 }) }

/-- 2040h:0Dh. -/
def vectorsUsed (d : Dev) : Nat := (d.store.vectors.filter fun e => bit e.2 31).length

end Sys2Proof.Machine
end

