-- ==== Sys2Proof/Machine/Compositor.lean ====
section
/-! DEFINITION. Compositors (R233–R251): one definition per instruction, steps and delays, holding registers, start, halt,
enable, and the programming writes. -/

namespace Sys2Proof.Machine

/-! ### Fields -/

def cpEn (c : Comp) : Bool := bit c.r.ctl 31
def cpOcnt (c : Comp) : Nat := fld c.r.pins 16 4
/-- FTH; 0 and values above 64 are used as 64. -/
def cpFth (c : Comp) : Nat := let f := fld c.r.ctl 16 7; if f = 0 ∨ 64 < f then 64 else f
/-- The instruction at PC. -/
def cpWord (c : Comp) : W32 := Bank.get 0 c.imem c.r.pc.toNat

/-- A W1C bit of CPnn_STAT; ILLOP 10, SELF_HALT 9 and SIG 8 fire source 280h + k (R298). -/
def cpFlag (k b : Nat) (d : Dev) : Dev :=
  let d := d.updComp k fun c => { c with r := { c.r with stat := orBit c.r.stat b } }
  if 8 ≤ b && b ≤ 10 then memberEvent (0x280 + k) d else d

/-- The input level of window index `i` (R233, R235). -/
def cpInput (d : Dev) (c : Comp) (i : Nat) : Bool := (d.pin ((fld c.r.pins 8 8 + i) % 256)).level

/-- R237, R242: the word is reserved in some field. -/
def cpIllegal (w : W32) : Bool :=
  match fld w 28 4 with
  | 0 => fld w 16 6 != 0
  | 1 | 2 => fld w 19 5 != 0 || fld w 3 13 != 0
  | 3 => fld w 19 3 != 0 || fld w 9 7 != 0 || fld w 1 7 != 0
  | 4 => fld w 0 14 != 0 || fld w 14 2 == 3 || decide (8 ≤ fld w 16 4) || decide (8 ≤ fld w 20 4)
  | 5 => fld w 6 2 != 0 || decide (13 ≤ fld w 19 5)
  | 6 | 7 => fld w 0 24 != 0
  | _ => true

/-- The compositor executes an instruction in this step: it runs, no delay step is due, and its word is legal with operation
`op`. -/
def cpExecutes (c : Comp) (op : Nat) : Bool :=
  c.run && c.dly == 0 && !c.halting && !cpIllegal (cpWord c) && fld (cpWord c) 28 4 == op

/-- An instruction completes: its DLY follows, at `pc` next; the next step comes DIV + 1 TCLK later. -/
def cpNext (c : Comp) (pc : BitVec 6) : Comp :=
  { c with r := { c.r with pc := pc }, dly := fld (cpWord c) 24 4, stall := false, waitTick := false, tickSeen := false,
           until_ := fld c.r.ctl 0 16 + 1 }

/-- The step passes and the same instruction is retried in the next one. -/
def cpRetry (c : Comp) : Comp := { c with stall := true, until_ := fld c.r.ctl 0 16 + 1 }

/-- Halted (R247): the remaining delay is discarded. -/
def cpHalted (c : Comp) : Comp :=
  { c with run := false, tpend := false, stall := false, dly := 0, halting := false, waitTick := false, tickSeen := false, until_ := 0 }

/-- Halted by its own program: until the TCLK ends it is not halted for a write or a start that lands in it (R248, R249). -/
def cpEnds (c : Comp) : Comp := { cpHalted c with ended := true }

/-- EN, levels and drive enables change at the pins in the next TCLK (R234). -/
def keepPins (c : Comp) : Comp := { c with pinsWere := some (compPins c) }

/-- A write of WT: a step of the same TCLK compares with the value that stood at its start (R249). -/
def wtPut (v : W64) (c : Comp) : Comp := { c with wtWas := some (c.wtWas.getD c.r.wt), r := { c.r with wt := v } }

/-- The bits of `v` at the output indices below OCNT that `mask` names, over `old` (R234). -/
def cpMerge (c : Comp) (old mask v : BitVec 8) : BitVec 8 :=
  let m := mask &&& BitVec.ofNat 8 (2 ^ cpOcnt c - 1)
  (old &&& ~~~m) ||| (v &&& m)

/-! ### Instructions (R238–R242) -/

/-- SET (R238). -/
def cpSet (k : Nat) (d : Dev) : Dev :=
  let c := d.comp k
  let w := cpWord c
  if cpExecutes c 0 then
    let mask : BitVec 8 := BitVec.ofNat 8 (fld w 8 8)
    let v : BitVec 8 := BitVec.ofNat 8 (fld w 0 8)
    let imm : W32 := BitVec.ofNat 32 (fld w 0 16)
    d.updComp k fun c =>
      let c1 := match fld w 22 2 with
        | 0 => { keepPins c with levels := cpMerge c c.levels mask v }
        | 1 => { keepPins c with drives := cpMerge c c.drives mask v }
        | 2 => { c with r := { c.r with c0 := imm } }
        | _ => { c with r := { c.r with c1 := imm } }
      cpNext c1 (c.r.pc + 1)
  else d

/-- R239: one OUT bit and the shifter after it. -/
def shiftOut (osd : Bool) (s : W64) : Bool × W64 := if osd then (s.getLsbD 0, s >>> 1) else (s.getLsbD 63, s <<< 1)

/-- R239: the shifter after one IN bit. -/
def shiftIn (isd b : Bool) (s : W64) : W64 :=
  if isd then (s >>> 1) ||| (if b then 0x8000000000000000#64 else 0) else (s <<< 1) ||| (if b then 1#64 else 0)

/-- OUT (R239). -/
def cpOut (k : Nat) (d : Dev) : Dev :=
  let c := d.comp k
  let w := cpWord c
  if cpExecutes c 1 then
    d.updComp k fun c =>
      let c1 := (List.range (fld w 0 3 + 1)).foldl (fun c j =>
        let o := shiftOut (bit c.r.ctl 29) c.r.s
        let i := fld w 16 3 + j
        let one : BitVec 8 := BitVec.ofNat 8 (2 ^ i)
        { c with r := { c.r with s := o.2, bc := c.r.bc - 1 },
                 levels := if i < cpOcnt c then (if o.1 then c.levels ||| one else c.levels &&& ~~~one) else c.levels }) (keepPins c)
      cpNext c1 (c.r.pc + 1)
  else d

/-- The level IN reads at input index `i`; beyond the window of eight the manual states none: a free bit (log entry 15). -/
def inputBit (k i : Nat) (d : Dev) : Bool × Dev :=
  if i < 8 then (cpInput d (d.comp k) i, d) else let q := d.draw; (q.1.getLsbD 0, q.2)

/-- IN (R239). -/
def cpIn (k : Nat) (d : Dev) : Dev :=
  let c := d.comp k
  let w := cpWord c
  if cpExecutes c 2 then
    let d1 := forEach (List.range (fld w 0 3 + 1)) (fun j d =>
      let b := inputBit k (fld w 16 3 + j) d
      b.2.updComp k fun c => { c with r := { c.r with s := shiftIn (bit c.r.ctl 30) b.1 c.r.s, bc := min (c.r.bc + 1) 64 } }) d
    d1.updComp k fun c => cpNext c (c.r.pc + 1)
  else d

/-- WAIT (R240). -/
def cpWait (k : Nat) (d : Dev) : Dev :=
  let c := d.comp k
  let w := cpWord c
  if cpExecutes c 3 then
    match fld w 22 2 with
    | 0 =>
      if cpInput d c (fld w 16 3) = bit w 8 then d.updComp k fun c => cpNext c (c.r.pc + 1) else d.updComp k cpRetry
    | 1 =>
      let n := if bit w 0 then c.r.c1 else c.r.c0
      if n = 0 then d.updComp k fun c => cpNext c (c.r.pc + 1)
      else d.updComp k fun c => cpRetry { c with r := if bit w 0 then { c.r with c1 := c.r.c1 - 1 } else { c.r with c0 := c.r.c0 - 1 } }
    | 2 =>
      if atOrAfter d.tb.time (c.wtWas.getD c.r.wt) then d.updComp k fun c => cpNext c (c.r.pc + 1) else d.updComp k cpRetry
    | _ =>
      let strobeNow := d.tick.strobeAt == some d.tb.tclk
      if strobeNow || (c.waitTick && c.tickSeen) then d.updComp k fun c => cpNext c (c.r.pc + 1)
      else d.updComp k fun c => { cpRetry c with waitTick := true }
  else d

/-- The bit-reverse of 32 bits. -/
def reverse32 (v : W32) : W32 := (List.range 32).foldl (fun acc i => if v.getLsbD i then orBit acc (31 - i) else acc) 0

/-- What MOV reads (R241). -/
def cpSource (d : Dev) (c : Comp) (src : Nat) : W32 :=
  match src with
  | 0 => c.r.txd
  | 1 => loWord c.r.s
  | 2 => hiWord c.r.s
  | 3 => c.r.c0
  | 4 => c.r.c1
  | 5 => (List.range 8).foldl (fun acc i => if cpInput d c i then orBit acc i else acc) 0
  | 6 => 0
  | _ => BitVec.ofNat 32 c.r.bc

/-- What MOV writes (R241). -/
def cpDest (c : Comp) (dst : Nat) (v : W32) : Comp :=
  match dst with
  | 0 => { c with r := { c.r with rxd := v, rxf := true }, rxWas := some (c.rxWas.getD c.r.rxd) }
  | 1 => { c with r := { c.r with s := v.setWidth 64, bc := 32 } }
  | 2 => { c with r := { c.r with s := wide v 0, bc := 32 } }
  | 3 => { c with r := { c.r with c0 := v } }
  | 4 => { c with r := { c.r with c1 := v } }
  | 5 => { keepPins c with levels := cpMerge c c.levels 255 (v.setWidth 8) }
  | 6 => { c with r := { c.r with bc := min v.toNat 64 } }
  | _ => { keepPins c with drives := cpMerge c c.drives 255 (v.setWidth 8) }

/-- The take of TXD (R243): a write that came in the same TCLK and found it full is stored after all, and TXF stays 1. -/
def txTake (c : Comp) : Comp :=
  match c.txTry with
  | some (v, ovr) => { c with r := { c.r with txd := v, stat := putBit c.r.stat 11 ovr }, txTry := none }
  | none => { c with r := { c.r with txf := false } }

/-- MOV (R241): it stalls on an empty TXD, one that is filled in this TCLK included, and on a full RXD. A fall of TXF and a rise of RXF
fire the source. -/
def cpMov (k : Nat) (d : Dev) : Dev :=
  let c := d.comp k
  let w := cpWord c
  if cpExecutes c 4 then
    let src := fld w 16 4
    let dst := fld w 20 4
    if (src == 0 && (!c.r.txf || c.txNew)) || (dst == 0 && c.r.rxf) then d.updComp k cpRetry
    else
      let x := cpSource d c src
      let v := match fld w 14 2 with | 0 => x | 1 => ~~~x | _ => reverse32 x
      let d1 := d.updComp k fun c =>
        let c1 := if src = 0 then txTake c else c
        cpNext (cpDest c1 dst v) (c.r.pc + 1)
      if (src == 0 && c.txTry.isNone) || dst == 0 then memberEvent (0x280 + k) d1 else d1
  else d

/-- R242: the condition of a JMP. -/
def cpCond (d : Dev) (c : Comp) (w : W32) : Bool :=
  match fld w 19 5 with
  | 0 => true
  | 1 => c.r.c0 != 0
  | 2 => c.r.c1 != 0
  | 3 => c.r.c0 == 0
  | 4 => c.r.c1 == 0
  | 5 => cpInput d c (fld w 16 3)
  | 6 => !cpInput d c (fld w 16 3)
  | 7 => c.r.bc == 0
  | 8 => decide (cpFth c ≤ c.r.bc)
  | 9 => c.r.bc == fld w 8 8
  | 10 => c.r.txf
  | 11 => !c.r.rxf
  | _ => c.r.c0 == c.r.c1

/-- JMP (R242). -/
def cpJmp (k : Nat) (d : Dev) : Dev :=
  let c := d.comp k
  let w := cpWord c
  if cpExecutes c 5 then
    if cpCond d c w then
      d.updComp k fun c =>
        let c1 := match fld w 19 5 with
          | 1 => { c with r := { c.r with c0 := c.r.c0 - 1 } }
          | 2 => { c with r := { c.r with c1 := c.r.c1 - 1 } }
          | _ => c
        cpNext c1 (BitVec.ofNat 6 (fld w 0 6))
    else d.updComp k fun c => cpNext c (c.r.pc + 1)
  else d

/-- The event groups that SIG of compositor `k` triggers (R393). -/
def sigGroups (d : Dev) (k : Nat) : List Nat :=
  (d.ds.groups.filter fun e => e.2.enable && fld e.2.trigger 28 4 == 3 && fld e.2.trigger 0 6 == k).map (·.1)

/-- SIG (R242); it triggers the event groups that name it (R393). -/
def cpSig (k : Nat) (d : Dev) : Dev :=
  let c := d.comp k
  if cpExecutes c 6 then
    let d1 := cpFlag k 8 (d.updComp k fun c => cpNext c (c.r.pc + 1))
    { d1 with ds := { d1.ds with trigs := d1.ds.trigs ++ sigGroups d k } }
  else d

/-- HALT (R242): it halts after its DLY, with PC at the next address, and sets SELF_HALT. -/
def cpHalt (k : Nat) (d : Dev) : Dev :=
  let c := d.comp k
  if cpExecutes c 7 then
    if fld (cpWord c) 24 4 = 0 then
      cpFlag k 9 (d.updComp k fun c => cpEnds { c with r := { c.r with pc := c.r.pc + 1 } })
    else d.updComp k fun c => { cpNext c (c.r.pc + 1) with halting := true }
  else d

/-- ILLOP (R242): a word reserved in any field halts the compositor at once, PC at its own address. -/
def cpIllop (k : Nat) (d : Dev) : Dev :=
  let c := d.comp k
  if c.run && c.dly == 0 && !c.halting && cpIllegal (cpWord c) then cpFlag k 10 (d.updComp k cpEnds) else d

/-- COMPOSITOR_DELAY_STEP: a step of DLY passes; after the last one of a HALT the compositor halts. -/
def cpDelayStep (k : Nat) (d : Dev) : Dev :=
  let c := d.comp k
  if c.run && decide (0 < c.dly) then
    if c.halting && c.dly == 1 then cpFlag k 9 (d.updComp k cpEnds)
    else d.updComp k fun c => { c with dly := c.dly - 1, until_ := fld c.r.ctl 0 16 + 1 }
  else d

/-! ### Holding registers (R243) -/

/-- TXD_WRITE: stored only while TXF = 0, otherwise TXOVR; the first such write of a TCLK waits for a take in the same TCLK. -/
def txdWrite (k : Nat) (v : W32) (d : Dev) : Dev :=
  let c := d.comp k
  if c.r.txf then
    cpFlag k 11 (if c.txNew || c.txTry.isSome then d else d.updComp k fun c => { c with txTry := some (v, bit c.r.stat 11) })
  else d.updComp k fun c => { c with r := { c.r with txd := v, txf := true }, txNew := true }

/-- A read of RXD: in the TCLK in which the compositor has written it, it returns the older value, and RXF stays 1. -/
def rxdRead (k : Nat) (d : Dev) : W32 × Dev :=
  match (d.comp k).rxWas with
  | some v => (v, d)
  | none => ((d.comp k).r.rxd, d.updComp k fun c => { c with r := { c.r with rxf := false } })

/-! ### Control (R245–R248) -/

/-- START or TSTART with or without CLEAN (R246). -/
def cpStart (k : Nat) (clean atTick : Bool) (d : Dev) : Dev :=
  let c := d.comp k
  if !cpEn c then cpFlag k 5 d
  else if c.run || c.stop || c.ended then d
  else
    d.updComp k fun c =>
      let c1 := if clean then { c with r := { c.r with s := 0, bc := 0, c0 := 0, c1 := 0 } } else c
      if atTick then { c1 with tpend := true }
      else { c1 with run := true, fresh := true, tpend := false, dly := 0, halting := false, until_ := 1 }

/-- CMD.HALT: a step of the same TCLK still executes, and from the next TCLK on the compositor is halted (R247); it wins over a start of
that TCLK (R249). -/
def cpCmdHalt (k : Nat) (d : Dev) : Dev := d.updComp k fun c => { c with stop := true, tpend := false }

/-- The compositor passes into the next TCLK. -/
def cpLand (c : Comp) : Comp :=
  let c1 := if c.stop then cpHalted c else c
  { c1 with until_ := c1.until_ - 1, fresh := false, stop := false, ended := false, pinsWere := none, txNew := false, txTry := none,
            rxWas := none, wtWas := none }

/-- CPnn_CMD: HALT wins over START and TSTART (R249). -/
def cpCmdWrite (k : Nat) (v : W32) (d : Dev) : Dev :=
  if bit v 1 then cpCmdHalt k d
  else if bit v 0 then cpStart k (bit v 4) false d
  else if bit v 3 then cpStart k (bit v 4) true d
  else d

/-- The strobe starts a compositor that waits for it (R246), and is seen by a tick WAIT under way (R240). -/
def cpStrobe (c : Comp) : Comp :=
  if c.tpend then { c with tpend := false, run := true, fresh := true, dly := 0, halting := false, until_ := 0 }
  else if c.waitTick then { c with tickSeen := true } else c

/-- Do two output windows share a pin? -/
def cpOverlap (a b : Comp) : Bool :=
  let x := fld a.r.pins 24 8
  let y := fld b.r.pins 24 8
  decide (x < y + cpOcnt b) && decide (y < x + cpOcnt a)

/-- R245: the enable is refused. -/
def cpRefused (d : Dev) (k : Nat) : Bool :=
  let c := d.comp k
  decide (256 < fld c.r.pins 24 8 + cpOcnt c) || decide (8 < cpOcnt c) ||
  d.comps.any fun e => e.1 != k && cpEn e.2 && cpOverlap c e.2

/-- The pins of the output window: a change of the compositor's EN changes their owner (R165, R166). -/
def windowPins (d : Dev) (k : Nat) : List Nat :=
  (List.range (fld (d.comp k).r.pins 16 4)).map (fld (d.comp k).r.pins 24 8 + ·)

/-- COMPOSITOR_ENABLE: it is halted, and OLI and OEI reach the pins in the next TCLK; or CFG_ERR. -/
def cpEnable (k : Nat) (d : Dev) : Dev :=
  if cpEn (d.comp k) then d
  else if cpRefused d k then cpFlag k 5 d
  else d.updComp k fun c =>
    { keepPins c with r := { c.r with ctl := orBit c.r.ctl 31 }, levels := c.r.oli, drives := BitVec.ofNat 8 (fld c.r.pins 0 8) }

/-- COMPOSITOR_DISABLE: it halts, and from the next TCLK on its pins are high-impedance. -/
def cpDisable (k : Nat) (d : Dev) : Dev :=
  if cpEn (d.comp k) then
    d.updComp k fun c => { keepPins c with r := { c.r with ctl := clrBit c.r.ctl 31 }, stop := true, tpend := false }
  else d

/-- The compositors pass into the next TCLK: their pins change, and a pin whose owner changes starts at IDL (R166). -/
def landComps (d : Dev) : Dev :=
  forEach (d.comps.map (·.1)) (fun k d => withOwner (windowPins d k) (fun d => d.updComp k cpLand) d) d

/-- CPnn_CTL, CPnn_PINS and CPnn_OLI are locked while EN = 1 (R245). -/
def cpCtlWrite (k : Nat) (v : W32) (d : Dev) : Dev :=
  let c := d.comp k
  let w := v &&& 0x607FFFFF#32
  if cpEn c then
    let d1 := if w ≠ (c.r.ctl &&& 0x607FFFFF#32) then cpFlag k 6 d else d
    if bit v 31 then d1 else cpDisable k d1
  else
    let d1 := d.updComp k fun c => { c with r := { c.r with ctl := w } }
    if bit v 31 then cpEnable k d1 else d1
def cpPinsWrite (k : Nat) (v : W32) (d : Dev) : Dev :=
  let w := v &&& 0xFF0FFFFF#32
  if cpEn (d.comp k) then (if w ≠ (d.comp k).r.pins then cpFlag k 6 d else d)
  else d.updComp k fun c => { c with r := { c.r with pins := w } }
def cpOliWrite (k : Nat) (v : W32) (d : Dev) : Dev :=
  let w : BitVec 8 := v.setWidth 8
  if cpEn (d.comp k) then (if w ≠ (d.comp k).r.oli then cpFlag k 6 d else d)
  else d.updComp k fun c => { c with r := { c.r with oli := w } }

/-- The compositor with the program register at offset `r` written: PC 010h, C0 028h, C1 02Ch, IMEM 100h–1FCh. -/
def putProgram (r : Nat) (v : W32) (c : Comp) : Comp :=
  if r = 0x10 then { c with r := { c.r with pc := v.setWidth 6 } }
  else if r = 0x28 then { c with r := { c.r with c0 := v } }
  else if r = 0x2C then { c with r := { c.r with c1 := v } }
  else if 0x100 ≤ r ∧ r < 0x200 then { c with imem := Bank.set 0 c.imem ((r - 0x100) / 4) v }
  else c

/-- PROGRAM_WRITE (R248): only while halted, otherwise a write that would change the register sets PROG_BUSY (R499). -/
def programWrite (k r : Nat) (v : W32) (d : Dev) : Dev :=
  let c := d.comp k
  if (c.run && !c.fresh) || c.ended then (if putProgram r v c = c then d else cpFlag k 7 d)
  else d.updComp k (putProgram r v)

/-- CPnn_STAT as read. -/
def cpStatRead (k : Nat) (d : Dev) : W32 :=
  let c := d.comp k
  c.r.stat ||| atBit c.tpend 4 ||| atBit c.r.rxf 3 ||| atBit c.r.txf 2 ||| atBit c.stall 1 ||| atBit c.run 0

end Sys2Proof.Machine
end

