-- ==== Sys2Proof/Machine/Timebase.lean ====
section
/-! DEFINITION. The timebase (R34–R58): the counter and its trim, phase steps and time sets, the servo, PTP messages, and
alignment. -/

namespace Sys2Proof.Machine

/-! ### Fields -/

def tbServo (t : Timebase) : Bool := bit t.ctl 0
def tbRole (t : Timebase) : Nat := fld t.ctl 1 2
def tbPlant (t : Timebase) : Bool := bit t.ctl 3
def roleManager (d : Dev) : Bool := tbRole d.tb == 3
def roleWorker (d : Dev) : Bool := tbRole d.tb == 1
/-- A manager or standby manager that runs the plant instance (R38). -/
def runsPlant (d : Dev) : Bool := tbPlant d.tb && decide (2 ≤ tbRole d.tb)

/-- A W1C bit of TB_STAT; bits 13, 12, 10, 5 and 4 fire source 3A5h (R298). -/
def tbFlag (b : Nat) (d : Dev) : Dev :=
  let d := { d with tb := { d.tb with stat := orBit d.tb.stat b } }
  if b = 7 then d else memberEvent 0x3A5 d

def servoCode (s : Servo) : Nat := match s with | .unset => 0 | .acquire => 1 | .locked => 2 | .holdover => 3 | .free => 4

/-- Signed 32-bit word of an integer. -/
def word32 (v : Int) : W32 := BitVec.ofInt 32 v

/-! ### Alignment (R52, R53) -/

/-- HOLDOVER_ERR as a fraction, E0 + 16·t + 8·(WANDER_LIMIT / 1000)·t² grains with t the seconds since the receive stamp of the last
accepted Sync: numerator and denominator (log entry 11: DEDUCED). 0 outside HOLDOVER. -/
def holdoverFrac (d : Dev) : Nat × Nat :=
  if d.so.servo = .holdover then
    let g := (sdiff d.tb.time d.so.lastSync).toNat
    let h := 16000000000
    let n := max 1 d.so.e0n
    (d.so.e0 * (1000 * h * h) + n * (16 * h * g * 1000 + 8 * d.so.wanderLimit * g * g), n * (1000 * h * h))
  else (0, 1)

/-- HOLDOVER_ERR as the object reads: rounded down to a grain (log entry 11). -/
def holdoverErr (d : Dev) : Nat := (holdoverFrac d).1 / (holdoverFrac d).2

/-- R53: HOLDOVER_ERR ≤ ALIGN_LIMIT, compared without rounding. -/
def withinAlign (d : Dev) : Bool := decide ((holdoverFrac d).1 ≤ d.so.alignLimit * (holdoverFrac d).2)

/-- R53: ALIGN_OK settles after a change; ALIGN_LOST is set when it falls. -/
def settleAlign (d : Dev) : Dev :=
  let now :=
    if roleManager d then d.so.syncSent
    else match d.so.servo with
      | .locked => !d.tb.slewing
      | .holdover => withinAlign d
      | _ => false
  let d1 := { d with tb := { d.tb with alignOk := now } }
  if d.tb.alignOk && !now then tbFlag 10 d1 else d1

/-- ALIGN_LOST: in HOLDOVER the error passes ALIGN_LIMIT. -/
def alignLost (d : Dev) : Dev :=
  if !roleManager d && d.so.servo == .holdover && d.tb.alignOk then
    tbFlag 10 { d with tb := { d.tb with alignOk := false } }
  else d

/-! ### Trim (R34, R35, R48) -/

/-- A trim is set: it takes effect in the second TCLK after, whatever trims are still to take effect before it. -/
def setTrim (v : Int) (d : Dev) : Dev := { d with tb := { d.tb with trimNext := d.tb.trimNext ++ [(v, 2)] } }

/-- The trim in force in the next TCLK: the last of those that take effect in it. -/
def landedTrim (t : Timebase) : Int := (t.trimNext.filter fun e => e.2 ≤ 1).foldl (fun _ e => e.1) t.trim

/-- The trims that are still to take effect after the next TCLK. -/
def laterTrims (t : Timebase) : List (Int × Nat) := (t.trimNext.filter fun e => 1 < e.2).map fun e => (e.1, e.2 - 1)

def trimInRange (v : Int) : Bool := decide (-200000000 ≤ v ∧ v ≤ 200000000)

/-- TB_HTRIM_WRITE: out of range it is ignored with HTRIM_REJ; with SERVO = 0 it becomes the trim in force. -/
def htrimWrite (v : W32) (d : Dev) : Dev :=
  if trimInRange v.toInt then
    let d1 := { d with tb := { d.tb with htrim := v.toInt } }
    if tbServo d.tb then d1 else setTrim v.toInt d1
  else tbFlag 13 d

/-- TB_STEP_COMMIT: refused above STEP_MAX or with SERVO = 1; otherwise it replaces a pending commit (R48). -/
def stepCommit (v : W64) (d : Dev) : Dev :=
  if tbServo d.tb || decide (d.so.stepMax < v.toInt.natAbs) then tbFlag 12 d
  else { d with tb := { d.tb with pending := some (.step v true) } }

/-- A committed host step is dropped with STEP_REJ. -/
def dropHostStep (d : Dev) : Dev :=
  match d.tb.pending with
  | some (.step _ true) => tbFlag 12 { d with tb := { d.tb with pending := none } }
  | _ => d

/-- What the servo has ordered and not finished ends: a step or time set that waits for a boundary, and a slew (log entry 12: DEDUCED). A
host's step is not its own. -/
def dropServo (d : Dev) : Dev :=
  { d with
    tb := { d.tb with
      slewing := false
      pending := match d.tb.pending with | some (.step s true) => some (.step s true) | _ => none }
    so := { d.so with slewRemaining := 0 } }

/-- SERVO_WRITE: the trim passes between host and servo. A step or time set of the servo that has not been applied is
dropped when the host takes over (log entry 12: DEDUCED). -/
def servoWrite (v : Bool) (d : Dev) : Dev :=
  if v = tbServo d.tb then d
  else
    let d1 := { d with tb := { d.tb with ctl := putBit d.tb.ctl 0 v } }
    if v then dropHostStep d1
    else setTrim d.tb.htrim (settleAlign (dropServo d1))

/-! ### Steps (R45, R47, R49) -/

/-- R15: the least boundary later than `t`. -/
def boundaryAfter (d : Dev) (t : Time64) : Time64 :=
  let p : Int := (d.tick.period * 64 : Nat)
  plusInt d.tick.anchor (((sdiff t d.tick.anchor) / p + 1) * p)

/-- R16: the tick number of a TIME64. -/
def tickNumberOf (d : Dev) (t : Time64) : BitVec 16 := BitVec.ofInt 16 (t.toInt / (d.tick.period * 64 : Nat))

/-- S is added to T of the entries of a chase, those that its next compare takes included (R45). -/
def shiftChase (s : W64) (c : Chase) : Chase :=
  let f (b : Bank (Option Entry)) : Bank (Option Entry) := b.map fun e => (e.1, e.2.map fun x => { x with t := x.t + s })
  { c with entries := f c.entries, start := f c.start }

/-- An edge already committed to a field port keeps its real instant: E on the new scale (R46). -/
def shiftHead (s : W64) (x : Head) : Head :=
  { x with eq := x.eq.map fun e => { e with e := e.e + s }, sent := x.sent.map fun e => { e with e := e.e + s } }

/-- The stamps of a peer-delay exchange under way go over to the new scale (R47). -/
def shiftPeer (s : W64) (q : PtpPort) : PtpPort :=
  { q with reqSent := q.reqSent.map (· + s), respAt := q.respAt.map fun r => (r.1 + s, r.2) }

/-- The shifts of R45, R46, R47 and R174: armed entries, commands placed later, edges on their way to a head, tracks, stamps on their way,
and STEP_GEN. TIME64 itself is moved by the caller. -/
def shiftAll (s : W64) (d : Dev) : Dev :=
  let d0 := forEach (d.chases.map (·.1)) (fun k d => d.updChase k (shiftChase s)) d
  let d1 := forEach (d0.heads.map (·.1)) (fun h d => d.updHead h (shiftHead s)) d0
  let d2 := forEach (d1.ax.axes.map (·.1)) (fun a d => d.updAxis a (stepTrack s)) d1
  { d2 with
    gs := { d2.gs with flight := d2.gs.flight.map fun o => { o with place := o.place + s } }
    tb := { d2.tb with stepGen := d2.tb.stepGen + 1, lastS := s }
    tick := { d2.tick with strobeTime := d2.tick.strobeTime + s }
    ptp := { d2.ptp with ports := d2.ptp.ports.map fun q => (q.1, shiftPeer s q.2)
                         syncRx := d2.ptp.syncRx.map fun r => (r.1, r.2.1, r.2.2 + s),
                         plantSync := d2.ptp.plantSync.map fun r => (r.1, r.2.1, r.2.2 + s) }
    so := { d2.so with lastSync := d2.so.lastSync + s, lastStep := s } }

/-- R49: the tick after a time set: its number is that of the new TIME64, the boundary less than P/2 away raises no strobe, and plans
and windows rest until the first strobe. -/
def regrid (d : Dev) : Dev :=
  let b := boundaryAfter d (d.tb.time - 1)
  let near := decide (sdiff b d.tb.time < (d.tick.period * 32 : Nat))
  { d with
    tb := { d.tb with mark := d.tb.time - 1 }
    tick := { d.tick with
      number := tickNumberOf d d.tb.time
      unsettled := true
      quiet := if near && b != d.tb.time then some b else none
      lastBoundary := if b = d.tb.time then b else d.tick.lastBoundary
      next := if near then b + BitVec.ofNat 64 (d.tick.period * 64) else b } }

/-- The step or time set that the boundary of this TCLK took up acts in the counter's next value (R45, R49). -/
def applyStep (d : Dev) : Dev :=
  match d.tb.stepNow with
  | none => d
  | some (.step s _) =>
    let d1 := shiftAll s { d with tb := { d.tb with stepNow := none, time := d.tb.time + s } }
    tbFlag 4 { d1 with so := { d1.so with stepCount := d1.so.stepCount + 1 } }
  | some (.timeSet o) =>
    let d1 := shiftAll o { d with tb := { d.tb with stepNow := none, time := d.tb.time + o } }
    tbFlag 5 (regrid { d1 with so := { d1.so with timeSetCount := d1.so.timeSetCount + 1 } })

/-- A boundary without a strobe that TIME64 has reached advances the tick number (R15, R49). -/
def passQuiet (d : Dev) : Dev :=
  match d.tick.quiet with
  | some b => if atOrAfter d.tb.time b then
      { d with tick := { d.tick with quiet := none, number := d.tick.number + 1, lastBoundary := b } } else d
  | none => d

/-- An instant of the tick that TIME64 reaches in the present TCLK (R342, R360, R361). -/
def meets (d : Dev) (t : Time64) : Bool := atOrAfter d.tb.time t && !atOrAfter d.tb.mark t

/-- R34, R35: TIME64 and the local count pass into the next TCLK. -/
def advanceTclk (d : Dev) : Dev :=
  let tot := trimStep d.tb.trim + d.tb.frac.toNat
  let d1 := { d with tb := { d.tb with
    mark := if atOrAfter d.tb.mark d.tb.time then d.tb.mark else d.tb.time
    time := d.tb.time + BitVec.ofNat 64 (tot / 2 ^ 48)
    frac := BitVec.ofNat 48 (tot % 2 ^ 48)
    tclk := d.tb.tclk + 1
    trim := landedTrim d.tb
    trimNext := laterTrims d.tb } }
  passQuiet (applyStep d1)

/-- What a boundary does to the timebase: the waiting step or time set is taken up if this boundary permits it. `takeover` says that a
period change takes over here; a host's step keeps the same rule (R47, R48). -/
def boundaryStep (takeover : Bool) (d : Dev) : Dev :=
  let since := d.tb.sinceStep.map (· + 1)
  let spaced := match since with | some k => decide (16 ≤ k) | none => true
  match d.tb.pending with
  | some (.step s host) =>
    if spaced && !takeover then
      { d with tb := { d.tb with pending := none, stepNow := some (.step s host), sinceStep := some 0 } }
    else { d with tb := { d.tb with sinceStep := since } }
  | some (.timeSet o) => { d with tb := { d.tb with pending := none, stepNow := some (.timeSet o), sinceStep := some 0 } }
  | none => { d with tb := { d.tb with sinceStep := since } }

/-! ### The servo (R43, R44, R52) -/

/-- The instance that disciplines TIME64: the plant instance on a manager with PLANT = 1, none on a grandmaster manager,
the domain instance otherwise (R37). -/
def disciplines (d : Dev) (plant : Bool) : Bool :=
  if roleManager d then plant && tbPlant d.tb else !plant

def trimBound (v : Int) : Int := max (-200000000) (min 200000000 v)

/-- The trim the servo sets at a Sync is a free value inside the range of R35: the manual gives no control law (log entry
13). -/
def servoTrim (d : Dev) : Dev :=
  let q := d.draw
  let v : Int := (q.1.toNat % 400000001 : Nat) - 200000000
  setTrim v { q.2 with so := { q.2.so with trims := (v :: q.2.so.trims).take 16, trimBase := v } }

/-- R44: during a slew the trim is offset towards the offset `o`, by up to SLEW_MAX: how much is a free value (log entry 13). -/
def slewTrim (o : Int) (d : Dev) : Dev :=
  let q := d.draw
  let k : Int := (q.1.toNat % (d.so.slewMax + 1) : Nat)
  let v := trimBound (d.so.trimBase + (if o < 0 then -k else k))
  setTrim v { q.2 with so := { q.2.so with trims := (v :: q.2.so.trims).take 16 } }

/-- R40: EPOCH in grains. -/
def epochGrains (d : Dev) : Nat := d.so.epochS.toNat * 16000000000 + d.so.epochNs.toNat * 16

/-- R41: a stored EPOCH of 0 is replaced at the first plant LOCKED by the plant time of that instant, truncated to a whole second. TIME64
becomes plant time less EPOCH in the next TCLK, as R40 holds it: recorded as a time set (log entry 83: DESIGN CHOICE). `o` is the offset
of the Sync that brought LOCKED. -/
def captureEpoch (o : Int) (d : Dev) : Dev :=
  if roleManager d && tbPlant d.tb && !d.so.epochCaptured then
    if epochGrains d = 0 then
      let sec := (plusInt d.tb.time o).toNat / 16000000000
      { d with
        so := { d.so with epochCaptured := true, epochS := BitVec.ofNat 64 sec, epochObjS := BitVec.ofNat 64 sec, epochObjNs := 0 }
        tb := { d.tb with stepNow := some (.timeSet (- BitVec.ofNat 64 (sec * 16000000000))), pending := none, sinceStep := some 0 } }
    else { d with so := { d.so with epochCaptured := true } }
  else d

/-- R44: the correction of an offset while SERVO = 1. -/
def correct (o : Int) (d : Dev) : Dev :=
  if !tbServo d.tb then d
  else
    let a := o.natAbs
    let noSlew (d : Dev) : Dev := { d with tb := { d.tb with slewing := false }, so := { d.so with slewRemaining := 0 } }
    if a ≤ d.so.lockThreshold then servoTrim (noSlew d)
    else if a ≤ d.so.stepMax then
      servoTrim { noSlew d with tb := { (noSlew d).tb with pending := some (.step (BitVec.ofInt 64 o) false) } }
    else if d.tb.lockedOnce then
      slewTrim o { d with tb := { d.tb with slewing := true }, so := { d.so with slewRemaining := BitVec.ofInt 64 o } }
    else if d.so.servo = .acquire ∧ d.so.setDone = false then
      servoTrim { d with tb := { d.tb with pending := some (.timeSet (BitVec.ofInt 64 o)) }, so := { d.so with setDone := true } }
    else servoTrim d

/-- R52: E0 is the mean absolute offset of the last LOCK_COUNT Syncs. In HOLDOVER it goes on with the Syncs that resume, as t does (log
entry 84: DESIGN CHOICE). -/
def setE0 (d : Dev) : Dev :=
  let l := d.so.offsets.take d.so.lockCount
  { d with so := { d.so with e0 := l.sum, e0n := l.length } }

/-- R43: the state after the offset `o` of a Sync received at `rx`. -/
def servoOffset (o : Int) (rx : Time64) (d : Dev) : Dev :=
  let st := match d.so.servo with | .unset => Servo.acquire | .free => (if tbRole d.tb = 0 then .acquire else .free) | s => s
  let inBand := decide (o.natAbs ≤ d.so.lockThreshold)
  let within := if inBand then d.so.within + 1 else 0
  let lock := (st == .acquire || st == .holdover) && decide (d.so.lockCount ≤ within)
  let d1 := { d with
    so := { d.so with servo := st, offset := BitVec.ofInt 64 o, within := within, lastSync := rx,
                      offsets := (o.natAbs :: d.so.offsets).take 64,
                      setDone := if d.so.servo = .unset ∨ d.so.servo = .free then false else d.so.setDone }
    tb := { d.tb with plantHold := false } }
  let d2 := correct o d1
  let d3 := if lock then
      captureEpoch o { d2 with so := { d2.so with servo := .locked }, tb := { d2.tb with lockedOnce := true } }
    else if st == .holdover then setE0 d2 else d2
  settleAlign d3

/-- Is port `p` the selected source of the instance? -/
def selected (d : Dev) (p : Nat) (plant : Bool) : Bool :=
  match (if plant then d.ptp.plantBest else d.ptp.best) with | some b => b.port == p | none => false

/-- R40: a PTP time in grains: seconds and nanoseconds exactly, the correction field to the nearest grain, halves up (log entry 85:
PRESUMED, its unit of 2^-16 ns is that of IEEE 1588). -/
def ptpGrains (t : PtpTime) : Int := t.s * 16000000000 + t.ns * 16 + (t.corr + 2048) / 4096

/-- A TIME64 of the domain instance as a PTP time (R40). -/
def ptpTimeOf (t : Time64) : PtpTime := ⟨t.toNat / 16000000000, t.toNat % 16000000000 / 16, (t.toNat % 16 * 4096 : Nat)⟩

/-- R43: the offset of a Sync received at `rx` (already corrected by RX_LATENCY) whose source time was `origin`: the source's time on the
scale of TIME64 (R40) plus the path delay, less the local time. ASYMMETRY is added to the path delay (log entry 86: DESIGN CHOICE, the
manual gives it no sign). -/
def offsetOf (d : Dev) (p : Nat) (plant : Bool) (rx : Time64) (origin : PtpTime) : Int :=
  let q := d.ptpPort p
  let src : Int := ptpGrains origin + q.meanLinkDelay.toNat + q.asymmetry.toInt - (if plant then (epochGrains d : Int) else 0)
  sdiff (BitVec.ofInt 64 src) rx

/-- A Sync whose source time is known is used. -/
def takeSync (p : Nat) (plant : Bool) (rx : Time64) (origin : PtpTime) (d : Dev) : Dev :=
  let o := offsetOf d p plant rx origin
  if disciplines d plant then servoOffset o rx d
  else if plant then { d with ptp := { d.ptp with plantOffset := o } } else d

/-- The receive stamp of an event message at grain `g` of the present TCLK, corrected by RX_LATENCY (R39). -/
def rxStamp (d : Dev) (p g : Nat) : Time64 :=
  d.tb.time + BitVec.ofNat 64 ((2 * g * d.inc + 64) / 128) - (d.ptpPort p).rxLatency.setWidth 64
def txStamp (d : Dev) (p g : Nat) : Time64 :=
  d.tb.time + BitVec.ofNat 64 ((2 * g * d.inc + 64) / 128) + (d.ptpPort p).txLatency.setWidth 64

/-- An instance listens on port `p`. -/
def listens (d : Dev) (p : Nat) (plant : Bool) : Bool := Nat.testBit d.ptp.portMask p && decide (p < 4) && (!plant || runsPlant d)

/-- The instance that a message of domain `dom` belongs to: false the domain instance, true the plant instance, where it runs (R38). -/
def instanceOf (d : Dev) (dom : Nat) : Option Bool :=
  if dom = d.ptp.domain then some false
  else if dom = d.ptp.plantDomain ∧ runsPlant d = true then some true else none

/-- A message of domain `dom` on port `p` reaches its instance; any other is discarded. -/
def toInstance (p dom : Nat) (f : Bool → Dev → Dev) (d : Dev) : Dev :=
  match instanceOf d dom with
  | some plant => if listens d p plant then f plant d else d
  | none => d

/-- SYNC: a one-step Sync is used at once, a two-step Sync waits for its Follow_Up. -/
def syncRx (p dom : Nat) (seq : BitVec 16) (g : Nat) (oneStep : Option PtpTime) (d : Dev) : Dev :=
  toInstance p dom (fun plant d =>
    if selected d p plant then
      let rx := rxStamp d p g
      match oneStep with
      | some origin => takeSync p plant rx origin d
      | none =>
        if plant then { d with ptp := { d.ptp with plantSync := some (p, seq, rx) } }
        else { d with ptp := { d.ptp with syncRx := some (p, seq, rx) } }
    else d) d

/-- FOLLOW_UP of the Sync that waits for it. -/
def followUp (p dom : Nat) (seq : BitVec 16) (origin : PtpTime) (d : Dev) : Dev :=
  toInstance p dom (fun plant d =>
    match (if plant then d.ptp.plantSync else d.ptp.syncRx) with
    | some (q, s, rx) =>
      if q = p ∧ s = seq ∧ selected d p plant = true then
        let d1 := if plant then { d with ptp := { d.ptp with plantSync := none } } else { d with ptp := { d.ptp with syncRx := none } }
        takeSync p plant rx origin d1
      else d
    | none => d) d

/-! ### Best master clock (R38, R42) -/

/-- The comparison of two data sets: the lesser is better. -/
def betterThan (a b : Announce) : Bool :=
  if a.priority1 ≠ b.priority1 then decide (a.priority1 < b.priority1)
  else if a.quality ≠ b.quality then decide (a.quality.toNat < b.quality.toNat)
  else if a.priority2 ≠ b.priority2 then decide (a.priority2 < b.priority2)
  else if a.identity ≠ b.identity then decide (a.identity.toNat < b.identity.toNat)
  else decide (a.steps < b.steps)

/-- R42: priority1 by role; a former manager that rejoins uses 110 (it then runs as a standby manager). -/
def rolePriority (role : Nat) : Nat := match role with | 3 => 100 | 2 => 110 | 1 => 255 | _ => 128

/-- The data set of the device itself in the domain instance. -/
def ownSet (d : Dev) : Announce := ⟨rolePriority (tbRole d.tb), Config.clockQuality, Config.clockPriority2, Config.clockIdentity, 0, 255⟩

/-- A data set that may become the grandmaster's: in the domain instance it must be better than the device's own set where the device is
grandmaster-capable, which a worker is not (R42). -/
def eligibleSet (d : Dev) (plant : Bool) (m : Announce) : Bool := plant || roleWorker d || betterThan m (ownSet d)

/-- R38: the best of the data sets heard, one for each port, the first of equal ones. -/
def bestOf (d : Dev) (plant : Bool) (l : List Announce) : Option Announce :=
  (l.filter (eligibleSet d plant)).foldl (fun b m => match b with
    | some x => if betterThan m x then some m else some x
    | none => some m) none

/-- The best master clock algorithm decides anew. -/
def settleBest (d : Dev) : Dev :=
  { d with ptp := { d.ptp with best := bestOf d false d.ptp.heard, plantBest := bestOf d true d.ptp.plantHeard } }

/-- ANNOUNCE: the message replaces the last one of its port, and the best of all is selected. A standalone device in FREE then acquires.
The domain instance of a manager has its own time. -/
def announceRx (dom : Nat) (m : Announce) (d : Dev) : Dev :=
  toInstance m.port dom (fun plant d =>
    if !plant && roleManager d then d
    else
      let news (l : List Announce) := m :: l.filter fun x => x.port != m.port
      let d1 := settleBest (if plant then { d with ptp := { d.ptp with plantHeard := news d.ptp.plantHeard } }
        else { d with ptp := { d.ptp with heard := news d.ptp.heard } })
      if !plant && tbRole d.tb == 0 && d.so.servo == .free && d1.ptp.best.isSome then
        settleAlign { d1 with so := { d1.so with servo := .acquire, within := 0, setDone := false } }
      else d1) d

/-- R42: the announce information of the former grandmaster of the domain instance is discarded. -/
def forgetMaster (d : Dev) : Dev :=
  match d.ptp.best with
  | some b => settleBest { d with ptp := { d.ptp with heard := d.ptp.heard.filter fun x => x.identity != b.identity, syncRx := none } }
  | none => d

/-- UNSET: TRIM 0, unless the host sets it (R43, R48). -/
def enterUnset (d : Dev) : Dev :=
  let d1 := dropServo { d with so := { d.so with servo := .unset, within := 0 } }
  if tbServo d1.tb then setTrim 0 d1 else d1

/-- R52: HOLDOVER freezes the trim at the mean of the last 16 servo trims, rounded down (log entry 87: DESIGN CHOICE). -/
def enterHoldover (d : Dev) : Dev :=
  let t := d.so.trims
  let d1 := setE0 { d with so := { d.so with servo := .holdover, within := 0, slewRemaining := 0 }, tb := { d.tb with slewing := false } }
  if t.isEmpty || !tbServo d.tb then d1 else setTrim (t.sum / (t.length : Int)) d1

/-- SYNC_RECEIPT_TIMEOUT of an instance. -/
def syncTimeout (plant : Bool) (d : Dev) : Dev :=
  let d0 := if plant then { d with ptp := { d.ptp with plantSync := none } } else { d with ptp := { d.ptp with syncRx := none } }
  if !disciplines d plant then d0
  else
    let held := { d0 with tb := { d0.tb with plantHold := plant } }
    match d.so.servo with
    | .acquire => settleAlign (enterUnset held)
    | .locked => settleAlign (enterHoldover held)
    | _ => held

/-- ANNOUNCE_RECEIPT_TIMEOUT: no grandmaster of the instance is known. A manager that follows the plant holds (R54); a standalone device
in UNSET runs FREE. -/
def announceTimeout (plant : Bool) (d : Dev) : Dev :=
  if plant then
    { d with ptp := { d.ptp with plantBest := none, plantHeard := [] }, tb := { d.tb with plantHold := d.tb.plantHold || disciplines d true } }
  else
    let d1 := { d with ptp := { d.ptp with best := none, heard := [] } }
    if tbRole d.tb == 0 && d.so.servo == .unset then { d1 with so := { d1.so with servo := .free } } else d1

/-- R43: a manager with PLANT = 0 runs FREE at once, its trim held; a device that has left FREE's conditions, as a manager with PLANT = 1,
a worker or a standby manager, starts from UNSET (log entry 25). -/
def settleRole (d : Dev) : Dev :=
  if roleManager d && !tbPlant d.tb then dropServo { d with so := { d.so with servo := .free }, tb := { d.tb with plantHold := false } }
  else if d.so.servo = .free ∧ tbRole d.tb ≠ 0 then enterUnset d
  else d

/-! ### Peer delay (R38, R39) -/

def sendPtp (m : PtpMsg) (d : Dev) : Dev := { d with ptp := { d.ptp with sent := d.ptp.sent ++ [m] } }

/-- The answer to a peer-delay request received at `rx`, a response and its follow-up, leaves at grain `g`. -/
def pdelayRespLeaves (p : Nat) (seq : BitVec 16) (rx : Time64) (g : Nat) (d : Dev) : Dev :=
  sendPtp (.pdelayRespFollowUp p seq (txStamp d p g)) (sendPtp (.pdelayResp p seq rx) d)

/-- PDELAY_REQ: answered with a response and its follow-up; `g` and `g2` are the grains of reception and of the answer. -/
def pdelayReq (p : Nat) (seq : BitVec 16) (g g2 : Nat) (d : Dev) : Dev :=
  if listens d p false then orWait p (.pdelayResp seq (rxStamp d p g) g2) (pdelayRespLeaves p seq (rxStamp d p g) g2) d else d

/-- A peer-delay request leaves at grain `g`. -/
def pdelayReqLeaves (p g : Nat) (d : Dev) : Dev :=
  let d1 := d.updPtpPort p fun q => { q with reqSent := some (txStamp d p g), respAt := none }
  sendPtp (.pdelayReq p d.ptp.seqPdelay) { d1 with ptp := { d1.ptp with seqPdelay := d1.ptp.seqPdelay + 1 } }

/-- PDELAY_REQ_SEND. -/
def pdelayReqSend (p g : Nat) (d : Dev) : Dev := if listens d p false then orWait p (.pdelayReq g) (pdelayReqLeaves p g) d else d

/-- PDELAY_RESP: the response to the request under way, received at grain `g`, carries the peer's receive time t2. -/
def pdelayResp (p g : Nat) (t2 : PtpTime) (d : Dev) : Dev :=
  if listens d p false && (d.ptpPort p).reqSent.isSome then
    d.updPtpPort p fun q => { q with respAt := some (rxStamp d p g, BitVec.ofInt 64 (ptpGrains t2)) }
  else d

/-- PDELAY_RESP_FOLLOW_UP: MEAN_LINK_DELAY := ((t4 − t1) − (t3 − t2)) / 2 (log entry 14: PRESUMED, IEEE 802.1AS). -/
def pdelayRespFollowUp (p : Nat) (t3 : PtpTime) (d : Dev) : Dev :=
  match (d.ptpPort p).reqSent, (d.ptpPort p).respAt with
  | some t1, some (t4, t2) =>
    if listens d p false then
      d.updPtpPort p fun q => { q with
        reqSent := none, respAt := none
        meanLinkDelay := BitVec.ofInt 32 ((sdiff t4 t1 - sdiff (BitVec.ofInt 64 (ptpGrains t3)) t2) / 2) }
    else d
  | _, _ => d

/-! ### Transmission (R37, R53, R55) -/

/-- R37: the device sends domain Sync: a grandmaster manager, one that has been LOCKED to its plant, or one that took over (R55). -/
def sendsSync (d : Dev) : Bool := roleManager d && (!tbPlant d.tb || d.so.epochCaptured || d.so.tookOver)

/-- A two-step Sync and its Follow_Up leave port `p` at grain `g`. -/
def syncLeaves (p g : Nat) (d : Dev) : Dev :=
  let s := d.ptp.seqSync
  let d1 := sendPtp (.followUp p d.ptp.domain s (ptpTimeOf (txStamp d p g))) (sendPtp (.sync p d.ptp.domain s) d)
  settleAlign { d1 with ptp := { d1.ptp with seqSync := s + 1 }, so := { d1.so with syncSent := true } }

/-- SYNC_SEND on port `p`, leaving at grain `g`. -/
def syncSend (p g : Nat) (d : Dev) : Dev := if listens d p false && sendsSync d then orWait p (.sync g) (syncLeaves p g) d else d

def announceLeaves (p : Nat) (d : Dev) : Dev :=
  sendPtp (.announce p d.ptp.domain d.ptp.seqAnnounce (rolePriority (tbRole d.tb))) { d with ptp := { d.ptp with seqAnnounce := d.ptp.seqAnnounce + 1 } }

/-- ANNOUNCE_SEND on port `p`. -/
def announceSend (p : Nat) (d : Dev) : Dev := if listens d p false && sendsSync d then orWait p .announce (announceLeaves p) d else d

/-! ### Reads -/

/-- PTP_MANAGEMENT_MESSAGE: discarded (R38). -/
def ptpManagement (_p : Nat) (d : Dev) : Dev := d

/-- PLANT_HOLD: a manager with PLANT = 1 has lost its plant grandmaster, or has none yet. -/
def plantHeld (d : Dev) : Bool := disciplines d true && (d.tb.plantHold || d.ptp.plantBest.isNone)

/-- TB_STAT as read. -/
def tbStatRead (d : Dev) : W32 :=
  d.tb.stat ||| atBit (plantHeld d) 11 ||| BitVec.ofNat 32 (d.tb.stepGen.toNat * 256) ||| atBit d.tb.slewing 6 |||
    atBit d.tb.alignOk 3 ||| BitVec.ofNat 32 (servoCode d.so.servo)

/-- PORT_STATE of MAC `p` (R58): 0 disabled, 1 passive, 2 time receiver, 3 time transmitter. -/
def ptpPortState (d : Dev) (p : Nat) : Nat :=
  if !Nat.testBit d.ptp.portMask p then 0
  else if (!roleManager d && selected d p false) || (runsPlant d && selected d p true) then 2
  else if sendsSync d then 3 else 1

/-- TIME_PORT and GM_IDENTITY (R57). -/
def timePort (d : Dev) : Nat :=
  if roleManager d && !tbPlant d.tb then 255
  else match (if roleManager d then d.ptp.plantBest else d.ptp.best) with | some b => b.port | none => 255
def gmIdentity (d : Dev) : W64 :=
  if roleManager d && !tbPlant d.tb then Config.clockIdentity
  else match (if roleManager d then d.ptp.plantBest else d.ptp.best) with | some b => b.identity | none => 0

end Sys2Proof.Machine
end

