-- ==== Sys2Proof/Machine/Link.lean ====
section
/-! DEFINITION. Bamben Link and the manager–worker domain (R353–R376): trajectory frames and summaries, the cyclic gates,
joining, applying, missed frames and lost masters, takeover and demotion, ARP and ICMP, and the MAC registers. -/

namespace Sys2Proof.Machine

/-! ### MACs -/

def emEnabled (m : Mac) : Bool := bit m.cfg 31

/-- An event bit of EMn_STAT: bits [6:3] of every MAC and bits [15:8] of EM0 fire source 3A0h + n (R375). -/
def emFlag (m b : Nat) (d : Dev) : Dev :=
  let d1 := d.updMac m fun x => { x with stat := orBit x.stat b }
  if (3 ≤ b && b ≤ 6) || (m == 0 && 8 ≤ b) then memberEvent (0x3A0 + m) d1 else d1

/-- The MAC carries cyclic traffic: it is enabled and in LINK_MASK (R354, R360). -/
def cyclicMac (d : Dev) (m : Nat) : Bool := decide (m < 4) && emEnabled (d.mac m) && Nat.testBit d.lk.cfg.linkMask m

/-- A byte time of a MAC in grains: 8, 80 or 800 ns (R373). -/
def byteGrains (x : Mac) : Nat := match fld x.cfg 28 2 with | 0 => 12800 | 1 => 1280 | _ => 128

/-! ### Roles and the domain state (R353, R364) -/

/-- The device follows a manager: a worker or a standby manager. -/
def roleFollows (d : Dev) : Bool := tbRole d.tb == 1 || tbRole d.tb == 2

/-- The servo holds domain time. -/
def timeHeld (d : Dev) : Bool := d.so.servo == .locked || d.so.servo == .holdover

/-- The domain state as the role and the servo have it now (R364). -/
def domState (d : Dev) : DomState :=
  match tbRole d.tb with
  | 0 => .off
  | 3 => .manager
  | _ =>
    match d.lk.state with
    | .off | .manager | .waitTime => if d.so.servo = .locked then .joining else .waitTime
    | s => s

def domStateCode (s : DomState) : Nat :=
  match s with
  | .off => 0 | .waitTime => 1 | .joining => 2 | .joined => 3 | .masterLost => 4 | .standby => 5 | .manager => 6

def settleDomain (d : Dev) : Dev := { d with lk := { d.lk with state := domState d } }

/-- The domain address the device sends under (R353). -/
def ownAddress (d : Dev) : Nat := if tbRole d.tb = 1 then d.lk.cfg.address else 0

/-- What a change of ROLE or PLANT is followed by at once (R43, R53, R364). -/
def settleAll (d : Dev) : Dev := settleDomain (settleAlign (settleRole d))

/-- A role, and what follows at once. A new role starts without announce information and, as a manager, without a Sync sent (R42,
R53). -/
def setRole (r : Nat) (d : Dev) : Dev :=
  let d1 := { d with tb := { d.tb with ctl := setFld d.tb.ctl 1 2 r } }
  if tbRole d.tb = r then settleAll d1
  else settleAll { d1 with
    lk := { d1.lk with state := .off }
    so := { d1.so with syncSent := false, tookOver := false }
    ptp := { d1.ptp with best := none, plantBest := none, heard := [], plantHeard := [], syncRx := none, plantSync := none } }

/-- PLANT (R37): without it the plant instance ends. -/
def setPlant (v : Bool) (d : Dev) : Dev :=
  let d1 := { d with tb := { d.tb with ctl := putBit d.tb.ctl 3 v } }
  settleAll (if v then d1 else { d1 with ptp := { d1.ptp with plantBest := none, plantHeard := [], plantSync := none } })

/-! ### Frames (R355–R359) -/

/-- The payload of a cyclic frame: its header and its body. -/
def linkPayload (d : Dev) (type : Nat) (tick : BitVec 16) (body : List Byte) : List Byte :=
  [BitVec.ofNat 8 type, 1] ++ beBytes 2 d.lk.cfg.domainId ++ [BitVec.ofNat 8 (ownAddress d), d.lk.gen] ++
    beBytes 2 tick.toNat ++ beBytes 2 body.length ++ beBytes 2 (if tbRole d.tb = 2 then 1 else 0) ++ beBytes 4 0 ++ body

def entryBytes (e : TrajEntry) : List Byte :=
  beBytes 8 e.angle.toNat ++ beBytes 8 e.speed.toNat ++ beBytes 3 (BitVec.ofInt 24 e.accel).toNat ++ [e.state]

/-- MASK: bit m set for each entry. -/
def trajMask (f : Trajectory) : Nat := f.entries.foldl (fun m e => m ||| 2 ^ e.master) 0

def trajBody (f : Trajectory) : List Byte :=
  beBytes 8 f.tref.toNat ++ beBytes 4 f.period ++ beBytes 4 f.nextPeriod.toNat ++ beBytes 8 f.nextAnchor.toNat ++
    beBytes 8 f.epochS.toNat ++ beBytes 4 f.epochNs.toNat ++ beBytes 4 0 ++ beBytes 8 (trajMask f) ++ (f.entries.map entryBytes).flatten

/-- Grains per second (R2). -/
def grainsPerS : Int := 16000000000

/-- Speeds of a frame, ANG64 units per second, from and to segment speeds of 32 fraction bits per grain (log entry 23:
DEDUCED, rounded down). -/
def speedOut (w : W64) : W64 := BitVec.ofInt 64 (w.toInt * grainsPerS / 2 ^ 32)
def speedIn (v : W64) : W64 := BitVec.ofInt 64 (v.toInt * 2 ^ 32 / grainsPerS)

/-- R357: the nearest unit of 2²⁰ ANG64 units per second², saturated, and whether it was. -/
def accelOut (a : W64) : Int × Bool :=
  let v := (2 * a.toInt * grainsPerS * grainsPerS + 2 ^ 84) / 2 ^ 85
  if v < -8388608 then (-8388608, true) else if 8388607 < v then (8388607, true) else (v, false)
def accelIn (v : Int) : W64 := BitVec.ofInt 64 (v * 2 ^ 84 / (grainsPerS * grainsPerS))

def syncCode (s : Sync) : Nat :=
  match s with | .search => 0 | .locking => 1 | .locked => 2 | .ghosted => 3 | .coasting => 4 | .syncLost => 5

/-- The model or segment of an axis is in force. -/
def segInForce (x : Axis) : Bool := if axKind x = 0 then x.st.model else x.mdl.segOn

/-- The entry of master `m` whose source is axis `a`, at TREF (R356, R358). A master-derived source is the mirror of a
takeover: ACCEL 0, HELD (R368). A source without a model stands at its published angle. -/
def trajEntry (d : Dev) (m a : Nat) (tref : Time64) : TrajEntry :=
  let x := d.axis a
  let on := segInForce x
  let s := if on then segAt x.mdl.seg tref else ⟨x.trk.ang, tref, 0, 0⟩
  let held := axKind x == 3
  let acc := if held then (0, false) else accelOut s.a
  let model := segInForce (d.axis (rootAxis d 5 a))
  ⟨m, s.theta0, speedOut s.w, acc.1,
    BitVec.ofNat 8 (syncCode (syncOf d a) + (if acc.2 then 32 else 0) + (if model then 64 else 0) + (if held then 128 else 0))⟩

/-- The trajectory frame of the present tick (R358). -/
def formTrajectory (d : Dev) : Trajectory :=
  let tref := d.tick.next
  ⟨d.lk.cfg.domainId, 0, d.lk.gen, false, d.tick.number, tref, d.tick.period,
    if d.tick.change = 1 then d.tick.nextPeriod else 0, d.tick.nextAnchor, d.so.epochS, d.so.epochNs,
    (List.range 64).filterMap fun m =>
      let a := Bank.get 0xFFFF d.lk.cfg.sources m
      if a < 4096 then some (trajEntry d m a tref) else none⟩

/-- The group address of trajectory frames (R354). -/
def groupAddress (d : Dev) : BitVec 48 := BitVec.ofNat 48 (0x07454C440000 + d.lk.cfg.domainId)

/-- The length of the cyclic window in TCLK: a window that would pass the next boundary closes there (R19). -/
def windowLen (d : Dev) : Nat := min d.lk.glen (d.tick.period - d.lk.gofs)

/-- The frame's last bit, `start` grains after the gate opened, leaves before the gate closes (R360). -/
def fitsWindow (d : Dev) (x : Mac) (start payload : Nat) : Bool :=
  decide (start + (payload + 30) * byteGrains x ≤ windowLen d * 64)

/-- The trajectory of this tick goes out on MAC `m`, whose gate is open (R358). -/
def sendTrajectory (m start : Nat) (d : Dev) : Dev :=
  match d.lk.formed with
  | some f =>
    let p := linkPayload d 1 d.tick.number (trajBody f)
    if cyclicMac d m && (d.mac m).gate && !bit d.lk.sentOn m && fitsWindow d (d.mac m) start p.length then
      { d with lk := { d.lk with sent := d.lk.sent ++ [⟨m, groupAddress d, d.lk.cfg.pcp, p⟩], sentOn := d.lk.sentOn ||| BitVec.ofNat 4 (2 ^ m) } }
    else d
  | none => d

/-- The time since the gate of this tick opened. -/
def sinceOpen (d : Dev) : Nat := (sdiff d.tb.time (d.tick.lastBoundary + BitVec.ofNat 64 (d.lk.gofs * 64))).toNat

/-- R21: the summaries and full statuses sent in an earlier tick become the members' data. -/
def takeInbox (now : BitVec 16) (x : Member) : Member :=
  match x.inbox with
  | some (k, body, full) =>
    if k = now then x
    else { x with inbox := none, summary := body.take 32, full := if full then body.take 256 else x.full }
  | none => x

def memberWork (d : Dev) : Dev := forEach (d.lk.members.map (·.1)) (fun a d => d.updMember a (takeInbox d.tick.number)) d

/-- The manager's tick work takes the members' summaries and forms the frame, and it leaves at once where a gate is open already (R358). A demoted manager
still sends the frame of the present tick (R369). -/
def managerWork (d : Dev) : Dev :=
  if roleManager d || d.lk.demote then
    let d0 := memberWork d
    let d1 := { d0 with lk := { d0.lk with formed := some (formTrajectory d0) } }
    forEach [0, 1, 2, 3] (fun m d => sendTrajectory m (sinceOpen d) d) d1
  else d

/-- CYCLIC_GATE_OPEN: at B + LINK_OFFSET (R360). -/
def gateOpen (m : Nat) (d : Dev) : Dev :=
  if cyclicMac d m then sendTrajectory m 0 (d.updMac m fun x => { x with gate := true }) else d

def replyLeaves (m kind : Nat) (dest : W32) (data : List Byte) (d : Dev) : Dev :=
  { d with lk := { d.lk with replies := d.lk.replies ++ [(m, kind, dest, data)] } }

/-- What waited for the cyclic gate of MAC `m` leaves. -/
def leaves (m : Nat) (w : Waiting) (d : Dev) : Dev :=
  match w with
  | .sync g => syncLeaves m g d
  | .announce => announceLeaves m d
  | .pdelayReq g => pdelayReqLeaves m g d
  | .pdelayResp seq rx g => pdelayRespLeaves m seq rx g d
  | .reply kind dest data => replyLeaves m kind dest data d
  | .datagram n l => datagramLeaves n l d

def isAcyclic (w : Waiting) : Bool := match w with | .reply .. | .datagram .. => true | _ => false

/-- The other two gates open: the PTP queue goes first, then the acyclic one (R360). -/
def releaseWaiting (m : Nat) (d : Dev) : Dev :=
  let l := (d.mac m).held
  if l.isEmpty then d
  else forEach ((l.filter fun w => !isAcyclic w) ++ l.filter isAcyclic) (leaves m) (d.updMac m fun x => { x with held := [] })

/-- CYCLIC_GATE_CLOSE: a trajectory that has not left is late (R358). -/
def gateClose (m : Nat) (d : Dev) : Dev :=
  if (d.mac m).gate then
    let d1 := releaseWaiting m (d.updMac m fun x => { x with gate := false })
    if roleManager d1 && cyclicMac d1 m && !bit d1.lk.sentOn m then emFlag 0 9 d1 else d1
  else d

/-! ### Summaries (R359, R361, R362) -/

def anyBit (l : List Bool) (i : Nat) : Nat := if l.any (fun b => b) then 2 ^ i else 0

/-- ALARMS (R359); `past` is whether an engine raised TICK_OVERRUN in the tick that ends. -/
def alarmWord (past : Bool) (d : Dev) : Nat :=
  anyBit [d.lk.lostMask != 0] 0 + anyBit [past] 1 + anyBit [bit d.gl.stat 5] 2 +
  anyBit (d.br.pairs.map fun p => p.2.state == .tripped) 3 + anyBit (d.ne.map fun e => bit e.2.stat 14) 4 +
  anyBit [d.store.patchState == 2] 5 + anyBit [d.ecc.alarm] 6 +
  anyBit [decide (d.fm.margin < 500)] 7 + anyBit (d.fps.map fun p => bit p.2.stat 5) 8

def countSync (d : Dev) (s : Sync) : Nat :=
  ((List.range 4096).filter fun a => axEn (d.axis a) && decide (syncOf d a = s)).length

/-- An integer held to 32 bits. -/
def sat32 (v : Int) : Nat := (BitVec.ofInt 32 (max (-(2 ^ 31)) (min (2 ^ 31 - 1) v))).toNat

/-- The summary taken at a boundary (R359). -/
def summaryBytes (past : Bool) (d : Dev) : List Byte :=
  [BitVec.ofNat 8 (servoCode d.so.servo + (if d.tb.alignOk then 8 else 0) + 16 * domStateCode (domState d)), 0] ++
  beBytes 2 d.load.tickLoad.toNat ++ beBytes 4 (sat32 d.so.offset.toInt) ++ beBytes 4 (alarmWord past d) ++
  beBytes 2 ((List.range 16).foldl (fun m i => if (d.trip i).latch then m + 2 ^ i else m) 0) ++ beBytes 2 d.lk.missed.toNat ++
  beBytes 2 (countSync d .locked) ++ beBytes 2 (countSync d .syncLost) ++ beBytes 4 d.gl.missed.toNat ++
  beBytes 4 d.gl.late.toNat ++ beBytes 2 d.load.overruns.toNat ++ beBytes 2 d.lk.cfg.appWord

/-- What the full status adds (R359). `app` are the 128 bytes that open-forme code writes. -/
def statusTail (app : List Byte) (d : Dev) : List Byte :=
  ((List.range 16).map fun e => beBytes 2 (d.eng e).load.toNat).flatten ++
  ((List.range 16).map fun c => BitVec.ofNat 8 (d.chase c).peak) ++ beBytes 8 d.lk.fpErr.toNat ++
  beBytes 4 (sat32 d.tb.trim) ++ beBytes 4 (sat32 (holdoverErr d)) ++ beBytes 4 d.gl.chaseFull.toNat ++
  beBytes 4 d.gl.orlost.toNat ++ beBytes 2 d.fm.margin ++ beBytes 2 d.load.eclk ++ beBytes 20 0 ++ app

/-- The words open-forme code writes: 0 without one, free values with one, since the manual does not place them (log entry
24). -/
def appBytes (d : Dev) : List Byte × Dev :=
  if d.store.openState = 2 then
    (List.range 16).foldl (fun (acc : List Byte × Dev) _ =>
      let q := acc.2.draw
      (acc.1 ++ beBytes 8 q.1.toNat, q.2)) ([], d)
  else (beBytes 128 0, d)

/-- The body taken at a boundary. -/
def takeBody (past : Bool) (d : Dev) : Dev :=
  let q := appBytes d
  let b := summaryBytes past q.2 ++ statusTail q.1 q.2
  { q.2 with lk := { q.2.lk with body := b }, ecc := { q.2.ecc with alarm := false } }

/-- R359: FULL_PHASE, FFh meaning (ADDRESS div 4) mod 8. -/
def fullPhase (d : Dev) : Nat := if d.lk.cfg.fullPhase = 255 then ownAddress d / 4 % 8 else d.lk.cfg.fullPhase

/-- SUMMARY_SEND on MAC `m`: the summary or full status leaves at its offset, or is dropped (R361). -/
def summarySend (m : Nat) (d : Dev) : Dev :=
  if roleFollows d && cyclicMac d m && d.lk.accepted then
    let full := d.tick.number.toNat % 8 == fullPhase d
    let p := if full then linkPayload d 3 d.tick.number d.lk.body else linkPayload d 2 d.tick.number (d.lk.body.take 32)
    let start := (d.lk.cfg.sumOffset + ownAddress d * d.lk.cfg.sumSpacing) * 64
    if (d.mac m).gate && fitsWindow d (d.mac m) start p.length then
      { d with lk := { d.lk with sent := d.lk.sent ++ [⟨m, d.lk.srcMac, d.lk.cfg.pcp, p⟩], fpErr := if full then 0 else d.lk.fpErr } }
    else d.updMac m fun x => { x with sumdropc := incSat x.sumdropc }
  else d

/-- A summary of tick `tick` arrives at or after the boundary that ends that tick (R362): a later tick number is raised by
then, by the sign of the 16-bit difference. -/
def summaryLate (d : Dev) (tick : BitVec 16) : Bool := decide (0 < (d.tick.number - tick).toInt)

/-- SUMMARY and FULL_STATUS of tick `tick` from address `a` (0 is the standby) reach the manager on MAC `m` (R353, R362). What they carry
is applied by the work of the next tick (R21). -/
def summaryRx (m : Nat) (domain : Nat) (src : BitVec 48) (a : Nat) (tick : BitVec 16) (body : List Byte) (full : Bool) (d : Dev) : Dev :=
  if roleManager d && cyclicMac d m && domain == d.lk.cfg.domainId && decide (a < 256) then
    let x := d.member a
    if summaryLate d tick then d.updMac m fun x => { x with latec := incSat x.latec }
    else if x.known && x.mac != src then emFlag 0 12 d
    else d.updMember a fun x => { x with
      known := true, mac := src, seen := true, misses := 0, lost := false, inbox := some (tick, body, full) }
  else d

/-- WORKER_LOST: three summaries of a worker are missing (R362). -/
def workerLost (a : Nat) (d : Dev) : Dev :=
  if roleManager d && (d.member a).known && !(d.member a).lost then
    emFlag 0 10 (d.updMember a fun x => { x with lost := true })
  else d

/-- At a boundary the manager counts the summaries of the tick that ends. -/
def memberBoundary (a : Nat) (d : Dev) : Dev :=
  let x := d.member a
  if x.known then
    let d1 := d.updMember a fun x => { x with
      seenLast := x.seen, seen := false
      missed := if x.seen then x.missed else x.missed + 1
      misses := if x.seen then 0 else x.misses + 1 }
    if 3 ≤ (d1.member a).misses then workerLost a d1 else d1
  else d

/-! ### Receiving a trajectory (R362–R364, R369) -/

/-- R369: a stale frame. -/
def staleFrame (m : Nat) (d : Dev) : Dev := emFlag m 4 (d.updMac m fun x => { x with stalec := incSat x.stalec })

/-- GEN order: the sign of the 8-bit difference (R369). -/
def genAfter (a b : BitVec 8) : Bool := decide (0 < (a - b).toInt)

/-- R369: a manager that hears a better one demotes. -/
def demoteManager (f : Trajectory) (src : BitVec 48) (d : Dev) : Dev :=
  let d1 := emFlag 0 13 { d with lk := { d.lk with demote := true, gen := f.gen, srcMac := src, accepted := true, copyTick := none } }
  let d2 := setRole 2 d1
  { d2 with lk := { d2.lk with state := .standby } }

/-- The frame does not match the device's own grid (R364). -/
def gridMismatch (d : Dev) (f : Trajectory) : Bool :=
  let p : Int := (d.tick.period * 64 : Nat)
  let n := sdiff f.tref d.tick.lastBoundary
  decide (n % p ≠ 0) || decide (f.period ≠ d.tick.period) ||
    decide (f.tick + 1 ≠ d.tick.number + BitVec.ofInt 16 (n / p))

/-- The frame passes to the next tick's work; or its grid is taken, or it counts as a miss (R363, R364). -/
def takeFrame (f : Trajectory) (d : Dev) : Dev :=
  if !timeHeld d then d
  else if gridMismatch d f then
    let k := d.lk.mismatches + 1
    let joined := match domState d with | .joined | .masterLost | .standby => true | _ => false
    if d.so.servo = .locked ∧ (joined = false ∨ 3 ≤ k) then
      { d with lk := { d.lk with adopt := some (f.tref, f.period, f.tick + 1), mismatches := 0 } }
    else { d with lk := { d.lk with mismatches := if d.so.servo = .locked then k else d.lk.mismatches } }
  else { d with lk := { d.lk with taken := some f, mismatches := 0 } }

/-- A frame whose GEN passes: the first copy of its tick is accepted (R363). -/
def acceptFrame (m : Nat) (src : BitVec 48) (f : Trajectory) (newGen : Bool) (d : Dev) : Dev :=
  if d.lk.copyTick = some f.tick ∧ newGen = false ∧ src = d.lk.srcMac then d.updMac m fun x => { x with dupc := incSat x.dupc }
  else
    let d1 := { d with
      lk := { d.lk with gen := f.gen, srcMac := src, accepted := true, copyTick := some f.tick, heard := true, silent := 0 }
      so := { d.so with epochS := f.epochS, epochNs := f.epochNs, epochObjS := f.epochS, epochObjNs := f.epochNs } }
    let d2 := if newGen then emFlag 0 14 (forgetMaster { d1 with lk := { d1.lk with takeovers := d1.lk.takeovers + 1 } })
      else d1
    takeFrame f d2

/-- TRAJECTORY_FRAME received on MAC `m` from source address `src`. -/
def trajectoryRx (m : Nat) (src : BitVec 48) (f : Trajectory) (d : Dev) : Dev :=
  let d := settleDomain d
  if !cyclicMac d m || f.domain != d.lk.cfg.domainId || f.src != 0 || f.stby then d
  else if roleManager d then
    if genAfter f.gen d.lk.gen || (f.gen == d.lk.gen && decide (src.toNat < (d.mac m).addr.toNat)) then demoteManager f src d else d
  else if !roleFollows d then d
  else if timeHeld d && atOrAfter d.tb.time f.tref then d.updMac m fun x => { x with latec := incSat x.latec }
  else if !d.lk.accepted then acceptFrame m src f false d
  else if genAfter d.lk.gen f.gen then staleFrame m d
  else if genAfter f.gen d.lk.gen then acceptFrame m src f true d
  else if d.lk.srcMac.toNat < src.toNat then staleFrame m d
  else acceptFrame m src f false d

/-! ### Applying (R113, R363–R366) -/

/-- An entry a worker can use (R366). -/
def entryUsable (e : TrajEntry) : Bool :=
  match fld e.state 0 3 with | 2 | 3 | 4 => true | 1 => bit e.state 6 | _ => false

def derivedAxes (d : Dev) (m : Nat) : List Nat :=
  (d.ax.axes.filter fun x => axEn x.2 && axKind x.2 == 3 && axSrc x.2 == m).map (·.1)

/-- A master-derived axis takes its master's entry, anchored at TREF (R113), with the transitions of R108. -/
def loadMaster (e : TrajEntry) (tref : Time64) (a : Nat) (d : Dev) : Dev :=
  let d1 := if (d.axis a).st.sync = .syncLost then enterSearch a d else d
  let d2 := loadSegment a ⟨e.angle, tref, speedIn e.speed, accelIn e.accel⟩ d1
  d2.updAxis a fun x => { x with st := { x.st with
    sync := match x.st.sync with | .search | .coasting => .locked | s => s, valid := true, model := true, ticks := 0 } }

def applyEntry (f : Trajectory) (e : TrajEntry) (d : Dev) : Dev :=
  if entryUsable e then
    let d1 := { d with lk := { d.lk with
      lostMask := d.lk.lostMask &&& ~~~ BitVec.ofNat 64 (2 ^ e.master), masterMiss := Bank.set 0 d.lk.masterMiss e.master 0 } }
    forEach (derivedAxes d1 e.master) (loadMaster e f.tref) d1
  else d

/-- R365: a worker takes the pending period change from the frame; one whose anchor has passed is no longer pending. -/
def takeChange (f : Trajectory) (d : Dev) : Dev :=
  if f.nextPeriod = 0 ∨ atOrAfter d.tick.lastBoundary f.nextAnchor = true then
    (if d.tick.change = 1 ∧ f.nextPeriod = 0 then { d with tick := { d.tick with nextPeriod := 0, change := 0 } } else d)
  else { d with tick := { d.tick with nextPeriod := f.nextPeriod, nextAnchor := f.nextAnchor, change := 1 } }

/-- The state after a frame has been applied (R364). -/
def afterApply (d : Dev) : Dev :=
  { d with lk := { d.lk with state :=
      match d.lk.state with
      | .joining => if tbRole d.tb = 2 then .standby else .joined
      | .masterLost => if d.lk.lostMask = 0 then .joined else .masterLost
      | s => s } }

/-- The tick work of a tick applies the frame of the tick before (R21). -/
def applyFrame (d : Dev) : Dev :=
  match d.lk.due with
  | none => d
  | some f =>
    let d1 := settleDomain { d with lk := { d.lk with due := none } }
    let d2 := if roleFollows d1 then takeChange f d1 else d1
    afterApply (forEach f.entries (applyEntry f) d2)

/-- The link part of a tick's work: the frame of the last tick is applied, and a manager forms its own. -/
def linkWork (d : Dev) : Dev := managerWork (applyFrame d)

/-! ### Missed frames, lost masters and takeover (R366, R368) -/

/-- MASTER_LOST: master `m` is lost and its axes coast. -/
def masterLost (m : Nat) (d : Dev) : Dev :=
  if roleFollows d && decide (m < 64) && !bit d.lk.lostMask m then
    let d1 := emFlag 0 15 { d with lk := { d.lk with
      lostMask := d.lk.lostMask ||| BitVec.ofNat 64 (2 ^ m), state := if d.lk.state = .joined then .masterLost else d.lk.state } }
    forEach (derivedAxes d1 m) (fun a d => if (d.axis a).st.sync = .locked then enterCoast a d else d) d1
  else d

/-- The masters counted at a boundary: those that an enabled master-derived axis follows (log entry 22). -/
def followedMasters (d : Dev) : List Nat := (List.range 64).filter fun m => !(derivedAxes d m).isEmpty

/-- One master at a boundary: missed unless the frame taken has a usable entry for it. -/
def masterBoundary (m : Nat) (d : Dev) : Dev :=
  let ok := match d.lk.taken with
    | some f => f.entries.any fun e => e.master == m && entryUsable e
    | none => false
  if ok then { d with lk := { d.lk with masterMiss := Bank.set 0 d.lk.masterMiss m 0 } }
  else
    let k := Bank.get 0 d.lk.masterMiss m + 1
    let d1 := { d with lk := { d.lk with masterMiss := Bank.set 0 d.lk.masterMiss m k } }
    if 3 ≤ k then masterLost m d1 else d1

/-- TAKEOVER: a ready standby takes over; one that is not ready is counted (R368, R55). -/
def takeover (d : Dev) : Dev :=
  if tbRole d.tb ≠ 2 then d
  else if domState d = .standby then
    let d1 := dropServo { d with
      lk := { d.lk with gen := d.lk.gen + 1, takeovers := d.lk.takeovers + 1, silent := 0, accepted := false } }
    let plant := (d.ptp.plantBest, d.ptp.plantHeard)
    let d2 := setRole 3 (emFlag 0 14 d1)
    { d2 with so := { d2.so with tookOver := true }, ptp := { d2.ptp with plantBest := plant.1, plantHeard := plant.2 } }
  else emFlag 0 8 { d with lk := { d.lk with blocked := d.lk.blocked + 1 } }

/-- A standby counts the ticks without an accepted manager frame. -/
def silentBoundary (d : Dev) : Dev :=
  if tbRole d.tb = 2 then
    let k := if d.lk.heard then 0 else d.lk.silent + 1
    let d1 := { d with lk := { d.lk with silent := k } }
    if k = 3 then takeover d1 else d1
  else d

/-- COAST_MAX: the ticks of each coasting master-derived axis (R366). -/
def coastBoundary (a : Nat) (d : Dev) : Dev :=
  let x := d.axis a
  if axEn x && axKind x == 3 && x.st.sync == .coasting then
    let d1 := d.updAxis a fun x => { x with st := { x.st with ticks := x.st.ticks + 1 } }
    if d.lk.cfg.coastMax ≤ (d1.axis a).st.ticks then coastMax a d1 else d1
  else d

/-- The link at a boundary: the window in force, misses, takeover, and the frame that this tick's work applies. -/
def linkBoundary (past : Bool) (d : Dev) : Dev :=
  let d1 := settleDomain (forEach [0, 1, 2, 3] gateClose d)
  let d2 := forEach (d1.ax.axes.map (·.1)) coastBoundary d1
  let d3 := if roleFollows d2 then
      forEach (followedMasters d2) masterBoundary
        (if d2.lk.taken.isNone then { d2 with lk := { d2.lk with missed := d2.lk.missed + 1 } } else d2)
    else d2
  let d4 := if roleManager d3 then forEach (d3.lk.members.map (·.1)) memberBoundary d3 else d3
  let own := roleManager d4 || d4.lk.demote
  let d5 := silentBoundary d4
  let d6 := { d5 with lk := { d5.lk with
    gofs := d5.lk.cfg.linkOffset, glen := d5.lk.cfg.cyclicLength
    due := if own then d5.lk.formed else d5.lk.taken
    taken := none, formed := none, heard := false, demote := false, sentOn := 0 } }
  takeBody past d6

/-! ### ARP and ICMP (R370) -/

def macServes (d : Dev) (m : Nat) : Bool := decide (m < 4) && emEnabled (d.mac m) && (d.mac m).linkUp

def sendReply (m kind : Nat) (dest : W32) (data : List Byte) (d : Dev) : Dev := orWait m (.reply kind dest data) (replyLeaves m kind dest data) d

/-- ARP: a request for `target` from `sender` on MAC `m`. -/
def arpRequest (m : Nat) (sender target : W32) (d : Dev) : Dev :=
  if macServes d m && target == (d.mac m).ip then sendReply m 0 sender (beBytes 6 (d.mac m).addr.toNat) d else d

/-- ICMP_ECHO: an echo request to `target`; `plain` is false for a packet with options or a fragment. -/
def icmpEcho (m : Nat) (sender target : W32) (data : List Byte) (plain : Bool) (d : Dev) : Dev :=
  if macServes d m && target == (d.mac m).ip && plain then sendReply m 1 sender data d else d

/-! ### The MAC registers (R375) -/

/-- RECEIVE_ERROR: an FCS or framing error. -/
def receiveError (m : Nat) (d : Dev) : Dev :=
  if emEnabled (d.mac m) then emFlag m 5 (d.updMac m fun x => { x with rxerrc := incSat x.rxerrc }) else d

/-- LINK_DOWN and LINK_UP. -/
def linkDown (m : Nat) (d : Dev) : Dev :=
  if (d.mac m).linkUp then emFlag m 3 (d.updMac m fun x => { x with linkUp := false }) else d
def linkUp (m : Nat) (d : Dev) : Dev := if m < 4 then d.updMac m fun x => { x with linkUp := true } else d

/-- MAC_ENABLE. -/
def macEnable (m : Nat) (d : Dev) : Dev := if m < 4 then d.updMac m fun x => { x with cfg := orBit x.cfg 31 } else d

/-- MAC_DISABLE: the `queued` frames still waiting are discarded and counted, and the line side is held in reset. -/
def macDisable (m queued : Nat) (d : Dev) : Dev :=
  let d1 := d.updMac m fun x => { x with
    cfg := clrBit x.cfg 31, gate := false, held := [], rxdropc := addSat x.rxdropc (queued + x.held.length) }
  if m < 4 then { d1 with ic := { d1.ic with xstat := orBit d1.ic.xstat (4 + m) } } else d1

/-- A write to EMn_CFG: IF and SPEED are ignored while EN = 1; SPEED 11b is refused. -/
def emCfgWrite (m : Nat) (v : W32) (d : Dev) : Dev :=
  let x := d.mac m
  let fields := decide (fld v 28 3 ≠ fld x.cfg 28 3)
  let d1 :=
    if fields && (emEnabled x || fld v 28 2 == 3) then emFlag m 7 d
    else d.updMac m fun x => { x with cfg := setFld x.cfg 28 3 (fld v 28 3) }
  if bit v 31 then macEnable m d1 else if emEnabled x then macDisable m 0 d1 else d1

/-- EMn_STAT as read. -/
def emStatRead (m : Nat) (d : Dev) : W32 :=
  let x := d.mac m
  x.stat ||| atBit x.linkUp 1 ||| atBit (emEnabled x) 0

end Sys2Proof.Machine
end

