-- ==== Sys2Proof/Machine/Bridge.lean ====
section
/-! DEFINITION. Bridge pairs, dead time and trips (R190–R208): the minimum-pulse filter, the side rules, bootstrap
refresh, enable and disable, trip inputs. Instants are local grains. -/

namespace Sys2Proof.Machine

/-! ### Fields -/

def bpClassA (p : Pair) : Bool := bit p.ctl 30
def bpInter (p : Pair) : Bool := bit p.ctl 29
def bpDrop (p : Pair) : Bool := bit p.ctl 28
def bpMask (p : Pair) : Nat := fld p.ctl 10 16
def tiEn (t : Trip) : Bool := bit t.ctl 31
def tiBlank (t : Trip) : Nat := fld t.ctl 0 10

/-- R194, R196: the dead times in force, grains. -/
def deadRise (d : Dev) (p : Pair) : Nat := fld p.dtrNow 0 18 + d.br.guard.toNat
def deadFall (d : Dev) (p : Pair) : Nat := fld p.dtfNow 0 18 + d.br.guard.toNat

/-- A pair event bit `b` (8–15) of BPnnn_STAT, source 200h + p. -/
def bpFlag (p b : Nat) (d : Dev) : Dev :=
  memberEvent (0x200 + p) (d.updPair p fun x => { x with stat := orBit x.stat b })

/-- MINP in grains; a stored 0 is used as 1 (R193). -/
def minPulse (p : Pair) : Nat := max 1 (fld p.ctl 0 10) * 64

/-- R193: one interval stretched or removed by the filter. -/
def countFilt (p : Nat) (d : Dev) : Dev :=
  bpFlag p 8 (d.updPair p fun x => { x with filtc := incSat x.filtc })

/-- R190: the commands of the two sides; both count as 0 while STOPPING (R200). -/
def qHigh (p : Pair) : Bool := p.state != .stopping && p.fhigh.qf
def qLow (p : Pair) : Bool := p.state != .stopping && (if bpInter p then p.flow.qf else !p.fhigh.qf)

/-- Is any latch of the pair's TRIPMASK set? -/
def anyLatch (d : Dev) (p : Pair) : Bool :=
  (List.range 16).any fun i => Nat.testBit (bpMask p) i && (d.trip i).latch

/-- The trip of input `t` was accepted in an earlier TCLK, so that its latch refuses an enable (R199, R201). -/
def oldLatch (d : Dev) (t : Trip) : Bool :=
  t.latch && (match t.acceptedIn with | some k => decide (k < d.tb.tclk) | none => true)

/-! ### Blanking (R202) -/

/-- A transition of a pin of pair `p` opens or restarts the blanking window of every input it obeys. -/
def openBlanking (p : Nat) (d : Dev) : Dev :=
  forEach (List.range 16) (fun i d =>
    if Nat.testBit (bpMask (d.pair p)) i && decide (0 < tiBlank (d.trip i)) then
      d.updTrip i fun t => { t with blankEnd := some (d.tb.tclk + tiBlank t) }
    else d) d

/-- A trip-input event bit (3 CLR_REJ, 2 LATCH), source 380h + i. -/
def tiEvent (i : Nat) (d : Dev) : Dev := memberEvent (0x380 + i) d

/-! ### Sides (R195, R196, R198) -/

/-- A side turns on at `t`. -/
def turnOn (p : Nat) (high : Bool) (t : Nat) (d : Dev) : Dev :=
  openBlanking p (d.updPair p fun x =>
    if high then { x with high := { x.high with on := true, onAt := t } }
    else { x with low := { x.low with on := true, onAt := t } })

/-- A side turns off at `t`; the dead time for the other side's turn-on is the one in force now (R196). -/
def turnOff (p : Nat) (high : Bool) (t : Nat) (d : Dev) : Dev :=
  openBlanking p (d.updPair p fun x =>
    if high then { x with high := { x.high with on := false, offAt := t, dead := deadFall d x } }
    else { x with low := { x.low with on := false, offAt := t, dead := deadRise d x } })

/-- R195: may the side turn on at `t`? During a refresh the low side turns on D_F after its start, whatever ql is (R198). -/
def mayTurnOn (x : Pair) (high : Bool) (t : Nat) : Bool :=
  x.state == .run &&
  (if high then
    !x.high.on && qHigh x && !qLow x && x.refresh.isNone && !x.low.on && decide (x.low.offAt + x.low.dead ≤ t)
   else
    !x.low.on && !x.high.on &&
    (match x.refresh with
     | some r => decide (r + x.high.dead ≤ t)
     | none => qLow x && !qHigh x && decide (x.high.offAt + x.high.dead ≤ t)))

/-- R195, R200: may the side turn off at `t`? -/
def mayTurnOff (x : Pair) (high : Bool) (t : Nat) : Bool :=
  (x.state == .run || x.state == .stopping) &&
  (if high then x.high.on && (!qHigh x || qLow x) && decide (x.high.onAt + minPulse x ≤ t)
   else x.low.on && x.refresh.isNone && (!qLow x || qHigh x) && decide (x.low.onAt + minPulse x ≤ t))

/-- SIDE_TURN_ON: a side turns on at `t` when R195 lets it. -/
def sideTurnOn (p : Nat) (high : Bool) (t : Nat) (d : Dev) : Dev :=
  if mayTurnOn (d.pair p) high t then turnOn p high t d else d

/-- The instant at which the turn-off condition of a side began: its own command ended, or the other side's began (R195, R200). -/
def endedAt (x : Pair) (high : Bool) : Nat :=
  if x.state == .stopping then x.stopAt
  else if !bpInter x then x.fhigh.qfAt
  else if (if high then qHigh x else qLow x) then (if high then x.flow.qfAt else x.fhigh.qfAt)
  else (if high then x.fhigh.qfAt else x.flow.qfAt)

/-- SIDE_TURN_OFF: a side turns off at `t` when R195 lets it; HELD is set when the MINP hold kept it past its command (R197). -/
def sideTurnOff (p : Nat) (high : Bool) (t : Nat) (d : Dev) : Dev :=
  let x := d.pair p
  if mayTurnOff x high t then
    let d1 := turnOff p high t d
    if endedAt x high < (if high then x.high else x.low).onAt + minPulse x then bpFlag p 10 d1 else d1
  else d

/-! ### The filter (R193) and its flags (R195, R197) -/

/-- The first instant at which the filter lets its pending change pass (R193). -/
def filterAt (x : Pair) (f : PulseFilter) : Nat := if bpDrop x then f.qAt + minPulse x else max f.qAt (f.qfAt + minPulse x)

/-- The filtered level may change at `t` (R193). -/
def filterDue (x : Pair) (f : PulseFilter) (t : Nat) : Bool := f.q != f.qf && decide (filterAt x f ≤ t)

/-- EATEN: the side commanded on until now has not turned on (R197). -/
def countEaten (p : Nat) (d : Dev) : Dev :=
  bpFlag p 9 (d.updPair p fun x => { x with eatc := incSat x.eatc })

/-- Both sides are commanded on once the filters have taken every change due at `t` (R195). -/
def overlapAt (x : Pair) (t : Nat) : Bool :=
  let lev (f : PulseFilter) := if filterDue x f t then f.q else f.qf
  bpInter x && x.state != .stopping && lev x.fhigh && lev x.flow

/-- MIN_PULSE_FILTER: the filtered command level of a side changes at `t`. A side commanded on that never turned on is EATEN; both
sides commanded on in interlocked mode is an OVERLAP (R195). -/
def minPulseFilter (p : Nat) (high : Bool) (t : Nat) (d : Dev) : Dev :=
  let x := d.pair p
  let f := if high then x.fhigh else x.flow
  if pairEnabled x && (high || bpInter x) && filterDue x f t then
    let eatH := x.state == .run && high && f.qf && !x.high.on && decide (x.high.onAt < f.qfAt)
    let eatL := x.state == .run && !x.low.on && decide (x.low.onAt < f.qfAt) &&
      (if bpInter x then !high && f.qf else high && !f.qf)
    let d1 := d.updPair p fun x =>
      if high then { x with fhigh := { x.fhigh with qf := x.fhigh.q, qfAt := t } }
      else { x with flow := { x.flow with qf := x.flow.q, qfAt := t } }
    let d2 := if eatH || eatL then countEaten p d1 else d1
    if overlapAt x t && f.q then bpFlag p 13 (d2.updPair p fun x => { x with ovlc := incSat x.ovlc }) else d2
  else d

/-- The commanded level of one side takes its channel's LVL at the instant of LVL's last change. An interval shorter than MINP is
stretched or removed: FILT (R190, R193). -/
def takeCommand (p : Nat) (high : Bool) (d : Dev) : Dev :=
  let x := d.pair p
  let o := d.chOut (if high then 2 * p else 2 * p + 1)
  let f := if high then x.fhigh else x.flow
  let d1 := d.updPair p fun x =>
    if high then { x with fhigh := { x.fhigh with q := o.lvl, qAt := o.lvlAt } }
    else { x with flow := { x.flow with q := o.lvl, qAt := o.lvlAt } }
  if o.lvlAt < f.qAt + minPulse x then countFilt p d1 else d1

/-! ### Refresh (R198) -/

/-- May a refresh start at `t`? -/
def refreshDue (x : Pair) (t : Nat) : Bool :=
  bpClassA x && x.state == .run && x.refresh.isNone && !x.low.on &&
    decide (x.low.offAt + fld x.bsmax 0 24 * 64 ≤ t) && x.high.on && decide (x.high.onAt + minPulse x ≤ t)

/-- REFRESH_START: the high side turns off and the refresh runs. -/
def refreshStart (p t : Nat) (d : Dev) : Dev :=
  if refreshDue (d.pair p) t then
    let d1 := turnOff p true t d
    bpFlag p 11 (d1.updPair p fun x => { x with refresh := some t, refc := incSat x.refc })
  else d

/-- REFRESH_END at r + D_F + BSPW: the low side turns off if ql = 0, otherwise it stays on under R195. -/
def refreshEnd (p t : Nat) (d : Dev) : Dev :=
  let x := d.pair p
  match x.refresh with
  | some r =>
    if r + x.high.dead + fld x.bspw 0 12 * 64 ≤ t then
      let d1 := d.updPair p fun x => { x with refresh := none }
      if !qLow x && x.low.on then turnOff p false t d1 else d1
    else d
  | none => d

/-! ### Enable, disable, trip, resume (R199–R205) -/

/-- R199: the keyed enable is refused. -/
def pairRefused (d : Dev) (p : Nat) : Bool :=
  let x := d.pair p
  let a := d.chOut (2 * p)
  let b := d.chOut (2 * p + 1)
  outDrv a != 0 || outSrc a != 0 || outDrv b != 0 || outSrc b != 0 ||
  emulated d (2 * p) || emulated d (2 * p + 1) ||
  ((List.range 16).any fun i => Nat.testBit (bpMask x) i && oldLatch d (d.trip i)) ||
  (bpClassA x && (decide (fld x.bsmax 0 24 < 2500) || decide (fld x.bspw 0 12 * 64 < minPulse x)))

/-- R199: a keyed write of 1 to 3200h + n:01h; an accepted enable takes effect in the next TCLK. A disable of the same TCLK wins
(R201). -/
def pairEnable (p : Nat) (d : Dev) : Dev :=
  let x := d.pair p
  if pairEnabled x || x.stopDue then d
  else if pairRefused d p then bpFlag p 14 d
  else d.updPair p fun x => { x with enableDue := true }

/-- R200: DIS, or a keyed write of 0; it takes effect in the next TCLK and undoes an enable of this one (R201). -/
def pairDisable (p : Nat) (d : Dev) : Dev := d.updPair p fun x => { x with stopDue := true, enableDue := false }

/-- R205: a keyed RESUME; it takes effect in the next TCLK. -/
def pairResume (p : Nat) (d : Dev) : Dev :=
  let x := d.pair p
  if anyLatch d x then bpFlag p 14 d
  else if x.state == .tripped then d.updPair p fun x => { x with resumeDue := true }
  else d

/-- The pair drives both sides off and enters RUN; both count as off from this TCLK (R199). Its filters start at the levels its
channels show, without a hold (log entry 4: DEDUCED). -/
def enterRun (p : Nat) (d : Dev) : Dev :=
  withOwner [2 * p, 2 * p + 1] (fun d =>
    let t := d.localNow
    d.updPair p fun x =>
      let f (v : Bool) : PulseFilter := ⟨v, t - minPulse x, v, max 1 (t - minPulse x)⟩
      { x with ctl := orBit x.ctl 31, state := .run, refresh := none
               high := ⟨false, 0, t, deadFall d x⟩, low := ⟨false, 0, t, deadRise d x⟩
               fhigh := f (outIdl (d.chOut (2 * p))), flow := f (outIdl (d.chOut (2 * p + 1))) }) d

/-- R203: one enabled pair loads both sides off, whatever the MINP hold and a refresh are at, and enters TRIPPED. A side that was on
turns off, and that transition opens the blanking windows (R202). -/
def tripPair (p : Nat) (d : Dev) : Dev :=
  let x := d.pair p
  if !pairEnabled x then d
  else
    let t := d.localNow
    let d1 := bpFlag p 12 (d.updPair p fun x =>
      { x with state := .tripped, tripc := incSat x.tripc, refresh := none
               high := if x.high.on then ⟨false, x.high.onAt, t, deadFall d x⟩ else x.high
               low := if x.low.on then ⟨false, x.low.onAt, t, deadRise d x⟩ else x.low })
    markPair p (if x.high.on || x.low.on then openBlanking p d1 else d1)

/-- R200: the pair enters STOPPING; a refresh in progress ends. -/
def enterStopping (p : Nat) (d : Dev) : Dev :=
  if pairEnabled (d.pair p) then
    markPair p (d.updPair p fun x => { x with state := .stopping, refresh := none, stopAt := d.localNow })
  else d

/-- STOPPING_DONE: both sides have been off long enough: DISABLED, EN reads 0, and the pins pass to their channels (R200). -/
def stoppingDone (p : Nat) (d : Dev) : Dev :=
  let x := d.pair p
  if x.state == .stopping && !x.high.on && !x.low.on then
    withOwner [2 * p, 2 * p + 1] (fun d => markPair p
      (d.updPair p fun x => { x with ctl := clrBit x.ctl 31, state := .disabled })) d
  else d

/-- The start of a TCLK for pair `p`: DTR and DTF of the writes before it are in force (R196), and what the TCLK before has ordered
takes effect: an enable or a resume, then a trip accepted in it, then a disable (R199–R203, R205). -/
def openPair (p : Nat) (d : Dev) : Dev :=
  let x := d.pair p
  let d1 := d.updPair p fun x => { x with dtrNow := x.dtr, dtfNow := x.dtf, enableDue := false, resumeDue := false, stopDue := false }
  let d2 := if x.enableDue then markPair p (enterRun p d1)
    else if x.resumeDue then markPair p (d1.updPair p fun x => { x with state := .run })
    else d1
  let hit := (List.range 16).any fun i => Nat.testBit (bpMask x) i && (d.trip i).hit
  let d3 := if hit then tripPair p d2 else d2
  if x.stopDue then enterStopping p d3 else d3

/-! ### Trip inputs (R202, R203, R205) -/

/-- Input `i` accepts a trip: LATCH and TRIPC; every enabled associated pair trips in the next TCLK (R203). -/
def acceptTrip (i : Nat) (d : Dev) : Dev :=
  tiEvent i (d.updTrip i fun t => { t with latch := true, tripc := incSat t.tripc, hit := true, acceptedIn := some d.tb.tclk })

/-- The sample of one TCLK of an enabled input (R202): inside a window it counts as inactive, unless the input has been active
for BLANK samples before it; an assertion first sampled inside a window counts in BLANKC. -/
def sampleTrip (t : Trip) : Trip :=
  if !tiEn t then { t with active := 0, raw := 0, level := false }
  else if t.ball == bit t.ctl 30 then
    let counted := !t.window || decide (tiBlank t ≤ t.raw)
    { t with
      raw := min 1024 (t.raw + 1), active := if counted then min 16 (t.active + 1) else 0
      blankc := if t.raw = 0 && t.window then incSat t.blankc else t.blankc }
  else { t with active := 0, raw := 0 }

/-- The start of a TCLK for input `i`: its window, its sample, and a software trip of the TCLK before (R202, R203). -/
def openTrip (i : Nat) (d : Dev) : Dev :=
  let soft := (d.trip i).soft
  let d1 := d.updTrip i fun t => sampleTrip { t with
    soft := false, hit := false, window := match t.blankEnd with | some k => decide (d.tb.tclk ≤ k) | none => false }
  if soft then acceptTrip i d1 else d1

/-- The filter of an enabled input has counted N active samples in a row (R202). -/
def tripDue (t : Trip) : Bool := tiEn t && !t.level && decide (fld t.ctl 16 4 + 1 ≤ t.active)

/-- TRIP_ACCEPTED: the filter of an enabled input accepts a trip on its ball. -/
def tripAccepted (i : Nat) (d : Dev) : Dev :=
  if tripDue (d.trip i) then acceptTrip i (d.updTrip i fun t => { t with level := true }) else d

/-- TRIP_LEVEL_INACTIVE: the filter has taken a sample as inactive: LEVEL falls (R202; log entry 75: DEDUCED). -/
def tripInactive (i : Nat) (d : Dev) : Dev :=
  if (d.trip i).active = 0 then d.updTrip i fun t => { t with level := false } else d

/-- SWTRIP: the input accepts a trip in the next TCLK, whatever EN and the windows show (R203). -/
def softTrip (i : Nat) (d : Dev) : Dev := d.updTrip i fun t => { t with soft := true }

/-- R205: a write of 1 to LATCH. A trip accepted in the same TCLK leaves it set (R9). -/
def latchClear (i : Nat) (d : Dev) : Dev :=
  if (d.trip i).level then tiEvent i (d.updTrip i fun t => { t with clrRej := true })
  else if (d.trip i).acceptedIn = some d.tb.tclk then d
  else d.updTrip i fun t => { t with latch := false }

/-- The start of a TCLK for the trip inputs, then the pairs. -/
def openBridge (d : Dev) : Dev :=
  let d1 := forEach (d.br.pairs.map (·.1)) openPair d
  forEach (d1.br.trips.map (·.1)) openTrip d1

/-! ### Register writes -/

/-- BPnnn_CTL: RWK EN aside (R408), every field is locked while the pair is enabled (R196, R499). -/
def bpCtlWrite (p : Nat) (v : W32) (d : Dev) : Dev :=
  let x := d.pair p
  let w := setFld v 31 1 (fld x.ctl 31 1)
  if pairEnabled x then (if w ≠ x.ctl then bpFlag p 15 d else d)
  else d.updPair p fun x => { x with ctl := w }

def bpStateCode (s : PairState) : Nat :=
  match s with | .disabled => 0 | .run => 1 | .stopping => 2 | .tripped => 3

/-- BPnnn_STAT as read. -/
def bpStatRead (p : Nat) (d : Dev) : W32 :=
  let x := d.pair p
  x.stat ||| atBit x.high.on 5 ||| atBit x.low.on 4 ||| atBit x.refresh.isSome 3 ||| BitVec.ofNat 32 (bpStateCode x.state)

/-- TInn_STAT as read. -/
def tiStatRead (i : Nat) (d : Dev) : W32 :=
  let t := d.trip i
  atBit t.clrRej 3 ||| atBit t.latch 2 ||| atBit t.window 1 ||| atBit t.level 0

end Sys2Proof.Machine
end

