-- ==== Sys2Proof/Machine/Keys.lean ====
section
/-! DEFINITION. Keys, lifecycle and keyed commands (R396–R409): the checks of a keyed write, the keys and their slots, the
lifecycle, the customer key hash, tamper and VBAT, and the record of rejected direct writes. -/

namespace Sys2Proof.Machine

/-! ### Slots -/

def Vault.slot (v : Vault) (n : Nat) : KeySlot := Bank.get {} v.slots n
def Vault.updSlot (v : Vault) (n : Nat) (f : KeySlot → KeySlot) : Vault := { v with slots := Bank.upd {} v.slots n f }

/-- SCOPE: FFh on slot 0, whatever is stored (R400). -/
def Vault.scope (v : Vault) (n : Nat) : Byte := if n = 0 then 0xFF else (v.slot n).scope

def slotCode (s : SlotState) : Nat := match s with | .empty => 0 | .valid => 1 | .voided => 2
def lifecycleCode (l : Lifecycle) : Nat := match l with | .blank => 0 | .develop => 1 | .field => 2 | .retired => 3

/-- An event bit of SC_SECSTAT; bits [7:4] fire source 3ADh. -/
def secFlag (b : Nat) (d : Dev) : Dev := memberEvent 0x3AD { d with sec := { d.sec with stat := orBit d.sec.stat b } }

/-- Every counter restarts at 0 and every slot that is not EMPTY becomes VOID (R399). -/
def voidSlots (v : Vault) : Vault :=
  [0, 1, 2, 3].foldl (fun v n => v.updSlot n fun s => { s with
    counter := 0, state := match s.state with | .empty => .empty | _ => .voided }) { v with bootCounter := 0 }

def anyHeld (v : Vault) : Bool := [0, 1, 2, 3].any fun n => (v.slot n).state == .valid

/-- The voiding, and SLOT_VOID where a slot became VOID. -/
def voidAll (c : Core) : Core :=
  { vault := voidSlots c.vault, dev := if anyHeld c.vault then secFlag 7 c.dev else c.dev }

/-- TAMPER: an assertion of TAMPER_N sets the latch (R409). -/
def tamper (c : Core) : Core := voidAll { c with vault := { c.vault with tamper := true } }

/-- VBAT_LOSS: the always-on island is reset: the AOQ counters (not the levels at their balls), the command counters, the slots, the record of
the last wake (R89, R320, R399, R471). The tamper
latch clears only under R406 (R409). -/
def vbatLoss (c : Core) : Core :=
  let c1 := voidAll { c with vault := { c.vault with vbatLost := true } }
  let d := secFlag 4 c1.dev
  { vault := [0, 1, 2, 3].foldl (fun v n => v.updSlot n fun s => { s with finger := 0 }) c1.vault
    dev := { d with tooth := { d.tooth with aoq := d.tooth.aoq.map fun e => (e.1, { ({} : Aoq) with ab := e.2.ab }) }, pw := { d.pw with wakeCause := 0, wakeSource := 0xFFFF } } }

/-- VBAT_RESTORE after a loss: the tamper latch sets. -/
def vbatRestore (c : Core) : Core :=
  if c.vault.vbatLost then tamper { c with vault := { c.vault with vbatLost := false } } else c

/-! ### Derived keys (R398) -/

def keyBytes (k : BitVec 256) : List Byte := beBytes 32 k.toNat
def deriveKey (label : List Byte) : BitVec 256 := Config.hmacSha256 (keyBytes Config.deviceKey) label
/-- K_WRAP and K_SEAL, from the ASCII bytes of their labels. -/
def wrapKey : BitVec 256 := deriveKey [0x57, 0x52, 0x41, 0x50]
def sealKey : BitVec 256 := deriveKey [0x53, 0x45, 0x41, 0x4C]
/-- The fingerprint: the first 8 bytes of the key's SHA-256 (R399). -/
def fingerprint (k : BitVec 256) : W64 := ((Config.sha256 (keyBytes k)) >>> 192).setWidth 64

/-! ### The keyed write (R402–R404) -/

/-- The classes of R400 and what an object is to the keyed write: a key slot's KEY, or a value of its class. -/
inductive KeyedKind where
  | plain (cls : Nat)
  | key (slot : Nat)
  deriving DecidableEq, Repr

def keyedClass (k : KeyedKind) : Nat := match k with | .plain c => c | .key n => if n = 0 then 5 else 4

/-- The trailer of a keyed write (R402). -/
structure Trailer where
  slot : Nat
  counter : W64
  tag : List Byte
  deriving DecidableEq, Repr

def trailerOf (l : List Byte) : Trailer := ⟨leNat (slice l 0 1), BitVec.ofNat 64 (beNat (slice l 8 8)), slice l 16 16⟩

/-- The bytes TAG is computed over (R402). -/
def tagMessage (index sub : Nat) (value : List Byte) (t : Trailer) : List Byte :=
  beBytes 8 Config.deviceId.toNat ++ [3] ++ beBytes 2 index ++ beBytes 1 sub ++ beBytes 2 value.length ++ value ++
    beBytes 1 t.slot ++ beBytes 8 t.counter.toNat

def keyTag (k : BitVec 256) (m : List Byte) : List Byte := (keyBytes (Config.hmacSha256 (keyBytes k) m)).take 16

/-- R406: a bootstrap of slot 0 in one of its two forms. `host` says that it came through a host mailbox. -/
def bootAllowed (v : Vault) (host : Bool) (kind : KeyedKind) (value : List Byte) : Bool :=
  kind == .key 0 && (v.slot 0).state != .valid &&
  (if value.length = 40 then host && (v.lifecycle == .develop || (v.lifecycle == .field && v.custHash.isNone))
   else if value.length = 168 then
     (match v.custHash with | some h => Config.sha256 (slice value 40 64) == h | none => false)
   else false)

def isBoot (t : Trailer) : Bool := t.slot == 255

/-- The key and the counter a trailer is checked against. -/
def keyOf (v : Vault) (t : Trailer) : BitVec 256 := if isBoot t then 0 else (v.slot t.slot).key
def counterOf (v : Vault) (t : Trailer) : W64 := if isBoot t then v.bootCounter else (v.slot t.slot).counter

/-- Checks 2 to 6 of R403: the reason of the first that fails. -/
def keyedFailure (v : Vault) (host : Bool) (kind : KeyedKind) (index sub : Nat) (value : List Byte) (t : Trailer) : Option Nat :=
  if !(v.lifecycle == .develop || v.lifecycle == .field) then some 2
  else if isBoot t && !bootAllowed v host kind value then some 7
  else if !isBoot t && !(decide (t.slot < 4) && (v.slot t.slot).state == .valid) then some 3
  else if !isBoot t && !bit (v.scope t.slot) (keyedClass kind) then some 4
  else if decide (t.counter.toNat ≤ (counterOf v t).toNat) then some 5
  else if keyTag (keyOf v t) (tagMessage index sub value t) != t.tag then some 6
  else none

/-- Check 7: the key a KEY value carries unwraps under the authorising key, and a signed bootstrap's signature verifies. -/
def unwrapped (v : Vault) (t : Trailer) (value : List Byte) : Option (BitVec 256) :=
  let w := slice value 0 40
  let signed := isBoot t && value.length == 168
  let msg := beBytes 8 Config.deviceId.toNat ++ beBytes 8 v.bootNonce.toNat ++ [0] ++ w
  if signed && !Config.ecdsaVerify (slice value 40 64) (slice value 104 64) (Config.sha256 msg) then none
  else if (isBoot t || value.length == 40) then Config.keyUnwrap (keyOf v t) w else none

/-- The counter is taken once check 6 has passed (R404). -/
def takeCounter (t : Trailer) (v : Vault) : Vault :=
  if isBoot t then { v with bootCounter := t.counter } else v.updSlot t.slot fun s => { s with counter := t.counter }

/-- A failed keyed write: LAST_FAIL, KEY_FAILURES, KEY_FAIL (R403). -/
def keyFailure (reason index sub : Nat) (d : Dev) : Dev :=
  secFlag 5 { d with sec := { d.sec with
    failures := d.sec.failures + 1, lastFail := BitVec.ofNat 32 (reason * 2 ^ 24 + index % 65536 * 256 + sub % 256) } }

/-- A key is written into slot `n` (R401): counter 0, fingerprint, wrapped form, VALID. -/
def writeKey (n : Nat) (k : BitVec 256) (v : Vault) : Vault :=
  v.updSlot n fun s => { s with
    state := .valid, key := k, wrapped := Config.keyWrap wrapKey k, counter := 0, finger := fingerprint k }

/-- What a bootstrap does beside it (R406, R409): the tamper latch clears; a signed one draws BOOT_NONCE afresh. -/
def afterBoot (signed : Bool) (c : Core) : Core :=
  let c1 := { c with vault := { c.vault with tamper := false } }
  if signed then
    let q := c1.dev.draw
    { vault := { c1.vault with bootNonce := q.1 }, dev := q.2 }
  else c1

/-! ### Lifecycle and customer key hash (R397, R398) -/

/-- An accepted keyed write of the lifecycle; none is a refusal with STATE. -/
def writeLifecycle (value : Nat) (c : Core) : Option Core :=
  if value = lifecycleCode c.vault.lifecycle then some c
  else match c.vault.lifecycle, value with
    | .develop, 2 => some { c with vault := { c.vault with lifecycle := .field } }
    | .develop, 3 | .field, 3 =>
      let v := [0, 1, 2, 3].foldl (fun v n => v.updSlot n fun s => { s with state := .voided }) { c.vault with lifecycle := .retired }
      let became := [0, 1, 2, 3].any fun n => (c.vault.slot n).state != .voided
      some { vault := v, dev := (if became then secFlag 7 else id) (forEach (List.range 128) (fun p d => if bit (d.pair p).ctl 31 then pairDisable p d else d) c.dev) }
    | _, _ => none

/-- An accepted keyed write of the customer key hash, or its refusal. -/
def writeCustHash (value : List Byte) (c : Core) : DictCode × Core :=
  let h : BitVec 256 := BitVec.ofNat 256 (beNat value)
  if value.length ≠ 32 then (.typeErr, c)
  else if h = 0 then (.range, c)
  else match c.vault.custHash with
    | some g => (if g = h then .ok else .state, c)
    | none =>
      if c.vault.lifecycle = .develop then (.ok, { c with vault := { c.vault with custHash := some h } }) else (.state, c)

/-! ### Stored keys (R407), resets -/

/-- The seal of a stored image verifies. A RETIRED device has no DK to check it with (R397, log entry 51). -/
def sealAccepted (v : Vault) (computed stored : List Byte) : Bool := v.lifecycle != .retired && computed == stored

/-- A stored KEY entry at boot: taken in its K_WRAP form; VALID only with the island's fingerprint. -/
def bootKey (n : Nat) (w : List Byte) (v : Vault) : Vault :=
  match Config.keyUnwrap wrapKey w with
  | some k => v.updSlot n fun s => { s with
      key := k, wrapped := w, state := if fingerprint k = s.finger then .valid else .voided }
  | none => v.updSlot n fun s => { s with wrapped := w, state := .voided }

/-- The device after a KEY entry at boot: SLOT_VOID where the slot became VOID. -/
def bootKeyStep (n : Nat) (w : List Byte) (c : Core) : Core :=
  let v := bootKey n w c.vault
  { vault := v
    dev := if (v.slot n).state == .voided && (c.vault.slot n).state != .voided then secFlag 7 c.dev else c.dev }

/-- A core reset: the slots' keys lie in the dictionary store, their counters and fingerprints in the always-on island. -/
def resetVault (nonce : W64) (v : Vault) : Vault :=
  [0, 1, 2, 3].foldl (fun v n => v.updSlot n fun s => { s with state := .empty, key := 0, wrapped := [], scope := 0 })
    { v with bootNonce := nonce }

/-! ### Direct writes (R408) and registers -/

/-- R408: a bus write that would change an RWK field; `src` 0 PCIe, 1 QSPI, 2 an engine's GREG. -/
def rwkReject (src addr : Nat) (d : Dev) : Dev :=
  secFlag 6 { d with sec := { d.sec with rwkRej := BitVec.ofNat 32 (addr / 4 % 2 ^ 24 * 4 + src), rwkc := incSat d.sec.rwkc } }

/-- SC_SECSTAT as read. -/
def secStatRead (c : Core) : W32 :=
  let v := c.vault
  let st := [0, 1, 2, 3].foldl (fun m n => m + slotCode (v.slot n).state * 4 ^ n) 0
  c.dev.sec.stat ||| BitVec.ofNat 32 (st * 256) ||| atBit v.tamper 3 ||| atBit v.custHash.isSome 2 |||
    BitVec.ofNat 32 (lifecycleCode v.lifecycle)

end Sys2Proof.Machine
end

