-- ==== Sys2Proof/Machine/Monitor.lean ====
section
/-! DEFINITION. The fastness monitor (R435–R446): surveys, margins, the derived plan, consent, taking effect, the
projection; and the delay-line calibration (R61, R392). -/

namespace Sys2Proof.Machine

/-- An event bit of FM_STAT; bits [6:3] fire source 3ACh. -/
def fmFlag (b : Nat) (d : Dev) : Dev := memberEvent 0x3AC { d with fm := { d.fm with stat := orBit d.fm.stat b } }

/-! ### Margins (R438) -/

/-- The ECLK ceiling of a code, MHz. -/
def ceilingOf (c : Nat) : Nat := 500 - 25 * c

/-- Hundredths of a percent, rounded down and clamped to 0–10,000. -/
def clampMargin (v : Int) : Nat := (max 0 (min 10000 v)).toNat

/-- M_E at ceiling `f`, for `v` hundredths of a percent of delay; F_LIM is 540 MHz. -/
def marginE (v f : Nat) : Nat := clampMargin ((10000 * (540 - (f : Int)) - (v : Int) * f) / (540 - (f : Int)))
/-- M_S for a read margin of `r` mV. -/
def marginS (r : Nat) : Nat := clampMargin (10000 * ((r : Int) - 30) / 90)
/-- M_O for a slew increase of `s` ps. -/
def marginO (s : Nat) : Nat := clampMargin (10000 - 10 * (s : Int))

/-- The largest delay value, the least SRAM value and the largest slew value of a set of readings. -/
def largestOf (b : Bank (BitVec 16)) (lo n : Nat) : Nat := (List.range n).foldl (fun m k => max m (Bank.get 0 b (lo + k)).toNat) 0
def leastOf (b : Bank (BitVec 16)) (lo n : Nat) : Nat := (List.range n).foldl (fun m k => min m (Bank.get 0 b (lo + k)).toNat) 65535
def readD (m : Monitor) : Nat := largestOf m.values 0 32
def readR (m : Monitor) : Nat := leastOf m.values 32 8
def readS (m : Monitor) : Nat := largestOf m.values 40 8

/-- The margins are published for the plan in force; below 500 MARGIN_LOW is set. -/
def publishMargins (d : Dev) : Dev :=
  let e := marginE (readD d.fm) (ceilingOf d.fm.plan.eclkc)
  let s := marginS (readR d.fm)
  let o := marginO (readS d.fm)
  let m := min e (min s o)
  let d1 := { d with fm := { d.fm with mE := e, mS := s, mO := o, margin := m } }
  if m < 500 then fmFlag 3 d1 else d1

/-! ### Surveys (R436, R437) -/

/-- SURVEY: a survey is asked for; refused while one runs. -/
def surveyRequest (d : Dev) : Dev := if d.lo.survey.state = 1 then d else { d with fm := { d.fm with asked := true } }

/-- SURVEY_START at a tick boundary. -/
def surveyStart (d : Dev) : Dev :=
  if d.lo.survey.state = 1 || !d.pw.coreUp then d
  else { d with
    fm := { d.fm with surveying := some 0, asked := false, fresh := [], startedAt := some d.tick.count, abandoned := false }
    lo := { d.lo with survey := LongOp.begin } }

/-- A survey is due at this boundary (R437): surveys start in RUN and IDLE. -/
def surveyDue (d : Dev) : Bool :=
  d.pw.coreUp && d.lo.survey.state != 1 && (d.pw.state == .run || d.pw.state == .idle) &&
  (d.fm.asked || (match d.fm.startedAt with
    | none => true
    | some k => decide (k + (if d.fm.abandoned then 65536 else d.fm.period) ≤ d.tick.count)))

/-- The survey is abandoned: STATE 3, readings and plans unchanged. -/
def surveyAbandon (d : Dev) : Dev :=
  if d.lo.survey.state = 1 then
    loFinish (fun l => { l with survey := l.survey.finish false })
      { d with fm := { d.fm with surveying := none, fresh := [], abandoned := true } }
  else d

/-- SENTINEL_MEASURED: the reading of the sentinel reached and the die temperature in tenths of a degree; a temperature that
has moved by more than 5 °C since the first sentinel abandons the survey. -/
def sentinelMeasured (value : BitVec 16) (tj : Int) (d : Dev) : Dev :=
  match d.fm.surveying with
  | some k =>
    if 48 ≤ k then d
    else if k ≠ 0 ∧ 50 < (tj - d.fm.tjFirst).natAbs then surveyAbandon d
    else { d with
      fm := { d.fm with surveying := some (k + 1), fresh := Bank.set 0 d.fm.fresh k value,
                        tjFirst := if k = 0 then tj else d.fm.tjFirst, tj := tj }
      lo := { d.lo with survey := { d.lo.survey with progress := 200 * (k + 1), position := k + 1 } } }
  | none => d

/-! ### The plan (R439, R440) -/

def ceilDiv (a : Int) (b : Nat) : Int := -((-a) / (b : Int))

/-- The engine budget C of a ceiling at the tick period in force (R23, R433). -/
def planBudget (d : Dev) (c : Nat) : W32 := BitVec.ofNat 32 (d.tick.period * ceilingOf c / 250)

/-- The longest calibration interval over which the fastest pin's code, moving `drift` taps in 2²⁰ ticks, moves by at most 32
taps. -/
def calibrationInterval (drift : Nat) : Nat :=
  ([20, 19, 18, 17, 16, 15, 14, 13].find? fun k => decide (drift * 2 ^ k ≤ 32 * 2 ^ 20)).elim 4096 fun k => 2 ^ k

/-- The derived plan. -/
def derivePlan (d : Dev) (base : Plan) (drift : Nat) : Plan :=
  let v := readD d.fm
  let c := (([0, 1, 2, 3, 4].filter fun c => decide (base.eclkc ≤ c)).find? fun c =>
    decide (d.fm.threshold ≤ marginE v (ceilingOf c))).getD 4
  let guard := min 4095 (max base.guard (ceilDiv ((readS d.fm : Int) * 32) 1000).toNat)
  let vtrim := max base.vtrim (max 0 (min 16 (ceilDiv (60 - (readR d.fm : Int)) 5)))
  ⟨c, vtrim, guard, BitVec.ofNat 32 (min base.calint.toNat (calibrationInterval drift)), planBudget d c⟩

/-- BUDGET as FM_BUD reads: of the plan in force at the tick period in force (R433; log entry 68). -/
def budgetInForce (d : Dev) : W32 := planBudget d d.fm.plan.eclkc

/-- A plan word as FM_PLAN shows it. -/
def planWord (p : Plan) : W32 :=
  BitVec.ofNat 32 (p.eclkc * 2 ^ 24 + (BitVec.ofInt 6 p.vtrim).toNat * 65536 + p.guard)

/-- The fitted projection (R445); a TIME64 past the last representable one reads as no projection (log entry 26: DESIGN
CHOICE; rounded down). -/
def projection (d : Dev) : Time64 :=
  let none_ : Time64 := 0x7FFFFFFFFFFFFFFF#64
  match d.fm.history with
  | [] => none_
  | (t0, _) :: _ =>
    let pts := d.fm.history.map fun h => (sdiff h.1 t0, (h.2 : Int))
    let n : Int := pts.length
    let sx := (pts.map (·.1)).sum
    let sy := (pts.map (·.2)).sum
    let sxx := (pts.map fun p => p.1 * p.1).sum
    let sxy := (pts.map fun p => p.1 * p.2).sum
    let num := n * sxy - sx * sy
    let den := n * sxx - sx * sx
    let f := ceilingOf d.fm.plan.eclkc
    if n < 4 ∨ d.fm.plan.eclkc = 4 ∨ den ≤ 0 ∨ num ≤ 0 then none_
    else
      -- v* of M_E = STEP_THRESHOLD is (10,000 − threshold)(540 − f)/f; t* = (v* − ȳ)/slope + x̄, over the common denominator
      let want := (10000 - (d.fm.threshold : Int)) * (540 - (f : Int))
      let t := (den * (want * n - sy * f) + f * sx * num) / (f * n * num)
      if t0.toInt + t < 2 ^ 63 - 1 then plusInt t0 t else none_

/-- SURVEY_DONE: the readings are published, the plan derived and handled (R440); a plan that is forced replaces a proposal that
awaits consent (log entry 68). `drift` is the movement of the
fastest-drifting pin's delay-line code over 2²⁰ ticks, in taps. -/
def surveyDone (drift : Nat) (d : Dev) : Dev :=
  if d.fm.surveying ≠ some 48 then d
  else
    let m1 := { d.fm with values := d.fm.fresh, fresh := [], surveying := none, last := d.tb.time, surveys := d.fm.surveys + 1 }
    let m2 := { m1 with history := ((d.tb.time, readD m1) :: m1.history).take 16 }
    let d1 := publishMargins { d with fm := m2 }
    let base := match d1.fm.due with | some (p, _) => p | none => d1.fm.plan
    let p := derivePlan d1 base drift
    let part := { base with vtrim := p.vtrim, calint := p.calint }
    let quiet := decide (p.eclkc = base.eclkc) && decide (p.guard = base.guard)
    let forced := match d1.fm.due with | some (_, f) => f | none => false
    let wait (q : Plan) : Option (Plan × Bool) := if q = base then d1.fm.due else some (q, forced)
    let fm2 :=
      if quiet then { d1.fm with due := wait part, propValid := false }
      else if 500 ≤ d1.fm.margin then { d1.fm with due := wait part, prop := p, propValid := true }
      else { d1.fm with due := some (p, true), propValid := false }
    let d2 := { d1 with fm := { fm2 with proj := projection d1 } }
    loFinish (fun l => { l with survey := { l.survey.finish true with position := 48 } }) (fmFlag 4 d2)

/-- An accepted keyed write of CONSENT (R441); none is a refusal with STATE. -/
def consentWrite (v : W32) (d : Dev) : Option Dev :=
  if d.fm.propValid && v == planWord d.fm.prop then
    some { d with fm := { d.fm with due := some (d.fm.prop, false), consent := v } }
  else none

/-- MARGIN_PLAN_TAKES_EFFECT: the waiting plan changes ECLK, guard, budget and calibration interval together (R442). -/
def planTakesEffect (d : Dev) : Dev :=
  match d.fm.due with
  | none => d
  | some (p, forced) =>
    let q := { p with bud := planBudget d p.eclkc }
    let taken := d.fm.propValid && (forced || (p.eclkc == d.fm.prop.eclkc && p.guard == d.fm.prop.guard))
    let d1 := { d with
      fm := { d.fm with plan := q, due := none, propValid := d.fm.propValid && !taken
                        forced := if forced then d.fm.forced + 1 else d.fm.forced
                        consent := if forced then planWord q else d.fm.consent }
      load := { d.load with eclk := ceilingOf q.eclkc }
      br := { d.br with guard := BitVec.ofNat 12 q.guard } }
    let d2 := fmFlag 6 d1
    let d3 := if forced then fmFlag 5 d2 else d2
    if d3.fm.margin = 0xFFFF then d3 else publishMargins { d3 with fm := { d3.fm with proj := projection d3 } }

/-- VTRIM_STEP: every 256 TCLK one step of 5 mV toward the plan's value. -/
def vtrimStep (d : Dev) : Dev :=
  let v := d.fm.vtrimNow
  let w := d.fm.plan.vtrim
  { d with fm := { d.fm with vtrimNow := if v < w then v + 1 else if w < v then v - 1 else v } }

/-- R444: a stored CONSENT replaces the plan word before any tick work. -/
def bootConsent (v : W32) (d : Dev) : Dev :=
  let c := min 4 (fld v 24 3)
  let p : Plan := { d.fm.plan with eclkc := c, vtrim := (BitVec.ofNat 6 (fld v 16 6)).toInt, guard := fld v 0 12, bud := planBudget d c }
  { d with
    fm := { d.fm with plan := p, consent := v }
    load := { d.load with eclk := ceilingOf c }
    br := { d.br with guard := BitVec.ofNat 12 p.guard } }

/-- FM_STAT as read. -/
def fmStatRead (d : Dev) : W32 := d.fm.stat ||| atBit d.fm.propValid 7 ||| atBit (d.lo.survey.state == 1) 2

/-! ### Delay-line calibration (5F02h) -/

/-- CALIBRATION_START: at the plan's interval or on 5F02h:10h; not while one runs. -/
def calibrationStart (d : Dev) : Dev := if d.lo.cal.state = 1 then d else { d with lo := { d.lo with cal := LongOp.begin } }

/-- CALIBRATION_DONE. -/
def calibrationDone (ok : Bool) (d : Dev) : Dev :=
  if d.lo.cal.state = 1 then loFinish (fun l => { l with cal := l.cal.finish ok }) d else d

end Sys2Proof.Machine
end

