-- ==== Sys2Proof/Machine/Power.lean ====
section
/-! DEFINITION. Power states, resets and warm restart (R431, R432, R450–R452, R456–R471): requests, entry and exit, wakes,
what each reset keeps, and the engines' stop in IDLE. -/

namespace Sys2Proof.Machine

def powerCode (s : PowerState) : Nat := match s with | .run => 0 | .idle => 1 | .hold => 2 | .deep => 3

def anyLong (d : Dev) : Bool :=
  d.store.loState == 1 || d.lo.compact.state == 1 || d.lo.cal.state == 1 || d.lo.survey.state == 1 ||
  d.lo.flash.state == 1 || d.lo.enum.op.state == 1 || d.gl.compacting

/-- R465: the request for a state is refused; codes 0 RUN, 1 IDLE, 2 HOLD, 3 DEEP. -/
def powerRefused (d : Dev) (r : Nat) : Bool :=
  (decide (1 ≤ r) &&
    (tbRole d.tb != 0 || (d.ax.axes.any fun a => axEn a.2) || (d.br.pairs.any fun p => p.2.state != .disabled) ||
     !allHalted d || anyLong d)) ||
  (decide (2 ≤ r) && ((d.fps.any fun p => bit p.2.cfg 31) || (d.comps.any fun k => k.2.run)))
where
  allHalted (d : Dev) : Bool := (List.range 16).all fun e => (d.eng e).chalted

def cmdReject (d : Dev) : Dev := { d with pw := { d.pw with cmdRej := true } }

/-- The wake-enabled pin sources that are pending (R469). -/
def wakePending (d : Dev) : List Nat :=
  (d.ic.sources.filter fun s => decide (0x100 ≤ s.1 ∧ s.1 < 0x200) && srcEn s.2 && bit s.2.src 7 && s.2.pend).map (·.1)

/-- POWER_REQUEST: GO with REQ = r (R432, R465). -/
def powerRequest (r : Nat) (d : Dev) : Dev :=
  if d.pw.go then cmdReject d
  else
    let d1 := { d with pw := { d.pw with req := r } }
    if r = powerCode d.pw.state then d1
    else if powerRefused d r then cmdReject d1
    else { d1 with pw := { d1.pw with
      go := true, before := d.pw.state, pendAtGo := wakePending d
      toward := if r = 2 then some .hold else if r = 3 then some .deep else none } }

/-- A write to GB_PWR (R432). -/
def gbPwrWrite (v : W32) (d : Dev) : Dev :=
  if d.pw.go then cmdReject d
  else if bit v 8 then powerRequest (fld v 4 2) d
  else { d with pw := { d.pw with req := fld v 4 2 } }

/-- A warm restart is ordered (R450). The first order stands. -/
def orderRestart (c : ResetCause) (d : Dev) : Dev :=
  if d.pw.ordered.isSome then d else { d with pw := { d.pw with ordered := some c } }

/-- WRST and every other write to GB_CMD (R431). A power request in progress is refused with CMD_REJ (R432). -/
def gbCmdWrite (v : W32) (d : Dev) : Dev :=
  if bit v 0 then
    (if fld v 16 16 = 0x5752 then
      let d1 := if d.pw.go then cmdReject { d with pw := { d.pw with go := false, toward := none } } else d
      orderRestart .warmCmd d1
    else cmdReject d)
  else d

/-! ### IDLE (R466) -/

/-- Engines still on their way to a safe point. -/
def anyBusy (d : Dev) : Bool := (List.range 16).any fun e => (d.eng e).busy

/-- The last engine has stopped: GO clears if IDLE was the state asked for. -/
def settleStop (d : Dev) : Dev :=
  if d.pw.state = .idle ∧ d.pw.stopping = true ∧ anyBusy d = false then
    { d with pw := { d.pw with stopping := false, go := d.pw.go && d.pw.toward.isSome } }
  else d

/-- The request in progress is abandoned or refused: CMD_REJ. -/
def dropRequest (d : Dev) : Dev := cmdReject { d with pw := { d.pw with go := false, toward := none } }

/-- IDLE_ENTRY at the first boundary after GO. -/
def idleEntry (d : Dev) : Dev :=
  if d.pw.go && d.pw.state == .run && decide (1 ≤ d.pw.req) then
    if powerRefused d d.pw.req then dropRequest d
    else settleStop { d with pw := { d.pw with
      state := .idle, stopping := true, wasOnline := (List.range 16).filter fun e => (d.eng e).online } }
  else d

/-- The engines start again: contexts 0–2 at their entry addresses (R466). -/
def restartEngines (d : Dev) : Dev :=
  forEach d.pw.wasOnline (fun e d =>
    (forEach [0, 1, 2] (fun c d => d.updCtx e c fun x => { x with start := true, stack := [], faulted := false }) d).updEng e
      fun g => { g with busy := false, atSafe := false }) d

/-- IDLE_EXIT at the boundary. -/
def idleExit (d : Dev) : Dev :=
  if d.pw.go && d.pw.state == .idle && d.pw.req == 0 then
    restartEngines { d with pw := { d.pw with state := .run, stopping := false, go := false, toward := none } }
  else d

/-- The engines issue: in RUN, and in IDLE until their safe point. -/
def enginesRun (d : Dev) : Bool := d.pw.state == .run

/-- MICROWORD under the power state. -/
def microwordStep (e : Nat) (d : Dev) : Dev :=
  if enginesRun d || (d.pw.state == .idle && d.pw.stopping && (d.eng e).busy) then microword e d else d

/-- SAFE_POINT under the power state: an engine that is to stop does so here (R466). -/
def safePointStep (e : Nat) (d : Dev) : Dev :=
  if enginesRun d then safePointOp e d
  else if d.pw.state == .idle && d.pw.stopping && (d.eng e).busy && (d.eng e).atSafe then
    settleStop ((takeChalt e (takeFault e d)).updEng e fun g => { g with busy := false, atSafe := false })
  else d

/-- A command of the engines' own work: only while they run. -/
def whileRunning (f : Dev → Dev) (d : Dev) : Dev := if enginesRun d then f d else d

/-- R276: a mismatch that leaves a cluster without an online engine orders a warm restart. -/
def mismatchStep (e : Nat) (d : Dev) : Dev :=
  let d1 := lockstepMismatch e d
  if ((List.range 4).any fun k => (d1.eng (4 * (e / 4) + k)).online) then d1 else orderRestart .warmLock d1

/-! ### HOLD and DEEP (R466–R469) -/

/-- A HOLD request that fails: a device that came from RUN returns to it. -/
def holdAbandon (d : Dev) : Dev :=
  let d1 := dropRequest d
  if d.pw.before = .run ∧ d.pw.state = .idle then restartEngines { d1 with pw := { d1.pw with state := .run, stopping := false } } else d1

/-- HOLD_ENTRY at the boundary after IDLE: the wake latches arm and the PLLs stop. -/
def holdEntry (d : Dev) : Dev :=
  if d.pw.go && d.pw.state == .idle && !d.pw.stopping && d.pw.toward.isSome then
    if powerRefused d d.pw.req || (wakePending d).any (fun n => !d.pw.pendAtGo.contains n) then holdAbandon d
    else
      let d1 := surveyAbandon (armWakeLatches d)
      { d1 with pw := { d1.pw with state := .hold, coreUp := false, waking := false } }
  else d

/-- PWR_EN_FALL: 10 µs after the entry to HOLD for DEEP. -/
def pwrEnFall (d : Dev) : Dev :=
  if d.pw.state == .hold && d.pw.toward == some .deep && !d.pw.waking then
    { d with pw := { d.pw with state := .deep, pwrEn := false } }
  else d

/-- The clocks are to return from HOLD. -/
def beginWake (cause source : Nat) (d : Dev) : Dev :=
  { d with pw := { d.pw with waking := true, wakeCause := cause, wakeSource := source, toward := none } }

/-- WAKE_LATCH: a qualifying transition at a wake-enabled pin in HOLD (R309, R467). The lowest latched source is recorded. -/
def wakeLatch (n : Nat) (rise : Bool) (d : Dev) : Dev :=
  let k := 0x100 + n
  if d.pw.state == .hold && decide (n < 256) && wakeLatchCatches (d.source k) rise then
    let d1 := d.updSource k fun s => { s with wakeSet := true }
    if !d1.pw.waking then beginWake 2 k d1
    else if d1.pw.wakeCause = 2 ∧ k < d1.pw.wakeSource then { d1 with pw := { d1.pw with wakeSource := k } }
    else d1
  else d

/-- HOLD_EXIT: the clocks run again, after `n` XT32 periods in HOLD (R467). -/
def holdExit (n : Nat) (d : Dev) : Dev :=
  if d.pw.state == .hold && d.pw.waking then
    let adv := if d.pw.xt32 then n * 16000000000 / 32768 else 0
    let t := d.tb.time + BitVec.ofNat 64 adv
    let d1 := { d with
      tb := { d.tb with time := t, lockedOnce := false, plantHold := false }
      so := { d.so with servo := .unset, within := 0, setDone := false }
      pw := { d.pw with state := .run, go := false, toward := none, waking := false, restart := true, coreUp := true, req := 0
                        holdTime := BitVec.ofNat 64 (if d.pw.xt32 then n else 0) } }
    fireWakeLatches (settleAlign (regrid (dropServo d1)))
  else d

/-! ### Resets (R320, R460) -/

def causeBit (c : ResetCause) : Nat := match c with | .por => 0 | .ext => 1 | .warmCmd => 2 | .warmStore => 3 | .warmLock => 4

def isWarm (c : ResetCause) : Bool := match c with | .warmCmd | .warmStore | .warmLock => true | _ => false

/-- GB_RSTC after a reset: a power-on reset clears the other bits (R431). -/
def rstcAfter (c : ResetCause) (w : BitVec 5) : BitVec 5 := if c = .por then 1#5 else w ||| BitVec.ofNat 5 (2 ^ causeBit c)

/-- What a core reset leaves of the device: the always-on island, the levels at the balls, the boot flash, the JTAG port; the
host ports' own domains and the error counts unless it is a power-on reset. -/
def resetDev (c : ResetCause) (d : Dev) : Dev :=
  let por := c == .por
  { free := d.free
    tooth := { aoq := d.tooth.aoq, pins := (d.tooth.pins.filter fun p => p.2.ball).map fun p => (p.1, { ball := true }) }
    ds := { flash := d.ds.flash }
    hi := if por then {} else { stats := d.hi.stats, pcie := d.hi.pcie, txn := d.hi.txn, pcieReset := d.hi.pcieReset, qspiReset := d.hi.qspiReset }
    lk := { macs := (d.lk.macs.filter fun m => m.2.linkUp).map fun m => (m.1, { linkUp := true }) }
    store := if por then {} else { repairs := d.store.repairs }
    ecc := if por then {} else { cecc := d.ecc.cecc, uecc := d.ecc.uecc, addr := d.ecc.addr, passes := d.ecc.passes, retired := d.ecc.retired }
    pw := { inReset := some c, rstc := rstcAfter c d.pw.rstc, strap := 0, strapBalls := d.pw.strapBalls, xt32 := d.pw.xt32
            sysRst := d.pw.sysRst, supplyLow := d.pw.supplyLow, wakeCause := d.pw.wakeCause, wakeSource := d.pw.wakeSource
            holdTime := d.pw.holdTime
            warmRestarts := if por then 0 else d.pw.warmRestarts + (if isWarm c then 1 else 0)
            restartTime := if por then 0 else d.pw.restartTime }
    jtag := d.jtag }

/-- A core reset; BOOT_NONCE is drawn afresh (R406). -/
def coreReset (cause : ResetCause) (c : Core) : Core :=
  let q := c.dev.draw
  { vault := resetVault q.1 c.vault, dev := resetDev cause q.2 }

/-- In DEEP the island holds PWR_EN low and the core in reset until WAKE_N, whatever the core supplies and SYS_RST_N do (R468). -/
def heldDeep (was : PowerState) (c : Core) : Core :=
  if was = .deep then { c with dev := { c.dev with pw := { c.dev.pw with state := .deep, pwrEn := false } } } else c

/-- WAKE_N low: from HOLD by R467, from DEEP by R468; between GO and the stop of the PLLs it abandons the entry (R469).
`n` are the XT32 periods spent in HOLD and DEEP, which HOLD_TIME shows after DEEP (R471). -/
def wakeN (n : Nat) (c : Core) : Core :=
  let d := c.dev
  match d.pw.state with
  | .hold => { c with dev := if d.pw.waking then d else beginWake 1 0xFFFF d }
  | .deep =>
    if c.vault.vbatLost then c
    else
      let hold := BitVec.ofNat 64 (if d.pw.xt32 then n else 0)
      let pw := { d.pw with pwrEn := true, wakeCause := 3, wakeSource := 0xFFFF, holdTime := hold }
      coreReset .por { c with dev := { d with pw := pw } }
  | _ => if d.pw.go && d.pw.toward.isSome then { c with dev := holdAbandon d } else c

/-- SYS_RST_N: low is a core reset (R460). -/
def sysRstN (low : Bool) (c : Core) : Core :=
  if low then
    let c1 := heldDeep c.dev.pw.state (coreReset .ext c)
    { c1 with dev := { c1.dev with pw := { c1.dev.pw with sysRst := true } } }
  else
    let j := c.dev.jtag
    let back := c.dev.pw.sysRst && (j.ir == .extest || j.ir == .highz)
    { c with dev := { c.dev with
        pw := { c.dev.pw with sysRst := false }, jtag := if back then { j with ir := .idcode } else j } }

/-- SUPPLY_FAULT: a supply falls below its limit (R457, R460). -/
def supplyFault (c : Core) : Core :=
  let c1 := heldDeep c.dev.pw.state (coreReset .por c)
  { c1 with dev := { c1.dev with pw := { c1.dev.pw with supplyLow := true } } }

/-! ### Warm restart (R450, R452) -/

/-- The freeze: the levels of TP0–TP255 as they stood, enabled pairs with both sides off. -/
def frozenPins (d : Dev) : Bank (Option Bool) :=
  (List.range 256).foldl (fun b n =>
    let v : Option Bool := match pinOwner d n with
      | .pair p => some (if n % 2 = 0 then bit (d.pair p).ctl 27 else bit (d.pair p).ctl 26)
      | _ => pinDrive d n
    Bank.set none b n v) []

/-- WARM_RESTART: the restart that has been ordered. A cause that comes during a restart is only recorded. -/
def warmRestart (c : Core) : Core :=
  match c.dev.pw.ordered with
  | none => c
  | some cause =>
    if (match c.dev.pw.inReset with | some k => isWarm k | none => false) then
      { c with dev := { c.dev with pw := { c.dev.pw with ordered := none, rstc := rstcAfter cause c.dev.pw.rstc } } }
    else
      let pins := frozenPins c.dev
      let c1 := coreReset cause c
      { c1 with dev := { c1.dev with pw := { c1.dev.pw with frozen := some pins } } }

/-! ### Registers of the global block (R431) -/

def gbStatRead (d : Dev) : W32 := atBit d.pw.cmdRej 7 ||| atBit d.pw.coreUp 6 ||| BitVec.ofNat 32 (d.pw.boot % 16)
def gbPwrRead (d : Dev) : W32 := atBit d.pw.go 8 ||| BitVec.ofNat 32 (d.pw.req % 4 * 16 + powerCode d.pw.state % 4)
def scrubRead (d : Dev) : W32 := atBit d.ecc.scrubEn 31 ||| BitVec.ofNat 32 (d.ecc.word / 128)

/-- SCRUB: the next word has been read; each completed pass counts (R449). -/
def scrubStep (d : Dev) : Dev :=
  if d.ecc.scrubEn then
    if d.ecc.word + 1 < 2097152 then { d with ecc := { d.ecc with word := d.ecc.word + 1 } }
    else { d with ecc := { d.ecc with word := 0, passes := d.ecc.passes + 1 } }
  else d

end Sys2Proof.Machine
end

