-- ==== Sys2Proof/Machine/Crossing.lean ====
section
/-! DEFINITION. Resets on one side of a crossing and their resync (R320–R323), the MACs' line sides (R375), and the JTAG port
(R495). -/

namespace Sys2Proof.Machine

/-- R321: a crossing is quiesced with `k` entries in flight; counter `i` of IC_XOVR takes them. -/
def quiesce (i k : Nat) (d : Dev) : Dev :=
  if k = 0 then d
  else
    let d1 := { d with ic := { d.ic with
      xovr := Bank.upd 0 d.ic.xovr i (addSat · k), xstat := orBit (orBit d.ic.xstat 1) 0 } }
    fireCrossing (if bit d.ic.xsel 0 then 0 else 1) d1

/-- A reset flag of IC_XSTAT. -/
def xstatSet (b : Nat) (on : Bool) (d : Dev) : Dev := { d with ic := { d.ic with xstat := putBit d.ic.xstat b on } }

/-- R323, R420: what a port's own reset clears: its latch, its write stage, its host status. -/
def resetPort (p : Nat) (d : Dev) : Dev :=
  { d with hi := { d.hi with paths := Bank.set {} d.hi.paths p {}, stats := Bank.set {} d.hi.stats p {} } }

/-- PCIE_RESET: the endpoint is reset with `k` packets in its FIFOs; the core runs on. -/
def pcieReset (k : Nat) (d : Dev) : Dev :=
  let d1 := resetPort 0 (xstatSet 2 true (quiesce 2 k d))
  { d1 with hi := { d1.hi with pcieReset := true, pcie := { sent := d1.hi.pcie.sent } } }

/-- A reset of the QSPI domain, with a word in flight or not (R416). -/
def qspiReset (k : Nat) (d : Dev) : Dev :=
  let d1 := resetPort 1 (xstatSet 3 true (quiesce 3 k d))
  { d1 with hi := { d1.hi with qspiReset := true, txn := {} } }

/-- MAC_LINE_RESET: the line side of MAC `m` is reset with `k` frames in its FIFOs. -/
def macLineReset (m k : Nat) (d : Dev) : Dev := if m < 4 then xstatSet (4 + m) true (quiesce (4 + m) k d) else d

/-- MAC_DISABLE of an enabled MAC (R375). -/
def macDisableStep (m queued : Nat) (d : Dev) : Dev := if emEnabled (d.mac m) then macDisable m queued d else d

/-- CROSSING_RESYNC: both sides are out of reset and the crossing resumes; 0 PCIe, 1 QSPI, 2 + m MAC m (R322). A disabled MAC
stays in reset. -/
def crossingResync (k : Nat) (d : Dev) : Dev :=
  match k with
  | 0 => let d1 := xstatSet 2 false d
         { d1 with hi := { d1.hi with pcieReset := false } }
  | 1 => let d1 := xstatSet 3 false d
         { d1 with hi := { d1.hi with qspiReset := false } }
  | m + 2 => if m < 4 ∧ emEnabled (d.mac m) = true then xstatSet (4 + m) false d else d

/-! ### JTAG (R495) -/

/-- BYPASS is loaded. -/
def jtagBypass (d : Dev) : Dev := { d with jtag := { d.jtag with ir := .bypass } }

/-- IDCODE: 4096h in bits [27:12] and 1 in bit 0 (IEEE 1149.1); the rest is a free value. -/
def jtagIdcode (d : Dev) : Dev :=
  let q := d.draw
  let w := orBit (setFld (loWord q.1) 12 16 0x4096) 0
  { q.2 with jtag := { q.2.jtag with ir := .idcode, code := w } }

/-- The level at TP `n`: what the device drives, else what stands at the ball. -/
def tpLevel (d : Dev) (n : Nat) : Bool :=
  let drive := match d.pw.frozen with
    | some b => Bank.get none b n
    | none => if d.pw.coreUp || d.pw.state == PowerState.hold then pinDrive d n else none
  drive.getD (d.pin n).ball

/-- SAMPLE/PRELOAD: the timer pins' levels are sampled (log entry 27) and the boundary cells preloaded. -/
def jtagSample (cells : List Bool) (d : Dev) : Dev :=
  { d with jtag := { d.jtag with ir := .sample, preload := cells, sampled := (List.range 256).map (tpLevel d) } }

/-- EXTEST and HIGHZ: taken only while SYS_RST_N is low; BYPASS is loaded in their place otherwise. -/
def jtagDrive (ir : JtagIr) (d : Dev) : Dev := { d with jtag := { d.jtag with ir := if d.pw.sysRst then ir else .bypass } }

end Sys2Proof.Machine
end

