-- ==== Sys2Proof/Machine/Field.lean ====
section
/-! DEFINITION. Field ports and remote heads (R331–R352): the cyclic plan, exchanges and retries, edge lists, the acyclic
queue, enumeration, enable and disable. -/

namespace Sys2Proof.Machine

/-! ### Fields -/

def fpEn (f : FieldPort) : Bool := bit f.cfg 31
def fpRetry (f : FieldPort) : Nat := min 3 (fld f.cfg 28 3)
/-- BT in TCLK (R331). -/
def fpBt (f : FieldPort) : Nat := fld f.cfg 8 8 + 1
def fpOfs (f : FieldPort) : Nat := fld f.cfg 0 8
def hdEn (c : W32) : Bool := bit c 31
def hdRdiv (c : W32) : Nat := fld c 28 3
def hdRph (c : W32) : Nat := fld c 22 6

/-- R348: an N above CAP is used as CAP. -/
def hdN (x : Head) (c : W32) : Nat := min (fld c 16 4) (x.cap.toNat)

/-- L of a head's cyclic exchange in bit times (R336). -/
def hdLen (x : Head) (c : W32) : Nat :=
  match x.htype with | 1 => 100 + 30 * hdN x c | 2 => 100 + 40 * hdN x c | _ => 140

/-- Q of an encoder head in TCLK (R338). -/
def hdQ (d : Dev) (x : Head) (c : W32) : Nat := 2 ^ hdRdiv c * d.tick.period / max 1 (hdN x c)

/-! ### The plan (R341, R342, R344, R30) -/

/-- Two heads are served in a common tick (R341). -/
def collide (a b : W32) : Bool :=
  let m := 2 ^ min (hdRdiv a) (hdRdiv b)
  hdRph a % m == hdRph b % m

/-- A head takes part in a plan: enabled and enumerated (R342). -/
def planned (x : Head) (c : W32) : Bool := hdEn c && x.enumd && x.htype != 0

/-- SLOT and L of the planned heads of a port under configurations `cf`, in ascending address, and PEND (R342). -/
def planOf (d : Dev) (p : Nat) (cf : Nat → W32) : List (Nat × Nat × Nat) × Nat :=
  (List.range 32).foldl (fun (acc : List (Nat × Nat × Nat) × Nat) i =>
    let h := 32 * p + i
    if planned (d.head h) (cf h) then
      let slot := acc.1.foldl (fun m e => if collide (cf e.1) (cf h) then max m (e.2.1 + e.2.2) else m) 0
      let l := hdLen (d.head h) (cf h)
      (acc.1 ++ [(h, slot, l)], max acc.2 (slot + l))
    else acc) ([], 0)

/-- ACYLEN: what a plan leaves of the tick; none if the plan breaks R30 (an acyclic slot below 160 bit times) or holds the
reserved RDIV 111b. -/
def planSlot (d : Dev) (p : Nat) (cf : Nat → W32) : Option Nat :=
  let bits := d.tick.period / fpBt (d.fp p)
  let used := fpOfs (d.fp p) + (planOf d p cf).2
  let badDiv := (List.range 32).any fun i => hdEn (cf (32 * p + i)) && hdRdiv (cf (32 * p + i)) == 7
  if badDiv || bits < used + 160 then none else some (bits - used)

def stagedCfg (d : Dev) (h : Nat) : W32 := (d.head h).cfg

/-- A plan load (R344): refused with PLAN_ERR, or the staged values are taken up for the next boundary, and the acyclic slots
first write the new Q to every encoder head whose Q changes. -/
def planLoad (p : Nat) (d : Dev) : Dev :=
  match planSlot d p (stagedCfg d) with
  | none => fpFlag p 9 d
  | some _ =>
    let hs := (List.range 32).map (32 * p + ·)
    let newQ := hs.filterMap fun h =>
      let x := d.head h
      if planned x x.cfg && x.htype == 1 && hdQ d x x.cfg != x.q then
        some ({ head := h, kind := .newQ (hdQ d x x.cfg) } : AcyReq) else none
    let d1 := forEach hs (fun h d => d.updHead h fun x => { x with next := some x.cfg }) d
    d1.updFp p fun f => { f with planBusy := true, acy := f.acy ++ newQ }

/-- LOAD (R344, R350): ignored with CFG_BUSY while a load is pending, and dropped in the TCLK of a disable. -/
def fpLoad (p : Nat) (d : Dev) : Dev :=
  if (d.fp p).planBusy then fpFlag p 10 d
  else if !fpEn (d.fp p) && (d.fp p).offIn == some d.tb.tclk then d
  else planLoad p d

def isNewQ (r : AcyReq) : Bool := match r.kind with | .newQ _ => true | _ => false

/-- A tick boundary at a port: an exchange still on the line overruns the plan (R30); a pending load whose Q writes are done
takes effect (R344). -/
def fpBoundary (p : Nat) (d : Dev) : Dev :=
  let f := d.fp p
  let cyc := match f.line with | some e => e.acy.isNone | none => false
  let d1 := if cyc then
      fpFlag p 5 (d.updFp p fun f => { f with ovrc := incSat f.ovrc, line := f.line.map fun e => { e with last := true } })
    else d
  let d2 := forEach ((List.range 32).map (32 * p + ·)) (fun h d => if (d.head h).served then d.updHead h fun x => { x with served := false } else d)
    (d1.updFp p fun f => { f with shifted := cyc, delay := 0 })
  let waits := f.acy.any isNewQ || (match f.line with | some e => (match e.acy with | some r => isNewQ r | none => false) | none => false)
  if f.planBusy && !waits then
    let cf (h : Nat) : W32 := ((d2.head h).next).getD (d2.head h).use
    let pl := planOf d2 p cf
    let d3 := forEach ((List.range 32).map (32 * p + ·)) (fun h d =>
      let at_ := pl.1.find? fun e => e.1 == h
      let slot := match at_ with | some e => e.2.1 | none => 0
      let len := match at_ with | some e => e.2.2 | none => 0
      d.updHead h fun x => { x with
        use := x.next.getD x.use, next := none, slot := BitVec.ofNat 16 slot, len := BitVec.ofNat 16 len
        moved := x.moved || (at_.isSome && x.slot.toNat != slot) }) d2
    d3.updFp p fun f => { f with planBusy := false, unplanned := false, pend := BitVec.ofNat 16 pl.2, acylen := BitVec.ofNat 16 ((planSlot d2 p cf).getD 0) }
  else d2

/-! ### Requests (R333–R339) -/

/-- A frame: ADDR, CMD, body, CRC high byte first. -/
def requestFrame (h cmd : Nat) (body : List Byte) : List Byte :=
  let l := [BitVec.ofNat 8 (h % 32), BitVec.ofNat 8 cmd] ++ body
  let c := crc16 l
  l ++ beBytes 2 c.toNat

/-- A gate-drive entry (R339): HOUT, LEVEL, OFS = E − X held within 24 bits. -/
def edgeWord (x : Time64) (e : EdgeEntry) : W32 :=
  let ofs := max (-(0x800000 : Int)) (min 0x7FFFFF (sdiff e.e x))
  BitVec.ofNat 32 (e.hout % 16 * 2 ^ 28 + (if e.level then 2 ^ 27 else 0)) ||| ((BitVec.ofInt 24 ofs).setWidth 32)

/-- The head parameters a request writes: the first index and the bytes, LD at 00h and Q at 04h (R345). -/
def acyData (r : AcyReq) : Nat × List Byte :=
  match r.kind with
  | .setup _ _ _ ld q => (0, leBytes 4 ld ++ leBytes 4 q)
  | .newQ q => (4, leBytes 4 q)
  | .write pidx l => (pidx, l)
  | _ => (0, [])

/-- The command and the body of an acyclic request that moves `n` bytes from `done` on. -/
def acyBody (r : AcyReq) (n : Nat) : Nat × List Byte :=
  match r.kind with
  | .identify => (0xC1, [0, 0])
  | .read pidx _ => (0xC2, [BitVec.ofNat 8 (pidx + r.done), BitVec.ofNat 8 n])
  | _ => (0xC3, [BitVec.ofNat 8 ((acyData r).1 + r.done), BitVec.ofNat 8 n] ++ slice (acyData r).2 r.done n)

def acyBytes (r : AcyReq) : Nat :=
  match r.kind with
  | .identify => 3 | .read _ len => len - r.done | _ => (acyData r).2.length - r.done

/-- R345: bytes of an access that fit one exchange. -/
def acyFit (f : FieldPort) (r : AcyReq) : Nat := min (acyBytes r) (max 1 ((f.acylen.toNat - 130) / 10))

/-- A number of bit times in grains. -/
def bitGrains (f : FieldPort) (bits : Nat) : Nat := bits * fpBt f * 64

/-- L of the next exchange of an acyclic request in bit times (R336), and whether it ends before the next boundary (R345). -/
def acyBits (f : FieldPort) (r : AcyReq) : Nat := match r.kind with | .identify => 160 | _ => 130 + 10 * acyFit f r
def acyInTime (d : Dev) (f : FieldPort) (r : AcyReq) : Bool := decide ((bitGrains f (acyBits f r) : Int) ≤ sdiff d.tick.next d.tb.time)

/-- TCLKs since the strobe of the present tick; none before the first strobe and while a time set waits for its own (R49). -/
def sinceStrobe (d : Dev) : Option Nat := if d.tick.unsettled then none else d.tick.strobeAt.map (d.tb.tclk - ·)

/-- The planned start of a head's exchange, and of the acyclic slot, in TCLK after the strobe (R342). -/
def planAt (f : FieldPort) (x : Head) : Nat := (fpOfs f + x.slot.toNat) * fpBt f
def acyAt (f : FieldPort) : Nat := (fpOfs f + f.pend.toNat) * fpBt f

/-- The head has its turn in the present tick (R341). -/
def hasTurn (d : Dev) (x : Head) : Bool := d.tick.number.toNat % 2 ^ hdRdiv x.use == hdRph x.use

/-- The head's exchange may start: the port is free and serves its plan, and the head has its turn (R19, R341). -/
def headFree (d : Dev) (h : Nat) : Bool :=
  let f := d.fp (h / 32)
  let x := d.head h
  fpEn f && f.line.isNone && !f.unplanned && planned x x.use && hasTurn d x

/-- A head's exchange is due: its instant, with what has moved it back, has come (R342, R343). -/
def headDue (d : Dev) (h : Nat) : Bool :=
  let f := d.fp (h / 32)
  let x := d.head h
  headFree d h && !x.served && (match sinceStrobe d with | some k => decide (planAt f x + f.delay ≤ k) | none => false)

/-- The acyclic slot is open and a request waits (R342, R345). -/
def acyDue (d : Dev) (p : Nat) : Bool :=
  let f := d.fp p
  fpEn f && f.line.isNone && (match f.acy with | r :: _ => acyInTime d f r | [] => false) &&
    (match sinceStrobe d with | some k => decide (acyAt f + f.delay ≤ k) | none => false)

/-- No start edge has come 6 BT + 2 × LD after the end of the request (R336). While a head is identified its LD is not known: the bound is
the 10 BT of R348 (log entry 21: DEDUCED). -/
def responseMissing (d : Dev) (p : Nat) : Bool :=
  let f := d.fp p
  match f.line with
  | some e =>
    let ld2 := match e.acy with
      | some { kind := .identify, .. } => 10 * fpBt f
      | some { kind := .setup _ _ _ ld _, .. } => (2 * ld + 63) / 64
      | _ => (2 * (d.head e.head).ld.toNat + 63) / 64
    decide (e.start + (10 * e.frame.length + 6) * fpBt f + ld2 < d.tb.tclk)
  | none => false

/-- CYCLIC_EXCHANGE_START (R337, R341–R343, R346): the head's request leaves, with the oldest entries queued no later than
X − 4 TCLK. Entries whose service failed go again unchanged under the same SEQB (log entry 21). An I/O head's output levels
are a free value: the manual names no source for them (log entry 21). -/
def cyclicStart (h : Nat) (d : Dev) : Dev :=
  let p := h / 32
  let f := d.fp p
  let x := d.head h
  if !headFree d h then d
  else
    let t := d.tb.time
    let again := !x.sent.isEmpty
    let sent := if again then x.sent
      else if x.htype = 2 then (x.eq.filter fun e => decide (e.tclk + 4 ≤ d.tb.tclk)).take (hdN x x.use) else []
    let seqb := if again then x.seqb else x.seqb ^^^ 1#4
    let q := d.draw
    let body : List Byte := match x.htype with
      | 2 => sent.flatMap fun e => leBytes 4 (edgeWord t e).toNat
      | 3 => leBytes 2 (fld q.1 0 16)
      | _ => []
    let shifted := f.shifted || x.moved || (match sinceStrobe d with | some k => k != planAt f x | none => false)
    let n := if x.htype = 2 then sent.length else hdN x x.use
    let cmd := (x.htype - 1) * 64 + (if shifted then 32 else 0) + (if seqb.getLsbD 0 then 16 else 0) + n % 16
    let frame := requestFrame h cmd body
    let late := sent.filter fun e => decide (sdiff e.e (t + BitVec.ofNat 64 (bitGrains f (10 * frame.length) + x.ld.toNat)) < 0)
    let xnom := plusInt d.tick.strobeTime (bitGrains f (fpOfs f + x.slot.toNat) : Nat)
    let d1 := (if x.htype = 3 then q.2 else d).updHead h fun x => { x with sent := sent, seqb := seqb, moved := false, served := true }
    let d2 := d1.updFp p fun f => { f with line := some { head := h, frame := frame, x := t, xnom := xnom, start := d.tb.tclk, skip := x.moved, n := n, tick := d.tick.count } }
    if late.isEmpty then d2
    else fpFlag p 6 (d2.updFp p fun f => { f with latec := addSat f.latec late.length })

/-- ACYCLIC_EXCHANGE_START (R345): the oldest acyclic request whose exchange ends before the boundary. -/
def acyclicStart (p : Nat) (d : Dev) : Dev :=
  let f := d.fp p
  match f.acy with
  | r :: rest =>
    let n := acyFit f r
    let b := acyBody r n
    if !fpEn f || f.line.isSome || !acyInTime d f r then d
    else d.updFp p fun f => { f with
      acy := rest
      line := some { head := r.head, acy := some r, frame := requestFrame r.head b.1 b.2, x := d.tb.time, xnom := d.tb.time, start := d.tb.tclk,
                     n := n, tries := r.tries } }
  | [] => d

/-! ### Ends of an exchange -/

/-- Enumeration passes to the next address, or ends for this port (R348, R392). -/
def enumNext (p : Nat) (d : Dev) : Dev :=
  match (d.fp p).enumAt with
  | none => d
  | some a =>
    let e := d.lo.enum
    let done := e.done + 1
    let op : LongOp := { e.op with position := 32 * p + a, progress := done * 10000 / max 1 e.total }
    let d1 := { d with lo := { d.lo with enum := { e with done := done, op := op } } }
    if a < 31 then
      d1.updFp p fun f => { f with enumAt := some (a + 1), acy := f.acy ++ [{ head := 32 * p + a + 1, kind := .identify }] }
    else d1.updFp p fun f => { f with enumAt := none }

/-- A dictionary access to head parameters ends (R345, R351): its requester is answered; a READ_SEG keeps the value as its
snapshot (R383). -/
def paramAnswer (r : AcyReq) (ok : Bool) (d : Dev) : Dev :=
  match r.who with
  | none => d
  | some w =>
    let idx := 0x3500 + r.head
    if !ok then respond w (responseBody r.svc .state idx 0x21 0x0D 0 []) d
    else match r.kind with
      | .write _ l => respond w (responseBody r.svc .ok idx 0x21 0x0D l.length []) d
      | _ =>
        if r.svc = 5 then
          respond w (responseBody 5 .ok idx 0x21 0x0D r.got.length (r.got.take r.want))
            (d.updUser (whoNo w) fun u => { u with snap := some { index := idx, sub := 0x21, bytes := r.got } })
        else respond w (responseBody r.svc .ok idx 0x21 0x0D r.got.length r.got) d

/-- A head that does not answer, or is refused, has TYPE 00b and is not enumerated (R348). -/
def headAbsent (h : Nat) (d : Dev) : Dev := d.updHead h fun x => { x with enumd := false, htype := 0 }

/-- An acyclic request has failed for good: ACYFC (R345). -/
def acyFail (p : Nat) (r : AcyReq) (d : Dev) : Dev :=
  let d1 := paramAnswer r false (d.updFp p fun f => { f with acyfc := incSat f.acyfc })
  match r.kind with | .identify | .setup .. => enumNext p (headAbsent r.head d1) | _ => d1

/-- The line is free again. After a plan carried past the boundary the next plan starts only now (R30). -/
def freeLine (p : Nat) (e : Exchange) (d : Dev) : Dev :=
  d.updFp p fun f => { f with
    line := none
    delay := if e.last && e.acy.isNone then max f.delay ((sinceStrobe d).getD 0 - fpOfs f * fpBt f) else f.delay }

/-- An exchange has failed: it is repeated at once up to RETRY times, and every later exchange of the tick moves back by L; otherwise the
service is lost (R343). An acyclic exchange that no longer ends before the boundary is repeated in the next slot (R345). -/
def exchangeFails (p : Nat) (e : Exchange) (d : Dev) : Dev :=
  let f := d.fp p
  if e.tries < fpRetry f ∧ e.last = false then
    let d1 := d.updFp p fun f => { f with retryc := incSat f.retryc }
    match e.acy with
    | none => d1.updFp p fun f => { f with
        shifted := true
        delay := f.delay + hdLen (d.head e.head) (d.head e.head).use * fpBt f
        line := some { e with tries := e.tries + 1, x := d.tb.time, start := d.tb.tclk } }
    | some r =>
      if acyInTime d f r then d1.updFp p fun f => { f with line := some { e with tries := e.tries + 1, x := d.tb.time, start := d.tb.tclk } }
      else d1.updFp p fun f => { f with line := none, acy := { r with tries := e.tries + 1 } :: f.acy }
  else
    let d1 := freeLine p e d
    match e.acy with
    | some r => acyFail p r d1
    | none => hdFlag e.head 3 d1

/-- NO_RESPONSE: no start edge within the window (R336). -/
def noResponse (p : Nat) (d : Dev) : Dev :=
  match (d.fp p).line with
  | some e => exchangeFails p e (fpFlag p 4 (d.updFp p fun f => { f with norc := incSat f.norc }))
  | none => d

/-- R332–R334: a response of the head on the line with a good CRC, the right address and `body` bytes between STATUS and CRC. -/
def frameGood (e : Exchange) (frame : List Byte) (framing : Bool) (body : Nat) : Bool :=
  let n := frame.length
  !framing && n == body + 4 && frame.head? == some (BitVec.ofNat 8 (128 + e.head % 32)) &&
    (crc16 (frame.take (n - 2))).toNat == beNat (frame.drop (n - 2))

/-- A response with a CRC, framing or address error (R343). -/
def badFrame (p : Nat) (e : Exchange) (d : Dev) : Dev :=
  exchangeFails p e (hdFlag e.head 2 (fpFlag p 3 (d.updFp p fun f => { f with crcc := incSat f.crcc })))

def frameStatus (frame : List Byte) : Byte := (frame.drop 1).headD 0
def frameBody (frame : List Byte) : List Byte := (frame.drop 2).dropLast.dropLast

/-- A cyclic service has succeeded: HSTAT, HERR, HLATE; its entries leave the queue. -/
def serviceDone (p : Nat) (e : Exchange) (st : Byte) (d : Dev) : Dev :=
  let d1 := (freeLine p e d).updHead e.head fun x =>
    { x with hstat := st, eq := x.eq.drop x.sent.length, sent := [] }
  let d2 := if bit st 7 then hdFlag e.head 5 d1 else d1
  if bit st 6 then hdFlag e.head 4 d2 else d2

/-- The remote axes that take the samples of head `h` (R114). -/
def axesOfHead (d : Dev) (h : Nat) : List Nat :=
  (d.ax.axes.filter fun e => axEn e.2 && axKind e.2 == 1 && axSrc e.2 == h).map (·.1)

/-- Is the exchange on the line a cyclic one with a head of this type? -/
def lineOf (d : Dev) (p type : Nat) : Option Exchange :=
  match (d.fp p).line with
  | some e => if e.acy.isNone && (d.head e.head).htype == type then some e else none
  | none => none

/-- ENCODER_RESPONSE: the samples, stamped X_nom − (S − 1 − j) × Q (R338), go to the axes, which take them in the tick after that of
the exchange (R21). -/
def encoderResponse (p : Nat) (frame : List Byte) (framing : Bool) (d : Dev) : Dev :=
  match lineOf d p 1 with
  | none => d
  | some e =>
    if !frameGood e frame framing (3 * e.n) then badFrame p e d
    else
      let st := frameStatus frame
      let d1 := serviceDone p e st d
      if !bit st 4 || e.skip then d1
      else
        let x := d.head e.head
        let q := hdQ d x x.use
        let samples := (List.range e.n).map fun j =>
          (BitVec.ofNat 32 (leNat (slice (frameBody frame) (3 * j) 3)), plusInt e.xnom (-(((e.n - 1 - j) * q * 64 : Nat) : Int)), e.tick)
        forEach (axesOfHead d1 e.head) (fun a d =>
          d.updAxis a fun x => { x with mdl := { x.mdl with samples := x.mdl.samples ++ samples } }) d1

/-- GATE_DRIVE_RESPONSE. -/
def gateResponse (p : Nat) (frame : List Byte) (framing : Bool) (d : Dev) : Dev :=
  match lineOf d p 2 with
  | none => d
  | some e => if !frameGood e frame framing 0 then badFrame p e d else serviceDone p e (frameStatus frame) d

/-- The event groups that an edge of the inputs of head `h` triggers (R393). -/
def edgeGroups (d : Dev) (h : Nat) (old new : BitVec 16) : List Nat :=
  (d.ds.groups.filter fun e =>
    let k := fld e.2.trigger 28 4
    let b := fld e.2.trigger 0 6
    e.2.enable && fld e.2.trigger 16 11 == h && ((k == 1 && !bit old b && bit new b) || (k == 2 && bit old b && !bit new b))).map (·.1)

/-- IO_RESPONSE: the input levels as latched at X_nom (R339); their edges trigger event groups (R393). -/
def ioResponse (p : Nat) (frame : List Byte) (framing : Bool) (d : Dev) : Dev :=
  match lineOf d p 3 with
  | none => d
  | some e =>
    if !frameGood e frame framing 2 then badFrame p e d
    else
      let new := BitVec.ofNat 16 (leNat (frameBody frame))
      let gs := edgeGroups d e.head (d.head e.head).inputs new
      let d1 := (serviceDone p e (frameStatus frame) d).updHead e.head fun x => { x with inputs := new }
      { d1 with ds := { d1.ds with trigs := d1.ds.trigs ++ gs } }

/-- The acyclic exchange on the line. -/
def acyLine (d : Dev) (p : Nat) : Option (Exchange × AcyReq) :=
  match (d.fp p).line with
  | some e => e.acy.map fun r => (e, r)
  | none => none

def clearLine (p : Nat) (d : Dev) : Dev := d.updFp p fun f => { f with line := none }

/-- IDENTIFY_RESPONSE: TYPE, VERSION, CAP; `trip` is response start − request end − 4 BT in grains, of which LD is half, to 32
grains (R340). A head whose 2 × LD exceeds 10 BT is refused with LD_ERR; otherwise its parameters 00h–07h are written (R348). -/
def identifyResponse (p : Nat) (frame : List Byte) (framing : Bool) (trip : Nat) (d : Dev) : Dev :=
  match acyLine d p with
  | some (e, { kind := .identify, .. }) =>
    if !frameGood e frame framing 4 then badFrame p e d
    else
      let b := (frameBody frame).drop 1
      let ld := (trip + 32) / 64 * 32
      let d1 := clearLine p d
      if bitGrains (d.fp p) 10 < 2 * ld then enumNext p (headAbsent e.head (hdFlag e.head 6 d1))
      else
        let x : Head := { d.head e.head with cap := BitVec.ofNat 32 (b.getD 2 0).toNat }
        let q := if (b.getD 0 0).toNat = 1 then hdQ d x x.use else 0
        d1.updFp p fun f => { f with acy :=
          { head := e.head, kind := .setup (b.getD 0 0).toNat (b.getD 1 0).toNat (b.getD 2 0).toNat ld q } :: f.acy }
  | _ => d

/-- READ_RESPONSE: parameter data; a split access goes on with its next exchange (R345). -/
def readResponse (p : Nat) (frame : List Byte) (framing : Bool) (d : Dev) : Dev :=
  match acyLine d p with
  | some (e, r) =>
    (match r.kind with
     | .read _ len =>
       if !frameGood e frame framing (1 + e.n) then badFrame p e d
       else
         let r2 := { r with done := r.done + e.n, tries := 0, got := r.got ++ (frameBody frame).drop 1 }
         let d1 := clearLine p d
         if r2.done < len then d1.updFp p fun f => { f with acy := r2 :: f.acy } else paramAnswer r2 true d1
     | _ => d)
  | none => d

/-- WRITE_RESPONSE: the parameters are written; after a head's 00h–07h it is enumerated (R348). -/
def writeResponse (p : Nat) (frame : List Byte) (framing : Bool) (d : Dev) : Dev :=
  match acyLine d p with
  | some (e, r) =>
    let r2 := { r with done := r.done + e.n, tries := 0 }
    let d1 := clearLine p d
    match r.kind with
    | .identify | .read .. => d
    | _ =>
      if !frameGood e frame framing 1 then badFrame p e d
      else if r2.done < (acyData r).2.length then d1.updFp p fun f => { f with acy := r2 :: f.acy }
      else match r.kind with
        | .setup t v c ld q => enumNext p (d1.updHead e.head fun x => { x with
            enumd := true, htype := if t ≤ 3 then t else 0, version := BitVec.ofNat 8 v, cap := BitVec.ofNat 32 c, ld := BitVec.ofNat 20 ld, q := q })
        | .newQ q => d1.updHead e.head fun x => { x with q := q }
        | _ => paramAnswer r2 true d1
  | none => d

/-! ### Enumeration, enable, disable (R344, R348–R350) -/

/-- ENUM: each of the 32 addresses in turn. On a disabled port it is refused with CFG_ERR (R348 with FPnn_STAT bit 2, log
entry 66); while the port enumerates it is ignored. -/
def enumStart (p : Nat) (d : Dev) : Dev :=
  let f := d.fp p
  if !fpEn f then fpFlag p 2 d
  else if f.enumAt.isSome then d
  else
    let e := d.lo.enum
    let e1 : EnumOp := if e.op.state = 1 then { e with total := e.total + 32 } else { op := LongOp.begin, total := 32 }
    { (d.updFp p fun f => { f with enumAt := some 0, acy := f.acy ++ [{ head := 32 * p, kind := .identify }] }) with
      lo := { d.lo with enum := e1 } }

/-- ENUMERATION_DONE: when every port has finished, 5F05h ends done or refused (R392); after a boot the plan of every enabled
port is loaded first (R389). -/
def enumDone (d : Dev) : Dev :=
  if d.lo.enum.op.state = 1 ∧ (d.fps.all fun e => e.2.enumAt.isNone) = true then
    let d1 := if d.lo.enum.boot then forEach (List.range 64) (fun p d => if fpEn (d.fp p) then fpLoad p d else d) d else d
    loFinish (fun l => { l with enum := { l.enum with op := l.enum.op.finish (!l.enum.refused), boot := false } }) d1
  else d

/-- PORT_ENABLE: refused with CFG_ERR when BDIV is below 4; the staged plan is taken up, or refused with PLAN_ERR and the
plan in force stays (R344). -/
def portEnable (p : Nat) (d : Dev) : Dev :=
  let f := d.fp p
  if fpEn f then d
  else if fld f.cfg 8 8 < 4 then fpFlag p 2 d
  else planLoad p (d.updFp p fun f => { f with cfg := orBit f.cfg 31, shifted := false, delay := 0, unplanned := false })

/-- PORT_DISABLE (R349, R350). -/
def portDisable (p : Nat) (d : Dev) : Dev :=
  let f := d.fp p
  if !fpEn f then d
  else
    let hs := (List.range 32).map (32 * p + ·)
    let edges := hs.foldl (fun n h => n + (d.head h).eq.length) 0
    let enum := f.enumAt.isSome
    let left := match f.enumAt with | some a => 32 - a | none => 0
    let d1 := d.updFp p fun f => { f with
      cfg := clrBit f.cfg 31, planBusy := false, acy := [], enumAt := none, offIn := some d.tb.tclk
      line := f.line.map fun e => { e with last := true }
      discc := addSat f.discc (f.acy.length + edges) }
    let d2 := forEach hs (fun h d => d.updHead h fun x => { x with eq := [], sent := [], next := none }) d1
    let d3 := fpFlag p 8 (forEach f.acy (fun r d => paramAnswer r false d) d2)
    let d4 := if enum then { d3 with lo := { d3.lo with enum := { d3.lo.enum with refused := true, done := d3.lo.enum.done + left } } } else d3
    forEach (hs.flatMap fun h => axesOfHead d4 h) remoteMiss d4

/-! ### Registers -/

/-- FPnn_CFG: every field is written; EN enables or disables. -/
def fpCfgWrite (p : Nat) (v : W32) (d : Dev) : Dev :=
  let keep := bit (d.fp p).cfg 31
  let d1 := d.updFp p fun f => { f with cfg := putBit (v &&& 0x7000FFFF#32) 31 keep }
  if bit v 31 then portEnable p d1 else portDisable p d1

/-- FPnn_CMD. -/
def fpCmdWrite (p : Nat) (v : W32) (d : Dev) : Dev :=
  let d1 := if bit v 0 then fpLoad p d else d
  if bit v 1 then enumStart p d1 else d1

def fpStatRead (p : Nat) (d : Dev) : W32 := (d.fp p).stat ||| atBit (d.fp p).planBusy 1 ||| atBit (fpEn (d.fp p)) 0

/-- HDnnnn_CFG: staged (R344); TYPE reads the head's. -/
def hdCfgWrite (h : Nat) (v : W32) (d : Dev) : Dev := d.updHead h fun x => { x with cfg := v &&& 0xFFCF0000#32 }
def hdCfgRead (h : Nat) (d : Dev) : W32 := (d.head h).cfg ||| BitVec.ofNat 32 ((d.head h).htype % 4)
def hdStatRead (h : Nat) (d : Dev) : W32 :=
  let x := d.head h
  x.stat ||| BitVec.ofNat 32 (x.hstat.toNat * 2 ^ 24) ||| atBit x.enumd 7

/-- A dictionary access to head parameters is queued, at most four in a port's queue (R345); a fifth finds it full. -/
def paramQueue (r : AcyReq) (d : Dev) : Option Dev :=
  let p := r.head / 32
  if fpEn (d.fp p) && (d.fp p).acy.length < 4 then some (d.updFp p fun f => { f with acy := f.acy ++ [r] }) else none

end Sys2Proof.Machine
end

