-- ==== Sys2Proof/Machine/BusRead.lean ====
section
/-! DEFINITION. The register map: where an address lies (20 R425–R428) and what a read of each register returns, without
the effect a read may have (register tables of 03–05, 07–11, 13–16, 18–20). -/

namespace Sys2Proof.Machine

/-- The blocks of BAR0 (R425). -/
inductive Blk where
  | gb | tb | sc | fm | gl | hi | ic | cs | ti | ne | em | bp | fp | cp | hd | ax | ch
  deriving DecidableEq, Repr

/-- Where a BAR0 address lies: the block, the instance and the offset in its window; none for reserved regions (R425, R426). -/
def locate (a : Nat) : Option (Blk × Nat × Nat) :=
  if a < 0x1000 then some (.gb, 0, a)
  else if a < 0x2000 then some (.tb, 0, a - 0x1000)
  else if a < 0x3000 then some (.sc, 0, a - 0x2000)
  else if a < 0x4000 then some (.fm, 0, a - 0x3000)
  else if a < 0x5000 then some (.gl, 0, a - 0x4000)
  else if a < 0x8000 then none
  else if a < 0xC000 then some (.hi, 0, a - 0x8000)
  else if a < 0x10000 then none
  else if a < 0x12000 then some (.ic, 0, a - 0x10000)
  else if a < 0x14000 then none
  else if a < 0x14100 then some (.cs, (a - 0x14000) / 16, a % 16)
  else if a < 0x15000 then none
  else if a < 0x15100 then some (.ti, (a - 0x15000) / 16, a % 16)
  else if a < 0x16000 then none
  else if a < 0x16400 then some (.ne, (a - 0x16000) / 64, a % 64)
  else if a < 0x17000 then none
  else if a < 0x17100 then some (.em, (a - 0x17000) / 64, a % 64)
  else if a < 0x20000 then none
  else if a < 0x22000 then some (.bp, (a - 0x20000) / 64, a % 64)
  else if a < 0x24000 then none
  else if a < 0x25000 then some (.fp, (a - 0x24000) / 64, a % 64)
  else if a < 0x28000 then none
  else if a < 0x30000 then some (.cp, (a - 0x28000) / 512, a % 512)
  else if a < 0x40000 then some (.hd, (a - 0x30000) / 32, a % 32)
  else if a < 0x80000 then none
  else if a < 0x100000 then some (.ax, (a - 0x80000) / 128, a % 128)
  else if a < 0x120000 then some (.ch, (a - 0x100000) / 256, a % 256)
  else none

def nat32 (n : Nat) : W32 := BitVec.ofNat 32 n

/-- Words of the global block (R431). -/
def peekGb (c : Core) (o : Nat) : W32 :=
  let d := c.dev
  match o with
  | 0x000 => 0x40960000#32 ||| (Config.romVersion &&& 0xFF#32)
  | 0x004 => loWord Config.deviceId
  | 0x008 => hiWord Config.deviceId
  | 0x00C => d.pw.strap.setWidth 32
  | 0x010 => d.pw.rstc.setWidth 32
  | 0x014 => gbPwrRead d
  | 0x018 => atBit d.pw.ordered.isSome 0
  | 0x01C => gbStatRead d
  | 0x020 => halves d.ecc.cecc d.ecc.uecc
  | 0x024 => d.ecc.addr
  | 0x028 => scrubRead d
  | _ => 0

def peekTb (d : Dev) (o : Nat) : W32 :=
  match o with
  | 0x000 => d.tb.ctl
  | 0x004 => tbStatRead d
  | 0x008 => loWord d.tb.time
  | 0x00C => hiWord d.tb.time
  | 0x010 => BitVec.ofInt 32 d.tb.trim
  | 0x014 => BitVec.ofInt 32 d.tb.htrim
  | _ => 0

def peekSc (c : Core) (o : Nat) : W32 :=
  let d := c.dev
  if o = 0 then secStatRead c
  else if o = 4 then d.sec.rwkRej
  else if o = 8 then d.sec.rwkc.setWidth 32
  else if 0x100 ≤ o ∧ o < 0x140 then
    let q := d.aoq ((o - 0x100) / 16)
    match o % 16 with
    | 0 => q.cnt
    | 4 => q.ctl
    | 8 => q.pre
    | _ => 0
  else 0

/-- KIND of a sentinel: delay 0–31, SRAM 32–39, slew 40–47 (R433). -/
def sentKind (k : Nat) : Nat := if k < 32 then 0 else if k < 40 then 1 else 2

def peekFm (d : Dev) (o : Nat) : W32 :=
  let m := d.fm
  match o with
  | 0x000 => atBit (m.asked || m.surveying.isSome) 0
  | 0x004 => fmStatRead d
  | 0x008 => nat32 m.margin
  | 0x00C => loWord m.proj
  | 0x010 => hiWord m.proj
  | 0x014 => planWord m.plan
  | 0x018 => m.plan.calint
  | 0x01C => budgetInForce d
  | 0x020 => planWord m.prop
  | 0x024 => m.prop.calint
  | 0x028 => m.prop.bud
  | 0x02C => loWord m.last
  | 0x030 => hiWord m.last
  | _ =>
    if 0x100 ≤ o ∧ o < 0x1C0 then
      let k := (o - 0x100) / 4
      nat32 (sentKind k * 2 ^ 30) ||| (Bank.get 0 m.values k).setWidth 32
    else 0

def peekGl (d : Dev) (o : Nat) : W32 :=
  let g := d.gl
  match o with
  | 0x000 => g.cfg
  | 0x004 => g.stat
  | 0x008 => nat32 (freeCount d)
  | 0x00C => g.seq
  | 0x010 => g.cmd ||| atBit g.go 31
  | 0x014 => g.result
  | 0x018 => g.rseq
  | 0x040 => nat32 g.orhead
  | 0x044 => nat32 g.ortail
  | 0x048 => g.orlost
  | 0x04C => atBit g.compacting 0
  | 0x050 => nat32 (g.wmax % 32 * 256)
  | _ => if 0x20 ≤ o ∧ o < 0x40 then Bank.get 0 g.sw ((o - 0x20) / 4) else 0

/-- The mailbox of port `p`; GREG reads 0 (R423). -/
def peekHi (d : Dev) (p o : Nat) : W32 :=
  if 2 ≤ p then 0
  else
    let b := d.box p
    if o = 0 then b.ctl ||| atBit b.go 31
    else if o = 4 then b.stat ||| nat32 (b.rlen % 2048)
    else if o = 8 then d.ic.vlevel.setWidth 32
    else if 0x1000 ≤ o ∧ o < 0x15C0 then Bank.get 0 b.req ((o - 0x1000) / 4)
    else if 0x2000 ≤ o ∧ o < 0x25C0 then Bank.get 0 b.rsp ((o - 0x2000) / 4)
    else 0

/-- The interrupt controller; a claim's value is what a read would return (R303). -/
def peekIc (d : Dev) (o : Nat) : W32 :=
  let i := d.ic
  if o = 0 then i.stat
  else if o = 8 then i.axev
  else if 0x100 ≤ o ∧ o < 0x180 then (icClaim ((o - 0x100) / 4) d).1
  else if 0x200 ≤ o ∧ o < 0x280 then icWord (·.pend) ((o - 0x200) / 4) d
  else if 0x280 ≤ o ∧ o < 0x300 then icWord (·.pend) ((o - 0x280) / 4) d
  else if 0x300 ≤ o ∧ o < 0x380 then icWord (·.act) ((o - 0x300) / 4) d
  else if 0x380 ≤ o ∧ o < 0x400 then icWord (·.lost) ((o - 0x380) / 4) d
  else if 0x400 ≤ o ∧ o < 0x500 then Bank.get 0 i.chev ((o - 0x400) / 4)
  else if 0x500 ≤ o ∧ o < 0x600 then Bank.get 0 i.chw ((o - 0x500) / 4)
  else if 0x600 ≤ o ∧ o < 0x800 then
    let v : W64 := Bank.get 0 i.axw ((o - 0x600) / 8)
    if o % 8 = 0 then loWord v else hiWord v
  else if o = 0x800 then i.xstat
  else if o = 0x804 then i.xsel
  else if 0x808 ≤ o ∧ o < 0x828 then (Bank.get 0 i.xovr ((o - 0x808) / 4)).setWidth 32
  else if 0x1000 ≤ o ∧ o < 0x2000 then (d.source ((o - 0x1000) / 4)).src
  else 0

def peekCs (d : Dev) (n o : Nat) : W32 :=
  let k := d.chase n
  match o with
  | 0 => nat32 (k.peak * 65536 + occ k)
  | 4 => halves k.ovfc k.latec
  | _ => 0

def peekTi (d : Dev) (n o : Nat) : W32 :=
  match o with
  | 0 => (d.trip n).ctl
  | 4 => tiStatRead n d
  | 8 => atBit (d.trip n).soft 0
  | 12 => halves (d.trip n).tripc (d.trip n).blankc
  | _ => 0

def peekNe (d : Dev) (e o : Nat) : W32 :=
  let g := d.eng e
  match o with
  | 0x00 => g.ctl ||| atBit g.chaltReq 3
  | 0x04 => neStatRead e d
  | 0x08 => g.fault
  | 0x0C => g.centry
  | 0x10 => g.tback
  | 0x14 => halves g.ovrc g.faultc
  | 0x18 => g.load.setWidth 32
  | _ => 0

def peekEm (d : Dev) (m o : Nat) : W32 :=
  let x := d.mac m
  match o with
  | 0x00 => x.cfg
  | 0x04 => emStatRead m d
  | 0x08 => halves x.rxdropc x.rxerrc
  | 0x0C => halves x.latec x.dupc
  | 0x10 => halves x.stalec x.sumdropc
  | 0x14 => x.acyerr.setWidth 32
  | 0x18 => x.addr.setWidth 32
  | 0x1C => (x.addr >>> 32).setWidth 32
  | 0x20 => x.ip
  | 0x24 => nat32 d.lk.gofs
  | 0x28 => nat32 d.lk.glen
  | _ => 0

def peekBp (d : Dev) (p o : Nat) : W32 :=
  let x := d.pair p
  match o with
  | 0x00 => x.ctl
  | 0x04 => x.dtr
  | 0x08 => x.dtf
  | 0x0C => x.bsmax
  | 0x10 => x.bspw
  | 0x14 => bpStatRead p d
  | 0x18 => atBit (x.state == .stopping || (x.stopDue && pairEnabled x)) 0
  | 0x1C => halves x.refc x.eatc
  | 0x20 => halves x.tripc x.filtc
  | 0x24 => x.ovlc.setWidth 32
  | 0x28 => d.br.guard.setWidth 32
  | _ => 0

def peekFp (d : Dev) (p o : Nat) : W32 :=
  let f := d.fp p
  match o with
  | 0x00 => f.cfg
  | 0x04 => fpStatRead p d
  | 0x08 => atBit f.enumAt.isSome 1 ||| atBit f.planBusy 0
  | 0x0C => halves f.pend f.acylen
  | 0x10 => halves f.crcc f.norc
  | 0x14 => halves f.retryc f.ovrc
  | 0x18 => halves f.latec f.eovfc
  | 0x1C => halves f.discc f.acyfc
  | _ => 0

def peekCp (d : Dev) (k o : Nat) : W32 :=
  let c := d.comp k
  match o with
  | 0x00 => c.r.ctl
  | 0x04 => c.r.pins
  | 0x08 => atBit c.tpend 3
  | 0x0C => cpStatRead k d
  | 0x10 => c.r.pc.setWidth 32
  | 0x18 => c.r.rxd
  | 0x1C => loWord c.r.s
  | 0x20 => hiWord c.r.s
  | 0x24 => nat32 c.r.bc
  | 0x28 => c.r.c0
  | 0x2C => c.r.c1
  | 0x30 => loWord c.r.wt
  | 0x34 => hiWord c.r.wt
  | 0x38 => c.r.oli.setWidth 32
  | _ => if 0x100 ≤ o then Bank.get 0 c.imem ((o - 0x100) / 4) else 0

def peekHd (d : Dev) (h o : Nat) : W32 :=
  let x := d.head h
  match o with
  | 0x00 => hdCfgRead h d
  | 0x04 => hdStatRead h d
  | 0x08 => halves x.slot x.len
  | 0x0C => x.ld.setWidth 32
  | 0x10 => nat32 (x.eq.filter fun e => decide (e.tclk ≤ d.tb.tclk)).length
  | _ => 0

def peekAx (d : Dev) (a o : Nat) : W32 :=
  let x := d.axis a
  match o with
  | 0x00 => x.cfg.cfg
  | 0x04 => x.cfg.src
  | 0x08 => x.cfg.tpt
  | 0x0C => x.cfg.win
  | 0x10 => x.cfg.ghmax
  | 0x14 => x.cfg.stop
  | 0x18 => loWord x.cfg.ofs
  | 0x1C => hiWord x.cfg.ofs
  | 0x20 => axStatRead a d
  | 0x24 => loWord x.trk.ang
  | 0x28 => hiWord x.trk.ang
  | 0x2C => loWord x.trk.angT
  | 0x30 => hiWord x.trk.angT
  | 0x34 => loWord (BitVec.ofInt 64 x.trk.c)
  | 0x38 => hiWord (BitVec.ofInt 64 x.trk.c)
  | 0x40 => halves x.st.earlyc x.st.ghostc
  | 0x44 => halves x.st.slipc x.st.lostc
  | 0x48 => x.st.slipv
  | 0x4C => nat32 x.cfg.hguard
  | 0x50 => nat32 (nslug d a * 1024 + narmed d a % 1024)
  | _ => 0

/-- The pin stage and the decoder of CH000–CH255; absent on remote channels (R59). -/
def peekDec (d : Dev) (n o : Nat) : W32 :=
  let c := d.dec n
  match o with
  | 0x80 => (d.pin n).pin
  | 0x84 => (d.pin n).pre
  | 0x88 => c.cfg.tdc
  | 0x8C => c.cfg.udiv
  | 0x90 => c.cfg.pwt1
  | 0x94 => c.cfg.pwt2
  | 0x98 => c.cfg.pwt3
  | 0x9C => c.cfg.idx
  | 0xA0 => c.cfg.wpat
  | 0xC4 => tdStatRead n d
  | 0xC8 => c.total
  | 0xCC => c.pos
  | 0xD0 => loWord c.lstamp
  | 0xD4 => hiWord c.lstamp
  | 0xD8 => loWord c.ustamp
  | 0xDC => hiWord c.ustamp
  | 0xE0 => c.uattr
  | 0xE4 => c.pww
  | 0xE8 => loWord c.icap
  | 0xEC => hiWord c.icap
  | 0xF0 => c.ipos
  | 0xF4 => halves c.glitchc c.qerrc
  | 0xF8 => halves c.pfltc c.coarsec
  | _ => if 0xA4 ≤ o ∧ o < 0xC4 then Bank.get 0 c.cfg.wgap ((o - 0xA4) / 4) else 0

/-- A channel's registers; PER and the compares read as the writes landed in this TCLK leave them (R169), and CMD reads 1 while its
action is under way (R9). -/
def peekCh (d : Dev) (n o : Nat) : W32 :=
  let u := landed (d.chOut n)
  let k := d.chCnt n
  let p := d.chCap n
  let e := d.chEm n
  let r := isRemote n
  match o with
  | 0x00 => u.ctl
  | 0x04 => if r then 0 else u.out
  | 0x08 => u.per
  | 0x0C => u.cmpr
  | 0x10 => u.cmpf
  | 0x14 => u.cmpg
  | 0x18 => k.cnt
  | 0x1C => chStatRead n d
  | 0x20 => atBit u.rel 3 ||| atBit (forcing false u) 2 ||| atBit (forcing true u) 1
  | 0x24 => if r then 0 else e.emc
  | 0x28 => if r then 0 else e.ems
  | 0x2C => if r then 0 else e.emz
  | 0x30 => if r then 0 else emcnt n d
  | 0x34 => u.rmap
  | 0x38 => d.ch.quoin
  | 0x3C => d.ch.quoin
  | 0x40 => k.lnk
  | 0x44 => k.mact
  | 0x48 => p.capc
  | 0x4C => p.caps
  | 0x50 => p.cap0
  | 0x54 => p.cap1
  | 0x58 => loWord p.cap0t
  | 0x5C => hiWord p.cap0t
  | 0x60 => loWord p.cap1t
  | 0x64 => hiWord p.cap1t
  | 0x68 => tstatRead n d
  | 0x6C => atBit k.tstart 3
  | _ => if 0x80 ≤ o ∧ !r then peekDec d n o else 0

/-- What a read of BAR0 address `a` returns through path `p`, effects aside: 0 for reserved offsets (R426). -/
def regPeek (c : Core) (p a : Nat) : W32 :=
  match locate a with
  | none => 0
  | some (b, i, o) =>
    match b with
    | .gb => peekGb c o
    | .tb => peekTb c.dev o
    | .sc => peekSc c o
    | .fm => peekFm c.dev o
    | .gl => peekGl c.dev o
    | .hi => peekHi c.dev p o
    | .ic => peekIc c.dev o
    | .cs => peekCs c.dev i o
    | .ti => peekTi c.dev i o
    | .ne => peekNe c.dev i o
    | .em => peekEm c.dev i o
    | .bp => peekBp c.dev i o
    | .fp => peekFp c.dev i o
    | .cp => peekCp c.dev i o
    | .hd => peekHd c.dev i o
    | .ax => peekAx c.dev i o
    | .ch => peekCh c.dev i o

/-- The galley window of BAR2 (R143). -/
def windowPeek (d : Dev) (a : Nat) : W32 :=
  if a < 0x800000 then (slugImage (a / 32) (d.slug (a / 32)) >>> (a / 4 % 8 * 32)).setWidth 32
  else if a < 0x810000 then
    (d.read128 (outcomeBase + 2 * ((a - 0x800000) / 16)) >>> (a / 4 % 4 * 32)).setWidth 32
  else if a < 0x818000 then
    let k := (a - 0x810000) / 32
    match Bank.get none (d.chase (k / 64)).start (k % 64) with
    | some e => (entryImage e >>> (a / 4 % 8 * 32)).setWidth 32
    | none => 0
  else 0

end Sys2Proof.Machine
end

