-- ==== Sys2Proof/Machine/BusWrite.lean ====
section
/-! DEFINITION. What a write of each register does, by the access code of each field (R9) and the block's own rules
(register tables of 03–05, 07–11, 13–16, 18–20). -/

namespace Sys2Proof.Machine

/-- The W1C bits `m` of a status word after a write of `v`. -/
def w1c (m old v : W32) : W32 := old &&& ~~~(v &&& m)

/-- A pair of 16-bit counts in one word: FFFFh to a half clears it. -/
def clearHi (c : BitVec 16) (v : W32) : BitVec 16 := clearCount c (fld v 16 16)
def clearLo (c : BitVec 16) (v : W32) : BitVec 16 := clearCount c (fld v 0 16)

def pokeGb (o : Nat) (v : W32) (d : Dev) : Dev :=
  match o with
  | 0x010 => { d with pw := { d.pw with rstc := d.pw.rstc &&& ~~~(v.setWidth 5) } }
  | 0x014 => gbPwrWrite v d
  | 0x018 => gbCmdWrite v d
  | 0x01C => if bit v 7 then { d with pw := { d.pw with cmdRej := false } } else d
  | 0x020 => { d with ecc := { d.ecc with cecc := clearHi d.ecc.cecc v, uecc := clearLo d.ecc.uecc v } }
  | 0x028 => { d with ecc := { d.ecc with scrubEn := bit v 31 } }
  | _ => d

/-- TB_STEP is committed by the port (R419). A change of ROLE or PLANT is a rejected RWK write (R408). -/
def pokeTb (src a o : Nat) (v : W32) (d : Dev) : Dev :=
  match o with
  | 0x000 =>
    let d1 := if fld v 1 3 ≠ fld d.tb.ctl 1 3 then rwkReject src a d else d
    if bit v 0 != tbServo d1.tb then servoWrite (bit v 0) d1 else d1
  | 0x004 => { d with tb := { d.tb with stat := w1c 0x34B0#32 d.tb.stat v } }
  | 0x014 => htrimWrite v d
  | _ => d

def pokeSc (o : Nat) (v : W32) (d : Dev) : Dev :=
  if o = 0 then { d with sec := { d.sec with stat := w1c 0xF0#32 d.sec.stat v } }
  else if o = 8 then { d with sec := { d.sec with rwkc := clearLo d.sec.rwkc v } }
  else if 0x100 ≤ o ∧ o < 0x140 then
    let k := (o - 0x100) / 16
    match o % 16 with
    | 4 => aoqCtlWrite k v d
    | 8 => d.updAoq k fun q => { q with pre := v }
    | _ => d
  else d

def pokeFm (src a o : Nat) (v : W32) (d : Dev) : Dev :=
  match o with
  | 0 =>
    let d1 := if bit v 2 then rwkReject src a d else d
    if bit v 0 then surveyRequest d1 else d1
  | 4 => { d with fm := { d.fm with stat := w1c 0x78#32 d.fm.stat v } }
  | _ => d

/-- GL_CFG: an RLEAD below 5,000 is ignored with CFG_ERR, the other fields are written. -/
def glCfgWrite (v : W32) (d : Dev) : Dev :=
  let low := fld v 16 16 < 5000
  let w := (if low then setFld v 16 16 (fld d.gl.cfg 16 16) else v) &&& 0xFFFF00F1#32
  let d1 := { d with gl := { d.gl with cfg := w } }
  if low then glFlag 1 d1 else d1

def pokeGl (o : Nat) (v : W32) (d : Dev) : Dev :=
  match o with
  | 0x000 => glCfgWrite v d
  | 0x004 => { d with gl := { d.gl with stat := w1c 0x7E#32 d.gl.stat v } }
  | 0x010 => glCmdWrite v d
  | 0x044 => { d with gl := { d.gl with ortail := fld v 0 12 } }
  | 0x04C => if bit v 0 then compactBegin d else d
  | 0x050 => if bit v 0 then clearWmax d else d
  | _ => if 0x20 ≤ o ∧ o < 0x40 then glSwWrite ((o - 0x20) / 4) v d else d

/-- HI_MBCTL of port `p` (R423, R424): while GO = 1 it is ignored with MB_BUSY; a GO with a length out of range is refused
with MB_ERR, its other fields stored. -/
def mailboxGo (p : Nat) (v : W32) (d : Dev) : Dev :=
  let b := d.box p
  if b.go then (if v &&& 0x40FF07FF#32 = b.ctl then d else d.updBox p fun b => { b with stat := orBit b.stat 12 })
  else
    let len := fld v 0 11
    let d1 := d.updBox p fun b => { b with ctl := v &&& 0x40FF07FF#32 }
    if bit v 31 then
      if len < 12 ∨ 1464 < len then d1.updBox p fun b => { b with stat := orBit b.stat 13 }
      else
        let bytes := (List.range len).map fun k => BitVec.ofNat 8 (fld (Bank.get 0 b.req (k / 4)) (24 - k % 4 * 8) 8)
        let who : DictWho := if p = 0 then .pcie else .qspi
        let d2 := d1.updBox p fun b => { b with go := true }
        { d2 with ds := { d2.ds with queue := d2.ds.queue ++ [⟨who, bytes⟩] } }
    else d1

/-- A write to a mailbox register; GREG writes are ignored (R423). A write of HI_MBREQ while GO = 1 counts against R424
only if it would change the word (R499). -/
def pokeHi (p o : Nat) (v : W32) (d : Dev) : Dev :=
  if 2 ≤ p then d
  else if o = 0 then mailboxGo p v d
  else if o = 4 then d.updBox p fun b => { b with stat := w1c 0x3800#32 b.stat v }
  else if 0x1000 ≤ o ∧ o < 0x15C0 then
    let k := (o - 0x1000) / 4
    if (d.box p).go then
      (if Bank.get 0 (d.box p).req k ≠ v then d.updBox p fun b => { b with stat := orBit b.stat 12 } else d)
    else d.updBox p fun b => { b with req := Bank.set 0 b.req k v }
  else d

def pokeIc (o : Nat) (v : W32) (d : Dev) : Dev :=
  let i := d.ic
  if o = 0 then { d with ic := { i with stat := w1c 0xF#32 i.stat v } }
  else if o = 4 then icDoorbell v d
  else if o = 8 then { d with ic := { i with axev := v &&& 0x3FFF#32 } }
  else if 0x180 ≤ o ∧ o < 0x200 then icComplete ((o - 0x180) / 4) v d
  else if 0x200 ≤ o ∧ o < 0x280 then icClearPending ((o - 0x200) / 4) v d
  else if 0x280 ≤ o ∧ o < 0x300 then icSetPending ((o - 0x280) / 4) v d
  else if 0x380 ≤ o ∧ o < 0x400 then icClearLost ((o - 0x380) / 4) v d
  else if 0x400 ≤ o ∧ o < 0x500 then { d with ic := { i with chev := Bank.set 0 i.chev ((o - 0x400) / 4) v } }
  else if o = 0x800 then { d with ic := { i with xstat := w1c 3#32 i.xstat v } }
  else if o = 0x804 then { d with ic := { i with xsel := v &&& 3#32 } }
  else if 0x808 ≤ o ∧ o < 0x828 then
    { d with ic := { i with xovr := Bank.upd 0 i.xovr ((o - 0x808) / 4) fun c => clearLo c v } }
  else if 0x1000 ≤ o ∧ o < 0x2000 then icSourceWrite ((o - 0x1000) / 4) v d
  else d

def pokeCs (n o : Nat) (v : W32) (d : Dev) : Dev :=
  match o with
  | 4 => d.updChase n fun c => { c with ovfc := clearHi c.ovfc v, latec := clearLo c.latec v }
  | 8 => if bit v 0 then clearPeak n d else d
  | _ => d

def pokeTi (i o : Nat) (v : W32) (d : Dev) : Dev :=
  match o with
  | 0 => d.updTrip i fun t => { t with ctl := v &&& 0xC00F03FF#32 }
  | 4 =>
    let d1 := if bit v 3 then d.updTrip i fun t => { t with clrRej := false } else d
    if bit v 2 then latchClear i d1 else d1
  | 8 => if bit v 0 then softTrip i d else d
  | 12 => d.updTrip i fun t => { t with tripc := clearHi t.tripc v, blankc := clearLo t.blankc v }
  | _ => d

def pokeNe (e o : Nat) (v : W32) (d : Dev) : Dev :=
  match o with
  | 0x00 => neCtlWrite e v d
  | 0x04 => d.updEng e fun g => { g with stat := w1c 0x1F000#32 g.stat v }
  | 0x0C => d.updEng e fun g => { g with centry := v &&& 0x7FFF#32 }
  | 0x14 => d.updEng e fun g => { g with ovrc := clearHi g.ovrc v, faultc := clearLo g.faultc v }
  | _ => d

def pokeEm (m o : Nat) (v : W32) (d : Dev) : Dev :=
  match o with
  | 0x00 => emCfgWrite m v d
  | 0x04 => d.updMac m fun x => { x with stat := w1c 0xFFF8#32 x.stat v }
  | 0x08 => d.updMac m fun x => { x with rxdropc := clearHi x.rxdropc v, rxerrc := clearLo x.rxerrc v }
  | 0x0C => d.updMac m fun x => { x with latec := clearHi x.latec v, dupc := clearLo x.dupc v }
  | 0x10 => d.updMac m fun x => { x with stalec := clearHi x.stalec v, sumdropc := clearLo x.sumdropc v }
  | 0x14 => d.updMac m fun x => { x with acyerr := clearLo x.acyerr v }
  | 0x20 => d.updMac m fun x => { x with ip := v }
  | _ => d

/-- BSMAX and BSPW are fields of the pair's configuration that R196 does not lock; DTR and DTF may be written at any time. -/
def pokeBp (src a p o : Nat) (v : W32) (d : Dev) : Dev :=
  match o with
  | 0x00 => bpCtlWrite p v (if bit v 31 != bit (d.pair p).ctl 31 then rwkReject src a d else d)
  | 0x04 => d.updPair p fun x => { x with dtr := v &&& 0x3FFFF#32 }
  | 0x08 => d.updPair p fun x => { x with dtf := v &&& 0x3FFFF#32 }
  | 0x0C => d.updPair p fun x => { x with bsmax := v &&& 0xFFFFFF#32 }
  | 0x10 => d.updPair p fun x => { x with bspw := v &&& 0xFFF#32 }
  | 0x14 => d.updPair p fun x => { x with stat := w1c 0xFF00#32 x.stat v }
  | 0x18 => if bit v 0 then pairDisable p d else d
  | 0x1C => d.updPair p fun x => { x with refc := clearHi x.refc v, eatc := clearLo x.eatc v }
  | 0x20 => d.updPair p fun x => { x with tripc := clearHi x.tripc v, filtc := clearLo x.filtc v }
  | 0x24 => d.updPair p fun x => { x with ovlc := clearLo x.ovlc v }
  | _ => d

def pokeFp (p o : Nat) (v : W32) (d : Dev) : Dev :=
  match o with
  | 0x00 => fpCfgWrite p v d
  | 0x04 => d.updFp p fun f => { f with stat := w1c 0x7FC#32 f.stat v }
  | 0x08 => fpCmdWrite p v d
  | 0x10 => d.updFp p fun f => { f with crcc := clearHi f.crcc v, norc := clearLo f.norc v }
  | 0x14 => d.updFp p fun f => { f with retryc := clearHi f.retryc v, ovrc := clearLo f.ovrc v }
  | 0x18 => d.updFp p fun f => { f with latec := clearHi f.latec v, eovfc := clearLo f.eovfc v }
  | 0x1C => d.updFp p fun f => { f with discc := clearHi f.discc v, acyfc := clearLo f.acyfc v }
  | _ => d

def pokeCp (k o : Nat) (v : W32) (d : Dev) : Dev :=
  match o with
  | 0x00 => cpCtlWrite k v d
  | 0x04 => cpPinsWrite k v d
  | 0x08 => cpCmdWrite k v d
  | 0x0C => d.updComp k fun c => { c with r := { c.r with stat := w1c 0xFE0#32 c.r.stat v } }
  | 0x10 => programWrite k 0x10 v d
  | 0x14 => txdWrite k v d
  | 0x28 => programWrite k 0x28 v d
  | 0x2C => programWrite k 0x2C v d
  | 0x38 => cpOliWrite k v d
  | _ => if 0x100 ≤ o then programWrite k o v d else d

def pokeHd (h o : Nat) (v : W32) (d : Dev) : Dev :=
  match o with
  | 0 => hdCfgWrite h v d
  | 4 => d.updHead h fun x => { x with stat := w1c 0x7C#32 x.stat v }
  | _ => d

def pokeAx (a o : Nat) (v : W32) (d : Dev) : Dev :=
  match o with
  | 0x00 => axCfgWrite a v d
  | 0x04 => axSrcWrite a v d
  | 0x08 => axTptWrite a v d
  | 0x0C => axWinWrite a v d
  | 0x10 => d.updAxis a fun x => { x with cfg := { x.cfg with ghmax := v } }
  | 0x14 => d.updAxis a fun x => { x with cfg := { x.cfg with stop := v } }
  | 0x20 => d.updAxis a fun x => { x with st := { x.st with stat := w1c 0x18FF80#32 x.st.stat v } }
  | 0x3C => if bit v 1 then resync a d else d
  | 0x40 => d.updAxis a fun x => { x with st := { x.st with earlyc := clearHi x.st.earlyc v, ghostc := clearLo x.st.ghostc v } }
  | 0x44 => d.updAxis a fun x => { x with st := { x.st with slipc := clearHi x.st.slipc v, lostc := clearLo x.st.lostc v } }
  | 0x4C => axHorWrite a v d
  | _ => d

def pokeDec (n o : Nat) (v : W32) (d : Dev) : Dev :=
  match o with
  | 0x80 => pinWrite n v d
  | 0x84 => preWrite n v d
  | 0x88 => tdcWrite n v d
  | 0x8C => udivWrite n v d
  | 0xC4 => d.updDec n fun c => { c with tdstat := w1c 0x3FFC#32 c.tdstat v }
  | 0xF4 => d.updDec n fun c => { c with glitchc := clearHi c.glitchc v, qerrc := clearLo c.qerrc v }
  | 0xF8 => d.updDec n fun c => { c with pfltc := clearHi c.pfltc v, coarsec := clearLo c.coarsec v }
  | _ => if 0x90 ≤ o ∧ o < 0xC4 then decWordWrite n o v d else d

/-- CHnnn_CMD: RELOAD, FFALL, FRISE (R167, R177). -/
def chCmdWrite (n : Nat) (v : W32) (d : Dev) : Dev :=
  let d1 := if bit v 3 then reload n d else d
  let d2 := if bit v 1 then forceLevel n true d1 else d1
  if bit v 2 then forceLevel n false d2 else d2

/-- CHnnn_CAPS: OVR1, OVR0 are W1C, FFh clears OVRC. -/
def capsWrite (n : Nat) (v : W32) (d : Dev) : Dev :=
  d.updCap n fun c =>
    let w := w1c 0x18#32 c.caps v
    { c with caps := if fld v 8 8 = 255 then setFld w 8 8 0 else w }

def pokeCh (n o : Nat) (v : W32) (d : Dev) : Dev :=
  match o with
  | 0x00 => chCtlWrite n v d
  | 0x04 => outWrite n v d
  | 0x08 => compareWrite n 8 v d
  | 0x0C => compareWrite n 12 v d
  | 0x10 => compareWrite n 16 v d
  | 0x14 => compareWrite n 20 v d
  | 0x18 => countWrite n v d
  | 0x1C => d.updOut n fun u => { u with stat := w1c 0x5FC#32 u.stat v }
  | 0x20 => chCmdWrite n v d
  | 0x24 => emcWrite n v d
  | 0x28 => emsWrite n v d
  | 0x2C => emzWrite n v d
  | 0x34 => rmapWrite n v d
  | 0x38 => quoinClose v d
  | 0x3C => quoinOpen v d
  | 0x40 => lnkWrite n v d
  | 0x44 => mactWrite n v d
  | 0x48 => capcWrite n v d
  | 0x4C => capsWrite n v d
  | 0x68 => d.updCnt n fun c => { c with tstat := w1c 0xE#32 c.tstat v }
  | 0x6C => ccmdWrite n v d
  | _ => if 0x80 ≤ o ∧ !isRemote n then pokeDec n o v d else d

/-- A write of one 32-bit register through path `p` (0 PCIe, 1 QSPI, 16 + e an engine's GREG); words that the port
stages or commits are not written here (R419). Reserved offsets ignore it (R426). -/
def regPoke (p a : Nat) (v : W32) (d : Dev) : Dev :=
  let src := min p 2
  match locate a with
  | none => d
  | some (b, i, o) =>
    match b with
    | .gb => pokeGb o v d
    | .tb => pokeTb src a o v d
    | .sc => pokeSc o v d
    | .fm => pokeFm src a o v d
    | .gl => pokeGl o v d
    | .hi => pokeHi p o v d
    | .ic => pokeIc o v d
    | .cs => pokeCs i o v d
    | .ti => pokeTi i o v d
    | .ne => pokeNe i o v d
    | .em => pokeEm i o v d
    | .bp => pokeBp src a i o v d
    | .fp => pokeFp i o v d
    | .cp => pokeCp i o v d
    | .hd => pokeHd i o v d
    | .ax => pokeAx i o v d
    | .ch => pokeCh i o v d

end Sys2Proof.Machine
end

