-- ==== Sys2Proof/Machine/Bus.lean ====
section
/-! DEFINITION. A port's accesses: reads of wide values and the read latch (19 R418, 20 R429), writes of wide values and
the write stage (R419), reads with an effect, and accesses while the core is in reset (14 R324). -/

namespace Sys2Proof.Machine

def baseCh (n : Nat) : Nat := 0x100000 + n * 256
def baseAx (a : Nat) : Nat := 0x80000 + a * 128
def baseCp (k : Nat) : Nat := 0x28000 + k * 512

/-- The words a read of `a` latches with it (R429); none when `a` is no lowest word. The fields G and SG of CHnnn_CAPS stand
at its address + 2 and + 3. -/
def linkedWords (d : Dev) (a : Nat) : Option (List Nat) :=
  match locate a with
  | some (.tb, _, 0x08) => some [a + 4]
  | some (.gb, _, 0x04) => some [a + 4]
  | some (.fm, _, 0x0C) => some [a + 4]
  | some (.fm, _, 0x2C) => some [a + 4]
  | some (.cp, _, 0x1C) => some [a + 4, a + 8]
  | some (.ax, _, 0x24) => some [a + 4, a + 8, a + 12]
  | some (.ax, _, 0x34) => some [a + 4]
  | some (.ic, _, o) => if 0x600 ≤ o ∧ o < 0x800 ∧ o % 8 = 0 then some [a + 4] else none
  | some (.ch, n, o) =>
    if o = 0x50 then some [baseCh n + 0x58, baseCh n + 0x5C, baseCh n + 0x4E]
    else if o = 0x54 then some [baseCh n + 0x60, baseCh n + 0x64, baseCh n + 0x4F]
    else if o = 0x18 ∧ !isStage d n ∧ stagesAbove d n ≠ [] then
      some ((stagesAbove d n).map fun m => baseCh m + 0x18)
    else if isRemote n then none
    else if o = 0xD0 ∨ o = 0xE8 then some [a + 4]
    else if o = 0xD8 then some [a + 4, baseCh n + 0xE0, baseCh n + 0xC8, baseCh n + 0xCC]
    else none
  | _ => none

/-- The value a linked word takes into the latch: as it reads in that TCLK; the parts of CAPS apart (R85, R418). -/
def linkedValue (c : Core) (p a : Nat) : W32 :=
  match locate a with
  | some (.ch, n, o) =>
    if o = 0x4E then (c.dev.chCap n).caps &&& 0x00FF0000#32
    else if o = 0x4F then (c.dev.chCap n).caps &&& 0xFF000000#32
    else regPeek c p a
  | _ => regPeek c p a

/-- Where a read of a word that is neither latched nor lowest sets TORN (R418); none for words that are never torn. -/
inductive TornAt where
  | tb | gl | ax (a : Nat) | td (n : Nat) | ts (n : Nat) | port
  deriving DecidableEq, Repr

/-- Is `a` an upper word of a wide value (R429)? TOTAL, POS and UATTR are never torn. -/
def upperWord (d : Dev) (a : Nat) : Option TornAt :=
  match locate a with
  | some (.tb, _, 0x0C) => some .tb
  | some (.gb, _, 0x08) => some .port
  | some (.fm, _, 0x10) => some .port
  | some (.fm, _, 0x30) => some .port
  | some (.cp, _, 0x20) => some .port
  | some (.cp, _, 0x24) => some .port
  | some (.ax, x, 0x28) => some (.ax x)
  | some (.ax, x, 0x2C) => some (.ax x)
  | some (.ax, x, 0x30) => some (.ax x)
  | some (.ax, x, 0x38) => some (.ax x)
  | some (.ic, _, o) => if 0x600 ≤ o ∧ o < 0x800 ∧ o % 8 = 4 then some .port else none
  | some (.ch, n, o) =>
    if o = 0x58 ∨ o = 0x5C ∨ o = 0x60 ∨ o = 0x64 then some (.ts n)
    else if o = 0x18 then (if isStage d n && chEn (d.chOut n) then some (.ts n) else none)
    else if isRemote n then none
    else if o = 0xD4 ∨ o = 0xEC ∨ o = 0xDC then some (.td n)
    else none
  | _ => none

/-- A status bit of HS_STAT. -/
def hsFlag (p b : Nat) (d : Dev) : Dev := d.updHstat p fun h => { h with stat := orBit h.stat b }

/-- TORN for an access of path `p` at BAR0 word `a`; an engine's GREG has no host status. -/
def markTorn (t : TornAt) (p a : Nat) (d : Dev) : Dev :=
  match t with
  | .tb => tbFlag 7 d
  | .gl => glFlag 3 d
  | .ax x => axFlag x 15 d
  | .td n => tdFlag n 12 d
  | .ts n => tsFlag n 3 d
  | .port =>
    if p < 2 then (hsFlag p 3 d).updHstat p fun h => { h with tornAddr := nat32 (a / 4 * 4) } else d

/-- The effect of a read (R228, R243, R298, R303). -/
def readEffect (a : Nat) (d : Dev) : Dev :=
  match locate a with
  | some (.ic, _, o) =>
    if 0x100 ≤ o ∧ o < 0x180 then (icClaim ((o - 0x100) / 4) d).2
    else if 0x500 ≤ o ∧ o < 0x600 then (icChwRead ((o - 0x500) / 4) d).2
    else if 0x600 ≤ o ∧ o < 0x800 ∧ o % 8 = 0 then (icAxwRead ((o - 0x600) / 8) d).2
    else d
  | some (.cp, k, o) => if o = 0x18 then (rxdRead k d).2 else d
  | some (.ch, n, o) =>
    if o = 0x50 then (captureRead n false d).2 else if o = 0x54 then (captureRead n true d).2 else d
  | _ => d

/-- A change of the core's device part. -/
def Core.mapDev (c : Core) (f : Dev → Dev) : Core := { c with dev := f c.dev }

/-- A word of the latch that is not spent yet. -/
def latched (l : List (Nat × W32)) (a : Nat) : Option W32 := (l.find? fun e => e.1 == a).map (·.2)

/-- The latch without one word. -/
def spend (l : List (Nat × W32)) (a : Nat) : List (Nat × W32) := l.filter fun e => e.1 != a

def setLatch (p : Nat) (l : List (Nat × W32)) (d : Dev) : Dev := d.updPath p fun x => { x with latch := l }

/-- A read of CHnnn_CAPS takes the latched G and SG fields once, the rest as it stands (R228). -/
def capsRead (p a : Nat) (c : Core) : W32 × Core :=
  let l := (c.dev.path p).latch
  let v := regPeek c p a
  let v1 := match latched l (a + 2) with | some w => (v &&& ~~~0x00FF0000#32) ||| w | none => v
  let v2 := match latched l (a + 3) with | some w => (v1 &&& ~~~0xFF000000#32) ||| w | none => v1
  (v2, c.mapDev (setLatch p (spend (spend l (a + 2)) (a + 3))))

/-- Is `a` CHnnn_CAPS? -/
def isCaps (a : Nat) : Bool :=
  match locate a with | some (.ch, _, 0x4C) => true | _ => false

/-- A read of a lowest word: the linked words go into the latch, which held something else until now. -/
def lowRead (p a : Nat) (l : List Nat) (c : Core) : W32 × Core :=
  let ws := l.map fun b => (b, linkedValue c p b)
  (regPeek c p a, c.mapDev fun d => readEffect a (setLatch p ws d))

/-- A read of a word that may stand in the latch: once from the latch, else live, with TORN where the word has it. -/
def highRead (p a : Nat) (c : Core) : W32 × Core :=
  match latched (c.dev.path p).latch a with
  | some v => (v, c.mapDev (setLatch p (spend (c.dev.path p).latch a)))
  | none => (regPeek c p a, c.mapDev fun d =>
      match upperWord d a with
      | some t => markTorn t p a d
      | none => readEffect a d)

/-- A read of a BAR0 word through path `p` (R418). -/
def fabricRead (p a : Nat) (c : Core) : W32 × Core :=
  let a := a % 2 ^ 26 / 4 * 4
  if isCaps a then capsRead p a c
  else match linkedWords c.dev a with
    | some l => lowRead p a l c
    | none => highRead p a c

/-- Words that the port stages: the word that commits them and the word's own value in force; a WO register has 0. -/
def stagedOf (a : Nat) : Bool :=
  match locate a with
  | some (.tb, _, 0x18) => true
  | some (.ax, _, 0x18) => true
  | some (.cp, _, 0x30) => true
  | some (.em, _, 0x18) => true
  | _ => false

/-- A write to a lower word of a wide value (R419). -/
def lowWrite (p a : Nat) (v : W32) (d : Dev) : Dev := d.updPath p fun x => { x with stage := some (a, v) }

/-- The commit of a wide value at its highest word: the lower word is `lo` (R48, R93, R240, R375). -/
def commitWide (a : Nat) (lo v : W32) (d : Dev) : Dev :=
  match locate a with
  | some (.tb, _, _) => stepCommit (wide v lo) d
  | some (.ax, x, _) => axOfsWrite x (wide v lo) d
  | some (.cp, k, _) => d.updComp k fun c => wtPut (wide v lo) c
  | some (.em, m, _) => d.updMac m fun x => { x with addr := (wide v lo).setWidth 48 }
  | _ => d

/-- The status in which a torn commit is marked (R418, R419). -/
def commitTorn (a : Nat) : TornAt :=
  match locate a with
  | some (.tb, _, _) => .tb
  | some (.ax, x, _) => .ax x
  | _ => .port

/-- A write to the highest word of a wide value: it commits with the staged lower word, or with the one in force and TORN
(0 for TB_STEP, which is write-only). The stage then empties. -/
def highWrite (p a : Nat) (v : W32) (c : Core) : Core :=
  let inForce := regPeek c p (a - 4)
  match (c.dev.path p).stage with
  | some (b, lo) =>
    if b = a - 4 then c.mapDev fun d => commitWide a lo v (d.updPath p fun x => { x with stage := none })
    else c.mapDev fun d =>
      markTorn (commitTorn a) p a (commitWide a inForce v (d.updPath p fun x => { x with stage := none }))
  | none => c.mapDev fun d => markTorn (commitTorn a) p a (commitWide a inForce v d)

/-- A write of a BAR0 word through path `p` (R419, R430). -/
def fabricWrite (p a : Nat) (v : W32) (c : Core) : Core :=
  let a := a % 2 ^ 26 / 4 * 4
  if stagedOf a then c.mapDev (lowWrite p a v)
  else if 4 ≤ a ∧ stagedOf (a - 4) then highWrite p a v c
  else c.mapDev (regPoke p a v)

/-- R324: may the fabric be reached by the host ports? -/
def fabricUp (d : Dev) : Bool := d.pw.coreUp && d.pw.inReset.isNone

/-- The record of what a port's read answered last (the model's own). -/
def putData (p : Nat) (v : W32) (d : Dev) : Dev := { d with hi := { d.hi with data := Bank.set 0 d.hi.data p v } }

/-- A host write discarded with the core in reset (R324, R420). -/
def dropWrite (p : Nat) (d : Dev) : Dev :=
  hsFlag p 4 (d.updHstat p fun h => { h with dropc := incSat h.dropc })

/-- A read of BAR0 through a host port, or an engine's GREG: while the core is in reset a host reads FFFF_FFFFh. -/
def busRead (p a : Nat) (c : Core) : Core :=
  if p < 2 && !fabricUp c.dev then c.mapDev (putData p 0xFFFFFFFF#32)
  else
    let r := fabricRead p a c
    r.2.mapDev (putData p r.1)

/-- A write of BAR0 through a host port or an engine's GREG. -/
def busWrite (p a : Nat) (v : W32) (c : Core) : Core :=
  if p < 2 && !fabricUp c.dev then c.mapDev (dropWrite p) else fabricWrite p a v c

/-- Where a word of BAR2 stands in the latch. -/
def windowKey (a : Nat) : Nat := 0x4000000 + a

/-- Words of the image that a BAR2 address belongs to: its first address and their number; none where reserved (R143). -/
def windowImage (a : Nat) : Option (Nat × Nat) :=
  if a < 0x800000 then some (a / 32 * 32, 8)
  else if a < 0x810000 then some (a / 16 * 16, 4)
  else if a < 0x818000 then some (a / 32 * 32, 8)
  else none

/-- A read of the galley window through host port `p` (R143). -/
def windowRead (p a : Nat) (c : Core) : Core :=
  let a := a % 2 ^ 24 / 4 * 4
  if !fabricUp c.dev then c.mapDev (putData p 0xFFFFFFFF#32)
  else match windowImage a with
    | none => c.mapDev (putData p 0)
    | some (b, n) =>
      if a = b then
        let ws := (List.range (n - 1)).map fun k => (windowKey (b + 4 * (k + 1)), windowPeek c.dev (b + 4 * (k + 1)))
        c.mapDev fun d => putData p (windowPeek c.dev a) (setLatch p ws d)
      else match latched (c.dev.path p).latch (windowKey a) with
        | some v => c.mapDev fun d => putData p v (setLatch p (spend (c.dev.path p).latch (windowKey a)) d)
        | none => c.mapDev fun d => putData p (windowPeek c.dev a) (glFlag 3 d)

end Sys2Proof.Machine
end

