-- ==== Sys2Proof/Machine/HostPort.lean ====
section
/-! DEFINITION. The host interfaces (19): the PCIe endpoint with its host vectors, the QSPI target, host status. -/

namespace Sys2Proof.Machine

/-! ### Host status (R420) -/

/-- The crossings of port `p` carry its accesses: the core is up and the port's own domain is out of reset. -/
def portLive (p : Nat) (d : Dev) : Bool :=
  fabricUp d && !(if p = 0 then d.hi.pcieReset else d.hi.qspiReset)

/-- HS_STAT of port `p` as read. -/
def hsStatRead (p : Nat) (d : Dev) : W32 :=
  let s := (d.hstat p).stat
  (if p = 0 then clrBit s 6 else s) ||| atBit (bit (d.box p).stat 11) 2 ||| atBit (!portLive p d) 1 ||| atBit d.pw.coreUp 0

/-- A write of HS_STAT: bits [6:3] are W1C. -/
def hsStatWrite (p : Nat) (v : W32) (d : Dev) : Dev := d.updHstat p fun h => { h with stat := w1c 0x78#32 h.stat v }

/-- A bad access of port `p`: BADACC, BADC (R413, R415). -/
def badAccess (p : Nat) (d : Dev) : Dev := hsFlag p 5 (d.updHstat p fun h => { h with badc := incSat h.badc })

/-! ### Host vectors (R422) -/

/-- A message of the endpoint: MSI-X entry `v`, or 4 + the MSI vector. -/
def sendMessage (m : Nat) (d : Dev) : Dev := { d with hi := { d.hi with pcie := { d.hi.pcie with sent := d.hi.pcie.sent ++ [m] } } }

/-- HOST_VECTOR_MESSAGE: the level of host vector `v` rises with its first claimable source. -/
def vectorMessage (v : Nat) (d : Dev) : Dev :=
  if v < 4 ∧ (winner v d).isSome ∧ d.ic.vlevel.getLsbD v = false then
    let d1 := { d with ic := { d.ic with vlevel := d.ic.vlevel ||| BitVec.ofNat 4 (2 ^ v) } }
    let s := d.hi.pcie
    if d.hi.pcieReset then d1
    else if s.msixEn then
      if s.mask.getLsbD v then { d1 with hi := { d1.hi with pcie := { s with pend := s.pend ||| BitVec.ofNat 4 (2 ^ v) } } }
      else sendMessage v d1
    else if s.msiEn then sendMessage (4 + v % s.vectors) d1
    else d1
  else d

/-- MSIX_UNMASK: table entry `v` is unmasked; its pending message goes out while the vector is still 1. -/
def msixUnmask (v : Nat) (d : Dev) : Dev :=
  if 4 ≤ v then d
  else
    let s := d.hi.pcie
    let b := BitVec.ofNat 4 (2 ^ v)
    let d1 := { d with hi := { d.hi with pcie := { s with mask := s.mask &&& ~~~b, pend := s.pend &&& ~~~b } } }
    if s.msixEn && s.pend.getLsbD v && d.ic.vlevel.getLsbD v then sendMessage v d1 else d1

/-- The level of INTA (R422): asserted while any vector is 1, Interrupt Disable is clear and neither MSI nor MSI-X is on. -/
def intaLevel (d : Dev) : Bool := d.ic.vlevel != 0 && !d.hi.pcie.intDis && !d.hi.pcie.msiEn && !d.hi.pcie.msixEn

/-- HQ_INTv_N: driven low (false) while Vv is 1 and LINTEN of the QSPI port is 1. -/
def hqInt (v : Nat) (d : Dev) : Bool := !(d.ic.vlevel.getLsbD v && (d.hstat 1).linten)

/-- A write in PCIe configuration space (R411, R412, R420): HS_STAT and HS_CNT at 108h and 10Ch; Interrupt Disable, bit 10 of
the Command word at 004h; Message Control of the MSI and MSI-X capabilities, named here by capability ID × 1000h + 2, since
the manual does not place them (log entry 28: PRESUMED, PCI Express Base Specification). -/
def configWrite (o : Nat) (v : W32) (d : Dev) : Dev :=
  let put (f : PcieSig → PcieSig) : Dev := { d with hi := { d.hi with pcie := f d.hi.pcie } }
  match o with
  | 0x004 => put fun s => { s with intDis := bit v 10 }
  | 0x108 => hsStatWrite 0 v d
  | 0x10C => d.updHstat 0 fun h => { h with dropc := clearHi h.dropc v, badc := clearLo h.badc v }
  | 0x5002 => put fun s => { s with msiEn := bit v 0, vectors := if fld v 4 3 = 0 then 1 else if fld v 4 3 = 1 then 2 else 4 }
  | 0x11002 => put fun s => { s with msixEn := bit v 15 }
  | _ => d

/-- A write in BAR4: the MSI-X table, 16 bytes an entry; the fourth word holds the mask bit. The pending bits are read-only. -/
def tableWrite (o : Nat) (v : W32) (d : Dev) : Dev :=
  if 64 ≤ o then d
  else if o % 16 = 12 then
    (if bit v 0 then { d with hi := { d.hi with pcie := { d.hi.pcie with mask := d.hi.pcie.mask ||| BitVec.ofNat 4 (2 ^ (o / 16)) } } }
     else msixUnmask (o / 16) d)
  else { d with hi := { d.hi with pcie := { d.hi.pcie with table := Bank.set 0 d.hi.pcie.table (o / 4) v } } }

/-! ### The QSPI target (R414–R416) -/

/-- The status of a QSPI word at `a`, whose transaction began in the space of `first`: OK, ABORT or ERROR (R415). -/
def qspiStatus (first a : Nat) (d : Dev) : Byte :=
  let space := first / 2 ^ 28
  let base := if space = 0 then first % 2 ^ 26 else first % 2 ^ 24
  let off := base + (a - first)
  if 2 ≤ space ∨ a % 4 ≠ 0 ∨ (if space = 0 then 2 ^ 26 else 2 ^ 24) ≤ off then 0x82
  else if portLive 1 d then 0x80
  else 0x81

def qspiOffset (first a : Nat) : Nat := (if first / 2 ^ 28 = 0 then first % 2 ^ 26 else first % 2 ^ 24) + (a - first)

/-- One word of a READ and its status. -/
def qspiReadWord (first a : Nat) (c : Core) : Core :=
  let st := qspiStatus first a c.dev
  let c1 :=
    if st = 0x80 then
      (if first / 2 ^ 28 = 0 then busRead 1 (qspiOffset first a) c else windowRead 1 (qspiOffset first a) c)
    else c.mapDev fun d => putData 1 (if st = 0x81 then 0xFFFFFFFF#32 else 0) (if st = 0x82 then badAccess 1 d else d)
  let v := Bank.get 0 c1.dev.hi.data 1
  c1.mapDev fun d => { d with hi := { d.hi with txn := { d.hi.txn with answers := d.hi.txn.answers ++ [(st, v)] } } }

/-- A write word whose OK is sent takes effect (R416); writes to BAR2 are discarded (R143). -/
def qspiWriteWord (first a : Nat) (v : W32) (c : Core) : Core :=
  let st := qspiStatus first a c.dev
  let c1 :=
    if st = 0x80 then (if first / 2 ^ 28 = 0 then busWrite 1 (qspiOffset first a) v c else c)
    else c.mapDev fun d => if st = 0x81 then dropWrite 1 d else badAccess 1 d
  c1.mapDev fun d => { d with hi := { d.hi with txn := { d.hi.txn with answers := d.hi.txn.answers ++ [(st, v)] } } }

/-- A transaction begins: what a former one left is gone. -/
def qspiBegin (c : Core) : Core := c.mapDev fun d => { d with hi := { d.hi with txn := {} } }

/-- QSPI_READ: `n` words from address `a` have had their status; with `more`, one further word is still in flight. -/
def qspiRead (a n : Nat) (more : Bool) (c : Core) : Core :=
  if c.dev.hi.qspiReset then c
  else
    let c1 := (List.range n).foldl (fun c k => qspiReadWord a (a + 4 * k) c) (qspiBegin c)
    if more && qspiStatus a (a + 4 * n) c1.dev == 0x80 then c1.mapDev fun d => { d with hi := { d.hi with txn := { d.hi.txn with open_ := some (a + 4 * n, none) } } } else c1

/-- The words of a WRITE in order. -/
def qspiWords (first : Nat) : Nat → List W32 → Core → Core
  | _, [], c => c
  | a, v :: l, c => qspiWords first (a + 4) l (qspiWriteWord first a v c)

/-- QSPI_WRITE: the words `l` from address `a` have had their OK; with `more`, one further word awaits its status. -/
def qspiWrite (a : Nat) (l : List W32) (more : Option W32) (c : Core) : Core :=
  if c.dev.hi.qspiReset then c
  else
    let c1 := qspiWords a a l (qspiBegin c)
    match more with
    | some v => c1.mapDev fun d =>
        { d with hi := { d.hi with txn := { d.hi.txn with open_ := some (a + 4 * l.length, some v) } } }
    | none => c1

/-- READ_HOST_STATUS: served in the QSPI domain itself (R414). -/
def readHostStatus (d : Dev) : Dev := putData 1 (hsStatRead 1 d) d

/-- CLEAR_HOST_STATUS: W1C on HS_STAT; bit 0 sets LINTEN (R420). -/
def clearHostStatus (v : W32) (d : Dev) : Dev := (hsStatWrite 1 v d).updHstat 1 fun h => { h with linten := bit v 0 }

/-- TARGET_RESET: the domain resets when HQ_CS_N rises. -/
def targetReset (d : Dev) : Dev := { d with hi := { d.hi with txn := { resetDue := true } } }

/-- QSPI_UNKNOWN_OPCODE: ignored until HQ_CS_N rises; BADOP. -/
def unknownOpcode (d : Dev) : Dev := hsFlag 1 6 { d with hi := { d.hi with txn := { ignored := true } } }

/-- HQ_CS_N_RISE: a TARGET RESET acts now; the access of a word whose status has not been sent is abandoned: a write is
discarded, a read that has crossed (`crossed`) is carried out and its data lost (R416). -/
def csRise (crossed : Bool) (c : Core) : Core :=
  let t := c.dev.hi.txn
  if t.resetDue then c.mapDev fun d => qspiReset 0 { d with hi := { d.hi with txn := {} } }
  else
    let c1 := match t.open_ with
      | some (a, none) =>
        if crossed then
          let old := Bank.get 0 c.dev.hi.data 1
          (qspiReadWord a a c).mapDev (putData 1 old)
        else c
      | _ => c
    c1.mapDev fun d => { d with hi := { d.hi with txn := { answers := t.answers } } }

/-! ### PCIe accesses -/

/-- The core's clocks run: it is out of reset and in RUN or IDLE (R460, R464). -/
def live (d : Dev) : Bool := d.pw.inReset.isNone && (d.pw.state == .run || d.pw.state == .idle)

/-- An access of path `p`: nothing arrives from a port whose domain is in reset, nor from an engine while no clock runs. -/
def viaPort (p : Nat) (f : Core → Core) (c : Core) : Core :=
  if (p == 0 && c.dev.hi.pcieReset) || (p == 1 && c.dev.hi.qspiReset) || (decide (16 ≤ p) && !live c.dev) then c else f c

/-- REGISTER_WRITE: a write of `v` at offset `a` through path `p`: 0 PCIe BAR0, 1 QSPI, 2 PCIe configuration space, 3 BAR4,
16 + e the GREG of engine e. -/
def registerWrite (p a : Nat) (v : W32) (c : Core) : Core :=
  if p = 2 then c.mapDev (configWrite a v)
  else if p = 3 then c.mapDev (tableWrite a v)
  else viaPort p (busWrite p a v) c

end Sys2Proof.Machine
end

