-- ==== Sys2Proof/Machine/Period.lean ====
section
/-! DEFINITION. Arming a change of the tick period: writes of NEXT_ANCHOR and NEXT_PERIOD (01 R16–R20). -/

namespace Sys2Proof.Machine

/-- The grains of a tick period. -/
def periodGrains (p : Nat) : Int := (p : Int) * 64

/-- A TIME64 is a boundary of the period in force (R15). -/
def isBoundary (d : Dev) (t : Time64) : Bool := sdiff t d.tick.anchor % periodGrains d.tick.period == 0

/-- Ticks from the last boundary to `t`, rounded down. -/
def ticksAhead (d : Dev) (t : Time64) : Int := sdiff t d.tick.lastBoundary / periodGrains d.tick.period

/-- A period change of the device as it stands with tick period `p`. -/
def withPeriod (p : Nat) (d : Dev) : Dev := { d with tick := { d.tick with period := p } }

/-- The plan in force of port `p` keeps R30 at the tick period of `d`. -/
def planFits (d : Dev) (p : Nat) : Bool := (planSlot d p fun h => (d.head h).use).isSome

/-- R19: what a new tick period leaves of a port's tick. ACYLEN is what its plan leaves; a port whose plan no longer fits sets PLAN_ERR,
makes no further cyclic exchange, and its acyclic slot runs from PLANOFS. -/
def settlePort (p : Nat) (d : Dev) : Dev :=
  let f := d.fp p
  if !fpEn f then d
  else match planSlot d p fun h => (d.head h).use with
    | some n => d.updFp p fun f => if f.unplanned then { f with acylen := BitVec.ofNat 16 (d.tick.period / fpBt f - fpOfs f) } else { f with acylen := BitVec.ofNat 16 n }
    | none => fpFlag p 9 (d.updFp p fun f => { f with
        unplanned := true, pend := 0, acylen := BitVec.ofNat 16 (d.tick.period / fpBt f - fpOfs f) })

/-- A new tick period reaches the field ports (R19). -/
def settlePorts (d : Dev) : Dev := forEach (d.fps.map (·.1)) settlePort d

/-- The checks of R19: field-port plans, and the cyclic window of every MAC in LINK_MASK. -/
def periodBreaks (p : Nat) (d : Dev) : Bool :=
  let d1 := withPeriod p d
  ((List.range 64).any fun q => fpEn (d.fp q) && !planFits d1 q) ||
    ((List.range 4).any fun m => Nat.testBit d.lk.cfg.linkMask m && decide (p < d.lk.cfg.linkOffset + d.lk.cfg.cyclicLength))

/-- R18: a non-zero NEXT_PERIOD is rejected. -/
def periodRejected (p : Nat) (d : Dev) : Bool :=
  decide (p < 3907) || decide (250000 < p) || !isBoundary d d.tick.nextAnchor ||
    decide (ticksAhead d d.tick.nextAnchor < 64) || decide (32767 < ticksAhead d d.tick.nextAnchor) || periodBreaks p d

/-- NEXT_PERIOD_WRITE (R18). -/
def nextPeriodWrite (v : W32) (d : Dev) : DictCode × Dev :=
  if roleWorker d then (.role, d)
  else if v = 0 then
    (.ok, { d with tick := { d.tick with nextPeriod := 0, change := if d.tick.change = 1 then 0 else d.tick.change } })
  else if periodRejected v.toNat d then (.state, { d with tick := { d.tick with nextPeriod := 0, change := 3 } })
  else (.ok, { d with tick := { d.tick with nextPeriod := v, change := 1 } })

/-- NEXT_ANCHOR_WRITE (R18): the anchor is kept; a pending change is cancelled. -/
def nextAnchorWrite (v : Time64) (d : Dev) : DictCode × Dev :=
  if roleWorker d then (.role, d)
  else if d.tick.change = 1 then (.ok, { d with tick := { d.tick with nextAnchor := v, nextPeriod := 0, change := 0 } })
  else (.ok, { d with tick := { d.tick with nextAnchor := v } })

end Sys2Proof.Machine
end

