-- ==== Sys2Proof/Machine/ObjBase.lean ====
section
/-! DEFINITION. The frame of the object dictionary (17 R378, R379): types, access, and the ways an object maps onto the
state: a register field, a value with a rule of its own, a count. -/

namespace Sys2Proof.Machine

/-- Type codes (R378). -/
def tyBool : Nat := 1
def tyU8 : Nat := 2
def tyU16 : Nat := 3
def tyU32 : Nat := 4
def tyU64 : Nat := 5
def tyI8 : Nat := 6
def tyI16 : Nat := 7
def tyI32 : Nat := 8
def tyI64 : Nat := 9
def tyAng : Nat := 10
def tyTime : Nat := 11
def tyString : Nat := 12
def tyDomain : Nat := 13

/-- Bytes of a type; 0 for the variable ones. -/
def typeSize (t : Nat) : Nat :=
  match t with
  | 1 | 2 | 6 => 1
  | 3 | 7 => 2
  | 4 | 8 => 4
  | 5 | 9 | 10 | 11 => 8
  | _ => 0

/-- An object: type, access (0 RO, 1 RW, 2 WO, 3 RWK, 4 CONST), whether it is persistent (R387), the limit of its value in
bytes, what a read returns, and what a checked write of a value does. -/
structure Obj where
  ty : Nat
  acc : Nat
  persist : Bool
  limit : Nat
  rd : DictWho → Core → List Byte
  wr : DictWho → List Byte → Core → DictCode × Core

def noWrite : DictWho → List Byte → Core → DictCode × Core := fun _ _ c => (.readOnly, c)

/-- Objects whose value is a number. -/
def roNat (ty : Nat) (f : Core → Nat) : Obj := ⟨ty, 0, false, typeSize ty, fun _ c => beBytes (typeSize ty) (f c), noWrite⟩
def constNat (ty n : Nat) : Obj := ⟨ty, 4, false, typeSize ty, fun _ _ => beBytes (typeSize ty) n, noWrite⟩
def woNat (ty : Nat) (g : Nat → Core → DictCode × Core) : Obj :=
  ⟨ty, 2, false, typeSize ty, fun _ _ => [], fun _ l c => g (beNat l) c⟩
def rwNat (ty : Nat) (f : Core → Nat) (g : Nat → Core → DictCode × Core) : Obj :=
  ⟨ty, 1, true, typeSize ty, fun _ c => beBytes (typeSize ty) (f c), fun _ l c => g (beNat l) c⟩
def rwkNat (ty : Nat) (persist : Bool) (f : Core → Nat) (g : Nat → Core → DictCode × Core) : Obj :=
  ⟨ty, 3, persist, typeSize ty, fun _ c => beBytes (typeSize ty) (f c), fun _ l c => g (beNat l) c⟩

/-- Objects whose value is bytes. -/
def roBytes (limit : Nat) (f : Core → List Byte) : Obj := ⟨tyDomain, 0, false, limit, fun _ c => f c, noWrite⟩
def rwBytes (limit : Nat) (f : Core → List Byte) (g : List Byte → Core → DictCode × Core) : Obj :=
  ⟨tyDomain, 1, true, limit, fun _ c => f c, fun _ l c => g l c⟩

/-- An RW value that is not persistent. -/
def Obj.volatile (o : Obj) : Obj := { o with persist := false }

/-- A count that writing 0 clears; every other value is refused with RANGE (R379). -/
def countObj (ty : Nat) (f : Dev → Nat) (clear : Dev → Dev) : Obj :=
  (rwNat ty (fun c => f c.dev) fun v c => if v = 0 then (.ok, c.mapDev clear) else (.range, c)).volatile

/-- A value of the device kept in a range of numbers. -/
def rangeObj (ty : Nat) (f : Dev → Nat) (lo hi : Nat) (g : Nat → Dev → Dev) : Obj :=
  rwNat ty (fun c => f c.dev) fun v c => if v < lo ∨ hi < v then (.range, c) else (.ok, c.mapDev (g v))

/-- A signed value of `n` bits from a number of its bytes. -/
def signedOf (n v : Nat) : Int := (BitVec.ofNat n v).toInt

/-- A signed value of the device kept in a range. -/
def srangeObj (ty bits : Nat) (f : Dev → Int) (lo hi : Int) (g : Int → Dev → Dev) : Obj :=
  rwNat ty (fun c => (BitVec.ofInt bits (f c.dev)).toNat) fun v c =>
    if signedOf bits v < lo ∨ hi < signedOf bits v then (.range, c) else (.ok, c.mapDev (g (signedOf bits v)))

/-- A register as an engine's bus sees it (no host port is in play). -/
def reg (c : Core) (a : Nat) : W32 := regPeek c 16 a

/-- A write of a register field, the rest of the word as it reads: accepted if the field then holds the value (its
reserved bits aside), and refused by the block's rules otherwise, with the flag the register write sets (R379). -/
def regSet (a lo len mask v : Nat) (c : Core) : DictCode × Core :=
  let c1 := c.mapDev (regPoke 16 a (setFld (reg c a) lo len v))
  if fld (reg c1 a) lo len = v &&& mask then (.ok, c1)
  else (.state, if fld (reg c1 a) lo len = fld (reg c a) lo len then c1 else c)

/-- An object on a register field: value = field + `off`, between `mn` and `mx`. A value out of range that the field could hold
sets the flag that the register write would set (R379). -/
def fieldObj (ty a lo len off mn mx : Nat) : Obj :=
  rwNat ty (fun c => fld (reg c a) lo len + off) fun v c =>
    if v < mn ∨ mx < v then
      if v < off ∨ 2 ^ len ≤ v - off then (.range, c)
      else
        let r := regSet a lo len (2 ^ len - 1) (v - off) c
        (.range, if r.1 = .ok then c else r.2)
    else regSet a lo len (2 ^ len - 1) (v - off) c

/-- An object on a whole register word, of which the bits in `mask` are not reserved. -/
def wordObj (a mask : Nat) : Obj := rwNat tyU32 (fun c => (reg c a).toNat) fun v c => regSet a 0 32 mask v c

/-- A BOOL on a register bit. -/
def bitObj (a b : Nat) : Obj := fieldObj tyBool a b 1 0 0 1

/-- A read-only object on a register field. -/
def roField (ty a lo len : Nat) : Obj := roNat ty fun c => fld (reg c a) lo len

/-- Two register words as one value, the low word first. -/
def roWide (ty a : Nat) : Obj := roNat ty fun c => (wide (reg c (a + 4)) (reg c a)).toNat

/-- An act whose refusal sets a bit of `mask` in a status word: the code, and the flags set as they were and as it set them. -/
def flagged (get : Dev → W32) (put : W32 → Dev → Dev) (mask : W32) (act : Dev → Dev) (c : Core) : DictCode × Core :=
  let old := get c.dev
  let d1 := act (put (old &&& ~~~mask) c.dev)
  let refused := get d1 &&& mask ≠ 0
  (if refused then .state else .ok, { c with dev := put (get d1 ||| (old &&& mask)) d1 })

/-- Bytes of 32-bit words, each most significant byte first. -/
def wordBytes (l : List W32) : List Byte := l.flatMap fun w => beBytes 4 w.toNat

/-- Words of bytes, four at a time. -/
def bytesWord (l : List Byte) (i : Nat) : W32 := BitVec.ofNat 32 (beNat (slice l (4 * i) 4))

end Sys2Proof.Machine
end

