-- ==== Sys2Proof/Machine/ObjChan.lean ====
section
/-! DEFINITION. The objects of channels, decoders, axes, bridge pairs, trip inputs, compositors, engines, field ports and
heads (tables of 03–11, 15; 17 R377). -/

namespace Sys2Proof.Machine

/-! ### Channels (3000h + n) -/

/-- The capture time that requester `w` has latched for this object and not read yet (R232). -/
def capLatched (w : DictWho) (index sub : Nat) (d : Dev) : Option Time64 :=
  match (d.user (whoNo w)).capTime with
  | some (i, k, t) => if i = index ∧ k = sub then some t else none
  | none => none

/-- CAP0_TIME and CAP1_TIME: the latched time, or the live one (R232). -/
def capTimeObj (n sub a : Nat) : Obj :=
  ⟨tyTime, 0, false, 8, fun w c =>
    beBytes 8 ((capLatched w (0x3000 + n) sub c.dev).getD (wide (reg c (a + 4)) (reg c a))).toNat, noWrite⟩

/-- A compare register object: the write goes to the shadow or straight into force (R169); PERIOD is refused where the
register write would be. -/
def compareObj (n r : Nat) (get : ChanOut → W32) : Obj :=
  rwNat tyU32 (fun c => (get (landed (c.dev.chOut n))).toNat) fun v c =>
    flagged (fun d => (d.chOut n).stat) (fun w d => d.updOut n fun o => { o with stat := w }) 8#32
      (compareWrite n r (BitVec.ofNat 32 v)) c

/-- RISE_GRAIN and FALL_GRAIN: a field of CMPG, of its shadow while SHD = 1. -/
def grainObj (n lo : Nat) : Obj :=
  rwNat tyU8 (fun c => fld (landed (c.dev.chOut n)).cmpg lo 6) fun v c =>
    if 64 ≤ v then (.range, c)
    else
      let o := landed (c.dev.chOut n)
      (.ok, c.mapDev (compareWrite n 20 (setFld (if chShd o then o.scmpg else o.cmpg) lo 6 v)))

/-- QUOIN_GROUP: FFh clears QEN, 0–31 sets it with the group. -/
def quoinObj (n : Nat) : Obj :=
  rwNat tyU8 (fun c => if chQen (c.dev.chOut n) then chQg (c.dev.chOut n) else 255) fun v c =>
    if v = 255 then regSet (baseCh n) 25 1 1 0 c
    else if v < 32 then regSet (baseCh n) 20 6 63 (32 + v) c else (.range, c)

/-- PATTERN: WPAT and the eight gaps as nine words, empty while they stand at reset. -/
def patternObj (n : Nat) : Obj :=
  let words (d : Dev) : List W32 := (d.dec n).cfg.wpat :: (List.range 8).map fun i => Bank.get 0 (d.dec n).cfg.wgap i
  let put (l : List Byte) (d : Dev) : Dev :=
    forEach (List.range 9) (fun i d => decWordWrite n (0xA0 + 4 * i) (if l = [] then (if i = 0 then 0x180000#32 else 0) else bytesWord l i) d) d
  rwBytes 36 (fun c => if words c.dev = 0x180000#32 :: List.replicate 8 0 then [] else wordBytes (words c.dev)) fun l c =>
    if l ≠ [] ∧ l.length ≠ 36 then (.typeErr, c)
    else flagged (fun d => (d.dec n).tdstat) (fun w d => d.updDec n fun x => { x with tdstat := w }) 8#32 (put l) c

def chanOut (n sub : Nat) : Option Obj :=
  let b := baseCh n
  match sub with
  | 0x01 => some (bitObj b 31)
  | 0x02 => some (fieldObj tyU8 b 29 2 0 0 3)
  | 0x03 => some (fieldObj tyU8 b 27 2 0 0 3)
  | 0x04 => some (bitObj b 26)
  | 0x05 => some (quoinObj n)
  | 0x06 => some (compareObj n 8 (·.per))
  | 0x07 => some (compareObj n 12 (·.cmpr))
  | 0x08 => some (grainObj n 8)
  | 0x09 => some (compareObj n 16 (·.cmpf))
  | 0x0A => some (grainObj n 0)
  | 0x0B => some (rwNat tyU8 (fun c => fld (reg c (b + 4)) 0 8) fun v c => regSet (b + 4) 0 8 0xFC v c)
  | 0x0C => some (wordObj (b + 0x24) 0xF8FF0FFF)
  | 0x0D => some (wordObj (b + 0x28) 0x1FFFFFF)
  | 0x0E => some (wordObj (b + 0x2C) 0x3FFFFFF)
  | 0x0F => some (wordObj (b + 0x34) (if isRemote n then 0x7FF000F else 0xF))
  | 0x10 => some (roField tyU32 (b + 0x1C) 0 32)
  | 0x20 => some (fieldObj tyU8 (b + 0x40) 28 2 0 0 3)
  | 0x21 => some (fieldObj tyU32 (b + 0x40) 0 16 1 1 65536)
  | 0x22 => some (bitObj (b + 0x40) 31)
  | 0x23 => some (bitObj (b + 0x40) 30)
  | 0x24 => some (bitObj (b + 0x40) 27)
  | 0x25 => some (wordObj (b + 0x44) 0xFFFFFF)
  | 0x26 => some (rwNat tyU16 (fun c => fld (reg c (b + 0x48)) 16 16) fun v c => regSet (b + 0x48) 16 16 0xFF80 v c)
  | 0x27 => some (fieldObj tyU32 (b + 0x48) 0 16 1 1 65536)
  | 0x28 => some (rwNat tyU32 (fun c => (c.dev.chCnt n).cnt.toNat) fun v c => (.ok, c.mapDev (countWrite n (BitVec.ofNat 32 v))))
  | 0x29 => some (roBytes 16 fun c =>
      if isStage c.dev n then [] else wordBytes ((n :: stagesAbove c.dev n).map fun k => (c.dev.chCnt k).cnt))
  | 0x2A => some (roField tyU32 (b + 0x50) 0 32)
  | 0x2B => some (capTimeObj n 0x2B (b + 0x58))
  | 0x2C => some (roField tyU32 (b + 0x54) 0 32)
  | 0x2D => some (capTimeObj n 0x2D (b + 0x60))
  | 0x2E => some (roField tyU32 (b + 0x4C) 0 32)
  | 0x2F => some (woNat tyU32 fun v c =>
      flagged (fun d => (d.chCnt n).tstat) (fun w d => d.updCnt n fun x => { x with tstat := w }) 4#32 (ccmdWrite n (BitVec.ofNat 32 v)) c)
  | _ => none

/-- Pin stage and decoder of CH000–CH255. -/
def decObj (n sub : Nat) : Option Obj :=
  let b := baseCh n
  if isRemote n then none
  else match sub with
  | 0x40 => some (fieldObj tyU16 (b + 0x80) 0 8 1 1 256)
  | 0x41 => some (fieldObj tyU8 (b + 0x80) 8 2 0 0 2)
  | 0x42 => some (fieldObj tyU32 (b + 0x84) 0 16 1 1 65536)
  | 0x43 => some (fieldObj tyU8 (b + 0x88) 2 3 0 0 5)
  | 0x44 => some (fieldObj tyU16 (b + 0x88) 13 12 0 0 4095)
  | 0x45 => some (fieldObj tyU32 (b + 0x8C) 0 16 1 1 65536)
  | 0x46 => some (fieldObj tyU32 (b + 0x90) 0 20 0 0 0xFFFFF)
  | 0x47 => some (fieldObj tyU32 (b + 0x94) 0 20 0 0 0xFFFFF)
  | 0x48 => some (fieldObj tyU32 (b + 0x98) 0 20 0 0 0xFFFFF)
  | 0x49 => some (patternObj n)
  | 0x4A => some (wordObj (b + 0x9C) 0xFFF)
  | 0x4B => some (bitObj (b + 0x88) 0)
  | 0x4C => some (roField tyU32 (b + 0xC8) 0 32)
  | 0x4D => some (roField tyI32 (b + 0xCC) 0 32)
  | _ => none

def chanObj (n sub : Nat) : Option Obj := if sub < 0x40 then chanOut n sub else decObj n sub

/-! ### Axes (4000h + a) -/

/-- The segment that gives SPEED and ACCEL: the model or segment in force. -/
def speedNow (d : Dev) (a : Nat) : W64 :=
  if segInForce (d.axis a) then speedOut (segSpeed (axisSeg d a) (d.axis a).trk.angT) else 0
def accelNow (d : Dev) (a : Nat) : W64 :=
  if segInForce (d.axis a) then BitVec.ofInt 64 ((axisSeg d a).a.toInt * grainsPerS * grainsPerS / 2 ^ 64) else 0

def updAxCfg (a : Nat) (f : AxisCfg → AxisCfg) (d : Dev) : Dev := d.updAxis a fun x => { x with cfg := f x.cfg }

def axisObj (a sub : Nat) : Option Obj :=
  let b := baseAx a
  match sub with
  | 0x01 => some (bitObj b 31)
  | 0x02 => some (fieldObj tyU8 b 28 3 0 0 3)
  | 0x03 => some (fieldObj tyU8 b 25 3 0 0 3)
  | 0x04 => some (fieldObj tyU16 (b + 4) 0 12 0 0 4095)
  | 0x05 => some (fieldObj tyU32 (b + 8) 0 25 0 0 16777216)
  | 0x06 => some (fieldObj tyU8 b 10 5 0 4 16)
  | 0x07 => some (fieldObj tyU8 b 15 5 1 2 32)
  | 0x08 => some (fieldObj tyU16 (b + 0xC) 0 16 0 64 240)
  | 0x09 => some (fieldObj tyU16 (b + 0xC) 16 16 0 272 1024)
  | 0x0A => some (fieldObj tyU8 b 22 1 0 0 1)
  | 0x0B => some (bitObj b 21)
  | 0x0C => some (wordObj (b + 0x10) 0xFFFFFFFF)
  | 0x0D => some (wordObj (b + 0x14) 0xFFFFFFFF)
  | 0x0E => some (rwNat tyAng (fun c => (c.dev.axis a).cfg.ofs.toNat) fun v c => (.ok, c.mapDev (axOfsWrite a (BitVec.ofNat 64 v))))
  | 0x0F => some (rwNat tyAng (fun c => (c.dev.axis a).cfg.gear.toNat) fun v c =>
      (.ok, c.mapDev (updAxCfg a fun x => { x with gear := BitVec.ofNat 64 v })))
  | 0x10 => some (bitObj b 20)
  | 0x11 => some (fieldObj tyU8 b 23 2 0 0 3)
  | 0x12 => some (rwNat tyI32 (fun c => (c.dev.axis a).cfg.aoqOfs.toNat) fun v c =>
      (.ok, c.mapDev (updAxCfg a fun x => { x with aoqOfs := BitVec.ofNat 32 v })))
  | 0x13 => some (rangeObj tyU8 (fun d => (d.axis a).cfg.remoteMiss) 1 64 fun v => updAxCfg a fun x => { x with remoteMiss := v })
  | 0x14 => some (rangeObj tyU8 (fun d => (d.axis a).cfg.coastLimit) 1 255 fun v => updAxCfg a fun x => { x with coastLimit := v })
  | 0x20 => some (roField tyU8 (b + 0x20) 0 3)
  | 0x21 => some (roWide tyAng (b + 0x24))
  | 0x22 => some (roNat tyI64 fun c => (speedNow c.dev a).toNat)
  | 0x23 => some (roNat tyI64 fun c => (accelNow c.dev a).toNat)
  | 0x24 => some (roWide tyI64 (b + 0x34))
  | 0x25 => some (roNat tyTime fun c => match (c.dev.axis a).st.angRead with
      | some t => t.toNat
      | none => (wide (reg c (b + 0x30)) (reg c (b + 0x2C))).toNat)
  | 0x26 => some (roField tyU32 (b + 0x20) 0 32)
  | 0x27 => some (roField tyU32 (b + 0x40) 16 16)
  | 0x28 => some (roField tyU32 (b + 0x40) 0 16)
  | 0x29 => some (roField tyU32 (b + 0x44) 16 16)
  | 0x2A => some (roField tyU32 (b + 0x44) 0 16)
  | 0x2B => some (roField tyI32 (b + 0x48) 0 32)
  | 0x30 => some (fieldObj tyU16 (b + 0x4C) 0 9 0 0 256)
  | 0x31 => some (roField tyU32 (b + 0x50) 10 19)
  | 0x32 => some (roField tyU16 (b + 0x50) 0 10)
  | 0x33 => some (roNat tyBool fun c => if (c.dev.axis a).st.policyBusy then 1 else 0)
  | _ => none

/-! ### Bridge pairs (3200h + p) and trip inputs (2020h + i) -/

/-- ENABLE of a pair: 1 under R199, 0 under R200; it needs a key. -/
def pairEnableObj (p : Nat) : Obj :=
  rwkNat tyBool false (fun c => fld (c.dev.pair p).ctl 31 1) fun v c =>
    if v = 1 then flagged (fun d => (d.pair p).stat) (fun w d => d.updPair p fun x => { x with stat := w }) 0x4000#32 (pairEnable p) c
    else (.ok, c.mapDev (pairDisable p))

/-- RESUME (R205). -/
def pairResumeObj (p : Nat) : Obj :=
  rwkNat tyBool false (fun _ => 0) fun v c =>
    if v = 1 then flagged (fun d => (d.pair p).stat) (fun w d => d.updPair p fun x => { x with stat := w }) 0x4000#32 (pairResume p) c
    else (.ok, c)

/-- POLARITY: bit 0 POLH, bit 1 POLL, which stand in CTL the other way round. -/
def polarityObj (b : Nat) : Obj :=
  rwNat tyU8 (fun c => fld (reg c b) 27 1 + 2 * fld (reg c b) 26 1) fun v c =>
    if 4 ≤ v then (.range, c) else regSet b 26 2 3 (v % 2 * 2 + v / 2) c

def pairObj (p sub : Nat) : Option Obj :=
  let b := 0x20000 + p * 64
  match sub with
  | 0x01 => some (pairEnableObj p)
  | 0x02 => some (fieldObj tyU8 b 30 1 0 0 1)
  | 0x03 => some (fieldObj tyU8 b 29 1 0 0 1)
  | 0x04 => some (rwNat tyU16 (fun c => fld (reg c b) 0 10) fun v c => if 1024 ≤ v then (.range, c) else regSet b 0 10 0x3FF v c)
  | 0x05 => some (fieldObj tyU8 b 28 1 0 0 1)
  | 0x06 => some (fieldObj tyU32 (b + 4) 0 18 0 0 262143)
  | 0x07 => some (fieldObj tyU32 (b + 8) 0 18 0 0 262143)
  | 0x08 => some (fieldObj tyU32 (b + 0xC) 0 24 0 0 0xFFFFFF)
  | 0x09 => some (fieldObj tyU16 (b + 0x10) 0 12 0 0 4095)
  | 0x0A => some (polarityObj b)
  | 0x0B => some (fieldObj tyU16 b 10 16 0 0 65535)
  | 0x0C => some (roField tyU32 (b + 0x28) 0 12)
  | 0x0D => some (roField tyU8 (b + 0x14) 0 2)
  | 0x0E => some (roField tyU32 (b + 0x14) 0 32)
  | 0x0F => some (woNat tyBool fun v c => (.ok, if v = 1 then c.mapDev (pairDisable p) else c))
  | 0x10 => some (pairResumeObj p)
  | 0x11 => some (roField tyU32 (b + 0x1C) 16 16)
  | 0x12 => some (roField tyU32 (b + 0x1C) 0 16)
  | 0x13 => some (roField tyU32 (b + 0x20) 16 16)
  | 0x14 => some (roField tyU32 (b + 0x20) 0 16)
  | _ => none

/-- LATCHED: writing 0 clears under R205, other values are refused. -/
def latchedObj (i : Nat) : Obj :=
  (rwNat tyBool (fun c => if (c.dev.trip i).latch then 1 else 0) fun v c =>
    if v ≠ 0 then (.range, c)
    else
      let c1 := c.mapDev (latchClear i)
      (if (c1.dev.trip i).latch then .state else .ok, c1)).volatile

def tripObj (i sub : Nat) : Option Obj :=
  let b := 0x15000 + i * 16
  match sub with
  | 0x01 => some (bitObj b 31)
  | 0x02 => some (bitObj b 30)
  | 0x03 => some (fieldObj tyU8 b 16 4 1 1 16)
  | 0x04 => some (fieldObj tyU16 b 0 10 0 0 1023)
  | 0x05 => some (latchedObj i)
  | 0x06 => some (roField tyU32 (b + 0xC) 16 16)
  | 0x07 => some (roField tyU32 (b + 0xC) 0 16)
  | 0x08 => some (woNat tyBool fun v c => (.ok, if v = 1 then c.mapDev (softTrip i) else c))
  | _ => none

/-! ### Compositors (3300h + k) -/

/-- PROGRAM: words from IMEM00, four bytes each, lowest byte first; words the value does not reach become 0. -/
def programObj (k : Nat) : Obj :=
  let words (d : Dev) : List W32 := (List.range 64).map fun i => Bank.get 0 (d.comp k).imem i
  let used (l : List W32) : List W32 := (l.reverse.dropWhile (· == 0#32)).reverse
  rwBytes 256 (fun c => (used (words c.dev)).flatMap fun w => leBytes 4 w.toNat) fun l c =>
    if l.length % 4 ≠ 0 then (.typeErr, c)
    else if (c.dev.comp k).run then (.state, c.mapDev (cpFlag k 7))
    else (.ok, c.mapDev fun d => forEach (List.range 64)
      (fun i d => programWrite k (0x100 + 4 * i) (BitVec.ofNat 32 (leNat (slice l (4 * i) 4))) d) d)

/-- TXD: a write that finds it full is ignored with TXOVR (R243). -/
def txdObj (k : Nat) : Obj :=
  woNat tyU32 fun v c =>
    flagged (fun d => (d.comp k).r.stat) (fun w d => d.updComp k fun x => { x with r := { x.r with stat := w } }) 0x800#32
      (txdWrite k (BitVec.ofNat 32 v)) c

/-- COMMAND: CPnn_CMD; a refused one sets CFG_ERR. -/
def cpCommandObj (k : Nat) : Obj :=
  woNat tyU8 fun v c =>
    if 32 ≤ v then (.range, c)
    else flagged (fun d => (d.comp k).r.stat) (fun w d => d.updComp k fun x => { x with r := { x.r with stat := w } }) 0x20#32
      (cpCmdWrite k (BitVec.ofNat 32 v)) c

def compObj (k sub : Nat) : Option Obj :=
  let b := baseCp k
  match sub with
  | 0x01 => some (bitObj b 31)
  | 0x02 => some (fieldObj tyU32 b 0 16 1 1 65536)
  | 0x03 => some (rwNat tyU8 (fun c => fld (reg c b) 30 1 + 2 * fld (reg c b) 29 1) fun v c =>
      if 4 ≤ v then (.range, c) else regSet b 29 2 3 (v % 2 * 2 + v / 2) c)
  | 0x04 => some (fieldObj tyU8 b 16 7 0 0 127)
  | 0x05 => some (wordObj (b + 4) 0xFF0FFFFF)
  | 0x06 => some (programObj k)
  | 0x07 => some (fieldObj tyU8 (b + 0x10) 0 6 0 0 63)
  | 0x08 => some (cpCommandObj k)
  | 0x09 => some (roField tyU32 (b + 0xC) 0 32)
  | 0x0A => some (txdObj k)
  | 0x0B => some (roField tyU32 (b + 0x18) 0 32)
  | 0x0C => some (rwNat tyTime (fun c => (c.dev.comp k).r.wt.toNat) fun v c =>
      (.ok, c.mapDev (commitWide (b + 0x34) (BitVec.ofNat 32 v) (BitVec.ofNat 32 (v / 2 ^ 32)))))
  | 0x0D => some (fieldObj tyU8 (b + 0x38) 0 8 0 0 255)
  | _ => none

/-! ### Engines (2030h + e) -/

/-- CUSTOMER_CMD: bit 0 CSTART, bit 1 CHALT. -/
def customerCmd (e : Nat) : Obj :=
  woNat tyU8 fun v c =>
    if 4 ≤ v then (.range, c)
    else flagged (fun d => (d.eng e).stat) (fun w d => d.updEng e fun g => { g with stat := w }) 0x1000#32
      (fun d => let d1 := if v % 2 = 1 then cstart e d else d; if 2 ≤ v then chalt e d1 else d1) c

def engineObj (e sub : Nat) : Option Obj :=
  let b := 0x16000 + e * 64
  match sub with
  | 0x01 => some (rwNat tyBool (fun c => 1 - fld (reg c b) 0 1) fun v c => regSet b 0 1 1 (1 - v) c)
  | 0x02 => some (fieldObj tyBool b 2 1 0 0 1)
  | 0x03 => some (roField tyU32 (b + 4) 0 32)
  | 0x04 => some (roField tyU32 (b + 8) 0 32)
  | 0x05 => some (roField tyU32 (b + 0x14) 16 16)
  | 0x06 => some (roField tyU32 (b + 0x14) 0 16)
  | 0x07 => some (fieldObj tyU16 (b + 0xC) 0 15 0 0 0x7FFF)
  | 0x08 => some (customerCmd e)
  | 0x09 => some (bitObj b 7)
  | 0x0A => some (fieldObj tyU8 b 5 2 0 2 3)
  | 0x0B => some (roField tyU32 (b + 0x10) 0 32)
  | 0x0C => some (roField tyU16 (b + 0x18) 0 16)
  | _ => none

/-! ### Field ports (3400h + p) and heads (3500h + h) -/

/-- COMMAND: bit 0 LOAD, bit 1 ENUM; a refusal sets CFG_BUSY, PLAN_ERR or CFG_ERR. -/
def fpCommandObj (p : Nat) : Obj :=
  woNat tyU8 fun v c =>
    if 4 ≤ v then (.range, c)
    else flagged (fun d => (d.fp p).stat) (fun w d => d.updFp p fun f => { f with stat := w }) 0x604#32 (fpCmdWrite p (BitVec.ofNat 32 v)) c

def portObj (p sub : Nat) : Option Obj :=
  let b := 0x24000 + p * 64
  match sub with
  | 0x01 => some (bitObj b 31)
  | 0x02 => some (fieldObj tyU16 b 8 8 1 5 256)
  | 0x03 => some (fieldObj tyU8 b 28 3 0 0 7)
  | 0x04 => some (fieldObj tyU8 b 0 8 0 0 255)
  | 0x05 => some (fpCommandObj p)
  | 0x06 => some (roField tyU16 (b + 0xC) 16 16)
  | 0x07 => some (roField tyU16 (b + 0xC) 0 16)
  | 0x08 => some (roField tyU32 (b + 4) 0 32)
  | 0x09 => some (roField tyU32 (b + 0x10) 16 16)
  | 0x0A => some (roField tyU32 (b + 0x10) 0 16)
  | 0x0B => some (roField tyU32 (b + 0x14) 16 16)
  | 0x0C => some (roField tyU32 (b + 0x14) 0 16)
  | 0x0D => some (roField tyU32 (b + 0x18) 16 16)
  | 0x0E => some (roField tyU32 (b + 0x18) 0 16)
  | 0x0F => some (roField tyU32 (b + 0x1C) 16 16)
  | 0x10 => some (roField tyU32 (b + 0x1C) 0 16)
  | _ => none

/-- RATE_DIVIDER: 2^RDIV, 1 to 64. -/
def rateObj (b : Nat) : Obj :=
  rwNat tyU8 (fun c => 2 ^ fld (reg c b) 28 3) fun v c =>
    match [1, 2, 4, 8, 16, 32, 64].idxOf? v with
    | some k => regSet b 28 3 7 k c
    | none => (.range, c)

/-- PARAM_DATA: a plain write is queued by the service (R345); what a read returns comes from the head. -/
def paramObj : Obj := ⟨tyDomain, 1, false, 248, fun _ _ => [], fun _ _ c => (.ok, c)⟩

def headObj (h sub : Nat) : Option Obj :=
  let b := 0x30000 + h * 32
  match sub with
  | 0x01 => some (bitObj b 31)
  | 0x02 => some (rateObj b)
  | 0x03 => some (fieldObj tyU8 b 22 6 0 0 63)
  | 0x04 => some (fieldObj tyU8 b 16 4 0 0 8)
  | 0x05 => some (roField tyU8 b 0 2)
  | 0x06 => some (roNat tyU8 fun c => (c.dev.head h).version.toNat)
  | 0x07 => some (roNat tyU8 fun c => (c.dev.head h).cap.toNat % 256)
  | 0x08 => some (roField tyU32 (b + 0xC) 0 20)
  | 0x09 => some (roField tyU16 (b + 8) 16 16)
  | 0x0A => some (roField tyU32 (b + 4) 0 32)
  | 0x20 => some (rangeObj tyU8 (fun d => (d.head h).paramIndex.toNat) 0 255 fun v d =>
      d.updHead h fun x => { x with paramIndex := BitVec.ofNat 8 v }).volatile
  | 0x21 => some paramObj
  | _ => none

end Sys2Proof.Machine
end

