-- ==== Sys2Proof/Machine/ObjDev.lean ====
section
/-! DEFINITION. The objects that belong to the device: keys, domain, timebase, tick, galley, engines' store, interrupts,
crossings, fastness, power, dictionary, long operations, trace and customer range (tables of 01, 02, 05, 06, 12–14, 16–18,
21–23; 17 R377, R391–R394). -/

namespace Sys2Proof.Machine

/-! ### Keys and lifecycle (1010h, 1012h–1015h) -/

/-- Objects of R396–R407. A keyed write reaches `wr` when its checks have passed, or from a sealed image at boot. -/
def securityObj (sub : Nat) : Option Obj :=
  match sub with
  | 0x01 => some (constNat tyU64 Config.deviceId.toNat)
  | 0x02 => some (rwkNat tyU8 true (fun c => lifecycleCode c.vault.lifecycle) fun v c =>
      match writeLifecycle v c with | some c1 => (.ok, c1) | none => (.state, c))
  | 0x03 => some ⟨tyDomain, 4, false, 32, fun _ _ => keyBytes Config.vendorKeyHash, noWrite⟩
  | 0x04 => some ⟨tyDomain, 3, true, 32, fun _ c => keyBytes (c.vault.custHash.getD 0), fun _ l c => writeCustHash l c⟩
  | 0x05 => some (roNat tyU64 fun c => c.vault.bootNonce.toNat)
  | 0x06 => some (countObj tyU32 (fun d => d.sec.failures.toNat) fun d => { d with sec := { d.sec with failures := 0 } })
  | 0x07 => some (roNat tyU32 fun c => c.dev.sec.lastFail.toNat)
  | 0x08 => some (roNat tyU32 fun c => (secStatRead c).toNat)
  | 0x0A => some (roBytes 16 fun _ => [])
  | _ => none

def slotObj (n sub : Nat) : Option Obj :=
  match sub with
  | 0x01 => some ⟨tyDomain, 3, true, 168, fun _ c => (c.vault.slot n).wrapped, fun _ l c =>
      (.ok, bootKeyStep n l c)⟩
  | 0x02 => some (rwkNat tyU8 true (fun c => (c.vault.scope n).toNat) fun v c =>
      if n = 0 then (.state, c) else (.ok, { c with vault := c.vault.updSlot n fun s => { s with scope := BitVec.ofNat 8 v } }))
  | 0x03 => some (roNat tyU8 fun c => slotCode (c.vault.slot n).state)
  | 0x04 => some (roNat tyU64 fun c => (c.vault.slot n).counter.toNat)
  | _ => none

/-! ### The domain (1100h, 1101h, 1110h–1113h, 1200h + a) -/

def updLk (f : DomCfg → DomCfg) (d : Dev) : Dev := { d with lk := { d.lk with cfg := f d.lk.cfg } }

/-- A value of the domain's settings in a range. -/
def domObj (ty : Nat) (f : DomCfg → Nat) (lo hi : Nat) (g : Nat → DomCfg → DomCfg) : Obj :=
  rangeObj ty (fun d => f d.lk.cfg) lo hi fun v => updLk (g v)

/-- LINK_OFFSET and CYCLIC_LENGTH are refused where their sum exceeds P (R360). -/
def windowObj (f : DomCfg → Nat) (g : Nat → DomCfg → DomCfg) : Obj :=
  rwNat tyU32 (fun c => f c.dev.lk.cfg) fun v c =>
    let n := g v c.dev.lk.cfg
    if c.dev.tick.period < n.linkOffset + n.cyclicLength then (.state, c) else (.ok, c.mapDev (updLk (g v)))

/-- Bytes of a bit map of addresses 0–255: bit a of the map stands in byte a / 8, its bit a mod 8. -/
def addressMap (f : Nat → Bool) : List Byte :=
  (List.range 32).map fun i => BitVec.ofNat 8 ((List.range 8).foldl (fun n b => if f (8 * i + b) then n + 2 ^ b else n) 0)

def domainObj (sub : Nat) : Option Obj :=
  match sub with
  | 0x01 => some (domObj tyU16 (·.domainId) 1 65535 fun v c => { c with domainId := v })
  | 0x02 => some (rwNat tyU8 (fun c => if tbRole c.dev.tb = 2 ∨ tbRole c.dev.tb = 3 then 0 else c.dev.lk.cfg.address) fun v c =>
      if v = 0 then (.range, c) else (.ok, c.mapDev (updLk fun x => { x with address := v })))
  | 0x03 => some (roNat tyU8 fun c => domStateCode (domState c.dev))
  | 0x04 => some (roNat tyU8 fun c => c.dev.lk.gen.toNat)
  | 0x05 => some (windowObj (·.linkOffset) fun v c => { c with linkOffset := v })
  | 0x06 => some (windowObj (·.cyclicLength) fun v c => { c with cyclicLength := v })
  | 0x07 => some (domObj tyU32 (·.sumOffset) 0 0xFFFFFFFF fun v c => { c with sumOffset := v })
  | 0x08 => some (domObj tyU16 (·.sumSpacing) 0 65535 fun v c => { c with sumSpacing := v })
  | 0x09 => some (rwNat tyU8 (fun c => c.dev.lk.cfg.fullPhase) fun v c =>
      if 7 < v ∧ v ≠ 255 then (.range, c) else (.ok, c.mapDev (updLk fun x => { x with fullPhase := v })))
  | 0x0A => some (domObj tyU8 (·.coastMax) 1 255 fun v c => { c with coastMax := v })
  | 0x0B => some (domObj tyU8 (·.linkMask) 0 15 fun v c => { c with linkMask := v })
  | 0x0C => some (domObj tyU8 (·.pcp) 0 7 fun v c => { c with pcp := v })
  | 0x0D => some (roNat tyU64 fun c => c.dev.lk.lostMask.toNat)
  | 0x0E => some (roNat tyU32 fun c => c.dev.lk.missed.toNat)
  | 0x0F => some (roNat tyU32 fun c => c.dev.lk.takeovers.toNat)
  | 0x10 => some (roBytes 32 fun c => addressMap fun a => (c.dev.member a).seenLast)
  | 0x11 => some (roBytes 32 fun c => addressMap fun a => (c.dev.member a).lost)
  | 0x12 => some (domObj tyU16 (·.appWord) 0 65535 fun v c => { c with appWord := v })
  | 0x13 => some (domObj tyU16 (·.udpPort) 0 65535 fun v c => { c with udpPort := v })
  | 0x14 => some (roNat tyU32 fun c => c.dev.lk.blocked.toNat)
  | _ => none

/-- MASTER_SOURCE of masters 0–63. A manager refuses an entry that names a master-derived axis (R367). -/
def sourceObj (sub : Nat) : Option Obj :=
  if 1 ≤ sub ∧ sub ≤ 64 then
    some (rwNat tyU16 (fun c => Bank.get 0xFFFF c.dev.lk.cfg.sources (sub - 1)) fun v c =>
      if roleManager c.dev && decide (v < 4096) && axKind (c.dev.axis v) == 3 then (.state, c)
      else (.ok, c.mapDev (updLk fun x => { x with sources := Bank.set 0xFFFF x.sources (sub - 1) v })))
  else none

def macObj (m sub : Nat) : Option Obj :=
  let b := 0x17000 + m * 64
  match sub with
  | 0x01 => some (bitObj b 31)
  | 0x02 => some (fieldObj tyU8 b 30 1 0 0 1)
  | 0x03 => some (fieldObj tyU8 b 28 2 0 0 3)
  | 0x04 => some (rangeObj tyU64 (fun d => (d.mac m).addr.toNat) 0 (2 ^ 48 - 1) fun v d =>
      d.updMac m fun x => { x with addr := BitVec.ofNat 48 v })
  | 0x05 => some (wordObj (b + 0x20) 0xFFFFFFFF)
  | 0x06 => some (rangeObj tyU32 (fun d => (d.mac m).mask.toNat) 0 0xFFFFFFFF fun v d => d.updMac m fun x => { x with mask := BitVec.ofNat 32 v })
  | 0x07 => some (rangeObj tyU32 (fun d => (d.mac m).gateway.toNat) 0 0xFFFFFFFF fun v d => d.updMac m fun x => { x with gateway := BitVec.ofNat 32 v })
  | 0x08 => some (roField tyU32 (b + 4) 0 32)
  | 0x09 => some (roField tyU32 (b + 8) 16 16)
  | 0x0A => some (roField tyU32 (b + 8) 0 16)
  | 0x0B => some (roField tyU32 (b + 0xC) 16 16)
  | 0x0C => some (roField tyU32 (b + 0xC) 0 16)
  | 0x0D => some (roField tyU32 (b + 0x10) 16 16)
  | 0x0E => some (roField tyU32 (b + 0x10) 0 16)
  | 0x0F => some (roField tyU32 (b + 0x14) 0 16)
  | _ => none

/-- The member table: empty on a device that is no manager (R374). -/
def memberObj (a sub : Nat) : Option Obj :=
  let on (c : Core) : Bool := roleManager c.dev
  match sub with
  | 0x01 => some (roBytes 32 fun c => if on c then (c.dev.member a).summary else [])
  | 0x02 => some (roBytes 256 fun c => if on c then (c.dev.member a).full else [])
  | 0x03 => some (roNat tyU32 fun c => if on c then (c.dev.member a).missed.toNat else 0)
  | 0x04 => some (roNat tyU64 fun c => if on c then (c.dev.member a).mac.toNat else 0)
  | _ => none

/-! ### Timebase and PTP (2000h–2005h) -/

def updSo (f : ServoObj → ServoObj) (d : Dev) : Dev := { d with so := f d.so }
def updPtpObj (f : Ptp → Ptp) (d : Dev) : Dev := { d with ptp := f d.ptp }

/-- EPOCH: a worker refuses writes; the value is in force from the next reset on, that is where the boot writes it (R41). -/
def epochObj (ty hi : Nat) (f : ServoObj → Nat) (g : Nat → ServoObj → ServoObj) : Obj :=
  rwNat ty (fun c => f c.dev.so) fun v c =>
    if roleWorker c.dev then (.role, c) else if hi < v then (.range, c)
    else (.ok, c.mapDev fun d =>
      let d1 := updSo (g v) d
      if d.pw.coreUp then d1 else updSo (fun s => { s with epochS := s.epochObjS, epochNs := s.epochObjNs }) d1)

def timebaseObj (sub : Nat) : Option Obj :=
  match sub with
  | 0x01 => some (roNat tyU8 fun c => servoCode c.dev.so.servo)
  | 0x02 => some (rwkNat tyU8 true (fun c => tbRole c.dev.tb) fun v c => if 3 < v then (.range, c) else (.ok, c.mapDev (setRole v)))
  | 0x03 => some (rwkNat tyBool true (fun c => fld c.dev.tb.ctl 3 1) fun v c =>
      (.ok, c.mapDev (setPlant (v == 1))))
  | 0x04 => some (roNat tyI32 fun c => (BitVec.ofInt 32 c.dev.tb.trim).toNat)
  | 0x05 => some (roNat tyI64 fun c => c.dev.so.offset.toNat)
  | 0x06 => some (rangeObj tyU32 (·.so.stepMax) 64 4096 fun v => updSo fun s => { s with stepMax := v })
  | 0x07 => some (rangeObj tyU32 (·.so.slewMax) 100000 100000000 fun v => updSo fun s => { s with slewMax := v })
  | 0x08 => some (rangeObj tyU32 (·.so.lockThreshold) 1 1024 fun v => updSo fun s => { s with lockThreshold := v })
  | 0x09 => some (rangeObj tyU8 (·.so.lockCount) 2 64 fun v => updSo fun s => { s with lockCount := v })
  | 0x0A => some (rangeObj tyU32 (·.so.alignLimit) 0 0xFFFFFFFF fun v d => settleAlign (updSo (fun s => { s with alignLimit := v }) d))
  | 0x0B => some (rangeObj tyU32 (·.so.wanderLimit) 0 0xFFFFFFFF fun v => updSo fun s => { s with wanderLimit := v })
  | 0x0C => some (roNat tyU32 fun c => holdoverErr c.dev)
  | 0x0D => some (roNat tyI64 fun c => c.dev.so.lastStep.toNat)
  | 0x0E => some (roNat tyU32 fun c => c.dev.so.stepCount.toNat)
  | 0x0F => some (roNat tyU32 fun c => c.dev.so.timeSetCount.toNat)
  | 0x10 => some (epochObj tyU64 (2 ^ 64 - 1) (fun s => s.epochObjS.toNat) fun v s => { s with epochObjS := BitVec.ofNat 64 v })
  | 0x11 => some (epochObj tyU32 999999999 (fun s => s.epochObjNs.toNat) fun v s => { s with epochObjNs := BitVec.ofNat 32 v })
  | 0x12 => some (roNat tyI64 fun c => c.dev.so.slewRemaining.toNat)
  | _ => none

def ptpObj (sub : Nat) : Option Obj :=
  match sub with
  | 0x01 => some (rangeObj tyU8 (·.ptp.domain) 0 255 fun v => updPtpObj fun p => { p with domain := v })
  | 0x02 => some (rangeObj tyU8 (·.ptp.plantDomain) 0 255 fun v => updPtpObj fun p => { p with plantDomain := v })
  | 0x03 => some (rangeObj tyU8 (·.ptp.portMask) 0 15 fun v => updPtpObj fun p => { p with portMask := v })
  | 0x04 => some (srangeObj tyI8 8 (·.ptp.logSync) (-7) 0 fun v => updPtpObj fun p => { p with logSync := v })
  | 0x05 => some (srangeObj tyI8 8 (·.ptp.logPdelay) (-3) 3 fun v => updPtpObj fun p => { p with logPdelay := v })
  | 0x06 => some (srangeObj tyI8 8 (·.ptp.logAnnounce) (-3) 1 fun v => updPtpObj fun p => { p with logAnnounce := v })
  | 0x07 => some (rangeObj tyU8 (·.ptp.syncTimeout) 2 10 fun v => updPtpObj fun p => { p with syncTimeout := v })
  | 0x08 => some (rangeObj tyU8 (·.ptp.announceTimeout) 2 10 fun v => updPtpObj fun p => { p with announceTimeout := v })
  | 0x09 => some (roNat tyU8 fun c => rolePriority (tbRole c.dev.tb))
  | 0x0A => some (roNat tyU8 fun c => timePort c.dev)
  | 0x0B => some (roNat tyU64 fun c => (gmIdentity c.dev).toNat)
  | _ => none

def ptpPortObj (m sub : Nat) : Option Obj :=
  match sub with
  | 0x01 => some (rangeObj tyU32 (fun d => (d.ptpPort m).txLatency.toNat) 0 0xFFFFFFFF fun v d => d.updPtpPort m fun p => { p with txLatency := BitVec.ofNat 32 v })
  | 0x02 => some (rangeObj tyU32 (fun d => (d.ptpPort m).rxLatency.toNat) 0 0xFFFFFFFF fun v d => d.updPtpPort m fun p => { p with rxLatency := BitVec.ofNat 32 v })
  | 0x03 => some (rangeObj tyI32 (fun d => (d.ptpPort m).asymmetry.toNat) 0 0xFFFFFFFF fun v d => d.updPtpPort m fun p => { p with asymmetry := BitVec.ofNat 32 v })
  | 0x04 => some (roNat tyU32 fun c => (c.dev.ptpPort m).meanLinkDelay.toNat)
  | 0x05 => some (roNat tyU8 fun c => ptpPortState c.dev m)
  | _ => none

/-! ### Tick, load, quoins (2010h–2012h) -/

/-- A write of a tick object, with the code its rule answers (R18). -/
def tickWrite (f : Dev → DictCode × Dev) (c : Core) : DictCode × Core := ((f c.dev).1, { c with dev := (f c.dev).2 })

def tickObj (sub : Nat) : Option Obj :=
  match sub with
  | 0x01 => some (roNat tyU32 fun c => c.dev.tick.period)
  | 0x02 => some (roNat tyU16 fun c => c.dev.tick.number.toNat)
  | 0x03 => some (rwNat tyU32 (fun c => c.dev.tick.nextPeriod.toNat) fun v => tickWrite (nextPeriodWrite (BitVec.ofNat 32 v))).volatile
  | 0x04 => some (rwNat tyTime (fun c => c.dev.tick.nextAnchor.toNat) fun v => tickWrite (nextAnchorWrite (BitVec.ofNat 64 v))).volatile
  | 0x05 => some (roNat tyU8 fun c => c.dev.tick.change)
  | 0x06 => some (roNat tyTime fun c => c.dev.tick.lastBoundary.toNat)
  | _ => none

def loadObj (sub : Nat) : Option Obj :=
  match sub with
  | 0x01 => some (roNat tyU16 fun c => c.dev.load.eclk)
  | 0x02 => some (roNat tyU32 fun c => cyclesPerTick c.dev)
  | 0x03 => some (roNat tyU16 fun c => updateQuota c.dev)
  | 0x04 => some (roNat tyU16 fun c => c.dev.load.tickLoad.toNat)
  | 0x05 => some (countObj tyU16 (fun d => d.load.tickLoadPeak.toNat) fun d => { d with load := { d.load with tickLoadPeak := 0 } })
  | 0x06 => some (roNat tyU32 fun c => c.dev.load.overruns.toNat)
  | 0x07 => some (roNat tyU32 fun c => c.dev.load.coalesced.toNat)
  | 0x08 => some (roNat tyU16 fun c => enginesOnline c.dev)
  | _ => none

def quoinsObj (sub : Nat) : Option Obj :=
  match sub with
  | 0x01 => some (woNat tyU32 fun v c => (.ok, c.mapDev (quoinClose (BitVec.ofNat 32 v))))
  | 0x02 => some (woNat tyU32 fun v c => (.ok, c.mapDev (quoinOpen (BitVec.ofNat 32 v))))
  | 0x03 => some (roNat tyU32 fun c => c.dev.ch.quoin.toNat)
  | _ => none

/-! ### Control store (2040h) and long operations (5F00h–5F05h) -/

/-- LOAD and UNLOAD fail with BUSY while a load runs, and where a context 3 is not halted (R294, R295). -/
def storeCmd (f : Dev → Dev) : Obj :=
  rwkNat tyBool false (fun _ => 0) fun v c =>
    if v = 0 then (.ok, c)
    else if c.dev.store.openState = 1 then (.busy, c)
    else (if allHalted c.dev then .ok else .busy, c.mapDev f)

def storeObj (sub : Nat) : Option Obj :=
  match sub with
  | 0x01 => some ⟨tyDomain, 2, false, 197824, fun _ _ => [], fun _ l c =>
      if c.dev.store.openState = 1 then (.busy, c) else (.ok, c.mapDev fun d => { d with store := { d.store with image := l } })⟩
  | 0x02 => some (storeCmd openLoadStart)
  | 0x03 => some (storeCmd openUnload)
  | 0x04 => some (roNat tyU8 fun c => c.dev.store.openState)
  | 0x05 => some (roNat tyU8 fun c => c.dev.store.openResult)
  | 0x06 => some (roNat tyU16 fun c => c.dev.store.openBase)
  | 0x07 => some (roNat tyU16 fun c => c.dev.store.openWords)
  | 0x08 => some (roNat tyU32 fun c => c.dev.store.openPatchReq.toNat)
  | 0x09 => some (roNat tyU8 fun c => c.dev.store.patchState)
  | 0x0A => some (roNat tyU8 fun c => c.dev.store.patchResult)
  | 0x0B => some (roNat tyU32 fun c => c.dev.store.patchVersion.toNat)
  | 0x0C => some (constNat tyU32 Config.romVersion.toNat)
  | 0x0D => some (roNat tyU16 fun c => vectorsUsed c.dev)
  | 0x0E => some (roBytes 1024 fun c => wordBytes ((List.range 256).map fun i => Bank.get 0 c.dev.store.vectors i))
  | 0x0F => some (roNat tyU32 fun c => c.dev.store.repairs.toNat)
  | _ => none

/-- STATE, PROGRESS and POSITION of a long operation. -/
def longOpObj (f : LongOps → LongOp) (sub : Nat) : Option Obj :=
  match sub with
  | 0x01 => some (roNat tyU8 fun c => (f c.dev.lo).state)
  | 0x02 => some (roNat tyU16 fun c => (f c.dev.lo).progress)
  | 0x03 => some (roNat tyU32 fun c => (f c.dev.lo).position)
  | _ => none

/-- START of a long operation: BUSY while it runs (R392). -/
def startObj (f : LongOps → LongOp) (g : Dev → Dev) : Obj :=
  woNat tyBool fun v c =>
    if v = 0 then (.ok, c) else if (f c.dev.lo).state = 1 then (.busy, c) else (.ok, c.mapDev g)

def longObj (i sub : Nat) : Option Obj :=
  match i, sub with
  | 0, 0x01 => some (roNat tyU8 fun c => c.dev.store.loState)
  | 0, 0x02 => some (roNat tyU16 fun c => c.dev.store.progress)
  | 0, 0x03 => some (roNat tyU32 fun c => c.dev.store.position.toNat)
  | 0, 0x04 => some (roNat tyU8 fun c => c.dev.store.phase)
  | 0, 0x05 => some (roNat tyU8 fun c => c.dev.store.kind)
  | 1, s => longOpObj (·.compact) s
  | 2, 0x10 => some (startObj (·.cal) calibrationStart)
  | 2, s => longOpObj (·.cal) s
  | 3, 0x10 => some (startObj (·.survey) surveyRequest)
  | 3, s => longOpObj (·.survey) s
  | 4, 0x04 => some (roNat tyU8 fun c => c.dev.lo.flashKind)
  | 4, s => longOpObj (·.flash) s
  | 5, s => longOpObj (·.enum.op) s
  | _, _ => none

/-! ### Interrupts (2050h) and crossings (6010h) -/

/-- SOURCES: each word is checked under R307; a word that a lock keeps refuses the whole write. -/
def sourcesObj : Obj :=
  rwBytes 4096 (fun c => wordBytes ((List.range 1024).map fun n => (c.dev.source n).src)) fun l c =>
    let d0 := c.dev
    let d1 := forEach (List.range (l.length / 4)) (fun n d => icSourceWrite n (bytesWord l n) d)
      { d0 with ic := { d0.ic with stat := d0.ic.stat &&& ~~~0xC#32 } }
    let flags := d1.ic.stat &&& 0xC#32
    if l.length % 4 ≠ 0 then (.typeErr, c)
    else if flags ≠ 0 then (.state, c.mapDev fun d => { d with ic := { d.ic with stat := d.ic.stat ||| flags } })
    else (.ok, { c with dev := { d1 with ic := { d1.ic with stat := d1.ic.stat ||| (c.dev.ic.stat &&& 0xC#32) } } })

def icObj (sub : Nat) : Option Obj :=
  match sub with
  | 0x01 => some sourcesObj
  | 0x02 => some (roBytes 128 fun c => wordBytes ((List.range 32).map fun w => icWord (·.pend) w c.dev))
  | 0x03 => some (roBytes 128 fun c => wordBytes ((List.range 32).map fun w => icWord (·.act) w c.dev))
  | 0x04 => some (rwBytes 128 (fun c => wordBytes ((List.range 32).map fun w => icWord (·.lost) w c.dev)) fun l c =>
      if l.length % 4 ≠ 0 then (.typeErr, c)
      else (.ok, c.mapDev fun d => forEach (List.range (l.length / 4)) (fun w d => icClearLost w (bytesWord l w) d) d))
  | 0x05 => some (rwBytes 256 (fun c => wordBytes ((List.range 64).map fun g => Bank.get 0 c.dev.ic.chev g)) fun l c =>
      if l.length % 4 ≠ 0 then (.typeErr, c)
      else
        let words := (List.range (l.length / 4)).foldl (fun b g => Bank.set 0 b g (bytesWord l g)) c.dev.ic.chev
        (.ok, c.mapDev fun d => { d with ic := { d.ic with chev := words } }))
  | 0x06 => some (rwNat tyU16 (fun c => c.dev.ic.axev.toNat) fun v c =>
      if 0x4000 ≤ v then (.range, c) else (.ok, c.mapDev fun d => { d with ic := { d.ic with axev := BitVec.ofNat 32 v } }))
  | _ => none

def crossObj (sub : Nat) : Option Obj :=
  if 1 ≤ sub ∧ sub ≤ 8 then
    some (countObj tyU16 (fun d => (Bank.get 0 d.ic.xovr (sub - 1)).toNat) fun d =>
      { d with ic := { d.ic with xovr := Bank.set 0 d.ic.xovr (sub - 1) 0 } })
  else match sub with
  | 0x09 => some (roNat tyU32 fun c => c.dev.ic.xstat.toNat)
  | 0x0A => some (rangeObj tyU8 (fun d => d.ic.xsel.toNat) 0 3 fun v d => { d with ic := { d.ic with xsel := BitVec.ofNat 32 v } })
  | 0x0B => some (countObj tyU8 (fun d => d.gl.wmax % 32) clearWmax)
  | 0x0C => some (roNat tyU16 fun c => c.dev.gs.fifo.length)
  | 0x0D => some (roNat tyU16 fun c => c.dev.gs.flight.length)
  | _ => none

/-! ### Galley (5000h–5002h, 5010h + n), event groups (5100h + g) -/

/-- A slug image as 32 bytes (R146). -/
def imageBytes (w : BitVec 256) : List Byte :=
  wordBytes ((List.range 8).map fun k => (w >>> (32 * k)).setWidth 32)
def bytesImage (l : List Byte) : BitVec 256 :=
  (List.range 8).foldl (fun acc k => acc ||| ((bytesWord l k).setWidth 256 <<< (32 * k))) 0

/-- A slug command through the dictionary: the write is done, and RESULT holds the galley's answer for its requester (R146). -/
def slugAnswerTo (w : DictWho) (r : GlAnswer × Dev) (c : Core) : DictCode × Core :=
  (.ok, { c with dev := r.2.updUser (whoNo w) fun u => { u with reply := ⟨glCodeNo r.1.code, r.1.sid, r.1.seq⟩ } })

/-- SLUG_INSERT_OBJECT and SLUG_REMOVE_OBJECT (R146). -/
def slugInsert (w : DictWho) (l : List Byte) (c : Core) : DictCode × Core :=
  if l.length ≠ 32 then (.typeErr, c)
  else
    let img := bytesImage l
    let s := slugOfImage img
    slugAnswerTo w (directInsert s (imageReserved img) c.dev) c
def slugRemove (w : DictWho) (v : Nat) (c : Core) : DictCode × Core :=
  slugAnswerTo w (directRemove (v / 2 ^ 32 % 2 ^ 18) (BitVec.ofNat 32 v) c.dev) c

def galleyObj (sub : Nat) : Option Obj :=
  let b := 0x4000
  match sub with
  | 0x01 => some (constNat tyU32 262144)
  | 0x02 => some (roNat tyU32 fun c => freeCount c.dev)
  | 0x03 => some (bitObj b 0)
  | 0x04 => some (rwNat tyU8 (fun c => let w := reg c b; fld w 4 1 + 2 * fld w 5 1 + 4 * fld w 6 1 + 8 * fld w 7 1) fun v c =>
      if 16 ≤ v then (.range, c) else regSet b 4 4 15 v c)
  | 0x05 => some (fieldObj tyU32 b 16 16 0 5000 65535)
  | 0x06 => some (roNat tyU32 fun c => c.dev.gl.chaseFull.toNat)
  | 0x07 => some (roNat tyU32 fun c => c.dev.gl.missed.toNat)
  | 0x08 => some (roNat tyU32 fun c => c.dev.gl.late.toNat)
  | 0x09 => some (roNat tyU32 fun c => c.dev.gl.orlost.toNat)
  | 0x0A => some (roNat tyU32 fun c => c.dev.gl.seq.toNat)
  | 0x0B => some (startObj (·.compact) compactBegin)
  | _ => none

def slugCmdObj (sub : Nat) : Option Obj :=
  match sub with
  | 0x01 => some ⟨tyDomain, 2, false, 32, fun _ _ => [], slugInsert⟩
  | 0x02 => some ⟨tyU64, 2, false, 8, fun _ _ => [], fun w l c => slugRemove w (beNat l) c⟩
  | 0x03 => some ⟨tyU64, 0, false, 8, fun w c =>
      let r := (c.dev.user (whoNo w)).reply
      beBytes 8 (r.code * 2 ^ 50 + r.sid * 2 ^ 32 + r.seq.toNat), noWrite⟩
  | 0x04 => some (rangeObj tyU32 (·.ds.readSid) 0 262143 fun v d => { d with ds := { d.ds with readSid := v } }).volatile
  | 0x05 => some (roBytes 32 fun c => imageBytes (slugImage c.dev.ds.readSid (c.dev.slug c.dev.ds.readSid)))
  | _ => none

/-- A policy count (R164). -/
def polObj (f : PolicyCounts → W32) (g : PolicyCounts → PolicyCounts) : Obj :=
  countObj tyU32 (fun d => (f d.ax.pol).toNat) fun d => { d with ax := { d.ax with pol := g d.ax.pol } }

def policyObj (sub : Nat) : Option Obj :=
  match sub with
  | 0x01 => some (polObj (·.revParked) fun p => { p with revParked := 0 })
  | 0x02 => some (polObj (·.revFired) fun p => { p with revFired := 0 })
  | 0x03 => some (polObj (·.revCancelled) fun p => { p with revCancelled := 0 })
  | 0x04 => some (polObj (·.lospHeld) fun p => { p with lospHeld := 0 })
  | 0x05 => some (polObj (·.lospCoasted) fun p => { p with lospCoasted := 0 })
  | 0x06 => some (polObj (·.lospCancelled) fun p => { p with lospCancelled := 0 })
  | 0x07 => some (polObj (·.searchCancelled) fun p => { p with searchCancelled := 0 })
  | 0x08 => some (polObj (·.suppressedMissed) fun p => { p with suppressedMissed := 0 })
  | 0x09 => some (polObj (·.tripped) fun p => { p with tripped := 0 })
  | _ => none

def chaseObj (n sub : Nat) : Option Obj :=
  match sub with
  | 0x01 => some (roNat tyU8 fun c => occ (c.dev.chase n))
  | 0x02 => some (countObj tyU8 (fun d => (d.chase n).peak) (clearPeak n))
  | 0x03 => some (roNat tyU32 fun c => (c.dev.chase n).ovfc.toNat)
  | 0x04 => some (roNat tyU32 fun c => (c.dev.chase n).latec.toNat)
  | _ => none

/-- TRIGGER and TEMPLATES are refused with STATE while the group is armed (R393). -/
def groupObj (g sub : Nat) : Option Obj :=
  match sub with
  | 0x01 => some (rwNat tyBool (fun c => if (c.dev.group g).enable then 1 else 0) fun v c =>
      (.ok, c.mapDev fun d => d.updGroup g fun x => { x with enable := v == 1 }))
  | 0x02 => some (rwNat tyU32 (fun c => (c.dev.group g).trigger.toNat) fun v c =>
      if (c.dev.group g).enable then (.state, c)
      else if 4 ≤ v / 2 ^ 28 then (.range, c)
      else (.ok, c.mapDev fun d => d.updGroup g fun x => { x with trigger := BitVec.ofNat 32 v }))
  | 0x03 => some (rwBytes 512 (fun c => (c.dev.group g).templates) fun l c =>
      if (c.dev.group g).enable then (.state, c)
      else if l.length % 32 ≠ 0 then (.typeErr, c)
      else (.ok, c.mapDev fun d => d.updGroup g fun x => { x with templates := l }))
  | 0x04 => some (countObj tyU32 (fun d => (d.group g).fired.toNat) fun d => d.updGroup g fun x => { x with fired := 0 })
  | 0x05 => some (countObj tyU32 (fun d => (d.group g).refused.toNat) fun d => d.updGroup g fun x => { x with refused := 0 })
  | 0x06 => some (countObj tyU32 (fun d => (d.group g).dropped.toNat) fun d => d.updGroup g fun x => { x with dropped := 0 })
  | _ => none

/-! ### Fastness (2060h), memory errors (6020h), power (2070h) -/

/-- CONSENT: the plan word of the proposal (R441). -/
def consentObj : Obj :=
  rwkNat tyU32 true (fun c => c.dev.fm.consent.toNat) fun v c =>
    match consentWrite (BitVec.ofNat 32 v) c.dev with
    | some d => (.ok, { c with dev := d })
    | none => (.state, c)

def fastObj (sub : Nat) : Option Obj :=
  match sub with
  | 0x01 => some (roNat tyU16 fun c => c.dev.fm.margin)
  | 0x02 => some (roNat tyU16 fun c => c.dev.fm.mE)
  | 0x03 => some (roNat tyU16 fun c => c.dev.fm.mS)
  | 0x04 => some (roNat tyU16 fun c => c.dev.fm.mO)
  | 0x05 => some (roNat tyTime fun c => c.dev.fm.proj.toNat)
  | 0x06 => some (roNat tyU32 fun c => (planWord c.dev.fm.plan).toNat)
  | 0x07 => some (roNat tyU32 fun c => (planWord c.dev.fm.prop).toNat)
  | 0x08 => some consentObj
  | 0x09 => some (roNat tyU32 fun c => c.dev.fm.plan.calint.toNat)
  | 0x0A => some (roNat tyU32 fun c => (budgetInForce c.dev).toNat)
  | 0x0B => some (rangeObj tyU32 (·.fm.period) 65536 16777216 fun v d => { d with fm := { d.fm with period := v } })
  | 0x0C => some (rangeObj tyU16 (·.fm.threshold) 1000 5000 fun v d => { d with fm := { d.fm with threshold := v } })
  | 0x0D => some (roNat tyTime fun c => c.dev.fm.last.toNat)
  | 0x0E => some (roNat tyU32 fun c => c.dev.fm.surveys.toNat)
  | 0x0F => some (roNat tyI16 fun c => (BitVec.ofInt 16 c.dev.fm.tj).toNat)
  | 0x10 => some (roBytes 96 fun c => (List.range 48).flatMap fun i => beBytes 2 (Bank.get 0 c.dev.fm.values i).toNat)
  | 0x11 => some (countObj tyU32 (fun d => d.fm.forced.toNat) fun d => { d with fm := { d.fm with forced := 0 } })
  | 0x12 => some (roNat tyU32 fun c => (fmStatRead c.dev).toNat)
  | _ => none

def memoryObj (sub : Nat) : Option Obj :=
  match sub with
  | 0x01 => some (countObj tyU16 (fun d => d.ecc.cecc.toNat) fun d => { d with ecc := { d.ecc with cecc := 0 } })
  | 0x02 => some (countObj tyU16 (fun d => d.ecc.uecc.toNat) fun d => { d with ecc := { d.ecc with uecc := 0 } })
  | 0x03 => some (roNat tyU32 fun c => c.dev.ecc.addr.toNat)
  | 0x04 => some (bitObj 0x28 31)
  | 0x05 => some (roNat tyU32 fun c => fld (scrubRead c.dev) 0 24)
  | 0x06 => some (roNat tyU32 fun c => c.dev.ecc.passes.toNat)
  | 0x07 => some (roNat tyU32 fun c => c.dev.ecc.retired.toNat)
  | 0x08 => some (roNat tyU8 fun c => c.dev.pw.rstc.toNat)
  | 0x09 => some (roNat tyU32 fun c => c.dev.pw.warmRestarts.toNat)
  | 0x0A => some (roNat tyU32 fun c => c.dev.pw.restartTime.toNat)
  | 0x0B => some (roNat tyU32 fun c => c.dev.store.repairs.toNat)
  | 0x0C => some (constNat tyU16 100)
  | _ => none

/-- REQUEST: writes REQ and sets GO; a refusal is answered STATE (R465). -/
def requestObj : Obj :=
  woNat tyU8 fun v c =>
    if 3 < v then (.range, c)
    else (if c.dev.pw.go || (v ≠ powerCode c.dev.pw.state && powerRefused c.dev v) then .state else .ok, c.mapDev (powerRequest v))

def powerObj (sub : Nat) : Option Obj :=
  match sub with
  | 0x01 => some (roNat tyU8 fun c => powerCode c.dev.pw.state)
  | 0x02 => some requestObj
  | 0x03 => some (roNat tyU8 fun c => c.dev.pw.boot)
  | 0x04 => some (roNat tyU8 fun c => c.dev.pw.strap.toNat)
  | 0x05 => some (roNat tyU32 fun c => c.dev.pw.bootTime.toNat)
  | 0x06 => some (roNat tyU8 fun c => c.dev.pw.wakeCause)
  | 0x07 => some (roNat tyU16 fun c => c.dev.pw.wakeSource)
  | 0x08 => some (roNat tyU64 fun c => c.dev.pw.holdTime.toNat)
  | 0x09 => some (roNat tyBool fun c => if c.dev.pw.xt32 then 1 else 0)
  | _ => none

/-! ### Trace (6000h) and customer range (7000h–7FFFh) -/

def ringDist (cap a b : Nat) : Nat := (b + cap - a) % cap

def traceObj (sub : Nat) : Option Obj :=
  match sub with
  | 0x01 => some (roBytes 983040 fun c =>
      (List.range (ringDist traceCap c.dev.trace.tail c.dev.trace.head)).flatMap fun i =>
        beBytes 16 (c.dev.read128 (traceBase + 2 * ((c.dev.trace.tail + i) % traceCap))).toNat)
  | 0x02 => some (roNat tyU32 fun c => c.dev.trace.head)
  | 0x03 => some (rwNat tyU32 (fun c => c.dev.trace.tail) fun v c =>
      if traceCap ≤ v ∨ ringDist traceCap c.dev.trace.tail c.dev.trace.head < ringDist traceCap c.dev.trace.tail v then (.range, c)
      else (.ok, c.mapDev fun d => { d with trace := { d.trace with tail := v } }))
  | 0x04 => some (countObj tyU32 (fun d => d.trace.dropped.toNat) fun d => { d with trace := { d.trace with dropped := 0 } })
  | 0x05 => some (constNat tyU32 traceCap)
  | 0x06 => some (roBytes 65536 fun c =>
      (List.range (ringDist 4096 c.dev.gl.ortail c.dev.gl.orhead)).flatMap fun i =>
        beBytes 16 (c.dev.read128 (outcomeBase + 2 * ((c.dev.gl.ortail + i) % 4096))).toNat)
  | _ => none

/-- The customer block: dictionary-store words 21_E000h–21_FFFFh (R394). -/
def customerBase : Nat := 0x21E000

/-- Bytes a declared value may have, and the words it occupies: STRING and DOMAIN take 256 bytes (log entry 30: DESIGN
CHOICE, the declaration gives no length). -/
def customSize (ty : Nat) : Nat := if typeSize ty = 0 then (if ty = tyString then 255 else 256) else typeSize ty
def customWords (ty : Nat) : Nat := if typeSize ty = 0 then 32 else 1

def declOf (l : List Byte) (i : Nat) : CustomerDecl :=
  let f := fun k n => beNat (slice l (8 * i + k) n)
  ⟨f 0 2, f 2 1, f 3 1, f 4 1, f 5 1 == 1, f 6 2⟩

/-- R394: a declaration is accepted. -/
def declOk (e : CustomerDecl) : Bool :=
  decide (0x7001 ≤ e.index ∧ e.index ≤ 0x7FFF) && decide (1 ≤ e.type ∧ e.type ≤ 13) && decide (e.access ≤ 2) &&
    decide (e.word + customWords e.type ≤ 8192)

/-- 7000h:01h, the declaration, and 7000h:02h, the message source of accepted customer writes. -/
def customDeclObj (sub : Nat) : Option Obj :=
  match sub with
  | 0x01 => some (rwBytes 4096 (fun c => c.dev.ds.customBytes) fun l c =>
      let es := (List.range (l.length / 8)).map (declOf l)
      if l.length % 8 ≠ 0 then (.typeErr, c)
      else if es.all declOk && pairwiseDistinct (fun a b => a.index != b.index || a.sub != b.sub) es then
        (.ok, c.mapDev fun d => { d with ds := { d.ds with custom := es, customBytes := l } })
      else (.state, c))
  | 0x02 => some (rangeObj tyU16 (·.ds.customMsg) 0 65535 fun v d => { d with ds := { d.ds with customMsg := v } })
  | _ => none

/-- A customer value as bytes. -/
def customRead (e : CustomerDecl) (d : Dev) : List Byte :=
  let a := customerBase + e.word
  if typeSize e.type = 0 then
    let l := (List.range 32).flatMap fun i => beBytes 8 (d.read64 (a + i)).toNat
    (l.reverse.dropWhile (· == 0#8)).reverse
  else beBytes (typeSize e.type) ((d.read64 a).toNat % 2 ^ (8 * typeSize e.type))

def customWrite (e : CustomerDecl) (l : List Byte) (c : Core) : DictCode × Core :=
  let a := customerBase + e.word
  (.ok, c.mapDev fun d =>
    let d1 :=
      if typeSize e.type = 0 then
        forEach (List.range 32) (fun i d => d.write64 (a + i) (BitVec.ofNat 64 (beNat ((slice l (8 * i) 8 ++ List.replicate 8 0#8).take 8)))) d
      else d.write64 a (BitVec.ofNat 64 (beNat l))
    if d.ds.customMsg < 256 then fireSource d.ds.customMsg d1 else d1)

def customObj (c : Core) (index sub : Nat) : Option Obj :=
  (c.dev.ds.custom.find? fun e => e.index == index && e.sub == sub).map fun e =>
    ⟨e.type, e.access, e.access == 1 && e.persist, customSize e.type, fun _ c => customRead e c.dev, fun _ l c => customWrite e l c⟩

end Sys2Proof.Machine
end

