-- ==== Sys2Proof/Machine/Dict.lean ====
section
/-! DEFINITION. The object dictionary: the index plan (R377, R378), the stored image, its commit and its defaults (R387, R388,
R390, R391, R395), and the seven services with the keyed write (R381–R385, R402–R406). -/

namespace Sys2Proof.Machine

/-! ### The index plan -/

/-- The bytes of a name. -/
def asciiBytes (s : String) : List Byte := s.toList.map fun c => BitVec.ofNat 8 c.toNat

/-- Name and size of a type (R378). -/
def typeName (t : Nat) : List Byte :=
  asciiBytes (match t with
    | 1 => "BOOL" | 2 => "U8" | 3 => "U16" | 4 => "U32" | 5 => "U64" | 6 => "I8" | 7 => "I16" | 8 => "I32" | 9 => "I64"
    | 10 => "ANG64" | 11 => "TIME64" | 12 => "STRING" | _ => "DOMAIN")

/-- The type definitions, 0000h + code: the size in bits as a U8 (log entry 31: DESIGN CHOICE, its type is not given) and
the name. -/
def typeObj (t sub : Nat) : Option Obj :=
  match sub with
  | 0x01 => some (constNat tyU8 (8 * typeSize t))
  | 0x02 => some ⟨tyString, 4, false, 255, fun _ _ => typeName t, noWrite⟩
  | _ => none

/-- Every object with a subindex from 01h but those of 2080h. -/
def coreObj (index sub : Nat) (c : Core) : Option Obj :=
  if 1 ≤ index ∧ index ≤ 13 then typeObj index sub
  else if index = 0x1010 then securityObj sub
  else if 0x1012 ≤ index ∧ index ≤ 0x1015 then slotObj (index - 0x1012) sub
  else if index = 0x1100 then domainObj sub
  else if index = 0x1101 then sourceObj sub
  else if 0x1110 ≤ index ∧ index ≤ 0x1113 then macObj (index - 0x1110) sub
  else if 0x1200 ≤ index ∧ index ≤ 0x12FF then memberObj (index - 0x1200) sub
  else if index = 0x2000 then timebaseObj sub
  else if index = 0x2001 then ptpObj sub
  else if 0x2002 ≤ index ∧ index ≤ 0x2005 then ptpPortObj (index - 0x2002) sub
  else if index = 0x2010 then tickObj sub
  else if index = 0x2011 then loadObj sub
  else if index = 0x2012 then quoinsObj sub
  else if 0x2020 ≤ index ∧ index ≤ 0x202F then tripObj (index - 0x2020) sub
  else if 0x2030 ≤ index ∧ index ≤ 0x203F then engineObj (index - 0x2030) sub
  else if index = 0x2040 then storeObj sub
  else if index = 0x2050 then icObj sub
  else if index = 0x2060 then fastObj sub
  else if index = 0x2070 then powerObj sub
  else if 0x3000 ≤ index ∧ index ≤ 0x31FF then chanObj (index - 0x3000) sub
  else if 0x3200 ≤ index ∧ index ≤ 0x327F then pairObj (index - 0x3200) sub
  else if 0x3300 ≤ index ∧ index ≤ 0x333F then compObj (index - 0x3300) sub
  else if 0x3400 ≤ index ∧ index ≤ 0x343F then portObj (index - 0x3400) sub
  else if 0x3500 ≤ index ∧ index ≤ 0x3CFF then headObj (index - 0x3500) sub
  else if 0x4000 ≤ index ∧ index ≤ 0x4FFF then axisObj (index - 0x4000) sub
  else if index = 0x5000 then galleyObj sub
  else if index = 0x5001 then slugCmdObj sub
  else if index = 0x5002 then policyObj sub
  else if 0x5010 ≤ index ∧ index ≤ 0x501F then chaseObj (index - 0x5010) sub
  else if 0x5100 ≤ index ∧ index ≤ 0x51FF then groupObj (index - 0x5100) sub
  else if 0x5F00 ≤ index ∧ index ≤ 0x5F05 then longObj (index - 0x5F00) sub
  else if index = 0x6000 then traceObj sub
  else if index = 0x6010 then crossObj sub
  else if index = 0x6020 then memoryObj sub
  else if index = 0x7000 then customDeclObj sub
  else if 0x7001 ≤ index ∧ index ≤ 0x7FFF then customObj c index sub
  else none

/-! ### Image, commit, restore (2080h) -/

/-- A device with every object at its default: each MAC has its delivered address (R375). -/
def defaultCore : Core :=
  { dev := forEach [0, 1, 2, 3] (fun m d => d.updMac m fun x => { x with addr := Config.macAddress m }) {} }

/-- LIFECYCLE is per device: its value in force counts as its default, so it is never stored. -/
def perDevice (index sub : Nat) : Bool := index == 0x1010 && sub == 0x02

/-- The default of an object. -/
def defaultOf (o : Obj) : List Byte := o.rd .pcie defaultCore

/-- The indices with objects of their own but those of 2080h, ascending; the customer range by its declaration. -/
def objIndices (c : Core) : List Nat :=
  let r := fun lo n => (List.range n).map (lo + ·)
  [0x1010] ++ r 0x1012 4 ++ [0x1100, 0x1101] ++ r 0x1110 4 ++ r 0x2000 6 ++ [0x2010, 0x2011, 0x2012] ++ r 0x2020 16 ++
    r 0x2030 16 ++ [0x2040, 0x2050, 0x2060, 0x2070] ++ r 0x3000 512 ++ r 0x3200 128 ++ r 0x3300 64 ++ r 0x3400 64 ++
    r 0x3500 2048 ++ r 0x4000 4096 ++ [0x5000, 0x5001, 0x5002] ++ r 0x5010 16 ++ r 0x5100 256 ++ [0x6000, 0x6010, 0x6020, 0x7000] ++
    (r 0x7001 0xFFF).filter fun i => c.dev.ds.custom.any fun e => e.index == i

/-- The persistent objects of an index, by subindex. -/
def persistAt (c : Core) (i : Nat) : List (Nat × Nat × Obj) :=
  (List.range 255).filterMap fun k =>
    match coreObj i (k + 1) c with
    | some o => if o.persist && !perDevice i (k + 1) then some (i, k + 1, o) else none
    | none => none

/-- The persistent objects, ascending. -/
def persistObjs (c : Core) : List (Nat × Nat × Obj) := (objIndices c).flatMap (persistAt c)

/-- The entries a commit stores: the persistent objects whose value differs from the default (R390). -/
def changedEntries (c : Core) : List DictEntry :=
  (persistObjs c).filterMap fun (i, s, o) =>
    let v := o.rd .pcie c
    if v = defaultOf o then none else some ⟨i, s, o.ty, v⟩

/-- The bytes of an entry (R388). -/
def dictEntryBytes (e : DictEntry) : List Byte :=
  beBytes 2 e.index ++ [BitVec.ofNat 8 e.sub, BitVec.ofNat 8 e.type] ++ beBytes 2 e.value.length ++ e.value

/-- The seal over entries (R407). -/
def sealOf (l : List DictEntry) : List Byte :=
  (keyBytes (Config.hmacSha256 (keyBytes sealKey) (l.flatMap dictEntryBytes))).take 16

/-- LEN of an image: its entries and the seal entry. -/
def imageLen (im : FlashImage) : Nat := (im.entries.flatMap dictEntryBytes).length + 22

/-- The valid copy with the higher GEN, by the sign of the difference (R388). -/
def bestImage (f : Flash) : Option FlashImage :=
  match f.a, f.b with
  | some a, some b => if (b.gen - a.gen).msb then some a else if b.gen = a.gen then some a else some b
  | some a, none => some a
  | none, b => b

/-- DIRTY: a persistent object differs from the stored image. -/
def dictDirty (c : Core) : Bool :=
  changedEntries c != (match bestImage c.dev.ds.flash with | some im => im.entries | none => [])

/-- COMMIT: the snapshot is taken; the flash is written until COMMIT_DONE (R390). BUSY while a commit or erase runs. -/
def commitStart (c : Core) : Core :=
  if c.dev.lo.flash.state = 1 then c
  else
    let es := changedEntries c
    c.mapDev fun d => { d with
      ds := { d.ds with snap := some ⟨0, es, sealOf es⟩ }
      lo := { d.lo with flash := LongOp.begin, flashKind := 1 } }

/-- ERASE, under the same check. -/
def eraseStart (d : Dev) : Dev :=
  if d.lo.flash.state = 1 then d
  else { d with ds := { d.ds with snap := none }, lo := { d.lo with flash := LongOp.begin, flashKind := 2 } }

/-- The flash after a commit of `im`: into an invalid copy, or the one with the lower GEN (R390). -/
def committed (im : FlashImage) (f : Flash) : Flash × FlashImage :=
  let put (g : W32) (inA : Bool) : Flash × FlashImage :=
    let im1 := { im with gen := g }
    (if inA then { f with a := some im1 } else { f with b := some im1 }, im1)
  match f.a, f.b with
  | some a, some b => if (b.gen - a.gen).msb || b.gen == a.gen then put (a.gen + 1) false else put (b.gen + 1) true
  | some a, none => put (a.gen + 1) false
  | none, some b => put (b.gen + 1) true
  | none, none => put 1 true

/-- COMMIT_DONE: the commit or erase in progress ends; `ok` is whether the flash took it. An image of more than 512 KiB less
the header is refused (R462). -/
def commitDone (ok : Bool) (d : Dev) : Dev :=
  if d.lo.flash.state ≠ 1 then d
  else
    let ok := ok && (match d.ds.snap with | some im => decide (imageLen im ≤ 524272) | none => true)
    let d1 :=
      if !ok then d
      else match d.ds.snap with
        | some im =>
          let r := committed im d.ds.flash
          let fm := if d.store.openState = 2 then some d.store.running else none
          { d with
            ds := { d.ds with flash := { r.1 with openForme := fm }, imageState := 1, imageGen := r.2.gen, imageSize := imageLen r.2 }
            lo := { d.lo with flash := { d.lo.flash with position := imageLen r.2 + 16 } } }
        | none => { d with ds := { d.ds with flash := { d.ds.flash with a := none, b := none }, imageState := 0 } }
    loFinish (fun l => { l with flash := l.flash.finish ok }) { d1 with ds := { d1.ds with snap := none } }

/-- The enabling entries of R389: ENABLE of every block, and EMULATION. -/
def enabling (index sub : Nat) : Bool :=
  (sub == 1 && ((0x1110 ≤ index && index ≤ 0x1113) || (0x2020 ≤ index && index ≤ 0x202F) || (0x3000 ≤ index && index ≤ 0x34FF) ||
    (0x3500 ≤ index && index ≤ 0x4FFF) || (0x5100 ≤ index && index ≤ 0x51FF))) ||
  (0x3000 ≤ index && index ≤ 0x31FF && (sub == 0x4B || sub == 0x0C))

/-- One object takes its default; a write its rule refuses leaves it as it is. -/
def takeDefault (e : Nat × Nat × Obj) (c : Core) : Core :=
  let o := e.2.2
  if o.rd .pcie c = defaultOf o then c
  else if 0x1012 ≤ e.1 ∧ e.1 ≤ 0x1015 ∧ e.2.1 = 1 then
    { c with vault := c.vault.updSlot (e.1 - 0x1012) fun s => { s with state := .empty, key := 0, wrapped := [], finger := 0 } }
  else (o.wr .pcie (defaultOf o) c).2

/-- RESTORE (R391), refused while a pair is not DISABLED. Enabling entries of an index come first, since they lock the others
(log entry 32: DEDUCED). -/
def restoreDefaults (c : Core) : Core :=
  if (List.range 128).any fun p => pairEnabled (c.dev.pair p) then c
  else (objIndices c).foldl (fun c i =>
    let l := persistAt c i
    let off := l.filter fun e => enabling e.1 e.2.1
    let on := l.filter fun e => !enabling e.1 e.2.1
    (off ++ on).foldl (fun c e => takeDefault e c) c) c

def sessionCount (d : Dev) : Nat := ((List.range 8).filter fun n => (d.session n).isSome).length

/-- The dictionary store's own objects. -/
def dictStoreObj (sub : Nat) : Option Obj :=
  match sub with
  | 0x01 => some (woNat tyBool fun v c =>
      if v = 0 then (.ok, c) else if c.dev.lo.flash.state = 1 then (.busy, c) else (.ok, commitStart c))
  | 0x02 => some (woNat tyBool fun v c =>
      if v = 0 then (.ok, c)
      else if (List.range 128).any fun p => pairEnabled (c.dev.pair p) then (.state, c) else (.ok, restoreDefaults c))
  | 0x03 => some (woNat tyBool fun v c =>
      if v = 0 then (.ok, c) else if c.dev.lo.flash.state = 1 then (.busy, c) else (.ok, c.mapDev eraseStart))
  | 0x04 => some (roNat tyU8 fun c => c.dev.ds.imageState)
  | 0x05 => some (roNat tyU32 fun c => c.dev.ds.imageGen.toNat)
  | 0x06 => some (roNat tyU32 fun c => c.dev.ds.imageSize)
  | 0x07 => some (roNat tyU16 fun c => c.dev.ds.bootErrors.toNat)
  | 0x08 => some (roNat tyU32 fun c => c.dev.ds.firstError.toNat)
  | 0x09 => some (roNat tyBool fun c => if dictDirty c then 1 else 0)
  | 0x0A => some (roNat tyU8 fun c => sessionCount c.dev)
  | _ => none

/-! ### Finding an object -/

/-- An object with a subindex from 01h. -/
def objAt (index sub : Nat) (c : Core) : Option Obj := if index = 0x2080 then dictStoreObj sub else coreObj index sub c

/-- The subindices of an index from 01h, ascending. -/
def subsOf (index : Nat) (c : Core) : List Nat := ((List.range 255).map (· + 1)).filter fun s => (objAt index s c).isSome

/-- Index present: it has objects, or it is the identity index, of which the manual gives no object (log entry 31). -/
def indexPresent (index : Nat) (c : Core) : Bool := index == 0x1000 || !(subsOf index c).isEmpty

/-- An object, or the code of its absence (R377); subindex 00h holds the highest in use. -/
def findObj (index sub : Nat) (c : Core) : Except DictCode Obj :=
  if sub = 0 then
    if indexPresent index c then .ok (constNat tyU8 ((subsOf index c).getLast?.getD 0)) else .error .noObject
  else match objAt index sub c with
    | some o => .ok o
    | none => if indexPresent index c then .error .noSub else .error .noObject

/-! ### Reads and writes of a value -/

/-- PARAM_DATA of a head (R345): its accesses are served by the head. -/
def isParam (index sub : Nat) : Bool := 0x3500 ≤ index && index ≤ 0x3CFF && sub == 0x21

/-- R228, R232: a read of CAP0_COUNT or CAP1_COUNT takes the capture and latches its time for the same requester; a read of the time
spends it, and sets TORN where there is none. -/
def captureEffect (w : DictWho) (index sub : Nat) (d : Dev) : Dev :=
  let n := index - 0x3000
  let set (t : Option (Nat × Nat × Time64)) (d : Dev) : Dev := d.updUser (whoNo w) fun u => { u with capTime := t }
  match sub with
  | 0x2A => set (some (index, 0x2B, (d.chCap n).cap0t)) (captureRead n false d).2
  | 0x2C => set (some (index, 0x2D, (d.chCap n).cap1t)) (captureRead n true d).2
  | 0x2B | 0x2D => if (capLatched w index sub d).isSome then set none d else tsFlag n 3 d
  | _ => d

/-- The effect of a dictionary read: ANGLE latches its instant for ANGLE_TIME (R116); a capture is taken (R232); RXD of a compositor is
taken (R243). -/
def dictReadEffect (w : DictWho) (index sub : Nat) (c : Core) : Core :=
  if 0x4000 ≤ index ∧ index ≤ 0x4FFF ∧ sub = 0x21 then
    let a := index - 0x4000
    let t := wide (reg c (baseAx a + 0x30)) (reg c (baseAx a + 0x2C))
    c.mapDev fun d => d.updAxis a fun x => { x with st := { x.st with angRead := some t } }
  else if 0x3000 ≤ index ∧ index ≤ 0x30FF then c.mapDev (captureEffect w index sub)
  else if 0x3300 ≤ index ∧ index ≤ 0x333F ∧ sub = 0x0B then c.mapDev (readEffect (baseCp (index - 0x3300) + 0x18)) else c

/-- The value's length and byte range (R378, R382). -/
def valueFault (o : Obj) (v : List Byte) : Option DictCode :=
  if typeSize o.ty ≠ 0 ∧ v.length ≠ typeSize o.ty then some .typeErr
  else if o.limit < v.length then some .typeErr
  else if o.ty = tyBool ∧ 1 < beNat v then some .range
  else none

/-- R18: on a worker every write of NEXT_PERIOD or NEXT_ANCHOR is refused with ROLE before any other check. -/
def roleFirst (index sub : Nat) (d : Dev) : Bool := roleWorker d && index == 0x2010 && (sub == 3 || sub == 4)

/-- A write of a value by requester `w`; `keyed` says that a keyed write's checks have passed (R379). -/
def writeValue (w : DictWho) (index sub : Nat) (v : List Byte) (keyed : Bool) (c : Core) : DictCode × Core :=
  match findObj index sub c with
  | .error e => (e, c)
  | .ok o =>
    if roleFirst index sub c.dev then (.role, c)
    else if o.acc = 0 ∨ o.acc = 4 then (.readOnly, c)
    else if o.acc = 3 ∧ keyed = false then (.key, c)
    else match valueFault o v with
      | some e => (e, c)
      | none => o.wr w v c

/-! ### The services (R382) -/

/-- What a service answers: code, type, total length, data; or nothing yet, since a head's parameters are on their way. -/
inductive SvcAnswer where
  | now (code : DictCode) (ty total : Nat) (data : List Byte)
  | later

def refuse (e : DictCode) (ty : Nat) : SvcAnswer := .now e ty 0 []

/-- A PARAM_DATA access is queued at its head's port: STATE while the port is disabled, BUSY while its queue is full. -/
def paramAccess (w : DictWho) (svc h want : Nat) (k : AcyKind) (c : Core) : SvcAnswer × Core :=
  match paramQueue { head := h, kind := k, who := some w, svc := svc, want := want } c.dev with
  | some d => (.later, { c with dev := d })
  | none => (refuse (if fpEn (c.dev.fp (h / 32)) then .busy else .state) tyDomain, c)

/-- The READ a PARAM_DATA read issues: from PARAM_INDEX to the last parameter, at most 248 bytes (log entry 33: DEDUCED). -/
def paramRead (c : Core) (h : Nat) : AcyKind :=
  let k := (c.dev.head h).paramIndex.toNat
  .read k (min 248 (256 - k))

def svcRead (w : DictWho) (index sub : Nat) (c : Core) : SvcAnswer × Core :=
  match findObj index sub c with
  | .error e => (refuse e 0, c)
  | .ok o =>
    if o.acc = 2 then (refuse .writeOnly o.ty, c)
    else if isParam index sub then paramAccess w 1 (index - 0x3500) 0 (paramRead c (index - 0x3500)) c
    else
      let v := o.rd w c
      if 1452 < v.length then (refuse .tooBig o.ty, c)
      else (.now .ok o.ty v.length v, dictReadEffect w index sub c)

def typeOf (index sub : Nat) (c : Core) : Nat := match findObj index sub c with | .ok o => o.ty | .error _ => 0

/-- A value written by service `svc` as a whole. -/
def svcWriteAs (svc : Nat) (w : DictWho) (index sub : Nat) (v : List Byte) (c : Core) : SvcAnswer × Core :=
  if isParam index sub ∧ (findObj index sub c).isOk then
    if v.length = 0 ∨ 248 < v.length then (refuse .typeErr tyDomain, c)
    else paramAccess w svc (index - 0x3500) 0 (.write (c.dev.head (index - 0x3500)).paramIndex.toNat v) c
  else
    let r := writeValue w index sub v false c
    (.now r.1 (typeOf index sub c) (if r.1 = .ok then v.length else 0) [], r.2)

def svcWrite (w : DictWho) (index sub : Nat) (v : List Byte) (c : Core) : SvcAnswer × Core := svcWriteAs 2 w index sub v c

def svcDescribe (index sub : Nat) (c : Core) : SvcAnswer × Core :=
  match findObj index sub c with
  | .error e => (refuse e 0, c)
  | .ok o =>
    let l := [BitVec.ofNat 8 o.ty, BitVec.ofNat 8 o.acc, if o.persist then 1 else 0, 0] ++ beBytes 4 o.limit
    (.now .ok o.ty 8 l, c)

/-- The segment of a snapshot; the last one of OUTCOMES moves GL_ORTAIL on (R394). -/
def segmentOf (s : SegStore) (ty offset count : Nat) (c : Core) : SvcAnswer × Core :=
  let l := slice s.bytes offset count
  let done := decide (s.bytes.length ≤ offset + count) && s.index == 0x6000 && s.sub == 6
  let ok := decide (ringDist 4096 c.dev.gl.ortail s.mark ≤ ringDist 4096 c.dev.gl.ortail c.dev.gl.orhead)
  (.now .ok ty s.bytes.length l,
    if done && ok then c.mapDev fun d => { d with gl := { d.gl with ortail := s.mark } } else c)

/-- READ_SEG (R383): offset 0 takes a snapshot of the value, other offsets are served from it. -/
def svcReadSeg (w : DictWho) (index sub offset count : Nat) (c : Core) : SvcAnswer × Core :=
  match findObj index sub c with
  | .error e => (refuse e 0, c)
  | .ok o =>
    if o.acc = 2 then (refuse .writeOnly o.ty, c)
    else if offset = 0 then
      if isParam index sub then paramAccess w 5 (index - 0x3500) count (paramRead c (index - 0x3500)) c
      else
        let s : SegStore := ⟨index, sub, o.rd w c, c.dev.gl.orhead⟩
        let c1 := c.mapDev fun d => d.updUser (whoNo w) fun u => { u with snap := some s }
        segmentOf s o.ty 0 count (dictReadEffect w index sub c1)
    else match (c.dev.user (whoNo w)).snap with
      | some s => if s.index = index ∧ s.sub = sub then segmentOf s o.ty offset count c else (refuse .segment o.ty, c)
      | none => (refuse .segment o.ty, c)

def setStage (w : DictWho) (s : Option SegStore) (c : Core) : Core :=
  c.mapDev fun d => d.updUser (whoNo w) fun u => { u with stage := s }

/-- WRITE_SEG (R383): segments are staged in order; the last one applies the value. -/
def svcWriteSeg (w : DictWho) (index sub offset : Nat) (last : Bool) (v : List Byte) (c : Core) : SvcAnswer × Core :=
  match findObj index sub c with
  | .error e => (refuse e 0, c)
  | .ok o =>
    let before : Option (List Byte) :=
      if offset = 0 then some []
      else match (c.dev.user (whoNo w)).stage with
        | some s => if s.index = index ∧ s.sub = sub ∧ s.bytes.length = offset then some s.bytes else none
        | none => none
    match before with
    | none => (refuse .segment o.ty, setStage w none c)
    | some b =>
      if last then svcWriteAs 6 w index sub (b ++ v) (setStage w none c)
      else (.now .ok o.ty (b ++ v).length [], setStage w (some { index := index, sub := sub, bytes := b ++ v }) c)

/-- READ_ALL: the readable subindices in order; TOO_BIG beyond one response or a value of more than 255 bytes (log entry
31). -/
def svcReadAll (w : DictWho) (index : Nat) (c : Core) : SvcAnswer × Core :=
  if !indexPresent index c then (refuse .noObject 0, c)
  else
    let items := (subsOf index c).filterMap fun s => match objAt index s c with
      | some o => if o.acc = 2 then none else some (s, o.ty, o.rd w c)
      | none => none
    let l := items.flatMap fun (s, t, v) => [BitVec.ofNat 8 s, BitVec.ofNat 8 t, BitVec.ofNat 8 v.length] ++ v
    if 1452 < l.length ∨ (items.any fun (_, _, v) => decide (255 < v.length)) then (refuse .tooBig 0, c)
    else (.now .ok 0 l.length l, items.foldl (fun c e => dictReadEffect w index e.1 c) c)

/-! ### The keyed write (R402–R406) -/

/-- What an RWK object is to the keyed write (R400). -/
def keyedKindOf (index sub : Nat) : KeyedKind :=
  if 0x1012 ≤ index ∧ index ≤ 0x1015 then
    if sub = 1 then .key (index - 0x1012) else .plain (if index = 0x1012 then 5 else 4)
  else if index = 0x1010 then .plain 5
  else if index = 0x2000 then .plain 2
  else if index = 0x2040 then .plain 1
  else if index = 0x2060 then .plain 3
  else .plain 0

def fromHost (w : DictWho) : Bool := match w with | .session _ => false | _ => true

/-- KEYED_WRITE: `l` is the value with its trailer. The checks of R403 in order; from check 6 on the counter is taken (R404). -/
def svcKeyedWrite (w : DictWho) (index sub : Nat) (l : List Byte) (c : Core) : SvcAnswer × Core :=
  let fail (r ty : Nat) (c : Core) : SvcAnswer × Core := (refuse .key ty, c.mapDev (keyFailure r index sub))
  match findObj index sub c with
  | .error e => (refuse e 0, c)
  | .ok o =>
    if o.acc ≠ 3 then fail 1 o.ty c
    else if l.length < 32 then (refuse .typeErr o.ty, c)
    else
      let v := l.take (l.length - 32)
      let tr := l.drop (l.length - 32)
      let t := trailerOf tr
      let kind := keyedKindOf index sub
      if !allZero (slice tr 1 7) then (refuse .formatErr o.ty, c)
      else match keyedFailure c.vault (fromHost w) kind index sub v t with
        | some r => fail r o.ty c
        | none =>
          let c1 := { c with vault := takeCounter t c.vault }
          match kind with
          | .key n =>
            (match unwrapped c.vault t v with
             | none => fail 8 o.ty c1
             | some k =>
               let c2 := { c1 with vault := writeKey n k c1.vault }
               (.now .ok o.ty v.length [], if isBoot t then afterBoot (v.length == 168) c2 else c2))
          | .plain _ =>
            let r := writeValue w index sub v true c1
            (.now r.1 o.ty (if r.1 = .ok then v.length else 0) [], r.2)

/-! ### Requests (R381, R385) -/

/-- The answer to a request goes out, unless a head has still to answer. -/
def answerSvc (w : DictWho) (svc index sub : Nat) (r : SvcAnswer × Core) : Core :=
  match r.1 with
  | .now code ty total data => r.2.mapDev (respond w (responseBody svc code index sub ty total data))
  | .later => r.2

/-- A service body is served whole. A body whose length is not 12 + COUNT, a COUNT above 1,452, a reserved byte or reserved
flags are refused with FORMAT; READ_SEG is no exception to the length (log entry 34: DEDUCED). -/
def serveBody (w : DictWho) (l : List Byte) (c : Core) : Core :=
  let f := fun k n => beNat (slice l k n)
  let svc := f 0 1
  let index := f 2 2
  let sub := f 4 1
  let count := f 6 2
  let data := l.drop 12
  answerSvc w svc index sub
    (if l.length ≠ 12 + count ∨ 1452 < count ∨ f 5 1 ≠ 0 ∨ 2 ≤ f 1 1 then (refuse .formatErr 0, c)
     else match svc with
      | 1 => svcRead w index sub c
      | 2 => svcWrite w index sub data c
      | 3 => svcKeyedWrite w index sub data c
      | 4 => svcDescribe index sub c
      | 5 => svcReadSeg w index sub (f 8 4) count c
      | 6 => svcWriteSeg w index sub (f 8 4) (f 1 1 == 1) data c
      | 7 => svcReadAll w index c
      | _ => (refuse .service 0, c))

/-- The request at the front of the service queue is served. -/
def serveFront (c : Core) : Core :=
  match c.dev.ds.queue with
  | r :: rest => serveBody r.who r.body (c.mapDev fun d => { d with ds := { d.ds with queue := rest } })
  | [] => c

/-- The session requests at the front of the queue are served, at most `n` of them. -/
def serveSessions : Nat → Core → Core
  | 0, c => c
  | n + 1, c =>
    match c.dev.ds.queue with
    | ⟨.session _, _⟩ :: _ => serveSessions n (serveFront c)
    | _ => c

def drainSessions (c : Core) : Core := if enginesRun c.dev && serviceRuns c.dev then serveSessions c.dev.ds.queue.length c else c

/-- MAILBOX_RESPONSE: the request of port `p` at the front of the queue is served, and the session requests behind it, once
the service context is the highest-ranked ready one (R24). -/
def mailboxResponse (p : Nat) (c : Core) : Core :=
  match c.dev.ds.queue with
  | r :: _ => if enginesRun c.dev && serviceRuns c.dev && r.who == (if p = 0 then DictWho.pcie else .qspi) then drainSessions (serveFront c) else c
  | [] => c

/-! ### Sessions (R371, R372) -/

def sessionOf (d : Dev) (ip : W32) (port : Nat) : Option (Nat × Session) :=
  (List.range 8).findSome? fun n => match d.session n with
    | some s => if s.ip = ip ∧ s.port = port then some (n, s) else none
    | none => none

/-- A request of session `n` with a new TAG, arrived on MAC `m`, enters the service queue. -/
def sessionRequest (m n tag : Nat) (body : List Byte) (d : Dev) : Dev :=
  let d1 := match d.session n with
    | some s => d.setSession n (some { s with mac := m, tag := tag, busy := true })
    | none => d
  { d1 with ds := { d1.ds with queue := d1.ds.queue ++ [⟨.session n, body⟩] } }

/-- ACYCLIC_DATAGRAM: the UDP datagram `l` from `ip`, `port` on MAC `m` to UDP_PORT of the MAC's own address; `plain` says that the packet
has no options, is no fragment and its UDP checksum is right or zero (R370). -/
def acyclicDatagram (m : Nat) (ip : W32) (port : Nat) (target : W32) (dest : Nat) (l : List Byte) (plain : Bool) (c : Core) : Core :=
  let d := c.dev
  let f := fun k n => beNat (slice l k n)
  if !macServes d m || target != (d.mac m).ip || dest != d.lk.cfg.udpPort || !plain then c
  else if l.length < 8 ∨ f 0 2 ≠ 0x424C ∨ f 2 1 ≠ 1 ∨ f 3 1 ≠ 1 ∨ 1464 < f 6 2 ∨ l.length ≠ 8 + f 6 2 then
    c.mapDev fun d => d.updMac m fun x => { x with acyerr := incSat x.acyerr }
  else
    let tag := f 4 2
    let body := l.drop 8
    match sessionOf d ip port with
    | some (n, s) =>
      if s.busy then if s.tag = tag then c else c.mapDev (sendDatagram m n (datagram 3 tag []))
      else if s.last ≠ [] ∧ beNat (slice s.last 4 2) = tag then c.mapDev (sendDatagram m n s.last)
      else drainSessions (c.mapDev (sessionRequest m n tag body))
    | none =>
      match (List.range 8).find? fun n => (d.session n).isNone with
      | none => c.mapDev (sendDatagram m 8 (datagram 3 tag []))
      | some n =>
        let s : Session := ⟨ip, port, m, tag, true, []⟩
        drainSessions (c.mapDev fun d => sessionRequest m n tag body (d.setSession n (some s)))

/-- SESSION_EXPIRY: session `n` ends with its snapshot and staging. -/
def sessionExpiry (n : Nat) (d : Dev) : Dev :=
  if (d.session n).isSome then
    let d1 := (d.setSession n none).updUser (2 + n) fun _ => {}
    { d1 with ds := { d1.ds with queue := d1.ds.queue.filter fun r => r.who != .session n } }
  else d

end Sys2Proof.Machine
end

