-- ==== Sys2Proof/Machine/Boot.lean ====
section
/-! DEFINITION. The boot order (R463) with the straps (R461), the images of the boot flash (R293, R389, R407), the stand-alone
settings (R395) and the third pass. -/

namespace Sys2Proof.Machine

/-- BOOTSEL 10b and 11b: the flash is not read (R461). -/
def flashRead (strap : BitVec 4) : Bool := !strap.getLsbD 1

/-! ### The dictionary image -/

/-- A refused entry is skipped, counted and, if it is the first, recorded (R389). -/
def bootRefused (code : DictCode) (e : DictEntry) (d : Dev) : Dev :=
  { d with ds := { d.ds with
      bootErrors := incSat d.ds.bootErrors
      firstError := if d.ds.bootErrors = 0 then BitVec.ofNat 32 (dictCodeNo code * 2 ^ 24 + e.index % 65536 * 256 + e.sub % 256)
        else d.ds.firstError } }

/-- The write of an entry of an image whose seal `sealOk` verifies (R407); CONSENT replaces the plan word
(R444). An object that is not persistent takes no entry (R387). -/
def entryWrite (sealOk : Bool) (e : DictEntry) (c : Core) : DictCode × Core :=
  match findObj e.index e.sub c with
  | .error x => (x, c)
  | .ok o =>
    if o.acc = 0 ∨ o.acc = 4 then (.readOnly, c)
    else if o.persist = false then (.state, c)
    else if o.acc = 3 ∧ sealOk = false then (.key, c)
    else match valueFault o e.value with
      | some x => (x, c)
      | none =>
        if e.index = 0x2060 ∧ e.sub = 8 then (.ok, c.mapDev (bootConsent (BitVec.ofNat 32 (beNat e.value))))
        else o.wr .pcie e.value c

def applyEntryAt (sealOk : Bool) (e : DictEntry) (c : Core) : Core :=
  let r := entryWrite sealOk e c
  if r.1 = .ok then r.2 else r.2.mapDev (bootRefused r.1 e)

/-- TCLKs pass between the writes of a boot: what a write has ordered for the next TCLK is in force before the next one. -/
def landRegisters (d : Dev) : Dev :=
  let starts := (chanKeys d).filter fun n => (d.chOut n).starting
  let d1 := landComps (landTooth (landChannels d))
  let d2 := forEach (d1.br.pairs.map (·.1)) openPair d1
  forEach (chanKeys d2) (fun n d => openTclk (starts.contains n) n d) d2

/-- One entry of an image at boot. -/
def bootEntry (sealOk : Bool) (e : DictEntry) (c : Core) : Core := (applyEntryAt sealOk e c).mapDev landRegisters

/-- The enabling entries: an EMULATION entry only with EMEN in its value (R389). -/
def enablingEntry (e : DictEntry) : Bool :=
  enabling e.index e.sub && !(e.sub == 0x0C && !(beNat e.value).testBit 31)

def isChanEntry (e : DictEntry) : Bool := 0x3000 ≤ e.index && e.index ≤ 0x31FF
def decoderEntry (e : DictEntry) : Bool := isChanEntry e && e.sub == 0x4B
def axisEntry (e : DictEntry) : Bool := 0x4000 ≤ e.index && e.index ≤ 0x4FFF
def emulationEntry (e : DictEntry) : Bool := isChanEntry e && e.sub == 0x0C
def remoteEntry (e : DictEntry) : Bool := 0x3100 ≤ e.index && e.index ≤ 0x31FF && e.sub == 1

/-- The order of the second pass: decoders, axes, the rest, emulations. -/
def secondPass (l : List DictEntry) : List DictEntry :=
  let en := l.filter fun e => enablingEntry e && !remoteEntry e
  en.filter decoderEntry ++ en.filter axisEntry ++
    en.filter (fun e => !decoderEntry e && !axisEntry e && !emulationEntry e) ++ en.filter emulationEntry

/-- Step 5 with a valid image: the first and second passes; the entries of the third pass wait. -/
def applyImage (im : FlashImage) (c : Core) : Core :=
  let ok := sealAccepted c.vault (sealOf im.entries) im.sealTag
  let c0 := c.mapDev fun d => { d with ds := { d.ds with imageState := 1, imageGen := im.gen, imageSize := imageLen im } }
  let c1 := (im.entries.filter fun e => !enablingEntry e).foldl (fun c e => bootEntry ok e c) c0
  let c2 := (secondPass im.entries).foldl (fun c e => bootEntry ok e c) c1
  c2.mapDev fun d => { d with ds := { d.ds with third := im.entries.filter fun e => enablingEntry e && remoteEntry e } }

/-! ### The stand-alone settings (R395) -/

def setObj (index sub v : Nat) (c : Core) : Core :=
  match coreObj index sub c with
  | some o => (o.wr .pcie (beBytes (typeSize o.ty) v) c).2.mapDev landRegisters
  | none => c

/-- R87, R117, R376, and R186 where CFG_REPEAT is high. -/
def standAlone (strap : BitVec 4) (c : Core) : Core :=
  let c1 := setObj 0x3002 0x4B 1 (setObj 0x3002 0x43 5 (setObj 0x3000 0x4B 1 (setObj 0x3000 0x43 3 c)))
  let c2 := setObj 0x4000 0x01 1 (setObj 0x4000 0x0B 0 (setObj 0x4000 0x03 2 c1))
  let c3 := setObj 0x1110 0x01 1 (setObj 0x1110 0x02 (if strap.getLsbD 3 then 1 else 0) c2)
  if strap.getLsbD 2 then
    let c4 := [0x3004, 0x3005, 0x3006].foldl (fun c i => setObj i 0x01 1 (setObj i 0x0B 0x10 c)) c3
    setObj 0x3004 0x0C 0xC00A0000 c4
  else c3

/-! ### The boot order -/

/-- Step 6: the pins are released, the heads of every enabled port are enumerated. -/
def release (us : Nat) (warm : Bool) (d : Dev) : Dev :=
  let d1 := { d with pw := { d.pw with
    boot := 5, coreUp := true, frozen := none, bootTime := BitVec.ofNat 32 us
    restartTime := if warm then BitVec.ofNat 32 us else d.pw.restartTime } }
  let d2 := forEach (List.range 64) (fun p d => if fpEn (d.fp p) then enumStart p d else d) d1
  { d2 with lo := { d2.lo with enum := { d2.lo.enum with boot := true } } }

/-- BOOT: `strap` are the levels at the strap balls, `xt32` whether a crystal is fitted, `patch` the vendor patch that stands
in flash (none: what stood there before), `us` the time from step 1 to the release. It runs when the core is in reset or has
just left it, SYS_RST_N is high and the supplies are within their limits. -/
def boot (strap : BitVec 4) (xt32 : Bool) (patch : Option (List Byte)) (us : Nat) (c : Core) : Core :=
  let p := c.dev.pw
  if p.coreUp || p.sysRst || p.state != .run then c
  else
    let warm := match p.inReset with | some k => isWarm k | none => false
    let fl := c.dev.ds.flash
    let flash := match patch with | some im => { fl with patch := some im } | none => fl
    let c1 := c.mapDev fun d =>
      let d1 := forEach [0, 1, 2, 3] (fun m d => d.updMac m fun x => { x with addr := Config.macAddress m }) d
      { d1 with
        ds := { d1.ds with flash := flash }
        pw := { d1.pw with inReset := none, ordered := none, supplyLow := false, strap := strap, strapBalls := strap, xt32 := xt32 } }
    let read := flashRead strap
    let c2 := match read, flash.patch with | true, some im => applyPatch im c1 | _, _ => c1
    let c3 := match read, flash.openForme with
      | true, some im => { c2 with dev := settleOpen im (openEnd c2 im) c2.dev }
      | _, _ => c2
    let c4 := match read, bestImage flash with
      | true, some im => applyImage im c3
      | _, _ => standAlone strap c3
    c4.mapDev fun d => release us warm (settleDomain d)

/-- DICTIONARY_THIRD_PASS: the ENABLE entries of remote channels, once 5F05h has ended (R389). -/
def thirdPass (c : Core) : Core :=
  if c.dev.lo.enum.op.state = 2 ∨ c.dev.lo.enum.op.state = 3 then
    let c1 := c.dev.ds.third.foldl (fun c e => applyEntryAt true e c) c
    c1.mapDev fun d => { d with ds := { d.ds with third := [] } }
  else c

end Sys2Proof.Machine
end

