-- ==== Sys2Proof/Machine/Boundary.lean ====
section
/-! DEFINITION. The tick boundary and the tick's work (R15–R24, R27, R273, R364): everything that waits for a boundary takes
effect in the one command TICK_BOUNDARY. -/

namespace Sys2Proof.Machine

/-! ### The boundary of TIME64 -/

/-- The device stands in the TCLK in which TIME64 reaches its next boundary: a step or time set taken up before has acted, and
the time up to the boundary has passed (log entry 35: DESIGN CHOICE, the command asserts the passage of time). -/
def reachBoundary (d : Dev) : Dev :=
  let d1 := applyStep d
  let gap := sdiff d1.tick.next d1.tb.time
  if gap ≤ 0 then d1
  else
    let d2 := landChases (landChannels d1)
    passQuiet { d2 with tb := { d2.tb with
      time := d2.tick.next, mark := d2.tick.next - 1, tclk := d2.tb.tclk + (gap.toNat + 63) / 64
      trim := d2.tb.trimNext.foldl (fun _ e => e.1) d2.tb.trim, trimNext := [] } }

/-- R15: the strobe, source 3A4h, the tick number. -/
def raiseStrobe (d : Dev) : Dev :=
  let b := d.tick.next
  memberEvent 0x3A4 { d with tick := { d.tick with
    lastBoundary := b, number := d.tick.number + 1, count := d.tick.count + 1, strobeAt := some d.tb.tclk, strobeTime := d.tb.time
    unsettled := false
    next := b + BitVec.ofNat 64 (d.tick.period * 64) } }

/-- R18: the pending change takes over at NEXT_ANCHOR. -/
def changeDue (d : Dev) : Bool :=
  d.tick.change == 1 && d.tick.nextPeriod != 0 && atOrAfter d.tick.lastBoundary d.tick.nextAnchor

/-- R18, R19: the new anchor and period, and what they leave of the field ports' plans. -/
def takePeriod (d : Dev) : Dev :=
  let d1 := { d with tick := { d.tick with
    anchor := d.tick.nextAnchor, period := d.tick.nextPeriod.toNat, change := 2, nextPeriod := 0 } }
  settlePorts { d1 with tick := { d1.tick with next := boundaryAfter d1 d1.tick.lastBoundary } }

/-- R364: a worker takes the manager's grid at the boundary nearest TREF, so that tick number `n` is raised at TREF. -/
def takeGrid (tref : Time64) (p : Nat) (n : BitVec 16) (d : Dev) : Dev :=
  let b := d.tick.lastBoundary
  let ahead := sdiff tref b
  if (d.tick.period * 32 : Nat) < ahead then d
  else
    let d1 := settlePorts (emFlag 0 11 { d with lk := { d.lk with adopt := none }, tick := { d.tick with anchor := tref, period := p } })
    if 0 < ahead then { d1 with tick := { d1.tick with number := n - 1, next := tref } }
    else
      let k := (-ahead).toNat / (p * 64)
      { d1 with tick := { d1.tick with number := n + BitVec.ofNat 16 k, next := tref + BitVec.ofNat 64 ((k + 1) * p * 64) } }

def adoptGrid (d : Dev) : Dev :=
  match d.lk.adopt with
  | some (tref, p, n) => takeGrid tref p n d
  | none => d

/-! ### What waits for the boundary -/

/-- R219: the counters armed with TSTART start. -/
def startCounters (d : Dev) : Dev :=
  forEach ((d.ch.cnt.filter fun e => e.2.tstart).map (·.1)) (fun n d =>
    counterStart n (d.updCnt n fun c => { c with tstart := false })) d

/-- R246, R240: the strobe reaches the compositors. -/
def strobeComps (d : Dev) : Dev := forEach (d.comps.map (·.1)) (fun k d => d.updComp k cpStrobe) d

/-- R108: the ticks of a remote axis without a sample, and in COASTING. -/
def remoteTick (a : Nat) (d : Dev) : Dev :=
  let x := d.axis a
  if !axEn x || axKind x != 1 || !x.mdl.samples.isEmpty then d
  else
    let d1 := d.updAxis a fun x => { x with st := { x.st with ticks := x.st.ticks + 1 } }
    match x.st.sync with
    | .locked => if x.cfg.remoteMiss ≤ x.st.ticks + 1 then remoteMiss a d1 else d1
    | .coasting => if x.cfg.coastLimit ≤ x.st.ticks + 1 then coastLimit a d1 else d1
    | _ => d

/-- R467: after HOLD the engines start again at the first boundary. -/
def afterHold (d : Dev) : Dev :=
  if d.pw.restart then restartEngines { d with pw := { d.pw with restart := false } } else d

/-- R466: the power states that a boundary enters or leaves. -/
def boundaryPower (d : Dev) : Dev := idleEntry (idleExit (holdEntry (afterHold d)))

/-- TICK_BOUNDARY. -/
def tickBoundary (d : Dev) : Dev :=
  let d0 := raiseStrobe (reachBoundary d)
  let d1 := engineLoads d0
  let takes := changeDue d1
  let d2 := adoptGrid (if takes then takePeriod d1 else d1)
  let past := d0.load.overNow
  let d3 := strobeComps (startCounters (boundaryStep takes d2))
  let d4 := forEach (List.range 64) fpBoundary (boundaryEngines d3)
  let d5 := forEach (d4.ax.axes.map (·.1)) remoteTick d4
  let d6 := planTakesEffect (linkBoundary past d5)
  let d7 := if surveyDue d6 then surveyStart d6 else d6
  capCredits (boundaryPower d7)

/-! ### The tick's work (R24, R27, R273) -/

/-- The cyclic items of engine `e`: the axes of its share. -/
def axesShare (d : Dev) (e : Nat) : List Nat :=
  let g := d.eng e
  (d.ax.axes.map (·.1)).filter fun a => clusterOf a == e / 4 && a % 1024 % max 1 g.shareM == g.shareJ

/-- The field ports of its share. -/
def portsShare (d : Dev) (e : Nat) : List Nat :=
  let g := d.eng e
  (List.range 64).filter fun p => p % 4 == e / 4 && p / 4 % max 1 g.shareM == g.shareJ && fpEn (d.fp p)

/-- R27: the cost of the share. -/
def shareCost (d : Dev) (e : Nat) : Nat :=
  let axis (n a : Nat) : Nat :=
    let x := d.axis a
    if !axEn x then n else match axKind x with
      | 1 => n + 60 + 10 * x.mdl.samples.length
      | 2 | 3 => n + 40
      | _ => n
  let wide := if !deviceWide d e then 0
    else if roleManager d then 30 * ((List.range 64).filter fun m => Bank.get 0xFFFF d.lk.cfg.sources m != 0xFFFF).length
    else if roleFollows d then (if d.tick.number.toNat % 8 = fullPhase d then 3200 else 800) else 0
  (axesShare d e).foldl axis 1500 + 200 * (portsShare d e).length + wide

/-- The cyclic work on the axes of a share: the samples of the remote axes, then virtual axes, masters before followers (R112,
R114), then the tick's arming pass of each axis (R129). -/
def workAxes (l : List Nat) (d : Dev) : Dev :=
  let remote := l.filter fun a => axEn (d.axis a) && axKind (d.axis a) == 1
  let depth (k : Nat) := l.filter fun a => axEn (d.axis a) && axKind (d.axis a) == 2 && virtualDepth d 5 a == k
  forEach l armingPass (forEach ([1, 2, 3, 4].flatMap depth) loadVirtual (forEach remote applySamples d))

/-- TICK_WORK: context 0 of engine `e` performs its share of the tick's work and ends it, unless a request with credit goes before it
(R24, R269). -/
def tickWork (e : Nat) (d : Dev) : Dev :=
  let g := d.eng e
  if !enginesRun d || !g.online || !tickMayRun d e then d
  else
    let d1 := d.updEng e fun g => { g with cycles := g.cycles + shareCost d e }
    let d2 := if deviceWide d e then linkWork d1 else d1
    let d3 := workAxes (axesShare d e) (settleGranted d2)
    let placed := ((axesShare d e).map fun a => narmed d3 a - narmed d2 a).sum
    endWork e 0 (d3.updEng e fun g => { g with cycles := g.cycles + 24 * placed })

end Sys2Proof.Machine
end

