-- ==== Sys2Proof/Machine/ChannelBus.lean ====
section
/-! DEFINITION. The channel bus (11 R264–R266): one operation of an engine's context on a channel, an axis, a decoder, a
chase entry, a compositor or any register, and the lane of a cluster. -/

namespace Sys2Proof.Machine

/-- What an operation answers: its completion word, and the block it writes back. -/
structure ChopDone where
  word : W64
  block : List W64 := []

/-- A status word: code, entry number, OVF, and TIME64[37:6] of the grant TCLK. -/
def statusWord (d : Dev) (code entry : Nat) (ovf : Bool) : W64 :=
  BitVec.ofNat 64 (code + (if ovf then 256 else 0) + entry % 1024 * 65536) ||| ((d.tb.time >>> 6) <<< 32)

/-- The chase entry that an image describes (R133), with the remote lead in force; an entry of a disabled channel is
suppressed (R159). -/
def entryOfImage (w : BitVec 256) (d : Dev) : Entry :=
  let chan := fld w 57 9
  let act := fld w 53 4
  { t := (w >>> 192).setWidth 64, g := (w >>> 128).setWidth 64, d := fld w 96 32, sid := fld w 78 18, axis := fld w 66 12
    chan := chan, act := act, mode := bit w 52
    supp := bit w 50 || (decide (act ≤ 4 ∨ act = 7) && !chEn (d.chOut chan))
    revp := fld w 48 2, losp := fld w 46 2, rpt := bit w 45, seq := w.setWidth 32, lead := fld d.gl.cfg 16 16, coast := false }

/-- Word `i` of a block. -/
def blockWord (l : List W64) (i : Nat) : W64 := l.getD i 0

/-- CRD and ARD: a register read with its effect; the engine's latch takes no part (log entry 29: DEDUCED). -/
def chopRead (a : Nat) (c : Core) : ChopDone × Core :=
  (⟨(regPeek c 16 a).setWidth 64, []⟩, c.mapDev (readEffect a))

/-- CWR and AWR: a register write; the words of ANG_OFS use the engine's own stage (log entry 29: DEDUCED). -/
def chopWrite (e a : Nat) (v : W64) (c : Core) : ChopDone × Core :=
  (⟨statusWord c.dev 0 0 false, []⟩, fabricWrite (16 + e) a (v.setWidth 32) c)

/-- DECRD: counts, latch and one ring entry of decoder `n`, all of one TCLK (R84). -/
def chopDecoder (n k : Nat) (c : Core) : ChopDone × Core :=
  let x := c.dev.dec n
  let r := Bank.get {} x.ring (k % 16)
  (⟨statusWord c.dev 0 0 false, [x.total.setWidth 64, x.pos.setWidth 64, x.updcnt.setWidth 64, x.ustamp,
    x.uattr.setWidth 64, (x.upos.setWidth 64 <<< 32) ||| x.utotal.setWidth 64, r.stamp, r.attr.setWidth 64]⟩, c)

/-- MLOAD: a speed model in the axis's track (R99). -/
def chopModel (a : Nat) (b : List W64) (c : Core) : ChopDone × Core :=
  let l : ModelLoad :=
    { c := (blockWord b 0).toInt
      pace := { rate := (blockWord b 1).toNat, drate := (blockWord b 2).toInt, ivl := (blockWord b 3).toNat, divl := (blockWord b 4).toInt }
      seg := none, setModel := bit (blockWord b 5) 0 }
  (⟨statusWord c.dev (if loadValid c.dev a then 0 else 2) 0 false, []⟩, c.mapDev (loadModel a l))

/-- An axis takes segments: it is enabled and remote, virtual or master-derived. -/
def takesSegment (d : Dev) (a : Nat) : Bool :=
  axEn (d.axis a) && (axKind (d.axis a) == 1 || axKind (d.axis a) == 2 || axKind (d.axis a) == 3)

/-- SEGLD: a segment; NOT_VALID on an axis that takes none (log entry 29: DEDUCED). -/
def chopSegment (a : Nat) (b : List W64) (c : Core) : ChopDone × Core :=
  let s : Segment := ⟨blockWord b 0, blockWord b 1, blockWord b 2, blockWord b 3⟩
  (⟨statusWord c.dev (if takesSegment c.dev a then 0 else 2) 0 false, []⟩, c.mapDev (loadSegment a s))

/-- A word of a stage that the chain has not got: the manual states none (a free value). -/
def stageCount (d : Dev) (n k : Nat) (r : W64) : W64 :=
  let lo := lowestOf d n
  if k = 0 || (stagesAbove d lo).contains (lo + k) then (d.chCnt (lo + k)).cnt.setWidth 64 else r

/-- CHRD: the counts of a chain and both captures of channel `n`; FULL0 and FULL1 clear. -/
def chopChannel (n : Nat) (c : Core) : ChopDone × Core :=
  let p := c.dev.chCap n
  let q1 := c.dev.draw
  let q2 := q1.2.draw
  let q3 := q2.2.draw
  let st := fun k r => stageCount c.dev n k r
  let blk := [st 0 0, st 1 q1.1, st 2 q2.1, st 3 q3.1, p.cap0.setWidth 64, p.cap1.setWidth 64, p.cap0t, p.cap1t,
    p.caps.setWidth 64, 0, 0, 0]
  (⟨statusWord c.dev 0 0 false, blk⟩,
    { c with dev := q3.2.updCap n fun x => { x with caps := clrBit (clrBit x.caps 1) 2 } })

/-- CHWR: a whole chain of channel `n` loaded as one commit (R224). -/
def chopChain (n : Nat) (b : List W64) (c : Core) : ChopDone × Core :=
  let lo := lowestOf c.dev n
  let ks := lo :: stagesAbove c.dev lo
  (⟨statusWord c.dev 0 0 false, []⟩, c.mapDev fun d =>
    forEach ks (fun k d => countLoad k ((blockWord b (k - lo)).setWidth 32) (d.updCnt k fun x => { x with wshadow := none })) d)

/-- ARM: a chase entry in the quarter of its axis, or FULL (R131, R316). -/
def chopArm (b : List W64) (c : Core) : ChopDone × Core :=
  let w : BitVec 256 := ((blockWord b 3).setWidth 256 <<< 192) ||| ((blockWord b 2).setWidth 256 <<< 128) |||
    ((blockWord b 1).setWidth 256 <<< 64) ||| (blockWord b 0).setWidth 256
  let e := entryOfImage w c.dev
  let r := placeEntry (clusterOf e.axis) e c.dev
  let word := match r.1 with
    | some (cs, k, ovf) => statusWord c.dev 0 (64 * cs + k) ovf
    | none => statusWord c.dev 3 0 false
  (⟨word, []⟩, { c with dev := r.2 })

/-- RETIME, WDRAW and DURW on entry `n` of 1,024, which was that of `ent` at issue: COMMITTED when it commits in this TCLK or has
committed, or is no longer there (R137). -/
def chopEntry (n : Nat) (ent : Option (Nat × W32)) (f : Entry → Option Entry) (c : Core) : ChopDone × Core :=
  match Bank.get none (c.dev.chase (n / 64)).entries (n % 64) with
  | some e =>
    if ent = some (e.sid, e.seq) ∧ commitsNow c.dev (n / 64) (n % 64) = false then
      (⟨statusWord c.dev 0 n false, []⟩, c.mapDev (putEntry (n / 64) (n % 64) (f e)))
    else (⟨statusWord c.dev 1 n false, []⟩, c)
  | none => (⟨statusWord c.dev 1 n false, []⟩, c)

/-- CPOP: TXD, RXD, STAT or CMD of compositor `k` (R244). -/
def chopComp (k sel : Nat) (v : W64) (c : Core) : ChopDone × Core :=
  let ok : ChopDone := ⟨statusWord c.dev 0 0 false, []⟩
  match sel with
  | 0 => (ok, c.mapDev (txdWrite k (v.setWidth 32)))
  | 1 => (⟨(rxdRead k c.dev).1.setWidth 64, []⟩, { c with dev := (rxdRead k c.dev).2 })
  | 2 => (⟨(cpStatRead k c.dev).setWidth 64, []⟩, c)
  | _ => (ok, c.mapDev (cpCmdWrite k (v.setWidth 32)))

/-- GREG of engine `e`: any register with the effects of a host access. -/
def chopGreg (e : Nat) (imm2 : W32) (v : W64) (c : Core) : ChopDone × Core :=
  let a := fld imm2 2 24 * 4
  if bit imm2 31 then (⟨statusWord c.dev 0 0 false, []⟩, fabricWrite (16 + e) a (v.setWidth 32) c)
  else
    let r := fabricRead (16 + e) a c
    (⟨r.1.setWidth 64, []⟩, r.2)

/-- An operation by its CHOP code; the target is taken modulo the operation's space. -/
def chop (o : ChanOp) (c : Core) : ChopDone × Core :=
  let off := o.imm2.toNat / 4 * 4
  match o.op with
  | 0x1 => chopRead (baseCh (o.target % 512) + off % 256) c
  | 0x2 => chopWrite o.eng (baseCh (o.target % 512) + off % 256) o.data c
  | 0x3 => chopRead (baseAx (o.target % 4096) + off % 128) c
  | 0x4 => chopWrite o.eng (baseAx (o.target % 4096) + off % 128) o.data c
  | 0x5 => chopDecoder (o.target % 256) (fld o.imm2 0 4) c
  | 0x6 => chopModel (o.target % 4096) o.block c
  | 0x7 => chopSegment (o.target % 4096) o.block c
  | 0x8 => chopChannel (o.target % 512) c
  | 0x9 => chopChain (o.target % 512) o.block c
  | 0xA => chopArm o.block c
  | 0xB => chopEntry (o.target % 1024) o.ent (fun e => some { e with t := blockWord o.block 0, g := blockWord o.block 1 }) c
  | 0xC => chopEntry (o.target % 1024) o.ent (fun _ => none) c
  | 0xD => chopEntry (o.target % 1024) o.ent (fun e => some { e with d := (o.data.setWidth 32).toNat }) c
  | 0xE => chopComp (o.target % 64) (fld o.imm2 0 2) o.data c
  | 0xF => chopGreg o.eng o.imm2 o.data c
  | _ => (⟨0, []⟩, c)

/-- The completion word takes the place of the oldest operation still to complete. -/
def fillOldest (w : W64) : List (Option W64) → List (Option W64)
  | [] => []
  | none :: t => some w :: t
  | some v :: t => some v :: fillOldest w t

/-- The block and the completion word of an operation reach its context (R265, R266). -/
def chopDeliver (o : ChanOp) (put : W64 → List (Option W64) → List (Option W64)) (r : ChopDone × Core) : Core :=
  r.2.mapDev fun d =>
    let d1 := forEach (List.range r.1.block.length) (fun i d => d.write64 (o.blk + i) (blockWord r.1.block i)) d
    d1.updCtx o.eng o.ctx fun x => { x with retq := put r.1.word x.retq }

/-- A channel-bus operation issued and carried out; a fifth issued and not yet popped is fault 07h (R264). -/
def chopNow (o : ChanOp) (c : Core) : Core :=
  if (c.dev.ctx o.eng o.ctx).retq.length < 4 then
    chopDeliver o (fun w l => l ++ [some w]) (chop o c)
  else c.mapDev (contextFault 7 o.eng o.ctx)

/-- Words of the block an operation reads at its issue (R264, R266). -/
def chopReads (op : Nat) : Nat := match op with | 6 => 6 | 7 | 9 | 10 => 4 | 11 => 2 | _ => 0

/-- An operation of context `c` of engine `e` as its word gives it: code, target, IMM2, data, and the address of its block in
the cluster's engine data memory. -/
def chopRow (op e k target : Nat) (imm2 : W32) (v : W64) (blk : Nat) (c : Core) : Core :=
  let a := dataAddr (e / 4) (blk % 65536)
  chopNow { eng := e, ctx := k, op := op, target := target, imm2 := imm2, data := v, blk := a,
            block := (List.range (chopReads op)).map fun i => c.dev.read64 (a + i), ent := entryName op target c.dev } c

/-- The next engine of a lane in turn after `last` that has an operation waiting. -/
def laneTurn (l : Lane) (q : Nat) : Option Nat :=
  [1, 2, 3, 4].findSome? fun i =>
    let e := (l.last + i) % 4
    if l.ops.any (fun o => o.eng == 4 * q + e) then some e else none

/-- The lane without its first operation of engine `e`. -/
def dropFirst (e : Nat) : List ChanOp → List ChanOp
  | [] => []
  | o :: t => if o.eng = e then t else o :: dropFirst e t

/-- CHANNEL_BUS_GRANT: the lane of cluster `q` grants one operation, the engines in turn (R265). -/
def channelGrant (q : Nat) (c : Core) : Core :=
  let l := c.dev.lane q
  match laneTurn l q with
  | none => c
  | some e =>
    match l.ops.find? (fun o => o.eng == 4 * q + e) with
    | none => c
    | some o =>
      chopDeliver o fillOldest (chop o (c.mapDev fun d => d.updLane q fun l => { ops := dropFirst (4 * q + e) l.ops, last := e }))

end Sys2Proof.Machine
end

