-- ==== Sys2Proof/Machine/Memory.lean ====
section
/-! DEFINITION. SRAM errors (R447, R448, R282): the counts, the record of the word, and what an uncorrectable error does in
each region. -/

namespace Sys2Proof.Machine

def regionCode (r : SramRegion) : Nat :=
  match r with
  | .galley => 0 | .engineData => 1 | .controlStore => 2 | .dictionary => 3 | .trace => 4 | .buffers => 5
  | .compositor => 6 | .chase => 7 | .scratch => 8

/-- GB_ECCADDR. -/
def eccAddr (r : SramRegion) (w : Nat) : W32 := BitVec.ofNat 32 (regionCode r * 2 ^ 28 + w % 2 ^ 24)

/-- CORRECTABLE_ERROR in word `w` of a region: counted, recorded, source 3AAh; the corrected value is delivered and written
back, so that no word changes (R447). -/
def correctableError (r : SramRegion) (w : Nat) (d : Dev) : Dev :=
  memberEvent 0x3AA { d with ecc := { d.ecc with cecc := incSat d.ecc.cecc, addr := eccAddr r w } }

/-- Galley: the slug leaves service; its entry is withdrawn. -/
def retireStorage (sid : Nat) (d : Dev) : Dev :=
  let d1 := match findEntry d sid with | some (cs, k, _) => putEntry cs k none d | none => d
  let d2 := d1.updSlug sid fun _ => {}
  if 262144 ≤ sid ∨ d.gs.retired.contains sid = true then d
  else { d2 with
    gs := { d2.gs with retired := d2.gs.retired ++ [sid], freed := d2.gs.freed.filter fun n => n != sid }
    ecc := { d2.ecc with retired := d2.ecc.retired + 1 } }

/-- R282: fault 05h takes the engine out of service at once. With another copy good the failing one is rewritten; with all
four bad a warm restart is ordered. -/
def storeFault (e c : Nat) (allBad : Bool) (d : Dev) : Dev :=
  let pc := (d.ctx e c).pc.toNat
  let d1 := neFlag e 14 ((goOffline e d).updEng e fun g => { g with
    fault := BitVec.ofNat 32 (5 * 2 ^ 24 + c * 65536 + pc), faultc := incSat g.faultc })
  if allBad then orderRestart .warmStore d1 else { d1 with store := { d1.store with repairs := d1.store.repairs + 1 } }

/-- The value a valid image stores for an object. -/
def storedValue (index sub : Nat) (d : Dev) : Option (List Byte) :=
  match bestImage d.ds.flash with
  | some im =>
    let hit := im.entries.find? fun (e : DictEntry) => e.index == index && e.sub == sub
    hit.map DictEntry.value
  | none => none

/-- Dictionary store: the object takes its stored value, or its default, and the access is answered with STATE. -/
def objectLost (index sub : Nat) (who : Option DictWho) (c : Core) : Core :=
  match objAt index sub c with
  | none => c
  | some o =>
    let c1 := (o.wr .pcie ((storedValue index sub c.dev).getD (defaultOf o)) c).2
    match who with
    | some w => c1.mapDev (respond w (responseBody 1 .state index sub o.ty 0 []))
    | none => c1

/-- Trace: the record is discarded and counted as dropped. -/
def traceLost (w : Nat) (d : Dev) : Dev :=
  let a := 0x300000 + w
  if outcomeBase ≤ a ∧ a < outcomeBase + 8192 then
    let k := outcomeBase + (a - outcomeBase) / 2 * 2
    let d1 := (d.write64 k 0).write64 (k + 1) 0
    { d1 with gl := { d1.gl with orlost := d1.gl.orlost + 1 } }
  else if traceBase ≤ a ∧ a < traceBase + 2 * traceCap then
    let k := traceBase + (a - traceBase) / 2 * 2
    let d1 := (d.write64 k 0).write64 (k + 1) 0
    { d1 with trace := { d1.trace with dropped := d1.trace.dropped + 1 } }
  else d

/-- Chase backing, entry `n` of 1,024: withdrawn, its slug PARKED. -/
def entryLost (n : Nat) (d : Dev) : Dev :=
  match Bank.get none (d.chase (n / 64)).entries (n % 64) with
  | some e =>
    let d1 := (putEntry (n / 64) (n % 64) none d).updChase (n / 64) fun c => { c with start := Bank.set none c.start (n % 64) none }
    if (d.slug e.sid).state = .armed ∧ (d.slug e.sid).seq = e.seq then parkSlug e.sid d1 else d1
  | none => d

/-- A frame or exchange in a buffer is discarded. -/
def bufferLost (r : SramReader) (d : Dev) : Dev :=
  match r with
  | .mac m => receiveError m d
  | .port p => (match (d.fp p).line with
      | some e => badFrame p e d
      | none => fpFlag p 3 (d.updFp p fun f => { f with crcc := incSat f.crcc }))
  | _ => d

/-- UNCORRECTABLE_ERROR in word `w` of a region; `allBad` says that all four copies of a control-store word have failed. -/
def uncorrectableError (r : SramRegion) (w : Nat) (by_ : SramReader) (allBad : Bool) (c : Core) : Core :=
  let c1 := c.mapDev fun d => memberEvent 0x3AB { d with ecc := { d.ecc with
    uecc := incSat d.ecc.uecc, addr := eccAddr r w, alarm := true } }
  match r, by_ with
  | .galley, _ => c1.mapDev (retireStorage (w / 4))
  | .engineData, .engine e k => c1.mapDev (contextFault 1 e k)
  | .scratch, .engine e k => c1.mapDev (contextFault 1 e k)
  | .controlStore, .engine e k => c1.mapDev (storeFault e k allBad)
  | .dictionary, .object i s who => objectLost i s who c1
  | .trace, _ => c1.mapDev (traceLost w)
  | .buffers, b => c1.mapDev (bufferLost b)
  | .compositor, _ => c1.mapDev fun d => cpFlag (w / 32) 10 (d.updComp (w / 32) cpHalted)
  | .chase, _ => c1.mapDev (entryLost (w / 4))
  | _, _ => c1

end Sys2Proof.Machine
end

