-- ==== Sys2Proof/Machine/State.lean ====
section
/-! DEFINITION. The state of the machine: the block as the manual gives it, and the queue of the commands that wait. -/

namespace Sys2Proof.Machine

/-- The state: everything the manual gives the device (Machine/Blocks.lean), and the commands waiting, first in first out. -/
structure State where
  core : Core := {}
  pending : List Instr := []
  deriving DecidableEq, Repr

/-- A fault would stop the machine. The manual gives this block none: its errors are flags, counts and interrupts, and a
reserved address reads 0. No command raises a fault. -/
inductive Fault where
  deriving DecidableEq, Repr

/-- Why a command has no effect at all. -/
inductive Refusal where
  /-- A command without a meaning yet, by its mnemonic. Safe. No arm raises it. -/
  | notModelled (mnemonic : String)
  deriving DecidableEq, Repr

/-- The machine right after a power-on reset, before BOOT: every register at its reset value, lifecycle and slots as the
always-on island and the fuses keep them (log entry 19), an empty queue. -/
def State.reset : State := {}

end Sys2Proof.Machine
end

