-- ==== Sys2Proof/Machine/Operands.lean ====
section
/-! DEFINITION. The ranges of the commands' operands: how many of each thing the device has (R1, R425), and which addresses
and offsets a command takes. -/

namespace Sys2Proof.Machine

/-- An access path: PCIe, QSPI, or the GREG of an engine (R418). -/
def isPath (p : Nat) : Bool := decide (p < 2) || (decide (16 ≤ p) && decide (p < 32))
/-- The path of a register write: PCIe configuration space and BAR4 too (R411). -/
def isWritePath (p : Nat) : Bool := decide (p < 4) || (decide (16 ≤ p) && decide (p < 32))
/-- A word of BAR0, of BAR2 (R425, R143). -/
def isBar0 (a : Nat) : Bool := decide (a < 67108864) && decide (a % 4 = 0)
def isBar2 (a : Nat) : Bool := decide (a < 16777216) && decide (a % 4 = 0)
/-- Register addresses are words, but for Message Control in configuration space. -/
def isRegisterAddr (p a : Nat) : Bool := decide (p = 2) || decide (a % 4 = 0)
def isEngine (e : Nat) : Bool := decide (e < 16)
def isContext (c : Nat) : Bool := decide (c < 4)
def isMac (m : Nat) : Bool := decide (m < 4)
def isPin (p : Nat) : Bool := decide (p < 256)
/-- TP0–TP255, then the balls of the trip inputs (R202; log entry 74). -/
def isBall (p : Nat) : Bool := decide (p < 272)
def isAxis (a : Nat) : Bool := decide (a < 4096)
def isChannel (n : Nat) : Bool := decide (n < 512)
def isChase (k : Nat) : Bool := decide (k < 16)
def isComp (k : Nat) : Bool := decide (k < 64)
def isPair (p : Nat) : Bool := decide (p < 128)
def isTrip (i : Nat) : Bool := decide (i < 16)
def isFieldPort (p : Nat) : Bool := decide (p < 64)
def isSource (n : Nat) : Bool := decide (n < 1024)
def isSid (n : Nat) : Bool := decide (n < 262144)
/-- A grain of a TCLK (R2). -/
def isGrain (g : Nat) : Bool := decide (g < 64)
/-- A duration D: 26 bits of TCLK and 6 of grains (R118, R121). -/
def isDuration (v : Nat) : Bool := decide (v < 4294967296)
/-- An address of the engine data memory (R262). -/
def isBlock (a : Nat) : Bool := decide (a < 65536)
/-- The compare registers at 0Ch, 10h and 14h of a channel. -/
def isCompareReg (r : Nat) : Bool := r == 12 || r == 16 || r == 20
/-- PC, C0, C1 and IMEM of a compositor (R248). -/
def isProgramReg (r : Nat) : Bool :=
  r == 0x10 || r == 0x28 || r == 0x2C || (decide (0x100 ≤ r) && decide (r < 0x200) && decide (r % 4 = 0))
/-- The eight sessions (R372). -/
def isRequester (w : DictWho) : Bool := match w with | .session n => decide (n < 8) | _ => true
/-- The fields of a trajectory frame fit its bytes, and its entries stand in ascending master order (R355, R356). -/
def isTrajectory (f : Trajectory) : Bool :=
  decide (f.domain < 65536) && decide (f.src < 256) && decide (f.period < 4294967296) &&
  (f.entries.all fun e => decide (e.master < 64)) && decide ((f.entries.map (·.master)).Pairwise (· < ·))

end Sys2Proof.Machine
end

