-- ==== Sys2Proof/WellFormed.lean ====
section
/-! DEFINITION. Which commands are well formed: every numbered operand names something the device has. -/

namespace Sys2Proof

open Sys2Proof.Machine

/-- The operands of a command lie in their ranges. -/
def Instr.wf (i : Instr) : Bool :=
  match i with
  | .registerWrite p a _ => isWritePath p && decide (a < 67108864) && isRegisterAddr p a
  | .wideValueLowRead p a => isPath p && isBar0 a
  | .wideValueHighRead p a => isPath p && isBar0 a
  | .wideValueLowWrite p a _ => isPath p && isBar0 a
  | .wideValueCommit p a _ => isPath p && isBar0 a
  | .tickBoundary => true
  | .tickStrobeReachesEngine e => isEngine e
  | .nextPeriodWrite _ => true
  | .nextAnchorWrite _ => true
  | .updateCredit e => isEngine e
  | .tbHtrimWrite _ => true
  | .tbStepCommit _ => true
  | .servoWrite _ => true
  | .sync p dom _ g _ => isMac p && decide (dom < 256) && isGrain g
  | .followUp p dom _ _ => isMac p && decide (dom < 256)
  | .announce dom _ => decide (dom < 256)
  | .pdelayReq p _ g g2 => isMac p && isGrain g && isGrain g2
  | .pdelayResp p g _ => isMac p && isGrain g
  | .pdelayRespFollowUp p _ => isMac p
  | .ptpManagementMessage p => isMac p
  | .syncReceiptTimeout _ => true
  | .announceReceiptTimeout _ => true
  | .syncSend p g => isMac p && isGrain g
  | .announceSend p => isMac p
  | .pdelayReqSend p g => isMac p && isGrain g
  | .alignLost => true
  | .pinTransition p _ _ => isBall p
  | .edgeAccepted p => isPin p
  | .pwdFault n => isPin n
  | .updateRequest n => isPin n
  | .pinWrite p _ => isPin p
  | .decoderEnable n => isPin n
  | .decoderDisable n => isPin n
  | .clr n => isPin n
  | .ustampLoRead p n => isPath p && isPin n
  | .aoqTransition k _ _ _ => decide (k < 4)
  | .preset k => decide (k < 4)
  | .ghost a => isAxis a
  | .stopped a => isAxis a
  | .resync a => isAxis a
  | .axisEnable a => isAxis a
  | .axisDisable a => isAxis a
  | .aoqSeed a => isAxis a
  | .remoteMiss a => isAxis a
  | .coastLimit a => isAxis a
  | .coastMax a => isAxis a
  | .updateService e a => isEngine e && isAxis a
  | .armingPass e a => isEngine e && isAxis a
  | .policyService e a => isEngine e && isAxis a
  | .policyWalk a => isAxis a
  | .tickWork e => isEngine e
  | .insert => true
  | .remove sid => isSid sid
  | .modify sid => isSid sid
  | .modifyDur sid => isSid sid
  | .free sid => isSid sid
  | .slugInsertObject who _ => isRequester who
  | .slugRemoveObject who _ => isRequester who
  | .galleyWindowRead p a => decide (p < 2) && isBar2 a
  | .compact => true
  | .compactionDone => true
  | .clrpk cs => isChase cs
  | .galleyGrant => true
  | .galleyOpComplete => true
  | .chaseCommit cs => isChase cs
  | .commitRecord => true
  | .actionComplete => true
  | .edgeRise n sid _ => isChannel n && isSid sid
  | .edgeFall n sid _ => isChannel n && isSid sid
  | .pulse n sid _ dur => isChannel n && isSid sid && isDuration dur
  | .toggle n sid _ => isChannel n && isSid sid
  | .captureArm n sid _ dur => isChannel n && isSid sid && isDuration dur
  | .engineWake chan sid _ => decide (chan < 512) && isSid sid
  | .doorbell chan sid _ => decide (chan < 512) && isSid sid
  | .emulationStep n a sid _ => isChannel n && isAxis a && isSid sid
  | .pulseEnd n => isChannel n
  | .channelEnable n => isChannel n
  | .channelDisable n => isChannel n
  | .counterTerminal n => isChannel n
  | .compareMatch n _ => isChannel n
  | .compareWrite n r _ => isChannel n && isCompareReg r
  | .periodWrite n _ => isChannel n
  | .quoinClose _ => true
  | .quoinOpen _ => true
  | .frise n => isChannel n
  | .ffall n => isChannel n
  | .reload n => isChannel n
  | .countWrite n _ => isChannel n
  | .emen n => isChannel n
  | .emulationAxisStep n => isChannel n
  | .minPulseFilter p _ _ => isPair p
  | .sideTurnOn p _ _ => isPair p
  | .sideTurnOff p _ _ => isPair p
  | .refreshStart p _ => isPair p
  | .refreshEnd p _ => isPair p
  | .dis p => isPair p
  | .stoppingDone p => isPair p
  | .tripAccepted j => isTrip j
  | .swtrip j => isTrip j
  | .latchClear j => isTrip j
  | .gstart n mask => isChannel n && decide (mask < 256)
  | .greset n mask => isChannel n && decide (mask < 256)
  | .counterTstart n => isChannel n
  | .counterStart n => isChannel n
  | .counterStop n => isChannel n
  | .swcap n => isChannel n
  | .chainCountRead p n => isPath p && isChannel n
  | .chainCountWrite n _ => isChannel n
  | .captureRead p n _ => isPath p && isChannel n
  | .captureWindowClose n => isChannel n
  | .cpSet k => isComp k
  | .cpOut k => isComp k
  | .cpIn k => isComp k
  | .cpWait k => isComp k
  | .cpMov k => isComp k
  | .cpJmp k => isComp k
  | .cpSig k => isComp k
  | .cpHalt k => isComp k
  | .cpIllop k => isComp k
  | .compositorDelayStep k => isComp k
  | .txdWrite k _ => isComp k
  | .rxdRead p k => isPath p && isComp k
  | .compositorStart k _ => isComp k
  | .compositorTstart k _ => isComp k
  | .compositorHalt k => isComp k
  | .compositorEnable k => isComp k
  | .compositorDisable k => isComp k
  | .programWrite k r _ => isComp k && isProgramReg r
  | .microword e => isEngine e
  | .safePoint e => isEngine e
  | .endw e => isEngine e
  | .cstart e => isEngine e
  | .chalt e => isEngine e
  | .offlineRequest e => isEngine e
  | .onlineRequest e => isEngine e
  | .lockWrite e _ => isEngine e
  | .lockstepMismatch e => isEngine e
  | .ins e c blk => isEngine e && isContext c && isBlock blk
  | .rem e c _ => isEngine e && isContext c
  | .mod e c _ blk => isEngine e && isContext c && isBlock blk
  | .modd e c _ blk => isEngine e && isContext c && isBlock blk
  | .galleyPortFree e c _ => isEngine e && isContext c
  | .pop e c a blk => isEngine e && isContext c && isAxis a && isBlock blk
  | .pend e c a _ blk => isEngine e && isContext c && isAxis a && isBlock blk
  | .mark e c _ _ => isEngine e && isContext c
  | .galleyPortRead e c _ blk => isEngine e && isContext c && isBlock blk
  | .crd e k t _ => isEngine e && isContext k && isChannel t
  | .cwr e k t _ _ => isEngine e && isContext k && isChannel t
  | .ard e k t _ => isEngine e && isContext k && isAxis t
  | .awr e k t _ _ => isEngine e && isContext k && isAxis t
  | .decrd e k t _ _ blk => isEngine e && isContext k && isPin t && isBlock blk
  | .mload e k t blk => isEngine e && isContext k && isAxis t && isBlock blk
  | .segld e k t blk => isEngine e && isContext k && isAxis t && isBlock blk
  | .chrd e k t blk => isEngine e && isContext k && isChannel t && isBlock blk
  | .chwr e k t blk => isEngine e && isContext k && isChannel t && isBlock blk
  | .arm e k blk => isEngine e && isContext k && isBlock blk
  | .retime e k t _ blk => isEngine e && isContext k && decide (t < 1024) && isBlock blk
  | .wdraw e k t => isEngine e && isContext k && decide (t < 1024)
  | .durw e k t _ => isEngine e && isContext k && decide (t < 1024)
  | .cpop e k t _ _ => isEngine e && isContext k && isComp t
  | .greg e k _ _ => isEngine e && isContext k
  | .channelBusGrant q => decide (q < 4)
  | .openFormeLoadDone => true
  | .interruptEvent n => isSource n
  | .pinSenseAccept n _ => isPin n
  | .icDbell _ => true
  | .icSetp w _ => decide (w < 32)
  | .icPendClear w _ => decide (w < 32)
  | .claim p t => isPath p && decide (t < 32)
  | .complete t _ => decide (t < 32)
  | .icSourceWrite n _ => isSource n
  | .chwRead p g => isPath p && decide (g < 64)
  | .axwLoRead p g => isPath p && decide (g < 64)
  | .hostVectorMessage v => decide (v < 4)
  | .msixUnmask v => decide (v < 4)
  | .wakeLatch n _ => isPin n
  | .pcieReset _ => true
  | .macLineReset m _ => isMac m
  | .crossingResync k => decide (k < 6)
  | .clrw => true
  | .cyclicExchangeStart h => decide (h < 2048)
  | .encoderResponse p _ _ => isFieldPort p
  | .gateDriveResponse p _ _ => isFieldPort p
  | .ioResponse p _ _ => isFieldPort p
  | .noResponse p => isFieldPort p
  | .acyclicExchangeStart p => isFieldPort p
  | .identifyResponse p _ _ _ => isFieldPort p
  | .readResponse p _ _ => isFieldPort p
  | .writeResponse p _ _ => isFieldPort p
  | .portEnable p => isFieldPort p
  | .portDisable p => isFieldPort p
  | .load p => isFieldPort p
  | .enum p => isFieldPort p
  | .enumerationDone => true
  | .cyclicGateOpen m => isMac m
  | .cyclicGateClose m => isMac m
  | .trajectoryFrame m _ f => isMac m && isTrajectory f
  | .summarySend m => isMac m
  | .summary m dom _ a _ _ => isMac m && decide (dom < 65536) && decide (a < 256)
  | .fullStatus m dom _ a _ _ => isMac m && decide (dom < 65536) && decide (a < 256)
  | .masterLost m => decide (m < 64)
  | .takeover => true
  | .workerLost a => decide (a < 256)
  | .arp m _ _ => isMac m
  | .icmpEcho m _ _ _ _ => isMac m
  | .acyclicDatagram m _ port _ dest _ _ => isMac m && decide (port < 65536) && decide (dest < 65536)
  | .sessionExpiry n => decide (n < 8)
  | .macEnable m => isMac m
  | .macDisable m _ => isMac m
  | .linkDown m => isMac m
  | .linkUp m => isMac m
  | .receiveError m => isMac m
  | .read who index sub => isRequester who && decide (index < 65536) && decide (sub < 256)
  | .write who index sub _ => isRequester who && decide (index < 65536) && decide (sub < 256)
  | .keyedWrite who index sub _ => isRequester who && decide (index < 65536) && decide (sub < 256)
  | .describe who index sub => isRequester who && decide (index < 65536) && decide (sub < 256)
  | .readSeg who index sub offset count => isRequester who && decide (index < 65536) && decide (sub < 256) && decide (offset < 4294967296) && decide (count < 65536)
  | .writeSeg who index sub offset _ _ => isRequester who && decide (index < 65536) && decide (sub < 256) && decide (offset < 4294967296)
  | .readAll who index => isRequester who && decide (index < 65536)
  | .mailboxGo p _ => decide (p < 2)
  | .mailboxResponse p => decide (p < 2)
  | .commit => true
  | .commitDone _ => true
  | .restore => true
  | .erase => true
  | .eventGroupTrigger g => decide (g < 256)
  | .dictionaryThirdPass => true
  | .qspiRead a _ _ => decide (a < 4294967296)
  | .qspiWrite a _ _ => decide (a < 4294967296)
  | .readHostStatus => true
  | .clearHostStatus _ => true
  | .targetReset => true
  | .qspiUnknownOpcode => true
  | .hqCsNRise _ => true
  | .hqRstN _ => true
  | .badAccess => true
  | .tamper => true
  | .vbatLoss => true
  | .vbatRestore => true
  | .powerRequest r => decide (r < 4)
  | .idleEntry => true
  | .idleExit => true
  | .holdEntry => true
  | .pwrEnFall => true
  | .wakeN _ => true
  | .holdExit _ => true
  | .sysRstN _ => true
  | .supplyFault => true
  | .wrst _ => true
  | .warmRestart => true
  | .boot _ _ _ _ => true
  | .bypass => true
  | .idcode => true
  | .samplePreload cells => decide (cells.length = 256)
  | .extest => true
  | .highz => true
  | .survey => true
  | .surveyStart => true
  | .sentinelMeasured _ _ => true
  | .surveyDone _ => true
  | .marginPlanTakesEffect => true
  | .vtrimStep => true
  | .calibrationStart => true
  | .calibrationDone _ => true
  | .correctableError _ w => decide (w < 16777216)
  | .uncorrectableError _ w _ _ => decide (w < 16777216)
  | .scrub => true
  | .claimableSpanEnd n => isSource n
  | .tripLevelInactive j => isTrip j

/-- A command whose operands all lie in their ranges. -/
abbrev Instr.WellFormed (i : Instr) : Prop := i.wf = true

end Sys2Proof
end

