-- ==== Sys2Proof/Machine/Exec.lean ====
section
/-! DEFINITION. How a command's effect on the device becomes an outcome: an ill-formed command names nothing the device has and acts
on nothing; a command of the core acts while the core's clocks run, one of the engines' own while the engines run, and changes nothing
otherwise. -/

namespace Sys2Proof.Machine

/-- The effect on the whole core; a command that is not `ok` names nothing the device has and acts as a NOP, as an access of a reserved
offset does (R426; log entry 64: DESIGN CHOICE). -/
def onCore (ok : Bool) (f : Core → Core) (s : State) : Host.Outcome State Fault Refusal :=
  .next (if ok then { s with core := f s.core } else s)

/-- The effect on the device without its key store. -/
def onDevice (ok : Bool) (f : Dev → Dev) (s : State) : Host.Outcome State Fault Refusal := onCore ok (fun c => c.mapDev f) s

/-- The effect while the core's clocks run (R320, R460, R464). -/
def whenLive (ok : Bool) (f : Core → Core) (s : State) : Host.Outcome State Fault Refusal :=
  onCore ok (fun c => if live c.dev then f c else c) s

def whenLiveDev (ok : Bool) (f : Dev → Dev) (s : State) : Host.Outcome State Fault Refusal :=
  whenLive ok (fun c => c.mapDev f) s

/-- The effect of the engines' own work: only in RUN (R464, R466). -/
def whenRunning (ok : Bool) (f : Core → Core) (s : State) : Host.Outcome State Fault Refusal :=
  whenLive ok (fun c => if enginesRun c.dev then f c else c) s

def whenRunningDev (ok : Bool) (f : Dev → Dev) (s : State) : Host.Outcome State Fault Refusal :=
  whenRunning ok (fun c => c.mapDev f) s

/-- An effect while the core's clocks run, and what remains of it otherwise. -/
def liveOr (f g : Dev → Dev) (c : Core) : Core := if live c.dev then c.mapDev f else c.mapDev g

/-- The engine issues words: in RUN, and in IDLE up to the safe point at which it stops (R466). -/
def issues (e : Nat) (d : Dev) : Bool := enginesRun d || (d.pw.state == .idle && d.pw.stopping && (d.eng e).busy)

/-- An operation that a word of engine `e` issues. -/
def byEngineC (e : Nat) (f : Core → Core) (c : Core) : Core := if issues e c.dev then f c else c
def byEngine (e : Nat) (f : Dev → Dev) (c : Core) : Core := if issues e c.dev then c.mapDev f else c

/-- The ball of a trip input takes a level. -/
def tripBall (i : Nat) (lvl : Bool) (d : Dev) : Dev := d.updTrip i fun t => { t with ball := lvl }

/-- PIN_TRANSITION: the ball of TP `p` changes, or from 256 on that of TRIP `p − 256`, which its input samples (R202; log entry 74:
DESIGN CHOICE). -/
def ballTransition (p : Nat) (lvl : Bool) (g : BitVec 6) (d : Dev) : Dev :=
  if p < 256 then pinTransition p lvl g d else tripBall (p - 256) lvl d

/-- A ball while no clock runs: its level alone changes. -/
def ballLevel (p : Nat) (lvl : Bool) (d : Dev) : Dev :=
  if p < 256 then d.updPin p fun s => { s with ball := lvl, change := none } else tripBall (p - 256) lvl d

/-- The link of a MAC while no clock runs. -/
def linkLevel (m : Nat) (up : Bool) (d : Dev) : Dev := d.updMac m fun x => { x with linkUp := up }

end Sys2Proof.Machine
end

