-- ==== Sys2Proof/Machine/AxisCommands.lean ====
section
/-! DEFINITION. Meanings of the commands on tracks, axes, updates and policies (R91–R117, R148–R164). -/

namespace Sys2Proof.Machine

/-- GHOST (R102). -/
def execGhost (a : Nat) (s : State) : Host.Outcome State Fault Refusal :=
  whenLiveDev (Instr.wf (.ghost a)) (ghostDue a) s

/-- STOPPED (R107). -/
def execStopped (a : Nat) (s : State) : Host.Outcome State Fault Refusal :=
  whenLiveDev (Instr.wf (.stopped a)) (stopAxis a) s

/-- RESYNC (R108). -/
def execResync (a : Nat) (s : State) : Host.Outcome State Fault Refusal :=
  whenLiveDev (Instr.wf (.resync a)) (resync a) s

/-- AXIS_ENABLE (R115). -/
def execAxisEnable (a : Nat) (s : State) : Host.Outcome State Fault Refusal :=
  whenLiveDev (Instr.wf (.axisEnable a)) (axisEnable a) s

/-- AXIS_DISABLE (R148). -/
def execAxisDisable (a : Nat) (s : State) : Host.Outcome State Fault Refusal :=
  whenLiveDev (Instr.wf (.axisDisable a)) (axisDisable a) s

/-- AOQ_SEED (R110). -/
def execAoqSeed (a : Nat) (s : State) : Host.Outcome State Fault Refusal :=
  whenLiveDev (Instr.wf (.aoqSeed a)) (aoqSeed a) s

/-- REMOTE_MISS (R108). -/
def execRemoteMiss (a : Nat) (s : State) : Host.Outcome State Fault Refusal :=
  whenLiveDev (Instr.wf (.remoteMiss a)) (remoteMiss a) s

/-- COAST_LIMIT (R108). -/
def execCoastLimit (a : Nat) (s : State) : Host.Outcome State Fault Refusal :=
  whenLiveDev (Instr.wf (.coastLimit a)) (coastLimit a) s

/-- COAST_MAX (R366). -/
def execCoastMax (a : Nat) (s : State) : Host.Outcome State Fault Refusal :=
  whenLiveDev (Instr.wf (.coastMax a)) (coastMax a) s

/-- UPDATE_SERVICE (R98). -/
def execUpdateService (e : Nat) (a : Nat) (s : State) : Host.Outcome State Fault Refusal :=
  whenRunningDev (Instr.wf (.updateService e a)) (updateService e a) s

/-- ARMING_PASS (R129). -/
def execArmingPass (e : Nat) (a : Nat) (s : State) : Host.Outcome State Fault Refusal :=
  whenRunningDev (Instr.wf (.armingPass e a)) (armingService e a) s

/-- POLICY_SERVICE (R150). -/
def execPolicyService (e : Nat) (a : Nat) (s : State) : Host.Outcome State Fault Refusal :=
  whenRunningDev (Instr.wf (.policyService e a)) (policyService e a) s

/-- POLICY_WALK (R151). -/
def execPolicyWalk (a : Nat) (s : State) : Host.Outcome State Fault Refusal :=
  whenRunningDev (Instr.wf (.policyWalk a)) (policyWalk a) s

/-- TICK_WORK (R24). -/
def execTickWork (e : Nat) (s : State) : Host.Outcome State Fault Refusal :=
  whenLiveDev (Instr.wf (.tickWork e)) (tickWork e) s

end Sys2Proof.Machine
end

