-- ==== Sys2Proof/Machine/BridgeCommands.lean ====
section
/-! DEFINITION. Meanings of the commands on bridge pairs and trip inputs (R190–R208). -/

namespace Sys2Proof.Machine

/-- MIN_PULSE_FILTER (R193). -/
def execMinPulseFilter (p : Nat) (high : Bool) (t : Nat) (s : State) : Host.Outcome State Fault Refusal :=
  whenLiveDev (Instr.wf (.minPulseFilter p high t)) (minPulseFilter p high t) s

/-- SIDE_TURN_ON (R195). -/
def execSideTurnOn (p : Nat) (high : Bool) (t : Nat) (s : State) : Host.Outcome State Fault Refusal :=
  whenLiveDev (Instr.wf (.sideTurnOn p high t)) (sideTurnOn p high t) s

/-- SIDE_TURN_OFF (R195). -/
def execSideTurnOff (p : Nat) (high : Bool) (t : Nat) (s : State) : Host.Outcome State Fault Refusal :=
  whenLiveDev (Instr.wf (.sideTurnOff p high t)) (sideTurnOff p high t) s

/-- REFRESH_START (R198). -/
def execRefreshStart (p : Nat) (t : Nat) (s : State) : Host.Outcome State Fault Refusal :=
  whenLiveDev (Instr.wf (.refreshStart p t)) (refreshStart p t) s

/-- REFRESH_END (R198). -/
def execRefreshEnd (p : Nat) (t : Nat) (s : State) : Host.Outcome State Fault Refusal :=
  whenLiveDev (Instr.wf (.refreshEnd p t)) (refreshEnd p t) s

/-- DIS (R200). -/
def execDis (p : Nat) (s : State) : Host.Outcome State Fault Refusal :=
  whenLiveDev (Instr.wf (.dis p)) (pairDisable p) s

/-- STOPPING_DONE (R200). -/
def execStoppingDone (p : Nat) (s : State) : Host.Outcome State Fault Refusal :=
  whenLiveDev (Instr.wf (.stoppingDone p)) (stoppingDone p) s

/-- TRIP_ACCEPTED (R202). -/
def execTripAccepted (j : Nat) (s : State) : Host.Outcome State Fault Refusal :=
  whenLiveDev (Instr.wf (.tripAccepted j)) (tripAccepted j) s

/-- SWTRIP (R203). -/
def execSwtrip (j : Nat) (s : State) : Host.Outcome State Fault Refusal :=
  whenLiveDev (Instr.wf (.swtrip j)) (softTrip j) s

/-- LATCH_CLEAR (R205). -/
def execLatchClear (j : Nat) (s : State) : Host.Outcome State Fault Refusal :=
  whenLiveDev (Instr.wf (.latchClear j)) (latchClear j) s

end Sys2Proof.Machine
end

