-- ==== Sys2Proof/Machine/ChannelCommands.lean ====
section
/-! DEFINITION. Meanings of the commands on the actions of committed slugs and the output stage (R165–R189, R119,
R229). -/

namespace Sys2Proof.Machine

/-- EDGE_RISE (R119). -/
def execEdgeRise (n : Nat) (sid : Nat) (e : Time64) (s : State) : Host.Outcome State Fault Refusal :=
  whenLiveDev (Instr.wf (.edgeRise n sid e)) (galleyLevel n sid e true) s

/-- EDGE_FALL (R119). -/
def execEdgeFall (n : Nat) (sid : Nat) (e : Time64) (s : State) : Host.Outcome State Fault Refusal :=
  whenLiveDev (Instr.wf (.edgeFall n sid e)) (galleyLevel n sid e false) s

/-- PULSE (R174). -/
def execPulse (n : Nat) (sid : Nat) (e : Time64) (dur : Nat) (s : State) : Host.Outcome State Fault Refusal :=
  whenLiveDev (Instr.wf (.pulse n sid e dur)) (galleyPulse n sid e dur) s

/-- TOGGLE (R119). -/
def execToggle (n : Nat) (sid : Nat) (e : Time64) (s : State) : Host.Outcome State Fault Refusal :=
  whenLiveDev (Instr.wf (.toggle n sid e)) (fun d => galleyLevel n sid e (!(d.chOut n).lvl) d) s

/-- CAPTURE_ARM (R229). -/
def execCaptureArm (n : Nat) (sid : Nat) (e : Time64) (dur : Nat) (s : State) : Host.Outcome State Fault Refusal :=
  whenLiveDev (Instr.wf (.captureArm n sid e dur)) (captureArm n sid e dur) s

/-- ENGINE_WAKE (R270). -/
def execEngineWake (chan : Nat) (sid : Nat) (t : Time64) (s : State) : Host.Outcome State Fault Refusal :=
  whenLiveDev (Instr.wf (.engineWake chan sid t)) (engineWake chan sid t) s

/-- DOORBELL (R119). -/
def execDoorbell (chan : Nat) (sid : Nat) (t : Time64) (s : State) : Host.Outcome State Fault Refusal :=
  whenLiveDev (Instr.wf (.doorbell chan sid t)) (doorbellAction chan sid t) s

/-- EMULATION_STEP (R183). -/
def execEmulationStep (n : Nat) (a : Nat) (sid : Nat) (e : Time64) (s : State) : Host.Outcome State Fault Refusal :=
  whenLiveDev (Instr.wf (.emulationStep n a sid e)) (emulationStep n a sid e) s

/-- PULSE_END (R175). -/
def execPulseEnd (n : Nat) (s : State) : Host.Outcome State Fault Refusal :=
  whenLiveDev (Instr.wf (.pulseEnd n)) (pulseEnds n) s

/-- CHANNEL_ENABLE (R179). -/
def execChannelEnable (n : Nat) (s : State) : Host.Outcome State Fault Refusal :=
  whenLiveDev (Instr.wf (.channelEnable n)) (channelEnable n) s

/-- CHANNEL_DISABLE (R178). -/
def execChannelDisable (n : Nat) (s : State) : Host.Outcome State Fault Refusal :=
  whenLiveDev (Instr.wf (.channelDisable n)) (channelDisable n) s

/-- COUNTER_TERMINAL (R167). -/
def execCounterTerminal (n : Nat) (s : State) : Host.Outcome State Fault Refusal :=
  whenLiveDev (Instr.wf (.counterTerminal n)) (counterTerminal n) s

/-- COMPARE_MATCH (R168). -/
def execCompareMatch (n : Nat) (rise : Bool) (s : State) : Host.Outcome State Fault Refusal :=
  whenLiveDev (Instr.wf (.compareMatch n rise)) (compareMatch n rise) s

/-- COMPARE_WRITE (R169). -/
def execCompareWrite (n : Nat) (r : Nat) (v : W32) (s : State) : Host.Outcome State Fault Refusal :=
  whenLiveDev (Instr.wf (.compareWrite n r v)) (compareWrite n r v) s

/-- PERIOD_WRITE (R173). -/
def execPeriodWrite (n : Nat) (v : W32) (s : State) : Host.Outcome State Fault Refusal :=
  whenLiveDev (Instr.wf (.periodWrite n v)) (compareWrite n 8 v) s

/-- QUOIN_CLOSE (R171). -/
def execQuoinClose (v : W32) (s : State) : Host.Outcome State Fault Refusal :=
  whenLiveDev (Instr.wf (.quoinClose v)) (quoinClose v) s

/-- QUOIN_OPEN (R171). -/
def execQuoinOpen (v : W32) (s : State) : Host.Outcome State Fault Refusal :=
  whenLiveDev (Instr.wf (.quoinOpen v)) (quoinOpen v) s

/-- FRISE (R177). -/
def execFrise (n : Nat) (s : State) : Host.Outcome State Fault Refusal :=
  whenLiveDev (Instr.wf (.frise n)) (forceLevel n true) s

/-- FFALL (R177). -/
def execFfall (n : Nat) (s : State) : Host.Outcome State Fault Refusal :=
  whenLiveDev (Instr.wf (.ffall n)) (forceLevel n false) s

/-- RELOAD (R167). -/
def execReload (n : Nat) (s : State) : Host.Outcome State Fault Refusal :=
  whenLiveDev (Instr.wf (.reload n)) (reload n) s

/-- COUNT_WRITE (R214). -/
def execCountWrite (n : Nat) (v : W32) (s : State) : Host.Outcome State Fault Refusal :=
  whenLiveDev (Instr.wf (.countWrite n v)) (countWrite n v) s

/-- EMEN (R181). -/
def execEmen (n : Nat) (s : State) : Host.Outcome State Fault Refusal :=
  whenLiveDev (Instr.wf (.emen n)) (fun d => emcWrite n (orBit (d.chEm n).emc 31) d) s

/-- EMULATION_AXIS_STEP (R184). -/
def execEmulationAxisStep (n : Nat) (s : State) : Host.Outcome State Fault Refusal :=
  whenLiveDev (Instr.wf (.emulationAxisStep n)) (emFollow n) s

end Sys2Proof.Machine
end

