-- ==== Sys2Proof/Machine/CompositorCommands.lean ====
section
/-! DEFINITION. Meanings of the commands on compositors (R233–R249). -/

namespace Sys2Proof.Machine

/-- SET (R238). -/
def execCpSet (k : Nat) (s : State) : Host.Outcome State Fault Refusal :=
  whenLiveDev (Instr.wf (.cpSet k)) (cpSet k) s

/-- OUT (R239). -/
def execCpOut (k : Nat) (s : State) : Host.Outcome State Fault Refusal :=
  whenLiveDev (Instr.wf (.cpOut k)) (cpOut k) s

/-- IN (R239). -/
def execCpIn (k : Nat) (s : State) : Host.Outcome State Fault Refusal :=
  whenLiveDev (Instr.wf (.cpIn k)) (cpIn k) s

/-- WAIT (R240). -/
def execCpWait (k : Nat) (s : State) : Host.Outcome State Fault Refusal :=
  whenLiveDev (Instr.wf (.cpWait k)) (cpWait k) s

/-- MOV (R241). -/
def execCpMov (k : Nat) (s : State) : Host.Outcome State Fault Refusal :=
  whenLiveDev (Instr.wf (.cpMov k)) (cpMov k) s

/-- JMP (R242). -/
def execCpJmp (k : Nat) (s : State) : Host.Outcome State Fault Refusal :=
  whenLiveDev (Instr.wf (.cpJmp k)) (cpJmp k) s

/-- SIG (R242). -/
def execCpSig (k : Nat) (s : State) : Host.Outcome State Fault Refusal :=
  whenLiveDev (Instr.wf (.cpSig k)) (cpSig k) s

/-- HALT (R242). -/
def execCpHalt (k : Nat) (s : State) : Host.Outcome State Fault Refusal :=
  whenLiveDev (Instr.wf (.cpHalt k)) (cpHalt k) s

/-- ILLOP (R242). -/
def execCpIllop (k : Nat) (s : State) : Host.Outcome State Fault Refusal :=
  whenLiveDev (Instr.wf (.cpIllop k)) (cpIllop k) s

/-- COMPOSITOR_DELAY_STEP (R236). -/
def execCompositorDelayStep (k : Nat) (s : State) : Host.Outcome State Fault Refusal :=
  whenLiveDev (Instr.wf (.compositorDelayStep k)) (cpDelayStep k) s

/-- TXD_WRITE (R243). -/
def execTxdWrite (k : Nat) (v : W32) (s : State) : Host.Outcome State Fault Refusal :=
  whenLiveDev (Instr.wf (.txdWrite k v)) (txdWrite k v) s

/-- RXD_READ (R243). -/
def execRxdRead (p : Nat) (k : Nat) (s : State) : Host.Outcome State Fault Refusal :=
  onCore (Instr.wf (.rxdRead p k)) (viaPort p (busRead p (baseCp k + 0x18))) s

/-- COMPOSITOR_START (R246). -/
def execCompositorStart (k : Nat) (clean : Bool) (s : State) : Host.Outcome State Fault Refusal :=
  whenLiveDev (Instr.wf (.compositorStart k clean)) (cpStart k clean false) s

/-- COMPOSITOR_TSTART (R246). -/
def execCompositorTstart (k : Nat) (clean : Bool) (s : State) : Host.Outcome State Fault Refusal :=
  whenLiveDev (Instr.wf (.compositorTstart k clean)) (cpStart k clean true) s

/-- COMPOSITOR_HALT (R247). -/
def execCompositorHalt (k : Nat) (s : State) : Host.Outcome State Fault Refusal :=
  whenLiveDev (Instr.wf (.compositorHalt k)) (cpCmdHalt k) s

/-- COMPOSITOR_ENABLE (R245). -/
def execCompositorEnable (k : Nat) (s : State) : Host.Outcome State Fault Refusal :=
  whenLiveDev (Instr.wf (.compositorEnable k)) (cpEnable k) s

/-- COMPOSITOR_DISABLE (R245). -/
def execCompositorDisable (k : Nat) (s : State) : Host.Outcome State Fault Refusal :=
  whenLiveDev (Instr.wf (.compositorDisable k)) (cpDisable k) s

/-- PROGRAM_WRITE (R248). -/
def execProgramWrite (k : Nat) (r : Nat) (v : W32) (s : State) : Host.Outcome State Fault Refusal :=
  whenLiveDev (Instr.wf (.programWrite k r v)) (programWrite k r v) s

end Sys2Proof.Machine
end

