-- ==== Sys2Proof/Machine/CrossingCommands.lean ====
section
/-! DEFINITION. Meanings of the commands on resets on one side of a crossing (R313–R324). -/

namespace Sys2Proof.Machine

/-- PCIE_RESET (R323). -/
def execPcieReset (k : Nat) (s : State) : Host.Outcome State Fault Refusal :=
  onDevice (Instr.wf (.pcieReset k)) (pcieReset k) s

/-- MAC_LINE_RESET (R320). -/
def execMacLineReset (m : Nat) (k : Nat) (s : State) : Host.Outcome State Fault Refusal :=
  whenLiveDev (Instr.wf (.macLineReset m k)) (macLineReset m k) s

/-- CROSSING_RESYNC (R322). -/
def execCrossingResync (k : Nat) (s : State) : Host.Outcome State Fault Refusal :=
  onDevice (Instr.wf (.crossingResync k)) (crossingResync k) s

/-- CLRW (R327). -/
def execClrw (s : State) : Host.Outcome State Fault Refusal :=
  whenLiveDev (Instr.wf (.clrw)) clearWmax s

end Sys2Proof.Machine
end

