-- ==== Sys2Proof/Machine/DictionaryCommands.lean ====
section
/-! DEFINITION. Meanings of the commands on the object dictionary and its services (R377–R394, R423). -/

namespace Sys2Proof.Machine

/-- READ (R382). -/
def execRead (who : DictWho) (index : Nat) (sub : Nat) (s : State) : Host.Outcome State Fault Refusal :=
  whenRunning (Instr.wf (.read who index sub)) (fun c => answerSvc who 1 index sub (svcRead who index sub c)) s

/-- WRITE (R382). -/
def execWrite (who : DictWho) (index : Nat) (sub : Nat) (l : List Byte) (s : State) : Host.Outcome State Fault Refusal :=
  whenRunning (Instr.wf (.write who index sub l)) (fun c => answerSvc who 2 index sub (svcWrite who index sub l c)) s

/-- KEYED_WRITE (R403). -/
def execKeyedWrite (who : DictWho) (index : Nat) (sub : Nat) (l : List Byte) (s : State) : Host.Outcome State Fault Refusal :=
  whenRunning (Instr.wf (.keyedWrite who index sub l)) (fun c => answerSvc who 3 index sub (svcKeyedWrite who index sub l c)) s

/-- DESCRIBE (R382). -/
def execDescribe (who : DictWho) (index : Nat) (sub : Nat) (s : State) : Host.Outcome State Fault Refusal :=
  whenRunning (Instr.wf (.describe who index sub)) (fun c => answerSvc who 4 index sub (svcDescribe index sub c)) s

/-- READ_SEG (R383). -/
def execReadSeg (who : DictWho) (index : Nat) (sub : Nat) (offset : Nat) (count : Nat) (s : State) : Host.Outcome State Fault Refusal :=
  whenRunning (Instr.wf (.readSeg who index sub offset count)) (fun c => answerSvc who 5 index sub (svcReadSeg who index sub offset count c)) s

/-- WRITE_SEG (R383). -/
def execWriteSeg (who : DictWho) (index : Nat) (sub : Nat) (offset : Nat) (last : Bool) (l : List Byte) (s : State) : Host.Outcome State Fault Refusal :=
  whenRunning (Instr.wf (.writeSeg who index sub offset last l)) (fun c => answerSvc who 6 index sub (svcWriteSeg who index sub offset last l c)) s

/-- READ_ALL (R382). -/
def execReadAll (who : DictWho) (index : Nat) (s : State) : Host.Outcome State Fault Refusal :=
  whenRunning (Instr.wf (.readAll who index)) (fun c => answerSvc who 7 index 0 (svcReadAll who index c)) s

/-- MAILBOX_GO (R423). -/
def execMailboxGo (p : Nat) (v : W32) (s : State) : Host.Outcome State Fault Refusal :=
  onCore (Instr.wf (.mailboxGo p v)) (viaPort p (busWrite p 0x8000 (orBit v 31))) s

/-- MAILBOX_RESPONSE (R423). -/
def execMailboxResponse (p : Nat) (s : State) : Host.Outcome State Fault Refusal :=
  whenLive (Instr.wf (.mailboxResponse p)) (mailboxResponse p) s

/-- COMMIT (R390). -/
def execCommit (s : State) : Host.Outcome State Fault Refusal :=
  whenRunning (Instr.wf (.commit)) commitStart s

/-- COMMIT_DONE (R390). -/
def execCommitDone (ok : Bool) (s : State) : Host.Outcome State Fault Refusal :=
  whenLiveDev (Instr.wf (.commitDone ok)) (commitDone ok) s

/-- RESTORE (R391). -/
def execRestore (s : State) : Host.Outcome State Fault Refusal :=
  whenRunning (Instr.wf (.restore)) restoreDefaults s

/-- ERASE (R390). -/
def execErase (s : State) : Host.Outcome State Fault Refusal :=
  whenRunningDev (Instr.wf (.erase)) eraseStart s

/-- EVENT_GROUP_TRIGGER (R393). -/
def execEventGroupTrigger (g : Nat) (s : State) : Host.Outcome State Fault Refusal :=
  whenLiveDev (Instr.wf (.eventGroupTrigger g)) (groupTrigger g) s

/-- DICTIONARY_THIRD_PASS (R389). -/
def execDictionaryThirdPass (s : State) : Host.Outcome State Fault Refusal :=
  whenLive (Instr.wf (.dictionaryThirdPass)) thirdPass s

end Sys2Proof.Machine
end

