-- ==== Sys2Proof/Machine/EngineCommands.lean ====
section
/-! DEFINITION. Meanings of the commands on the engines, their galley ports and the channel bus (R250–R297). -/

namespace Sys2Proof.Machine

/-- MICROWORD (R256). -/
def execMicroword (e : Nat) (s : State) : Host.Outcome State Fault Refusal :=
  whenLiveDev (Instr.wf (.microword e)) (microwordStep e) s

/-- SAFE_POINT (R268). -/
def execSafePoint (e : Nat) (s : State) : Host.Outcome State Fault Refusal :=
  whenLiveDev (Instr.wf (.safePoint e)) (safePointStep e) s

/-- ENDW (R269). -/
def execEndw (e : Nat) (s : State) : Host.Outcome State Fault Refusal :=
  whenLiveDev (Instr.wf (.endw e)) (endwOp e) s

/-- CSTART (R270). -/
def execCstart (e : Nat) (s : State) : Host.Outcome State Fault Refusal :=
  whenLiveDev (Instr.wf (.cstart e)) (cstart e) s

/-- CHALT (R270). -/
def execChalt (e : Nat) (s : State) : Host.Outcome State Fault Refusal :=
  whenLiveDev (Instr.wf (.chalt e)) (chalt e) s

/-- OFFLINE_REQUEST (R274). -/
def execOfflineRequest (e : Nat) (s : State) : Host.Outcome State Fault Refusal :=
  whenLiveDev (Instr.wf (.offlineRequest e)) (offlineRequest e) s

/-- ONLINE_REQUEST (R275). -/
def execOnlineRequest (e : Nat) (s : State) : Host.Outcome State Fault Refusal :=
  whenLiveDev (Instr.wf (.onlineRequest e)) (onlineRequest e) s

/-- LOCK_WRITE (R276). -/
def execLockWrite (e : Nat) (v : Bool) (s : State) : Host.Outcome State Fault Refusal :=
  whenLiveDev (Instr.wf (.lockWrite e v)) (lockWrite e v) s

/-- LOCKSTEP_MISMATCH (R276). -/
def execLockstepMismatch (e : Nat) (s : State) : Host.Outcome State Fault Refusal :=
  whenLiveDev (Instr.wf (.lockstepMismatch e)) (mismatchStep e) s

/-- INS (R263). -/
def execIns (e : Nat) (c : Nat) (blk : Nat) (s : State) : Host.Outcome State Fault Refusal :=
  whenLive (Instr.wf (.ins e c blk)) (byEngine e (galPort e c .insert 0 0 blk 0)) s

/-- REM (R263). -/
def execRem (e : Nat) (c : Nat) (v : W64) (s : State) : Host.Outcome State Fault Refusal :=
  whenLive (Instr.wf (.rem e c v)) (byEngine e (galPort e c .remove v 0 0 0)) s

/-- MOD (R263). -/
def execMod (e : Nat) (c : Nat) (v : W64) (blk : Nat) (s : State) : Host.Outcome State Fault Refusal :=
  whenLive (Instr.wf (.mod e c v blk)) (byEngine e (galPort e c .modify v 0 blk 0)) s

/-- MODD (R263). -/
def execModd (e : Nat) (c : Nat) (v : W64) (blk : Nat) (s : State) : Host.Outcome State Fault Refusal :=
  whenLive (Instr.wf (.modd e c v blk)) (byEngine e (galPort e c .modifyDur v 0 blk 0)) s

/-- GALLEY_PORT_FREE (R263). -/
def execGalleyPortFree (e : Nat) (c : Nat) (v : W64) (s : State) : Host.Outcome State Fault Refusal :=
  whenLive (Instr.wf (.galleyPortFree e c v)) (byEngine e (galPort e c .free v 0 0 0)) s

/-- POP (R263). -/
def execPop (e : Nat) (c : Nat) (a : Nat) (blk : Nat) (s : State) : Host.Outcome State Fault Refusal :=
  whenLive (Instr.wf (.pop e c a blk)) (byEngine e (galPort e c .pop 0 0 blk a)) s

/-- PEND (R263). -/
def execPend (e : Nat) (c : Nat) (a : Nat) (v : W64) (blk : Nat) (s : State) : Host.Outcome State Fault Refusal :=
  whenLive (Instr.wf (.pend e c a v blk)) (byEngine e (galPort e c .pend v 0 blk a)) s

/-- MARK (R263). -/
def execMark (e : Nat) (c : Nat) (v : W64) (imm2 : W32) (s : State) : Host.Outcome State Fault Refusal :=
  whenLive (Instr.wf (.mark e c v imm2)) (byEngine e (galPort e c .mark v imm2 0 0)) s

/-- GALLEY_PORT_READ (R263). -/
def execGalleyPortRead (e : Nat) (c : Nat) (v : W64) (blk : Nat) (s : State) : Host.Outcome State Fault Refusal :=
  whenLive (Instr.wf (.galleyPortRead e c v blk)) (byEngine e (galPort e c .read v 0 blk 0)) s

/-- CRD (R264). -/
def execCrd (e : Nat) (k : Nat) (t : Nat) (imm2 : W32) (s : State) : Host.Outcome State Fault Refusal :=
  whenLive (Instr.wf (.crd e k t imm2)) (byEngineC e (chopRow 1 e k t imm2 0 0)) s

/-- CWR (R264). -/
def execCwr (e : Nat) (k : Nat) (t : Nat) (imm2 : W32) (v : W64) (s : State) : Host.Outcome State Fault Refusal :=
  whenLive (Instr.wf (.cwr e k t imm2 v)) (byEngineC e (chopRow 2 e k t imm2 v 0)) s

/-- ARD (R264). -/
def execArd (e : Nat) (k : Nat) (t : Nat) (imm2 : W32) (s : State) : Host.Outcome State Fault Refusal :=
  whenLive (Instr.wf (.ard e k t imm2)) (byEngineC e (chopRow 3 e k t imm2 0 0)) s

/-- AWR (R264). -/
def execAwr (e : Nat) (k : Nat) (t : Nat) (imm2 : W32) (v : W64) (s : State) : Host.Outcome State Fault Refusal :=
  whenLive (Instr.wf (.awr e k t imm2 v)) (byEngineC e (chopRow 4 e k t imm2 v 0)) s

/-- DECRD (R264). -/
def execDecrd (e : Nat) (k : Nat) (t : Nat) (imm2 : W32) (v : W64) (blk : Nat) (s : State) : Host.Outcome State Fault Refusal :=
  whenLive (Instr.wf (.decrd e k t imm2 v blk)) (byEngineC e (chopRow 5 e k t imm2 v blk)) s

/-- MLOAD (R99). -/
def execMload (e : Nat) (k : Nat) (t : Nat) (blk : Nat) (s : State) : Host.Outcome State Fault Refusal :=
  whenLive (Instr.wf (.mload e k t blk)) (byEngineC e (chopRow 6 e k t 0 0 blk)) s

/-- SEGLD (R264). -/
def execSegld (e : Nat) (k : Nat) (t : Nat) (blk : Nat) (s : State) : Host.Outcome State Fault Refusal :=
  whenLive (Instr.wf (.segld e k t blk)) (byEngineC e (chopRow 7 e k t 0 0 blk)) s

/-- CHRD (R264). -/
def execChrd (e : Nat) (k : Nat) (t : Nat) (blk : Nat) (s : State) : Host.Outcome State Fault Refusal :=
  whenLive (Instr.wf (.chrd e k t blk)) (byEngineC e (chopRow 8 e k t 0 0 blk)) s

/-- CHWR (R264). -/
def execChwr (e : Nat) (k : Nat) (t : Nat) (blk : Nat) (s : State) : Host.Outcome State Fault Refusal :=
  whenLive (Instr.wf (.chwr e k t blk)) (byEngineC e (chopRow 9 e k t 0 0 blk)) s

/-- ARM (R131). -/
def execArm (e : Nat) (k : Nat) (blk : Nat) (s : State) : Host.Outcome State Fault Refusal :=
  whenLive (Instr.wf (.arm e k blk)) (byEngineC e (chopRow 10 e k 0 0 0 blk)) s

/-- RETIME (R137). -/
def execRetime (e : Nat) (k : Nat) (t : Nat) (v : W64) (blk : Nat) (s : State) : Host.Outcome State Fault Refusal :=
  whenLive (Instr.wf (.retime e k t v blk)) (byEngineC e (chopRow 11 e k t 0 v blk)) s

/-- WDRAW (R137). -/
def execWdraw (e : Nat) (k : Nat) (t : Nat) (s : State) : Host.Outcome State Fault Refusal :=
  whenLive (Instr.wf (.wdraw e k t)) (byEngineC e (chopRow 12 e k t 0 0 0)) s

/-- DURW (R137). -/
def execDurw (e : Nat) (k : Nat) (t : Nat) (v : W64) (s : State) : Host.Outcome State Fault Refusal :=
  whenLive (Instr.wf (.durw e k t v)) (byEngineC e (chopRow 13 e k t 0 v 0)) s

/-- CPOP (R244). -/
def execCpop (e : Nat) (k : Nat) (t : Nat) (imm2 : W32) (v : W64) (s : State) : Host.Outcome State Fault Refusal :=
  whenLive (Instr.wf (.cpop e k t imm2 v)) (byEngineC e (chopRow 14 e k t imm2 v 0)) s

/-- GREG (R264). -/
def execGreg (e : Nat) (k : Nat) (imm2 : W32) (v : W64) (s : State) : Host.Outcome State Fault Refusal :=
  whenLive (Instr.wf (.greg e k imm2 v)) (byEngineC e (chopRow 15 e k 0 imm2 v 0)) s

/-- CHANNEL_BUS_GRANT (R265). -/
def execChannelBusGrant (q : Nat) (s : State) : Host.Outcome State Fault Refusal :=
  whenLive (Instr.wf (.channelBusGrant q)) (channelGrant q) s

/-- OPEN_FORME_LOAD_DONE (R291). -/
def execOpenFormeLoadDone (s : State) : Host.Outcome State Fault Refusal :=
  whenLive (Instr.wf (.openFormeLoadDone)) openLoadDone s

end Sys2Proof.Machine
end

