-- ==== Sys2Proof/Machine/FieldCommands.lean ====
section
/-! DEFINITION. Meanings of the commands on field ports and remote heads (R328–R352). -/

namespace Sys2Proof.Machine

/-- CYCLIC_EXCHANGE_START (R342). -/
def execCyclicExchangeStart (h : Nat) (s : State) : Host.Outcome State Fault Refusal :=
  whenLiveDev (Instr.wf (.cyclicExchangeStart h)) (cyclicStart h) s

/-- ENCODER_RESPONSE (R338). -/
def execEncoderResponse (p : Nat) (frame : List Byte) (framing : Bool) (s : State) : Host.Outcome State Fault Refusal :=
  whenLiveDev (Instr.wf (.encoderResponse p frame framing)) (encoderResponse p frame framing) s

/-- GATE_DRIVE_RESPONSE (R339). -/
def execGateDriveResponse (p : Nat) (frame : List Byte) (framing : Bool) (s : State) : Host.Outcome State Fault Refusal :=
  whenLiveDev (Instr.wf (.gateDriveResponse p frame framing)) (gateResponse p frame framing) s

/-- IO_RESPONSE (R339). -/
def execIoResponse (p : Nat) (frame : List Byte) (framing : Bool) (s : State) : Host.Outcome State Fault Refusal :=
  whenLiveDev (Instr.wf (.ioResponse p frame framing)) (ioResponse p frame framing) s

/-- NO_RESPONSE (R336). -/
def execNoResponse (p : Nat) (s : State) : Host.Outcome State Fault Refusal :=
  whenLiveDev (Instr.wf (.noResponse p)) (noResponse p) s

/-- ACYCLIC_EXCHANGE_START (R345). -/
def execAcyclicExchangeStart (p : Nat) (s : State) : Host.Outcome State Fault Refusal :=
  whenLiveDev (Instr.wf (.acyclicExchangeStart p)) (acyclicStart p) s

/-- IDENTIFY_RESPONSE (R348). -/
def execIdentifyResponse (p : Nat) (frame : List Byte) (framing : Bool) (trip : Nat) (s : State) : Host.Outcome State Fault Refusal :=
  whenLiveDev (Instr.wf (.identifyResponse p frame framing trip)) (identifyResponse p frame framing trip) s

/-- READ_RESPONSE (R345). -/
def execReadResponse (p : Nat) (frame : List Byte) (framing : Bool) (s : State) : Host.Outcome State Fault Refusal :=
  whenLiveDev (Instr.wf (.readResponse p frame framing)) (readResponse p frame framing) s

/-- WRITE_RESPONSE (R345). -/
def execWriteResponse (p : Nat) (frame : List Byte) (framing : Bool) (s : State) : Host.Outcome State Fault Refusal :=
  whenLiveDev (Instr.wf (.writeResponse p frame framing)) (writeResponse p frame framing) s

/-- PORT_ENABLE (R344). -/
def execPortEnable (p : Nat) (s : State) : Host.Outcome State Fault Refusal :=
  whenLiveDev (Instr.wf (.portEnable p)) (portEnable p) s

/-- PORT_DISABLE (R349). -/
def execPortDisable (p : Nat) (s : State) : Host.Outcome State Fault Refusal :=
  whenLiveDev (Instr.wf (.portDisable p)) (portDisable p) s

/-- LOAD (R344). -/
def execLoad (p : Nat) (s : State) : Host.Outcome State Fault Refusal :=
  whenLiveDev (Instr.wf (.load p)) (fpLoad p) s

/-- ENUM (R348). -/
def execEnum (p : Nat) (s : State) : Host.Outcome State Fault Refusal :=
  whenLiveDev (Instr.wf (.enum p)) (enumStart p) s

/-- ENUMERATION_DONE (R392). -/
def execEnumerationDone (s : State) : Host.Outcome State Fault Refusal :=
  whenLiveDev (Instr.wf (.enumerationDone)) enumDone s

end Sys2Proof.Machine
end

