-- ==== Sys2Proof/Machine/GalleyCommands.lean ====
section
/-! DEFINITION. Meanings of the commands on the galley, its arbiter, chases and commits (R118–R147, R325–R327). -/

namespace Sys2Proof.Machine

/-- INSERT (R142). -/
def execInsert (s : State) : Host.Outcome State Fault Refusal :=
  whenLiveDev (Instr.wf (.insert)) (hostOp .insert 0) s

/-- REMOVE (R142). -/
def execRemove (sid : Nat) (s : State) : Host.Outcome State Fault Refusal :=
  whenLiveDev (Instr.wf (.remove sid)) (hostOp .remove sid) s

/-- MODIFY (R142). -/
def execModify (sid : Nat) (s : State) : Host.Outcome State Fault Refusal :=
  whenLiveDev (Instr.wf (.modify sid)) (hostOp .modify sid) s

/-- MODIFY_DUR (R142). -/
def execModifyDur (sid : Nat) (s : State) : Host.Outcome State Fault Refusal :=
  whenLiveDev (Instr.wf (.modifyDur sid)) (hostOp .modifyDur sid) s

/-- FREE (R142). -/
def execFree (sid : Nat) (s : State) : Host.Outcome State Fault Refusal :=
  whenLiveDev (Instr.wf (.free sid)) (hostOp .free sid) s

/-- SLUG_INSERT_OBJECT (R146). -/
def execSlugInsertObject (who : DictWho) (l : List Byte) (s : State) : Host.Outcome State Fault Refusal :=
  whenRunning (Instr.wf (.slugInsertObject who l)) (fun c => answerSvc who 2 0x5001 1 (svcWrite who 0x5001 1 l c)) s

/-- SLUG_REMOVE_OBJECT (R146). -/
def execSlugRemoveObject (who : DictWho) (l : List Byte) (s : State) : Host.Outcome State Fault Refusal :=
  whenRunning (Instr.wf (.slugRemoveObject who l)) (fun c => answerSvc who 2 0x5001 2 (svcWrite who 0x5001 2 l c)) s

/-- GALLEY_WINDOW_READ (R143). -/
def execGalleyWindowRead (p : Nat) (a : Nat) (s : State) : Host.Outcome State Fault Refusal :=
  onCore (Instr.wf (.galleyWindowRead p a)) (viaPort p (windowRead p a)) s

/-- COMPACT (R144). -/
def execCompact (s : State) : Host.Outcome State Fault Refusal :=
  whenLiveDev (Instr.wf (.compact)) compactBegin s

/-- COMPACTION_DONE (R144). -/
def execCompactionDone (s : State) : Host.Outcome State Fault Refusal :=
  whenLiveDev (Instr.wf (.compactionDone)) compactFinish s

/-- CLRPK (R146). -/
def execClrpk (cs : Nat) (s : State) : Host.Outcome State Fault Refusal :=
  whenLiveDev (Instr.wf (.clrpk cs)) (clearPeak cs) s

/-- GALLEY_GRANT (R326). -/
def execGalleyGrant (s : State) : Host.Outcome State Fault Refusal :=
  whenLiveDev (Instr.wf (.galleyGrant)) galleyGrant s

/-- GALLEY_OP_COMPLETE (R125). -/
def execGalleyOpComplete (s : State) : Host.Outcome State Fault Refusal :=
  whenLiveDev (Instr.wf (.galleyOpComplete)) galleyComplete s

/-- CHASE_COMMIT (R135). -/
def execChaseCommit (cs : Nat) (s : State) : Host.Outcome State Fault Refusal :=
  whenLiveDev (Instr.wf (.chaseCommit cs)) (chaseCommit cs) s

/-- COMMIT_RECORD (R139). -/
def execCommitRecord (s : State) : Host.Outcome State Fault Refusal :=
  whenLiveDev (Instr.wf (.commitRecord)) commitRecord s

/-- ACTION_COMPLETE (R127). -/
def execActionComplete (s : State) : Host.Outcome State Fault Refusal :=
  whenLiveDev (Instr.wf (.actionComplete)) actionComplete s

end Sys2Proof.Machine
end

