-- ==== Sys2Proof/Machine/HostCommands.lean ====
section
/-! DEFINITION. Meanings of the commands on the QSPI target and the PCIe endpoint (R411–R424). -/

namespace Sys2Proof.Machine

/-- QSPI_READ (R415). -/
def execQspiRead (a : Nat) (n : Nat) (more : Bool) (s : State) : Host.Outcome State Fault Refusal :=
  onCore (Instr.wf (.qspiRead a n more)) (qspiRead a n more) s

/-- QSPI_WRITE (R416). -/
def execQspiWrite (a : Nat) (l : List W32) (more : Option W32) (s : State) : Host.Outcome State Fault Refusal :=
  onCore (Instr.wf (.qspiWrite a l more)) (qspiWrite a l more) s

/-- READ_HOST_STATUS (R414). -/
def execReadHostStatus (s : State) : Host.Outcome State Fault Refusal :=
  onDevice (Instr.wf (.readHostStatus)) readHostStatus s

/-- CLEAR_HOST_STATUS (R420). -/
def execClearHostStatus (v : W32) (s : State) : Host.Outcome State Fault Refusal :=
  onDevice (Instr.wf (.clearHostStatus v)) (clearHostStatus v) s

/-- TARGET_RESET (R414). -/
def execTargetReset (s : State) : Host.Outcome State Fault Refusal :=
  onDevice (Instr.wf (.targetReset)) targetReset s

/-- QSPI_UNKNOWN_OPCODE (R414). -/
def execQspiUnknownOpcode (s : State) : Host.Outcome State Fault Refusal :=
  onDevice (Instr.wf (.qspiUnknownOpcode)) unknownOpcode s

/-- HQ_CS_N_RISE (R416). -/
def execHqCsNRise (crossed : Bool) (s : State) : Host.Outcome State Fault Refusal :=
  onCore (Instr.wf (.hqCsNRise crossed)) (csRise crossed) s

/-- HQ_RST_N (R416). -/
def execHqRstN (k : Nat) (s : State) : Host.Outcome State Fault Refusal :=
  onDevice (Instr.wf (.hqRstN k)) (qspiReset k) s

/-- BAD_ACCESS (R413). -/
def execBadAccess (s : State) : Host.Outcome State Fault Refusal :=
  onCore (Instr.wf (.badAccess)) (viaPort 0 fun c => c.mapDev (badAccess 0)) s

end Sys2Proof.Machine
end

