-- ==== Sys2Proof/Machine/InterruptCommands.lean ====
section
/-! DEFINITION. Meanings of the commands on the interrupt controller and host vectors (R298–R312, R422). -/

namespace Sys2Proof.Machine

/-- INTERRUPT_EVENT (R301). -/
def execInterruptEvent (n : Nat) (s : State) : Host.Outcome State Fault Refusal :=
  whenLiveDev (Instr.wf (.interruptEvent n)) (fireSource n) s

/-- PIN_SENSE_ACCEPT (R300). -/
def execPinSenseAccept (n : Nat) (lvl : Bool) (s : State) : Host.Outcome State Fault Refusal :=
  whenLiveDev (Instr.wf (.pinSenseAccept n lvl)) (icPinSense n lvl) s

/-- IC_DBELL (R299). -/
def execIcDbell (v : W32) (s : State) : Host.Outcome State Fault Refusal :=
  whenLiveDev (Instr.wf (.icDbell v)) (icDoorbell v) s

/-- IC_SETP (R301). -/
def execIcSetp (w : Nat) (v : W32) (s : State) : Host.Outcome State Fault Refusal :=
  whenLiveDev (Instr.wf (.icSetp w v)) (icSetPending w v) s

/-- IC_PEND_CLEAR (R301). -/
def execIcPendClear (w : Nat) (v : W32) (s : State) : Host.Outcome State Fault Refusal :=
  whenLiveDev (Instr.wf (.icPendClear w v)) (icClearPending w v) s

/-- CLAIM (R303). -/
def execClaim (p : Nat) (t : Nat) (s : State) : Host.Outcome State Fault Refusal :=
  onCore (Instr.wf (.claim p t)) (viaPort p (busRead p (0x10100 + 4 * t))) s

/-- COMPLETE (R304). -/
def execComplete (t : Nat) (v : W32) (s : State) : Host.Outcome State Fault Refusal :=
  whenLiveDev (Instr.wf (.complete t v)) (icComplete t v) s

/-- IC_SOURCE_WRITE (R307). -/
def execIcSourceWrite (n : Nat) (v : W32) (s : State) : Host.Outcome State Fault Refusal :=
  whenLiveDev (Instr.wf (.icSourceWrite n v)) (icSourceWrite n v) s

/-- CHW_READ (R298). -/
def execChwRead (p : Nat) (g : Nat) (s : State) : Host.Outcome State Fault Refusal :=
  onCore (Instr.wf (.chwRead p g)) (viaPort p (busRead p (0x10500 + 4 * g))) s

/-- AXW_LO_READ (R298). -/
def execAxwLoRead (p : Nat) (g : Nat) (s : State) : Host.Outcome State Fault Refusal :=
  onCore (Instr.wf (.axwLoRead p g)) (viaPort p (busRead p (0x10600 + 8 * g))) s

/-- HOST_VECTOR_MESSAGE (R422). -/
def execHostVectorMessage (v : Nat) (s : State) : Host.Outcome State Fault Refusal :=
  whenLiveDev (Instr.wf (.hostVectorMessage v)) (vectorMessage v) s

/-- MSIX_UNMASK (R422). -/
def execMsixUnmask (v : Nat) (s : State) : Host.Outcome State Fault Refusal :=
  onDevice (Instr.wf (.msixUnmask v)) (msixUnmask v) s

/-- WAKE_LATCH (R309). -/
def execWakeLatch (n : Nat) (rise : Bool) (s : State) : Host.Outcome State Fault Refusal :=
  onDevice (Instr.wf (.wakeLatch n rise)) (wakeLatch n rise) s

end Sys2Proof.Machine
end

