-- ==== Sys2Proof/Machine/LinkCommands.lean ====
section
/-! DEFINITION. Meanings of the commands on Bamben Link, the domain and the MACs (R353–R376). -/

namespace Sys2Proof.Machine

/-- CYCLIC_GATE_OPEN (R360). -/
def execCyclicGateOpen (m : Nat) (s : State) : Host.Outcome State Fault Refusal :=
  whenLiveDev (Instr.wf (.cyclicGateOpen m)) (gateOpen m) s

/-- CYCLIC_GATE_CLOSE (R360). -/
def execCyclicGateClose (m : Nat) (s : State) : Host.Outcome State Fault Refusal :=
  whenLiveDev (Instr.wf (.cyclicGateClose m)) (gateClose m) s

/-- TRAJECTORY_FRAME (R363). -/
def execTrajectoryFrame (m : Nat) (src : BitVec 48) (f : Trajectory) (s : State) : Host.Outcome State Fault Refusal :=
  whenLiveDev (Instr.wf (.trajectoryFrame m src f)) (trajectoryRx m src f) s

/-- SUMMARY_SEND (R361). -/
def execSummarySend (m : Nat) (s : State) : Host.Outcome State Fault Refusal :=
  whenLiveDev (Instr.wf (.summarySend m)) (summarySend m) s

/-- SUMMARY (R362). -/
def execSummary (m : Nat) (dom : Nat) (src : BitVec 48) (a : Nat) (tick : BitVec 16) (body : List Byte) (s : State) : Host.Outcome State Fault Refusal :=
  whenLiveDev (Instr.wf (.summary m dom src a tick body)) (summaryRx m dom src a tick body false) s

/-- FULL_STATUS (R359). -/
def execFullStatus (m : Nat) (dom : Nat) (src : BitVec 48) (a : Nat) (tick : BitVec 16) (body : List Byte) (s : State) : Host.Outcome State Fault Refusal :=
  whenLiveDev (Instr.wf (.fullStatus m dom src a tick body)) (summaryRx m dom src a tick body true) s

/-- MASTER_LOST (R366). -/
def execMasterLost (m : Nat) (s : State) : Host.Outcome State Fault Refusal :=
  whenLiveDev (Instr.wf (.masterLost m)) (masterLost m) s

/-- TAKEOVER (R368). -/
def execTakeover (s : State) : Host.Outcome State Fault Refusal :=
  whenLiveDev (Instr.wf (.takeover)) takeover s

/-- WORKER_LOST (R362). -/
def execWorkerLost (a : Nat) (s : State) : Host.Outcome State Fault Refusal :=
  whenLiveDev (Instr.wf (.workerLost a)) (workerLost a) s

/-- ARP (R370). -/
def execArp (m : Nat) (sender : W32) (target : W32) (s : State) : Host.Outcome State Fault Refusal :=
  whenLiveDev (Instr.wf (.arp m sender target)) (arpRequest m sender target) s

/-- ICMP_ECHO (R370). -/
def execIcmpEcho (m : Nat) (sender : W32) (target : W32) (data : List Byte) (plain : Bool) (s : State) : Host.Outcome State Fault Refusal :=
  whenLiveDev (Instr.wf (.icmpEcho m sender target data plain)) (icmpEcho m sender target data plain) s

/-- ACYCLIC_DATAGRAM (R372). -/
def execAcyclicDatagram (m : Nat) (ip : W32) (port : Nat) (target : W32) (dest : Nat) (l : List Byte) (plain : Bool) (s : State) : Host.Outcome State Fault Refusal :=
  whenLive (Instr.wf (.acyclicDatagram m ip port target dest l plain)) (acyclicDatagram m ip port target dest l plain) s

/-- SESSION_EXPIRY (R372). -/
def execSessionExpiry (n : Nat) (s : State) : Host.Outcome State Fault Refusal :=
  whenLiveDev (Instr.wf (.sessionExpiry n)) (sessionExpiry n) s

/-- MAC_ENABLE (R375). -/
def execMacEnable (m : Nat) (s : State) : Host.Outcome State Fault Refusal :=
  whenLiveDev (Instr.wf (.macEnable m)) (macEnable m) s

/-- MAC_DISABLE (R375). -/
def execMacDisable (m : Nat) (queued : Nat) (s : State) : Host.Outcome State Fault Refusal :=
  whenLiveDev (Instr.wf (.macDisable m queued)) (macDisableStep m queued) s

/-- LINK_DOWN (R320). -/
def execLinkDown (m : Nat) (s : State) : Host.Outcome State Fault Refusal :=
  onCore (Instr.wf (.linkDown m)) (liveOr (linkDown m) (linkLevel m false)) s

/-- LINK_UP (R320). -/
def execLinkUp (m : Nat) (s : State) : Host.Outcome State Fault Refusal :=
  onCore (Instr.wf (.linkUp m)) (liveOr (linkUp m) (linkLevel m true)) s

/-- RECEIVE_ERROR (R375). -/
def execReceiveError (m : Nat) (s : State) : Host.Outcome State Fault Refusal :=
  whenLiveDev (Instr.wf (.receiveError m)) (receiveError m) s

end Sys2Proof.Machine
end

