-- ==== Sys2Proof/Machine/MonitorCommands.lean ====
section
/-! DEFINITION. Meanings of the commands on the fastness monitor, calibration and SRAM errors (R61, R433–R449). -/

namespace Sys2Proof.Machine

/-- SURVEY (R437). -/
def execSurvey (s : State) : Host.Outcome State Fault Refusal :=
  whenLiveDev (Instr.wf (.survey)) surveyRequest s

/-- SURVEY_START (R437). -/
def execSurveyStart (s : State) : Host.Outcome State Fault Refusal :=
  whenLiveDev (Instr.wf (.surveyStart)) surveyStart s

/-- SENTINEL_MEASURED (R436). -/
def execSentinelMeasured (v : BitVec 16) (tj : Int) (s : State) : Host.Outcome State Fault Refusal :=
  whenLiveDev (Instr.wf (.sentinelMeasured v tj)) (sentinelMeasured v tj) s

/-- SURVEY_DONE (R436). -/
def execSurveyDone (drift : Nat) (s : State) : Host.Outcome State Fault Refusal :=
  whenLiveDev (Instr.wf (.surveyDone drift)) (surveyDone drift) s

/-- MARGIN_PLAN_TAKES_EFFECT (R442). -/
def execMarginPlanTakesEffect (s : State) : Host.Outcome State Fault Refusal :=
  whenLiveDev (Instr.wf (.marginPlanTakesEffect)) planTakesEffect s

/-- VTRIM_STEP (R442). -/
def execVtrimStep (s : State) : Host.Outcome State Fault Refusal :=
  whenLiveDev (Instr.wf (.vtrimStep)) vtrimStep s

/-- CALIBRATION_START (R392). -/
def execCalibrationStart (s : State) : Host.Outcome State Fault Refusal :=
  whenLiveDev (Instr.wf (.calibrationStart)) calibrationStart s

/-- CALIBRATION_DONE (R61). -/
def execCalibrationDone (ok : Bool) (s : State) : Host.Outcome State Fault Refusal :=
  whenLiveDev (Instr.wf (.calibrationDone ok)) (calibrationDone ok) s

/-- CORRECTABLE_ERROR (R447). -/
def execCorrectableError (r : SramRegion) (w : Nat) (s : State) : Host.Outcome State Fault Refusal :=
  whenLiveDev (Instr.wf (.correctableError r w)) (correctableError r w) s

/-- UNCORRECTABLE_ERROR (R448). -/
def execUncorrectableError (r : SramRegion) (w : Nat) (reader : SramReader) (allBad : Bool) (s : State) : Host.Outcome State Fault Refusal :=
  whenLive (Instr.wf (.uncorrectableError r w reader allBad)) (uncorrectableError r w reader allBad) s

/-- SCRUB (R449). -/
def execScrub (s : State) : Host.Outcome State Fault Refusal :=
  whenLiveDev (Instr.wf (.scrub)) scrubStep s

/-- CLAIMABLE_SPAN_END (R306). -/
def execClaimableSpanEnd (n : Nat) (s : State) : Host.Outcome State Fault Refusal :=
  whenLiveDev (Instr.wf (.claimableSpanEnd n)) (icSpanEnd n) s

/-- TRIP_LEVEL_INACTIVE (R202). -/
def execTripLevelInactive (j : Nat) (s : State) : Host.Outcome State Fault Refusal :=
  whenLiveDev (Instr.wf (.tripLevelInactive j)) (tripInactive j) s

end Sys2Proof.Machine
end

