-- ==== Sys2Proof/Machine/PowerCommands.lean ====
section
/-! DEFINITION. Meanings of the commands on power, resets, boot, the always-on island and JTAG (R396–R409, R431,
R450–R471, R495). -/

namespace Sys2Proof.Machine

/-- TAMPER (R409). -/
def execTamper (s : State) : Host.Outcome State Fault Refusal :=
  onCore (Instr.wf (.tamper)) tamper s

/-- VBAT_LOSS (R399). -/
def execVbatLoss (s : State) : Host.Outcome State Fault Refusal :=
  onCore (Instr.wf (.vbatLoss)) vbatLoss s

/-- VBAT_RESTORE (R409). -/
def execVbatRestore (s : State) : Host.Outcome State Fault Refusal :=
  onCore (Instr.wf (.vbatRestore)) vbatRestore s

/-- POWER_REQUEST (R465). -/
def execPowerRequest (r : Nat) (s : State) : Host.Outcome State Fault Refusal :=
  whenLiveDev (Instr.wf (.powerRequest r)) (powerRequest r) s

/-- IDLE_ENTRY (R466). -/
def execIdleEntry (s : State) : Host.Outcome State Fault Refusal :=
  whenLiveDev (Instr.wf (.idleEntry)) idleEntry s

/-- IDLE_EXIT (R466). -/
def execIdleExit (s : State) : Host.Outcome State Fault Refusal :=
  whenLiveDev (Instr.wf (.idleExit)) idleExit s

/-- HOLD_ENTRY (R466). -/
def execHoldEntry (s : State) : Host.Outcome State Fault Refusal :=
  whenLiveDev (Instr.wf (.holdEntry)) holdEntry s

/-- PWR_EN_FALL (R466). -/
def execPwrEnFall (s : State) : Host.Outcome State Fault Refusal :=
  onDevice (Instr.wf (.pwrEnFall)) pwrEnFall s

/-- WAKE_N (R467). -/
def execWakeN (n : Nat) (s : State) : Host.Outcome State Fault Refusal :=
  onCore (Instr.wf (.wakeN n)) (wakeN n) s

/-- HOLD_EXIT (R467). -/
def execHoldExit (n : Nat) (s : State) : Host.Outcome State Fault Refusal :=
  onDevice (Instr.wf (.holdExit n)) (holdExit n) s

/-- SYS_RST_N (R460). -/
def execSysRstN (low : Bool) (s : State) : Host.Outcome State Fault Refusal :=
  onCore (Instr.wf (.sysRstN low)) (sysRstN low) s

/-- SUPPLY_FAULT (R457). -/
def execSupplyFault (s : State) : Host.Outcome State Fault Refusal :=
  onCore (Instr.wf (.supplyFault)) supplyFault s

/-- WRST (R431). -/
def execWrst (code : BitVec 16) (s : State) : Host.Outcome State Fault Refusal :=
  whenLiveDev (Instr.wf (.wrst code)) (gbCmdWrite (BitVec.ofNat 32 (code.toNat * 65536 + 1))) s

/-- WARM_RESTART (R450). -/
def execWarmRestart (s : State) : Host.Outcome State Fault Refusal :=
  onCore (Instr.wf (.warmRestart)) warmRestart s

/-- BOOT (R463). -/
def execBoot (strap : BitVec 4) (xt32 : Bool) (patch : Option (List Byte)) (us : Nat) (s : State) : Host.Outcome State Fault Refusal :=
  onCore (Instr.wf (.boot strap xt32 patch us)) (boot strap xt32 patch us) s

/-- BYPASS (R495). -/
def execBypass (s : State) : Host.Outcome State Fault Refusal :=
  onDevice (Instr.wf (.bypass)) jtagBypass s

/-- IDCODE (R495). -/
def execIdcode (s : State) : Host.Outcome State Fault Refusal :=
  onDevice (Instr.wf (.idcode)) jtagIdcode s

/-- SAMPLE_PRELOAD (R495). -/
def execSamplePreload (cells : List Bool) (s : State) : Host.Outcome State Fault Refusal :=
  onDevice (Instr.wf (.samplePreload cells)) (jtagSample cells) s

/-- EXTEST (R495). -/
def execExtest (s : State) : Host.Outcome State Fault Refusal :=
  onDevice (Instr.wf (.extest)) (jtagDrive .extest) s

/-- HIGHZ (R495). -/
def execHighz (s : State) : Host.Outcome State Fault Refusal :=
  onDevice (Instr.wf (.highz)) (jtagDrive .highz) s

end Sys2Proof.Machine
end

