-- ==== Sys2Proof/Machine/RegisterCommands.lean ====
section
/-! DEFINITION. Meanings of the commands on register accesses of the host ports and of GREG (R9, R418, R419). -/

namespace Sys2Proof.Machine

/-- REGISTER_WRITE (R9). -/
def execRegisterWrite (p : Nat) (a : Nat) (v : W32) (s : State) : Host.Outcome State Fault Refusal :=
  onCore (Instr.wf (.registerWrite p a v)) (registerWrite p a v) s

/-- WIDE_VALUE_LOW_READ (R418). -/
def execWideValueLowRead (p : Nat) (a : Nat) (s : State) : Host.Outcome State Fault Refusal :=
  onCore (Instr.wf (.wideValueLowRead p a)) (viaPort p (busRead p a)) s

/-- WIDE_VALUE_HIGH_READ (R418). -/
def execWideValueHighRead (p : Nat) (a : Nat) (s : State) : Host.Outcome State Fault Refusal :=
  onCore (Instr.wf (.wideValueHighRead p a)) (viaPort p (busRead p a)) s

/-- WIDE_VALUE_LOW_WRITE (R419). -/
def execWideValueLowWrite (p : Nat) (a : Nat) (v : W32) (s : State) : Host.Outcome State Fault Refusal :=
  onCore (Instr.wf (.wideValueLowWrite p a v)) (viaPort p (busWrite p a v)) s

/-- WIDE_VALUE_COMMIT (R419). -/
def execWideValueCommit (p : Nat) (a : Nat) (v : W32) (s : State) : Host.Outcome State Fault Refusal :=
  onCore (Instr.wf (.wideValueCommit p a v)) (viaPort p (busWrite p a v)) s

end Sys2Proof.Machine
end

