-- ==== Sys2Proof/Machine/TimebaseCommands.lean ====
section
/-! DEFINITION. Meanings of the commands on the impression tick, credits, the timebase and PTP (R15–R58). -/

namespace Sys2Proof.Machine

/-- TICK_BOUNDARY (R15). -/
def execTickBoundary (s : State) : Host.Outcome State Fault Refusal :=
  whenLiveDev (Instr.wf (.tickBoundary)) tickBoundary s

/-- TICK_STROBE_REACHES_ENGINE (R272). -/
def execTickStrobeReachesEngine (e : Nat) (s : State) : Host.Outcome State Fault Refusal :=
  whenRunningDev (Instr.wf (.tickStrobeReachesEngine e)) (strobeReaches e) s

/-- NEXT_PERIOD_WRITE (R18). -/
def execNextPeriodWrite (v : W32) (s : State) : Host.Outcome State Fault Refusal :=
  whenLiveDev (Instr.wf (.nextPeriodWrite v)) (fun d => (nextPeriodWrite v d).2) s

/-- NEXT_ANCHOR_WRITE (R18). -/
def execNextAnchorWrite (v : Time64) (s : State) : Host.Outcome State Fault Refusal :=
  whenLiveDev (Instr.wf (.nextAnchorWrite v)) (fun d => (nextAnchorWrite v d).2) s

/-- UPDATE_CREDIT (R25). -/
def execUpdateCredit (e : Nat) (s : State) : Host.Outcome State Fault Refusal :=
  whenLiveDev (Instr.wf (.updateCredit e)) (updateCredit e) s

/-- TB_HTRIM_WRITE (R48). -/
def execTbHtrimWrite (v : W32) (s : State) : Host.Outcome State Fault Refusal :=
  whenLiveDev (Instr.wf (.tbHtrimWrite v)) (htrimWrite v) s

/-- TB_STEP_COMMIT (R48). -/
def execTbStepCommit (v : W64) (s : State) : Host.Outcome State Fault Refusal :=
  whenLiveDev (Instr.wf (.tbStepCommit v)) (stepCommit v) s

/-- SERVO_WRITE (R48). -/
def execServoWrite (b : Bool) (s : State) : Host.Outcome State Fault Refusal :=
  whenLiveDev (Instr.wf (.servoWrite b)) (servoWrite b) s

/-- SYNC (R43). -/
def execSync (p : Nat) (dom : Nat) (seq : BitVec 16) (g : Nat) (oneStep : Option PtpTime) (s : State) : Host.Outcome State Fault Refusal :=
  whenLiveDev (Instr.wf (.sync p dom seq g oneStep)) (syncRx p dom seq g oneStep) s

/-- FOLLOW_UP (R43). -/
def execFollowUp (p : Nat) (dom : Nat) (seq : BitVec 16) (origin : PtpTime) (s : State) : Host.Outcome State Fault Refusal :=
  whenLiveDev (Instr.wf (.followUp p dom seq origin)) (followUp p dom seq origin) s

/-- ANNOUNCE (R42). -/
def execAnnounce (dom : Nat) (m : Announce) (s : State) : Host.Outcome State Fault Refusal :=
  whenLiveDev (Instr.wf (.announce dom m)) (announceRx dom m) s

/-- PDELAY_REQ (R38). -/
def execPdelayReq (p : Nat) (seq : BitVec 16) (g : Nat) (g2 : Nat) (s : State) : Host.Outcome State Fault Refusal :=
  whenLiveDev (Instr.wf (.pdelayReq p seq g g2)) (pdelayReq p seq g g2) s

/-- PDELAY_RESP (R38). -/
def execPdelayResp (p : Nat) (g : Nat) (t2 : PtpTime) (s : State) : Host.Outcome State Fault Refusal :=
  whenLiveDev (Instr.wf (.pdelayResp p g t2)) (pdelayResp p g t2) s

/-- PDELAY_RESP_FOLLOW_UP (R38). -/
def execPdelayRespFollowUp (p : Nat) (t3 : PtpTime) (s : State) : Host.Outcome State Fault Refusal :=
  whenLiveDev (Instr.wf (.pdelayRespFollowUp p t3)) (pdelayRespFollowUp p t3) s

/-- PTP_MANAGEMENT_MESSAGE (R38). -/
def execPtpManagementMessage (p : Nat) (s : State) : Host.Outcome State Fault Refusal :=
  whenLiveDev (Instr.wf (.ptpManagementMessage p)) (ptpManagement p) s

/-- SYNC_RECEIPT_TIMEOUT (R43). -/
def execSyncReceiptTimeout (plant : Bool) (s : State) : Host.Outcome State Fault Refusal :=
  whenLiveDev (Instr.wf (.syncReceiptTimeout plant)) (syncTimeout plant) s

/-- ANNOUNCE_RECEIPT_TIMEOUT (R43). -/
def execAnnounceReceiptTimeout (plant : Bool) (s : State) : Host.Outcome State Fault Refusal :=
  whenLiveDev (Instr.wf (.announceReceiptTimeout plant)) (announceTimeout plant) s

/-- SYNC_SEND (R37). -/
def execSyncSend (p : Nat) (g : Nat) (s : State) : Host.Outcome State Fault Refusal :=
  whenLiveDev (Instr.wf (.syncSend p g)) (syncSend p g) s

/-- ANNOUNCE_SEND (R38). -/
def execAnnounceSend (p : Nat) (s : State) : Host.Outcome State Fault Refusal :=
  whenLiveDev (Instr.wf (.announceSend p)) (announceSend p) s

/-- PDELAY_REQ_SEND (R38). -/
def execPdelayReqSend (p : Nat) (g : Nat) (s : State) : Host.Outcome State Fault Refusal :=
  whenLiveDev (Instr.wf (.pdelayReqSend p g)) (pdelayReqSend p g) s

/-- ALIGN_LOST (R53). -/
def execAlignLost (s : State) : Host.Outcome State Fault Refusal :=
  whenLiveDev (Instr.wf (.alignLost)) alignLost s

end Sys2Proof.Machine
end

