-- ==== Sys2Proof/Machine/TimerCommands.lean ====
section
/-! DEFINITION. Meanings of the commands on counters, chains and captures (R209–R231). -/

namespace Sys2Proof.Machine

/-- GSTART (R219). -/
def execGstart (n : Nat) (mask : Nat) (s : State) : Host.Outcome State Fault Refusal :=
  whenLiveDev (Instr.wf (.gstart n mask)) (groupStart n mask) s

/-- GRESET (R219). -/
def execGreset (n : Nat) (mask : Nat) (s : State) : Host.Outcome State Fault Refusal :=
  whenLiveDev (Instr.wf (.greset n mask)) (groupReset n mask) s

/-- COUNTER_TSTART (R219). -/
def execCounterTstart (n : Nat) (s : State) : Host.Outcome State Fault Refusal :=
  whenLiveDev (Instr.wf (.counterTstart n)) (counterTstart n) s

/-- COUNTER_START (R217). -/
def execCounterStart (n : Nat) (s : State) : Host.Outcome State Fault Refusal :=
  whenLiveDev (Instr.wf (.counterStart n)) (counterStart n) s

/-- COUNTER_STOP (R217). -/
def execCounterStop (n : Nat) (s : State) : Host.Outcome State Fault Refusal :=
  whenLiveDev (Instr.wf (.counterStop n)) (counterStop n) s

/-- SWCAP (R230). -/
def execSwcap (n : Nat) (s : State) : Host.Outcome State Fault Refusal :=
  whenLiveDev (Instr.wf (.swcap n)) (softCapture n) s

/-- CHAIN_COUNT_READ (R223). -/
def execChainCountRead (p : Nat) (n : Nat) (s : State) : Host.Outcome State Fault Refusal :=
  onCore (Instr.wf (.chainCountRead p n)) (viaPort p (busRead p (baseCh n + 0x18))) s

/-- CHAIN_COUNT_WRITE (R224). -/
def execChainCountWrite (n : Nat) (v : W32) (s : State) : Host.Outcome State Fault Refusal :=
  whenLiveDev (Instr.wf (.chainCountWrite n v)) (countWrite n v) s

/-- CAPTURE_READ (R228). -/
def execCaptureRead (p : Nat) (n : Nat) (second : Bool) (s : State) : Host.Outcome State Fault Refusal :=
  onCore (Instr.wf (.captureRead p n second)) (viaPort p (busRead p (baseCh n + if second then 0x54 else 0x50))) s

/-- CAPTURE_WINDOW_CLOSE (R229). -/
def execCaptureWindowClose (n : Nat) (s : State) : Host.Outcome State Fault Refusal :=
  whenLiveDev (Instr.wf (.captureWindowClose n)) (windowClose n) s

end Sys2Proof.Machine
end

