-- ==== Sys2Proof/Machine/ToothCommands.lean ====
section
/-! DEFINITION. Meanings of the commands on pins, decoders, the always-on counters (R59–R90). -/

namespace Sys2Proof.Machine

/-- PIN_TRANSITION (R60). -/
def execPinTransition (p : Nat) (lvl : Bool) (g : BitVec 6) (s : State) : Host.Outcome State Fault Refusal :=
  onCore (Instr.wf (.pinTransition p lvl g)) (liveOr (ballTransition p lvl g) (ballLevel p lvl)) s

/-- EDGE_ACCEPTED (R63). -/
def execEdgeAccepted (p : Nat) (s : State) : Host.Outcome State Fault Refusal :=
  whenLiveDev (Instr.wf (.edgeAccepted p)) (edgeAccepted p) s

/-- PWD_FAULT (R73). -/
def execPwdFault (n : Nat) (s : State) : Host.Outcome State Fault Refusal :=
  whenLiveDev (Instr.wf (.pwdFault n)) (pwdFault n) s

/-- UPDATE_REQUEST (R26). -/
def execUpdateRequest (n : Nat) (s : State) : Host.Outcome State Fault Refusal :=
  whenLiveDev (Instr.wf (.updateRequest n)) (updateRequest n) s

/-- PIN_WRITE (R63). -/
def execPinWrite (p : Nat) (v : W32) (s : State) : Host.Outcome State Fault Refusal :=
  whenLiveDev (Instr.wf (.pinWrite p v)) (pinWrite p v) s

/-- DECODER_ENABLE (R68). -/
def execDecoderEnable (n : Nat) (s : State) : Host.Outcome State Fault Refusal :=
  whenLiveDev (Instr.wf (.decoderEnable n)) (decoderEnable n) s

/-- DECODER_DISABLE (R69). -/
def execDecoderDisable (n : Nat) (s : State) : Host.Outcome State Fault Refusal :=
  whenLiveDev (Instr.wf (.decoderDisable n)) (decoderDisable n) s

/-- CLR (R69). -/
def execClr (n : Nat) (s : State) : Host.Outcome State Fault Refusal :=
  whenLiveDev (Instr.wf (.clr n)) (decoderClear n) s

/-- USTAMP_LO_READ (R85). -/
def execUstampLoRead (p : Nat) (n : Nat) (s : State) : Host.Outcome State Fault Refusal :=
  onCore (Instr.wf (.ustampLoRead p n)) (viaPort p (busRead p (baseCh n + 0xD8))) s

/-- AOQ_TRANSITION (R88). -/
def execAoqTransition (k : Nat) (chB : Bool) (illegal : Bool) (nearPreset : Bool) (s : State) : Host.Outcome State Fault Refusal :=
  onDevice (Instr.wf (.aoqTransition k chB illegal nearPreset)) (aoqTransition k chB illegal nearPreset) s

/-- PRESET (R90). -/
def execPreset (k : Nat) (s : State) : Host.Outcome State Fault Refusal :=
  whenLiveDev (Instr.wf (.preset k)) (aoqPreset k) s

end Sys2Proof.Machine
end

