-- ==== Sys2Proof/Machine/Dispatch.lean ====
section
/-! DEFINITION. The meaning of every command: one arm per constructor, one direct call each. -/

namespace Sys2Proof.Machine

def exec (i : Instr) (s : State) : Host.Outcome State Fault Refusal :=
  match i with
  | .registerWrite p a v => Sys2Proof.Machine.execRegisterWrite p a v s
  | .wideValueLowRead p a => Sys2Proof.Machine.execWideValueLowRead p a s
  | .wideValueHighRead p a => Sys2Proof.Machine.execWideValueHighRead p a s
  | .wideValueLowWrite p a v => Sys2Proof.Machine.execWideValueLowWrite p a v s
  | .wideValueCommit p a v => Sys2Proof.Machine.execWideValueCommit p a v s
  | .tickBoundary => Sys2Proof.Machine.execTickBoundary s
  | .tickStrobeReachesEngine e => Sys2Proof.Machine.execTickStrobeReachesEngine e s
  | .nextPeriodWrite v => Sys2Proof.Machine.execNextPeriodWrite v s
  | .nextAnchorWrite v => Sys2Proof.Machine.execNextAnchorWrite v s
  | .updateCredit e => Sys2Proof.Machine.execUpdateCredit e s
  | .tbHtrimWrite v => Sys2Proof.Machine.execTbHtrimWrite v s
  | .tbStepCommit v => Sys2Proof.Machine.execTbStepCommit v s
  | .servoWrite b => Sys2Proof.Machine.execServoWrite b s
  | .sync p dom seq g oneStep => Sys2Proof.Machine.execSync p dom seq g oneStep s
  | .followUp p dom seq origin => Sys2Proof.Machine.execFollowUp p dom seq origin s
  | .announce dom m => Sys2Proof.Machine.execAnnounce dom m s
  | .pdelayReq p seq g g2 => Sys2Proof.Machine.execPdelayReq p seq g g2 s
  | .pdelayResp p g t2 => Sys2Proof.Machine.execPdelayResp p g t2 s
  | .pdelayRespFollowUp p t3 => Sys2Proof.Machine.execPdelayRespFollowUp p t3 s
  | .ptpManagementMessage p => Sys2Proof.Machine.execPtpManagementMessage p s
  | .syncReceiptTimeout plant => Sys2Proof.Machine.execSyncReceiptTimeout plant s
  | .announceReceiptTimeout plant => Sys2Proof.Machine.execAnnounceReceiptTimeout plant s
  | .syncSend p g => Sys2Proof.Machine.execSyncSend p g s
  | .announceSend p => Sys2Proof.Machine.execAnnounceSend p s
  | .pdelayReqSend p g => Sys2Proof.Machine.execPdelayReqSend p g s
  | .alignLost => Sys2Proof.Machine.execAlignLost s
  | .pinTransition p lvl g => Sys2Proof.Machine.execPinTransition p lvl g s
  | .edgeAccepted p => Sys2Proof.Machine.execEdgeAccepted p s
  | .pwdFault n => Sys2Proof.Machine.execPwdFault n s
  | .updateRequest n => Sys2Proof.Machine.execUpdateRequest n s
  | .pinWrite p v => Sys2Proof.Machine.execPinWrite p v s
  | .decoderEnable n => Sys2Proof.Machine.execDecoderEnable n s
  | .decoderDisable n => Sys2Proof.Machine.execDecoderDisable n s
  | .clr n => Sys2Proof.Machine.execClr n s
  | .ustampLoRead p n => Sys2Proof.Machine.execUstampLoRead p n s
  | .aoqTransition k chB illegal nearPreset => Sys2Proof.Machine.execAoqTransition k chB illegal nearPreset s
  | .preset k => Sys2Proof.Machine.execPreset k s
  | .ghost a => Sys2Proof.Machine.execGhost a s
  | .stopped a => Sys2Proof.Machine.execStopped a s
  | .resync a => Sys2Proof.Machine.execResync a s
  | .axisEnable a => Sys2Proof.Machine.execAxisEnable a s
  | .axisDisable a => Sys2Proof.Machine.execAxisDisable a s
  | .aoqSeed a => Sys2Proof.Machine.execAoqSeed a s
  | .remoteMiss a => Sys2Proof.Machine.execRemoteMiss a s
  | .coastLimit a => Sys2Proof.Machine.execCoastLimit a s
  | .coastMax a => Sys2Proof.Machine.execCoastMax a s
  | .updateService e a => Sys2Proof.Machine.execUpdateService e a s
  | .armingPass e a => Sys2Proof.Machine.execArmingPass e a s
  | .policyService e a => Sys2Proof.Machine.execPolicyService e a s
  | .policyWalk a => Sys2Proof.Machine.execPolicyWalk a s
  | .tickWork e => Sys2Proof.Machine.execTickWork e s
  | .insert => Sys2Proof.Machine.execInsert s
  | .remove sid => Sys2Proof.Machine.execRemove sid s
  | .modify sid => Sys2Proof.Machine.execModify sid s
  | .modifyDur sid => Sys2Proof.Machine.execModifyDur sid s
  | .free sid => Sys2Proof.Machine.execFree sid s
  | .slugInsertObject who l => Sys2Proof.Machine.execSlugInsertObject who l s
  | .slugRemoveObject who l => Sys2Proof.Machine.execSlugRemoveObject who l s
  | .galleyWindowRead p a => Sys2Proof.Machine.execGalleyWindowRead p a s
  | .compact => Sys2Proof.Machine.execCompact s
  | .compactionDone => Sys2Proof.Machine.execCompactionDone s
  | .clrpk cs => Sys2Proof.Machine.execClrpk cs s
  | .galleyGrant => Sys2Proof.Machine.execGalleyGrant s
  | .galleyOpComplete => Sys2Proof.Machine.execGalleyOpComplete s
  | .chaseCommit cs => Sys2Proof.Machine.execChaseCommit cs s
  | .commitRecord => Sys2Proof.Machine.execCommitRecord s
  | .actionComplete => Sys2Proof.Machine.execActionComplete s
  | .edgeRise n sid e => Sys2Proof.Machine.execEdgeRise n sid e s
  | .edgeFall n sid e => Sys2Proof.Machine.execEdgeFall n sid e s
  | .pulse n sid e dur => Sys2Proof.Machine.execPulse n sid e dur s
  | .toggle n sid e => Sys2Proof.Machine.execToggle n sid e s
  | .captureArm n sid e dur => Sys2Proof.Machine.execCaptureArm n sid e dur s
  | .engineWake chan sid t => Sys2Proof.Machine.execEngineWake chan sid t s
  | .doorbell chan sid t => Sys2Proof.Machine.execDoorbell chan sid t s
  | .emulationStep n a sid e => Sys2Proof.Machine.execEmulationStep n a sid e s
  | .pulseEnd n => Sys2Proof.Machine.execPulseEnd n s
  | .channelEnable n => Sys2Proof.Machine.execChannelEnable n s
  | .channelDisable n => Sys2Proof.Machine.execChannelDisable n s
  | .counterTerminal n => Sys2Proof.Machine.execCounterTerminal n s
  | .compareMatch n rise => Sys2Proof.Machine.execCompareMatch n rise s
  | .compareWrite n r v => Sys2Proof.Machine.execCompareWrite n r v s
  | .periodWrite n v => Sys2Proof.Machine.execPeriodWrite n v s
  | .quoinClose v => Sys2Proof.Machine.execQuoinClose v s
  | .quoinOpen v => Sys2Proof.Machine.execQuoinOpen v s
  | .frise n => Sys2Proof.Machine.execFrise n s
  | .ffall n => Sys2Proof.Machine.execFfall n s
  | .reload n => Sys2Proof.Machine.execReload n s
  | .countWrite n v => Sys2Proof.Machine.execCountWrite n v s
  | .emen n => Sys2Proof.Machine.execEmen n s
  | .emulationAxisStep n => Sys2Proof.Machine.execEmulationAxisStep n s
  | .minPulseFilter p high t => Sys2Proof.Machine.execMinPulseFilter p high t s
  | .sideTurnOn p high t => Sys2Proof.Machine.execSideTurnOn p high t s
  | .sideTurnOff p high t => Sys2Proof.Machine.execSideTurnOff p high t s
  | .refreshStart p t => Sys2Proof.Machine.execRefreshStart p t s
  | .refreshEnd p t => Sys2Proof.Machine.execRefreshEnd p t s
  | .dis p => Sys2Proof.Machine.execDis p s
  | .stoppingDone p => Sys2Proof.Machine.execStoppingDone p s
  | .tripAccepted j => Sys2Proof.Machine.execTripAccepted j s
  | .swtrip j => Sys2Proof.Machine.execSwtrip j s
  | .latchClear j => Sys2Proof.Machine.execLatchClear j s
  | .gstart n mask => Sys2Proof.Machine.execGstart n mask s
  | .greset n mask => Sys2Proof.Machine.execGreset n mask s
  | .counterTstart n => Sys2Proof.Machine.execCounterTstart n s
  | .counterStart n => Sys2Proof.Machine.execCounterStart n s
  | .counterStop n => Sys2Proof.Machine.execCounterStop n s
  | .swcap n => Sys2Proof.Machine.execSwcap n s
  | .chainCountRead p n => Sys2Proof.Machine.execChainCountRead p n s
  | .chainCountWrite n v => Sys2Proof.Machine.execChainCountWrite n v s
  | .captureRead p n second => Sys2Proof.Machine.execCaptureRead p n second s
  | .captureWindowClose n => Sys2Proof.Machine.execCaptureWindowClose n s
  | .cpSet k => Sys2Proof.Machine.execCpSet k s
  | .cpOut k => Sys2Proof.Machine.execCpOut k s
  | .cpIn k => Sys2Proof.Machine.execCpIn k s
  | .cpWait k => Sys2Proof.Machine.execCpWait k s
  | .cpMov k => Sys2Proof.Machine.execCpMov k s
  | .cpJmp k => Sys2Proof.Machine.execCpJmp k s
  | .cpSig k => Sys2Proof.Machine.execCpSig k s
  | .cpHalt k => Sys2Proof.Machine.execCpHalt k s
  | .cpIllop k => Sys2Proof.Machine.execCpIllop k s
  | .compositorDelayStep k => Sys2Proof.Machine.execCompositorDelayStep k s
  | .txdWrite k v => Sys2Proof.Machine.execTxdWrite k v s
  | .rxdRead p k => Sys2Proof.Machine.execRxdRead p k s
  | .compositorStart k clean => Sys2Proof.Machine.execCompositorStart k clean s
  | .compositorTstart k clean => Sys2Proof.Machine.execCompositorTstart k clean s
  | .compositorHalt k => Sys2Proof.Machine.execCompositorHalt k s
  | .compositorEnable k => Sys2Proof.Machine.execCompositorEnable k s
  | .compositorDisable k => Sys2Proof.Machine.execCompositorDisable k s
  | .programWrite k r v => Sys2Proof.Machine.execProgramWrite k r v s
  | .microword e => Sys2Proof.Machine.execMicroword e s
  | .safePoint e => Sys2Proof.Machine.execSafePoint e s
  | .endw e => Sys2Proof.Machine.execEndw e s
  | .cstart e => Sys2Proof.Machine.execCstart e s
  | .chalt e => Sys2Proof.Machine.execChalt e s
  | .offlineRequest e => Sys2Proof.Machine.execOfflineRequest e s
  | .onlineRequest e => Sys2Proof.Machine.execOnlineRequest e s
  | .lockWrite e v => Sys2Proof.Machine.execLockWrite e v s
  | .lockstepMismatch e => Sys2Proof.Machine.execLockstepMismatch e s
  | .ins e c blk => Sys2Proof.Machine.execIns e c blk s
  | .rem e c v => Sys2Proof.Machine.execRem e c v s
  | .mod e c v blk => Sys2Proof.Machine.execMod e c v blk s
  | .modd e c v blk => Sys2Proof.Machine.execModd e c v blk s
  | .galleyPortFree e c v => Sys2Proof.Machine.execGalleyPortFree e c v s
  | .pop e c a blk => Sys2Proof.Machine.execPop e c a blk s
  | .pend e c a v blk => Sys2Proof.Machine.execPend e c a v blk s
  | .mark e c v imm2 => Sys2Proof.Machine.execMark e c v imm2 s
  | .galleyPortRead e c v blk => Sys2Proof.Machine.execGalleyPortRead e c v blk s
  | .crd e k t imm2 => Sys2Proof.Machine.execCrd e k t imm2 s
  | .cwr e k t imm2 v => Sys2Proof.Machine.execCwr e k t imm2 v s
  | .ard e k t imm2 => Sys2Proof.Machine.execArd e k t imm2 s
  | .awr e k t imm2 v => Sys2Proof.Machine.execAwr e k t imm2 v s
  | .decrd e k t imm2 v blk => Sys2Proof.Machine.execDecrd e k t imm2 v blk s
  | .mload e k t blk => Sys2Proof.Machine.execMload e k t blk s
  | .segld e k t blk => Sys2Proof.Machine.execSegld e k t blk s
  | .chrd e k t blk => Sys2Proof.Machine.execChrd e k t blk s
  | .chwr e k t blk => Sys2Proof.Machine.execChwr e k t blk s
  | .arm e k blk => Sys2Proof.Machine.execArm e k blk s
  | .retime e k t v blk => Sys2Proof.Machine.execRetime e k t v blk s
  | .wdraw e k t => Sys2Proof.Machine.execWdraw e k t s
  | .durw e k t v => Sys2Proof.Machine.execDurw e k t v s
  | .cpop e k t imm2 v => Sys2Proof.Machine.execCpop e k t imm2 v s
  | .greg e k imm2 v => Sys2Proof.Machine.execGreg e k imm2 v s
  | .channelBusGrant q => Sys2Proof.Machine.execChannelBusGrant q s
  | .openFormeLoadDone => Sys2Proof.Machine.execOpenFormeLoadDone s
  | .interruptEvent n => Sys2Proof.Machine.execInterruptEvent n s
  | .pinSenseAccept n lvl => Sys2Proof.Machine.execPinSenseAccept n lvl s
  | .icDbell v => Sys2Proof.Machine.execIcDbell v s
  | .icSetp w v => Sys2Proof.Machine.execIcSetp w v s
  | .icPendClear w v => Sys2Proof.Machine.execIcPendClear w v s
  | .claim p t => Sys2Proof.Machine.execClaim p t s
  | .complete t v => Sys2Proof.Machine.execComplete t v s
  | .icSourceWrite n v => Sys2Proof.Machine.execIcSourceWrite n v s
  | .chwRead p g => Sys2Proof.Machine.execChwRead p g s
  | .axwLoRead p g => Sys2Proof.Machine.execAxwLoRead p g s
  | .hostVectorMessage v => Sys2Proof.Machine.execHostVectorMessage v s
  | .msixUnmask v => Sys2Proof.Machine.execMsixUnmask v s
  | .wakeLatch n rise => Sys2Proof.Machine.execWakeLatch n rise s
  | .pcieReset k => Sys2Proof.Machine.execPcieReset k s
  | .macLineReset m k => Sys2Proof.Machine.execMacLineReset m k s
  | .crossingResync k => Sys2Proof.Machine.execCrossingResync k s
  | .clrw => Sys2Proof.Machine.execClrw s
  | .cyclicExchangeStart h => Sys2Proof.Machine.execCyclicExchangeStart h s
  | .encoderResponse p frame framing => Sys2Proof.Machine.execEncoderResponse p frame framing s
  | .gateDriveResponse p frame framing => Sys2Proof.Machine.execGateDriveResponse p frame framing s
  | .ioResponse p frame framing => Sys2Proof.Machine.execIoResponse p frame framing s
  | .noResponse p => Sys2Proof.Machine.execNoResponse p s
  | .acyclicExchangeStart p => Sys2Proof.Machine.execAcyclicExchangeStart p s
  | .identifyResponse p frame framing trip => Sys2Proof.Machine.execIdentifyResponse p frame framing trip s
  | .readResponse p frame framing => Sys2Proof.Machine.execReadResponse p frame framing s
  | .writeResponse p frame framing => Sys2Proof.Machine.execWriteResponse p frame framing s
  | .portEnable p => Sys2Proof.Machine.execPortEnable p s
  | .portDisable p => Sys2Proof.Machine.execPortDisable p s
  | .load p => Sys2Proof.Machine.execLoad p s
  | .enum p => Sys2Proof.Machine.execEnum p s
  | .enumerationDone => Sys2Proof.Machine.execEnumerationDone s
  | .cyclicGateOpen m => Sys2Proof.Machine.execCyclicGateOpen m s
  | .cyclicGateClose m => Sys2Proof.Machine.execCyclicGateClose m s
  | .trajectoryFrame m src f => Sys2Proof.Machine.execTrajectoryFrame m src f s
  | .summarySend m => Sys2Proof.Machine.execSummarySend m s
  | .summary m dom src a tick body => Sys2Proof.Machine.execSummary m dom src a tick body s
  | .fullStatus m dom src a tick body => Sys2Proof.Machine.execFullStatus m dom src a tick body s
  | .masterLost m => Sys2Proof.Machine.execMasterLost m s
  | .takeover => Sys2Proof.Machine.execTakeover s
  | .workerLost a => Sys2Proof.Machine.execWorkerLost a s
  | .arp m sender target => Sys2Proof.Machine.execArp m sender target s
  | .icmpEcho m sender target data plain => Sys2Proof.Machine.execIcmpEcho m sender target data plain s
  | .acyclicDatagram m ip port target dest l plain => Sys2Proof.Machine.execAcyclicDatagram m ip port target dest l plain s
  | .sessionExpiry n => Sys2Proof.Machine.execSessionExpiry n s
  | .macEnable m => Sys2Proof.Machine.execMacEnable m s
  | .macDisable m queued => Sys2Proof.Machine.execMacDisable m queued s
  | .linkDown m => Sys2Proof.Machine.execLinkDown m s
  | .linkUp m => Sys2Proof.Machine.execLinkUp m s
  | .receiveError m => Sys2Proof.Machine.execReceiveError m s
  | .read who index sub => Sys2Proof.Machine.execRead who index sub s
  | .write who index sub l => Sys2Proof.Machine.execWrite who index sub l s
  | .keyedWrite who index sub l => Sys2Proof.Machine.execKeyedWrite who index sub l s
  | .describe who index sub => Sys2Proof.Machine.execDescribe who index sub s
  | .readSeg who index sub offset count => Sys2Proof.Machine.execReadSeg who index sub offset count s
  | .writeSeg who index sub offset last l => Sys2Proof.Machine.execWriteSeg who index sub offset last l s
  | .readAll who index => Sys2Proof.Machine.execReadAll who index s
  | .mailboxGo p v => Sys2Proof.Machine.execMailboxGo p v s
  | .mailboxResponse p => Sys2Proof.Machine.execMailboxResponse p s
  | .commit => Sys2Proof.Machine.execCommit s
  | .commitDone ok => Sys2Proof.Machine.execCommitDone ok s
  | .restore => Sys2Proof.Machine.execRestore s
  | .erase => Sys2Proof.Machine.execErase s
  | .eventGroupTrigger g => Sys2Proof.Machine.execEventGroupTrigger g s
  | .dictionaryThirdPass => Sys2Proof.Machine.execDictionaryThirdPass s
  | .qspiRead a n more => Sys2Proof.Machine.execQspiRead a n more s
  | .qspiWrite a l more => Sys2Proof.Machine.execQspiWrite a l more s
  | .readHostStatus => Sys2Proof.Machine.execReadHostStatus s
  | .clearHostStatus v => Sys2Proof.Machine.execClearHostStatus v s
  | .targetReset => Sys2Proof.Machine.execTargetReset s
  | .qspiUnknownOpcode => Sys2Proof.Machine.execQspiUnknownOpcode s
  | .hqCsNRise crossed => Sys2Proof.Machine.execHqCsNRise crossed s
  | .hqRstN k => Sys2Proof.Machine.execHqRstN k s
  | .badAccess => Sys2Proof.Machine.execBadAccess s
  | .tamper => Sys2Proof.Machine.execTamper s
  | .vbatLoss => Sys2Proof.Machine.execVbatLoss s
  | .vbatRestore => Sys2Proof.Machine.execVbatRestore s
  | .powerRequest r => Sys2Proof.Machine.execPowerRequest r s
  | .idleEntry => Sys2Proof.Machine.execIdleEntry s
  | .idleExit => Sys2Proof.Machine.execIdleExit s
  | .holdEntry => Sys2Proof.Machine.execHoldEntry s
  | .pwrEnFall => Sys2Proof.Machine.execPwrEnFall s
  | .wakeN n => Sys2Proof.Machine.execWakeN n s
  | .holdExit n => Sys2Proof.Machine.execHoldExit n s
  | .sysRstN low => Sys2Proof.Machine.execSysRstN low s
  | .supplyFault => Sys2Proof.Machine.execSupplyFault s
  | .wrst code => Sys2Proof.Machine.execWrst code s
  | .warmRestart => Sys2Proof.Machine.execWarmRestart s
  | .boot strap xt32 patch us => Sys2Proof.Machine.execBoot strap xt32 patch us s
  | .bypass => Sys2Proof.Machine.execBypass s
  | .idcode => Sys2Proof.Machine.execIdcode s
  | .samplePreload cells => Sys2Proof.Machine.execSamplePreload cells s
  | .extest => Sys2Proof.Machine.execExtest s
  | .highz => Sys2Proof.Machine.execHighz s
  | .survey => Sys2Proof.Machine.execSurvey s
  | .surveyStart => Sys2Proof.Machine.execSurveyStart s
  | .sentinelMeasured v tj => Sys2Proof.Machine.execSentinelMeasured v tj s
  | .surveyDone drift => Sys2Proof.Machine.execSurveyDone drift s
  | .marginPlanTakesEffect => Sys2Proof.Machine.execMarginPlanTakesEffect s
  | .vtrimStep => Sys2Proof.Machine.execVtrimStep s
  | .calibrationStart => Sys2Proof.Machine.execCalibrationStart s
  | .calibrationDone ok => Sys2Proof.Machine.execCalibrationDone ok s
  | .correctableError r w => Sys2Proof.Machine.execCorrectableError r w s
  | .uncorrectableError r w reader allBad => Sys2Proof.Machine.execUncorrectableError r w reader allBad s
  | .scrub => Sys2Proof.Machine.execScrub s
  | .claimableSpanEnd n => Sys2Proof.Machine.execClaimableSpanEnd n s
  | .tripLevelInactive j => Sys2Proof.Machine.execTripLevelInactive j s

end Sys2Proof.Machine
end

