-- ==== Sys2Proof/Machine/Tick.lean ====
section
/-! DEFINITION. What the device does by itself while no command waits (log entry 36: DESIGN CHOICE): the events that the state
of the present TCLK makes due are put in the queue, and once they have run the next TCLK begins. What the state cannot time is
left to commands: the intervals of PTP, the ends of long operations, the scrub's pace, frames and levels from outside. -/

namespace Sys2Proof.Machine

/-- The numbers among `l` for which `f` holds, each with its command. -/
def duePick (l : List Nat) (f : Nat → Bool) (g : Nat → Instr) : List Instr := (l.filter f).map g

/-- The boundary and the strobes to the engines, those that come online included (R15, R272, R275). -/
def dueBoundary (d : Dev) : List Instr :=
  if atOrAfter d.tb.time d.tick.next then
    .tickBoundary :: ((List.range 16).filter fun e => (d.eng e).online || (d.eng e).onReq).map .tickStrobeReachesEngine
  else []

/-- The tick work of the engines that have no request to take before it (R24). -/
def dueWork (d : Dev) : List Instr :=
  duePick (List.range 16) (fun e => enginesRun d && (d.eng e).online && tickMayRun d e) .tickWork

/-- 500 ECLK end in the present TCLK (R25); a TCLK is eclk / 250 of an ECLK long. -/
def dueCredits (d : Dev) : List Instr :=
  if (d.tb.tclk * d.load.eclk) / 125000 < ((d.tb.tclk + 1) * d.load.eclk) / 125000 then (List.range 16).map .updateCredit else []

/-- Counters: compare matches, then terminal counts (R167, R168). -/
def dueCounters (d : Dev) : List Instr :=
  let l := chanKeys d
  duePick l (compareHits d · true) (.compareMatch · true) ++ duePick l (compareHits d · false) (.compareMatch · false) ++
    duePick l (terminalNow d) .counterTerminal

/-- Pins and pulses (R63, R73). -/
def duePins (d : Dev) : List Instr :=
  duePick (d.tooth.pins.map (·.1)) (filterEnds d) .edgeAccepted ++ duePick (d.tooth.track.map (·.1)) (pwdDue d) .pwdFault

/-- The requests of the clusters' queues that are served next, each by the first engine that may take it, and the walks (R25, R26,
R150, R151). -/
def dueRequests (d : Dev) : List Instr :=
  (List.range 4).filterMap (fun q =>
    match nextReq (d.queue q) with
    | some r =>
      match (List.range 4).find? fun k => canServe d (4 * q + k) (requestAxis r) with
      | some k =>
        some (match r with
          | .update a => .updateService (4 * q + k) a
          | .arm a => .armingPass (4 * q + k) a
          | .policy a _ _ _ _ _ => .policyService (4 * q + k) a)
      | none => none
    | none => none) ++
  (match d.ax.walks with | r :: _ => [.policyWalk (requestAxis r)] | [] => [])

/-- The command by which an occurrence acts at E (R119). -/
def actionOf (o : Occurrence) : Option Instr :=
  match o.act with
  | 0 => some (.edgeRise o.chan o.sid o.place)
  | 1 => some (.edgeFall o.chan o.sid o.place)
  | 2 => some (.pulse o.chan o.sid o.place o.d)
  | 3 => some (.toggle o.chan o.sid o.place)
  | 4 => some (.captureArm o.chan o.sid o.place o.d)
  | 5 => some (.engineWake o.chan o.sid o.place)
  | 6 => some (.doorbell o.chan o.sid o.place)
  | 7 => some (.emulationStep o.chan o.axis o.sid o.place)
  | _ => none

/-- An instant lies in the present TCLK or before. -/
def reached (d : Dev) (t : Time64) : Bool := !atOrAfter t (endNow d)

/-- The commands that act in the present TCLK, in SEQ order (R138, R176); on a remote channel an action leaves the stage its lead ahead
of E (R188). -/
def actsNow (d : Dev) : List Occurrence :=
  let lead (o : Occurrence) : Nat := if isRemote o.chan && decide (o.act ≤ 3) then o.lead else 0
  (d.gs.flight.filter fun o => !o.begun && reached d (plusInt o.place (-((lead o * 64 : Nat) : Int)))).foldl (fun l o =>
    l.takeWhile (fun x => decide ((x.seq - o.seq).toInt ≤ 0)) ++ o :: l.dropWhile fun x => decide ((x.seq - o.seq).toInt ≤ 0)) []

/-- The commits of the chases (R135). -/
def dueCommits (d : Dev) : List Instr := duePick (d.chases.map (·.1)) (fun k => (commitChoice d k).isSome) .chaseCommit

/-- Ends of pulses, actions, ends of capture windows, emulations that follow an axis (R174–R176, R184, R229). -/
def dueActions (d : Dev) : List Instr :=
  duePick (d.ch.out.map (·.1)) (fun n => match (d.chOut n).pulseEnd with | some t => reachedLocal d t | none => false) .pulseEnd ++
  (actsNow d).filterMap actionOf ++
  duePick (d.ch.cap.map (·.1)) (fun n => bit (d.chCap n).caps 6 &&
    (match (d.chCap n).closeAt with | some t => reachedLocal d t | none => false)) .captureWindowClose ++
  duePick (d.ch.em.map (·.1)) (fun n => emEn (d.chEm n) && emSrc (d.chEm n)) .emulationAxisStep

/-- The operations on the channel bus, which see the values of the TCLK's start (R84, R265). -/
def dueBus (d : Dev) : List Instr := duePick (List.range 4) (fun q => !(d.lane q).ops.isEmpty) .channelBusGrant

/-- The galley's fabric (R125, R139, R326, R393), and the requests of update teeth (R83). -/
def dueGalley (d : Dev) : List Instr :=
  (match d.gs.fifo with
   | .commit _ :: _ => [.commitRecord]
   | .complete _ :: _ => [.actionComplete]
   | [] => []) ++
  (if d.gs.granted.isEmpty then [] else [.galleyOpComplete]) ++ (if d.gs.presented.isEmpty then [] else [.galleyGrant]) ++
  d.ds.trigs.map .eventGroupTrigger ++ duePick (d.tooth.decs.map (·.1)) (fun n => (d.dec n).updcnt != (d.dec n).updSeen) .updateRequest

/-- The earlier of two instants with their commands; the first at equal ones. -/
def earlier (a b : Option (Nat × Instr)) : Option (Nat × Instr) :=
  match a, b with
  | some x, some y => if y.1 < x.1 then b else a
  | none, _ => b
  | _, none => a

/-- The next event of pair `p` in the present TCLK with its instant (R193, R195, R198, R200). Instants that passed while the
pair could not act are taken at the start of the TCLK. -/
def bridgeNext (d : Dev) (p : Nat) : Option (Nat × Instr) :=
  let x := d.pair p
  let m := minPulse x
  let cand (t : Nat) (ok : Nat → Bool) (i : Nat → Instr) : Option (Nat × Instr) :=
    let u := max t d.localNow
    if reachedLocal d u && ok u then some (u, i u) else none
  let cmdOn := if bpInter x then max x.fhigh.qfAt x.flow.qfAt else x.fhigh.qfAt
  let l : List (Option (Nat × Instr)) :=
    [cand (filterAt x x.fhigh) (filterDue x x.fhigh) (.minPulseFilter p true),
     cand (filterAt x x.flow) (fun t => bpInter x && filterDue x x.flow t) (.minPulseFilter p false),
     match x.refresh with
     | some r => cand (r + x.high.dead + fld x.bspw 0 12 * 64) (fun _ => true) (.refreshEnd p)
     | none => none,
     cand (max (endedAt x true) (x.high.onAt + m)) (mayTurnOff x true) (.sideTurnOff p true),
     cand (max (endedAt x false) (x.low.onAt + m)) (mayTurnOff x false) (.sideTurnOff p false),
     cand (max (x.low.offAt + fld x.bsmax 0 24 * 64) (x.high.onAt + m)) (refreshDue x) (.refreshStart p),
     cand (max cmdOn (x.low.offAt + x.low.dead)) (mayTurnOn x true) (.sideTurnOn p true),
     cand (match x.refresh with | some r => r + x.high.dead | none => max cmdOn (x.high.offAt + x.high.dead))
       (mayTurnOn x false) (.sideTurnOn p false)]
  if pairEnabled x then l.foldl earlier none else none

/-- The commanded level of a side follows its channel once nothing of the pair comes before the change (R190, R193). -/
def followLevel (p : Nat) (high : Bool) (d : Dev) : Dev :=
  let x := d.pair p
  let o := d.chOut (if high then 2 * p else 2 * p + 1)
  let f := if high then x.fhigh else x.flow
  let first := match bridgeNext d p with | some e => decide (max o.lvlAt d.localNow < e.1) | none => true
  if pairEnabled x && (high || bpInter x) && f.q != o.lvl && first then takeCommand p high d else d

/-- Both sides of every pair, the earlier change first. -/
def takeCommands (d : Dev) : Dev :=
  forEach (d.br.pairs.map (·.1)) (fun p d =>
    if (d.chOut (2 * p + 1)).lvlAt < (d.chOut (2 * p)).lvlAt then followLevel p true (followLevel p false d)
    else followLevel p false (followLevel p true d)) d

/-- Bridge pairs in the present TCLK. -/
def dueBridge (d : Dev) : List Instr :=
  let l := d.br.pairs.map (·.1)
  (l.filterMap fun p => (bridgeNext d p).map (·.2)) ++
  duePick l (fun p =>
    let x := d.pair p
    let dead := max (deadRise d x) (deadFall d x)
    x.state == .stopping && !x.high.on && !x.low.on && (bridgeNext d p).isNone &&
      decide (x.high.offAt + dead ≤ d.localNow ∧ x.low.offAt + dead ≤ d.localNow)) .stoppingDone

/-- Trip inputs (R202, R203). -/
def dueTrips (d : Dev) : List Instr :=
  let l := d.br.trips.map (·.1)
  duePick l (fun i => tripDue (d.trip i)) .tripAccepted ++
    duePick l (fun i => (d.trip i).level && (d.trip i).active == 0) .tripLevelInactive

/-- Engines that have no context running and something to take at a safe point (R268, R274, R277). -/
def dueSafe (d : Dev) : List Instr :=
  duePick (List.range 16) (fun e =>
    let g := d.eng e
    g.online && !g.busy && (g.offReq || g.chaltReq || g.pendFault.isSome)) .safePoint

/-- The step of a compositor (R236–R242). -/
def compStep (d : Dev) (k : Nat) : Option Instr :=
  let c := d.comp k
  if !c.run || c.until_ != 0 then none
  else if 0 < c.dly then some (.compositorDelayStep k)
  else if cpIllegal (cpWord c) then some (.cpIllop k)
  else match fld (cpWord c) 28 4 with
    | 0 => some (.cpSet k)
    | 1 => some (.cpOut k)
    | 2 => some (.cpIn k)
    | 3 => some (.cpWait k)
    | 4 => some (.cpMov k)
    | 5 => some (.cpJmp k)
    | 6 => some (.cpSig k)
    | 7 => some (.cpHalt k)
    | _ => some (.cpIllop k)

/-- Field ports: a head's exchange at PLANOFS + SLOT, the acyclic slot, enumeration (R342, R345, R389, R392). -/
def dueField (d : Dev) : List Instr :=
  duePick (d.fps.map (·.1)) (responseMissing d) .noResponse ++ duePick (d.heads.map (·.1)) (headDue d) .cyclicExchangeStart ++ duePick (d.fps.map (·.1)) (acyDue d) .acyclicExchangeStart ++
  (if d.lo.enum.op.state = 1 ∧ (d.fps.all fun e => e.2.enumAt.isNone) = true then [.enumerationDone] else []) ++
  (if !d.ds.third.isEmpty && (d.lo.enum.op.state == 2 || d.lo.enum.op.state == 3) then [.dictionaryThirdPass] else [])

/-- The cyclic gates and the device's summary (R360, R361). -/
def dueLink (d : Dev) : List Instr :=
  let own := min (d.lk.cfg.sumOffset + ownAddress d * d.lk.cfg.sumSpacing) (windowLen d)
  let l := [0, 1, 2, 3].filter (cyclicMac d)
  let at_ (n : Nat) : Bool := meets d (d.tick.lastBoundary + BitVec.ofNat 64 (n * 64))
  if d.tick.unsettled then []
  else
    duePick l (fun m => !(d.mac m).gate && at_ d.lk.gofs) .cyclicGateOpen ++
    duePick l (fun _ => roleFollows d && d.lk.accepted && at_ (d.lk.gofs + own)) .summarySend ++
    duePick l (fun _ => at_ (d.lk.gofs + windowLen d)) .cyclicGateClose

/-- Host vectors, the service queue, claimable spans, and what the supervision of the device orders (R53, R306, R422, R423, R442,
R450). -/
def dueDevice (d : Dev) : List Instr :=
  duePick [0, 1, 2, 3] (fun v => d.ic.vdue.getLsbD v && (winner v d).isSome && !d.ic.vlevel.getLsbD v) .hostVectorMessage ++
  (((icPins d).filter (icAccepts d)).map fun p => .pinSenseAccept p (!(d.source (0x100 + p)).level)) ++
  (match (if serviceRuns d then d.ds.queue else []) with
   | r :: _ => match r.who with | .pcie => [.mailboxResponse 0] | .qspi => [.mailboxResponse 1] | .session _ => []
   | [] => []) ++
  duePick (d.ic.sources.map (·.1)) (spanOver d) .claimableSpanEnd ++
  (if d.so.servo = .holdover ∧ d.tb.alignOk = true ∧ withinAlign d = false then [.alignLost] else []) ++
  (if d.fm.vtrimNow ≠ d.fm.plan.vtrim ∧ d.tb.tclk % 256 = 0 then [.vtrimStep] else []) ++
  (if d.pw.ordered.isSome then [.warmRestart] else [])

/-! ### The stages of a TCLK -/

/-- What is due in the present TCLK, in the order of its stages: the compares of the chases and the channel bus see it as it began,
loads come before teeth (R84, R99, R135), the tick boundary before what reads its settings, galley commands after the ends of pulses
(R176), pairs after what commands them. -/
def stageEvents (k : Nat) (d : Dev) : List Instr :=
  match k with
  | 0 => dueCommits d
  | 1 => dueBus d
  | 2 => dueGalley d ++ dueCredits d
  | 3 => dueRequests d
  | 4 => dueBoundary d
  | 5 => dueWork d
  | 6 => duePins d
  | 7 => dueActions d
  | 8 => (d.comps.map (·.1)).filterMap (compStep d)
  | 9 => dueCounters d
  | 10 => dueBridge (takeCommands d)
  | 11 => dueTrips d
  | 12 => dueSafe d ++ dueField d ++ dueLink d ++ dueDevice d
  | _ => []

/-- How often a stage is asked in one TCLK: what counters and pairs do can make more of it due. -/
def stageRounds (k : Nat) : Nat := if k = 9 then 8 else if k = 10 then 15 else 1

/-- The next stage with something due after poll `n`, counted as 16 × stage + round, and its commands. -/
def nextPoll (n : Nat) (d : Dev) : Option (Nat × List Instr) :=
  (List.range 13).findSome? fun k =>
    let r := if k = n / 16 then n % 16 else 0
    if k < n / 16 ∨ stageRounds k ≤ r then none
    else match stageEvents k d with
      | [] => none
      | l => some (16 * k + r + 1, l)

/-! ### The passage to the next TCLK -/

/-- The pins that a block of the device may drive. -/
def drivenPins (d : Dev) : List Nat :=
  ((chanKeys d).filter fun n => decide (n < 256)) ++ (d.br.pairs.flatMap fun e => [2 * e.1, 2 * e.1 + 1]) ++
    (d.comps.flatMap fun e => (List.range (fld e.2.r.pins 16 4)).map (fld e.2.r.pins 24 8 + ·)) ++
    ((d.tooth.pins.filter fun e => e.2.drv.isSome).map (·.1))

/-- The occurrences whose own end falls in the present TCLK are complete (R127, R175, R229). -/
def endsReached (d : Dev) : Dev :=
  forEach (d.gs.flight.filter fun o => o.begun && (o.act == 2 || (o.act == 4 && decide (0 < o.d))) && reachedLocal d o.endAt) reportComplete d

/-- What the output stages and counters do last in a TCLK: forces, ends, the pins the device drives, captures and what they cause
(R165, R176, R225). -/
def endChannels (d : Dev) : Dev :=
  let d1 := endsReached (forEach (d.ch.out.map (·.1)) (mergeDue true) (takeCommands d))
  let d2 := forEach (drivenPins d1) driveBall d1
  let d3 := forEach (d2.tooth.pins.map (·.1)) captureStage d2
  let d4 := forEach (chanKeys d3) counterTerminal d3
  forEach (d4.ch.em.map (·.1)) (fun n d => d.updEm n fun e => if emEn e && emSrc e then { e with was := some (d.axis (emAxis e)).trk.ang } else e) d4

/-- What the tracks and decoders do last in a TCLK: the law, teeth, ghosts, and the angles published (R65, R92, R95). -/
def endTracks (d : Dev) : Dev := tracksTclk (toothTclk (forEach (d.ax.axes.map (·.1)) lawTclk d))

/-- The channels of the emulations. -/
def emulatedKeys (d : Dev) : List Nat :=
  (d.ch.em.filter fun e => emEn e.2).flatMap fun e => [e.1, e.1 + 1, e.1 + 2]

/-- The start of a TCLK: the pin stages, trips and pairs, and the output stages; `starts` are the channels that took EN = 1 in the TCLK
before. -/
def openStages (starts : List Nat) (d : Dev) : Dev :=
  let d1 := openBridge (openPins (icTclk d))
  let keys := chanKeys d1
  let ems := (emulatedKeys d1).filter fun n => !keys.contains n
  let d2 := forEach (keys ++ ems) (fun n d => openTclk (starts.contains n) n d) d1
  forEach (d2.ch.em.map (·.1)) emMoves d2

/-- The TCLK ends, and TIME64 passes into the next one (R34). -/
def passTclk (d : Dev) : Dev :=
  let d1 := endTracks (endChannels d)
  let starts := (chanKeys d1).filter fun n => (d1.chOut n).starting
  let d2 := landComps (landChannels d1)
  openStages starts (advanceTclk (landChases d2))

/-- The requests of sessions, which no command answers, are served as the service context comes to them (R372). -/
def serveOwn (c : Core) : Core :=
  match c.dev.ds.queue with
  | ⟨.session _, _⟩ :: _ => drainSessions c
  | _ => c

/-- The queue is empty: the commands of the next stage with something due are queued; once none is left the next TCLK begins. -/
def idleStep (s : State) : State :=
  let d := s.core.dev
  if live d then
    match nextPoll d.polled d with
    | some (n, l) => { core := { s.core with dev := { (if n / 16 = 10 then takeCommands d else d) with polled := n } }, pending := l }
    | none =>
      let c := serveOwn s.core
      { s with core := { c with dev := { passTclk c.dev with polled := 0 } } }
  else s

end Sys2Proof.Machine
end

