-- ==== Sys2Proof/Safety.lean ====
section
/-! DEFINITION. What counts as a safe run, and the vocabulary of frames. The machine never stops: the manual gives the block no
fault, every well-formed command has a meaning, and an ill-formed one acts on nothing. -/

namespace Sys2Proof

open Sys2Proof.Machine

/-- Every command that waits is well formed. -/
def WellQueued (s : State) : Prop := ∀ c ∈ s.pending, c.WellFormed

/-- The machine runs on: its next step answers a next state. -/
def RunsOn (s : State) : Prop := ∃ t, step s = .next t

/-- Command `i` completes from `s`: it answers a next state. -/
def Completes (i : Instr) (s : State) : Prop := ∃ t, exec i s = .next t

/-- The parts of the core: the key store, and the blocks of the device by the names of their fields. -/
inductive Part where
  | vault
  | ic | ch | tooth | br | ax | gl | gs | chases | tick | load | tb | so
  | ptp | comps | ne | ctxs | lanes | store | trace | mem | heads | fps | sec | hi
  | ds | lo | fm | pw | ecc | jtag | lk | free | polled
  deriving DecidableEq, Repr

/-- Part `b` of two cores is the same. -/
def Part.Same (b : Part) (c c' : Core) : Prop :=
  match b with
  | .vault => c'.vault = c.vault
  | .ic => c'.dev.ic = c.dev.ic
  | .ch => c'.dev.ch = c.dev.ch
  | .tooth => c'.dev.tooth = c.dev.tooth
  | .br => c'.dev.br = c.dev.br
  | .ax => c'.dev.ax = c.dev.ax
  | .gl => c'.dev.gl = c.dev.gl
  | .gs => c'.dev.gs = c.dev.gs
  | .chases => c'.dev.chases = c.dev.chases
  | .tick => c'.dev.tick = c.dev.tick
  | .load => c'.dev.load = c.dev.load
  | .tb => c'.dev.tb = c.dev.tb
  | .so => c'.dev.so = c.dev.so
  | .ptp => c'.dev.ptp = c.dev.ptp
  | .comps => c'.dev.comps = c.dev.comps
  | .ne => c'.dev.ne = c.dev.ne
  | .ctxs => c'.dev.ctxs = c.dev.ctxs
  | .lanes => c'.dev.lanes = c.dev.lanes
  | .store => c'.dev.store = c.dev.store
  | .trace => c'.dev.trace = c.dev.trace
  | .mem => c'.dev.mem = c.dev.mem
  | .heads => c'.dev.heads = c.dev.heads
  | .fps => c'.dev.fps = c.dev.fps
  | .sec => c'.dev.sec = c.dev.sec
  | .hi => c'.dev.hi = c.dev.hi
  | .ds => c'.dev.ds = c.dev.ds
  | .lo => c'.dev.lo = c.dev.lo
  | .fm => c'.dev.fm = c.dev.fm
  | .pw => c'.dev.pw = c.dev.pw
  | .ecc => c'.dev.ecc = c.dev.ecc
  | .jtag => c'.dev.jtag = c.dev.jtag
  | .lk => c'.dev.lk = c.dev.lk
  | .free => c'.dev.free = c.dev.free
  | .polled => c'.dev.polled = c.dev.polled

/-- The frame of a command: nothing outside the parts `l` changes, and the queue stays. -/
def ChangesOnly (l : List Part) (s t : State) : Prop :=
  t.pending = s.pending ∧ ∀ b : Part, b ∉ l → b.Same s.core t.core

/-- Command `i` runs from `s` to a state that `P` describes, and changes nothing outside the parts `l`. -/
def Runs (i : Instr) (s : State) (l : List Part) (P : State → Prop) : Prop :=
  ∃ t, exec i s = .next t ∧ ChangesOnly l s t ∧ P t

/-- An access of path `p` reaches the registers: the port's domain and the core are out of reset, or, for the GREG of an engine,
the core's clocks run (R324, R418). -/
def PortOpen (p : Nat) (d : Dev) : Prop :=
  (p < 2 → fabricUp d = true ∧ (if p = 0 then d.hi.pcieReset else d.hi.qspiReset) = false) ∧ (16 ≤ p → live d = true)

/-- Dictionary requester `w` has the response `body`, and beside its answers the machine stands as core `c` (R381, R385): the
requester's record and, for a session, its datagram, which its MAC holds while the cyclic gate is open (R360); a mailbox whose request
it was shows it, with its interrupt (R423). -/
def Served (w : DictWho) (body : List Byte) (c : Core) (t : State) : Prop :=
  t.core.dev.user (whoNo w) = { c.dev.user (whoNo w) with answer := body } ∧
  (∀ k, k ≠ whoNo w → t.core.dev.user k = c.dev.user k) ∧
  t.core.dev.ds = { c.dev.ds with
    users := t.core.dev.ds.users, sessions := t.core.dev.ds.sessions, sent := t.core.dev.ds.sent } ∧
  t.core.dev.hi = { c.dev.hi with boxes := t.core.dev.hi.boxes } ∧
  (w = .pcie ∨ w = .qspi → (c.dev.box (whoNo w)).go = true →
    (t.core.dev.box (whoNo w)).go = false ∧ bit (t.core.dev.box (whoNo w)).stat 11 = true ∧
    (t.core.dev.box (whoNo w)).rlen = body.length) ∧
  ((∀ n x, w = .session n → c.dev.session n = some x → (c.dev.mac x.mac).gate = false) → t.core.dev.lk = c.dev.lk) ∧
  t.core.dev.lk = { c.dev.lk with macs := t.core.dev.lk.macs } ∧
  (∀ m, t.core.dev.mac m = { c.dev.mac m with held := (t.core.dev.mac m).held }) ∧
  ∀ b : Part, b ∉ [Part.ds, .hi, .ic, .ne, .lk] → b.Same c t.core

/-- Command `i` is answered to requester `w` with `body`, and its effect is that of core `c`. -/
def Serves (i : Instr) (s : State) (w : DictWho) (body : List Byte) (c : Core) : Prop :=
  ∃ t, exec i s = .next t ∧ t.pending = s.pending ∧ Served w body c t

/-- No pair drives both of its sides, and a tripped pair drives neither (R195, R203). -/
def Interlocked (s : State) : Prop :=
  ∀ n, ¬((s.core.dev.pair n).high.on = true ∧ (s.core.dev.pair n).low.on = true) ∧
    ((s.core.dev.pair n).state = .tripped → (s.core.dev.pair n).high.on = false ∧ (s.core.dev.pair n).low.on = false)

/-- The lifecycle has come as far as code `l`, and the customer key hash is fused as `h` if `h` says one (R397, R398). -/
def FusedAs (l : Nat) (h : Option (BitVec 256)) (s : State) : Prop :=
  l ≤ lifecycleCode s.core.vault.lifecycle ∧ ∀ g, h = some g → s.core.vault.custHash = some g

end Sys2Proof
end

