-- ==== Sys2Proof/Certificates/Slice0/Obligations.lean ====
section
/-! DEFINITION. The statements for the provers: what the commands of each family do, what they leave alone, and what every step
keeps. -/

open Sys2Proof Sys2Proof.Machine

/-! ### The queue, the outcomes and reset -/

/-- The command at the front of the queue runs with the queue's rest. -/
def Obligations.StepRunsFrontCommand : Prop :=
  ∀ (s : State) (c : Instr), step { s with pending := c :: s.pending } = exec c s

/-- The idle step (log entry 36, the model's choice): with no command waiting the device goes on by itself. While no clock of
the core runs nothing changes; otherwise the commands of the next stage of the present TCLK with something due are queued, the device as
it was but for the model's own count and, before the stage of the pairs, the levels that the channels command; and when no stage is
left the service context takes the requests of sessions and the next TCLK begins. -/
def Obligations.IdleStepGoesOn : Prop :=
  ∀ (s : State), s.pending = [] →
    (live s.core.dev = false → step s = .next s) ∧
    (∀ n l, live s.core.dev = true → nextPoll s.core.dev.polled s.core.dev = some (n, l) →
      l ≠ [] ∧ step s = .next { core := { s.core with dev :=
        { (if n / 16 = 10 then takeCommands s.core.dev else s.core.dev) with polled := n } }, pending := l }) ∧
    (live s.core.dev = true → nextPoll s.core.dev.polled s.core.dev = none →
      step s = .next { s with core := { serveOwn s.core with dev := { passTclk (serveOwn s.core).dev with polled := 0 } } } ∧
      ((∀ n b, s.core.dev.ds.queue.head? ≠ some ⟨.session n, b⟩) → serveOwn s.core = s.core))

/-- Every command answers a next state with the queue as it was. An ill-formed one has changed nothing in it (log entry 64, the
model's choice); a well-formed one, while the clocks of the core and its engines run, has had the effect of its row on the core,
whatever the state. So the machine runs on, and what remains of a queue of well-formed commands is well formed. -/
def Obligations.EveryCommandAnswers : Prop :=
  (∀ (i : Instr) (s : State),
    (∃ t, exec i s = .next t ∧ t.pending = s.pending) ∧
    (i.wf = false → exec i s = .next s) ∧
    (i.wf = true → live s.core.dev = true → enginesRun s.core.dev = true →
      exec i s = .next { s with core := match i with
        | .registerWrite p a v => (registerWrite p a v) s.core
        | .wideValueLowRead p a => (viaPort p (busRead p a)) s.core
        | .wideValueHighRead p a => (viaPort p (busRead p a)) s.core
        | .wideValueLowWrite p a v => (viaPort p (busWrite p a v)) s.core
        | .wideValueCommit p a v => (viaPort p (busWrite p a v)) s.core
        | .tickBoundary => s.core.mapDev tickBoundary
        | .tickStrobeReachesEngine e => s.core.mapDev (strobeReaches e)
        | .nextPeriodWrite v => s.core.mapDev (fun d => (nextPeriodWrite v d).2)
        | .nextAnchorWrite v => s.core.mapDev (fun d => (nextAnchorWrite v d).2)
        | .updateCredit e => s.core.mapDev (updateCredit e)
        | .tbHtrimWrite v => s.core.mapDev (htrimWrite v)
        | .tbStepCommit v => s.core.mapDev (stepCommit v)
        | .servoWrite b => s.core.mapDev (servoWrite b)
        | .sync p dom seq g oneStep => s.core.mapDev (syncRx p dom seq g oneStep)
        | .followUp p dom seq origin => s.core.mapDev (followUp p dom seq origin)
        | .announce dom m => s.core.mapDev (announceRx dom m)
        | .pdelayReq p seq g g2 => s.core.mapDev (pdelayReq p seq g g2)
        | .pdelayResp p g t2 => s.core.mapDev (pdelayResp p g t2)
        | .pdelayRespFollowUp p t3 => s.core.mapDev (pdelayRespFollowUp p t3)
        | .ptpManagementMessage p => s.core.mapDev (ptpManagement p)
        | .syncReceiptTimeout plant => s.core.mapDev (syncTimeout plant)
        | .announceReceiptTimeout plant => s.core.mapDev (announceTimeout plant)
        | .syncSend p g => s.core.mapDev (syncSend p g)
        | .announceSend p => s.core.mapDev (announceSend p)
        | .pdelayReqSend p g => s.core.mapDev (pdelayReqSend p g)
        | .alignLost => s.core.mapDev alignLost
        | .pinTransition p lvl g => (liveOr (ballTransition p lvl g) (ballLevel p lvl)) s.core
        | .edgeAccepted p => s.core.mapDev (edgeAccepted p)
        | .pwdFault n => s.core.mapDev (pwdFault n)
        | .updateRequest n => s.core.mapDev (updateRequest n)
        | .pinWrite p v => s.core.mapDev (pinWrite p v)
        | .decoderEnable n => s.core.mapDev (decoderEnable n)
        | .decoderDisable n => s.core.mapDev (decoderDisable n)
        | .clr n => s.core.mapDev (decoderClear n)
        | .ustampLoRead p n => (viaPort p (busRead p (baseCh n + 0xD8))) s.core
        | .aoqTransition k chB illegal nearPreset => s.core.mapDev (aoqTransition k chB illegal nearPreset)
        | .preset k => s.core.mapDev (aoqPreset k)
        | .ghost a => s.core.mapDev (ghostDue a)
        | .stopped a => s.core.mapDev (stopAxis a)
        | .resync a => s.core.mapDev (resync a)
        | .axisEnable a => s.core.mapDev (axisEnable a)
        | .axisDisable a => s.core.mapDev (axisDisable a)
        | .aoqSeed a => s.core.mapDev (aoqSeed a)
        | .remoteMiss a => s.core.mapDev (remoteMiss a)
        | .coastLimit a => s.core.mapDev (coastLimit a)
        | .coastMax a => s.core.mapDev (coastMax a)
        | .updateService e a => s.core.mapDev (updateService e a)
        | .armingPass e a => s.core.mapDev (armingService e a)
        | .policyService e a => s.core.mapDev (policyService e a)
        | .policyWalk a => s.core.mapDev (policyWalk a)
        | .tickWork e => s.core.mapDev (tickWork e)
        | .insert => s.core.mapDev (hostOp .insert 0)
        | .remove sid => s.core.mapDev (hostOp .remove sid)
        | .modify sid => s.core.mapDev (hostOp .modify sid)
        | .modifyDur sid => s.core.mapDev (hostOp .modifyDur sid)
        | .free sid => s.core.mapDev (hostOp .free sid)
        | .slugInsertObject who l => (fun c => answerSvc who 2 0x5001 1 (svcWrite who 0x5001 1 l c)) s.core
        | .slugRemoveObject who l => (fun c => answerSvc who 2 0x5001 2 (svcWrite who 0x5001 2 l c)) s.core
        | .galleyWindowRead p a => (viaPort p (windowRead p a)) s.core
        | .compact => s.core.mapDev compactBegin
        | .compactionDone => s.core.mapDev compactFinish
        | .clrpk cs => s.core.mapDev (clearPeak cs)
        | .galleyGrant => s.core.mapDev galleyGrant
        | .galleyOpComplete => s.core.mapDev galleyComplete
        | .chaseCommit cs => s.core.mapDev (chaseCommit cs)
        | .commitRecord => s.core.mapDev commitRecord
        | .actionComplete => s.core.mapDev actionComplete
        | .edgeRise n sid e => s.core.mapDev (galleyLevel n sid e true)
        | .edgeFall n sid e => s.core.mapDev (galleyLevel n sid e false)
        | .pulse n sid e dur => s.core.mapDev (galleyPulse n sid e dur)
        | .toggle n sid e => s.core.mapDev (fun d => galleyLevel n sid e (!(d.chOut n).lvl) d)
        | .captureArm n sid e dur => s.core.mapDev (captureArm n sid e dur)
        | .engineWake chan sid t => s.core.mapDev (engineWake chan sid t)
        | .doorbell chan sid t => s.core.mapDev (doorbellAction chan sid t)
        | .emulationStep n a sid e => s.core.mapDev (emulationStep n a sid e)
        | .pulseEnd n => s.core.mapDev (pulseEnds n)
        | .channelEnable n => s.core.mapDev (channelEnable n)
        | .channelDisable n => s.core.mapDev (channelDisable n)
        | .counterTerminal n => s.core.mapDev (counterTerminal n)
        | .compareMatch n rise => s.core.mapDev (compareMatch n rise)
        | .compareWrite n r v => s.core.mapDev (compareWrite n r v)
        | .periodWrite n v => s.core.mapDev (compareWrite n 8 v)
        | .quoinClose v => s.core.mapDev (quoinClose v)
        | .quoinOpen v => s.core.mapDev (quoinOpen v)
        | .frise n => s.core.mapDev (forceLevel n true)
        | .ffall n => s.core.mapDev (forceLevel n false)
        | .reload n => s.core.mapDev (reload n)
        | .countWrite n v => s.core.mapDev (countWrite n v)
        | .emen n => s.core.mapDev (fun d => emcWrite n (orBit (d.chEm n).emc 31) d)
        | .emulationAxisStep n => s.core.mapDev (emFollow n)
        | .minPulseFilter p high t => s.core.mapDev (minPulseFilter p high t)
        | .sideTurnOn p high t => s.core.mapDev (sideTurnOn p high t)
        | .sideTurnOff p high t => s.core.mapDev (sideTurnOff p high t)
        | .refreshStart p t => s.core.mapDev (refreshStart p t)
        | .refreshEnd p t => s.core.mapDev (refreshEnd p t)
        | .dis p => s.core.mapDev (pairDisable p)
        | .stoppingDone p => s.core.mapDev (stoppingDone p)
        | .tripAccepted j => s.core.mapDev (tripAccepted j)
        | .swtrip j => s.core.mapDev (softTrip j)
        | .latchClear j => s.core.mapDev (latchClear j)
        | .gstart n mask => s.core.mapDev (groupStart n mask)
        | .greset n mask => s.core.mapDev (groupReset n mask)
        | .counterTstart n => s.core.mapDev (counterTstart n)
        | .counterStart n => s.core.mapDev (counterStart n)
        | .counterStop n => s.core.mapDev (counterStop n)
        | .swcap n => s.core.mapDev (softCapture n)
        | .chainCountRead p n => (viaPort p (busRead p (baseCh n + 0x18))) s.core
        | .chainCountWrite n v => s.core.mapDev (countWrite n v)
        | .captureRead p n second => (viaPort p (busRead p (baseCh n + if second then 0x54 else 0x50))) s.core
        | .captureWindowClose n => s.core.mapDev (windowClose n)
        | .cpSet k => s.core.mapDev (cpSet k)
        | .cpOut k => s.core.mapDev (cpOut k)
        | .cpIn k => s.core.mapDev (cpIn k)
        | .cpWait k => s.core.mapDev (cpWait k)
        | .cpMov k => s.core.mapDev (cpMov k)
        | .cpJmp k => s.core.mapDev (cpJmp k)
        | .cpSig k => s.core.mapDev (cpSig k)
        | .cpHalt k => s.core.mapDev (cpHalt k)
        | .cpIllop k => s.core.mapDev (cpIllop k)
        | .compositorDelayStep k => s.core.mapDev (cpDelayStep k)
        | .txdWrite k v => s.core.mapDev (txdWrite k v)
        | .rxdRead p k => (viaPort p (busRead p (baseCp k + 0x18))) s.core
        | .compositorStart k clean => s.core.mapDev (cpStart k clean false)
        | .compositorTstart k clean => s.core.mapDev (cpStart k clean true)
        | .compositorHalt k => s.core.mapDev (cpCmdHalt k)
        | .compositorEnable k => s.core.mapDev (cpEnable k)
        | .compositorDisable k => s.core.mapDev (cpDisable k)
        | .programWrite k r v => s.core.mapDev (programWrite k r v)
        | .microword e => s.core.mapDev (microwordStep e)
        | .safePoint e => s.core.mapDev (safePointStep e)
        | .endw e => s.core.mapDev (endwOp e)
        | .cstart e => s.core.mapDev (cstart e)
        | .chalt e => s.core.mapDev (chalt e)
        | .offlineRequest e => s.core.mapDev (offlineRequest e)
        | .onlineRequest e => s.core.mapDev (onlineRequest e)
        | .lockWrite e v => s.core.mapDev (lockWrite e v)
        | .lockstepMismatch e => s.core.mapDev (mismatchStep e)
        | .ins e c blk => (byEngine e (galPort e c .insert 0 0 blk 0)) s.core
        | .rem e c v => (byEngine e (galPort e c .remove v 0 0 0)) s.core
        | .mod e c v blk => (byEngine e (galPort e c .modify v 0 blk 0)) s.core
        | .modd e c v blk => (byEngine e (galPort e c .modifyDur v 0 blk 0)) s.core
        | .galleyPortFree e c v => (byEngine e (galPort e c .free v 0 0 0)) s.core
        | .pop e c a blk => (byEngine e (galPort e c .pop 0 0 blk a)) s.core
        | .pend e c a v blk => (byEngine e (galPort e c .pend v 0 blk a)) s.core
        | .mark e c v imm2 => (byEngine e (galPort e c .mark v imm2 0 0)) s.core
        | .galleyPortRead e c v blk => (byEngine e (galPort e c .read v 0 blk 0)) s.core
        | .crd e k t imm2 => (byEngineC e (chopRow 1 e k t imm2 0 0)) s.core
        | .cwr e k t imm2 v => (byEngineC e (chopRow 2 e k t imm2 v 0)) s.core
        | .ard e k t imm2 => (byEngineC e (chopRow 3 e k t imm2 0 0)) s.core
        | .awr e k t imm2 v => (byEngineC e (chopRow 4 e k t imm2 v 0)) s.core
        | .decrd e k t imm2 v blk => (byEngineC e (chopRow 5 e k t imm2 v blk)) s.core
        | .mload e k t blk => (byEngineC e (chopRow 6 e k t 0 0 blk)) s.core
        | .segld e k t blk => (byEngineC e (chopRow 7 e k t 0 0 blk)) s.core
        | .chrd e k t blk => (byEngineC e (chopRow 8 e k t 0 0 blk)) s.core
        | .chwr e k t blk => (byEngineC e (chopRow 9 e k t 0 0 blk)) s.core
        | .arm e k blk => (byEngineC e (chopRow 10 e k 0 0 0 blk)) s.core
        | .retime e k t v blk => (byEngineC e (chopRow 11 e k t 0 v blk)) s.core
        | .wdraw e k t => (byEngineC e (chopRow 12 e k t 0 0 0)) s.core
        | .durw e k t v => (byEngineC e (chopRow 13 e k t 0 v 0)) s.core
        | .cpop e k t imm2 v => (byEngineC e (chopRow 14 e k t imm2 v 0)) s.core
        | .greg e k imm2 v => (byEngineC e (chopRow 15 e k 0 imm2 v 0)) s.core
        | .channelBusGrant q => (channelGrant q) s.core
        | .openFormeLoadDone => openLoadDone s.core
        | .interruptEvent n => s.core.mapDev (fireSource n)
        | .pinSenseAccept n lvl => s.core.mapDev (icPinSense n lvl)
        | .icDbell v => s.core.mapDev (icDoorbell v)
        | .icSetp w v => s.core.mapDev (icSetPending w v)
        | .icPendClear w v => s.core.mapDev (icClearPending w v)
        | .claim p t => (viaPort p (busRead p (0x10100 + 4 * t))) s.core
        | .complete t v => s.core.mapDev (icComplete t v)
        | .icSourceWrite n v => s.core.mapDev (icSourceWrite n v)
        | .chwRead p g => (viaPort p (busRead p (0x10500 + 4 * g))) s.core
        | .axwLoRead p g => (viaPort p (busRead p (0x10600 + 8 * g))) s.core
        | .hostVectorMessage v => s.core.mapDev (vectorMessage v)
        | .msixUnmask v => s.core.mapDev (msixUnmask v)
        | .wakeLatch n rise => s.core.mapDev (wakeLatch n rise)
        | .pcieReset k => s.core.mapDev (pcieReset k)
        | .macLineReset m k => s.core.mapDev (macLineReset m k)
        | .crossingResync k => s.core.mapDev (crossingResync k)
        | .clrw => s.core.mapDev clearWmax
        | .cyclicExchangeStart h => s.core.mapDev (cyclicStart h)
        | .encoderResponse p frame framing => s.core.mapDev (encoderResponse p frame framing)
        | .gateDriveResponse p frame framing => s.core.mapDev (gateResponse p frame framing)
        | .ioResponse p frame framing => s.core.mapDev (ioResponse p frame framing)
        | .noResponse p => s.core.mapDev (noResponse p)
        | .acyclicExchangeStart p => s.core.mapDev (acyclicStart p)
        | .identifyResponse p frame framing trip => s.core.mapDev (identifyResponse p frame framing trip)
        | .readResponse p frame framing => s.core.mapDev (readResponse p frame framing)
        | .writeResponse p frame framing => s.core.mapDev (writeResponse p frame framing)
        | .portEnable p => s.core.mapDev (portEnable p)
        | .portDisable p => s.core.mapDev (portDisable p)
        | .load p => s.core.mapDev (fpLoad p)
        | .enum p => s.core.mapDev (enumStart p)
        | .enumerationDone => s.core.mapDev enumDone
        | .cyclicGateOpen m => s.core.mapDev (gateOpen m)
        | .cyclicGateClose m => s.core.mapDev (gateClose m)
        | .trajectoryFrame m src f => s.core.mapDev (trajectoryRx m src f)
        | .summarySend m => s.core.mapDev (summarySend m)
        | .summary m dom src a tick body => s.core.mapDev (summaryRx m dom src a tick body false)
        | .fullStatus m dom src a tick body => s.core.mapDev (summaryRx m dom src a tick body true)
        | .masterLost m => s.core.mapDev (masterLost m)
        | .takeover => s.core.mapDev takeover
        | .workerLost a => s.core.mapDev (workerLost a)
        | .arp m sender target => s.core.mapDev (arpRequest m sender target)
        | .icmpEcho m sender target data plain => s.core.mapDev (icmpEcho m sender target data plain)
        | .acyclicDatagram m ip port target dest l plain => (acyclicDatagram m ip port target dest l plain) s.core
        | .sessionExpiry n => s.core.mapDev (sessionExpiry n)
        | .macEnable m => s.core.mapDev (macEnable m)
        | .macDisable m queued => s.core.mapDev (macDisableStep m queued)
        | .linkDown m => (liveOr (linkDown m) (linkLevel m false)) s.core
        | .linkUp m => (liveOr (linkUp m) (linkLevel m true)) s.core
        | .receiveError m => s.core.mapDev (receiveError m)
        | .read who index sub => (fun c => answerSvc who 1 index sub (svcRead who index sub c)) s.core
        | .write who index sub l => (fun c => answerSvc who 2 index sub (svcWrite who index sub l c)) s.core
        | .keyedWrite who index sub l => (fun c => answerSvc who 3 index sub (svcKeyedWrite who index sub l c)) s.core
        | .describe who index sub => (fun c => answerSvc who 4 index sub (svcDescribe index sub c)) s.core
        | .readSeg who index sub offset count => (fun c => answerSvc who 5 index sub (svcReadSeg who index sub offset count c)) s.core
        | .writeSeg who index sub offset last l => (fun c => answerSvc who 6 index sub (svcWriteSeg who index sub offset last l c)) s.core
        | .readAll who index => (fun c => answerSvc who 7 index 0 (svcReadAll who index c)) s.core
        | .mailboxGo p v => (viaPort p (busWrite p 0x8000 (orBit v 31))) s.core
        | .mailboxResponse p => (mailboxResponse p) s.core
        | .commit => commitStart s.core
        | .commitDone ok => s.core.mapDev (commitDone ok)
        | .restore => restoreDefaults s.core
        | .erase => s.core.mapDev eraseStart
        | .eventGroupTrigger g => s.core.mapDev (groupTrigger g)
        | .dictionaryThirdPass => thirdPass s.core
        | .qspiRead a n more => (qspiRead a n more) s.core
        | .qspiWrite a l more => (qspiWrite a l more) s.core
        | .readHostStatus => s.core.mapDev readHostStatus
        | .clearHostStatus v => s.core.mapDev (clearHostStatus v)
        | .targetReset => s.core.mapDev targetReset
        | .qspiUnknownOpcode => s.core.mapDev unknownOpcode
        | .hqCsNRise crossed => (csRise crossed) s.core
        | .hqRstN k => s.core.mapDev (qspiReset k)
        | .badAccess => (viaPort 0 fun c => c.mapDev (badAccess 0)) s.core
        | .tamper => tamper s.core
        | .vbatLoss => vbatLoss s.core
        | .vbatRestore => vbatRestore s.core
        | .powerRequest r => s.core.mapDev (powerRequest r)
        | .idleEntry => s.core.mapDev idleEntry
        | .idleExit => s.core.mapDev idleExit
        | .holdEntry => s.core.mapDev holdEntry
        | .pwrEnFall => s.core.mapDev pwrEnFall
        | .wakeN n => (wakeN n) s.core
        | .holdExit n => s.core.mapDev (holdExit n)
        | .sysRstN low => (sysRstN low) s.core
        | .supplyFault => supplyFault s.core
        | .wrst code => s.core.mapDev (gbCmdWrite (BitVec.ofNat 32 (code.toNat * 65536 + 1)))
        | .warmRestart => warmRestart s.core
        | .boot strap xt32 patch us => (boot strap xt32 patch us) s.core
        | .bypass => s.core.mapDev jtagBypass
        | .idcode => s.core.mapDev jtagIdcode
        | .samplePreload cells => s.core.mapDev (jtagSample cells)
        | .extest => s.core.mapDev (jtagDrive .extest)
        | .highz => s.core.mapDev (jtagDrive .highz)
        | .survey => s.core.mapDev surveyRequest
        | .surveyStart => s.core.mapDev surveyStart
        | .sentinelMeasured v tj => s.core.mapDev (sentinelMeasured v tj)
        | .surveyDone drift => s.core.mapDev (surveyDone drift)
        | .marginPlanTakesEffect => s.core.mapDev planTakesEffect
        | .vtrimStep => s.core.mapDev vtrimStep
        | .calibrationStart => s.core.mapDev calibrationStart
        | .calibrationDone ok => s.core.mapDev (calibrationDone ok)
        | .correctableError r w => s.core.mapDev (correctableError r w)
        | .uncorrectableError r w reader allBad => (uncorrectableError r w reader allBad) s.core
        | .scrub => s.core.mapDev scrubStep
        | .claimableSpanEnd n => s.core.mapDev (icSpanEnd n)
        | .tripLevelInactive j => s.core.mapDev (tripInactive j)
        })) ∧
  (∀ (s : State), RunsOn s ∧
    ∀ (c : Instr) (l : List Instr) (t : State), s.pending = c :: l → step s = .next t → t.pending = l ∧ (WellQueued s → WellQueued t))

/-- A command of the core has no effect while no clock of the core runs: the families that work in RUN and IDLE only. -/
def Obligations.StoppedCoreKeepsState : Prop :=
  ∀ (s : State), live s.core.dev = false →
    (∀ n sid e, isChannel n = true → isSid sid = true → exec (.edgeRise n sid e) s = .next s) ∧
    (∀ p t h, isPair p = true → exec (.sideTurnOn p h t) s = .next s) ∧
    (∀ e, isEngine e = true → exec (.microword e) s = .next s) ∧
    (∀ k, isChase k = true → exec (.chaseCommit k) s = .next s) ∧
    (∀ a, isAxis a = true → exec (.stopped a) s = .next s) ∧
    exec .tickBoundary s = .next s

/-! ### Accesses of the ports -/

/-- R324: while the core is in reset a host port's reads of BAR0 return FFFF_FFFFh and its writes are discarded and counted. -/
def Obligations.CoreInResetAnswersHosts : Prop :=
  ∀ (s : State) (p : Nat), p < 2 → fabricUp s.core.dev = false →
    (if p = 0 then s.core.dev.hi.pcieReset else s.core.dev.hi.qspiReset) = false →
    (∀ a, isBar0 a = true →
      Runs (.wideValueLowRead p a) s [.hi] fun t =>
        Bank.get 0 t.core.dev.hi.data p = 0xFFFFFFFF#32 ∧ t.core.dev.hi.paths = s.core.dev.hi.paths ∧
        t.core.dev.hi.stats = s.core.dev.hi.stats) ∧
    (∀ a v, isBar0 a = true →
      Runs (.wideValueCommit p a v) s [.hi] fun t =>
        (t.core.dev.hstat p).dropc = incSat (s.core.dev.hstat p).dropc ∧ bit (t.core.dev.hstat p).stat 4 = true ∧
        t.core.dev.hi.paths = s.core.dev.hi.paths) ∧
    bit (hsStatRead p s.core.dev) 1 = true

/-- R418 on TB_TIME: the read of the low word latches the high word, whose later read takes it once; with none latched the live
word is returned and TB_STAT.TORN is set. -/
def Obligations.WideReadsLatch : Prop :=
  ∀ (s : State) (p : Nat), isPath p = true → PortOpen p s.core.dev →
    Runs (.wideValueLowRead p 0x1008) s [.hi] (fun t =>
      Bank.get 0 t.core.dev.hi.data p = loWord s.core.dev.tb.time ∧
      (t.core.dev.path p).latch = [(0x100C, hiWord s.core.dev.tb.time)] ∧
      ∀ q, q ≠ p → t.core.dev.path q = s.core.dev.path q) ∧
    (∀ v, (s.core.dev.path p).latch = [(0x100C, v)] →
      Runs (.wideValueHighRead p 0x100C) s [.hi] fun t =>
        Bank.get 0 t.core.dev.hi.data p = v ∧ (t.core.dev.path p).latch = []) ∧
    ((s.core.dev.path p).latch = [] →
      Runs (.wideValueHighRead p 0x100C) s [.hi, .tb] fun t =>
        Bank.get 0 t.core.dev.hi.data p = hiWord s.core.dev.tb.time ∧
        t.core.dev.tb = { s.core.dev.tb with stat := orBit s.core.dev.tb.stat 7 })

/-- R419 on TB_STEP and on the offset of an axis: the low word is held in the port's stage, and the high word commits both and
empties the stage. -/
def Obligations.WideWritesCommit : Prop :=
  ∀ (s : State) (p : Nat), isPath p = true → PortOpen p s.core.dev →
    (∀ lo, Runs (.wideValueLowWrite p 0x1018 lo) s [.hi] fun t => (t.core.dev.path p).stage = some (0x1018, lo)) ∧
    (∀ a lo, a < 4096 → Runs (.wideValueLowWrite p (0x80018 + a * 128) lo) s [.hi] fun t =>
      (t.core.dev.path p).stage = some (0x80018 + a * 128, lo)) ∧
    (∀ lo hi, (s.core.dev.path p).stage = some (0x1018, lo) → bit s.core.dev.tb.ctl 0 = false →
      (wide hi lo).toInt.natAbs ≤ s.core.dev.so.stepMax →
      Runs (.wideValueCommit p 0x101C hi) s [.hi, .tb] fun t =>
        t.core.dev.tb = { s.core.dev.tb with pending := some (.step (wide hi lo) true) } ∧ (t.core.dev.path p).stage = none)

/-- A register write through a port: a field without a rule of its own takes the written value (the dead time of a pair, its
reserved bits 0), a reserved address ignores it (R426), and Interrupt Disable is a bit of configuration space (R422). -/
def Obligations.RegisterWrites : Prop :=
  ∀ (s : State) (v : W32),
    (∀ p n, (isPath p = true) → PortOpen p s.core.dev → n < 128 →
      Runs (.registerWrite p (0x20004 + n * 64) v) s [.br] fun t =>
        t.core.dev.pair n = { s.core.dev.pair n with dtr := v &&& 0x3FFFF#32 } ∧
        t.core.dev.br.trips = s.core.dev.br.trips ∧ ∀ m, m ≠ n → t.core.dev.pair m = s.core.dev.pair m) ∧
    (∀ p a, isPath p = true → PortOpen p s.core.dev → isBar0 a = true → locate a = none →
      exec (.registerWrite p a v) s = .next s) ∧
    (Runs (.registerWrite 2 4 v) s [.hi] fun t =>
      t.core.dev.hi = { s.core.dev.hi with pcie := { s.core.dev.hi.pcie with intDis := bit v 10 } })

/-! ### The timebase -/

/-- R48: the host's hold on the timebase. A trim within ±200 ppm is stored and, while SERVO = 0, takes effect in the second TCLK
after; outside it the write is ignored and HTRIM_REJ is set. A committed step waits for a permitted boundary and replaces one that
waits; above STEP_MAX, or with SERVO = 1, it is refused with STEP_REJ. SERVO from 0 to 1 drops a committed host step with
STEP_REJ; from 1 to 0 TB_HTRIM becomes the trim in force. -/
def Obligations.HostTrimStepAndServo : Prop :=
  ∀ (s : State), live s.core.dev = true →
    (∀ v : W32, trimInRange v.toInt = true → bit s.core.dev.tb.ctl 0 = false →
      Runs (.tbHtrimWrite v) s [.tb] fun t =>
        t.core.dev.tb = { s.core.dev.tb with htrim := v.toInt, trimNext := s.core.dev.tb.trimNext ++ [(v.toInt, 2)] }) ∧
    (∀ v : W32, trimInRange v.toInt = true → bit s.core.dev.tb.ctl 0 = true →
      Runs (.tbHtrimWrite v) s [.tb] fun t => t.core.dev.tb = { s.core.dev.tb with htrim := v.toInt }) ∧
    (∀ v : W32, trimInRange v.toInt = false →
      Runs (.tbHtrimWrite v) s [.tb, .ic, .ne] fun t =>
        t.core.dev.tb = { s.core.dev.tb with stat := orBit s.core.dev.tb.stat 13 }) ∧
    (∀ v : W64, bit s.core.dev.tb.ctl 0 = false → v.toInt.natAbs ≤ s.core.dev.so.stepMax →
      Runs (.tbStepCommit v) s [.tb] fun t =>
        t.core.dev.tb = { s.core.dev.tb with pending := some (.step v true) }) ∧
    (∀ v : W64, bit s.core.dev.tb.ctl 0 = true ∨ s.core.dev.so.stepMax < v.toInt.natAbs →
      Runs (.tbStepCommit v) s [.tb, .ic, .ne] fun t =>
        t.core.dev.tb = { s.core.dev.tb with stat := orBit s.core.dev.tb.stat 12 }) ∧
    (bit s.core.dev.tb.ctl 0 = false → ∀ w, s.core.dev.tb.pending = some (.step w true) →
      Runs (.servoWrite true) s [.tb, .ic, .ne] fun t =>
        t.core.dev.tb = { s.core.dev.tb with
          ctl := orBit s.core.dev.tb.ctl 0, pending := none, stat := orBit s.core.dev.tb.stat 12 }) ∧
    (bit s.core.dev.tb.ctl 0 = false → (∀ w, s.core.dev.tb.pending ≠ some (.step w true)) →
      Runs (.servoWrite true) s [.tb] fun t =>
        t.core.dev.tb = { s.core.dev.tb with ctl := orBit s.core.dev.tb.ctl 0 }) ∧
    (bit s.core.dev.tb.ctl 0 = true →
      Runs (.servoWrite false) s [.tb, .so, .ic, .ne] fun t =>
        t.core.dev.tb.htrim = s.core.dev.tb.htrim ∧
        t.core.dev.tb.trimNext = s.core.dev.tb.trimNext ++ [(s.core.dev.tb.htrim, 2)] ∧
        bit t.core.dev.tb.ctl 0 = false ∧ t.core.dev.tb.slewing = false ∧
        t.core.dev.so = { s.core.dev.so with slewRemaining := 0 } ∧
        (∀ w, s.core.dev.tb.pending = some (.step w true) → t.core.dev.tb.pending = some (.step w true)) ∧
        ((∀ w, s.core.dev.tb.pending ≠ some (.step w true)) → t.core.dev.tb.pending = none)) ∧
    (∀ b, bit s.core.dev.tb.ctl 0 = b → exec (.servoWrite b) s = .next s)

/-- R18: arming a change of the tick period, cancelling it, and the refusals. -/
def Obligations.PeriodChange : Prop :=
  ∀ (s : State), live s.core.dev = true →
    (∀ v, roleWorker s.core.dev = true → exec (.nextPeriodWrite v) s = .next s) ∧
    (∀ v, roleWorker s.core.dev = true → exec (.nextAnchorWrite v) s = .next s) ∧
    (∀ v : W32, roleWorker s.core.dev = false → v ≠ 0 → periodRejected v.toNat s.core.dev = false →
      Runs (.nextPeriodWrite v) s [.tick] fun t =>
        t.core.dev.tick = { s.core.dev.tick with nextPeriod := v, change := 1 }) ∧
    (∀ v : W32, roleWorker s.core.dev = false → v ≠ 0 → periodRejected v.toNat s.core.dev = true →
      Runs (.nextPeriodWrite v) s [.tick] fun t =>
        t.core.dev.tick = { s.core.dev.tick with nextPeriod := 0, change := 3 }) ∧
    (roleWorker s.core.dev = false →
      Runs (.nextPeriodWrite 0) s [.tick] fun t =>
        t.core.dev.tick = { s.core.dev.tick with
          nextPeriod := 0, change := if s.core.dev.tick.change = 1 then 0 else s.core.dev.tick.change }) ∧
    (∀ v, roleWorker s.core.dev = false → s.core.dev.tick.change ≠ 1 →
      Runs (.nextAnchorWrite v) s [.tick] fun t => t.core.dev.tick = { s.core.dev.tick with nextAnchor := v }) ∧
    (∀ v, roleWorker s.core.dev = false → s.core.dev.tick.change = 1 →
      Runs (.nextAnchorWrite v) s [.tick] fun t =>
        t.core.dev.tick = { s.core.dev.tick with nextAnchor := v, nextPeriod := 0, change := 0 })

/-- R15: every tick boundary raises the strobe in the TCLK in which TIME64 has reached the boundary, and the link windows and field-port
plans run from it (R49). Where TIME64 stands at its next boundary and no change of the period or grid takes over, the tick number
advances by exactly one and the next boundary lies one period further. -/
def Obligations.TickAdvances : Prop :=
  (∀ (s : State), live s.core.dev = true →
    ∃ t, exec .tickBoundary s = .next t ∧ t.pending = s.pending ∧ t.core.vault = s.core.vault ∧
      t.core.dev.tick.count = s.core.dev.tick.count + 1 ∧ t.core.dev.tick.unsettled = false ∧
      t.core.dev.tick.lastBoundary = (reachBoundary s.core.dev).tick.next ∧
      t.core.dev.tick.strobeAt = some (reachBoundary s.core.dev).tb.tclk) ∧
  ∀ (s : State), live s.core.dev = true → s.core.dev.tb.stepNow = none → s.core.dev.lk.adopt = none →
    s.core.dev.tick.change ≠ 1 → atOrAfter s.core.dev.tb.time s.core.dev.tick.next = true →
    ∃ t, exec .tickBoundary s = .next t ∧ t.pending = s.pending ∧ t.core.vault = s.core.vault ∧
      t.core.dev.tick.number = s.core.dev.tick.number + 1 ∧
      t.core.dev.tick.lastBoundary = s.core.dev.tick.next ∧
      t.core.dev.tick.next = s.core.dev.tick.next + BitVec.ofNat 64 (s.core.dev.tick.period * 64)

/-- R272, R25, R24: the strobe makes context 0 of an online engine ready, or finds it at work and is a TICK_OVERRUN; an engine that is
offline and whose context 3 does not wait for it takes nothing. An online engine gains a credit below its quota, at which its count
stops; where its CTL.CTICK is set the strobe wakes context 3 as well; the odd engine of a lockstep pair and an offline engine gain none (R23, R274). -/
def Obligations.StrobesAndCredits : Prop :=
  ∀ (s : State) (e : Nat), isEngine e = true → live s.core.dev = true →
    (enginesRun s.core.dev = true → (s.core.dev.eng e).online = true → bit (s.core.dev.eng e).ctl 7 = false →
      bit (s.core.dev.eng e).ready 0 = false →
      Runs (.tickStrobeReachesEngine e) s [.ne] fun t =>
        bit (t.core.dev.eng e).ready 0 = true ∧ (t.core.dev.eng e).tickNo = s.core.dev.tick.number ∧
        ∀ x, x ≠ e → t.core.dev.eng x = s.core.dev.eng x) ∧
    (enginesRun s.core.dev = true → (s.core.dev.eng e).online = true → bit (s.core.dev.eng e).ready 0 = true →
      Runs (.tickStrobeReachesEngine e) s [.ne, .load, .ic] fun t => t.core.dev.load.overNow = true) ∧
    (enginesRun s.core.dev = true → (s.core.dev.eng e).online = false → bit (s.core.dev.eng e).ctl 7 = false →
      exec (.tickStrobeReachesEngine e) s = .next s) ∧
    (enginesRun s.core.dev = true → bit (s.core.dev.eng e).ctl 7 = true →
      Runs (.tickStrobeReachesEngine e) s [.ne, .load, .ic] fun t =>
        bit (t.core.dev.eng e).ready 3 = true ∨ bit (t.core.dev.eng e).pendWake 3 = true) ∧
    ((s.core.dev.eng e).online = true → shadowed s.core.dev e = false →
      Runs (.updateCredit e) s [.ne] fun t =>
        t.core.dev.eng e = { s.core.dev.eng e with
          credits := min ((s.core.dev.eng e).credits + 1) (updateQuota s.core.dev : Int) } ∧
        ∀ x, x ≠ e → t.core.dev.eng x = s.core.dev.eng x) ∧
    ((s.core.dev.eng e).online = false ∨ shadowed s.core.dev e = true → exec (.updateCredit e) s = .next s)

/-! ### PTP and the servo -/

/-- R38, R43: a Sync from the selected source is stamped; a two-step one waits for its Follow_Up, which gives the offset to the
servo, here from UNSET to ACQUIRE. A message of a domain that no instance of the device has is discarded. -/
def Obligations.SyncReachesServo : Prop :=
  ∀ (s : State) (p dom : Nat) (seq : BitVec 16) (g : Nat), isMac p = true → dom < 256 → isGrain g = true → live s.core.dev = true →
    (instanceOf s.core.dev dom = none →
      (∀ o, exec (.sync p dom seq g o) s = .next s) ∧ ∀ origin, exec (.followUp p dom seq origin) s = .next s) ∧
    ∀ plant, instanceOf s.core.dev dom = some plant → listens s.core.dev p plant = true → selected s.core.dev p plant = true →
    (Runs (.sync p dom seq g none) s [.ptp] fun t =>
      (if plant then t.core.dev.ptp.plantSync else t.core.dev.ptp.syncRx) = some (p, seq, rxStamp s.core.dev p g)) ∧
    (∀ origin rx, (if plant then s.core.dev.ptp.plantSync else s.core.dev.ptp.syncRx) = some (p, seq, rx) →
      disciplines s.core.dev plant = false →
      Runs (.followUp p dom seq origin) s [.ptp] fun t =>
        (if plant then t.core.dev.ptp.plantSync else t.core.dev.ptp.syncRx) = none ∧
        (plant = true → t.core.dev.ptp.plantOffset = offsetOf s.core.dev p plant rx origin)) ∧
    (∀ origin rx, (if plant then s.core.dev.ptp.plantSync else s.core.dev.ptp.syncRx) = some (p, seq, rx) →
      disciplines s.core.dev plant = true → s.core.dev.so.servo = .unset → 2 ≤ s.core.dev.so.lockCount →
      s.core.dev.so.within = 0 →
      ∃ t, exec (.followUp p dom seq origin) s = .next t ∧ t.pending = s.pending ∧ t.core.vault = s.core.vault ∧
        t.core.dev.so.servo = .acquire ∧ t.core.dev.so.lastSync = rx ∧
        t.core.dev.so.offset = BitVec.ofInt 64 (offsetOf s.core.dev p plant rx origin))

/-- R38, R42, R43: the data sets heard on the ports and the best of them, and what its coming and its loss, and the loss of Syncs, do to
the servo: FREE to ACQUIRE and UNSET to FREE on a standalone device, ACQUIRE to UNSET, LOCKED to HOLDOVER. A manager that loses its plant
grandmaster holds (R54). -/
def Obligations.GrandmasterComesAndGoes : Prop :=
  ∀ (s : State), live s.core.dev = true →
    (∀ dom m, dom < 256 → instanceOf s.core.dev dom = some true → listens s.core.dev m.port true = true →
      Runs (.announce dom m) s [.ptp] fun t =>
        t.core.dev.ptp.plantHeard = m :: s.core.dev.ptp.plantHeard.filter (fun x => x.port != m.port) ∧
        t.core.dev.ptp.plantBest = bestOf s.core.dev true t.core.dev.ptp.plantHeard) ∧
    (∀ dom m, dom < 256 → instanceOf s.core.dev dom = some false → listens s.core.dev m.port false = true →
      s.core.dev.ptp.heard = [] → tbRole s.core.dev.tb = 0 →
      s.core.dev.so.servo = .free → betterThan m (ownSet s.core.dev) = true →
      ∃ t, exec (.announce dom m) s = .next t ∧ t.core.vault = s.core.vault ∧
        t.core.dev.ptp.best = some m ∧ t.core.dev.so.servo = .acquire) ∧
    (Runs (.announceReceiptTimeout true) s [.ptp, .tb] fun t =>
      t.core.dev.ptp = { s.core.dev.ptp with plantBest := none, plantHeard := [] } ∧
      t.core.dev.tb = { s.core.dev.tb with plantHold := s.core.dev.tb.plantHold || disciplines s.core.dev true }) ∧
    (tbRole s.core.dev.tb = 0 → s.core.dev.so.servo = .unset →
      Runs (.announceReceiptTimeout false) s [.ptp, .so] fun t =>
        t.core.dev.ptp.best = none ∧ t.core.dev.so = { s.core.dev.so with servo := .free }) ∧
    (∀ plant, disciplines s.core.dev plant = true → s.core.dev.so.servo = .acquire →
      ∃ t, exec (.syncReceiptTimeout plant) s = .next t ∧ t.core.vault = s.core.vault ∧ t.core.dev.so.servo = .unset) ∧
    (∀ plant, disciplines s.core.dev plant = true → s.core.dev.so.servo = .locked →
      ∃ t, exec (.syncReceiptTimeout plant) s = .next t ∧ t.core.vault = s.core.vault ∧ t.core.dev.so.servo = .holdover)

/-- R38, R39, R360: the peer delay's messages, the stamp of each, and the mean link delay (log entry 14 for its formula); a message
waits while the cyclic gate of its MAC is open. -/
def Obligations.PeerDelay : Prop :=
  ∀ (s : State) (p : Nat), isMac p = true → live s.core.dev = true → listens s.core.dev p false = true →
    (∀ seq g g2, isGrain g = true → isGrain g2 = true → (s.core.dev.mac p).gate = false →
      Runs (.pdelayReq p seq g g2) s [.ptp] fun t =>
        t.core.dev.ptp.sent = s.core.dev.ptp.sent ++
          [.pdelayResp p seq (rxStamp s.core.dev p g), .pdelayRespFollowUp p seq (txStamp s.core.dev p g2)]) ∧
    (∀ g, isGrain g = true → (s.core.dev.mac p).gate = false →
      Runs (.pdelayReqSend p g) s [.ptp] fun t =>
        (t.core.dev.ptpPort p).reqSent = some (txStamp s.core.dev p g) ∧
        t.core.dev.ptp.sent = s.core.dev.ptp.sent ++ [.pdelayReq p s.core.dev.ptp.seqPdelay] ∧
        t.core.dev.ptp.seqPdelay = s.core.dev.ptp.seqPdelay + 1) ∧
    (∀ seq g g2, isGrain g = true → isGrain g2 = true → (s.core.dev.mac p).gate = true →
      (Runs (.pdelayReq p seq g g2) s [.lk] fun t =>
        (t.core.dev.mac p).held = (s.core.dev.mac p).held ++ [.pdelayResp seq (rxStamp s.core.dev p g) g2]) ∧
      Runs (.pdelayReqSend p g) s [.lk] fun t =>
        (t.core.dev.mac p).held = (s.core.dev.mac p).held ++ [.pdelayReq g]) ∧
    (∀ g t2, isGrain g = true → (s.core.dev.ptpPort p).reqSent.isSome = true →
      Runs (.pdelayResp p g t2) s [.ptp] fun t =>
        t.core.dev.ptpPort p = { s.core.dev.ptpPort p with
          respAt := some (rxStamp s.core.dev p g, BitVec.ofInt 64 (ptpGrains t2)) }) ∧
    (∀ t1 t2 t3 t4, (s.core.dev.ptpPort p).reqSent = some t1 → (s.core.dev.ptpPort p).respAt = some (t4, t2) →
      Runs (.pdelayRespFollowUp p t3) s [.ptp] fun t =>
        (t.core.dev.ptpPort p).meanLinkDelay =
          BitVec.ofInt 32 ((sdiff t4 t1 - sdiff (BitVec.ofInt 64 (ptpGrains t3)) t2) / 2) ∧
        (t.core.dev.ptpPort p).reqSent = none)

/-- R37, R53, R360: a grandmaster sends Sync with its Follow_Up and Announce, each held while the cyclic gate of its MAC is open, and ALIGN_OK rises with its first Sync; in HOLDOVER the
passed limit takes ALIGN_OK away with ALIGN_LOST; management messages are discarded (R38). -/
def Obligations.GrandmasterSendsAndAlignment : Prop :=
  ∀ (s : State), live s.core.dev = true →
    (∀ p g, isMac p = true → isGrain g = true → listens s.core.dev p false = true → sendsSync s.core.dev = true →
      (s.core.dev.mac p).gate = false →
      Runs (.syncSend p g) s [.ptp, .so, .tb] fun t =>
        t.core.dev.ptp.sent = s.core.dev.ptp.sent ++
          [.sync p s.core.dev.ptp.domain s.core.dev.ptp.seqSync,
            .followUp p s.core.dev.ptp.domain s.core.dev.ptp.seqSync (ptpTimeOf (txStamp s.core.dev p g))] ∧
        t.core.dev.ptp.seqSync = s.core.dev.ptp.seqSync + 1 ∧ t.core.dev.tb.alignOk = true) ∧
    (∀ p, isMac p = true → listens s.core.dev p false = true → sendsSync s.core.dev = true →
      (s.core.dev.mac p).gate = false →
      Runs (.announceSend p) s [.ptp] fun t =>
        t.core.dev.ptp.sent = s.core.dev.ptp.sent ++ [.announce p s.core.dev.ptp.domain s.core.dev.ptp.seqAnnounce 100] ∧
        t.core.dev.ptp.seqAnnounce = s.core.dev.ptp.seqAnnounce + 1) ∧
    (∀ p g, isMac p = true → isGrain g = true → listens s.core.dev p false = true → sendsSync s.core.dev = true →
      (s.core.dev.mac p).gate = true →
      (Runs (.syncSend p g) s [.lk] fun t => (t.core.dev.mac p).held = (s.core.dev.mac p).held ++ [.sync g]) ∧
      Runs (.announceSend p) s [.lk] fun t => (t.core.dev.mac p).held = (s.core.dev.mac p).held ++ [.announce]) ∧
    (roleManager s.core.dev = false → s.core.dev.so.servo = .holdover → s.core.dev.tb.alignOk = true →
      Runs .alignLost s [.tb, .ic, .ne] fun t =>
        t.core.dev.tb = { s.core.dev.tb with alignOk := false, stat := orBit s.core.dev.tb.stat 10 }) ∧
    (∀ p, isMac p = true → exec (.ptpManagementMessage p) s = .next s)

/-! ### Pins, decoders, the always-on counters -/

/-- R60, R62, R202: a transition of a ball is held with its stamp for the sampler, coarse and at the TCLK's centre if a capture lies
less than 20 TCLK back; a change back to the level of the TCLK before leaves none. At the end of the TCLK the sampler captures it,
and a coarse capture is counted. While no clock runs the level alone changes. A number from 256 on names a trip input's ball (log
entry 74, the model's choice). -/
def Obligations.PinTransitions : Prop :=
  (∀ (s : State) (p : Nat) (lvl : Bool) (g : BitVec 6), isPin p = true →
    (live s.core.dev = true → (s.core.dev.pin p).ball ≠ lvl →
      (∀ k, (s.core.dev.pin p).lastCap = some k → k + 20 ≤ s.core.dev.tb.tclk) →
      Runs (.pinTransition p lvl g) s [.tooth] fun t =>
        t.core.dev.pin p = { s.core.dev.pin p with
          ball := lvl
          change := if lvl = (s.core.dev.pin p).seen then none else
            some ⟨lvl, stampAt s.core.dev g.toNat, g, s.core.dev.tb.stepGen, false, s.core.dev.tb.tclk⟩ } ∧
        t.core.dev.tooth.decs = s.core.dev.tooth.decs ∧ ∀ q, q ≠ p → t.core.dev.pin q = s.core.dev.pin q) ∧
    (∀ k, live s.core.dev = true → (s.core.dev.pin p).ball ≠ lvl →
      (s.core.dev.pin p).lastCap = some k → s.core.dev.tb.tclk < k + 20 →
      Runs (.pinTransition p lvl g) s [.tooth] fun t =>
        t.core.dev.pin p = { s.core.dev.pin p with
          ball := lvl
          change := if lvl = (s.core.dev.pin p).seen then none else
            some ⟨lvl, stampAt s.core.dev 32, 32#6, s.core.dev.tb.stepGen, true, s.core.dev.tb.tclk⟩ } ∧
        t.core.dev.tooth.decs = s.core.dev.tooth.decs ∧ ∀ q, q ≠ p → t.core.dev.pin q = s.core.dev.pin q) ∧
    (live s.core.dev = false →
      Runs (.pinTransition p lvl g) s [.tooth] fun t =>
        t.core.dev.pin p = { s.core.dev.pin p with ball := lvl, change := none } ∧ t.core.dev.tooth.decs = s.core.dev.tooth.decs) ∧
    (live s.core.dev = true → (s.core.dev.pin p).ball = lvl → exec (.pinTransition p lvl g) s = .next s)) ∧
  (∀ (s : State) (i : Nat) (lvl : Bool) (g : BitVec 6), i < 16 →
    Runs (.pinTransition (256 + i) lvl g) s [.br] fun t =>
      t.core.dev.trip i = { s.core.dev.trip i with ball := lvl } ∧ t.core.dev.br.pairs = s.core.dev.br.pairs ∧
      ∀ j, j ≠ i → t.core.dev.trip j = s.core.dev.trip j) ∧
  (∀ (d : Dev) (p : Nat),
    ((d.pin p).ball = (d.pin p).seen → sampleTclk p d = d) ∧
    ∀ c, (d.pin p).ball ≠ (d.pin p).seen → (d.pin p).change = some c →
      (sampleTclk p d).pin p = { d.pin p with
        seen := (d.pin p).ball, change := none, line := (d.pin p).line ++ [c]
        lastCap := if c.coarse then (d.pin p).lastCap else some d.tb.tclk } ∧
      (if c.coarse then
        ((sampleTclk p d).dec p).coarsec = incSat (d.dec p).coarsec ∧ bit ((sampleTclk p d).dec p).tdstat 6 = true
      else (sampleTclk p d).tooth.decs = d.tooth.decs))

/-- R63, R65, R70, R81–R83: an accepted edge turns the filtered level and enters the pipeline, whatever the decoder's mode; a pin
without a waiting edge accepts none. Two TCLKs later the decoder stage of a single-edge decoder forms a tooth of each edge that the
prescaler has passed: stamp, POS in its direction, the ring entry at the old TOTAL; and one TCLK after that TOTAL is one more. -/
def Obligations.EdgesFormTeeth : Prop :=
  (∀ (s : State) (p : Nat), isPin p = true → live s.core.dev = true →
    ((s.core.dev.pin p).cand = none → exec (.edgeAccepted p) s = .next s) ∧
    (∀ c, (s.core.dev.pin p).cand = some c →
      Runs (.edgeAccepted p) s [.tooth] fun t =>
        t.core.dev.pin p = { s.core.dev.pin p with
          level := c.level, cand := none
          pipe := (s.core.dev.pin p).pipe ++ [{ edge := c, acc := s.core.dev.tb.tclk, to_ := c.level }] } ∧
        t.core.dev.tooth.decs = s.core.dev.tooth.decs ∧ ∀ q, q ≠ p → t.core.dev.pin q = s.core.dev.pin q)) ∧
  (∀ (d : Dev) (n : Nat) (e : PinPass), (d.dec n).on = true → decMode (d.dec n) = 0 → clearedNow d n = false →
    decoderEdge d n n = some e →
    (e.passed = false → decoderStage n d = d) ∧
    (e.passed = true →
      ((decoderStage n d).dec n).lstamp = e.edge.stamp ∧
      ((decoderStage n d).dec n).pos = (if singleDir (d.dec n) e.partner then (d.dec n).pos - 1 else (d.dec n).pos + 1) ∧
      (Bank.get {} ((decoderStage n d).dec n).ring ((d.dec n).total.toNat % 16)).stamp = e.edge.stamp ∧
      ((decoderStage n d).dec n).total = (d.dec n).total ∧
      ((advanceTotal n (decoderStage n d)).dec n).total = (d.dec n).total + 1 ∧
      ∀ m, m ≠ n → (decoderStage n d).dec m = d.dec m))

/-- R63, R64: a write of a pin's register acts without an edge, INV and FILT from the next TCLK on, when a change of INV inverts the
accepted level and what is on its way to it; EDGE 11b is not stored and sets CFG_ERR. -/
def Obligations.PinConfiguration : Prop :=
  (∀ (s : State) (p : Nat) (v : W32), isPin p = true → live s.core.dev = true →
    (fld v 8 2 ≠ 3 →
      Runs (.pinWrite p v) s [.tooth] fun t =>
        t.core.dev.pin p = { s.core.dev.pin p with pin := v &&& 0x7FF#32 } ∧
        t.core.dev.tooth.decs = s.core.dev.tooth.decs ∧ ∀ q, q ≠ p → t.core.dev.pin q = s.core.dev.pin q) ∧
    (fld v 8 2 = 3 →
      Runs (.pinWrite p v) s [.tooth] fun t =>
        t.core.dev.pin p = { s.core.dev.pin p with pin := setFld (v &&& 0x7FF#32) 8 2 (fld (s.core.dev.pin p).pin 8 2) } ∧
        t.core.dev.dec p = { s.core.dev.dec p with tdstat := orBit (s.core.dev.dec p).tdstat 2 } ∧
        ∀ q, q ≠ p → t.core.dev.pin q = s.core.dev.pin q ∧ t.core.dev.dec q = s.core.dev.dec q)) ∧
  (∀ (x : PinStage), (landPin x).pinNow = x.pin ∧ (landPin x).line = x.line ∧ (landPin x).pipe.length = x.pipe.length ∧
    (bit x.pin 10 = bit x.pinNow 10 → (landPin x).level = x.level ∧ (landPin x).cand = x.cand) ∧
    (bit x.pin 10 ≠ bit x.pinNow 10 → (landPin x).level = !x.level ∧
      ∀ c, x.cand = some c → (landPin x).cand = some { c with level := !c.level }))

/-- R68, R69, R73, R26: enabling a decoder, or the refusal with CFG_ERR; disabling and clearing it; both act on its teeth from the next
TCLK on, and an edge that was in the pipeline when EN was cleared is not counted; an over-long pulse; and the update request of the axis it feeds, queued at the end of its cluster's queue. -/
def Obligations.DecoderControl : Prop :=
  ∀ (s : State) (n : Nat), isPin n = true → live s.core.dev = true →
    (decEn (s.core.dev.dec n) = false → decRefused s.core.dev n = false →
      Runs (.decoderEnable n) s [.tooth] fun t =>
        t.core.dev.dec n = { s.core.dev.dec n with
          cfg := { (s.core.dev.dec n).cfg with tdc := orBit (s.core.dev.dec n).cfg.tdc 0 }, refFound := false } ∧
        t.core.dev.decTrk n = {} ∧ (t.core.dev.pin n).count = 0 ∧ ∀ m, m ≠ n → t.core.dev.dec m = s.core.dev.dec m) ∧
    (decEn (s.core.dev.dec n) = false → decRefused s.core.dev n = true →
      Runs (.decoderEnable n) s [.tooth] fun t =>
        t.core.dev.dec n = { s.core.dev.dec n with tdstat := orBit (s.core.dev.dec n).tdstat 2 } ∧
        ∀ m, m ≠ n → t.core.dev.dec m = s.core.dev.dec m) ∧
    (decEn (s.core.dev.dec n) = true →
      Runs (.decoderDisable n) s [.tooth] fun t =>
        t.core.dev.dec n = { s.core.dev.dec n with
          cfg := { (s.core.dev.dec n).cfg with tdc := clrBit (s.core.dev.dec n).cfg.tdc 0 } } ∧
        t.core.dev.tooth.pins = s.core.dev.tooth.pins ∧ ∀ m, m ≠ n → t.core.dev.dec m = s.core.dev.dec m) ∧
    (Runs (.clr n) s [.tooth] fun t =>
      t.core.dev.dec n = { s.core.dev.dec n with
        total := 0, pos := 0, slot := 0, updcnt := 0, updSeen := 0, decim := 0, refFound := false, adv := none
        clrAt := some s.core.dev.tb.tclk } ∧
      t.core.dev.pin n = { s.core.dev.pin n with count := 0 } ∧
      (t.core.dev.decTrk n).prev = none ∧ (t.core.dev.decTrk n).ivl = none ∧ (t.core.dev.decTrk n).lead = (s.core.dev.decTrk n).lead ∧ ∀ m, m ≠ n → t.core.dev.dec m = s.core.dev.dec m) ∧
    ((s.core.dev.dec n).on = true → decMode (s.core.dev.dec n) = 4 → (s.core.dev.decTrk n).lead.isSome = true →
      Runs (.pwdFault n) s [.tooth] fun t =>
        (t.core.dev.dec n).pfltc = incSat (s.core.dev.dec n).pfltc ∧ bit (t.core.dev.dec n).tdstat 8 = true ∧
        (t.core.dev.decTrk n).lead = none ∧ ∀ m, m ≠ n → t.core.dev.dec m = s.core.dev.dec m) ∧
    ((s.core.dev.dec n).updcnt ≠ (s.core.dev.dec n).updSeen →
      (s.core.dev.queue (clusterOf (fld (s.core.dev.dec n).cfg.tdc 13 12))).contains (.update (fld (s.core.dev.dec n).cfg.tdc 13 12)) = false →
      Runs (.updateRequest n) s [.tooth, .ax] fun t =>
        t.core.dev.dec n = { s.core.dev.dec n with updSeen := (s.core.dev.dec n).updcnt } ∧
        t.core.dev.queue (clusterOf (fld (s.core.dev.dec n).cfg.tdc 13 12)) =
          s.core.dev.queue (clusterOf (fld (s.core.dev.dec n).cfg.tdc 13 12)) ++ [.update (fld (s.core.dev.dec n).cfg.tdc 13 12)] ∧
        t.core.dev.ax.axes = s.core.dev.ax.axes) ∧
    ((s.core.dev.dec n).on = true → decEn (s.core.dev.dec n) = false →
      ((landDecoder n s.core.dev).dec n).on = false ∧ ((landDecoder n s.core.dev).decTrk n).lead = none ∧
      ∀ e ∈ (s.core.dev.pin n).pipe, e.edge.tclk ≤ s.core.dev.tb.tclk →
        decoderEdge (landDecoder n s.core.dev) n n ≠ some e) ∧
    ((s.core.dev.dec n).on = false → decEn (s.core.dev.dec n) = true →
      (landDecoder n s.core.dev).dec n = { s.core.dev.dec n with on := true })

/-- R88, R90: an always-on counter counts a valid transition in its direction, holds and sets ERR at an illegal one, keeps only
the inputs while it is off, takes a free value next to a preset (within one of the preset), and is preset. These counters do not
need the core's clocks; the preset command does. -/
def Obligations.AlwaysOnCounters : Prop :=
  ∀ (s : State) (k : Nat), k < 4 →
    (∀ b near, bit (s.core.dev.aoq k).ctl 0 = false →
      Runs (.aoqTransition k b false near) s [.tooth] fun t =>
        (t.core.dev.aoq k).cnt = (s.core.dev.aoq k).cnt ∧ (t.core.dev.aoq k).ctl = (s.core.dev.aoq k).ctl ∧
        (t.core.dev.aoq k).ab = (s.core.dev.aoq k).ab ^^^ (if b then 1#2 else 2#2)) ∧
    (bit (s.core.dev.aoq k).ctl 0 = true → bit (s.core.dev.aoq k).ctl 1 = false → (s.core.dev.aoq k).ab = 0#2 →
      (Runs (.aoqTransition k false false false) s [.tooth] fun t =>
        t.core.dev.aoq k = { s.core.dev.aoq k with ab := 2#2, cnt := (s.core.dev.aoq k).cnt + 1 }) ∧
      (Runs (.aoqTransition k true false false) s [.tooth] fun t =>
        t.core.dev.aoq k = { s.core.dev.aoq k with ab := 1#2, cnt := (s.core.dev.aoq k).cnt - 1 })) ∧
    (∀ b near, bit (s.core.dev.aoq k).ctl 0 = true →
      Runs (.aoqTransition k b true near) s [.tooth] fun t =>
        (t.core.dev.aoq k).cnt = (s.core.dev.aoq k).cnt ∧ (t.core.dev.aoq k).ab = (s.core.dev.aoq k).ab ^^^ 3#2 ∧
        bit (t.core.dev.aoq k).ctl 3 = true) ∧
    (∀ b, bit (s.core.dev.aoq k).ctl 0 = true →
      Runs (.aoqTransition k b false true) s [.tooth, .free] fun t =>
        bit (t.core.dev.aoq k).ctl 3 = true ∧
        ((t.core.dev.aoq k).cnt = (s.core.dev.aoq k).pre - 1 ∨ (t.core.dev.aoq k).cnt = (s.core.dev.aoq k).pre ∨
          (t.core.dev.aoq k).cnt = (s.core.dev.aoq k).pre + 1)) ∧
    (live s.core.dev = true →
      Runs (.preset k) s [.tooth] fun t =>
        (t.core.dev.aoq k).cnt = (s.core.dev.aoq k).pre ∧ bit (t.core.dev.aoq k).ctl 4 = true ∧
        fld (t.core.dev.aoq k).ctl 8 8 = 0 ∧ (t.core.dev.aoq k).pre = (s.core.dev.aoq k).pre ∧
        ∀ m, m ≠ k → t.core.dev.aoq m = s.core.dev.aoq m)

/-- R85, R223, R228, R243, R303, R298: reads with an effect: the update latch with the words the port latches behind it, a
capture with its FULL bit cleared, a received word with RXF cleared, a claim of the winning source, and the event records that a
read clears. -/
def Obligations.ReadsWithEffects : Prop :=
  ∀ (s : State) (p : Nat), isPath p = true → PortOpen p s.core.dev →
    (∀ n, isPin n = true →
      Runs (.ustampLoRead p n) s [.hi] fun t =>
        Bank.get 0 t.core.dev.hi.data p = loWord (s.core.dev.dec n).ustamp ∧
        (t.core.dev.path p).latch = [(baseCh n + 0xDC, hiWord (s.core.dev.dec n).ustamp), (baseCh n + 0xE0, (s.core.dev.dec n).uattr),
          (baseCh n + 0xC8, (s.core.dev.dec n).total), (baseCh n + 0xCC, (s.core.dev.dec n).pos)]) ∧
    (∀ n, isChannel n = true →
      Runs (.captureRead p n false) s [.hi, .ch] fun t =>
        Bank.get 0 t.core.dev.hi.data p = (s.core.dev.chCap n).cap0 ∧
        t.core.dev.chCap n = { s.core.dev.chCap n with caps := clrBit (s.core.dev.chCap n).caps 1 } ∧
        ∀ m, m ≠ n → t.core.dev.chCap m = s.core.dev.chCap m) ∧
    (∀ n a, isChannel n = true → isStage s.core.dev n = false → stagesAbove s.core.dev n = [a] → a < 512 →
      Runs (.chainCountRead p n) s [.hi] fun t =>
        Bank.get 0 t.core.dev.hi.data p = (s.core.dev.chCnt n).cnt ∧
        (t.core.dev.path p).latch = [(baseCh a + 0x18, (s.core.dev.chCnt a).cnt)]) ∧
    (∀ k, isComp k = true → (s.core.dev.path p).latch = [] → (s.core.dev.comp k).rxWas = none →
      Runs (.rxdRead p k) s [.hi, .comps] fun t =>
        Bank.get 0 t.core.dev.hi.data p = (s.core.dev.comp k).r.rxd ∧
        t.core.dev.comp k = { s.core.dev.comp k with r := { (s.core.dev.comp k).r with rxf := false } } ∧ ∀ m, m ≠ k → t.core.dev.comp m = s.core.dev.comp m) ∧
    (∀ k n, k < 32 → isTarget k = true → winner k s.core.dev = some n → (s.core.dev.path p).latch = [] →
      Runs (.claim p k) s [.hi, .ic] fun t =>
        Bank.get 0 t.core.dev.hi.data p = BitVec.ofNat 32 n ∧
        t.core.dev.source n = { s.core.dev.source n with pend := false, act := true, span := false } ∧
        ∀ m, m ≠ n → t.core.dev.source m = s.core.dev.source m) ∧
    (∀ k, k < 32 → winner k s.core.dev = none → (s.core.dev.path p).latch = [] →
      Runs (.claim p k) s [.hi] fun t => Bank.get 0 t.core.dev.hi.data p = 0x80000000#32) ∧
    (∀ g, g < 64 → (s.core.dev.path p).latch = [] →
      (Runs (.chwRead p g) s [.hi, .ic] fun t =>
        Bank.get 0 t.core.dev.hi.data p = Bank.get 0 s.core.dev.ic.chw g ∧ Bank.get 0 t.core.dev.ic.chw g = 0) ∧
      (Runs (.axwLoRead p g) s [.hi, .ic] fun t =>
        Bank.get 0 t.core.dev.hi.data p = loWord (Bank.get 0 s.core.dev.ic.axw g) ∧
        (t.core.dev.path p).latch = [(0x10604 + 8 * g, hiWord (Bank.get 0 s.core.dev.ic.axw g))] ∧
        Bank.get 0 t.core.dev.ic.axw g = 0))

/-! ### Axes -/

/-- R108, R115, R148: an axis enabled starts in SEARCH, invalid, without a disturbance, or the enable is refused with CFG_ERR;
disabled or resynchronised it is disturbed: in SEARCH with POLICY_BUSY. A virtual axis has no transitions of its own, and a RESYNC
of it changes nothing (log entry 79, the model's choice). -/
def Obligations.AxisEnableAndSearch : Prop :=
  ∀ (s : State) (a : Nat), isAxis a = true → live s.core.dev = true →
    (axEn (s.core.dev.axis a) = false → axisRefused s.core.dev a = false →
      Runs (.axisEnable a) s [.ax] fun t =>
        axEn (t.core.dev.axis a) = true ∧ (t.core.dev.axis a).st.sync = .search ∧ (t.core.dev.axis a).st.valid = false ∧
        (t.core.dev.axis a).st.model = false ∧ (t.core.dev.axis a).trk.c = (s.core.dev.axis a).trk.c ∧
        t.core.dev.ax.queues = s.core.dev.ax.queues ∧ ∀ b, b ≠ a → t.core.dev.axis b = s.core.dev.axis b) ∧
    (axEn (s.core.dev.axis a) = false → axisRefused s.core.dev a = true →
      Runs (.axisEnable a) s [.ax, .ic, .ne] fun t =>
        axEn (t.core.dev.axis a) = false ∧ bit (t.core.dev.axis a).st.stat 19 = true ∧
        ∀ b, b ≠ a → t.core.dev.axis b = s.core.dev.axis b) ∧
    (axEn (s.core.dev.axis a) = true →
      Runs (.axisDisable a) s [.ax, .chases] fun t =>
        axEn (t.core.dev.axis a) = false ∧ (t.core.dev.axis a).st.sync = .search ∧ (t.core.dev.axis a).st.policyBusy = true) ∧
    (axEn (s.core.dev.axis a) = true → axKind (s.core.dev.axis a) ≠ 2 →
      Runs (.resync a) s [.ax, .chases] fun t =>
        axEn (t.core.dev.axis a) = true ∧ (t.core.dev.axis a).st.sync = .search ∧ (t.core.dev.axis a).st.valid = false ∧
        (t.core.dev.axis a).st.policyBusy = true) ∧
    (axEn (s.core.dev.axis a) = true ∧ axKind (s.core.dev.axis a) = 2 ∨ axEn (s.core.dev.axis a) = false →
      exec (.resync a) s = .next s)

/-- R102, R104: a missing tooth. A LOCKED axis makes a ghost: GHOSTED, counted, its count moved on by the span; at the second
one it is lost, halted and disturbed; without the conditions of a ghost nothing is synthesised. -/
def Obligations.GhostTeeth : Prop :=
  ∀ (s : State) (a : Nat), isAxis a = true → live s.core.dev = true → (s.core.dev.axis a).trk.held = [] →
    (ghostReady (s.core.dev.axis a) = true → (s.core.dev.axis a).st.sync = .locked →
      Runs (.ghost a) s [.ax, .ic, .ne] fun t =>
        (t.core.dev.axis a).st.sync = .ghosted ∧ (t.core.dev.axis a).st.ghostc = incSat (s.core.dev.axis a).st.ghostc ∧
        (t.core.dev.axis a).trk.c = (if (s.core.dev.axis a).st.dir then (s.core.dev.axis a).trk.c - (s.core.dev.axis a).trk.span
          else (s.core.dev.axis a).trk.c + (s.core.dev.axis a).trk.span) ∧
        (t.core.dev.axis a).trk.anchorT = (s.core.dev.axis a).trk.predict ∧
        (t.core.dev.axis a).trk.ghostDl = (s.core.dev.axis a).trk.deadline ∧ bit (t.core.dev.axis a).st.stat 10 = true ∧
        ∀ b, b ≠ a → t.core.dev.axis b = s.core.dev.axis b) ∧
    (ghostReady (s.core.dev.axis a) = true → (s.core.dev.axis a).st.sync = .ghosted →
      Runs (.ghost a) s [.ax, .chases, .ic, .ne] fun t =>
        (t.core.dev.axis a).st.sync = .syncLost ∧ (t.core.dev.axis a).st.model = false ∧
        (t.core.dev.axis a).st.lostc = incSat (s.core.dev.axis a).st.lostc ∧ (t.core.dev.axis a).st.policyBusy = true ∧
        (t.core.dev.axis a).trk.c = (s.core.dev.axis a).trk.c) ∧
    (ghostReady (s.core.dev.axis a) = false ∨ (s.core.dev.axis a).st.sync ≠ .locked ∧ (s.core.dev.axis a).st.sync ≠ .ghosted →
      Runs (.ghost a) s [.ax] fun t =>
        (t.core.dev.axis a).st = (s.core.dev.axis a).st ∧ (t.core.dev.axis a).trk.c = (s.core.dev.axis a).trk.c ∧ ∀ b, b ≠ a → t.core.dev.axis b = s.core.dev.axis b)

/-- R107, R108, R110: the other transitions of the sync state: STOPPED, the seed of an always-on counter, COASTING of a remote
axis and its loss, the loss of a master-derived one. -/
def Obligations.SyncStates : Prop :=
  ∀ (s : State) (a : Nat), isAxis a = true → live s.core.dev = true → axEn (s.core.dev.axis a) = true →
    (axKind (s.core.dev.axis a) = 0 → (s.core.dev.axis a).st.stopped = false →
      Runs (.stopped a) s [.ax, .chases, .ic, .ne] fun t =>
        (t.core.dev.axis a).st.stopped = true ∧
        (t.core.dev.axis a).st.sync = (if (s.core.dev.axis a).st.sync = .locked ∨ (s.core.dev.axis a).st.sync = .ghosted then .locking
          else (s.core.dev.axis a).st.sync) ∧
        bit (t.core.dev.axis a).st.stat 7 = true ∧ (t.core.dev.axis a).trk.m = (s.core.dev.axis a).trk.m ∧ (t.core.dev.axis a).st.model = false ∧
        (t.core.dev.axis a).st.dir = (s.core.dev.axis a).st.dir ∧ (t.core.dev.axis a).st.policyBusy = true) ∧
    (axKind (s.core.dev.axis a) = 0 → (s.core.dev.axis a).st.stopped = true → exec (.stopped a) s = .next s) ∧
    ((s.core.dev.axis a).st.seeding = true →
      bit (s.core.dev.aoq (fld (s.core.dev.axis a).cfg.cfg 23 2)).ctl 4 = true →
      bit (s.core.dev.aoq (fld (s.core.dev.axis a).cfg.cfg 23 2)).ctl 3 = false → feedingDecoder s.core.dev a = none →
      Runs (.aoqSeed a) s [.ax] fun t =>
        (t.core.dev.axis a).st.sync = .locking ∧ (t.core.dev.axis a).st.valid = true ∧ (t.core.dev.axis a).st.seeding = false ∧
        (t.core.dev.axis a).trk.c = (s.core.dev.aoq (fld (s.core.dev.axis a).cfg.cfg 23 2)).cnt.toInt - (s.core.dev.axis a).cfg.aoqOfs.toInt ∧
        ∀ b, b ≠ a → t.core.dev.axis b = s.core.dev.axis b) ∧
    ((s.core.dev.axis a).st.seeding = true →
      bit (s.core.dev.aoq (fld (s.core.dev.axis a).cfg.cfg 23 2)).ctl 3 = true → feedingDecoder s.core.dev a = none →
      Runs (.aoqSeed a) s [.ax, .ic, .ne] fun t =>
        bit (t.core.dev.axis a).st.stat 14 = true ∧ (t.core.dev.axis a).st.sync = (s.core.dev.axis a).st.sync ∧
        (t.core.dev.axis a).st.seeding = false) ∧
    ((s.core.dev.axis a).st.seeding = false → exec (.aoqSeed a) s = .next s) ∧
    (axKind (s.core.dev.axis a) = 1 → (s.core.dev.axis a).st.sync = .locked →
      Runs (.remoteMiss a) s [.ax, .ic, .ne] fun t =>
        (t.core.dev.axis a).st.sync = .coasting ∧ bit (t.core.dev.axis a).st.stat 13 = true ∧
        ∀ b, b ≠ a → t.core.dev.axis b = s.core.dev.axis b) ∧
    (axKind (s.core.dev.axis a) = 1 → (s.core.dev.axis a).st.sync = .coasting →
      Runs (.coastLimit a) s [.ax, .chases, .ic, .ne] fun t =>
        (t.core.dev.axis a).st.sync = .syncLost ∧ (t.core.dev.axis a).st.lostc = incSat (s.core.dev.axis a).st.lostc) ∧
    (axKind (s.core.dev.axis a) = 3 → (s.core.dev.axis a).st.sync = .coasting →
      Runs (.coastMax a) s [.ax, .chases, .ic, .ne] fun t =>
        (t.core.dev.axis a).st.sync = .syncLost ∧ (t.core.dev.axis a).st.lostc = incSat (s.core.dev.axis a).st.lostc)

/-- R25, R26, R98, R129, R150: an engine with a credit takes the update request at the head of its cluster's queue, the update tooth
becomes a fit point, and the request is charged; a policy request of the same axis goes before it; without a credit, or with another
request at the head, nothing moves. -/
def Obligations.UpdateRequests : Prop :=
  ∀ (s : State) (e a : Nat), isEngine e = true → isAxis a = true → live s.core.dev = true → enginesRun s.core.dev = true →
    (canServe s.core.dev e a = false → exec (.updateService e a) s = .next s) ∧
    ((s.core.dev.queue (clusterOf a)).head? ≠ some (.update a) → exec (.updateService e a) s = .next s) ∧
    (∀ rest, s.core.dev.queue (clusterOf a) = .update a :: rest → rest.any (isPolicyOf a) = true →
      exec (.updateService e a) s = exec (.policyService e a) s) ∧
    (∀ rest, canServe s.core.dev e a = true → s.core.dev.queue (clusterOf a) = .update a :: rest →
      rest.any (isPolicyOf a) = false → s.core.dev.gs.granted = [] → (s.core.dev.axis a).mdl.upd = none →
      Runs (.updateService e a) s [.ax, .ne] fun t =>
        t.core.dev.queue (clusterOf a) = rest ∧
        t.core.dev.axis a = s.core.dev.axis a ∧ (t.core.dev.eng e).credits < (s.core.dev.eng e).credits ∧
        (t.core.dev.eng e).cycles = (s.core.dev.eng e).cycles + 120 + 12 * retimeCount s.core.dev a) ∧
    (∀ rest st sg c, canServe s.core.dev e a = true → s.core.dev.queue (clusterOf a) = .update a :: rest →
      rest.any (isPolicyOf a) = false → s.core.dev.gs.granted = [] →
      (s.core.dev.axis a).mdl.upd = some (st, sg, c, true) → (s.core.dev.axis a).mdl.points.length < 2 →
      Runs (.updateService e a) s [.ax, .ne] fun t =>
        (t.core.dev.axis a).mdl.points = ⟨st, c, angOf (s.core.dev.axis a).cfg c⟩ :: (s.core.dev.axis a).mdl.points ∧
        (t.core.dev.axis a).mdl.upd = none ∧ (t.core.dev.axis a).trk = (s.core.dev.axis a).trk ∧
        ∀ b, b ≠ a → t.core.dev.axis b = s.core.dev.axis b)

/-- R129, R131, R25: an arming pass that the tick's work makes of an armable axis arms its one PARKED slug inside the horizon, whose time lies ahead,
in the first free slot of its chase; an axis that is not armable arms none. -/
def Obligations.ArmingPlacesSlugs : Prop :=
  ∀ (s : State) (e a : Nat), isEngine e = true → isAxis a = true → live s.core.dev = true → enginesRun s.core.dev = true →
    (s.core.dev.eng e).online = true → shadowed s.core.dev e = false → e / 4 = clusterOf a →
    (s.core.dev.queue (clusterOf a)).contains (.arm a) = false → s.core.dev.gs.granted = [] →
    (armable s.core.dev a = false →
      Runs (.armingPass e a) s [.ne] fun t => ∀ x, t.core.dev.eng x = s.core.dev.eng x) ∧
    (∀ sid t0 g k, armable s.core.dev a = true → axisSlugs s.core.dev a .pending = [] →
      axisSlugs s.core.dev a .parked = [(sid, s.core.dev.slug sid)] → inHorizon s.core.dev a (s.core.dev.slug sid).angle = true →
      (s.core.dev.slug sid).axis = a → fireTime s.core.dev (s.core.dev.slug sid) (fld s.core.dev.gl.cfg 16 16) = some (t0, g) →
      atOrAfter s.core.dev.tb.time t0 = false → fifoFull s.core.dev = false →
      freeSlot (s.core.dev.chase (4 * clusterOf a + (s.core.dev.slug sid).chan % 4)) = some k →
      Runs (.armingPass e a) s [.chases, .gs, .ne] fun t =>
        (t.core.dev.eng e).cycles = (s.core.dev.eng e).cycles + 24 * (narmed t.core.dev a - narmed s.core.dev a) ∧
        t.core.dev.slug sid = { s.core.dev.slug sid with state := .armed } ∧
        (∃ x, Bank.get none (t.core.dev.chase (4 * clusterOf a + (s.core.dev.slug sid).chan % 4)).entries k = some x ∧
          x.t = t0 ∧ x.g = g ∧ x.sid = sid ∧ x.seq = (s.core.dev.slug sid).seq) ∧
        ∀ m, m ≠ sid → t.core.dev.slug m = s.core.dev.slug m)

/-- R148, R150, R151, R153: the policy of an axis, served and walked: an armed slug of a suppressed entry is MISSED, a parked
slug of a disabled axis is CANCELLED, and POLICY_BUSY falls with the last walk, whatever suppressed entries still wait. -/
def Obligations.PolicyWork : Prop :=
  ∀ (s : State) (e a sid : Nat) (ab : Bool) (seq : W32) (t0 : Time64), isEngine e = true → isAxis a = true →
    live s.core.dev = true → enginesRun s.core.dev = true → s.core.dev.gs.granted = [] →
    (canServe s.core.dev e a = false → exec (.policyService e a) s = .next s) ∧
    (∀ rest kind, canServe s.core.dev e a = true → kind ≠ .suppressed → rest.contains (.update a) = false →
      s.core.dev.queue (clusterOf a) = .policy a kind ab [] [(sid, seq)] t0 :: rest →
      Runs (.policyService e a) s [.ax, .ne] fun t =>
        t.core.dev.queue (clusterOf a) = rest ∧
        t.core.dev.ax.walks = s.core.dev.ax.walks ++ [.policy a kind ab [] [(sid, seq)] t0] ∧
        (t.core.dev.eng e).credits = (s.core.dev.eng e).credits - 1) ∧
    (∀ rest, canServe s.core.dev e a = true → rest.contains (.update a) = false →
      s.core.dev.queue (clusterOf a) = .policy a .suppressed ab [(sid, seq)] [] t0 :: rest →
      (s.core.dev.slug sid).state = .armed → (s.core.dev.slug sid).seq = seq → (s.core.dev.slug sid).rpt = false →
      bit s.core.dev.gl.cfg 0 = false → recordSelected s.core.dev (plainRecord sid (s.core.dev.slug sid) .missed 5 t0) = false →
      Runs (.policyService e a) s [.ax, .ne, .gl, .gs] fun t =>
        (t.core.dev.slug sid).state = .missed ∧ t.core.dev.gl.missed = incSat s.core.dev.gl.missed ∧
        t.core.dev.queue (clusterOf a) = rest ∧ ∀ m, m ≠ sid → t.core.dev.slug m = s.core.dev.slug m) ∧
    (s.core.dev.ax.walks = [.policy a .disabled ab [] [(sid, seq)] t0] →
      (s.core.dev.queue (clusterOf a)).any (walksFor a) = false → s.core.dev.ne.all (fun g => g.2.taken.isNone) = true → (s.core.dev.slug sid).state = .parked →
      (s.core.dev.slug sid).seq = seq → bit s.core.dev.gl.cfg 0 = false →
      recordSelected s.core.dev (plainRecord sid (s.core.dev.slug sid) .cancelled 8 t0) = false →
      Runs (.policyWalk a) s [.ax, .gs] fun t =>
        (t.core.dev.slug sid).state = .cancelled ∧ (t.core.dev.axis a).st.policyBusy = false ∧ t.core.dev.ax.walks = [] ∧
        ∀ m, m ≠ sid → t.core.dev.slug m = s.core.dev.slug m)

/-- R24, R269, R273: an engine whose share of the tick's work holds no axis, and to which the device-wide items do not fall,
ends its context 0 and is charged; an engine whose context is not ready, or that has a request to take first, does nothing. -/
def Obligations.TickWorkOfAnEngine : Prop :=
  ∀ (s : State) (e : Nat), isEngine e = true → live s.core.dev = true →
    (enginesRun s.core.dev = true → (s.core.dev.eng e).online = true → tickMayRun s.core.dev e = true → s.core.dev.gs.granted = [] →
      (s.core.dev.eng e).tback = 0 → deviceWide s.core.dev e = false → axesShare s.core.dev e = [] →
      Runs (.tickWork e) s [.ne, .ctxs] fun t =>
        bit (t.core.dev.eng e).ready 0 = false ∧
        (t.core.dev.eng e).cycles = (s.core.dev.eng e).cycles + shareCost s.core.dev e ∧
        ∀ x, x ≠ e → t.core.dev.eng x = s.core.dev.eng x) ∧
    (bit (s.core.dev.eng e).ready 0 = false ∨ hasRequest s.core.dev e = true → exec (.tickWork e) s = .next s)

/-! ### The galley, its chases and commits -/

/-- R142, R123: a host insertion of a valid image ahead of its axis takes the next SID and SEQ and is PARKED; a bad
field, or a command while GO = 1, changes no slug. The SEQ is taken at the grant, whatever the outcome (R138). -/
def Obligations.HostInserts : Prop :=
  ∀ (s : State), live s.core.dev = true →
    (s.core.dev.gl.go = false → s.core.dev.gs.granted = [] → imageReserved (stagedImage s.core.dev) = false →
      badSlug (slugOfImage (stagedImage s.core.dev)) = false → nextFresh s.core.dev s.core.dev.gs.fresh < 262144 →
      0 < sdiff (slugOfImage (stagedImage s.core.dev)).angle (published s.core.dev (slugOfImage (stagedImage s.core.dev)).axis) →
      Runs .insert s [.gl, .gs, .ax] fun t =>
        t.core.dev.slug (nextFresh s.core.dev s.core.dev.gs.fresh) =
          { slugOfImage (stagedImage s.core.dev) with seq := s.core.dev.gl.seq + 1, state := .parked, used := true } ∧
        t.core.dev.gl.result = BitVec.ofNat 32 (1 * 2 ^ 26 + nextFresh s.core.dev s.core.dev.gs.fresh) ∧
        t.core.dev.gl.rseq = s.core.dev.gl.seq + 1 ∧ t.core.dev.gl.seq = s.core.dev.gl.seq + 1 ∧
        t.core.dev.ax.axes = s.core.dev.ax.axes ∧
        ∀ m, m ≠ nextFresh s.core.dev s.core.dev.gs.fresh → t.core.dev.slug m = s.core.dev.slug m) ∧
    (s.core.dev.gl.go = false → s.core.dev.gs.granted = [] →
      imageReserved (stagedImage s.core.dev) = true ∨ badSlug (slugOfImage (stagedImage s.core.dev)) = true →
      Runs .insert s [.gl] fun t =>
        t.core.dev.gl = { s.core.dev.gl with
          cmd := 0, go := false, rseq := 0, result := BitVec.ofNat 32 (2 * 2 ^ 22), seq := s.core.dev.gl.seq + 1 }) ∧
    (s.core.dev.gl.go = true → ∀ i sid, i ∈ [Instr.insert, .remove sid, .modify sid, .modifyDur sid, .free sid] → isSid sid = true →
      Runs i s [.gl, .ic, .ne] fun t =>
        t.core.dev.gl = { s.core.dev.gl with stat := orBit s.core.dev.gl.stat 6 })

/-- R142, R124, R127, R137: the host's other slug commands on a PARKED slug named by SID and SEQ, or, FREE, on a retained final one;
the removal of an ARMED slug withdraws its entry, or is refused as COMMITTED once the entry commits; a command whose SID and SEQ do
not name a slug is STALE and changes none. Clauses on records suppose that GL_CFG selects none. -/
def Obligations.HostSlugCommands : Prop :=
  ∀ (s : State) (sid : Nat), live s.core.dev = true → isSid sid = true → s.core.dev.gl.go = false → s.core.dev.gs.granted = [] →
    ((s.core.dev.slug sid).state = .parked → Bank.get 0 s.core.dev.gl.sw 0 = (s.core.dev.slug sid).seq →
      bit s.core.dev.gl.cfg 0 = false → bit s.core.dev.gl.cfg 4 = false →
      Runs (.remove sid) s [.gl, .gs] fun t =>
        t.core.dev.slug sid = { s.core.dev.slug sid with state := .cancelled } ∧
        t.core.dev.gl.result = BitVec.ofNat 32 (7 * 2 ^ 26 + sid) ∧ ∀ m, m ≠ sid → t.core.dev.slug m = s.core.dev.slug m) ∧
    ((s.core.dev.slug sid).state = .parked → Bank.get 0 s.core.dev.gl.sw 0 = (s.core.dev.slug sid).seq →
      badSlug { s.core.dev.slug sid with
        angle := (slugOfImage (stagedImage s.core.dev)).angle, tofs := (slugOfImage (stagedImage s.core.dev)).tofs
        dur := (slugOfImage (stagedImage s.core.dev)).dur, dmin := (slugOfImage (stagedImage s.core.dev)).dmin
        dmax := (slugOfImage (stagedImage s.core.dev)).dmax, revp := (slugOfImage (stagedImage s.core.dev)).revp
        losp := (slugOfImage (stagedImage s.core.dev)).losp } = false →
      Runs (.modify sid) s [.gl, .gs, .ax, .ne, .lanes] fun t =>
        (t.core.dev.slug sid).angle = (slugOfImage (stagedImage s.core.dev)).angle ∧
        (t.core.dev.slug sid).dur = (slugOfImage (stagedImage s.core.dev)).dur ∧
        (t.core.dev.slug sid).chan = (s.core.dev.slug sid).chan ∧ (t.core.dev.slug sid).state = .parked ∧
        (t.core.dev.slug sid).seq = s.core.dev.gl.seq + 1 ∧ ∀ m, m ≠ sid → t.core.dev.slug m = s.core.dev.slug m) ∧
    ((s.core.dev.slug sid).state = .parked → Bank.get 0 s.core.dev.gl.sw 0 = (s.core.dev.slug sid).seq →
      badSlug { s.core.dev.slug sid with dur := (slugOfImage (stagedImage s.core.dev)).dur } = false → findEntry s.core.dev sid = none →
      Runs (.modifyDur sid) s [.gl, .gs, .ax, .ne, .lanes] fun t =>
        t.core.dev.slug sid = { s.core.dev.slug sid with
          dur := (slugOfImage (stagedImage s.core.dev)).dur, seq := s.core.dev.gl.seq + 1 } ∧
        ∀ m, m ≠ sid → t.core.dev.slug m = s.core.dev.slug m) ∧
    ((s.core.dev.slug sid).state = .armed → Bank.get 0 s.core.dev.gl.sw 0 = (s.core.dev.slug sid).seq →
      (committing s.core.dev sid (s.core.dev.slug sid).seq = true →
        Runs (.remove sid) s [.gl] fun t =>
          t.core.dev.gl.result = BitVec.ofNat 32 (3 * 2 ^ 26 + 4 * 2 ^ 22 + sid) ∧ t.core.dev.gl.go = false) ∧
      (∀ cs k e, committing s.core.dev sid (s.core.dev.slug sid).seq = false → findEntry s.core.dev sid = some (cs, k, e) →
        bit s.core.dev.gl.cfg 0 = false → bit s.core.dev.gl.cfg 4 = false →
        Runs (.remove sid) s [.gl, .gs, .chases] fun t =>
          t.core.dev.slug sid = { s.core.dev.slug sid with state := .cancelled } ∧
          Bank.get none (t.core.dev.chase cs).entries k = none ∧
          t.core.dev.gl.result = BitVec.ofNat 32 (7 * 2 ^ 26 + sid) ∧ ∀ m, m ≠ cs → t.core.dev.chase m = s.core.dev.chase m)) ∧
    ((s.core.dev.slug sid).state = .done → Bank.get 0 s.core.dev.gl.sw 0 = (s.core.dev.slug sid).seq →
      bit s.core.dev.gl.cfg 0 = false → s.core.dev.gs.retired.contains sid = false →
      Runs (.free sid) s [.gl, .gs] fun t =>
        t.core.dev.slug sid = { s.core.dev.slug sid with state := .free } ∧ t.core.dev.gs.freed = s.core.dev.gs.freed ++ [sid] ∧
        t.core.dev.gl.result = BitVec.ofNat 32 sid) ∧
    ((s.core.dev.slug sid).state = .free ∨ Bank.get 0 s.core.dev.gl.sw 0 ≠ (s.core.dev.slug sid).seq →
      ∀ i code n, (i, code, n) ∈
          [(Instr.remove sid, 1, 0#32), (.modify sid, 2, 1#32), (.modifyDur sid, 3, 1#32), (.free sid, 4, 0#32)] →
        Runs i s [.gl] fun t =>
          t.core.dev.gl = { s.core.dev.gl with cmd := BitVec.ofNat 32 (code * 2 ^ 24 + sid), go := false
                                               rseq := (s.core.dev.slug sid).seq, seq := s.core.dev.gl.seq + n
                                               result := BitVec.ofNat 32 (slugStateCode (s.core.dev.slug sid).state * 2 ^ 26 + 3 * 2 ^ 22 + sid) })

/-- R132, R135, R136: a chase commits its chosen entry, one in a TCLK: the entry leaves with the TCLK, the commit record enters the
FIFO and the occurrence is in flight; its edge time is T, or, when T lies less than the least lead ahead, TIME64 plus that lead, and the commit is counted late.
Without an eligible entry nothing happens. -/
def Obligations.ChaseCommits : Prop :=
  ∀ (s : State) (cs : Nat), isChase cs = true → live s.core.dev = true →
    (commitChoice s.core.dev cs = none ∨ (s.core.dev.chase cs).committed.isSome = true → exec (.chaseCommit cs) s = .next s) ∧
    (∀ k e, commitChoice s.core.dev cs = some (k, e) →
      sdiff (plusInt s.core.dev.tb.time ((leadMin e.act e.chan e.lead * 64 : Nat) : Int)) e.t ≤ 0 →
      Runs (.chaseCommit cs) s [.chases, .gs] fun t =>
        t.core.dev.chase cs = { s.core.dev.chase cs with committed := some k } ∧
        Bank.get none (landChase (t.core.dev.chase cs)).entries k = none ∧
        (∃ o, t.core.dev.gs.fifo = s.core.dev.gs.fifo ++ [.commit o] ∧ t.core.dev.gs.flight = s.core.dev.gs.flight ++ [o] ∧
          o.sid = e.sid ∧ o.e = e.t ∧ o.late = false ∧ o.chan = e.chan ∧ o.d = e.d) ∧
        t.core.dev.gs.slugs = s.core.dev.gs.slugs ∧ ∀ m, m ≠ cs → t.core.dev.chase m = s.core.dev.chase m) ∧
    (∀ k e, commitChoice s.core.dev cs = some (k, e) →
      0 < sdiff (plusInt s.core.dev.tb.time ((leadMin e.act e.chan e.lead * 64 : Nat) : Int)) e.t →
      Runs (.chaseCommit cs) s [.chases, .gs, .gl] fun t =>
        t.core.dev.chase cs = { s.core.dev.chase cs with committed := some k, latec := incSat (s.core.dev.chase cs).latec } ∧
        Bank.get none (landChase (t.core.dev.chase cs)).entries k = none ∧
        (∃ o, t.core.dev.gs.fifo = s.core.dev.gs.fifo ++ [.commit o] ∧ o.sid = e.sid ∧ o.late = true ∧
          o.e = plusInt s.core.dev.tb.time ((leadMin e.act e.chan e.lead * 64 : Nat) : Int)) ∧
        t.core.dev.gl = { s.core.dev.gl with late := incSat s.core.dev.gl.late } ∧
        ∀ m, m ≠ cs → t.core.dev.chase m = s.core.dev.chase m) ∧
    (Runs (.clrpk cs) s [.chases] fun t =>
      t.core.dev.chase cs = { s.core.dev.chase cs with peak := occ (s.core.dev.chase cs) } ∧
      ∀ m, m ≠ cs → t.core.dev.chase m = s.core.dev.chase m)

/-- R127, R139, R140, R141: the records of the commit FIFO: a slug that does not repeat is COMMITTED at its commit record and DONE
at its completion, one that repeats is inserted one turn on; a selected outcome record is written at ORHEAD, which moves on. -/
def Obligations.CommitFifo : Prop :=
  ∀ (s : State) (o : Occurrence) (rest : List CommitRec), live s.core.dev = true → s.core.dev.gs.granted = [] →
    (s.core.dev.gs.fifo = .commit o :: rest → o.rpt = false →
      Runs .commitRecord s [.gs] fun t =>
        t.core.dev.gs.fifo = rest ∧ t.core.dev.slug o.sid = { s.core.dev.slug o.sid with state := .committed } ∧
        ∀ m, m ≠ o.sid → t.core.dev.slug m = s.core.dev.slug m) ∧
    (s.core.dev.gs.fifo = .commit o :: rest → o.rpt = true →
      sdiff (published s.core.dev (s.core.dev.slug o.sid).axis) ((s.core.dev.slug o.sid).angle + 0x100000000#64) < 0 →
      Runs .commitRecord s [.gs, .gl, .ax] fun t =>
        t.core.dev.gs.fifo = rest ∧
        t.core.dev.slug o.sid = { s.core.dev.slug o.sid with
          angle := (s.core.dev.slug o.sid).angle + 0x100000000#64, seq := s.core.dev.gl.seq + 1, state := .parked, metFull := false } ∧
        t.core.dev.gl = { s.core.dev.gl with seq := s.core.dev.gl.seq + 1 } ∧ t.core.dev.ax.axes = s.core.dev.ax.axes ∧
        ∀ m, m ≠ o.sid → t.core.dev.slug m = s.core.dev.slug m) ∧
    (s.core.dev.gs.fifo = .complete o :: rest → o.rpt = false → bit s.core.dev.gl.cfg 0 = false →
      recordSelected s.core.dev (doneRecord o) = false →
      Runs .actionComplete s [.gs] fun t =>
        t.core.dev.gs.fifo = rest ∧ t.core.dev.slug o.sid = { s.core.dev.slug o.sid with state := .done } ∧
        ∀ m, m ≠ o.sid → t.core.dev.slug m = s.core.dev.slug m) ∧
    (s.core.dev.gs.fifo = .complete o :: rest → o.rpt = false → bit s.core.dev.gl.cfg 0 = false →
      recordSelected s.core.dev (doneRecord o) = true → o.tripped = false →
      (s.core.dev.gl.orhead + 1) % 4096 ≠ s.core.dev.gl.ortail →
      Runs .actionComplete s [.gs, .gl, .mem, .ic, .ne] fun t =>
        t.core.dev.gl = { s.core.dev.gl with orhead := (s.core.dev.gl.orhead + 1) % 4096 } ∧
        t.core.dev.read128 (outcomeBase + 2 * s.core.dev.gl.orhead) = recordImage (doneRecord o) ∧
        (t.core.dev.slug o.sid).state = .done ∧
        ∀ a, a ≠ outcomeBase + 2 * s.core.dev.gl.orhead → a ≠ outcomeBase + 2 * s.core.dev.gl.orhead + 1 →
          t.core.dev.read64 a = s.core.dev.read64 a) ∧
    (s.core.dev.gs.fifo = [] → exec .commitRecord s = .next s ∧ exec .actionComplete s = .next s)

/-- R138, R325, R326, R327, R144, R393: a grant slot takes the request that stands alone, with the published angle of its axis and,
for an insertion or a modification, the next SEQ; the operation granted first completes as a whole; compaction starts, takes one slot
in 16 for one SID, and ends; WMAX is cleared; an armed event group presents its
templates. -/
def Obligations.GalleyArbitration : Prop :=
  ∀ (s : State), live s.core.dev = true →
    (∀ w n, s.core.dev.gs.presented = [w] → w.group = none → s.core.dev.gs.granted.length < 16 → s.core.dev.gl.compacting = false →
      n = (if w.op = .insert ∨ w.op = .modify ∨ w.op = .modifyDur then s.core.dev.gl.seq + 1 else s.core.dev.gl.seq) →
      Runs .galleyGrant s [.gs, .gl] fun t =>
        t.core.dev.gs = { s.core.dev.gs with
          presented := [], granted := s.core.dev.gs.granted ++ [{ w with
            pub := published s.core.dev w.slug.axis, newSeq := if n = s.core.dev.gl.seq then w.newSeq else n }] } ∧
        t.core.dev.gl = { s.core.dev.gl with seq := n, wmax := max s.core.dev.gl.wmax w.age }) ∧
    (∀ w rest, s.core.dev.gs.granted = w :: rest → w.who = .host → w.op = .free → (s.core.dev.slug w.sid).state = .done →
      (s.core.dev.slug w.sid).seq = w.seq → bit s.core.dev.gl.cfg 0 = false →
      Runs .galleyOpComplete s [.gs, .gl] fun t =>
        t.core.dev.gs.granted = rest ∧ t.core.dev.slug w.sid = { s.core.dev.slug w.sid with state := .free } ∧
        t.core.dev.gl.go = false ∧ t.core.dev.gl.result = BitVec.ofNat 32 w.sid) ∧
    (s.core.dev.gl.compacting = false →
      Runs .compact s [.gl, .lo] fun t =>
        t.core.dev.gl.compacting = true ∧ t.core.dev.lo = { s.core.dev.lo with compact := LongOp.begin }) ∧
    (s.core.dev.gl.compacting = true → 15 ≤ s.core.dev.gl.slots → s.core.dev.lo.compact.position + 1 < 262144 →
      Runs .galleyGrant s [.gs, .gl, .lo] fun t =>
        t.core.dev.lo.compact.position = s.core.dev.lo.compact.position + 1 ∧ t.core.dev.gl = { s.core.dev.gl with slots := 0 } ∧
        t.core.dev.gs.granted = s.core.dev.gs.granted ∧
        ((s.core.dev.slug s.core.dev.lo.compact.position).state = .done →
          (t.core.dev.slug s.core.dev.lo.compact.position).state = .free) ∧
        ∀ m, m ≠ s.core.dev.lo.compact.position → t.core.dev.slug m = s.core.dev.slug m) ∧
    (s.core.dev.gl.compacting = true →
      Runs .compactionDone s [.gl, .gs, .lo, .ic, .ne] fun t =>
        t.core.dev.gl.compacting = false ∧ t.core.dev.lo.compact.state = 2 ∧ t.core.dev.lo.compact.position = 262143) ∧
    (Runs .clrw s [.gl] fun t => t.core.dev.gl = { s.core.dev.gl with wmax := 0 }) ∧
    (∀ g, g < 256 → (s.core.dev.group g).enable = true → 1 ≤ fld (s.core.dev.group g).trigger 28 4 → fld (s.core.dev.group g).trigger 28 4 ≤ 3 →
      ((s.core.dev.gs.presented ++ s.core.dev.gs.granted).any fun w => w.group == some g) = false →
      Runs (.eventGroupTrigger g) s [.ds, .gs] fun t =>
        t.core.dev.group g = { s.core.dev.group g with fired := incSat (s.core.dev.group g).fired } ∧
        t.core.dev.gs.presented.length = s.core.dev.gs.presented.length + (s.core.dev.group g).templates.length / 32 ∧
        t.core.dev.gs.slugs = s.core.dev.gs.slugs)

/-- R143: a host reads the galley window: the first word of a slug's image, the other seven latched behind it. -/
def Obligations.GalleyWindow : Prop :=
  ∀ (s : State) (p sid : Nat), p < 2 → isSid sid = true → PortOpen p s.core.dev →
    Runs (.galleyWindowRead p (32 * sid)) s [.hi] fun t =>
      Bank.get 0 t.core.dev.hi.data p = (slugImage sid (s.core.dev.slug sid)).setWidth 32 ∧
      (t.core.dev.path p).latch.length = 7 ∧
      ((t.core.dev.path p).latch.getD 6 (0, 0)).2 = (slugImage sid (s.core.dev.slug sid) >>> 224).setWidth 32


/-! ### Channels and counters -/

/-- R119, R174, R176, R181, R183, R229, R270: the actions of committed slugs on a channel that shows no encoder emulation. Each
takes its effect at its edge time, and the occurrence it belongs to enters the commit FIFO as complete: at once for the edges, the
toggle, an emulation step, a wake and a doorbell; at the pulse's end for a pulse. An emulation step nearer than EMGAP to the one
before it waits, with EM_LAG. On a channel that shows an emulation an edge changes no level and sets ECOLL. -/
def Obligations.ActionsOfSlugs : Prop :=
  ∀ (s : State) (n sid : Nat) (e : Time64), isChannel n = true → isSid sid = true → live s.core.dev = true →
    (emulated s.core.dev n = false →
      ∀ i v, (i, v) ∈ [(Instr.edgeRise n sid e, true), (.edgeFall n sid e, false), (.toggle n sid e, !(s.core.dev.chOut n).lvl)] →
        Runs i s [.gs, .ch, .ic, .ne, .fps, .lk, .heads] fun t =>
          (t.core.dev.chOut n).lvl = v ∧ (t.core.dev.chOut n).pulseEnd = (s.core.dev.chOut n).pulseEnd ∧
          (findOcc s.core.dev sid e = none → t.core.dev.gs = s.core.dev.gs) ∧
          (∀ o, findOcc s.core.dev sid e = some o →
            t.core.dev.gs.fifo = s.core.dev.gs.fifo ++ [.complete (markCut s.core.dev { o with begun := true })] ∧
            t.core.dev.gs.slugs = s.core.dev.gs.slugs) ∧
          ∀ m, m ≠ n → t.core.dev.chOut m = s.core.dev.chOut m) ∧
    (∀ dur, isDuration dur = true → emulated s.core.dev n = false →
      (reachedLocal s.core.dev (actsAt s.core.dev n sid e + dur) = false →
        Runs (.pulse n sid e dur) s [.gs, .ch, .ic, .ne, .fps, .lk, .heads] fun t =>
          (t.core.dev.chOut n).lvl = true ∧
          (t.core.dev.chOut n).pulseEnd = some (match (s.core.dev.chOut n).pulseEnd with
            | some p => max p (actsAt s.core.dev n sid e + dur)
            | none => actsAt s.core.dev n sid e + dur) ∧
          t.core.dev.gs.fifo = s.core.dev.gs.fifo ∧ ∀ m, m ≠ n → t.core.dev.chOut m = s.core.dev.chOut m) ∧
      (reachedLocal s.core.dev (actsAt s.core.dev n sid e + dur) = true →
        Runs (.pulse n sid e dur) s [.gs, .ch, .ic, .ne, .fps, .lk, .heads] fun t =>
          (t.core.dev.chOut n).lvl = false ∧ (t.core.dev.chOut n).pulseEnd = (s.core.dev.chOut n).pulseEnd ∧
          ∀ m, m ≠ n → t.core.dev.chOut m = s.core.dev.chOut m)) ∧
    (∀ i, i ∈ [Instr.edgeRise n sid e, .edgeFall n sid e] → emulated s.core.dev n = true → findOcc s.core.dev sid e = none →
      Runs i s [.ch] fun t =>
        t.core.dev.chOut n = { s.core.dev.chOut n with stat := orBit (s.core.dev.chOut n).stat 4 } ∧
        ∀ m, m ≠ n → t.core.dev.chOut m = s.core.dev.chOut m) ∧
    (∀ dur, isDuration dur = true → bit (s.core.dev.chCap n).capc 30 = true → bit (s.core.dev.chCap n).caps 6 = false →
      Runs (.captureArm n sid e dur) s [.ch, .gs] fun t =>
        t.core.dev.chCap n = { s.core.dev.chCap n with
          caps := orBit (s.core.dev.chCap n).caps 6, pre := 0, openAt := actsAt s.core.dev n sid e, closeFirst := decide (dur = 0)
          closeAt := if dur = 0 then none else some (actsAt s.core.dev n sid e + dur) } ∧
        t.core.dev.gs.fifo = s.core.dev.gs.fifo ∧ ∀ m, m ≠ n → t.core.dev.chCap m = s.core.dev.chCap m) ∧
    (∀ dur, isDuration dur = true → bit (s.core.dev.chCap n).capc 30 = false →
      Runs (.captureArm n sid e dur) s [.gs] fun t =>
        (findOcc s.core.dev sid e = none → t.core.dev.gs = s.core.dev.gs) ∧
        ∀ o, findOcc s.core.dev sid e = some o →
          t.core.dev.gs.fifo = s.core.dev.gs.fifo ++ [.complete (markCut s.core.dev { o with begun := true })]) ∧
    (∀ a dir, isAxis a = true → emEn (s.core.dev.chEm n) = true → emSrc (s.core.dev.chEm n) = false →
      (s.core.dev.chEm n).moves = [] →
      dir = (match findOcc s.core.dev sid e with | some o => o.back | none => (s.core.dev.axis a).st.dir) →
      ((∀ k, (s.core.dev.chEm n).last = some k → k + emGap (s.core.dev.chEm n) * 64 ≤ actsAt s.core.dev n sid e) →
        reachedLocal s.core.dev (actsAt s.core.dev n sid e) = true →
        Runs (.emulationStep n a sid e) s [.gs, .ch, .ic, .ne, .fps, .lk, .heads] fun t =>
          (t.core.dev.chEm n).ec = (if emBack (s.core.dev.chEm n) dir then (s.core.dev.chEm n).ec - 1 else (s.core.dev.chEm n).ec + 1) ∧
          (t.core.dev.chEm n).last = some (actsAt s.core.dev n sid e) ∧ ∀ m, m ≠ n → t.core.dev.chEm m = s.core.dev.chEm m) ∧
      (∀ k, (s.core.dev.chEm n).last = some k → actsAt s.core.dev n sid e < k + emGap (s.core.dev.chEm n) * 64 →
        reachedLocal s.core.dev (k + emGap (s.core.dev.chEm n) * 64) = false →
        Runs (.emulationStep n a sid e) s [.gs, .ch] fun t =>
          t.core.dev.chEm n = { s.core.dev.chEm n with
            last := some (k + emGap (s.core.dev.chEm n) * 64)
            moves := [⟨k + emGap (s.core.dev.chEm n) * 64, if emBack (s.core.dev.chEm n) dir then -1 else 1, false⟩] } ∧
          bit (t.core.dev.chOut n).stat 6 = true ∧ ∀ m, m ≠ n → t.core.dev.chEm m = s.core.dev.chEm m)) ∧
    (∀ c, 2 ≤ n / 16 % 4 → n / 16 % 4 = c → findOcc s.core.dev sid e = none → (s.core.dev.eng (n % 16)).online = true →
      (c = 3 → (s.core.dev.eng (n % 16)).chalted = false) → bit (s.core.dev.eng (n % 16)).ready c = false →
      (s.core.dev.eng (n % 16)).busy = false →
      Runs (.engineWake n sid e) s [.ne] fun t =>
        t.core.dev.eng (n % 16) = { s.core.dev.eng (n % 16) with
          ready := (s.core.dev.eng (n % 16)).ready ||| BitVec.ofNat 4 (2 ^ c) } ∧
        ∀ m, m ≠ n % 16 → t.core.dev.eng m = s.core.dev.eng m) ∧
    ((s.core.dev.source (n % 256)).pend = false → (s.core.dev.source (n % 256)).act = false →
      (s.core.dev.source (n % 256)).hsEnd ≤ s.core.dev.tb.tclk → (s.core.dev.source (n % 256)).hsWait = false →
      Runs (.doorbell n sid e) s [.ic, .ne, .gs] fun t =>
        t.core.dev.source (n % 256) = { s.core.dev.source (n % 256) with
          pend := true, firedAt := some s.core.dev.tb.tclk, hsEnd := s.core.dev.tb.tclk + 6 } ∧
        ∀ m, m ≠ n % 256 → t.core.dev.source m = s.core.dev.source m)

/-- R171, R172, R175, R177–R182, R184, R215: enabling a channel, whose count is 0 and whose level is IDL in the next TCLK, and the
refusal with CFG_ERR; disabling it; the pending end of a pulse; the forces, three TCLK later, ignored while one is on its way, or
refused; the quoin locks; an encoder emulation enabled or refused, and one step of it toward its axis, which shows three TCLK later. -/
def Obligations.OutputStages : Prop :=
  ∀ (s : State) (n : Nat), isChannel n = true → live s.core.dev = true →
    (chEn (s.core.dev.chOut n) = false → enableRefused s.core.dev n = false →
      (freeEntries s.core.dev).filter (fun e => entryOfChan n e.2.2 && e.2.2.supp) = [] →
      Runs (.channelEnable n) s [.ch] fun t =>
        t.core.dev.chOut n = { s.core.dev.chOut n with
          ctl := orBit (s.core.dev.chOut n).ctl 31, starting := true, rel := true, pulseEnd := none, reqs := [] } ∧
        t.core.dev.chCnt n = { s.core.dev.chCnt n with go := false, goCmd := false, halt := false, tstart := false } ∧
        (nextOut t.core.dev n).enNow = true ∧
        (nextCnt t.core.dev n).run = (chMode (s.core.dev.chOut n) != 2 && chMode (s.core.dev.chOut n) != 3 && !lnkHold (s.core.dev.chCnt n)) ∧
        ((s.core.dev.chCnt n).wr = none → (nextCnt t.core.dev n).cnt = 0) ∧
        ∀ m, m ≠ n → t.core.dev.chOut m = s.core.dev.chOut m ∧ t.core.dev.chCnt m = s.core.dev.chCnt m) ∧
    (emulated s.core.dev n = false → (s.core.dev.chOut n).reqs = [] →
      ((openTclk true n s.core.dev).chOut n).lvl = outIdl (s.core.dev.chOut n)) ∧
    (chEn (s.core.dev.chOut n) = false → enableRefused s.core.dev n = true →
      Runs (.channelEnable n) s [.ch] fun t =>
        t.core.dev.chOut n = { s.core.dev.chOut n with stat := orBit (s.core.dev.chOut n).stat 3 } ∧
        ∀ m, m ≠ n → t.core.dev.chOut m = s.core.dev.chOut m) ∧
    (chEn (s.core.dev.chOut n) = true →
      Runs (.channelDisable n) s [.chases, .ch] fun t =>
        t.core.dev.chOut n = { s.core.dev.chOut n with
          ctl := clrBit (s.core.dev.chOut n).ctl 31, starting := false, reqs := (s.core.dev.chOut n).reqs.filter (!·.forced) } ∧
        t.core.dev.chCnt n = { s.core.dev.chCnt n with go := false, goCmd := false, tstart := false } ∧
        (nextCnt t.core.dev n).run = false ∧
        ((s.core.dev.chCnt n).wr = none → (s.core.dev.chCnt n).rst = false → (nextCnt t.core.dev n).cnt = (s.core.dev.chCnt n).cnt) ∧
        (∀ cs k x, (freeEntries s.core.dev).filter (fun e => entryOfChan n e.2.2) = [(cs, k, x)] →
          Bank.get none (t.core.dev.chase cs).entries k = some { x with supp := true }) ∧
        ∀ m, m ≠ n → t.core.dev.chOut m = s.core.dev.chOut m ∧ t.core.dev.chCnt m = s.core.dev.chCnt m) ∧
    ((s.core.dev.chOut n).pulseEnd = none → exec (.pulseEnd n) s = .next s) ∧
    (∀ fin, (s.core.dev.chOut n).pulseEnd = some fin → emulated s.core.dev n = false →
      (s.core.dev.gs.flight.filter fun o => o.chan == n && o.act == 2 && o.begun && decide (o.endAt ≤ fin)) = [] →
      Runs (.pulseEnd n) s [.gs, .ch, .ic, .ne, .fps, .lk, .heads] fun t =>
        (t.core.dev.chOut n).lvl = false ∧ (t.core.dev.chOut n).pulseEnd = none ∧ t.core.dev.gs = s.core.dev.gs ∧
        ∀ m, m ≠ n → t.core.dev.chOut m = s.core.dev.chOut m) ∧
    (∀ i v, (i, v) ∈ [(Instr.frise n, true), (.ffall n, false)] →
      ((isRemote n || !chTakes (s.core.dev.chOut n) || pairEnabled (s.core.dev.pair (n / 2)) || emulated s.core.dev n) = false →
        (forcing v (s.core.dev.chOut n) = false →
          Runs i s [.ch] fun t =>
            t.core.dev.chOut n = { s.core.dev.chOut n with
              reqs := (s.core.dev.chOut n).reqs ++ [⟨s.core.dev.tb.tclk + 3, 0, v, true⟩] } ∧
            ∀ m, m ≠ n → t.core.dev.chOut m = s.core.dev.chOut m) ∧
        (forcing v (s.core.dev.chOut n) = true → exec i s = .next s)) ∧
      ((isRemote n || !chTakes (s.core.dev.chOut n) || pairEnabled (s.core.dev.pair (n / 2)) || emulated s.core.dev n) = true →
        Runs i s [.ch] fun t =>
          t.core.dev.chOut n = { s.core.dev.chOut n with
            stat := if emulated s.core.dev n then orBit (orBit (s.core.dev.chOut n).stat 7) 4 else orBit (s.core.dev.chOut n).stat 7 } ∧
          ∀ m, m ≠ n → t.core.dev.chOut m = s.core.dev.chOut m)) ∧
    (∀ v, (Runs (.quoinClose v) s [.ch] fun t =>
        t.core.dev.ch = { s.core.dev.ch with quoin := s.core.dev.ch.quoin ||| (v &&& ~~~s.core.dev.ch.quoinOpened) }) ∧
      (Runs (.quoinOpen v) s [.ch] fun t =>
        t.core.dev.ch = { s.core.dev.ch with
          quoin := s.core.dev.ch.quoin &&& ~~~v, quoinOpened := s.core.dev.ch.quoinOpened ||| v })) ∧
    (isRemote n = false → emEn (s.core.dev.chEm n) = false →
      emRefused s.core.dev n { s.core.dev.chEm n with emc := orBit (s.core.dev.chEm n).emc 31 &&& 0xF8FF0FFF#32 } = true →
      Runs (.emen n) s [.ch] fun t =>
        emEn (t.core.dev.chEm n) = false ∧ (t.core.dev.chEm n).ec = (s.core.dev.chEm n).ec ∧
        bit (t.core.dev.chOut n).stat 3 = true ∧ ∀ m, m ≠ n → t.core.dev.chEm m = s.core.dev.chEm m) ∧
    (isRemote n = false → emEn (s.core.dev.chEm n) = false →
      emRefused s.core.dev n { s.core.dev.chEm n with emc := orBit (s.core.dev.chEm n).emc 31 &&& 0xF8FF0FFF#32 } = false →
      Runs (.emen n) s [.ch, .ic, .ne, .fps, .lk, .heads] fun t =>
        emEn (t.core.dev.chEm n) = true ∧
        (emSrc (s.core.dev.chEm n) = false → (t.core.dev.chEm n).ec = (s.core.dev.chEm n).ec) ∧
        (emSrc (s.core.dev.chEm n) = true → (t.core.dev.chEm n).ec = emTarget s.core.dev (s.core.dev.chEm n)) ∧
        (t.core.dev.chEm n).last = none ∧ (t.core.dev.chEm n).moves = [] ∧ ∀ m, m ≠ n → t.core.dev.chEm m = s.core.dev.chEm m) ∧
    ((emEn (s.core.dev.chEm n) = false ∨ emSrc (s.core.dev.chEm n) = false ∨
        (s.core.dev.axis (emAxis (s.core.dev.chEm n))).st.valid = false) → exec (.emulationAxisStep n) s = .next s) ∧
    (emEn (s.core.dev.chEm n) = true → emSrc (s.core.dev.chEm n) = true →
      (s.core.dev.axis (emAxis (s.core.dev.chEm n))).st.valid = true →
      (∀ k, (s.core.dev.chEm n).last = some k → k + emGap (s.core.dev.chEm n) * 64 ≤ s.core.dev.localNow) →
      emTarget s.core.dev (s.core.dev.chEm n) = (s.core.dev.chEm n).ec + 1 → 2 ≤ emS s.core.dev (s.core.dev.chEm n) →
      Runs (.emulationAxisStep n) s [.ch] fun t =>
        t.core.dev.chOut n = s.core.dev.chOut n ∧
        (∃ g, g ≤ 64 ∧ t.core.dev.chEm n = { s.core.dev.chEm n with
          ec := (s.core.dev.chEm n).ec + 1, last := some s.core.dev.localNow
          moves := (s.core.dev.chEm n).moves ++ [⟨s.core.dev.localNow + 128 + g, 1, true⟩] }) ∧
        ∀ m, m ≠ n → t.core.dev.chEm m = s.core.dev.chEm m)

/-- R167–R173, R210, R213, R214, R221, R224: a terminal count returns the counter to 0 in the next TCLK and stops a one-shot; a
compare match makes a level request two TCLK later at its grain; writes of the compares and the period land at the end of the TCLK, in
the value in force or in the shadow; a reload transfers the shadows as they stood before those writes, and a closed quoin holds it
back; a write of the count, alone and in a chain of two, is the count of the next TCLK. The clauses on terminal counts and matches
suppose that the channel's own event selects no action and no interrupt record, and that no reload goes with the terminal count. -/
def Obligations.CountersAndCompares : Prop :=
  ∀ (s : State) (n : Nat), isChannel n = true → live s.core.dev = true →
    (terminalNow s.core.dev n = false → exec (.counterTerminal n) s = .next s) ∧
    (terminalNow s.core.dev n = true → stageAbove s.core.dev n = none →
      fld (s.core.dev.chCnt n).mactNow 21 3 = 0 → bit (Bank.get 0 s.core.dev.ic.chev (n / 8)) (4 * (n % 8)) = false →
      2 ≤ chRld (s.core.dev.chOut n) →
      Runs (.counterTerminal n) s [.ch] fun t =>
        t.core.dev.chCnt n = { s.core.dev.chCnt n with term := true } ∧
        t.core.dev.ch.out = s.core.dev.ch.out ∧ (∀ m, m ≠ n → t.core.dev.chCnt m = s.core.dev.chCnt m) ∧
        (countEnds s.core.dev n = true → chEn (s.core.dev.chOut n) = true → (s.core.dev.chCnt n).wr = none →
          (s.core.dev.chCnt n).go = false → (s.core.dev.chCnt n).halt = false → (s.core.dev.chOut n).starting = false →
          (nextCnt t.core.dev n).cnt = 0 ∧ (nextCnt t.core.dev n).run = (chMode (s.core.dev.chOut n) != 2))) ∧
    (∀ rise, compareHits s.core.dev n rise = false → exec (.compareMatch n rise) s = .next s) ∧
    (compareHits s.core.dev n true = true → isRemote n = false →
      fld (s.core.dev.chCnt n).mactNow 15 3 = 0 → bit (Bank.get 0 s.core.dev.ic.chev (n / 8)) (4 * (n % 8) + 1) = false →
      Runs (.compareMatch n true) s [.ch] fun t =>
        t.core.dev.chOut n = { s.core.dev.chOut n with
          reqs := (s.core.dev.chOut n).reqs ++
            [⟨s.core.dev.tb.tclk + 2, BitVec.ofNat 6 (fld (s.core.dev.chOut n).cmpg 8 6), true, false⟩] } ∧
        t.core.dev.chCnt n = { s.core.dev.chCnt n with mr := true } ∧ ∀ m, m ≠ n → t.core.dev.chOut m = s.core.dev.chOut m) ∧
    (∀ v, (∀ r, r = 12 ∨ r = 16 →
        Runs (.compareWrite n r v) s [.ch] fun t =>
          t.core.dev.chOut n = { s.core.dev.chOut n with
            writes := (s.core.dev.chOut n).writes ++ [⟨!chShd (s.core.dev.chOut n), r, v⟩] } ∧
          ∀ m, m ≠ n → t.core.dev.chOut m = s.core.dev.chOut m) ∧
      (Runs (.compareWrite n 20 v) s [.ch] fun t =>
        t.core.dev.chOut n = { s.core.dev.chOut n with
          writes := (s.core.dev.chOut n).writes ++ [⟨!chShd (s.core.dev.chOut n), 20, v &&& 0x3F3F#32⟩] } ∧
        ∀ m, m ≠ n → t.core.dev.chOut m = s.core.dev.chOut m) ∧
      (3 ≤ v.toNat → Runs (.periodWrite n v) s [.ch] fun t =>
        t.core.dev.chOut n = { s.core.dev.chOut n with
          writes := (s.core.dev.chOut n).writes ++ [⟨!chShd (s.core.dev.chOut n), 8, v⟩] } ∧
        ∀ m, m ≠ n → t.core.dev.chOut m = s.core.dev.chOut m) ∧
      (v.toNat < 2 → Runs (.periodWrite n v) s [.ch] fun t =>
        t.core.dev.chOut n = { s.core.dev.chOut n with stat := orBit (s.core.dev.chOut n).stat 3 } ∧
        ∀ m, m ≠ n → t.core.dev.chOut m = s.core.dev.chOut m)) ∧
    (∀ o v, (o.rel || (topNow s.core.dev n && chRld o == 1)) = false →
      (o.writes = [⟨true, 12, v⟩] → (landOut s.core.dev n o).cmpr = v ∧ (landOut s.core.dev n o).per = o.per) ∧
      (o.writes = [⟨true, 8, v⟩] → (landOut s.core.dev n o).per = v ∧ (landOut s.core.dev n o).cmpr = o.cmpr) ∧
      (o.writes = [⟨false, 16, v⟩] → landOut s.core.dev n o = { o with scmpf := v, shp := true })) ∧
    (∀ o v, o.rel = true → chQen o = false ∨ bit s.core.dev.ch.quoinStart (chQg o) = false →
      (o.writes = [] → landOut s.core.dev n o =
        { o with per := o.sper, cmpr := o.scmpr, cmpf := o.scmpf, cmpg := o.scmpg, shp := false }) ∧
      (o.writes = [⟨false, 12, v⟩] →
        (landOut s.core.dev n o).cmpr = o.scmpr ∧ (landOut s.core.dev n o).scmpr = v ∧ (landOut s.core.dev n o).shp = true)) ∧
    (∀ o, o.rel = true → chQen o = true → bit s.core.dev.ch.quoinStart (chQg o) = true → o.writes = [] →
      landOut s.core.dev n o = { o with stat := orBit o.stat 8 }) ∧
    (Runs (.reload n) s [.ch] fun t =>
      t.core.dev.chOut n = { s.core.dev.chOut n with rel := true } ∧ ∀ m, m ≠ n → t.core.dev.chOut m = s.core.dev.chOut m) ∧
    (∀ v, stageAbove s.core.dev n = none → isStage s.core.dev n = false →
      Runs (.countWrite n v) s [.ch] fun t =>
        t.core.dev.chCnt n = { s.core.dev.chCnt n with wr := some v } ∧ (nextCnt t.core.dev n).cnt = v ∧
        ∀ m, m ≠ n → t.core.dev.chCnt m = s.core.dev.chCnt m) ∧
    (∀ a v, stageAbove s.core.dev n = some a →
      Runs (.chainCountWrite n v) s [.ch] fun t =>
        t.core.dev.chCnt n = { s.core.dev.chCnt n with wshadow := some v } ∧ ∀ m, m ≠ n → t.core.dev.chCnt m = s.core.dev.chCnt m) ∧
    (∀ v w, stageAbove s.core.dev n = none → isStage s.core.dev n = true → 1 ≤ n → isStage s.core.dev (n - 1) = false →
      (s.core.dev.chCnt (n - 1)).wshadow = some w →
      Runs (.chainCountWrite n v) s [.ch] fun t =>
        (t.core.dev.chCnt n).wr = some v ∧ (t.core.dev.chCnt (n - 1)).wr = some w ∧ (t.core.dev.chCnt (n - 1)).wshadow = none ∧
        (nextCnt t.core.dev n).cnt = v ∧ (nextCnt t.core.dev (n - 1)).cnt = w ∧
        ∀ m, m ≠ n → m ≠ n - 1 → t.core.dev.chCnt m = s.core.dev.chCnt m)

/-- R213, R215, R217–R219, R226, R229, R230: the counter commands on a channel and over its group of eight, each ignored with
START_IGN while the channel is disabled, and in force in the next TCLK, where a stop prevails over a start; a software capture, which
takes the counts of a chain's higher stages with it; the end of a capture window. The clause on resets supposes that no terminal count
selects an action. -/
def Obligations.CounterCommands : Prop :=
  ∀ (s : State) (n : Nat), isChannel n = true → live s.core.dev = true →
    (∀ i, i ∈ [Instr.counterStart n, .counterStop n, .counterTstart n] → chEn (s.core.dev.chOut n) = false →
      Runs i s [.ch] fun t =>
        t.core.dev.chCnt n = { s.core.dev.chCnt n with tstat := orBit (s.core.dev.chCnt n).tstat 2 } ∧
        t.core.dev.ch.out = s.core.dev.ch.out ∧ ∀ m, m ≠ n → t.core.dev.chCnt m = s.core.dev.chCnt m) ∧
    (chEn (s.core.dev.chOut n) = true → isStage s.core.dev n = false →
      (Runs (.counterStop n) s [.ch] fun t =>
        t.core.dev.chCnt n = { s.core.dev.chCnt n with halt := true, tstart := false } ∧ (nextCnt t.core.dev n).run = false ∧
        ∀ m, m ≠ n → t.core.dev.chCnt m = s.core.dev.chCnt m) ∧
      (Runs (.counterTstart n) s [.ch] fun t =>
        t.core.dev.chCnt n = { s.core.dev.chCnt n with tstart := !(s.core.dev.chCnt n).halt } ∧
        ∀ m, m ≠ n → t.core.dev.chCnt m = s.core.dev.chCnt m) ∧
      (chMode (s.core.dev.chOut n) = 2 → (s.core.dev.chCnt n).run = true → lnkRtrg (s.core.dev.chCnt n) = false →
        (s.core.dev.chCnt n).rst = false →
        Runs (.counterStart n) s [.ch] fun t =>
          t.core.dev.chCnt n = { s.core.dev.chCnt n with tstat := orBit (s.core.dev.chCnt n).tstat 2 } ∧
          ∀ m, m ≠ n → t.core.dev.chCnt m = s.core.dev.chCnt m) ∧
      (chMode (s.core.dev.chOut n) ≠ 2 ∨ (s.core.dev.chCnt n).run = false ∨ lnkRtrg (s.core.dev.chCnt n) = true →
        Runs (.counterStart n) s [.ch] fun t =>
          t.core.dev.chCnt n = { s.core.dev.chCnt n with go := true, goCmd := true } ∧
          (nextCnt t.core.dev n).run = !(s.core.dev.chCnt n).halt ∧
          (chMode (s.core.dev.chOut n) = 2 → (s.core.dev.chCnt n).halt = false → (s.core.dev.chCnt n).wr = none →
            (nextCnt t.core.dev n).cnt = 0) ∧
          t.core.dev.ch.out = s.core.dev.ch.out ∧ ∀ m, m ≠ n → t.core.dev.chCnt m = s.core.dev.chCnt m)) ∧
    (∀ mask, mask < 256 → (∀ k, k < 8 → isStage s.core.dev (n / 8 * 8 + k) = false) →
      (Runs (.gstart n mask) s [.ch] fun t =>
        (∀ k, k < 8 → Nat.testBit mask k = true → chEn (s.core.dev.chOut (n / 8 * 8 + k)) = true →
          chMode (s.core.dev.chOut (n / 8 * 8 + k)) ≠ 2 ∨ (s.core.dev.chCnt (n / 8 * 8 + k)).run = false →
          (t.core.dev.chCnt (n / 8 * 8 + k)) = { s.core.dev.chCnt (n / 8 * 8 + k) with go := true, goCmd := true } ∧
          (nextCnt t.core.dev (n / 8 * 8 + k)).run = !(s.core.dev.chCnt (n / 8 * 8 + k)).halt) ∧
        (∀ m, m / 8 ≠ n / 8 ∨ Nat.testBit mask (m % 8) = false → t.core.dev.chCnt m = s.core.dev.chCnt m)) ∧
      ((∀ k, k < 8 → fld (s.core.dev.chCnt (n / 8 * 8 + k)).mactNow 21 3 = 0) →
        Runs (.greset n mask) s [.ch, .ic, .ne] fun t =>
          (∀ k, k < 8 → Nat.testBit mask k = true → chEn (s.core.dev.chOut (n / 8 * 8 + k)) = true →
            (t.core.dev.chCnt (n / 8 * 8 + k)) = { s.core.dev.chCnt (n / 8 * 8 + k) with rst := true, term := true } ∧
            ((s.core.dev.chCnt (n / 8 * 8 + k)).wr = none → (nextCnt t.core.dev (n / 8 * 8 + k)).cnt = 0) ∧
            (nextCnt t.core.dev (n / 8 * 8 + k)).down = false) ∧
          (∀ m, m / 8 ≠ n / 8 ∨ Nat.testBit mask (m % 8) = false → t.core.dev.chCnt m = s.core.dev.chCnt m))) ∧
    ((isRemote n || !bit (s.core.dev.chCap n).capc 31) = true → exec (.swcap n) s = .next s) ∧
    ((isRemote n || !bit (s.core.dev.chCap n).capc 31) = false → fld (s.core.dev.chCap n).capc 28 2 = 0 →
      bit (s.core.dev.chCap n).caps 6 = false →
      (chTakes (s.core.dev.chOut n) = true →
        fld (s.core.dev.chCnt n).mactNow 3 3 = 0 ∧ bit (Bank.get 0 s.core.dev.ic.chev (n / 8)) (4 * (n % 8) + 3) = false) →
      Runs (.swcap n) s [.ch] fun t =>
        (t.core.dev.chCap n).cap0 = (s.core.dev.chCnt n).cnt ∧ (t.core.dev.chCap n).cap0t = s.core.dev.tb.time ∧
        bit (t.core.dev.chCap n).caps 1 = true ∧ (t.core.dev.chCap n).cap1 = (s.core.dev.chCap n).cap1 ∧
        (bit (s.core.dev.chCap n).caps 1 = true → bit (t.core.dev.chCap n).caps 3 = true) ∧
        bit (t.core.dev.chCnt n).tstat 1 = true ∧
        (isStage s.core.dev n = false → ∀ m, m ∈ stagesAbove s.core.dev n → (t.core.dev.chCap m).cap0 = (s.core.dev.chCnt m).cnt) ∧
        ∀ m, m ≠ n → m ∉ stagesAbove s.core.dev n → t.core.dev.chCap m = s.core.dev.chCap m) ∧
    (bit (s.core.dev.chCap n).caps 6 = false → exec (.captureWindowClose n) s = .next s) ∧
    (bit (s.core.dev.chCap n).caps 6 = true →
      Runs (.captureWindowClose n) s [.ch, .gs] fun t =>
        bit (t.core.dev.chCap n).caps 6 = false ∧ (t.core.dev.chCap n).closeFirst = false ∧
        (t.core.dev.chCap n).cap0 = (s.core.dev.chCap n).cap0 ∧ (t.core.dev.chCap n).cap1 = (s.core.dev.chCap n).cap1 ∧
        t.core.dev.gs.slugs = s.core.dev.gs.slugs ∧ ∀ m, m ≠ n → t.core.dev.chCap m = s.core.dev.chCap m)

/-! ### Bridge pairs and trips -/

/-- R190, R193, R195–R198: the commanded level of a side takes its channel's level, an interval below MINP being counted; the filtered
command changes when the filter lets it, a command that never turned its side on is EATEN and both at once an OVERLAP; a side turns on
when the dead time allows and off after its minimum pulse, HELD if the hold kept it past its command; a refresh turns the high side
off, counts itself, and its end turns the low side off unless ql = 1. What R195 does not allow does not happen. -/
def Obligations.SidesOfAPair : Prop :=
  ∀ (s : State) (p t0 : Nat), isPair p = true → live s.core.dev = true →
    (∀ high, mayTurnOn (s.core.dev.pair p) high t0 = false → exec (.sideTurnOn p high t0) s = .next s) ∧
    (∀ high, mayTurnOff (s.core.dev.pair p) high t0 = false → exec (.sideTurnOff p high t0) s = .next s) ∧
    (mayTurnOn (s.core.dev.pair p) true t0 = true →
      Runs (.sideTurnOn p true t0) s [.br] fun t =>
        t.core.dev.pair p = { s.core.dev.pair p with high := { (s.core.dev.pair p).high with on := true, onAt := t0 } } ∧
        (t.core.dev.pair p).low.on = false ∧ ∀ m, m ≠ p → t.core.dev.pair m = s.core.dev.pair m) ∧
    (mayTurnOn (s.core.dev.pair p) false t0 = true →
      Runs (.sideTurnOn p false t0) s [.br] fun t =>
        t.core.dev.pair p = { s.core.dev.pair p with low := { (s.core.dev.pair p).low with on := true, onAt := t0 } } ∧
        (t.core.dev.pair p).high.on = false ∧ ∀ m, m ≠ p → t.core.dev.pair m = s.core.dev.pair m) ∧
    (mayTurnOff (s.core.dev.pair p) true t0 = true →
      Runs (.sideTurnOff p true t0) s [.br, .ic, .ne] fun t =>
        (t.core.dev.pair p).high = { (s.core.dev.pair p).high with
          on := false, offAt := t0, dead := deadFall s.core.dev (s.core.dev.pair p) } ∧
        (t.core.dev.pair p).low = (s.core.dev.pair p).low ∧
        (endedAt (s.core.dev.pair p) true < (s.core.dev.pair p).high.onAt + minPulse (s.core.dev.pair p) →
          bit (t.core.dev.pair p).stat 10 = true) ∧
        (∀ m, m ≠ p → t.core.dev.pair m = s.core.dev.pair m)) ∧
    (mayTurnOff (s.core.dev.pair p) false t0 = true →
      Runs (.sideTurnOff p false t0) s [.br, .ic, .ne] fun t =>
        (t.core.dev.pair p).low = { (s.core.dev.pair p).low with
          on := false, offAt := t0, dead := deadRise s.core.dev (s.core.dev.pair p) } ∧
        (t.core.dev.pair p).high = (s.core.dev.pair p).high ∧
        (endedAt (s.core.dev.pair p) false < (s.core.dev.pair p).low.onAt + minPulse (s.core.dev.pair p) →
          bit (t.core.dev.pair p).stat 10 = true) ∧
        (∀ m, m ≠ p → t.core.dev.pair m = s.core.dev.pair m)) ∧
    (((takeCommand p true s.core.dev).pair p).fhigh.q = (s.core.dev.chOut (2 * p)).lvl ∧
      ((takeCommand p true s.core.dev).pair p).fhigh.qAt = (s.core.dev.chOut (2 * p)).lvlAt ∧
      ((takeCommand p true s.core.dev).pair p).filtc =
        (if (s.core.dev.chOut (2 * p)).lvlAt < (s.core.dev.pair p).fhigh.qAt + minPulse (s.core.dev.pair p)
          then incSat (s.core.dev.pair p).filtc else (s.core.dev.pair p).filtc)) ∧
    (bpInter (s.core.dev.pair p) = false → exec (.minPulseFilter p false t0) s = .next s) ∧
    (∀ high, filterDue (s.core.dev.pair p) (if high then (s.core.dev.pair p).fhigh else (s.core.dev.pair p).flow) t0 = false →
      exec (.minPulseFilter p high t0) s = .next s) ∧
    (filterDue (s.core.dev.pair p) (s.core.dev.pair p).fhigh t0 = true → pairEnabled (s.core.dev.pair p) = true →
      Runs (.minPulseFilter p true t0) s [.br, .ic, .ne] fun t =>
        (t.core.dev.pair p).fhigh = { (s.core.dev.pair p).fhigh with qf := (s.core.dev.pair p).fhigh.q, qfAt := t0 } ∧
        (t.core.dev.pair p).high = (s.core.dev.pair p).high ∧ (t.core.dev.pair p).flow = (s.core.dev.pair p).flow ∧
        ((s.core.dev.pair p).state = .run → (s.core.dev.pair p).fhigh.qf = true → (s.core.dev.pair p).high.on = false →
          (s.core.dev.pair p).high.onAt < (s.core.dev.pair p).fhigh.qfAt →
          (t.core.dev.pair p).eatc = incSat (s.core.dev.pair p).eatc ∧ bit (t.core.dev.pair p).stat 9 = true) ∧
        (t.core.dev.pair p).ovlc = (if overlapAt (s.core.dev.pair p) t0 = true ∧ (s.core.dev.pair p).fhigh.q = true
          then incSat (s.core.dev.pair p).ovlc else (s.core.dev.pair p).ovlc) ∧
        ∀ m, m ≠ p → t.core.dev.pair m = s.core.dev.pair m) ∧
    (refreshDue (s.core.dev.pair p) t0 = false → exec (.refreshStart p t0) s = .next s) ∧
    (refreshDue (s.core.dev.pair p) t0 = true →
      Runs (.refreshStart p t0) s [.br, .ic, .ne] fun t =>
        (t.core.dev.pair p).refresh = some t0 ∧ (t.core.dev.pair p).refc = incSat (s.core.dev.pair p).refc ∧
        (t.core.dev.pair p).high.on = false ∧ (t.core.dev.pair p).high.offAt = t0 ∧ bit (t.core.dev.pair p).stat 11 = true ∧
        ∀ m, m ≠ p → t.core.dev.pair m = s.core.dev.pair m) ∧
    (∀ r, (s.core.dev.pair p).refresh = some r →
      r + (s.core.dev.pair p).high.dead + fld (s.core.dev.pair p).bspw 0 12 * 64 ≤ t0 →
      Runs (.refreshEnd p t0) s [.br] fun t =>
        (t.core.dev.pair p).refresh = none ∧
        (t.core.dev.pair p).low.on = ((s.core.dev.pair p).low.on && qLow (s.core.dev.pair p)) ∧
        (t.core.dev.pair p).high = (s.core.dev.pair p).high ∧ ∀ m, m ≠ p → t.core.dev.pair m = s.core.dev.pair m) ∧
    ((∀ r, (s.core.dev.pair p).refresh = some r → t0 < r + (s.core.dev.pair p).high.dead + fld (s.core.dev.pair p).bspw 0 12 * 64) →
      exec (.refreshEnd p t0) s = .next s)

/-- R200–R203, R205: a disable takes effect in the next TCLK: an enabled pair enters STOPPING, and it is DISABLED with EN 0, its pins
at IDL, once both its sides are off. An accepted trip, and a software trip whatever EN is, latches the input and counts, and in the next
TCLK takes every enabled pair whose TRIPMASK names it to TRIPPED with both sides off; a latch is cleared by a write unless the input's
level is still active. A sample inside a blanking window counts as inactive. -/
def Obligations.StopsAndTrips : Prop :=
  (∀ (s : State), live s.core.dev = true →
    (∀ p, isPair p = true →
      (Runs (.dis p) s [.br] fun t =>
        t.core.dev.pair p = { s.core.dev.pair p with stopDue := true, enableDue := false } ∧
        t.core.dev.br.trips = s.core.dev.br.trips ∧ ∀ m, m ≠ p → t.core.dev.pair m = s.core.dev.pair m) ∧
      ((s.core.dev.pair p).state = .stopping → (s.core.dev.pair p).high.on = false → (s.core.dev.pair p).low.on = false →
        Runs (.stoppingDone p) s [.br, .gs, .ch] fun t =>
          t.core.dev.pair p = { s.core.dev.pair p with ctl := clrBit (s.core.dev.pair p).ctl 31, state := .disabled } ∧
          (emulated s.core.dev (2 * p) = false → (t.core.dev.chOut (2 * p)).lvl = outIdl (s.core.dev.chOut (2 * p))) ∧
          t.core.dev.gs.fifo = s.core.dev.gs.fifo ∧ t.core.dev.gs.slugs = s.core.dev.gs.slugs ∧
          ∀ m, m ≠ p → t.core.dev.pair m = s.core.dev.pair m) ∧
      ((s.core.dev.pair p).state ≠ .stopping ∨ (s.core.dev.pair p).high.on = true ∨ (s.core.dev.pair p).low.on = true →
        exec (.stoppingDone p) s = .next s)) ∧
    (∀ j, isTrip j = true →
      (tripDue (s.core.dev.trip j) = false → exec (.tripAccepted j) s = .next s) ∧
      (tripDue (s.core.dev.trip j) = true →
        Runs (.tripAccepted j) s [.br, .ic, .ne] fun t =>
          t.core.dev.trip j = { s.core.dev.trip j with
            level := true, latch := true, tripc := incSat (s.core.dev.trip j).tripc, hit := true
            acceptedIn := some s.core.dev.tb.tclk } ∧
          t.core.dev.br.pairs = s.core.dev.br.pairs ∧ ∀ m, m ≠ j → t.core.dev.trip m = s.core.dev.trip m) ∧
      (Runs (.swtrip j) s [.br] fun t =>
        t.core.dev.trip j = { s.core.dev.trip j with soft := true } ∧ t.core.dev.br.pairs = s.core.dev.br.pairs ∧
        ∀ m, m ≠ j → t.core.dev.trip m = s.core.dev.trip m) ∧
      ((s.core.dev.trip j).level = false → (s.core.dev.trip j).acceptedIn ≠ some s.core.dev.tb.tclk →
        Runs (.latchClear j) s [.br] fun t =>
          t.core.dev.trip j = { s.core.dev.trip j with latch := false } ∧ t.core.dev.br.pairs = s.core.dev.br.pairs ∧
          ∀ m, m ≠ j → t.core.dev.trip m = s.core.dev.trip m) ∧
      ((s.core.dev.trip j).level = false → (s.core.dev.trip j).acceptedIn = some s.core.dev.tb.tclk →
        exec (.latchClear j) s = .next s) ∧
      ((s.core.dev.trip j).level = true →
        Runs (.latchClear j) s [.br, .ic, .ne] fun t =>
          t.core.dev.trip j = { s.core.dev.trip j with clrRej := true } ∧ t.core.dev.br.pairs = s.core.dev.br.pairs ∧
          ∀ m, m ≠ j → t.core.dev.trip m = s.core.dev.trip m) ∧
      ((s.core.dev.trip j).active = 0 →
        Runs (.tripLevelInactive j) s [.br] fun t =>
          t.core.dev.trip j = { s.core.dev.trip j with level := false } ∧
          t.core.dev.br.pairs = s.core.dev.br.pairs ∧ ∀ m, m ≠ j → t.core.dev.trip m = s.core.dev.trip m) ∧
      ((s.core.dev.trip j).active ≠ 0 → exec (.tripLevelInactive j) s = .next s))) ∧
  (∀ (d : Dev) (p : Nat), (d.pair p).enableDue = false → (d.pair p).resumeDue = false →
    (∀ j, j < 16 → Nat.testBit (bpMask (d.pair p)) j = true → (d.trip j).hit = true →
      pairEnabled (d.pair p) = true → (d.pair p).stopDue = false →
      ((openPair p d).pair p).state = .tripped ∧ ((openPair p d).pair p).high.on = false ∧
      ((openPair p d).pair p).low.on = false ∧ ((openPair p d).pair p).tripc = incSat (d.pair p).tripc ∧
      bit ((openPair p d).pair p).stat 12 = true) ∧
    ((∀ j, j < 16 → Nat.testBit (bpMask (d.pair p)) j = false ∨ (d.trip j).hit = false) →
      ((d.pair p).stopDue = false →
        (openPair p d).pair p = { d.pair p with dtrNow := (d.pair p).dtr, dtfNow := (d.pair p).dtf }) ∧
      ((d.pair p).stopDue = true → pairEnabled (d.pair p) = true →
        (openPair p d).pair p = { d.pair p with
          dtrNow := (d.pair p).dtr, dtfNow := (d.pair p).dtf, stopDue := false, state := .stopping, refresh := none
          stopAt := d.localNow }) ∧
      ((d.pair p).stopDue = true → (d.pair p).state = .disabled → ((openPair p d).pair p).state = .disabled))) ∧
  (∀ (d : Dev) (j : Nat), (d.trip j).soft = true →
    ((openTrip j d).trip j).latch = true ∧ ((openTrip j d).trip j).hit = true ∧ ((openTrip j d).trip j).soft = false ∧
    ((openTrip j d).trip j).tripc = incSat (d.trip j).tripc ∧ ((openTrip j d).trip j).acceptedIn = some d.tb.tclk) ∧
  (∀ (x : Trip), tiEn x = true → (x.ball == bit x.ctl 30) = true →
    (x.window = true → x.raw < tiBlank x → (sampleTrip x).active = 0 ∧
      (x.raw = 0 → (sampleTrip x).blankc = incSat x.blankc)) ∧
    (x.window = false → (sampleTrip x).active = min 16 (x.active + 1) ∧ (sampleTrip x).blankc = x.blankc))

/-! ### Compositors -/

/-- R236–R242: the instructions of a compositor at its step, each with its PC, its delay and its registers; a word reserved in a
field halts it with ILLOP and PC at its own address; a step of delay; and nothing while it is halted. -/
def Obligations.CompositorInstructions : Prop :=
  ∀ (s : State) (k : Nat) (w : W32), isComp k = true → live s.core.dev = true → cpWord (s.core.dev.comp k) = w →
    ((s.core.dev.comp k).run = false →
      ∀ i, i ∈ [Instr.cpSet k, .cpOut k, .cpIn k, .cpWait k, .cpMov k, .cpJmp k, .cpSig k, .cpHalt k, .cpIllop k, .compositorDelayStep k] →
        exec i s = .next s) ∧
    (cpExecutes (s.core.dev.comp k) 0 = true → fld w 22 2 = 0 →
      Runs (.cpSet k) s [.comps] fun t =>
        t.core.dev.comp k = cpNext { keepPins (s.core.dev.comp k) with
          levels := cpMerge (s.core.dev.comp k) (s.core.dev.comp k).levels (BitVec.ofNat 8 (fld w 8 8)) (BitVec.ofNat 8 (fld w 0 8)) }
          ((s.core.dev.comp k).r.pc + 1) ∧ ∀ m, m ≠ k → t.core.dev.comp m = s.core.dev.comp m) ∧
    (cpExecutes (s.core.dev.comp k) 0 = true → fld w 22 2 = 2 →
      Runs (.cpSet k) s [.comps] fun t =>
        (t.core.dev.comp k).r = { (s.core.dev.comp k).r with
          c0 := BitVec.ofNat 32 (fld w 0 16), pc := (s.core.dev.comp k).r.pc + 1 } ∧
        (t.core.dev.comp k).dly = fld w 24 4 ∧ (t.core.dev.comp k).levels = (s.core.dev.comp k).levels) ∧
    (cpExecutes (s.core.dev.comp k) 1 = true →
      Runs (.cpOut k) s [.comps] fun t =>
        (t.core.dev.comp k).r.pc = (s.core.dev.comp k).r.pc + 1 ∧
        (t.core.dev.comp k).r.bc = (s.core.dev.comp k).r.bc - (fld w 0 3 + 1) ∧
        (t.core.dev.comp k).r.s = (if bit (s.core.dev.comp k).r.ctl 29 then (s.core.dev.comp k).r.s >>> (fld w 0 3 + 1)
          else (s.core.dev.comp k).r.s <<< (fld w 0 3 + 1)) ∧
        (t.core.dev.comp k).drives = (s.core.dev.comp k).drives ∧
        (fld w 0 3 = 0 → fld w 16 3 < cpOcnt (s.core.dev.comp k) →
          (t.core.dev.comp k).levels.getLsbD (fld w 16 3) =
            (if bit (s.core.dev.comp k).r.ctl 29 then (s.core.dev.comp k).r.s.getLsbD 0 else (s.core.dev.comp k).r.s.getLsbD 63)) ∧
        ∀ m, m ≠ k → t.core.dev.comp m = s.core.dev.comp m) ∧
    (cpExecutes (s.core.dev.comp k) 2 = true → fld w 0 3 = 0 →
      Runs (.cpIn k) s [.comps] fun t =>
        (t.core.dev.comp k).r.pc = (s.core.dev.comp k).r.pc + 1 ∧
        (t.core.dev.comp k).r.bc = min ((s.core.dev.comp k).r.bc + 1) 64 ∧
        (t.core.dev.comp k).r.s = shiftIn (bit (s.core.dev.comp k).r.ctl 30)
          (cpInput s.core.dev (s.core.dev.comp k) (fld w 16 3)) (s.core.dev.comp k).r.s ∧
        ∀ m, m ≠ k → t.core.dev.comp m = s.core.dev.comp m) ∧
    (cpExecutes (s.core.dev.comp k) 2 = true → 8 < fld w 16 3 + fld w 0 3 + 1 →
      Runs (.cpIn k) s [.comps, .free] fun t => (t.core.dev.comp k).r.pc = (s.core.dev.comp k).r.pc + 1) ∧
    (cpExecutes (s.core.dev.comp k) 3 = true → fld w 22 2 = 0 →
      Runs (.cpWait k) s [.comps] fun t =>
        t.core.dev.comp k = (if cpInput s.core.dev (s.core.dev.comp k) (fld w 16 3) = bit w 8
          then cpNext (s.core.dev.comp k) ((s.core.dev.comp k).r.pc + 1) else cpRetry (s.core.dev.comp k)) ∧
        ∀ m, m ≠ k → t.core.dev.comp m = s.core.dev.comp m) ∧
    (cpExecutes (s.core.dev.comp k) 3 = true → fld w 22 2 = 2 →
      Runs (.cpWait k) s [.comps] fun t =>
        t.core.dev.comp k = (if atOrAfter s.core.dev.tb.time ((s.core.dev.comp k).wtWas.getD (s.core.dev.comp k).r.wt)
          then cpNext (s.core.dev.comp k) ((s.core.dev.comp k).r.pc + 1) else cpRetry (s.core.dev.comp k))) ∧
    (cpExecutes (s.core.dev.comp k) 4 = true → fld w 16 4 = 3 → fld w 20 4 = 4 → fld w 14 2 = 1 →
      Runs (.cpMov k) s [.comps] fun t =>
        (t.core.dev.comp k).r = { (s.core.dev.comp k).r with
          c1 := ~~~(s.core.dev.comp k).r.c0, pc := (s.core.dev.comp k).r.pc + 1 } ∧
        ∀ m, m ≠ k → t.core.dev.comp m = s.core.dev.comp m) ∧
    (cpExecutes (s.core.dev.comp k) 4 = true → fld w 16 4 = 0 →
      (s.core.dev.comp k).r.txf = false ∨ (s.core.dev.comp k).txNew = true →
      Runs (.cpMov k) s [.comps] fun t =>
        t.core.dev.comp k = cpRetry (s.core.dev.comp k) ∧ ∀ m, m ≠ k → t.core.dev.comp m = s.core.dev.comp m) ∧
    (cpExecutes (s.core.dev.comp k) 4 = true → fld w 16 4 = 0 → fld w 20 4 = 1 → fld w 14 2 = 0 → (s.core.dev.comp k).r.txf = true →
      (s.core.dev.comp k).txNew = false →
      ((s.core.dev.comp k).txTry = none →
        Runs (.cpMov k) s [.comps, .ic, .ne] fun t =>
          (t.core.dev.comp k).r = { (s.core.dev.comp k).r with
            s := (s.core.dev.comp k).r.txd.setWidth 64, bc := 32, txf := false, pc := (s.core.dev.comp k).r.pc + 1 }) ∧
      (∀ v o, (s.core.dev.comp k).txTry = some (v, o) →
        Runs (.cpMov k) s [.comps] fun t =>
          (t.core.dev.comp k).r = { (s.core.dev.comp k).r with
            s := (s.core.dev.comp k).r.txd.setWidth 64, bc := 32, txd := v, stat := putBit (s.core.dev.comp k).r.stat 11 o
            pc := (s.core.dev.comp k).r.pc + 1 })) ∧
    (cpExecutes (s.core.dev.comp k) 5 = true → fld w 19 5 = 1 →
      Runs (.cpJmp k) s [.comps] fun t =>
        t.core.dev.comp k = (if (s.core.dev.comp k).r.c0 = 0 then cpNext (s.core.dev.comp k) ((s.core.dev.comp k).r.pc + 1)
          else cpNext { s.core.dev.comp k with r := { (s.core.dev.comp k).r with c0 := (s.core.dev.comp k).r.c0 - 1 } }
            (BitVec.ofNat 6 (fld w 0 6))) ∧ ∀ m, m ≠ k → t.core.dev.comp m = s.core.dev.comp m) ∧
    (cpExecutes (s.core.dev.comp k) 6 = true →
      Runs (.cpSig k) s [.comps, .ic, .ne, .ds] fun t =>
        bit (t.core.dev.comp k).r.stat 8 = true ∧ (t.core.dev.comp k).r.pc = (s.core.dev.comp k).r.pc + 1 ∧
        t.core.dev.ds = { s.core.dev.ds with trigs := s.core.dev.ds.trigs ++ sigGroups s.core.dev k } ∧
        ∀ m, m ≠ k → t.core.dev.comp m = s.core.dev.comp m) ∧
    (cpExecutes (s.core.dev.comp k) 7 = true → fld w 24 4 = 0 →
      Runs (.cpHalt k) s [.comps, .ic, .ne] fun t =>
        (t.core.dev.comp k).run = false ∧ (t.core.dev.comp k).r.pc = (s.core.dev.comp k).r.pc + 1 ∧
        bit (t.core.dev.comp k).r.stat 9 = true ∧ (t.core.dev.comp k).levels = (s.core.dev.comp k).levels ∧
        ∀ m, m ≠ k → t.core.dev.comp m = s.core.dev.comp m) ∧
    ((s.core.dev.comp k).run = true → (s.core.dev.comp k).dly = 0 → (s.core.dev.comp k).halting = false → cpIllegal w = true →
      Runs (.cpIllop k) s [.comps, .ic, .ne] fun t =>
        (t.core.dev.comp k).run = false ∧ (t.core.dev.comp k).r.pc = (s.core.dev.comp k).r.pc ∧
        bit (t.core.dev.comp k).r.stat 10 = true ∧ ∀ m, m ≠ k → t.core.dev.comp m = s.core.dev.comp m) ∧
    ((s.core.dev.comp k).run = true → 0 < (s.core.dev.comp k).dly → (s.core.dev.comp k).halting = false →
      Runs (.compositorDelayStep k) s [.comps] fun t =>
        t.core.dev.comp k = { s.core.dev.comp k with
          dly := (s.core.dev.comp k).dly - 1, until_ := fld (s.core.dev.comp k).r.ctl 0 16 + 1 } ∧
        ∀ m, m ≠ k → t.core.dev.comp m = s.core.dev.comp m)

/-- R234, R243, R245–R249, R499: TXD takes a word while it is empty; START, TSTART and HALT, of which HALT wins and lands with the TCLK;
enabling, its refusal, and disabling, which reach the pins in the next TCLK; the program is written only while the compositor is halted,
and a write that would change it otherwise sets PROG_BUSY. -/
def Obligations.CompositorControl : Prop :=
  ∀ (s : State) (k : Nat), isComp k = true → live s.core.dev = true →
    (∀ v, (s.core.dev.comp k).r.txf = false →
      Runs (.txdWrite k v) s [.comps] fun t =>
        (t.core.dev.comp k).r = { (s.core.dev.comp k).r with txd := v, txf := true } ∧
        (t.core.dev.comp k).run = (s.core.dev.comp k).run ∧ ∀ m, m ≠ k → t.core.dev.comp m = s.core.dev.comp m) ∧
    (∀ v, (s.core.dev.comp k).r.txf = true →
      Runs (.txdWrite k v) s [.comps] fun t =>
        (t.core.dev.comp k).r = { (s.core.dev.comp k).r with stat := orBit (s.core.dev.comp k).r.stat 11 } ∧
        ∀ m, m ≠ k → t.core.dev.comp m = s.core.dev.comp m) ∧
    (∀ clean, cpEn (s.core.dev.comp k) = true → (s.core.dev.comp k).run = false → (s.core.dev.comp k).stop = false →
      (s.core.dev.comp k).ended = false →
      (Runs (.compositorStart k clean) s [.comps] fun t =>
        (t.core.dev.comp k).run = true ∧ (t.core.dev.comp k).dly = 0 ∧ (t.core.dev.comp k).tpend = false ∧
        (t.core.dev.comp k).r = (if clean then { (s.core.dev.comp k).r with s := 0, bc := 0, c0 := 0, c1 := 0 } else (s.core.dev.comp k).r) ∧
        ∀ m, m ≠ k → t.core.dev.comp m = s.core.dev.comp m) ∧
      (Runs (.compositorTstart k clean) s [.comps] fun t =>
        (t.core.dev.comp k).run = false ∧ (t.core.dev.comp k).tpend = true ∧
        ∀ m, m ≠ k → t.core.dev.comp m = s.core.dev.comp m)) ∧
    (∀ clean i, i ∈ [Instr.compositorStart k clean, .compositorTstart k clean] → cpEn (s.core.dev.comp k) = true →
      (s.core.dev.comp k).run = true ∨ (s.core.dev.comp k).stop = true → exec i s = .next s) ∧
    (∀ clean i, i ∈ [Instr.compositorStart k clean, .compositorTstart k clean] → cpEn (s.core.dev.comp k) = false →
      Runs i s [.comps] fun t =>
        (t.core.dev.comp k).r = { (s.core.dev.comp k).r with stat := orBit (s.core.dev.comp k).r.stat 5 } ∧
        (t.core.dev.comp k).run = (s.core.dev.comp k).run ∧ ∀ m, m ≠ k → t.core.dev.comp m = s.core.dev.comp m) ∧
    (Runs (.compositorHalt k) s [.comps] fun t =>
      t.core.dev.comp k = { s.core.dev.comp k with stop := true, tpend := false } ∧
      (cpLand (t.core.dev.comp k)).run = false ∧ (cpLand (t.core.dev.comp k)).r = (s.core.dev.comp k).r ∧
      (cpLand (t.core.dev.comp k)).levels = (s.core.dev.comp k).levels ∧ ∀ m, m ≠ k → t.core.dev.comp m = s.core.dev.comp m) ∧
    (cpEn (s.core.dev.comp k) = false → cpRefused s.core.dev k = false →
      Runs (.compositorEnable k) s [.comps] fun t =>
        cpEn (t.core.dev.comp k) = true ∧ (t.core.dev.comp k).run = (s.core.dev.comp k).run ∧
        compPins (t.core.dev.comp k) = compPins (s.core.dev.comp k) ∧
        compPins (cpLand (t.core.dev.comp k)) =
          (true, (s.core.dev.comp k).r.oli, BitVec.ofNat 8 (fld (s.core.dev.comp k).r.pins 0 8)) ∧
        ∀ m, m ≠ k → t.core.dev.comp m = s.core.dev.comp m) ∧
    (cpEn (s.core.dev.comp k) = false → cpRefused s.core.dev k = true →
      Runs (.compositorEnable k) s [.comps] fun t =>
        cpEn (t.core.dev.comp k) = false ∧ bit (t.core.dev.comp k).r.stat 5 = true ∧
        ∀ m, m ≠ k → t.core.dev.comp m = s.core.dev.comp m) ∧
    (cpEn (s.core.dev.comp k) = true →
      Runs (.compositorDisable k) s [.comps] fun t =>
        cpEn (t.core.dev.comp k) = false ∧ compPins (t.core.dev.comp k) = compPins (s.core.dev.comp k) ∧
        (cpLand (t.core.dev.comp k)).run = false ∧ (compPins (cpLand (t.core.dev.comp k))).1 = false ∧ ∀ m, m ≠ k → t.core.dev.comp m = s.core.dev.comp m) ∧
    (∀ v, (((s.core.dev.comp k).run && !(s.core.dev.comp k).fresh) || (s.core.dev.comp k).ended) = false →
      (Runs (.programWrite k 0x10 v) s [.comps] fun t =>
        t.core.dev.comp k = { s.core.dev.comp k with r := { (s.core.dev.comp k).r with pc := v.setWidth 6 } }) ∧
      (Runs (.programWrite k 0x28 v) s [.comps] fun t =>
        t.core.dev.comp k = { s.core.dev.comp k with r := { (s.core.dev.comp k).r with c0 := v } }) ∧
      (Runs (.programWrite k 0x2C v) s [.comps] fun t =>
        t.core.dev.comp k = { s.core.dev.comp k with r := { (s.core.dev.comp k).r with c1 := v } }) ∧
      (∀ j, j < 64 → Runs (.programWrite k (0x100 + 4 * j) v) s [.comps] fun t =>
        Bank.get 0 (t.core.dev.comp k).imem j = v ∧ (t.core.dev.comp k).r = (s.core.dev.comp k).r ∧
        ∀ i, i ≠ j → Bank.get 0 (t.core.dev.comp k).imem i = Bank.get 0 (s.core.dev.comp k).imem i)) ∧
    (∀ v r, isProgramReg r = true → (((s.core.dev.comp k).run && !(s.core.dev.comp k).fresh) || (s.core.dev.comp k).ended) = true →
      (putProgram r v (s.core.dev.comp k) = s.core.dev.comp k → exec (.programWrite k r v) s = .next s) ∧
      (putProgram r v (s.core.dev.comp k) ≠ s.core.dev.comp k →
        Runs (.programWrite k r v) s [.comps] fun t =>
          t.core.dev.comp k = { s.core.dev.comp k with
            r := { (s.core.dev.comp k).r with stat := orBit (s.core.dev.comp k).r.stat 7 } } ∧
          ∀ m, m ≠ k → t.core.dev.comp m = s.core.dev.comp m))

/-! ### Engines -/

/-- R255–R258, R268, R269: a word of the context that runs: with an addition in ALU-A, no other unit and the branch condition
always, its destination takes A + B, the flags it asks for follow, and the sequencer takes NXT or the patched address; an
engine that is offline, or the odd one of a checked pair, executes none. The safe point of an idle engine resumes context 0
at its entry when it is ready and no update request with credit waits; the end of work of context 2 leaves it not ready, its registers
kept. -/
def Obligations.EngineWork : Prop :=
  ∀ (s : State) (e : Nat), isEngine e = true → live s.core.dev = true → enginesRun s.core.dev = true →
    ((s.core.dev.eng e).online = false ∨ ((s.core.dev.eng e).paired = true ∧ e % 2 = 1) → exec (.microword e) s = .next s) ∧
    (∀ c w, (s.core.dev.eng e).online = true → (s.core.dev.eng e).paired = false → (s.core.dev.eng e).busy = true →
      (s.core.dev.eng e).atSafe = false → (s.core.dev.eng e).ctx = c → c < 4 →
      fetchWord s.core.dev (s.core.dev.ctx e c).pc = w → stalls (s.core.dev.eng e) (s.core.dev.ctx e c) w = false →
      mwAop w = 3 → mwBop w = 0 → mwMdu w = 0 → mwAng w = 0 → mwGal w = 0 → mwChop w = 0 → mwDmop w = 0 → mwTrc w = false →
      mwBcond w = 0 → mwSeq w = 0 →
      Runs (.microword e) s [.ctxs, .ne, .free] fun t =>
        gReg (t.core.dev.ctx e c) (mwAdst w) = gReg (s.core.dev.ctx e c) (mwAsa w) + operandAB (s.core.dev.ctx e c) w ∧
        (∀ r, r ≠ mwAdst w → gReg (t.core.dev.ctx e c) r = gReg (s.core.dev.ctx e c) r) ∧
        (mwFa w = false → (t.core.dev.ctx e c).z = (s.core.dev.ctx e c).z ∧ (t.core.dev.ctx e c).c = (s.core.dev.ctx e c).c) ∧
        (mwFa w = true →
          (t.core.dev.ctx e c).z = (gReg (s.core.dev.ctx e c) (mwAsa w) + operandAB (s.core.dev.ctx e c) w == 0) ∧
          (t.core.dev.ctx e c).n = (gReg (s.core.dev.ctx e c) (mwAsa w) + operandAB (s.core.dev.ctx e c) w).msb) ∧
        (t.core.dev.ctx e c).pc = redirect s.core.dev (mwNxt w) ∧
        (t.core.dev.ctx e c).stack = (s.core.dev.ctx e c).stack ∧ (t.core.dev.eng e).atSafe = mwSafe w) ∧
    ((s.core.dev.eng e).paired = false → ((s.core.dev.eng e).online = false ∨
        ((s.core.dev.eng e).busy = true ∧ (s.core.dev.eng e).atSafe = false)) → exec (.safePoint e) s = .next s) ∧
    ((s.core.dev.eng e).online = true → (s.core.dev.eng e).paired = false → (s.core.dev.eng e).busy = false →
      (s.core.dev.eng e).offReq = false → (s.core.dev.eng e).pendFault = none → (s.core.dev.eng e).chaltReq = false →
      hasRequest s.core.dev e = false → bit (s.core.dev.eng e).ready 1 = false → bit (s.core.dev.eng e).ready 0 = true →
      (s.core.dev.ctx e 0).start = true →
      Runs (.safePoint e) s [.ctxs, .ne] fun t =>
        (t.core.dev.eng e).busy = true ∧ (t.core.dev.eng e).ctx = 0 ∧ (t.core.dev.ctx e 0).pc = 0x10#15 ∧
        (t.core.dev.ctx e 0).start = false ∧
        gReg (t.core.dev.ctx e 0) 63 = BitVec.ofNat 64 ((s.core.dev.eng e).tback.toNat * 65536 + (s.core.dev.eng e).tickNo.toNat) ∧
        ∀ m, m ≠ e → t.core.dev.eng m = s.core.dev.eng m) ∧
    ((s.core.dev.eng e).online = true → (s.core.dev.eng e).busy = true → (s.core.dev.eng e).ctx = 2 →
      bit (s.core.dev.eng e).pendWake 2 = false →
      Runs (.endw e) s [.ctxs, .ne] fun t =>
        bit (t.core.dev.eng e).ready 2 = false ∧ (t.core.dev.eng e).atSafe = true ∧ (t.core.dev.ctx e 2).start = true ∧
        (t.core.dev.ctx e 2).stack = [] ∧ (t.core.dev.ctx e 2).regs = (s.core.dev.ctx e 2).regs ∧
        ∀ m, m ≠ e → t.core.dev.eng m = s.core.dev.eng m) ∧
    ((s.core.dev.eng e).busy = false → exec (.endw e) s = .next s)

/-- R270, R274–R276: the commands of an engine's control register, and a mismatch of a checked pair, which leaves service with
LOCK_FAULT and FAULT recorded while another engine of the cluster is online. -/
def Obligations.EngineControl : Prop :=
  ∀ (s : State) (e : Nat), isEngine e = true → live s.core.dev = true →
    (s.core.dev.store.openState = 2 → 0x6000 ≤ (s.core.dev.eng e).centry.toNat → (s.core.dev.eng e).centry.toNat ≤ 0x7FFF →
      Runs (.cstart e) s [.ne, .ctxs] fun t =>
        t.core.dev.eng e = { s.core.dev.eng e with
          chalted := false, chaltReq := false, ready := (s.core.dev.eng e).ready ||| 8#4 } ∧
        (t.core.dev.ctx e 3).start = true ∧ (t.core.dev.ctx e 3).stack = [] ∧ ∀ m, m ≠ e → t.core.dev.eng m = s.core.dev.eng m) ∧
    (s.core.dev.store.openState ≠ 2 →
      Runs (.cstart e) s [.ne, .ic] fun t =>
        bit (t.core.dev.eng e).stat 12 = true ∧ (t.core.dev.eng e).chalted = (s.core.dev.eng e).chalted) ∧
    (Runs (.chalt e) s [.ne] fun t =>
      t.core.dev.eng e = { s.core.dev.eng e with chaltReq := true } ∧ ∀ m, m ≠ e → t.core.dev.eng m = s.core.dev.eng m) ∧
    ((s.core.dev.eng e).online = true → (s.core.dev.eng e).offReq = false → (s.core.dev.eng e).paired = false →
      ((staying s.core.dev (e / 4)).filter fun x => x != e).isEmpty = false →
      Runs (.offlineRequest e) s [.ne] fun t =>
        t.core.dev.eng e = { s.core.dev.eng e with offReq := true, ctl := orBit (s.core.dev.eng e).ctl 0 } ∧
        ∀ m, m ≠ e → t.core.dev.eng m = s.core.dev.eng m) ∧
    ((s.core.dev.eng e).online = true → (s.core.dev.eng e).offReq = false → (s.core.dev.eng e).paired = false →
      ((staying s.core.dev (e / 4)).filter fun x => x != e).isEmpty = true →
      Runs (.offlineRequest e) s [.ne, .ic] fun t =>
        bit (t.core.dev.eng e).stat 12 = true ∧ (t.core.dev.eng e).offReq = false ∧ (t.core.dev.eng e).online = true) ∧
    ((s.core.dev.eng e).online = false → (s.core.dev.eng e).offReq = false →
      Runs (.onlineRequest e) s [.ne] fun t =>
        t.core.dev.eng e = { s.core.dev.eng e with onReq := true, ctl := clrBit (s.core.dev.eng e).ctl 0 } ∧
        ∀ m, m ≠ e → t.core.dev.eng m = s.core.dev.eng m) ∧
    (∀ v, e % 2 = 0 →
      Runs (.lockWrite e v) s [.ne] fun t =>
        t.core.dev.eng e = { s.core.dev.eng e with ctl := putBit (s.core.dev.eng e).ctl 2 v } ∧
        ∀ m, m ≠ e → t.core.dev.eng m = s.core.dev.eng m) ∧
    (∀ v, e % 2 = 1 → exec (.lockWrite e v) s = .next s) ∧
    (∀ k, k < 4 → (s.core.dev.eng (4 * (e / 4) + k)).online = true → 4 * (e / 4) + k ≠ e / 2 * 2 → 4 * (e / 4) + k ≠ e / 2 * 2 + 1 →
      (s.core.dev.eng (e / 2 * 2)).paired = true → (s.core.dev.eng (e / 2 * 2)).online = true →
      Runs (.lockstepMismatch e) s [.ne, .ctxs, .ic, .ax] fun t =>
        (t.core.dev.eng (e / 2 * 2)).online = false ∧ (t.core.dev.eng (e / 2 * 2 + 1)).online = false ∧
        bit (t.core.dev.eng (e / 2 * 2)).stat 15 = true ∧ bit (t.core.dev.eng (e / 2 * 2)).stat 14 = true ∧
        (t.core.dev.eng (e / 2 * 2)).faultc = incSat (s.core.dev.eng (e / 2 * 2)).faultc ∧
        (t.core.dev.eng (4 * (e / 4) + k)).online = true)

/-- R263, R126: the galley-port operations of a context: the slug or entry of the galley changes as the host's commands change it,
and the answer reaches the context: the result code, SID and SEQ in GRS, and a slug's image in the block of the cluster's memory. -/
def Obligations.GalleyPortOperations : Prop :=
  ∀ (s : State) (e c blk sid : Nat) (v : W64), isEngine e = true → isContext c = true → isBlock blk = true → isSid sid = true →
    live s.core.dev = true → issues e s.core.dev = true → s.core.dev.gs.granted = [] → fld v 32 18 = sid → loWord v = (s.core.dev.slug sid).seq →
    (imageReserved (s.core.dev.read256 (dataAddr (e / 4) blk)) = false →
      badSlug (slugOfImage (s.core.dev.read256 (dataAddr (e / 4) blk))) = false → nextFresh s.core.dev s.core.dev.gs.fresh < 262144 →
      0 < sdiff (slugOfImage (s.core.dev.read256 (dataAddr (e / 4) blk))).angle
        (published s.core.dev (slugOfImage (s.core.dev.read256 (dataAddr (e / 4) blk))).axis) →
      Runs (.ins e c blk) s [.ctxs, .gs, .gl, .ax] fun t =>
        t.core.dev.slug (nextFresh s.core.dev s.core.dev.gs.fresh) =
          { slugOfImage (s.core.dev.read256 (dataAddr (e / 4) blk)) with seq := s.core.dev.gl.seq + 1, state := .parked, used := true } ∧
        (t.core.dev.ctx e c).galCode = 0 ∧ (t.core.dev.ctx e c).galBusy = false ∧ t.core.dev.gl.seq = s.core.dev.gl.seq + 1 ∧
        ∀ m, m ≠ nextFresh s.core.dev s.core.dev.gs.fresh → t.core.dev.slug m = s.core.dev.slug m) ∧
    ((s.core.dev.slug sid).state = .parked → bit s.core.dev.gl.cfg 0 = false → bit s.core.dev.gl.cfg 4 = false →
      Runs (.rem e c v) s [.ctxs, .gs] fun t =>
        t.core.dev.slug sid = { s.core.dev.slug sid with state := .cancelled } ∧ (t.core.dev.ctx e c).galCode = 0 ∧
        (t.core.dev.ctx e c).galBusy = false ∧ ∀ m, m ≠ sid → t.core.dev.slug m = s.core.dev.slug m) ∧
    (∀ n, slugOfImage (s.core.dev.read256 (dataAddr (e / 4) blk)) = n → (s.core.dev.slug sid).state = .parked →
      imageReserved (s.core.dev.read256 (dataAddr (e / 4) blk)) = false →
      badSlug { s.core.dev.slug sid with
        angle := n.angle, tofs := n.tofs, dur := n.dur, dmin := n.dmin, dmax := n.dmax, revp := n.revp, losp := n.losp } = false →
      Runs (.mod e c v blk) s [.ctxs, .gs, .gl, .ax, .ne, .lanes] fun t =>
        (t.core.dev.slug sid).angle = n.angle ∧ (t.core.dev.slug sid).dur = n.dur ∧
        (t.core.dev.slug sid).chan = (s.core.dev.slug sid).chan ∧ (t.core.dev.slug sid).state = .parked ∧
        (t.core.dev.slug sid).seq = s.core.dev.gl.seq + 1 ∧ (t.core.dev.ctx e c).galCode = 0 ∧
        ∀ m, m ≠ sid → t.core.dev.slug m = s.core.dev.slug m) ∧
    (∀ n, slugOfImage (s.core.dev.read256 (dataAddr (e / 4) blk)) = n → (s.core.dev.slug sid).state = .parked →
      badSlug { s.core.dev.slug sid with dur := n.dur } = false → findEntry s.core.dev sid = none →
      Runs (.modd e c v blk) s [.ctxs, .gs, .gl, .ax, .ne, .lanes] fun t =>
        t.core.dev.slug sid = { s.core.dev.slug sid with dur := n.dur, seq := s.core.dev.gl.seq + 1 } ∧
        (t.core.dev.ctx e c).galCode = 0 ∧ ∀ m, m ≠ sid → t.core.dev.slug m = s.core.dev.slug m) ∧
    ((s.core.dev.slug sid).state = .done → bit s.core.dev.gl.cfg 0 = false →
      Runs (.galleyPortFree e c v) s [.ctxs, .gs] fun t =>
        (t.core.dev.slug sid).state = .free ∧ (t.core.dev.ctx e c).galCode = 0 ∧
        ∀ m, m ≠ sid → t.core.dev.slug m = s.core.dev.slug m) ∧
    (∀ a n x rest, isAxis a = true → axisSlugs s.core.dev a .parked = (n, x) :: rest →
      atOrAfter (s.core.dev.read64 (dataAddr (e / 4) blk + 4)) x.angle = true →
      Runs (.pop e c a blk) s [.ctxs, .gs, .mem] fun t =>
        t.core.dev.slug n = { s.core.dev.slug n with state := .pending } ∧ (t.core.dev.ctx e c).galCode = 0 ∧
        t.core.dev.read256 (dataAddr (e / 4) blk) = slugImage n (t.core.dev.slug n) ∧
        ∀ m, m ≠ n → t.core.dev.slug m = s.core.dev.slug m) ∧
    (∀ a, isAxis a = true → axisSlugs s.core.dev a .parked = [] →
      Runs (.pop e c a blk) s [.ctxs] fun t =>
        (t.core.dev.ctx e c).galCode = 6 ∧ (t.core.dev.ctx e c).galBusy = false) ∧
    (∀ a n x rest u, isAxis a = true → axisSlugs s.core.dev a .pending = (n, x) :: rest → fld u 32 18 = 0x3FFFF →
      Runs (.pend e c a u blk) s [.ctxs, .mem] fun t =>
        (t.core.dev.ctx e c).galCode = 0 ∧ t.core.dev.read256 (dataAddr (e / 4) blk) = slugImage n (s.core.dev.slug n) ∧
        ∀ k, k < dataAddr (e / 4) blk ∨ dataAddr (e / 4) blk + 4 ≤ k → t.core.dev.read64 k = s.core.dev.read64 k) ∧
    (∀ imm2, (s.core.dev.slug sid).state = .parked → slugStateOf (fld imm2 0 3) = .pending →
      Runs (.mark e c v imm2) s [.ctxs, .gs] fun t =>
        t.core.dev.slug sid = { s.core.dev.slug sid with state := .pending } ∧ (t.core.dev.ctx e c).galCode = 0 ∧
        ∀ m, m ≠ sid → t.core.dev.slug m = s.core.dev.slug m) ∧
    (∀ imm2, (s.core.dev.slug sid).state = .done →
      Runs (.mark e c v imm2) s [.ctxs] fun t => (t.core.dev.ctx e c).galCode = 5) ∧
    ((s.core.dev.slug sid).state ≠ .free →
      Runs (.galleyPortRead e c v blk) s [.ctxs, .mem] fun t =>
        (t.core.dev.ctx e c).galCode = 0 ∧ t.core.dev.read256 (dataAddr (e / 4) blk) = slugImage sid (s.core.dev.slug sid)) ∧
    ((s.core.dev.slug sid).state = .free →
      Runs (.galleyPortRead e c v blk) s [.ctxs] fun t =>
        (t.core.dev.ctx e c).galCode = 3 ∧ (t.core.dev.ctx e c).galBusy = false)

/-- R264–R266, R244: the operations of the channel bus, each with its completion word at the end of the context's return queue,
its effect on the channel, axis, decoder, entry, compositor or register it names, and its block; an entry that commits in the same TCLK,
or is no longer there, answers COMMITTED; a fifth operation not yet popped
is fault 07h and does nothing else. A lane without operations grants none; an open-forme load that does not run ends nothing. -/
def Obligations.ChannelBusOperations : Prop :=
  ∀ (s : State) (e k : Nat) (v : W64), isEngine e = true → isContext k = true → live s.core.dev = true → issues e s.core.dev = true →
    ((s.core.dev.ctx e k).retq.length < 4 →
      (∀ n, isChannel n = true → Runs (.crd e k n 0x18) s [.ctxs] fun t =>
        (t.core.dev.ctx e k).retq = (s.core.dev.ctx e k).retq ++ [some ((s.core.dev.chCnt n).cnt.setWidth 64)]) ∧
      (∀ n, isChannel n = true →
        Runs (.cwr e k n 0x0C v) s [.ctxs, .ch] fun t =>
          t.core.dev.chOut n = { s.core.dev.chOut n with
            writes := (s.core.dev.chOut n).writes ++ [⟨!chShd (s.core.dev.chOut n), 12, v.setWidth 32⟩] } ∧
          (t.core.dev.ctx e k).retq = (s.core.dev.ctx e k).retq ++ [some (statusWord s.core.dev 0 0 false)] ∧
          ∀ m, m ≠ n → t.core.dev.chOut m = s.core.dev.chOut m) ∧
      (∀ a, isAxis a = true → Runs (.ard e k a 0x10) s [.ctxs] fun t =>
        (t.core.dev.ctx e k).retq = (s.core.dev.ctx e k).retq ++ [some ((s.core.dev.axis a).cfg.ghmax.setWidth 64)]) ∧
      (∀ a, isAxis a = true → Runs (.awr e k a 0x10 v) s [.ctxs, .ax] fun t =>
        t.core.dev.axis a = { s.core.dev.axis a with cfg := { (s.core.dev.axis a).cfg with ghmax := v.setWidth 32 } } ∧
        ∀ b, b ≠ a → t.core.dev.axis b = s.core.dev.axis b) ∧
      (∀ n blk imm2, isPin n = true → isBlock blk = true → Runs (.decrd e k n imm2 v blk) s [.ctxs, .mem] fun t =>
        t.core.dev.read64 (dataAddr (e / 4) blk) = (s.core.dev.dec n).total.setWidth 64 ∧
        t.core.dev.read64 (dataAddr (e / 4) blk + 3) = (s.core.dev.dec n).ustamp ∧
        t.core.dev.read64 (dataAddr (e / 4) blk + 6) = (Bank.get {} (s.core.dev.dec n).ring (fld imm2 0 4)).stamp ∧
        t.core.dev.read64 (dataAddr (e / 4) blk + 7) = (Bank.get {} (s.core.dev.dec n).ring (fld imm2 0 4)).attr.setWidth 64 ∧
        ∀ j, j < dataAddr (e / 4) blk ∨ dataAddr (e / 4) blk + 8 ≤ j → t.core.dev.read64 j = s.core.dev.read64 j) ∧
      (∀ a blk, isAxis a = true → isBlock blk = true → loadValid s.core.dev a = false →
        Runs (.mload e k a blk) s [.ctxs] fun t =>
          (t.core.dev.ctx e k).retq = (s.core.dev.ctx e k).retq ++ [some (statusWord s.core.dev 2 0 false)]) ∧
      (∀ a blk, isAxis a = true → isBlock blk = true → loadValid s.core.dev a = true → (s.core.dev.axis a).st.model = true →
        (s.core.dev.axis a).st.dir = false → (s.core.dev.read64 (dataAddr (e / 4) (blk % 65536))).toInt = (s.core.dev.axis a).trk.c →
        Runs (.mload e k a blk) s [.ctxs, .ax] fun t =>
          (t.core.dev.axis a).trk.pace.rate =
            clampTo rateMax ((s.core.dev.read64 (dataAddr (e / 4) (blk % 65536) + 1)).toNat : Int) ∧
          (t.core.dev.axis a).st.model = true ∧ (t.core.dev.axis a).trk.c = (s.core.dev.axis a).trk.c ∧
          ∀ b, b ≠ a → t.core.dev.axis b = s.core.dev.axis b) ∧
      (∀ a blk, isAxis a = true → isBlock blk = true → takesSegment s.core.dev a = false →
        Runs (.segld e k a blk) s [.ctxs] fun t =>
          (t.core.dev.ctx e k).retq = (s.core.dev.ctx e k).retq ++ [some (statusWord s.core.dev 2 0 false)]) ∧
      (∀ a blk, isAxis a = true → isBlock blk = true → axEn (s.core.dev.axis a) = true → axKind (s.core.dev.axis a) = 1 →
        (s.core.dev.axis a).mdl.segOn = false →
        Runs (.segld e k a blk) s [.ctxs, .ax, .chases] fun t =>
          (t.core.dev.axis a).mdl.segOn = true ∧
          (t.core.dev.axis a).mdl.seg = ⟨s.core.dev.read64 (dataAddr (e / 4) (blk % 65536)),
            s.core.dev.read64 (dataAddr (e / 4) (blk % 65536) + 1), s.core.dev.read64 (dataAddr (e / 4) (blk % 65536) + 2),
            s.core.dev.read64 (dataAddr (e / 4) (blk % 65536) + 3)⟩) ∧
      (∀ n blk, isChannel n = true → isBlock blk = true → Runs (.chrd e k n blk) s [.ctxs, .ch, .mem, .free] fun t =>
        t.core.dev.chCap n = { s.core.dev.chCap n with caps := clrBit (clrBit (s.core.dev.chCap n).caps 1) 2 } ∧
        t.core.dev.read64 (dataAddr (e / 4) blk + 4) = (s.core.dev.chCap n).cap0.setWidth 64 ∧
        ∀ m, m ≠ n → t.core.dev.chCap m = s.core.dev.chCap m) ∧
      (∀ n blk, isChannel n = true → isBlock blk = true → isStage s.core.dev n = false → stagesAbove s.core.dev n = [] →
        Runs (.chwr e k n blk) s [.ctxs, .ch] fun t =>
          t.core.dev.chCnt n = { s.core.dev.chCnt n with
            wshadow := none, wr := some ((s.core.dev.read64 (dataAddr (e / 4) (blk % 65536))).setWidth 32) } ∧
          ∀ m, m ≠ n → t.core.dev.chCnt m = s.core.dev.chCnt m) ∧
      (∀ blk, isBlock blk = true → Runs (.arm e k blk) s [.ctxs, .chases, .gl, .ic, .ne] fun t =>
        (t.core.dev.ctx e k).retq.length = (s.core.dev.ctx e k).retq.length + 1 ∧
        (fifoFull s.core.dev = true → t.core.dev.chases = s.core.dev.chases ∧
          t.core.dev.gl.chaseFull = incSat s.core.dev.gl.chaseFull ∧
          (t.core.dev.ctx e k).retq = (s.core.dev.ctx e k).retq ++ [some (statusWord s.core.dev 3 0 false)])) ∧
      (∀ cs j ent blk, cs < 16 → j < 64 → isBlock blk = true → Bank.get none (s.core.dev.chase cs).entries j = some ent →
        commitsNow s.core.dev cs j = false →
        (Runs (.retime e k (64 * cs + j) v blk) s [.ctxs, .chases] fun t =>
          Bank.get none (t.core.dev.chase cs).entries j = some { ent with
            t := s.core.dev.read64 (dataAddr (e / 4) (blk % 65536)), g := s.core.dev.read64 (dataAddr (e / 4) (blk % 65536) + 1) } ∧
          ∀ i, i ≠ j → Bank.get none (t.core.dev.chase cs).entries i = Bank.get none (s.core.dev.chase cs).entries i) ∧
        (Runs (.wdraw e k (64 * cs + j)) s [.ctxs, .chases] fun t =>
          Bank.get none (t.core.dev.chase cs).entries j = none) ∧
        (Runs (.durw e k (64 * cs + j) v) s [.ctxs, .chases] fun t =>
          Bank.get none (t.core.dev.chase cs).entries j = some { ent with d := (v.setWidth 32).toNat })) ∧
      (∀ cs j, cs < 16 → j < 64 → Bank.get none (s.core.dev.chase cs).entries j = none ∨ commitsNow s.core.dev cs j = true →
        Runs (.wdraw e k (64 * cs + j)) s [.ctxs] fun t =>
          (t.core.dev.ctx e k).retq = (s.core.dev.ctx e k).retq ++ [some (statusWord s.core.dev 1 (64 * cs + j) false)]) ∧
      (∀ n, isComp n = true → (s.core.dev.comp n).r.txf = false → Runs (.cpop e k n 0 v) s [.ctxs, .comps] fun t =>
        (t.core.dev.comp n).r = { (s.core.dev.comp n).r with txd := v.setWidth 32, txf := true } ∧
        ∀ m, m ≠ n → t.core.dev.comp m = s.core.dev.comp m) ∧
      (∀ n, n < 128 → Runs (.greg e k (BitVec.ofNat 32 (0x80020004 + 64 * n)) v) s [.ctxs, .br] fun t =>
        t.core.dev.pair n = { s.core.dev.pair n with dtr := v.setWidth 32 &&& 0x3FFFF#32 } ∧
        ∀ m, m ≠ n → t.core.dev.pair m = s.core.dev.pair m)) ∧
    (4 ≤ (s.core.dev.ctx e k).retq.length → (s.core.dev.eng e).pendFault = none →
      Runs (.wdraw e k 0) s [.ctxs, .ne] fun t =>
        (t.core.dev.eng e).pendFault = some (7, k, (s.core.dev.ctx e k).pc.toNat) ∧ (t.core.dev.ctx e k).faulted = true ∧
        (t.core.dev.ctx e k).retq = (s.core.dev.ctx e k).retq) ∧
    (∀ q, q < 4 → (s.core.dev.lane q).ops = [] → exec (.channelBusGrant q) s = .next s) ∧
    (∀ q o, q < 4 → (s.core.dev.lane q).ops = [o] → o.eng = 4 * q → o.op = 0xC → o.target < 1024 → o.ctx < 4 →
      (s.core.dev.ctx o.eng o.ctx).retq = [none] →
      Bank.get none (s.core.dev.chase (o.target / 64)).entries (o.target % 64) = none →
      Runs (.channelBusGrant q) s [.lanes, .ctxs] fun t =>
        (t.core.dev.lane q).ops = [] ∧ (t.core.dev.lane q).last = 0 ∧
        (t.core.dev.ctx o.eng o.ctx).retq = [some (statusWord s.core.dev 1 o.target false)]) ∧
    (s.core.dev.store.openState ≠ 1 → exec .openFormeLoadDone s = .next s) ∧
    (s.core.dev.store.openState = 1 → openEnd s.core s.core.dev.store.image = ⟨.lifecycle, 1, 0⟩ →
      Runs .openFormeLoadDone s [.store, .ic, .ne] fun t =>
        t.core.dev.store.openState = s.core.dev.store.openPrev ∧ t.core.dev.store.openResult = loadCodeNo .lifecycle ∧
        t.core.dev.store.words = s.core.dev.store.words ∧ t.core.dev.store.loState = 3)

/-! ### Interrupts and crossings -/

/-- R299–R301, R304–R306, R309, R422: an event or a software set makes its source pending, or records it as lost; a doorbell
fires its message source as an event does, and a larger number is ignored with DB_REJ; a pin source with SENSE 00b fires at
its rise; the set and clear registers, the completion and the source register; the level of a host vector and its message; a
wake latch in HOLD. -/
def Obligations.InterruptSources : Prop :=
  ∀ (s : State) (n : Nat), isSource n = true →
    (live s.core.dev = true →
      ((s.core.dev.source n).pend = false → (s.core.dev.source n).act = false →
        Runs (.interruptEvent n) s [.ic, .ne] fun t =>
          t.core.dev.source n = { s.core.dev.source n with pend := true } ∧
          ∀ m, m ≠ n → t.core.dev.source m = s.core.dev.source m) ∧
      ((s.core.dev.source n).pend = true → (n < 0x100 ∨ 0x200 ≤ n) →
        Runs (.interruptEvent n) s [.ic] fun t =>
          t.core.dev.source n = { s.core.dev.source n with lost := true } ∧
          ∀ m, m ≠ n → t.core.dev.source m = s.core.dev.source m) ∧
      (∀ v, fld v 0 10 = n → n < 256 → (s.core.dev.source n).pend = false → (s.core.dev.source n).act = false →
        Runs (.icDbell v) s [.ic, .ne] fun t => t.core.dev.source n = { s.core.dev.source n with pend := true }) ∧
      (∀ v, fld v 0 10 = n → n < 256 → exec (.icDbell v) s = exec (.interruptEvent n) s) ∧
      (∀ v, fld v 0 10 = n → 256 ≤ n →
        Runs (.icDbell v) s [.ic] fun t => t.core.dev.ic = { s.core.dev.ic with stat := orBit s.core.dev.ic.stat 0 }) ∧
      (Runs (.icSetp (n / 32) (BitVec.ofNat 32 (2 ^ (n % 32)))) s [.ic, .ne] fun t =>
        ((t.core.dev.source n).pend = true ∨ ((s.core.dev.source n).act = true ∧ (t.core.dev.source n).act = true)) ∧
        ∀ m, m ≠ n → t.core.dev.source m = s.core.dev.source m) ∧
      ((n < 0x100 ∨ 0x200 ≤ n) → Runs (.icPendClear (n / 32) (BitVec.ofNat 32 (2 ^ (n % 32)))) s [.ic] fun t =>
        t.core.dev.source n = { s.core.dev.source n with pend := false } ∧
        ∀ m, m ≠ n → t.core.dev.source m = s.core.dev.source m) ∧
      (0x100 ≤ n → n < 0x200 → Runs (.icPendClear (n / 32) (BitVec.ofNat 32 (2 ^ (n % 32)))) s [.ic, .ne] fun t =>
        t.core.dev.source n = { s.core.dev.source n with
          pend := decide (srcSense (s.core.dev.source n) = 3) && (s.core.dev.source n).level && !(s.core.dev.source n).act } ∧
        ∀ m, m ≠ n → t.core.dev.source m = s.core.dev.source m) ∧
      (∀ k v, k < 32 → fld v 0 10 = n → isTarget k = true → (s.core.dev.source n).act = true → srcTgt (s.core.dev.source n) = k →
        (n < 0x100 ∨ 0x200 ≤ n) →
        Runs (.complete k v) s [.ic] fun t =>
          t.core.dev.source n = { s.core.dev.source n with act := false } ∧
          ∀ m, m ≠ n → t.core.dev.source m = s.core.dev.source m) ∧
      (∀ k v, k < 32 → fld v 0 10 = n → (s.core.dev.source n).act = false →
        Runs (.complete k v) s [.ic] fun t => t.core.dev.ic = { s.core.dev.ic with stat := orBit s.core.dev.ic.stat 2 }) ∧
      (∀ v, n < 0x3AE → srcEn (s.core.dev.source n) = false → (s.core.dev.source n).act = false →
        (n < 0x100 ∨ 0x200 ≤ n) →
        Runs (.icSourceWrite n v) s [.ic, .ne] fun t =>
          srcEn (t.core.dev.source n) = bit v 31 ∧ srcTgt (t.core.dev.source n) = fld v 16 5 ∧
          srcPri (t.core.dev.source n) = fld v 0 3 ∧ (t.core.dev.source n).pend = (s.core.dev.source n).pend ∧
          ∀ m, m ≠ n → t.core.dev.source m = s.core.dev.source m) ∧
      (srcEn (s.core.dev.source n) = false →
        Runs (.claimableSpanEnd n) s [.ic] fun t =>
          t.core.dev.source n = { s.core.dev.source n with span := false } ∧
          ∀ m, m ≠ n → t.core.dev.source m = s.core.dev.source m) ∧
      (∀ v, v < 4 → winner v s.core.dev = some n → s.core.dev.ic.vlevel.getLsbD v = false → s.core.dev.hi.pcieReset = false →
        s.core.dev.hi.pcie.msixEn = true → s.core.dev.hi.pcie.mask.getLsbD v = true →
        Runs (.hostVectorMessage v) s [.ic, .hi] fun t =>
          t.core.dev.ic.vlevel.getLsbD v = true ∧ t.core.dev.hi.pcie.pend.getLsbD v = true ∧
          t.core.dev.hi.pcie.sent = s.core.dev.hi.pcie.sent) ∧
      (∀ v, v < 4 → winner v s.core.dev = none → exec (.hostVectorMessage v) s = .next s)) ∧
    (∀ p lvl, isPin p = true → n = 0x100 + p → live s.core.dev = true → srcSense (s.core.dev.source n) = 0 →
      (s.core.dev.source n).pend = false → (s.core.dev.source n).act = false →
      Runs (.pinSenseAccept p lvl) s [.ic, .ne] fun t =>
        t.core.dev.source n = { s.core.dev.source n with
          level := lvl, count := 0, pend := !(s.core.dev.source n).level && lvl } ∧
        ∀ m, m ≠ n → t.core.dev.source m = s.core.dev.source m) ∧
    (∀ v, v < 4 → (s.core.dev.hi.pcie.msixEn && s.core.dev.hi.pcie.pend.getLsbD v && s.core.dev.ic.vlevel.getLsbD v) = false →
      Runs (.msixUnmask v) s [.hi] fun t =>
        t.core.dev.hi.pcie.mask.getLsbD v = false ∧ t.core.dev.hi.pcie.pend.getLsbD v = false ∧
        t.core.dev.hi.pcie.sent = s.core.dev.hi.pcie.sent) ∧
    (∀ p rise, p < 256 → (s.core.dev.pw.state ≠ .hold → exec (.wakeLatch p rise) s = .next s) ∧
      (s.core.dev.pw.state = .hold → wakeLatchCatches (s.core.dev.source (0x100 + p)) rise = true → s.core.dev.pw.waking = true →
        s.core.dev.pw.wakeCause = 2 → s.core.dev.pw.wakeSource ≤ 0x100 + p →
        Runs (.wakeLatch p rise) s [.ic] fun t =>
          t.core.dev.source (0x100 + p) = { s.core.dev.source (0x100 + p) with wakeSet := true }))

/-- R320–R323, R375: a reset of the PCIe endpoint or of a MAC's line side quiesces its crossing, with the entries in flight
counted as overruns, and holds its reset flag until the resync; the core's registers stay. -/
def Obligations.CrossingResets : Prop :=
  ∀ (s : State),
    (Runs (.pcieReset 0) s [.ic, .hi] fun t =>
      t.core.dev.hi.pcieReset = true ∧ bit t.core.dev.ic.xstat 2 = true ∧ (t.core.dev.path 0).latch = [] ∧
      t.core.dev.hi.pcie.msixEn = false ∧ t.core.dev.ic.sources = s.core.dev.ic.sources ∧
      ∀ q, q ≠ 0 → t.core.dev.path q = s.core.dev.path q) ∧
    (∀ k, 0 < k → s.core.dev.ic.xsel = 0 →
      Runs (.pcieReset k) s [.ic, .hi] fun t =>
        Bank.get 0 t.core.dev.ic.xovr 2 = addSat (Bank.get 0 s.core.dev.ic.xovr 2) k ∧ bit t.core.dev.ic.xstat 1 = true ∧
        bit t.core.dev.ic.xstat 2 = true ∧ t.core.dev.hi.pcieReset = true) ∧
    (∀ m, isMac m = true → live s.core.dev = true →
      Runs (.macLineReset m 0) s [.ic] fun t =>
        bit t.core.dev.ic.xstat (4 + m) = true ∧ t.core.dev.ic.sources = s.core.dev.ic.sources) ∧
    (Runs (.crossingResync 0) s [.ic, .hi] fun t =>
      t.core.dev.hi.pcieReset = false ∧ bit t.core.dev.ic.xstat 2 = false ∧ t.core.dev.hi.paths = s.core.dev.hi.paths) ∧
    (Runs (.crossingResync 1) s [.ic, .hi] fun t => t.core.dev.hi.qspiReset = false ∧ bit t.core.dev.ic.xstat 3 = false) ∧
    (∀ m, m < 4 → (emEnabled (s.core.dev.mac m) = true →
        Runs (.crossingResync (m + 2)) s [.ic] fun t => bit t.core.dev.ic.xstat (4 + m) = false) ∧
      (emEnabled (s.core.dev.mac m) = false → exec (.crossingResync (m + 2)) s = .next s))

/-! ### Field ports -/

/-- R332–R350: a cyclic exchange leaves with its frame and its new SEQB, that of a gate-drive head with the oldest entries queued
4 TCLK before; a good response ends the service, gives its status, its samples or its input levels; a missing response is repeated
while retries remain, and then the service is skipped; an acyclic exchange starts; identification, a part of a parameter read, the
last setup write of an enumerated head; enabling, with BDIV too small and with a plan; disabling, loading, enumerating. A response on
a port with no exchange changes nothing. -/
def Obligations.FieldPorts : Prop :=
  ∀ (s : State) (p : Nat), isFieldPort p = true → live s.core.dev = true →
    (∀ h, h / 32 = p → fpEn (s.core.dev.fp p) = true → (s.core.dev.fp p).line = none →
      planned (s.core.dev.head h) (s.core.dev.head h).use = true → (s.core.dev.fp p).unplanned = false →
      s.core.dev.tick.number.toNat % 2 ^ hdRdiv (s.core.dev.head h).use = hdRph (s.core.dev.head h).use →
      (s.core.dev.head h).sent = [] →
      ((s.core.dev.head h).htype = 1 → Runs (.cyclicExchangeStart h) s [.heads, .fps] fun t =>
        (∃ x, (t.core.dev.fp p).line = some x ∧ x.head = h ∧ x.acy = none ∧ x.x = s.core.dev.tb.time ∧
          x.start = s.core.dev.tb.tclk ∧ x.frame.length = 4 ∧ x.frame.head? = some (BitVec.ofNat 8 (h % 32))) ∧
        (t.core.dev.head h).seqb = (s.core.dev.head h).seqb ^^^ 1#4 ∧ (t.core.dev.head h).moved = false ∧
        ∀ q, q ≠ p → t.core.dev.fp q = s.core.dev.fp q) ∧
      (∀ l, (s.core.dev.head h).htype = 2 →
        (((s.core.dev.head h).eq.filter fun e => decide (e.tclk + 4 ≤ s.core.dev.tb.tclk)).take
          (hdN (s.core.dev.head h) (s.core.dev.head h).use)) = l →
        Runs (.cyclicExchangeStart h) s [.heads, .fps, .lk, .ic, .ne] fun t =>
          (∃ x cmd, (t.core.dev.fp p).line = some x ∧ x.head = h ∧ x.acy = none ∧ x.n = l.length ∧
            x.frame = requestFrame h cmd (l.flatMap fun e => leBytes 4 (edgeWord s.core.dev.tb.time e).toNat)) ∧
          (t.core.dev.head h).sent = l ∧ (t.core.dev.head h).eq = (s.core.dev.head h).eq ∧
          ∀ q, q ≠ p → t.core.dev.fp q = s.core.dev.fp q)) ∧
    (∀ h, h < 2048 → h / 32 = p → fpEn (s.core.dev.fp p) = false → exec (.cyclicExchangeStart h) s = .next s) ∧
    (∀ x frame st, (s.core.dev.fp p).line = some x → x.acy = none → frameStatus frame = st → bit st 6 = false → bit st 7 = false →
      ((s.core.dev.head x.head).htype = 2 → frameGood x frame false 0 = true →
        Runs (.gateDriveResponse p frame false) s [.heads, .fps] fun t =>
          (t.core.dev.fp p).line = none ∧ (t.core.dev.head x.head).hstat = st ∧ (t.core.dev.head x.head).sent = [] ∧
          (t.core.dev.head x.head).eq = (s.core.dev.head x.head).eq.drop (s.core.dev.head x.head).sent.length ∧
          (∀ q, q ≠ p → t.core.dev.fp q = s.core.dev.fp q) ∧ ∀ q, q ≠ x.head → t.core.dev.head q = s.core.dev.head q) ∧
      ((s.core.dev.head x.head).htype = 1 → frameGood x frame false (3 * x.n) = true →
        Runs (.encoderResponse p frame false) s [.heads, .fps, .ax] fun t =>
          (t.core.dev.fp p).line = none ∧ (t.core.dev.head x.head).hstat = st ∧
          (bit st 4 = false ∨ x.skip = true → t.core.dev.ax = s.core.dev.ax) ∧
          (∀ a, bit st 4 = true → x.skip = false → axesOfHead s.core.dev x.head = [a] →
            (t.core.dev.axis a).mdl.samples = (s.core.dev.axis a).mdl.samples ++ (List.range x.n).map fun j =>
              (BitVec.ofNat 32 (leNat (slice (frameBody frame) (3 * j) 3)),
               plusInt x.xnom (-(((x.n - 1 - j) * hdQ s.core.dev (s.core.dev.head x.head) (s.core.dev.head x.head).use * 64 : Nat) : Int)),
               x.tick))) ∧
      ((s.core.dev.head x.head).htype = 3 → frameGood x frame false 2 = true →
        Runs (.ioResponse p frame false) s [.heads, .fps, .ds] fun t =>
          (t.core.dev.fp p).line = none ∧
          (t.core.dev.head x.head).inputs = BitVec.ofNat 16 (leNat (frameBody frame)) ∧
          t.core.dev.ds.trigs = s.core.dev.ds.trigs ++
            edgeGroups s.core.dev x.head (s.core.dev.head x.head).inputs (BitVec.ofNat 16 (leNat (frameBody frame))))) ∧
    (∀ x, (s.core.dev.fp p).line = some x → x.tries < fpRetry (s.core.dev.fp p) → x.last = false →
      (∀ r, x.acy = some r → acyInTime s.core.dev (s.core.dev.fp p) r = true) →
      Runs (.noResponse p) s [.fps, .lk, .ic, .ne] fun t =>
        (t.core.dev.fp p).line =
          some { x with tries := x.tries + 1, x := s.core.dev.tb.time, start := s.core.dev.tb.tclk } ∧
        (x.acy = none → (t.core.dev.fp p).delay = (s.core.dev.fp p).delay +
          hdLen (s.core.dev.head x.head) (s.core.dev.head x.head).use * fpBt (s.core.dev.fp p)) ∧
        (t.core.dev.fp p).norc = incSat (s.core.dev.fp p).norc ∧ (t.core.dev.fp p).retryc = incSat (s.core.dev.fp p).retryc ∧
        bit (t.core.dev.fp p).stat 4 = true) ∧
    (∀ x, (s.core.dev.fp p).line = some x → x.acy = none → fpRetry (s.core.dev.fp p) ≤ x.tries →
      Runs (.noResponse p) s [.fps, .lk, .heads, .ic, .ne] fun t =>
        (t.core.dev.fp p).line = none ∧ bit (t.core.dev.head x.head).stat 3 = true ∧
        (t.core.dev.head x.head).eq = (s.core.dev.head x.head).eq) ∧
    ((s.core.dev.fp p).line = none →
      ∀ i, i ∈ [Instr.noResponse p, .gateDriveResponse p [] true, .encoderResponse p [] true, .ioResponse p [] true,
          .identifyResponse p [] true 0, .readResponse p [] true, .writeResponse p [] true] → exec i s = .next s) ∧
    (∀ h rest, (s.core.dev.fp p).acy = { head := h, kind := .identify } :: rest → fpEn (s.core.dev.fp p) = true →
      (s.core.dev.fp p).line = none → (bitGrains (s.core.dev.fp p) 160 : Int) ≤ sdiff s.core.dev.tick.next s.core.dev.tb.time →
      Runs (.acyclicExchangeStart p) s [.fps] fun t =>
        (t.core.dev.fp p).acy = rest ∧
        (∃ x, (t.core.dev.fp p).line = some x ∧ x.head = h ∧ x.frame = requestFrame h 0xC1 [0, 0]) ∧
        ∀ q, q ≠ p → t.core.dev.fp q = s.core.dev.fp q) ∧
    (∀ x frame trip, (s.core.dev.fp p).line = some x → x.acy = some { head := x.head, kind := .identify } →
      frameGood x frame false 4 = true → 2 * ((trip + 32) / 64 * 32) ≤ bitGrains (s.core.dev.fp p) 10 →
      Runs (.identifyResponse p frame false trip) s [.fps] fun t =>
        (t.core.dev.fp p).line = none ∧
        (∀ b, (frameBody frame).drop 1 = b → ∃ q k, k = AcyKind.setup (b.getD 0 0).toNat (b.getD 1 0).toNat (b.getD 2 0).toNat
            ((trip + 32) / 64 * 32) q ∧
          (t.core.dev.fp p).acy = { head := x.head, kind := k } :: (s.core.dev.fp p).acy)) ∧
    (∀ x frame r pidx, (s.core.dev.fp p).line = some x → x.acy = some r → r.kind = .read pidx (r.done + x.n + 1) →
      frameGood x frame false (1 + x.n) = true →
      Runs (.readResponse p frame false) s [.fps] fun t =>
        (t.core.dev.fp p).line = none ∧
        (t.core.dev.fp p).acy =
          { r with done := r.done + x.n, tries := 0, got := r.got ++ (frameBody frame).drop 1 } :: (s.core.dev.fp p).acy) ∧
    (∀ x frame r ty ver cap ld q, (s.core.dev.fp p).line = some x → x.acy = some r → r.kind = .setup ty ver cap ld q → ty ≤ 3 →
      8 ≤ r.done + x.n → frameGood x frame false 1 = true → (s.core.dev.fp p).enumAt = none →
      Runs (.writeResponse p frame false) s [.fps, .heads] fun t =>
        (t.core.dev.fp p).line = none ∧ (t.core.dev.head x.head).enumd = true ∧ (t.core.dev.head x.head).htype = ty ∧
        (t.core.dev.head x.head).cap = BitVec.ofNat 32 cap ∧ (t.core.dev.head x.head).ld = BitVec.ofNat 20 ld ∧
        (t.core.dev.head x.head).q = q) ∧
    (fpEn (s.core.dev.fp p) = false → fld (s.core.dev.fp p).cfg 8 8 < 4 →
      Runs (.portEnable p) s [.fps, .lk, .ic, .ne] fun t =>
        fpEn (t.core.dev.fp p) = false ∧ bit (t.core.dev.fp p).stat 2 = true) ∧
    (fpEn (s.core.dev.fp p) = false → 4 ≤ fld (s.core.dev.fp p).cfg 8 8 →
      (planSlot (s.core.dev.updFp p fun f => { f with cfg := orBit f.cfg 31, shifted := false, delay := 0, unplanned := false }) p (stagedCfg s.core.dev)).isSome = true →
      Runs (.portEnable p) s [.fps, .heads] fun t =>
        fpEn (t.core.dev.fp p) = true ∧ (t.core.dev.fp p).planBusy = true ∧
        ∀ h, h / 32 = p → (t.core.dev.head h).next = some (s.core.dev.head h).cfg) ∧
    (fpEn (s.core.dev.fp p) = true → (s.core.dev.fp p).acy = [] → (s.core.dev.fp p).enumAt = none →
      Runs (.portDisable p) s [.fps, .lk, .heads, .ax, .ic, .ne] fun t =>
        fpEn (t.core.dev.fp p) = false ∧ (t.core.dev.fp p).planBusy = false ∧ (t.core.dev.fp p).acy = [] ∧
        (∀ h, h / 32 = p → (t.core.dev.head h).eq = [] ∧ (t.core.dev.head h).sent = []) ∧
        ∀ h, h / 32 ≠ p → t.core.dev.head h = s.core.dev.head h) ∧
    (fpEn (s.core.dev.fp p) = false → exec (.portDisable p) s = .next s) ∧
    ((s.core.dev.fp p).planBusy = true →
      Runs (.load p) s [.fps, .lk, .ic, .ne] fun t =>
        bit (t.core.dev.fp p).stat 10 = true ∧ (t.core.dev.fp p).acy = (s.core.dev.fp p).acy) ∧
    ((s.core.dev.fp p).planBusy = false → fpEn (s.core.dev.fp p) = false → (s.core.dev.fp p).offIn = some s.core.dev.tb.tclk →
      exec (.load p) s = .next s) ∧
    ((s.core.dev.fp p).planBusy = false → fpEn (s.core.dev.fp p) = true ∨ (s.core.dev.fp p).offIn ≠ some s.core.dev.tb.tclk →
      (planSlot s.core.dev p (stagedCfg s.core.dev)).isSome = true →
      Runs (.load p) s [.fps, .heads] fun t =>
        (t.core.dev.fp p).planBusy = true ∧ ∀ h, h / 32 = p → (t.core.dev.head h).next = some (s.core.dev.head h).cfg) ∧
    (fpEn (s.core.dev.fp p) = true → (s.core.dev.fp p).enumAt = none → s.core.dev.lo.enum.op.state ≠ 1 →
      Runs (.enum p) s [.fps, .lo] fun t =>
        (t.core.dev.fp p).enumAt = some 0 ∧
        (t.core.dev.fp p).acy = (s.core.dev.fp p).acy ++ [{ head := 32 * p, kind := .identify }] ∧
        t.core.dev.lo.enum.op.state = 1 ∧ t.core.dev.lo.enum.total = 32) ∧
    (fpEn (s.core.dev.fp p) = false →
      Runs (.enum p) s [.fps, .lk, .ic, .ne] fun t =>
        bit (t.core.dev.fp p).stat 2 = true ∧ (t.core.dev.fp p).enumAt = (s.core.dev.fp p).enumAt) ∧
    (s.core.dev.lo.enum.op.state ≠ 1 → exec .enumerationDone s = .next s) ∧
    (s.core.dev.lo.enum.op.state = 1 → s.core.dev.lo.enum.boot = false → s.core.dev.lo.enum.refused = false →
      (s.core.dev.fps.all fun e => e.2.enumAt.isNone) = true →
      Runs .enumerationDone s [.lo, .ic, .ne] fun t =>
        t.core.dev.lo.enum.op.state = 2 ∧ t.core.dev.lo.enum.op.progress = 10000)

/-! ### Bamben Link and the domain -/

/-- R354–R366, R368, R369, R362: the gates of the cyclic window, with what waits for its end and the trajectory that misses it; a
trajectory frame that a locked worker accepts, refuses as late, as stale or as foreign; a summary that leaves in the window, or is
dropped while the gate is closed; the summaries and full statuses a manager takes for the work of its next tick (R21); a lost master,
a lost worker, a standby that takes over and one that does not. -/
def Obligations.LinkFrames : Prop :=
  ∀ (s : State) (m : Nat), isMac m = true → live s.core.dev = true →
    (cyclicMac s.core.dev m = false → exec (.cyclicGateOpen m) s = .next s) ∧
    (cyclicMac s.core.dev m = true → s.core.dev.lk.formed = none →
      Runs (.cyclicGateOpen m) s [.lk] fun t =>
        t.core.dev.mac m = { s.core.dev.mac m with gate := true } ∧ t.core.dev.lk.sent = s.core.dev.lk.sent ∧
        ∀ k, k ≠ m → t.core.dev.mac k = s.core.dev.mac k) ∧
    (∀ f, cyclicMac s.core.dev m = true → s.core.dev.lk.formed = some f → bit s.core.dev.lk.sentOn m = false →
      fitsWindow s.core.dev (s.core.dev.mac m) 0 (linkPayload s.core.dev 1 s.core.dev.tick.number (trajBody f)).length = true →
      Runs (.cyclicGateOpen m) s [.lk] fun t =>
        t.core.dev.lk.sent = s.core.dev.lk.sent ++
          [⟨m, groupAddress s.core.dev, s.core.dev.lk.cfg.pcp, linkPayload s.core.dev 1 s.core.dev.tick.number (trajBody f)⟩] ∧
        bit t.core.dev.lk.sentOn m = true) ∧
    ((s.core.dev.mac m).gate = true → roleManager s.core.dev = false →
      ((s.core.dev.mac m).held = [] → Runs (.cyclicGateClose m) s [.lk] fun t =>
        t.core.dev.mac m = { s.core.dev.mac m with gate := false } ∧ ∀ k, k ≠ m → t.core.dev.mac k = s.core.dev.mac k) ∧
      (∀ kind dest data n l, (s.core.dev.mac m).held = [.reply kind dest data, .datagram n l] →
        Runs (.cyclicGateClose m) s [.lk, .ds] fun t =>
          t.core.dev.mac m = { s.core.dev.mac m with gate := false, held := [] } ∧
          t.core.dev.lk.replies = s.core.dev.lk.replies ++ [(m, kind, dest, data)] ∧
          t.core.dev.ds = { s.core.dev.ds with sent := s.core.dev.ds.sent ++ [(n, l)] })) ∧
    ((s.core.dev.mac m).gate = true → roleManager s.core.dev = true → cyclicMac s.core.dev m = true →
      bit s.core.dev.lk.sentOn m = false → (s.core.dev.mac m).held = [] →
      Runs (.cyclicGateClose m) s [.lk, .ic, .ne] fun t =>
        (t.core.dev.mac m).gate = false ∧ bit (t.core.dev.mac 0).stat 9 = true ∧ t.core.dev.lk.sent = s.core.dev.lk.sent) ∧
    ((s.core.dev.mac m).gate = false → exec (.cyclicGateClose m) s = .next s) ∧
    (∀ src f, isTrajectory f = true →
      (f.domain ≠ s.core.dev.lk.cfg.domainId → Runs (.trajectoryFrame m src f) s [.lk] fun t =>
        t.core.dev.lk = { s.core.dev.lk with state := domState s.core.dev }) ∧
      (cyclicMac s.core.dev m = true → f.domain = s.core.dev.lk.cfg.domainId → f.src = 0 → f.stby = false →
        tbRole s.core.dev.tb = 1 → timeHeld s.core.dev = true → atOrAfter s.core.dev.tb.time f.tref = true →
        Runs (.trajectoryFrame m src f) s [.lk] fun t =>
          (t.core.dev.mac m).latec = incSat (s.core.dev.mac m).latec ∧ t.core.dev.lk.taken = s.core.dev.lk.taken) ∧
      (cyclicMac s.core.dev m = true → f.domain = s.core.dev.lk.cfg.domainId → f.src = 0 → f.stby = false →
        tbRole s.core.dev.tb = 1 → timeHeld s.core.dev = true → atOrAfter s.core.dev.tb.time f.tref = false →
        s.core.dev.lk.accepted = true → genAfter s.core.dev.lk.gen f.gen = true →
        Runs (.trajectoryFrame m src f) s [.lk, .ic, .ne] fun t =>
          (t.core.dev.mac m).stalec = incSat (s.core.dev.mac m).stalec ∧ bit (t.core.dev.mac m).stat 4 = true ∧
          t.core.dev.lk.gen = s.core.dev.lk.gen ∧ t.core.dev.lk.taken = s.core.dev.lk.taken) ∧
      (cyclicMac s.core.dev m = true → f.domain = s.core.dev.lk.cfg.domainId → f.src = 0 → f.stby = false →
        tbRole s.core.dev.tb = 1 → timeHeld s.core.dev = true → atOrAfter s.core.dev.tb.time f.tref = false →
        s.core.dev.lk.accepted = true → s.core.dev.lk.srcMac = src → f.gen = s.core.dev.lk.gen →
        s.core.dev.lk.copyTick ≠ some f.tick → gridMismatch s.core.dev f = false →
        Runs (.trajectoryFrame m src f) s [.lk, .so] fun t =>
          t.core.dev.lk.taken = some f ∧ t.core.dev.lk.copyTick = some f.tick ∧ t.core.dev.lk.heard = true ∧
          t.core.dev.so = { s.core.dev.so with
            epochS := f.epochS, epochNs := f.epochNs, epochObjS := f.epochS, epochObjNs := f.epochNs } ∧
          t.core.dev.lk.missed = s.core.dev.lk.missed)) ∧
    ((roleFollows s.core.dev && cyclicMac s.core.dev m && s.core.dev.lk.accepted) = false → exec (.summarySend m) s = .next s) ∧
    ((roleFollows s.core.dev && cyclicMac s.core.dev m && s.core.dev.lk.accepted) = true → (s.core.dev.mac m).gate = false →
      Runs (.summarySend m) s [.lk] fun t =>
        (t.core.dev.mac m).sumdropc = incSat (s.core.dev.mac m).sumdropc ∧ t.core.dev.lk.sent = s.core.dev.lk.sent) ∧
    (∀ l, (roleFollows s.core.dev && cyclicMac s.core.dev m && s.core.dev.lk.accepted) = true → (s.core.dev.mac m).gate = true →
      s.core.dev.tick.number.toNat % 8 ≠ fullPhase s.core.dev →
      linkPayload s.core.dev 2 s.core.dev.tick.number (s.core.dev.lk.body.take 32) = l →
      fitsWindow s.core.dev (s.core.dev.mac m)
        ((s.core.dev.lk.cfg.sumOffset + ownAddress s.core.dev * s.core.dev.lk.cfg.sumSpacing) * 64) l.length = true →
      Runs (.summarySend m) s [.lk] fun t =>
        t.core.dev.lk.sent = s.core.dev.lk.sent ++ [⟨m, s.core.dev.lk.srcMac, s.core.dev.lk.cfg.pcp, l⟩] ∧
        t.core.dev.lk.macs = s.core.dev.lk.macs) ∧
    (∀ dom src a tick body, dom < 65536 → a < 256 → roleManager s.core.dev = true → cyclicMac s.core.dev m = true →
      dom = s.core.dev.lk.cfg.domainId →
      (summaryLate s.core.dev tick = false → ((s.core.dev.member a).known = false ∨ (s.core.dev.member a).mac = src) →
        (Runs (.summary m dom src a tick body) s [.lk] fun t =>
          t.core.dev.member a = { s.core.dev.member a with
            known := true, mac := src, seen := true, misses := 0, lost := false, inbox := some (tick, body, false) } ∧
          (tick ≠ s.core.dev.tick.number → (takeInbox s.core.dev.tick.number (t.core.dev.member a)).summary = body.take 32 ∧
            (takeInbox s.core.dev.tick.number (t.core.dev.member a)).full = (s.core.dev.member a).full) ∧
          ∀ b, b ≠ a → t.core.dev.member b = s.core.dev.member b) ∧
        (Runs (.fullStatus m dom src a tick body) s [.lk] fun t =>
          (t.core.dev.member a).inbox = some (tick, body, true) ∧
          (tick ≠ s.core.dev.tick.number → (takeInbox s.core.dev.tick.number (t.core.dev.member a)).full = body.take 256 ∧
            (takeInbox s.core.dev.tick.number (t.core.dev.member a)).summary = body.take 32) ∧
          ∀ b, b ≠ a → t.core.dev.member b = s.core.dev.member b)) ∧
      (summaryLate s.core.dev tick = true → Runs (.summary m dom src a tick body) s [.lk] fun t =>
        (t.core.dev.mac m).latec = incSat (s.core.dev.mac m).latec ∧ t.core.dev.member a = s.core.dev.member a)) ∧
    (∀ k, k < 64 → (roleFollows s.core.dev = false → exec (.masterLost k) s = .next s) ∧
      (roleFollows s.core.dev = true → bit s.core.dev.lk.lostMask k = false → derivedAxes s.core.dev k = [] →
        Runs (.masterLost k) s [.lk, .ic, .ne] fun t =>
          bit t.core.dev.lk.lostMask k = true ∧ bit (t.core.dev.mac 0).stat 15 = true ∧
          t.core.dev.lk.state = if s.core.dev.lk.state = .joined then .masterLost else s.core.dev.lk.state)) ∧
    (∀ a, a < 256 → roleManager s.core.dev = true → (s.core.dev.member a).known = true → (s.core.dev.member a).lost = false →
      Runs (.workerLost a) s [.lk, .ic, .ne] fun t =>
        (t.core.dev.member a).lost = true ∧ bit (t.core.dev.mac 0).stat 10 = true ∧
        ∀ b, b ≠ a → t.core.dev.member b = s.core.dev.member b) ∧
    (tbRole s.core.dev.tb ≠ 2 → exec .takeover s = .next s) ∧
    (tbRole s.core.dev.tb = 2 → domState s.core.dev ≠ .standby →
      Runs .takeover s [.lk, .ic, .ne] fun t =>
        t.core.dev.lk.blocked = s.core.dev.lk.blocked + 1 ∧ bit (t.core.dev.mac 0).stat 8 = true ∧
        t.core.dev.lk.gen = s.core.dev.lk.gen) ∧
    (tbRole s.core.dev.tb = 2 → domState s.core.dev = .standby →
      Runs .takeover s [.lk, .so, .tb, .ptp, .ic, .ne] fun t =>
        t.core.dev.ptp.best = none ∧ t.core.dev.so.tookOver = true ∧ tbRole t.core.dev.tb = 3 ∧ t.core.dev.lk.gen = s.core.dev.lk.gen + 1 ∧ t.core.dev.lk.state = .manager ∧
        t.core.dev.lk.takeovers = s.core.dev.lk.takeovers + 1)

/-- R370–R372, R360, R375: ARP and echo requests to the device's own address are answered, after the cyclic window while its gate is
open, and others are not; a datagram to another address or port, or with options or in fragments, is ignored; a malformed one is
counted; a new request of a session whose last is in service is answered busy; a session's expiry; the MAC's enable and disable with
the frames waiting counted, its link and its receive errors. -/
def Obligations.LinkServices : Prop :=
  ∀ (s : State) (m : Nat), isMac m = true → live s.core.dev = true →
    (∀ sender target, macServes s.core.dev m = true →
      (target = (s.core.dev.mac m).ip →
        ((s.core.dev.mac m).gate = false →
          (Runs (.arp m sender target) s [.lk] fun t =>
            t.core.dev.lk.replies = s.core.dev.lk.replies ++ [(m, 0, sender, beBytes 6 (s.core.dev.mac m).addr.toNat)] ∧
            t.core.dev.lk.macs = s.core.dev.lk.macs) ∧
          (∀ data, Runs (.icmpEcho m sender target data true) s [.lk] fun t =>
            t.core.dev.lk.replies = s.core.dev.lk.replies ++ [(m, 1, sender, data)] ∧
            t.core.dev.lk.macs = s.core.dev.lk.macs)) ∧
        ((s.core.dev.mac m).gate = true →
          (Runs (.arp m sender target) s [.lk] fun t =>
            t.core.dev.mac m = { s.core.dev.mac m with
              held := (s.core.dev.mac m).held ++ [.reply 0 sender (beBytes 6 (s.core.dev.mac m).addr.toNat)] } ∧
            t.core.dev.lk.replies = s.core.dev.lk.replies) ∧
          (∀ data, Runs (.icmpEcho m sender target data true) s [.lk] fun t =>
            t.core.dev.mac m = { s.core.dev.mac m with held := (s.core.dev.mac m).held ++ [.reply 1 sender data] } ∧
            t.core.dev.lk.replies = s.core.dev.lk.replies))) ∧
      (target ≠ (s.core.dev.mac m).ip →
        exec (.arp m sender target) s = .next s ∧ ∀ data, exec (.icmpEcho m sender target data true) s = .next s) ∧
      (∀ data, exec (.icmpEcho m sender target data false) s = .next s)) ∧
    (∀ ip port target dest l plain, port < 65536 → dest < 65536 →
      (macServes s.core.dev m = false ∨ target ≠ (s.core.dev.mac m).ip ∨ dest ≠ s.core.dev.lk.cfg.udpPort ∨ plain = false →
        exec (.acyclicDatagram m ip port target dest l plain) s = .next s) ∧
      (macServes s.core.dev m = true → target = (s.core.dev.mac m).ip → dest = s.core.dev.lk.cfg.udpPort →
        (l.length < 8 → Runs (.acyclicDatagram m ip port target dest l true) s [.lk] fun t =>
          t.core.dev.mac m = { s.core.dev.mac m with acyerr := incSat (s.core.dev.mac m).acyerr } ∧
          ∀ k, k ≠ m → t.core.dev.mac k = s.core.dev.mac k) ∧
        (∀ n x, sessionOf s.core.dev ip port = some (n, x) → x.busy = true → x.tag ≠ 0x101 → l = [0x42, 0x4C, 1, 1, 1, 1, 0, 0] →
          (s.core.dev.mac m).gate = false →
          Runs (.acyclicDatagram m ip port target dest l true) s [.ds] fun t =>
            t.core.dev.ds = { s.core.dev.ds with sent := s.core.dev.ds.sent ++ [(n, datagram 3 0x101 [])] }) ∧
        (∀ n x, sessionOf s.core.dev ip port = some (n, x) → x.busy = true → x.tag ≠ 0x101 → l = [0x42, 0x4C, 1, 1, 1, 1, 0, 0] →
          (s.core.dev.mac m).gate = true →
          Runs (.acyclicDatagram m ip port target dest l true) s [.lk] fun t =>
            t.core.dev.mac m = { s.core.dev.mac m with
              held := (s.core.dev.mac m).held ++ [.datagram n (datagram 3 0x101 [])] }))) ∧
    (∀ n, n < 8 → (s.core.dev.session n = none → exec (.sessionExpiry n) s = .next s) ∧
      ((s.core.dev.session n).isSome = true →
        Runs (.sessionExpiry n) s [.ds] fun t =>
          t.core.dev.session n = none ∧ t.core.dev.user (2 + n) = {} ∧
          (∀ k, k ≠ n → t.core.dev.session k = s.core.dev.session k) ∧
          t.core.dev.ds.queue = s.core.dev.ds.queue.filter fun r => r.who != .session n)) ∧
    (Runs (.macEnable m) s [.lk] fun t =>
      t.core.dev.mac m = { s.core.dev.mac m with cfg := orBit (s.core.dev.mac m).cfg 31 } ∧
      ∀ k, k ≠ m → t.core.dev.mac k = s.core.dev.mac k) ∧
    (∀ q, emEnabled (s.core.dev.mac m) = true →
      Runs (.macDisable m q) s [.lk, .ic] fun t =>
        emEnabled (t.core.dev.mac m) = false ∧ (t.core.dev.mac m).gate = false ∧ (t.core.dev.mac m).held = [] ∧
        (t.core.dev.mac m).rxdropc = addSat (s.core.dev.mac m).rxdropc (q + (s.core.dev.mac m).held.length) ∧ bit t.core.dev.ic.xstat (4 + m) = true ∧
        ∀ k, k ≠ m → t.core.dev.mac k = s.core.dev.mac k) ∧
    (∀ q, emEnabled (s.core.dev.mac m) = false → exec (.macDisable m q) s = .next s) ∧
    ((s.core.dev.mac m).linkUp = true →
      Runs (.linkDown m) s [.lk, .ic, .ne] fun t =>
        (t.core.dev.mac m).linkUp = false ∧ bit (t.core.dev.mac m).stat 3 = true) ∧
    (Runs (.linkUp m) s [.lk] fun t =>
      t.core.dev.mac m = { s.core.dev.mac m with linkUp := true } ∧ ∀ k, k ≠ m → t.core.dev.mac k = s.core.dev.mac k) ∧
    (emEnabled (s.core.dev.mac m) = true →
      Runs (.receiveError m) s [.lk, .ic, .ne] fun t =>
        (t.core.dev.mac m).rxerrc = incSat (s.core.dev.mac m).rxerrc ∧ bit (t.core.dev.mac m).stat 5 = true) ∧
    (emEnabled (s.core.dev.mac m) = false → exec (.receiveError m) s = .next s)

/-! ### The dictionary -/

/-- R381–R385, R402–R404, R243, R394: the services. An absent object is NO_OBJECT or NO_SUB whatever the service; a read answers
the value as the object's rule gives it, a description its type, access, persistence and limit, a read of all the readable
subindices in order; a write answers what the object's rule makes of the value, and refuses a read-only object, an RWK one, and a
value of the wrong length or range, and on a worker the next period before any of these (R18); a segmented read takes a snapshot and serves later segments from it; a segmented write stages
its segments in order and applies the value with the last; a keyed write that fails a check changes nothing but the count and
record of failures, and one that passes takes its counter and writes. -/
def Obligations.DictionaryServices : Prop :=
  ∀ (s : State) (w : DictWho) (index sub : Nat), live s.core.dev = true → enginesRun s.core.dev = true → isRequester w = true →
    index < 65536 → sub < 256 →
    (∀ e v last off n, findObj index sub s.core = .error e → off < 4294967296 → n < 65536 →
      Serves (.read w index sub) s w (responseBody 1 e index sub 0 0 []) s.core ∧
      Serves (.write w index sub v) s w (responseBody 2 e index sub 0 0 []) s.core ∧
      Serves (.keyedWrite w index sub v) s w (responseBody 3 e index sub 0 0 []) s.core ∧
      Serves (.describe w index sub) s w (responseBody 4 e index sub 0 0 []) s.core ∧
      Serves (.readSeg w index sub off n) s w (responseBody 5 e index sub 0 0 []) s.core ∧
      Serves (.writeSeg w index sub off last v) s w (responseBody 6 e index sub 0 0 []) s.core) ∧
    (∀ o, findObj index sub s.core = .ok o →
      Serves (.describe w index sub) s w (responseBody 4 .ok index sub o.ty 8
        ([BitVec.ofNat 8 o.ty, BitVec.ofNat 8 o.acc, if o.persist then 1 else 0, 0] ++ beBytes 4 o.limit)) s.core ∧
      (o.acc = 2 → Serves (.read w index sub) s w (responseBody 1 .writeOnly index sub o.ty 0 []) s.core) ∧
      (o.acc ≠ 2 → isParam index sub = false →
        (∀ v, o.rd w s.core = v → v.length ≤ 1452 →
          Serves (.read w index sub) s w (responseBody 1 .ok index sub o.ty v.length v) (dictReadEffect w index sub s.core)) ∧
        (1452 < (o.rd w s.core).length →
          Serves (.read w index sub) s w (responseBody 1 .tooBig index sub o.ty 0 []) s.core) ∧
        (∀ v n, o.rd w s.core = v → n < 65536 → ¬(index = 0x6000 ∧ sub = 6) →
          Serves (.readSeg w index sub 0 n) s w (responseBody 5 .ok index sub o.ty v.length (v.take n))
            (dictReadEffect w index sub (s.core.mapDev fun d => d.updUser (whoNo w) fun u =>
              { u with snap := some ⟨index, sub, v, s.core.dev.gl.orhead⟩ }))) ∧
        (∀ q off n, (s.core.dev.user (whoNo w)).snap = some q → q.index = index → q.sub = sub → 0 < off → off < 4294967296 →
          n < 65536 → ¬(index = 0x6000 ∧ sub = 6) →
          Serves (.readSeg w index sub off n) s w
            (responseBody 5 .ok index sub o.ty q.bytes.length ((q.bytes.drop off).take n)) s.core) ∧
        (∀ off n, (s.core.dev.user (whoNo w)).snap = none → 0 < off → off < 4294967296 → n < 65536 →
          Serves (.readSeg w index sub off n) s w (responseBody 5 .segment index sub o.ty 0 []) s.core)) ∧
      (∀ v, isParam index sub = false → roleFirst index sub s.core.dev = true →
        Serves (.write w index sub v) s w (responseBody 2 .role index sub o.ty 0 []) s.core) ∧
      (∀ v, isParam index sub = false → roleFirst index sub s.core.dev = false → o.acc = 0 ∨ o.acc = 4 →
        Serves (.write w index sub v) s w (responseBody 2 .readOnly index sub o.ty 0 []) s.core) ∧
      (∀ v, isParam index sub = false → roleFirst index sub s.core.dev = false → o.acc = 3 →
        Serves (.write w index sub v) s w (responseBody 2 .key index sub o.ty 0 []) s.core) ∧
      (∀ v, isParam index sub = false → roleFirst index sub s.core.dev = false → o.acc = 1 ∨ o.acc = 2 →
        (∀ e, valueFault o v = some e → Serves (.write w index sub v) s w (responseBody 2 e index sub o.ty 0 []) s.core) ∧
        (valueFault o v = none → ∀ r, o.wr w v s.core = r →
          Serves (.write w index sub v) s w (responseBody 2 r.1 index sub o.ty (if r.1 = .ok then v.length else 0) []) r.2)) ∧
      (isParam index sub = true → fpEn (s.core.dev.fp ((index - 0x3500) / 32)) = false →
        Serves (.read w index sub) s w (responseBody 1 .state index sub tyDomain 0 []) s.core) ∧
      (∀ v, Serves (.writeSeg w index sub 0 false v) s w (responseBody 6 .ok index sub o.ty v.length [])
        (setStage w (some { index := index, sub := sub, bytes := v }) s.core)) ∧
      (∀ v q, (s.core.dev.user (whoNo w)).stage = some q → q.index = index → q.sub = sub → 0 < q.bytes.length →
        q.bytes.length < 4294967296 →
        Serves (.writeSeg w index sub q.bytes.length false v) s w (responseBody 6 .ok index sub o.ty (q.bytes ++ v).length [])
          (setStage w (some { index := index, sub := sub, bytes := q.bytes ++ v }) s.core)) ∧
      (∀ v q last off, (s.core.dev.user (whoNo w)).stage = some q → off ≠ q.bytes.length → 0 < off → off < 4294967296 →
        Serves (.writeSeg w index sub off last v) s w (responseBody 6 .segment index sub o.ty 0 []) (setStage w none s.core)) ∧
      (∀ v o', findObj index sub (setStage w none s.core) = .ok o' → isParam index sub = false →
        roleFirst index sub s.core.dev = false → o'.acc = 1 ∨ o'.acc = 2 →
        valueFault o' v = none → ∀ r, o'.wr w v (setStage w none s.core) = r →
        Serves (.writeSeg w index sub 0 true v) s w
          (responseBody 6 r.1 index sub o'.ty (if r.1 = .ok then v.length else 0) []) r.2) ∧
      (∀ l, o.acc ≠ 3 → Serves (.keyedWrite w index sub l) s w (responseBody 3 .key index sub o.ty 0 [])
        (s.core.mapDev (keyFailure 1 index sub))) ∧
      (∀ v tr, o.acc = 3 → tr.length = 32 → allZero (slice tr 1 7) = true →
        (∀ k, keyedFailure s.core.vault (fromHost w) (keyedKindOf index sub) index sub v (trailerOf tr) = some k →
          Serves (.keyedWrite w index sub (v ++ tr)) s w (responseBody 3 .key index sub o.ty 0 [])
            (s.core.mapDev (keyFailure k index sub))) ∧
        (keyedFailure s.core.vault (fromHost w) (keyedKindOf index sub) index sub v (trailerOf tr) = none →
          (∀ cls o' c, keyedKindOf index sub = .plain cls → c = { s.core with vault := takeCounter (trailerOf tr) s.core.vault } →
            findObj index sub c = .ok o' → roleFirst index sub s.core.dev = false → o'.acc = 3 → valueFault o' v = none → ∀ r, o'.wr w v c = r →
            Serves (.keyedWrite w index sub (v ++ tr)) s w
              (responseBody 3 r.1 index sub o.ty (if r.1 = .ok then v.length else 0) []) r.2) ∧
          (∀ n k, keyedKindOf index sub = .key n → isBoot (trailerOf tr) = false →
            unwrapped s.core.vault (trailerOf tr) v = some k →
            Serves (.keyedWrite w index sub (v ++ tr)) s w (responseBody 3 .ok index sub o.ty v.length [])
              { s.core with vault := writeKey n k (takeCounter (trailerOf tr) s.core.vault) })))) ∧
    (indexPresent index s.core = false → Serves (.readAll w index) s w (responseBody 7 .noObject index 0 0 0 []) s.core) ∧
    (∀ items l, indexPresent index s.core = true →
      (subsOf index s.core).filterMap (fun k => match objAt index k s.core with
        | some o => if o.acc = 2 then none else some (k, o.ty, o.rd w s.core)
        | none => none) = items →
      (items.flatMap fun e => [BitVec.ofNat 8 e.1, BitVec.ofNat 8 e.2.1, BitVec.ofNat 8 e.2.2.length] ++ e.2.2) = l →
      (∀ e, e ∈ items → e.2.2.length ≤ 255) →
      (l.length ≤ 1452 → Serves (.readAll w index) s w (responseBody 7 .ok index 0 0 l.length l)
        (items.foldl (fun c e => dictReadEffect w index e.1 c) s.core)) ∧
      (1452 < l.length → Serves (.readAll w index) s w (responseBody 7 .tooBig index 0 0 0 []) s.core)) ∧
    (∀ l sid, l.length = 8 → beNat l / 2 ^ 32 % 2 ^ 18 = sid → BitVec.ofNat 32 (beNat l) = (s.core.dev.slug sid).seq →
      (s.core.dev.slug sid).state = .parked → bit s.core.dev.gl.cfg 0 = false → bit s.core.dev.gl.cfg 4 = false →
      s.core.dev.gs.granted = [] →
      Runs (.slugRemoveObject w l) s [.ds, .hi, .ic, .ne, .lk, .gs] fun t =>
        t.core.dev.slug sid = { s.core.dev.slug sid with state := .cancelled } ∧
        (t.core.dev.user (whoNo w)).reply = ⟨0, sid, (s.core.dev.slug sid).seq⟩ ∧
        (t.core.dev.user (whoNo w)).answer = responseBody 2 .ok 0x5001 2 tyU64 8 [] ∧
        ∀ m, m ≠ sid → t.core.dev.slug m = s.core.dev.slug m) ∧
    (∀ l n, l.length = 32 → slugOfImage (bytesImage l) = n → imageReserved (bytesImage l) = false → badSlug n = false →
      nextFresh s.core.dev s.core.dev.gs.fresh < 262144 → 0 < sdiff n.angle (published s.core.dev n.axis) →
      s.core.dev.gs.granted = [] →
      Runs (.slugInsertObject w l) s [.ds, .hi, .ic, .ne, .lk, .gl, .gs, .ax] fun t =>
        t.core.dev.slug (nextFresh s.core.dev s.core.dev.gs.fresh) =
          { n with seq := s.core.dev.gl.seq + 1, state := .parked, used := true } ∧
        (t.core.dev.user (whoNo w)).reply =
          ⟨0, nextFresh s.core.dev s.core.dev.gs.fresh, s.core.dev.gl.seq + 1⟩ ∧
        (t.core.dev.user (whoNo w)).answer = responseBody 2 .ok 0x5001 1 tyDomain 32 [] ∧
        ∀ m, m ≠ nextFresh s.core.dev s.core.dev.gs.fresh → t.core.dev.slug m = s.core.dev.slug m)

/-- R390–R392, R389, R423: a commit takes a snapshot and is busy until it is done, when the snapshot is the image a boot
would choose; an erase leaves no image; RESTORE writes back the one default that differs, and with a pair enabled nothing;
the third pass of the boot image; a mailbox takes a request of a legal length, and shows the response to the request of its
port. -/
def Obligations.DictionaryStore : Prop :=
  ∀ (s : State),
    (live s.core.dev = true → enginesRun s.core.dev = true →
      (s.core.dev.lo.flash.state = 1 → exec .commit s = .next s ∧ exec .erase s = .next s) ∧
      (s.core.dev.lo.flash.state ≠ 1 →
        (Runs .commit s [.ds, .lo] fun t =>
          t.core.dev.lo = { s.core.dev.lo with flash := ⟨1, 0, 0⟩, flashKind := 1 } ∧
          t.core.dev.ds.flash = s.core.dev.ds.flash ∧
          t.core.dev.ds.snap.map (·.entries) = some (changedEntries s.core)) ∧
        (Runs .erase s [.ds, .lo] fun t =>
          t.core.dev.lo = { s.core.dev.lo with flash := ⟨1, 0, 0⟩, flashKind := 2 } ∧
          t.core.dev.ds = { s.core.dev.ds with snap := none })) ∧
      (∀ p, p < 128 → pairEnabled (s.core.dev.pair p) = true → exec .restore s = .next s) ∧
      ((∀ p, p < 128 → pairEnabled (s.core.dev.pair p) = false) →
        (∀ e, e ∈ persistObjs s.core → e.2.2.rd .pcie s.core = defaultOf e.2.2) → exec .restore s = .next s) ∧
      (∀ i k o c, (∀ p, p < 128 → pairEnabled (s.core.dev.pair p) = false) → i < 0x7000 → ¬(0x1012 ≤ i ∧ i ≤ 0x1015 ∧ k = 1) →
        (i, k, o) ∈ persistObjs s.core → o.rd .pcie s.core ≠ defaultOf o → (o.wr .pcie (defaultOf o) s.core).2 = c →
        c.dev.ds.custom = s.core.dev.ds.custom →
        (∀ e, e ∈ persistObjs s.core → (e.1, e.2.1) ≠ (i, k) → e.2.2.rd .pcie s.core = defaultOf e.2.2) →
        (∀ e, e ∈ persistObjs c → e.2.2.rd .pcie c = defaultOf e.2.2) →
        exec .restore s = .next { s with core := c })) ∧
    (live s.core.dev = true →
      (∀ ok, s.core.dev.lo.flash.state ≠ 1 → exec (.commitDone ok) s = .next s) ∧
      (s.core.dev.lo.flash.state = 1 →
        (Runs (.commitDone false) s [.ds, .lo, .ic, .ne] fun t =>
          t.core.dev.lo.flash.state = 3 ∧ t.core.dev.ds = { s.core.dev.ds with snap := none }) ∧
        (s.core.dev.ds.snap = none → Runs (.commitDone true) s [.ds, .lo, .ic, .ne] fun t =>
          t.core.dev.lo.flash.state = 2 ∧ t.core.dev.lo.flash.progress = 10000 ∧
          t.core.dev.ds.flash = { s.core.dev.ds.flash with a := none, b := none } ∧ t.core.dev.ds.imageState = 0) ∧
        (∀ im, s.core.dev.ds.snap = some im → imageLen im ≤ 524272 →
          Runs (.commitDone true) s [.ds, .lo, .ic, .ne] fun t =>
            t.core.dev.lo.flash.state = 2 ∧ (bestImage t.core.dev.ds.flash).map (·.entries) = some im.entries ∧
            (bestImage t.core.dev.ds.flash).map (·.gen) = some t.core.dev.ds.imageGen ∧ t.core.dev.ds.imageState = 1 ∧
            t.core.dev.ds.snap = none)) ∧
      (s.core.dev.lo.enum.op.state ≠ 2 → s.core.dev.lo.enum.op.state ≠ 3 → exec .dictionaryThirdPass s = .next s) ∧
      (s.core.dev.lo.enum.op.state = 2 ∨ s.core.dev.lo.enum.op.state = 3 →
        (s.core.dev.ds.third = [] → exec .dictionaryThirdPass s = .next s) ∧
        (∀ e x c, s.core.dev.ds.third = [e] → entryWrite true e s.core = (x, c) →
          (x = .ok → exec .dictionaryThirdPass s = .next { s with
            core := (c.mapDev fun d => { d with ds := { d.ds with third := [] } }) }) ∧
          (x ≠ .ok → exec .dictionaryThirdPass s = .next { s with
            core := ((c.mapDev (bootRefused x e)).mapDev fun d => { d with ds := { d.ds with third := [] } }) }))) ∧
      (∀ p who body index sub o v, p < 2 → who = (if p = 0 then DictWho.pcie else .qspi) →
        s.core.dev.ds.queue = [⟨who, body⟩] → enginesRun s.core.dev = true → serviceRuns s.core.dev = true → index < 65536 → sub < 256 →
        body = [1, 0] ++ beBytes 2 index ++ [BitVec.ofNat 8 sub, 0, 0, 0, 0, 0, 0, 0] →
        findObj index sub s.core = .ok o → o.acc ≠ 2 → isParam index sub = false → o.rd who s.core = v → v.length ≤ 1452 →
        (∀ c, dictReadEffect who index sub c = c) → ¬(0x7001 ≤ index ∧ index ≤ 0x7FFF) →
        o.rd who (s.core.mapDev fun d => { d with ds := { d.ds with queue := [] } }) = v →
        Runs (.mailboxResponse p) s [.ds, .hi, .ic, .ne] fun t =>
          (t.core.dev.user p).answer = responseBody 1 .ok index sub o.ty v.length v ∧ t.core.dev.ds.queue = [] ∧
          ((s.core.dev.box p).go = true → (t.core.dev.box p).go = false ∧ bit (t.core.dev.box p).stat 11 = true ∧
            (t.core.dev.box p).rlen = 12 + v.length)) ∧
      (∀ p, p < 2 → s.core.dev.ds.queue = [] ∨ enginesRun s.core.dev = false ∨ serviceRuns s.core.dev = false →
        exec (.mailboxResponse p) s = .next s)) ∧
    (∀ p v, p < 2 → PortOpen p s.core.dev →
      ((s.core.dev.box p).go = true → v &&& 0x40FF07FF#32 = (s.core.dev.box p).ctl → exec (.mailboxGo p v) s = .next s) ∧
      ((s.core.dev.box p).go = true → v &&& 0x40FF07FF#32 ≠ (s.core.dev.box p).ctl → Runs (.mailboxGo p v) s [.hi] fun t =>
        t.core.dev.box p = { s.core.dev.box p with stat := orBit (s.core.dev.box p).stat 12 }) ∧
      ((s.core.dev.box p).go = false → fld v 0 11 < 12 ∨ 1464 < fld v 0 11 → Runs (.mailboxGo p v) s [.hi] fun t =>
        bit (t.core.dev.box p).stat 13 = true ∧ (t.core.dev.box p).go = false) ∧
      ((s.core.dev.box p).go = false → 12 ≤ fld v 0 11 → fld v 0 11 ≤ 1464 →
        Runs (.mailboxGo p v) s [.hi, .ds] fun t =>
          (t.core.dev.box p).go = true ∧
          ∃ body, body.length = fld v 0 11 ∧
            t.core.dev.ds = { s.core.dev.ds with
              queue := s.core.dev.ds.queue ++ [⟨if p = 0 then .pcie else .qspi, body⟩] }))

/-! ### Host interfaces -/

/-- R414–R416, R413, R420: the QSPI target answers each word of a read with its data and status, and keeps nothing of the
transaction before; words outside its spaces are ERROR, and ABORT while its crossing is down; a write word whose OK is sent takes
effect, one into the galley window none; host status is read and cleared in the domain itself; a reset, an unknown opcode and a
word still in flight at the end of the transaction. -/
def Obligations.HostTarget : Prop :=
  ∀ (s : State),
    (s.core.dev.hi.qspiReset = true → ∀ a n l m x, a < 4294967296 →
      exec (.qspiRead a n m) s = .next s ∧ exec (.qspiWrite a l x) s = .next s) ∧
    (s.core.dev.hi.qspiReset = false →
      (portLive 1 s.core.dev = true →
        (Runs (.qspiRead 0x1008 1 false) s [.hi] fun t =>
          t.core.dev.hi.txn = { answers := [(0x80, loWord s.core.dev.tb.time)] } ∧
          (t.core.dev.path 1).latch = [(0x100C, hiWord s.core.dev.tb.time)]) ∧
        (Runs (.qspiRead 0x1008 2 false) s [.hi] fun t =>
          t.core.dev.hi.txn = { answers := [(0x80, loWord s.core.dev.tb.time), (0x80, hiWord s.core.dev.tb.time)] } ∧
          (t.core.dev.path 1).latch = []) ∧
        (∀ a, a < 67108864 → a % 4 = 0 → Runs (.qspiRead a 0 true) s [.hi] fun t =>
          t.core.dev.hi = { s.core.dev.hi with txn := { open_ := some (a, none) } }) ∧
        (∀ n v, n < 128 → Runs (.qspiWrite (0x20004 + n * 64) [v] none) s [.hi, .br] fun t =>
          t.core.dev.pair n = { s.core.dev.pair n with dtr := v &&& 0x3FFFF#32 } ∧
          t.core.dev.hi = { s.core.dev.hi with txn := { answers := [(0x80, v)] } } ∧
          ∀ m, m ≠ n → t.core.dev.pair m = s.core.dev.pair m) ∧
        (∀ a v, a < 16777216 → a % 4 = 0 → Runs (.qspiWrite (268435456 + a) [v] none) s [.hi] fun t =>
          t.core.dev.hi = { s.core.dev.hi with txn := { answers := [(0x80, v)] } })) ∧
      (portLive 1 s.core.dev = false →
        (∀ a, a < 67108864 → a % 4 = 0 → Runs (.qspiRead a 1 false) s [.hi] fun t =>
          t.core.dev.hi.txn = { answers := [(0x81, 0xFFFFFFFF#32)] } ∧ t.core.dev.hi.paths = s.core.dev.hi.paths) ∧
        (∀ a v, a < 67108864 → a % 4 = 0 → Runs (.qspiWrite a [v] none) s [.hi] fun t =>
          t.core.dev.hi.txn = { answers := [(0x81, v)] } ∧ bit (t.core.dev.hstat 1).stat 4 = true ∧
          (t.core.dev.hstat 1).dropc = incSat (s.core.dev.hstat 1).dropc)) ∧
      (∀ a v, a < 4294967296 → 536870912 ≤ a ∨ a % 4 ≠ 0 →
        (Runs (.qspiRead a 1 false) s [.hi] fun t =>
          t.core.dev.hi.txn = { answers := [(0x82, 0)] } ∧ bit (t.core.dev.hstat 1).stat 5 = true ∧
          (t.core.dev.hstat 1).badc = incSat (s.core.dev.hstat 1).badc) ∧
        (Runs (.qspiWrite a [v] none) s [.hi] fun t =>
          t.core.dev.hi.txn = { answers := [(0x82, v)] } ∧ bit (t.core.dev.hstat 1).stat 5 = true ∧
          (t.core.dev.hstat 1).badc = incSat (s.core.dev.hstat 1).badc)) ∧
      (∀ a v, a < 4294967296 → Runs (.qspiWrite a [] (some v)) s [.hi] fun t =>
        t.core.dev.hi = { s.core.dev.hi with txn := { open_ := some (a, some v) } })) ∧
    (Runs .readHostStatus s [.hi] fun t =>
      t.core.dev.hi = { s.core.dev.hi with data := Bank.set 0 s.core.dev.hi.data 1 (hsStatRead 1 s.core.dev) }) ∧
    (∀ v, Runs (.clearHostStatus v) s [.hi] fun t =>
      t.core.dev.hstat 1 = { s.core.dev.hstat 1 with stat := (t.core.dev.hstat 1).stat, linten := bit v 0 } ∧
      (∀ b, bit (t.core.dev.hstat 1).stat b = (bit (s.core.dev.hstat 1).stat b && !(decide (3 ≤ b ∧ b ≤ 6) && bit v b))) ∧
      t.core.dev.hi.txn = s.core.dev.hi.txn ∧ ∀ p, p ≠ 1 → t.core.dev.hstat p = s.core.dev.hstat p) ∧
    (Runs .targetReset s [.hi] fun t => t.core.dev.hi = { s.core.dev.hi with txn := { resetDue := true } }) ∧
    (Runs .qspiUnknownOpcode s [.hi] fun t =>
      t.core.dev.hi.txn = { ignored := true } ∧ bit (t.core.dev.hstat 1).stat 6 = true ∧
      ∀ p, p ≠ 1 → t.core.dev.hstat p = s.core.dev.hstat p) ∧
    (∀ crossed, s.core.dev.hi.txn.resetDue = true → Runs (.hqCsNRise crossed) s [.hi, .ic] fun t =>
      t.core.dev.hi.qspiReset = true ∧ t.core.dev.hi.txn = {} ∧ t.core.dev.path 1 = {} ∧ t.core.dev.hstat 1 = {} ∧
      bit t.core.dev.ic.xstat 3 = true ∧ t.core.dev.ic.sources = s.core.dev.ic.sources) ∧
    (s.core.dev.hi.txn.resetDue = false →
      (∀ crossed, (∀ a, s.core.dev.hi.txn.open_ ≠ some (a, none)) ∨ crossed = false → Runs (.hqCsNRise crossed) s [.hi] fun t =>
        t.core.dev.hi = { s.core.dev.hi with txn := { answers := s.core.dev.hi.txn.answers } }) ∧
      (s.core.dev.hi.txn.open_ = some (0x1008, none) → portLive 1 s.core.dev = true → Runs (.hqCsNRise true) s [.hi] fun t =>
        t.core.dev.hi.txn = { answers := s.core.dev.hi.txn.answers } ∧
        (t.core.dev.path 1).latch = [(0x100C, hiWord s.core.dev.tb.time)] ∧
        Bank.get 0 t.core.dev.hi.data 1 = Bank.get 0 s.core.dev.hi.data 1)) ∧
    (Runs (.hqRstN 0) s [.hi, .ic] fun t =>
      t.core.dev.hi.qspiReset = true ∧ t.core.dev.hi.txn = {} ∧ t.core.dev.path 1 = {} ∧ t.core.dev.hstat 1 = {} ∧
      t.core.dev.path 0 = s.core.dev.path 0 ∧ bit t.core.dev.ic.xstat 3 = true ∧ t.core.dev.ic.sources = s.core.dev.ic.sources) ∧
    (∀ k, 0 < k → s.core.dev.ic.xsel = 0 → Runs (.hqRstN k) s [.hi, .ic] fun t =>
      t.core.dev.hi.qspiReset = true ∧ bit t.core.dev.ic.xstat 3 = true ∧ bit t.core.dev.ic.xstat 1 = true ∧
      Bank.get 0 t.core.dev.ic.xovr 3 = addSat (Bank.get 0 s.core.dev.ic.xovr 3) k) ∧
    (s.core.dev.hi.pcieReset = true → exec .badAccess s = .next s) ∧
    (s.core.dev.hi.pcieReset = false → Runs .badAccess s [.hi] fun t =>
      t.core.dev.hstat 0 = { s.core.dev.hstat 0 with
        stat := orBit (s.core.dev.hstat 0).stat 5, badc := incSat (s.core.dev.hstat 0).badc } ∧
      ∀ p, p ≠ 0 → t.core.dev.hstat p = s.core.dev.hstat p)

/-! ### Monitor, calibration, SRAM errors -/

/-- R436–R442, R61, R392, R447–R449: a survey is asked for, runs, takes the reading of each sentinel in turn, is abandoned when the
die has moved by more than 5 °C, and publishes its readings and margins when done, the plan in force unchanged; a waiting plan takes
effect as a whole; VTRIM moves by one step; a calibration runs; an SRAM error is counted and recorded, and what an uncorrectable one
does in the galley, a compositor and the chases; the scrubber. -/
def Obligations.MonitorAndMemory : Prop :=
  ∀ (s : State), live s.core.dev = true →
    (s.core.dev.lo.survey.state = 1 → exec .survey s = .next s ∧ exec .surveyStart s = .next s) ∧
    (s.core.dev.lo.survey.state ≠ 1 →
      (Runs .survey s [.fm] fun t => t.core.dev.fm = { s.core.dev.fm with asked := true }) ∧
      (s.core.dev.pw.coreUp = true → Runs .surveyStart s [.fm, .lo] fun t =>
        t.core.dev.lo = { s.core.dev.lo with survey := ⟨1, 0, 0⟩ } ∧
        t.core.dev.fm = { s.core.dev.fm with
          surveying := some 0, asked := false, fresh := [], startedAt := some s.core.dev.tick.count, abandoned := false })) ∧
    (∀ k v tj, s.core.dev.fm.surveying = some k → k < 48 →
      (k = 0 ∨ (tj - s.core.dev.fm.tjFirst).natAbs ≤ 50 → Runs (.sentinelMeasured v tj) s [.fm, .lo] fun t =>
        t.core.dev.fm.surveying = some (k + 1) ∧ Bank.get 0 t.core.dev.fm.fresh k = v ∧
        (∀ m, m ≠ k → Bank.get 0 t.core.dev.fm.fresh m = Bank.get 0 s.core.dev.fm.fresh m) ∧
        t.core.dev.fm.values = s.core.dev.fm.values ∧ t.core.dev.fm.plan = s.core.dev.fm.plan ∧
        t.core.dev.lo.survey.progress = 200 * (k + 1)) ∧
      (0 < k → 50 < (tj - s.core.dev.fm.tjFirst).natAbs → s.core.dev.lo.survey.state = 1 →
        Runs (.sentinelMeasured v tj) s [.fm, .lo, .ic, .ne] fun t =>
          t.core.dev.fm = { s.core.dev.fm with surveying := none, fresh := [], abandoned := true } ∧
          t.core.dev.lo.survey.state = 3)) ∧
    (∀ drift, s.core.dev.fm.surveying ≠ some 48 → exec (.surveyDone drift) s = .next s) ∧
    (∀ drift, s.core.dev.fm.surveying = some 48 → Runs (.surveyDone drift) s [.fm, .lo, .ic, .ne] fun t =>
      t.core.dev.fm.values = s.core.dev.fm.fresh ∧ t.core.dev.fm.last = s.core.dev.tb.time ∧
      t.core.dev.fm.surveys = s.core.dev.fm.surveys + 1 ∧ t.core.dev.fm.surveying = none ∧
      t.core.dev.fm.plan = s.core.dev.fm.plan ∧
      t.core.dev.fm.mE = marginE (largestOf s.core.dev.fm.fresh 0 32) (ceilingOf s.core.dev.fm.plan.eclkc) ∧
      t.core.dev.fm.mS = marginS (leastOf s.core.dev.fm.fresh 32 8) ∧
      t.core.dev.fm.mO = marginO (largestOf s.core.dev.fm.fresh 40 8) ∧
      t.core.dev.fm.margin = min t.core.dev.fm.mE (min t.core.dev.fm.mS t.core.dev.fm.mO) ∧
      (t.core.dev.fm.margin < 500 → bit t.core.dev.fm.stat 3 = true) ∧ bit t.core.dev.fm.stat 4 = true ∧
      t.core.dev.lo.survey.state = 2) ∧
    (s.core.dev.fm.due = none → exec .marginPlanTakesEffect s = .next s) ∧
    (∀ p forced, s.core.dev.fm.due = some (p, forced) →
      Runs .marginPlanTakesEffect s [.fm, .load, .br, .ic, .ne] fun t =>
        t.core.dev.fm.plan = { p with bud := planBudget s.core.dev p.eclkc } ∧ t.core.dev.fm.due = none ∧
        t.core.dev.load = { s.core.dev.load with eclk := ceilingOf p.eclkc } ∧
        t.core.dev.br = { s.core.dev.br with guard := BitVec.ofNat 12 p.guard } ∧ bit t.core.dev.fm.stat 6 = true ∧
        (forced = true → bit t.core.dev.fm.stat 5 = true ∧ t.core.dev.fm.forced = s.core.dev.fm.forced + 1)) ∧
    (Runs .vtrimStep s [.fm] fun t =>
      (s.core.dev.fm.vtrimNow < s.core.dev.fm.plan.vtrim →
        t.core.dev.fm = { s.core.dev.fm with vtrimNow := s.core.dev.fm.vtrimNow + 1 }) ∧
      (s.core.dev.fm.plan.vtrim < s.core.dev.fm.vtrimNow →
        t.core.dev.fm = { s.core.dev.fm with vtrimNow := s.core.dev.fm.vtrimNow - 1 }) ∧
      (s.core.dev.fm.vtrimNow = s.core.dev.fm.plan.vtrim → t.core.dev.fm = s.core.dev.fm)) ∧
    (s.core.dev.lo.cal.state = 1 → exec .calibrationStart s = .next s ∧ ∀ ok,
      Runs (.calibrationDone ok) s [.lo, .ic, .ne] fun t =>
        t.core.dev.lo.cal.state = (if ok then 2 else 3) ∧ (ok = true → t.core.dev.lo.cal.progress = 10000) ∧
        t.core.dev.lo = { s.core.dev.lo with cal := t.core.dev.lo.cal }) ∧
    (s.core.dev.lo.cal.state ≠ 1 → (∀ ok, exec (.calibrationDone ok) s = .next s) ∧
      Runs .calibrationStart s [.lo] fun t => t.core.dev.lo = { s.core.dev.lo with cal := ⟨1, 0, 0⟩ }) ∧
    (∀ r n, n < 16777216 → Runs (.correctableError r n) s [.ecc, .ic, .ne] fun t =>
      t.core.dev.ecc = { s.core.dev.ecc with
        cecc := incSat s.core.dev.ecc.cecc, addr := BitVec.ofNat 32 (regionCode r * 2 ^ 28 + n) } ∧
      ((s.core.dev.source 0x3AA).firedAt = none → (s.core.dev.source 0x3AA).hsEnd = 0 → (s.core.dev.source 0x3AA).hsWait = false →
        (t.core.dev.source 0x3AA).pend = true ∨ (t.core.dev.source 0x3AA).act = true)) ∧
    (∀ n who all, n < 1048576 → s.core.dev.gs.retired.contains (n / 4) = false → findEntry s.core.dev (n / 4) = none →
      Runs (.uncorrectableError .galley n who all) s [.ecc, .ic, .ne, .gs] fun t =>
        t.core.dev.ecc = { s.core.dev.ecc with
          uecc := incSat s.core.dev.ecc.uecc, addr := BitVec.ofNat 32 n, alarm := true, retired := s.core.dev.ecc.retired + 1 } ∧
        t.core.dev.slug (n / 4) = {} ∧ t.core.dev.gs.retired = s.core.dev.gs.retired ++ [n / 4] ∧
        ∀ m, m ≠ n / 4 → t.core.dev.slug m = s.core.dev.slug m) ∧
    (∀ n who all, n < 2048 → Runs (.uncorrectableError .compositor n who all) s [.ecc, .ic, .ne, .comps] fun t =>
      (t.core.dev.comp (n / 32)).run = false ∧ bit (t.core.dev.comp (n / 32)).r.stat 10 = true ∧
      t.core.dev.ecc.alarm = true ∧ ∀ m, m ≠ n / 32 → t.core.dev.comp m = s.core.dev.comp m) ∧
    (∀ n who all e, n < 4096 → Bank.get none (s.core.dev.chase (n / 256)).entries (n / 4 % 64) = some e →
      (s.core.dev.slug e.sid).state ≠ .armed →
      Runs (.uncorrectableError .chase n who all) s [.ecc, .ic, .ne, .chases] fun t =>
        Bank.get none (t.core.dev.chase (n / 256)).entries (n / 4 % 64) = none ∧ t.core.dev.ecc.alarm = true) ∧
    (∀ n e c all, n < 16777216 → isEngine e = true → isContext c = true → (s.core.dev.eng e).pendFault = none →
      Runs (.uncorrectableError .engineData n (.engine e c) all) s [.ecc, .ic, .ne, .ctxs] fun t =>
        (t.core.dev.eng e).pendFault = some (1, c, (s.core.dev.ctx e c).pc.toNat) ∧ (t.core.dev.ctx e c).faulted = true) ∧
    (s.core.dev.ecc.scrubEn = false → exec .scrub s = .next s) ∧
    (s.core.dev.ecc.scrubEn = true → Runs .scrub s [.ecc] fun t =>
      (s.core.dev.ecc.word + 1 < 2097152 → t.core.dev.ecc = { s.core.dev.ecc with word := s.core.dev.ecc.word + 1 }) ∧
      (2097152 ≤ s.core.dev.ecc.word + 1 →
        t.core.dev.ecc = { s.core.dev.ecc with word := 0, passes := s.core.dev.ecc.passes + 1 }))

/-! ### Keys, power, resets, boot, JTAG -/

/-- R399, R409, R432, R465–R469, R431, R450, R460, R463, R495, R320: tamper and the loss of VBAT void every slot and every
counter; a power request is taken, refused, or changes only REQ; IDLE, HOLD and DEEP are entered and left; each reset keeps the
always-on island and the boot flash, and records its cause; a warm restart is ordered by its key and freezes the pins; BOOT ends
in CORE_UP; the JTAG instructions. -/
def Obligations.PowerAndResets : Prop :=
  ∀ (s : State),
    (Runs .tamper s [.vault, .ic, .ne, .sec] fun t =>
      t.core.vault.tamper = true ∧ t.core.vault.bootCounter = 0 ∧ t.core.vault.lifecycle = s.core.vault.lifecycle ∧
      ∀ n, n < 4 → (t.core.vault.slot n).counter = 0 ∧
        (t.core.vault.slot n).state = (if (s.core.vault.slot n).state = .empty then .empty else .voided)) ∧
    (Runs .vbatLoss s [.vault, .ic, .ne, .sec, .tooth, .pw] fun t =>
      t.core.vault.vbatLost = true ∧ t.core.vault.bootCounter = 0 ∧ t.core.vault.lifecycle = s.core.vault.lifecycle ∧
      t.core.dev.tooth = { s.core.dev.tooth with aoq := t.core.dev.tooth.aoq } ∧
      (∀ n, t.core.dev.aoq n = { ab := (s.core.dev.aoq n).ab }) ∧
      t.core.dev.pw = { s.core.dev.pw with wakeCause := 0, wakeSource := 0xFFFF } ∧
      ∀ n, n < 4 → (t.core.vault.slot n).counter = 0 ∧ (t.core.vault.slot n).state ≠ .valid) ∧
    (s.core.vault.vbatLost = false → exec .vbatRestore s = .next s) ∧
    (s.core.vault.vbatLost = true → Runs .vbatRestore s [.vault, .ic, .ne, .sec] fun t =>
      t.core.vault.tamper = true ∧ t.core.vault.vbatLost = false) ∧
    (live s.core.dev = true →
      (∀ r, r < 4 →
        (s.core.dev.pw.go = true → Runs (.powerRequest r) s [.pw] fun t =>
          t.core.dev.pw = { s.core.dev.pw with cmdRej := true }) ∧
        (s.core.dev.pw.go = false → r = powerCode s.core.dev.pw.state → Runs (.powerRequest r) s [.pw] fun t =>
          t.core.dev.pw = { s.core.dev.pw with req := r }) ∧
        (s.core.dev.pw.go = false → r ≠ powerCode s.core.dev.pw.state → powerRefused s.core.dev r = true →
          Runs (.powerRequest r) s [.pw] fun t =>
          t.core.dev.pw = { s.core.dev.pw with req := r, cmdRej := true }) ∧
        (s.core.dev.pw.go = false → r ≠ powerCode s.core.dev.pw.state → powerRefused s.core.dev r = false →
          Runs (.powerRequest r) s [.pw] fun t =>
          t.core.dev.pw.go = true ∧ t.core.dev.pw.req = r ∧ t.core.dev.pw.state = s.core.dev.pw.state ∧
          t.core.dev.pw.cmdRej = s.core.dev.pw.cmdRej)) ∧
      (s.core.dev.pw.go = false →
        exec .idleEntry s = .next s ∧ exec .idleExit s = .next s ∧ exec .holdEntry s = .next s) ∧
      (s.core.dev.pw.go = true → s.core.dev.pw.state = .run → 1 ≤ s.core.dev.pw.req →
        powerRefused s.core.dev s.core.dev.pw.req = false → Runs .idleEntry s [.pw] fun t =>
          t.core.dev.pw.state = .idle ∧ t.core.dev.pw.stopping = anyBusy s.core.dev ∧
          (anyBusy s.core.dev = false → t.core.dev.pw.go = s.core.dev.pw.toward.isSome)) ∧
      (s.core.dev.pw.go = true → s.core.dev.pw.state = .idle → s.core.dev.pw.req = 0 →
        Runs .idleExit s [.pw, .ctxs, .ne] fun t =>
          t.core.dev.pw = { s.core.dev.pw with state := .run, stopping := false, go := false, toward := none } ∧
          ∀ e c, e ∈ s.core.dev.pw.wasOnline → c < 3 → (t.core.dev.ctx e c).start = true) ∧
      (s.core.dev.pw.go = true → s.core.dev.pw.state = .idle → s.core.dev.pw.stopping = false →
        s.core.dev.pw.toward.isSome = true → powerRefused s.core.dev s.core.dev.pw.req = false → wakePending s.core.dev = [] →
        s.core.dev.lo.survey.state ≠ 1 → Runs .holdEntry s [.pw, .ic] fun t =>
          t.core.dev.pw = { s.core.dev.pw with state := .hold, coreUp := false, waking := false } ∧ live t.core.dev = false) ∧
      (s.core.dev.pw.go = false → s.core.dev.pw.ordered = none → Runs (.wrst 0x5752#16) s [.pw] fun t =>
        t.core.dev.pw = { s.core.dev.pw with ordered := some .warmCmd }) ∧
      (s.core.dev.pw.go = true → s.core.dev.pw.ordered = none → Runs (.wrst 0x5752#16) s [.pw] fun t =>
        t.core.dev.pw = { s.core.dev.pw with ordered := some .warmCmd, go := false, toward := none, cmdRej := true }) ∧
      (∀ code, code ≠ 0x5752#16 → Runs (.wrst code) s [.pw] fun t =>
        t.core.dev.pw = { s.core.dev.pw with cmdRej := true })) ∧
    (s.core.dev.pw.state = .hold → s.core.dev.pw.waking = false →
      (s.core.dev.pw.toward = some .deep → Runs .pwrEnFall s [.pw] fun t =>
        t.core.dev.pw = { s.core.dev.pw with state := .deep, pwrEn := false }) ∧
      (s.core.dev.pw.toward ≠ some .deep → exec .pwrEnFall s = .next s) ∧
      (∀ k, Runs (.wakeN k) s [.pw] fun t => t.core.dev.pw = { s.core.dev.pw with
        waking := true, wakeCause := 1, wakeSource := 0xFFFF, toward := none }) ∧
      ∀ n, exec (.holdExit n) s = .next s) ∧
    (∀ n, s.core.dev.pw.state = .hold → s.core.dev.pw.waking = true →
      Runs (.holdExit n) s [.tb, .so, .tick, .pw, .ic, .ne] fun t =>
        t.core.dev.pw.state = .run ∧ t.core.dev.pw.coreUp = true ∧ t.core.dev.pw.go = false ∧ t.core.dev.pw.req = 0 ∧
        t.core.dev.tb.time =
          s.core.dev.tb.time + BitVec.ofNat 64 (if s.core.dev.pw.xt32 then n * 16000000000 / 32768 else 0)) ∧
    (s.core.dev.pw.state = .run → s.core.dev.pw.go = false → ∀ k, exec (.wakeN k) s = .next s) ∧
    (s.core.dev.pw.state = .deep → s.core.vault.vbatLost = false → ∀ k, ∃ t, exec (.wakeN k) s = .next t ∧ t.pending = s.pending ∧
      t.core.dev.pw.state = .run ∧ (s.core.dev.pw.xt32 = true → t.core.dev.pw.holdTime = BitVec.ofNat 64 k) ∧
      t.core.dev.pw.inReset = some .por ∧ t.core.dev.pw.pwrEn = true ∧ t.core.dev.pw.wakeCause = 3 ∧ t.core.dev.pw.rstc = 1#5 ∧
      t.core.dev.pw.coreUp = false ∧ t.core.dev.tooth.aoq = s.core.dev.tooth.aoq ∧ t.core.dev.ds.flash = s.core.dev.ds.flash ∧
      (∀ n, t.core.dev.pair n = {}) ∧ ∀ n, n < 4 → (t.core.vault.slot n).counter = (s.core.vault.slot n).counter) ∧
    (∃ t, exec (.sysRstN true) s = .next t ∧ t.pending = s.pending ∧ t.core.dev.pw.inReset = some .ext ∧
      t.core.dev.pw.state = (if s.core.dev.pw.state = .deep then .deep else .run) ∧
      t.core.dev.pw.sysRst = true ∧ t.core.dev.pw.rstc = s.core.dev.pw.rstc ||| 2#5 ∧
      t.core.dev.tooth.aoq = s.core.dev.tooth.aoq ∧ t.core.dev.ds.flash = s.core.dev.ds.flash ∧ t.core.dev.jtag = s.core.dev.jtag ∧
      t.core.dev.hi.stats = s.core.dev.hi.stats ∧ (∀ n, t.core.dev.pair n = {}) ∧
      t.core.vault.lifecycle = s.core.vault.lifecycle ∧
      ∀ n, n < 4 → (t.core.vault.slot n).counter = (s.core.vault.slot n).counter) ∧
    (Runs (.sysRstN false) s [.pw, .jtag] fun t =>
      t.core.dev.pw = { s.core.dev.pw with sysRst := false } ∧
      (s.core.dev.jtag.ir ≠ .extest → s.core.dev.jtag.ir ≠ .highz → t.core.dev.jtag = s.core.dev.jtag) ∧
      (s.core.dev.pw.sysRst = true → s.core.dev.jtag.ir = .extest ∨ s.core.dev.jtag.ir = .highz →
        t.core.dev.jtag = { s.core.dev.jtag with ir := .idcode })) ∧
    (∃ t, exec .supplyFault s = .next t ∧ t.pending = s.pending ∧ t.core.dev.pw.inReset = some .por ∧
      t.core.dev.pw.state = (if s.core.dev.pw.state = .deep then .deep else .run) ∧
      t.core.dev.pw.supplyLow = true ∧ t.core.dev.pw.rstc = 1#5 ∧ t.core.dev.tooth.aoq = s.core.dev.tooth.aoq ∧
      t.core.dev.ds.flash = s.core.dev.ds.flash ∧ t.core.dev.hi = {}) ∧
    (s.core.dev.pw.ordered = none → exec .warmRestart s = .next s) ∧
    (s.core.dev.pw.ordered = some .warmCmd → s.core.dev.pw.inReset = none → ∃ t, exec .warmRestart s = .next t ∧
      t.pending = s.pending ∧ t.core.dev.pw.inReset = some .warmCmd ∧ t.core.dev.pw.rstc = s.core.dev.pw.rstc ||| 4#5 ∧
      t.core.dev.pw.warmRestarts = s.core.dev.pw.warmRestarts + 1 ∧
      t.core.dev.tooth.aoq = s.core.dev.tooth.aoq ∧ t.core.dev.ds.flash = s.core.dev.ds.flash ∧
      t.core.dev.hi.stats = s.core.dev.hi.stats ∧
      (∃ b, t.core.dev.pw.frozen = some b ∧ ∀ n p, n < 256 → pinOwner s.core.dev n = .pair p →
        Bank.get none b n = some (if n % 2 = 0 then bit (s.core.dev.pair p).ctl 27 else bit (s.core.dev.pair p).ctl 26))) ∧
    (∀ strap x patch us,
      (s.core.dev.pw.coreUp = true ∨ s.core.dev.pw.sysRst = true ∨ s.core.dev.pw.state ≠ .run →
        exec (.boot strap x patch us) s = .next s) ∧
      (s.core.dev.pw.coreUp = false → s.core.dev.pw.sysRst = false → s.core.dev.pw.state = .run →
        ∃ t, exec (.boot strap x patch us) s = .next t ∧ t.pending = s.pending ∧ t.core.dev.pw.coreUp = true ∧
          t.core.dev.pw.boot = 5 ∧ t.core.dev.pw.frozen = none ∧ t.core.dev.pw.bootTime = BitVec.ofNat 32 us)) ∧
    (Runs .bypass s [.jtag] fun t => t.core.dev.jtag = { s.core.dev.jtag with ir := .bypass }) ∧
    (Runs .idcode s [.jtag, .free] fun t =>
      t.core.dev.jtag = { s.core.dev.jtag with ir := .idcode, code := t.core.dev.jtag.code } ∧
      fld t.core.dev.jtag.code 12 16 = 0x4096 ∧ bit t.core.dev.jtag.code 0 = true) ∧
    (∀ cells, cells.length = 256 → Runs (.samplePreload cells) s [.jtag] fun t =>
      t.core.dev.jtag.ir = .sample ∧ t.core.dev.jtag.preload = cells ∧
      t.core.dev.jtag.sampled = (List.range 256).map (tpLevel s.core.dev)) ∧
    (s.core.dev.pw.sysRst = true →
      (Runs .extest s [.jtag] fun t => t.core.dev.jtag = { s.core.dev.jtag with ir := .extest }) ∧
      (Runs .highz s [.jtag] fun t => t.core.dev.jtag = { s.core.dev.jtag with ir := .highz })) ∧
    (s.core.dev.pw.sysRst = false →
      (Runs .extest s [.jtag] fun t => t.core.dev.jtag = { s.core.dev.jtag with ir := .bypass }) ∧
      (Runs .highz s [.jtag] fun t => t.core.dev.jtag = { s.core.dev.jtag with ir := .bypass }))

/-! ### The whole machine -/

/-- What the manual's tables give at reset, and R87, R312, R352: what BOOT makes of it with a blank flash. At reset TIME64 and
the trim are 0, the period is that of R16, every channel and axis is disabled, every pair DISABLED with its dead times of R206 and
both sides off, every slug free, no chase entry, contexts cleared, every compositor halted, POR the one cause in GB_RSTC, BOOT 0
and CORE_UP 0, FM_MARGIN and its kin FFFFh; the queue is empty. After BOOT decoder 0 runs in quadrature ×4 and feeds axis 0, with
D = 1 and PAT = 0, decoder 2 runs in index mode with IDXOF, GATE and IZERO 0, and every other decoder is disabled; every source has
EN = 0 and none is delivered; every field port and head is disabled, and no enumeration runs. -/
def Obligations.ResetAndBlankBoot : Prop :=
  State.reset.pending = [] ∧ State.reset.core.dev.tb.time = 0 ∧ State.reset.core.dev.tb.trim = 0 ∧
  State.reset.core.dev.tb.ctl = 1 ∧ State.reset.core.dev.tick.period = 31250 ∧ State.reset.core.dev.tick.anchor = 0 ∧
  (∀ n, chEn (State.reset.core.dev.chOut n) = false ∧ (State.reset.core.dev.chOut n).cmpr = 0xFFFFFFFF#32 ∧
    (State.reset.core.dev.chCnt n).cnt = 0) ∧
  (∀ a, axEn (State.reset.core.dev.axis a) = false) ∧
  (∀ p, (State.reset.core.dev.pair p).state = .disabled ∧ (State.reset.core.dev.pair p).dtr = 0x3E80#32 ∧
    (State.reset.core.dev.pair p).dtf = 0x3E80#32) ∧
  (∀ n, (State.reset.core.dev.slug n).state = .free) ∧
  (∀ k j, Bank.get none (State.reset.core.dev.chase k).entries j = none) ∧
  (∀ k, (State.reset.core.dev.comp k).run = false) ∧
  State.reset.core.dev.pw.rstc = 1#5 ∧ State.reset.core.dev.pw.boot = 0 ∧ State.reset.core.dev.pw.coreUp = false ∧
  State.reset.core.dev.fm.margin = 0xFFFF ∧ State.reset.core.dev.fm.mE = 0xFFFF ∧
  Interlocked State.reset ∧ FusedAs 0 none State.reset ∧
  (∀ e c, State.reset.core.dev.ctx e c = {}) ∧
  (∀ strap x us, ∃ t, exec (.boot strap x none us) State.reset = .next t ∧ t.core.dev.pw.boot = 5 ∧ t.core.dev.pw.coreUp = true ∧
    decEn (t.core.dev.dec 0) = true ∧ decMode (t.core.dev.dec 0) = 3 ∧ fld (t.core.dev.dec 0).cfg.tdc 13 12 = 0 ∧
    (t.core.dev.dec 0).cfg.udiv = 0 ∧ bit (t.core.dev.dec 0).cfg.tdc 11 = false ∧
    decEn (t.core.dev.dec 2) = true ∧ decMode (t.core.dev.dec 2) = 5 ∧ (t.core.dev.dec 2).cfg.idx = 0x300#32 ∧
    (∀ n, n ≠ 0 → n ≠ 2 → decEn (t.core.dev.dec n) = false) ∧
    (∀ n, srcEn (t.core.dev.source n) = false) ∧ (∀ k, winner k t.core.dev = none) ∧ t.core.dev.ic.vlevel = 0 ∧
    (∀ p, fpEn (t.core.dev.fp p) = false) ∧ (∀ h, hdEn (t.core.dev.head h).cfg = false) ∧ t.core.dev.lo.enum.op.state = 0)

/-- R195, R203: no step of the machine, whatever is commanded, lets a pair drive both of its sides, or a tripped pair drive
either: what holds before a step holds after it. -/
def Obligations.StepsKeepInterlock : Prop :=
  ∀ (s t : State), Interlocked s → step s = .next t → Interlocked t

/-- R397, R398: no step moves the lifecycle back, and none changes a fused customer key hash; so RETIRED cannot be left. -/
def Obligations.StepsKeepFuses : Prop :=
  ∀ (l : Nat) (h : Option (BitVec 256)) (s t : State), FusedAs l h s → step s = .next t → FusedAs l h t
end

