-- ==== Sys2Proof/Laws/Bank.lean ====
section
/-! SUPPORT. The laws of sparse banks: reading after a write, and that every operation keeps the canonical form. -/

namespace Sys2Proof.Laws

open Sys2Proof.Machine

variable {α : Type}

@[simp] theorem bank_get_nil (d : α) (k : Nat) : Bank.get d [] k = d := rfl

theorem bank_get_put_same (d : α) (b : Bank α) (k : Nat) (v : α) : Bank.get d (Bank.put b k v) k = v := by
  induction b with
  | nil => simp [Bank.put, Bank.get]
  | cons e t ih =>
    obtain ⟨j, w⟩ := e
    unfold Bank.put
    split
    · simp [Bank.get]
    · split
      · simp [Bank.get]
      · rename_i h1 h2
        have : j ≠ k := fun h => h2 h.symm
        simp [Bank.get, this, ih]

theorem bank_get_put_other (d : α) (b : Bank α) (k i : Nat) (v : α) (h : i ≠ k) :
    Bank.get d (Bank.put b k v) i = Bank.get d b i := by
  induction b with
  | nil => simp [Bank.put, Bank.get, h.symm]
  | cons e t ih =>
    obtain ⟨j, w⟩ := e
    unfold Bank.put
    split
    · simp [Bank.get, h.symm]
    · split
      · rename_i h1 h2
        subst h2
        simp [Bank.get, h.symm]
      · simp [Bank.get, ih]

theorem bank_get_erase_same (d : α) (b : Bank α) (k : Nat) : Bank.get d (Bank.erase b k) k = d := by
  induction b with
  | nil => rfl
  | cons e t ih =>
    obtain ⟨j, w⟩ := e
    unfold Bank.erase
    split
    · exact ih
    · rename_i h
      simp [Bank.get, h, ih]

theorem bank_get_erase_other (d : α) (b : Bank α) (k i : Nat) (h : i ≠ k) :
    Bank.get d (Bank.erase b k) i = Bank.get d b i := by
  induction b with
  | nil => rfl
  | cons e t ih =>
    obtain ⟨j, w⟩ := e
    unfold Bank.erase
    split
    · rename_i hj
      subst hj
      simp [Bank.get, h.symm, ih]
    · simp [Bank.get, ih]

variable [DecidableEq α]

/-- A read of the key written gives what was written. -/
@[simp] theorem bank_get_set_same (d : α) (b : Bank α) (k : Nat) (v : α) : Bank.get d (Bank.set d b k v) k = v := by
  unfold Bank.set
  split
  · rename_i h
    rw [bank_get_erase_same, h]
  · exact bank_get_put_same d b k v

/-- A write leaves every other key alone. -/
theorem bank_get_set_other (d : α) (b : Bank α) (k i : Nat) (v : α) (h : i ≠ k) :
    Bank.get d (Bank.set d b k v) i = Bank.get d b i := by
  unfold Bank.set
  split
  · exact bank_get_erase_other d b k i h
  · exact bank_get_put_other d b k i v h

@[simp] theorem bank_get_upd_same (d : α) (b : Bank α) (k : Nat) (f : α → α) :
    Bank.get d (Bank.upd d b k f) k = f (Bank.get d b k) := bank_get_set_same d b k _

theorem bank_get_upd_other (d : α) (b : Bank α) (k i : Nat) (f : α → α) (h : i ≠ k) :
    Bank.get d (Bank.upd d b k f) i = Bank.get d b i := bank_get_set_other d b k i _ h

theorem bank_get_upd (d : α) (b : Bank α) (k i : Nat) (f : α → α) :
    Bank.get d (Bank.upd d b k f) i = if i = k then f (Bank.get d b k) else Bank.get d b i := by
  split
  · rename_i h
    rw [h, bank_get_upd_same]
  · exact bank_get_upd_other d b k i f ‹_›

/-! ### The canonical form -/

omit [DecidableEq α] in
theorem bank_rising_weaken (b : Bank α) (m n : Nat) (h : m ≤ n) (hr : Bank.rising (some n) b = true) :
    Bank.rising (some m) b = true := by
  cases b with
  | nil => rfl
  | cons e t =>
    obtain ⟨j, w⟩ := e
    simp only [Bank.rising, Bool.and_eq_true, decide_eq_true_eq] at hr ⊢
    exact ⟨by omega, hr.2⟩

omit [DecidableEq α] in
theorem bank_rising_put (b : Bank α) (lo : Option Nat) (k : Nat) (v : α) (hk : ∀ l, lo = some l → l < k)
    (hr : Bank.rising lo b = true) : Bank.rising lo (Bank.put b k v) = true := by
  induction b generalizing lo with
  | nil =>
    cases lo with
    | none => rfl
    | some l => simp [Bank.put, Bank.rising, hk l rfl]
  | cons e t ih =>
    obtain ⟨j, w⟩ := e
    simp only [Bank.rising, Bool.and_eq_true] at hr
    unfold Bank.put
    split
    · rename_i hkj
      have h1 : Bank.rising (some k) ((j, w) :: t) = true := by simp [Bank.rising, hkj, hr.2]
      cases lo with
      | none => simpa [Bank.rising] using h1
      | some l => simpa [Bank.rising, hk l rfl] using h1
    · split
      · rename_i hkj
        subst hkj
        cases lo with
        | none => simpa [Bank.rising] using hr.2
        | some l => simpa [Bank.rising, hk l rfl] using hr.2
      · rename_i h1 h2
        have h3 := ih (some j) (by intro l hl; cases hl; omega) hr.2
        simp [Bank.rising, hr.1, h3]

omit [DecidableEq α] in
theorem bank_rising_erase (b : Bank α) (lo : Option Nat) (k : Nat) (hr : Bank.rising lo b = true) :
    Bank.rising lo (Bank.erase b k) = true := by
  induction b generalizing lo with
  | nil => rfl
  | cons e t ih =>
    obtain ⟨j, w⟩ := e
    simp only [Bank.rising, Bool.and_eq_true] at hr
    unfold Bank.erase
    split
    · refine ih lo ?_
      cases lo with
      | none =>
        cases t with
        | nil => rfl
        | cons e2 t2 =>
          obtain ⟨j2, w2⟩ := e2
          have := hr.2
          simp only [Bank.rising, Bool.and_eq_true] at this ⊢
          exact ⟨trivial, this.2⟩
      | some l =>
        have h1 : l < j := by simpa using hr.1
        exact bank_rising_weaken t l j (by omega) hr.2
    · simp [Bank.rising, hr.1, ih (some j) hr.2]

theorem bank_tight_put (d : α) (b : Bank α) (k : Nat) (v : α) (hv : v ≠ d) (ht : Bank.tight d b = true) :
    Bank.tight d (Bank.put b k v) = true := by
  induction b with
  | nil => simp [Bank.put, Bank.tight, hv]
  | cons e t ih =>
    obtain ⟨j, w⟩ := e
    simp only [Bank.tight, List.all_cons, Bool.and_eq_true] at ht
    unfold Bank.put
    split
    · simp only [Bank.tight, List.all_cons, Bool.and_eq_true]
      exact ⟨by simpa using hv, ht⟩
    · split
      · simp only [Bank.tight, List.all_cons, Bool.and_eq_true]
        exact ⟨by simpa using hv, ht.2⟩
      · simp only [Bank.tight, List.all_cons, Bool.and_eq_true]
        exact ⟨ht.1, ih ht.2⟩

theorem bank_tight_erase (d : α) (b : Bank α) (k : Nat) (ht : Bank.tight d b = true) :
    Bank.tight d (Bank.erase b k) = true := by
  induction b with
  | nil => rfl
  | cons e t ih =>
    obtain ⟨j, w⟩ := e
    simp only [Bank.tight, List.all_cons, Bool.and_eq_true] at ht
    unfold Bank.erase
    split
    · exact ih ht.2
    · simp only [Bank.tight, List.all_cons, Bool.and_eq_true]
      exact ⟨ht.1, ih ht.2⟩

/-- A write keeps the canonical form. -/
theorem bank_wf_set (d : α) (b : Bank α) (k : Nat) (v : α) (h : Bank.wf d b = true) : Bank.wf d (Bank.set d b k v) = true := by
  simp only [Bank.wf, Bool.and_eq_true] at h ⊢
  unfold Bank.set
  split
  · exact ⟨bank_rising_erase b none k h.1, bank_tight_erase d b k h.2⟩
  · exact ⟨bank_rising_put b none k v (by intro l hl; cases hl) h.1, bank_tight_put d b k v ‹_› h.2⟩

theorem bank_wf_upd (d : α) (b : Bank α) (k : Nat) (f : α → α) (h : Bank.wf d b = true) :
    Bank.wf d (Bank.upd d b k f) = true := bank_wf_set d b k _ h

theorem bank_wf_nil (d : α) : Bank.wf d ([] : Bank α) = true := rfl

end Sys2Proof.Laws
end

