-- ==== Sys2Proof/Laws/State.lean ====
section
/-! SUPPORT. The small laws of the state: what a change of the device, of a numbered instance, of the data space or of a key slot
leaves to be read. -/

namespace Sys2Proof.Laws

open Sys2Proof.Machine

@[simp] theorem mapDev_dev (c : Core) (f : Dev → Dev) : (c.mapDev f).dev = f c.dev := rfl
@[simp] theorem mapDev_vault (c : Core) (f : Dev → Dev) : (c.mapDev f).vault = c.vault := rfl
@[simp] theorem withCore_pending (s : State) (c : Core) : ({ s with core := c } : State).pending = s.pending := rfl
@[simp] theorem withCore_core (s : State) (c : Core) : ({ s with core := c } : State).core = c := rfl
@[simp] theorem withPending_core (s : State) (l : List Instr) : ({ s with pending := l } : State).core = s.core := rfl

/-! ### Numbered instances -/

@[simp] theorem updOut_same (d : Dev) (n : Nat) (f) : (d.updOut n f).chOut n = f (d.chOut n) := bank_get_upd_same _ _ _ _
theorem updOut_other (d : Dev) (n m : Nat) (f) (h : m ≠ n) : (d.updOut n f).chOut m = d.chOut m := bank_get_upd_other _ _ _ _ _ h
@[simp] theorem updCnt_same (d : Dev) (n : Nat) (f) : (d.updCnt n f).chCnt n = f (d.chCnt n) := bank_get_upd_same _ _ _ _
theorem updCnt_other (d : Dev) (n m : Nat) (f) (h : m ≠ n) : (d.updCnt n f).chCnt m = d.chCnt m := bank_get_upd_other _ _ _ _ _ h
@[simp] theorem updCap_same (d : Dev) (n : Nat) (f) : (d.updCap n f).chCap n = f (d.chCap n) := bank_get_upd_same _ _ _ _
theorem updCap_other (d : Dev) (n m : Nat) (f) (h : m ≠ n) : (d.updCap n f).chCap m = d.chCap m := bank_get_upd_other _ _ _ _ _ h
@[simp] theorem updEm_same (d : Dev) (n : Nat) (f) : (d.updEm n f).chEm n = f (d.chEm n) := bank_get_upd_same _ _ _ _
theorem updEm_other (d : Dev) (n m : Nat) (f) (h : m ≠ n) : (d.updEm n f).chEm m = d.chEm m := bank_get_upd_other _ _ _ _ _ h
@[simp] theorem updPin_same (d : Dev) (n : Nat) (f) : (d.updPin n f).pin n = f (d.pin n) := bank_get_upd_same _ _ _ _
theorem updPin_other (d : Dev) (n m : Nat) (f) (h : m ≠ n) : (d.updPin n f).pin m = d.pin m := bank_get_upd_other _ _ _ _ _ h
@[simp] theorem updDec_same (d : Dev) (n : Nat) (f) : (d.updDec n f).dec n = f (d.dec n) := bank_get_upd_same _ _ _ _
theorem updDec_other (d : Dev) (n m : Nat) (f) (h : m ≠ n) : (d.updDec n f).dec m = d.dec m := bank_get_upd_other _ _ _ _ _ h
@[simp] theorem updDecTrk_same (d : Dev) (n : Nat) (f) : (d.updDecTrk n f).decTrk n = f (d.decTrk n) := bank_get_upd_same _ _ _ _
theorem updDecTrk_other (d : Dev) (n m : Nat) (f) (h : m ≠ n) : (d.updDecTrk n f).decTrk m = d.decTrk m := bank_get_upd_other _ _ _ _ _ h
@[simp] theorem updAoq_same (d : Dev) (n : Nat) (f) : (d.updAoq n f).aoq n = f (d.aoq n) := bank_get_upd_same _ _ _ _
theorem updAoq_other (d : Dev) (n m : Nat) (f) (h : m ≠ n) : (d.updAoq n f).aoq m = d.aoq m := bank_get_upd_other _ _ _ _ _ h
@[simp] theorem updPair_same (d : Dev) (n : Nat) (f) : (d.updPair n f).pair n = f (d.pair n) := bank_get_upd_same _ _ _ _
theorem updPair_other (d : Dev) (n m : Nat) (f) (h : m ≠ n) : (d.updPair n f).pair m = d.pair m := bank_get_upd_other _ _ _ _ _ h
@[simp] theorem updTrip_same (d : Dev) (n : Nat) (f) : (d.updTrip n f).trip n = f (d.trip n) := bank_get_upd_same _ _ _ _
theorem updTrip_other (d : Dev) (n m : Nat) (f) (h : m ≠ n) : (d.updTrip n f).trip m = d.trip m := bank_get_upd_other _ _ _ _ _ h
@[simp] theorem updAxis_same (d : Dev) (n : Nat) (f) : (d.updAxis n f).axis n = f (d.axis n) := bank_get_upd_same _ _ _ _
theorem updAxis_other (d : Dev) (n m : Nat) (f) (h : m ≠ n) : (d.updAxis n f).axis m = d.axis m := bank_get_upd_other _ _ _ _ _ h
@[simp] theorem updQueue_same (d : Dev) (n : Nat) (f) : (d.updQueue n f).queue n = f (d.queue n) := bank_get_upd_same _ _ _ _
theorem updQueue_other (d : Dev) (n m : Nat) (f) (h : m ≠ n) : (d.updQueue n f).queue m = d.queue m := bank_get_upd_other _ _ _ _ _ h
@[simp] theorem updSlug_same (d : Dev) (n : Nat) (f) : (d.updSlug n f).slug n = f (d.slug n) := bank_get_upd_same _ _ _ _
theorem updSlug_other (d : Dev) (n m : Nat) (f) (h : m ≠ n) : (d.updSlug n f).slug m = d.slug m := bank_get_upd_other _ _ _ _ _ h
@[simp] theorem updChase_same (d : Dev) (n : Nat) (f) : (d.updChase n f).chase n = f (d.chase n) := bank_get_upd_same _ _ _ _
theorem updChase_other (d : Dev) (n m : Nat) (f) (h : m ≠ n) : (d.updChase n f).chase m = d.chase m := bank_get_upd_other _ _ _ _ _ h
@[simp] theorem updComp_same (d : Dev) (n : Nat) (f) : (d.updComp n f).comp n = f (d.comp n) := bank_get_upd_same _ _ _ _
theorem updComp_other (d : Dev) (n m : Nat) (f) (h : m ≠ n) : (d.updComp n f).comp m = d.comp m := bank_get_upd_other _ _ _ _ _ h
@[simp] theorem updSource_same (d : Dev) (n : Nat) (f) : (d.updSource n f).source n = f (d.source n) := bank_get_upd_same _ _ _ _
theorem updSource_other (d : Dev) (n m : Nat) (f) (h : m ≠ n) : (d.updSource n f).source m = d.source m := bank_get_upd_other _ _ _ _ _ h
@[simp] theorem updEng_same (d : Dev) (n : Nat) (f) : (d.updEng n f).eng n = f (d.eng n) := bank_get_upd_same _ _ _ _
theorem updEng_other (d : Dev) (n m : Nat) (f) (h : m ≠ n) : (d.updEng n f).eng m = d.eng m := bank_get_upd_other _ _ _ _ _ h
@[simp] theorem updHead_same (d : Dev) (n : Nat) (f) : (d.updHead n f).head n = f (d.head n) := bank_get_upd_same _ _ _ _
theorem updHead_other (d : Dev) (n m : Nat) (f) (h : m ≠ n) : (d.updHead n f).head m = d.head m := bank_get_upd_other _ _ _ _ _ h
@[simp] theorem updFp_same (d : Dev) (n : Nat) (f) : (d.updFp n f).fp n = f (d.fp n) := bank_get_upd_same _ _ _ _
theorem updFp_other (d : Dev) (n m : Nat) (f) (h : m ≠ n) : (d.updFp n f).fp m = d.fp m := bank_get_upd_other _ _ _ _ _ h
@[simp] theorem updPtpPort_same (d : Dev) (n : Nat) (f) : (d.updPtpPort n f).ptpPort n = f (d.ptpPort n) := bank_get_upd_same _ _ _ _
theorem updPtpPort_other (d : Dev) (n m : Nat) (f) (h : m ≠ n) : (d.updPtpPort n f).ptpPort m = d.ptpPort m := bank_get_upd_other _ _ _ _ _ h
@[simp] theorem updLane_same (d : Dev) (n : Nat) (f) : (d.updLane n f).lane n = f (d.lane n) := bank_get_upd_same _ _ _ _
theorem updLane_other (d : Dev) (n m : Nat) (f) (h : m ≠ n) : (d.updLane n f).lane m = d.lane m := bank_get_upd_other _ _ _ _ _ h
@[simp] theorem updMac_same (d : Dev) (n : Nat) (f) : (d.updMac n f).mac n = f (d.mac n) := bank_get_upd_same _ _ _ _
theorem updMac_other (d : Dev) (n m : Nat) (f) (h : m ≠ n) : (d.updMac n f).mac m = d.mac m := bank_get_upd_other _ _ _ _ _ h
@[simp] theorem updMember_same (d : Dev) (n : Nat) (f) : (d.updMember n f).member n = f (d.member n) := bank_get_upd_same _ _ _ _
theorem updMember_other (d : Dev) (n m : Nat) (f) (h : m ≠ n) : (d.updMember n f).member m = d.member m := bank_get_upd_other _ _ _ _ _ h
@[simp] theorem updPath_same (d : Dev) (n : Nat) (f) : (d.updPath n f).path n = f (d.path n) := bank_get_upd_same _ _ _ _
theorem updPath_other (d : Dev) (n m : Nat) (f) (h : m ≠ n) : (d.updPath n f).path m = d.path m := bank_get_upd_other _ _ _ _ _ h
@[simp] theorem updHstat_same (d : Dev) (n : Nat) (f) : (d.updHstat n f).hstat n = f (d.hstat n) := bank_get_upd_same _ _ _ _
theorem updHstat_other (d : Dev) (n m : Nat) (f) (h : m ≠ n) : (d.updHstat n f).hstat m = d.hstat m := bank_get_upd_other _ _ _ _ _ h
@[simp] theorem updBox_same (d : Dev) (n : Nat) (f) : (d.updBox n f).box n = f (d.box n) := bank_get_upd_same _ _ _ _
theorem updBox_other (d : Dev) (n m : Nat) (f) (h : m ≠ n) : (d.updBox n f).box m = d.box m := bank_get_upd_other _ _ _ _ _ h
@[simp] theorem updUser_same (d : Dev) (n : Nat) (f) : (d.updUser n f).user n = f (d.user n) := bank_get_upd_same _ _ _ _
theorem updUser_other (d : Dev) (n m : Nat) (f) (h : m ≠ n) : (d.updUser n f).user m = d.user m := bank_get_upd_other _ _ _ _ _ h
@[simp] theorem updGroup_same (d : Dev) (n : Nat) (f) : (d.updGroup n f).group n = f (d.group n) := bank_get_upd_same _ _ _ _
theorem updGroup_other (d : Dev) (n m : Nat) (f) (h : m ≠ n) : (d.updGroup n f).group m = d.group m := bank_get_upd_other _ _ _ _ _ h

@[simp] theorem updCtx_same (d : Dev) (e c : Nat) (f) : (d.updCtx e c f).ctx e c = f (d.ctx e c) := bank_get_upd_same _ _ _ _
theorem updCtx_other (d : Dev) (e c e2 c2 : Nat) (f) (h : 4 * e2 + c2 ≠ 4 * e + c) :
    (d.updCtx e c f).ctx e2 c2 = d.ctx e2 c2 := bank_get_upd_other _ _ _ _ _ h
@[simp] theorem setSession_same (d : Dev) (n : Nat) (x) : (d.setSession n x).session n = x := bank_get_set_same _ _ _ _
theorem setSession_other (d : Dev) (n m : Nat) (x) (h : m ≠ n) : (d.setSession n x).session m = d.session m :=
  bank_get_set_other _ _ _ _ _ h

/-! ### The data space (R262) and the key slots (R400) -/

@[simp] theorem read64_write64_same (d : Dev) (a : Nat) (v : W64) : (d.write64 a v).read64 a = v := bank_get_set_same _ _ _ _
theorem read64_write64_other (d : Dev) (a b : Nat) (v : W64) (h : b ≠ a) : (d.write64 a v).read64 b = d.read64 b :=
  bank_get_set_other _ _ _ _ _ h
/-- The data space keeps its canonical form. -/
theorem write64_wf (d : Dev) (a : Nat) (v : W64) (h : Bank.wf 0 d.mem = true) : Bank.wf 0 (d.write64 a v).mem = true :=
  bank_wf_set 0 d.mem a v h
theorem reset_mem_wf : Bank.wf 0 State.reset.core.dev.mem = true := rfl

@[simp] theorem updSlot_same (v : Vault) (n : Nat) (f) : (v.updSlot n f).slot n = f (v.slot n) := bank_get_upd_same _ _ _ _
theorem updSlot_other (v : Vault) (n m : Nat) (f) (h : m ≠ n) : (v.updSlot n f).slot m = v.slot m :=
  bank_get_upd_other _ _ _ _ _ h
/-- Slot 0 reads FFh as its SCOPE, whatever is stored (R400). -/
@[simp] theorem scope_zero (v : Vault) : v.scope 0 = 0xFF := rfl

end Sys2Proof.Laws
end

