-- ==== Sys2Proof/Laws/StateCross.lean ====
section
/-! SUPPORT. A change of one numbered instance leaves the instances of every other kind, and the fields a command reads most. -/

namespace Sys2Proof.Laws

open Sys2Proof.Machine

section
variable (d : Dev) (n m : Nat)
@[simp] theorem updOut_chCnt (f) : (d.updOut n f).chCnt m = d.chCnt m := rfl
@[simp] theorem updOut_chCap (f) : (d.updOut n f).chCap m = d.chCap m := rfl
@[simp] theorem updOut_chEm (f) : (d.updOut n f).chEm m = d.chEm m := rfl
@[simp] theorem updOut_pin (f) : (d.updOut n f).pin m = d.pin m := rfl
@[simp] theorem updOut_dec (f) : (d.updOut n f).dec m = d.dec m := rfl
@[simp] theorem updOut_decTrk (f) : (d.updOut n f).decTrk m = d.decTrk m := rfl
@[simp] theorem updOut_aoq (f) : (d.updOut n f).aoq m = d.aoq m := rfl
@[simp] theorem updOut_pair (f) : (d.updOut n f).pair m = d.pair m := rfl
@[simp] theorem updOut_trip (f) : (d.updOut n f).trip m = d.trip m := rfl
@[simp] theorem updOut_axis (f) : (d.updOut n f).axis m = d.axis m := rfl
@[simp] theorem updOut_queue (f) : (d.updOut n f).queue m = d.queue m := rfl
@[simp] theorem updOut_slug (f) : (d.updOut n f).slug m = d.slug m := rfl
@[simp] theorem updOut_chase (f) : (d.updOut n f).chase m = d.chase m := rfl
@[simp] theorem updOut_comp (f) : (d.updOut n f).comp m = d.comp m := rfl
@[simp] theorem updOut_source (f) : (d.updOut n f).source m = d.source m := rfl
@[simp] theorem updOut_eng (f) : (d.updOut n f).eng m = d.eng m := rfl
@[simp] theorem updOut_head (f) : (d.updOut n f).head m = d.head m := rfl
@[simp] theorem updOut_fp (f) : (d.updOut n f).fp m = d.fp m := rfl
@[simp] theorem updOut_ptpPort (f) : (d.updOut n f).ptpPort m = d.ptpPort m := rfl
@[simp] theorem updOut_lane (f) : (d.updOut n f).lane m = d.lane m := rfl
@[simp] theorem updOut_mac (f) : (d.updOut n f).mac m = d.mac m := rfl
@[simp] theorem updOut_member (f) : (d.updOut n f).member m = d.member m := rfl
@[simp] theorem updOut_path (f) : (d.updOut n f).path m = d.path m := rfl
@[simp] theorem updOut_hstat (f) : (d.updOut n f).hstat m = d.hstat m := rfl
@[simp] theorem updOut_box (f) : (d.updOut n f).box m = d.box m := rfl
@[simp] theorem updOut_user (f) : (d.updOut n f).user m = d.user m := rfl
@[simp] theorem updOut_group (f) : (d.updOut n f).group m = d.group m := rfl
@[simp] theorem updOut_tb (f) : (d.updOut n f).tb = d.tb := rfl
@[simp] theorem updOut_pw (f) : (d.updOut n f).pw = d.pw := rfl
@[simp] theorem updOut_gl (f) : (d.updOut n f).gl = d.gl := rfl
@[simp] theorem updOut_tick (f) : (d.updOut n f).tick = d.tick := rfl
@[simp] theorem updOut_so (f) : (d.updOut n f).so = d.so := rfl
@[simp] theorem updOut_load (f) : (d.updOut n f).load = d.load := rfl
@[simp] theorem updOut_free (f) : (d.updOut n f).free = d.free := rfl
@[simp] theorem updOut_chases (f) : (d.updOut n f).chases = d.chases := rfl
@[simp] theorem updOut_lo (f) : (d.updOut n f).lo = d.lo := rfl
end
section
variable (d : Dev) (n m : Nat)
@[simp] theorem updCnt_chOut (f) : (d.updCnt n f).chOut m = d.chOut m := rfl
@[simp] theorem updCnt_chCap (f) : (d.updCnt n f).chCap m = d.chCap m := rfl
@[simp] theorem updCnt_chEm (f) : (d.updCnt n f).chEm m = d.chEm m := rfl
@[simp] theorem updCnt_pin (f) : (d.updCnt n f).pin m = d.pin m := rfl
@[simp] theorem updCnt_dec (f) : (d.updCnt n f).dec m = d.dec m := rfl
@[simp] theorem updCnt_decTrk (f) : (d.updCnt n f).decTrk m = d.decTrk m := rfl
@[simp] theorem updCnt_aoq (f) : (d.updCnt n f).aoq m = d.aoq m := rfl
@[simp] theorem updCnt_pair (f) : (d.updCnt n f).pair m = d.pair m := rfl
@[simp] theorem updCnt_trip (f) : (d.updCnt n f).trip m = d.trip m := rfl
@[simp] theorem updCnt_axis (f) : (d.updCnt n f).axis m = d.axis m := rfl
@[simp] theorem updCnt_queue (f) : (d.updCnt n f).queue m = d.queue m := rfl
@[simp] theorem updCnt_slug (f) : (d.updCnt n f).slug m = d.slug m := rfl
@[simp] theorem updCnt_chase (f) : (d.updCnt n f).chase m = d.chase m := rfl
@[simp] theorem updCnt_comp (f) : (d.updCnt n f).comp m = d.comp m := rfl
@[simp] theorem updCnt_source (f) : (d.updCnt n f).source m = d.source m := rfl
@[simp] theorem updCnt_eng (f) : (d.updCnt n f).eng m = d.eng m := rfl
@[simp] theorem updCnt_head (f) : (d.updCnt n f).head m = d.head m := rfl
@[simp] theorem updCnt_fp (f) : (d.updCnt n f).fp m = d.fp m := rfl
@[simp] theorem updCnt_ptpPort (f) : (d.updCnt n f).ptpPort m = d.ptpPort m := rfl
@[simp] theorem updCnt_lane (f) : (d.updCnt n f).lane m = d.lane m := rfl
@[simp] theorem updCnt_mac (f) : (d.updCnt n f).mac m = d.mac m := rfl
@[simp] theorem updCnt_member (f) : (d.updCnt n f).member m = d.member m := rfl
@[simp] theorem updCnt_path (f) : (d.updCnt n f).path m = d.path m := rfl
@[simp] theorem updCnt_hstat (f) : (d.updCnt n f).hstat m = d.hstat m := rfl
@[simp] theorem updCnt_box (f) : (d.updCnt n f).box m = d.box m := rfl
@[simp] theorem updCnt_user (f) : (d.updCnt n f).user m = d.user m := rfl
@[simp] theorem updCnt_group (f) : (d.updCnt n f).group m = d.group m := rfl
@[simp] theorem updCnt_tb (f) : (d.updCnt n f).tb = d.tb := rfl
@[simp] theorem updCnt_pw (f) : (d.updCnt n f).pw = d.pw := rfl
@[simp] theorem updCnt_gl (f) : (d.updCnt n f).gl = d.gl := rfl
@[simp] theorem updCnt_tick (f) : (d.updCnt n f).tick = d.tick := rfl
@[simp] theorem updCnt_so (f) : (d.updCnt n f).so = d.so := rfl
@[simp] theorem updCnt_load (f) : (d.updCnt n f).load = d.load := rfl
@[simp] theorem updCnt_free (f) : (d.updCnt n f).free = d.free := rfl
@[simp] theorem updCnt_chases (f) : (d.updCnt n f).chases = d.chases := rfl
@[simp] theorem updCnt_lo (f) : (d.updCnt n f).lo = d.lo := rfl
end
section
variable (d : Dev) (n m : Nat)
@[simp] theorem updCap_chOut (f) : (d.updCap n f).chOut m = d.chOut m := rfl
@[simp] theorem updCap_chCnt (f) : (d.updCap n f).chCnt m = d.chCnt m := rfl
@[simp] theorem updCap_chEm (f) : (d.updCap n f).chEm m = d.chEm m := rfl
@[simp] theorem updCap_pin (f) : (d.updCap n f).pin m = d.pin m := rfl
@[simp] theorem updCap_dec (f) : (d.updCap n f).dec m = d.dec m := rfl
@[simp] theorem updCap_decTrk (f) : (d.updCap n f).decTrk m = d.decTrk m := rfl
@[simp] theorem updCap_aoq (f) : (d.updCap n f).aoq m = d.aoq m := rfl
@[simp] theorem updCap_pair (f) : (d.updCap n f).pair m = d.pair m := rfl
@[simp] theorem updCap_trip (f) : (d.updCap n f).trip m = d.trip m := rfl
@[simp] theorem updCap_axis (f) : (d.updCap n f).axis m = d.axis m := rfl
@[simp] theorem updCap_queue (f) : (d.updCap n f).queue m = d.queue m := rfl
@[simp] theorem updCap_slug (f) : (d.updCap n f).slug m = d.slug m := rfl
@[simp] theorem updCap_chase (f) : (d.updCap n f).chase m = d.chase m := rfl
@[simp] theorem updCap_comp (f) : (d.updCap n f).comp m = d.comp m := rfl
@[simp] theorem updCap_source (f) : (d.updCap n f).source m = d.source m := rfl
@[simp] theorem updCap_eng (f) : (d.updCap n f).eng m = d.eng m := rfl
@[simp] theorem updCap_head (f) : (d.updCap n f).head m = d.head m := rfl
@[simp] theorem updCap_fp (f) : (d.updCap n f).fp m = d.fp m := rfl
@[simp] theorem updCap_ptpPort (f) : (d.updCap n f).ptpPort m = d.ptpPort m := rfl
@[simp] theorem updCap_lane (f) : (d.updCap n f).lane m = d.lane m := rfl
@[simp] theorem updCap_mac (f) : (d.updCap n f).mac m = d.mac m := rfl
@[simp] theorem updCap_member (f) : (d.updCap n f).member m = d.member m := rfl
@[simp] theorem updCap_path (f) : (d.updCap n f).path m = d.path m := rfl
@[simp] theorem updCap_hstat (f) : (d.updCap n f).hstat m = d.hstat m := rfl
@[simp] theorem updCap_box (f) : (d.updCap n f).box m = d.box m := rfl
@[simp] theorem updCap_user (f) : (d.updCap n f).user m = d.user m := rfl
@[simp] theorem updCap_group (f) : (d.updCap n f).group m = d.group m := rfl
@[simp] theorem updCap_tb (f) : (d.updCap n f).tb = d.tb := rfl
@[simp] theorem updCap_pw (f) : (d.updCap n f).pw = d.pw := rfl
@[simp] theorem updCap_gl (f) : (d.updCap n f).gl = d.gl := rfl
@[simp] theorem updCap_tick (f) : (d.updCap n f).tick = d.tick := rfl
@[simp] theorem updCap_so (f) : (d.updCap n f).so = d.so := rfl
@[simp] theorem updCap_load (f) : (d.updCap n f).load = d.load := rfl
@[simp] theorem updCap_free (f) : (d.updCap n f).free = d.free := rfl
@[simp] theorem updCap_chases (f) : (d.updCap n f).chases = d.chases := rfl
@[simp] theorem updCap_lo (f) : (d.updCap n f).lo = d.lo := rfl
end
section
variable (d : Dev) (n m : Nat)
@[simp] theorem updEm_chOut (f) : (d.updEm n f).chOut m = d.chOut m := rfl
@[simp] theorem updEm_chCnt (f) : (d.updEm n f).chCnt m = d.chCnt m := rfl
@[simp] theorem updEm_chCap (f) : (d.updEm n f).chCap m = d.chCap m := rfl
@[simp] theorem updEm_pin (f) : (d.updEm n f).pin m = d.pin m := rfl
@[simp] theorem updEm_dec (f) : (d.updEm n f).dec m = d.dec m := rfl
@[simp] theorem updEm_decTrk (f) : (d.updEm n f).decTrk m = d.decTrk m := rfl
@[simp] theorem updEm_aoq (f) : (d.updEm n f).aoq m = d.aoq m := rfl
@[simp] theorem updEm_pair (f) : (d.updEm n f).pair m = d.pair m := rfl
@[simp] theorem updEm_trip (f) : (d.updEm n f).trip m = d.trip m := rfl
@[simp] theorem updEm_axis (f) : (d.updEm n f).axis m = d.axis m := rfl
@[simp] theorem updEm_queue (f) : (d.updEm n f).queue m = d.queue m := rfl
@[simp] theorem updEm_slug (f) : (d.updEm n f).slug m = d.slug m := rfl
@[simp] theorem updEm_chase (f) : (d.updEm n f).chase m = d.chase m := rfl
@[simp] theorem updEm_comp (f) : (d.updEm n f).comp m = d.comp m := rfl
@[simp] theorem updEm_source (f) : (d.updEm n f).source m = d.source m := rfl
@[simp] theorem updEm_eng (f) : (d.updEm n f).eng m = d.eng m := rfl
@[simp] theorem updEm_head (f) : (d.updEm n f).head m = d.head m := rfl
@[simp] theorem updEm_fp (f) : (d.updEm n f).fp m = d.fp m := rfl
@[simp] theorem updEm_ptpPort (f) : (d.updEm n f).ptpPort m = d.ptpPort m := rfl
@[simp] theorem updEm_lane (f) : (d.updEm n f).lane m = d.lane m := rfl
@[simp] theorem updEm_mac (f) : (d.updEm n f).mac m = d.mac m := rfl
@[simp] theorem updEm_member (f) : (d.updEm n f).member m = d.member m := rfl
@[simp] theorem updEm_path (f) : (d.updEm n f).path m = d.path m := rfl
@[simp] theorem updEm_hstat (f) : (d.updEm n f).hstat m = d.hstat m := rfl
@[simp] theorem updEm_box (f) : (d.updEm n f).box m = d.box m := rfl
@[simp] theorem updEm_user (f) : (d.updEm n f).user m = d.user m := rfl
@[simp] theorem updEm_group (f) : (d.updEm n f).group m = d.group m := rfl
@[simp] theorem updEm_tb (f) : (d.updEm n f).tb = d.tb := rfl
@[simp] theorem updEm_pw (f) : (d.updEm n f).pw = d.pw := rfl
@[simp] theorem updEm_gl (f) : (d.updEm n f).gl = d.gl := rfl
@[simp] theorem updEm_tick (f) : (d.updEm n f).tick = d.tick := rfl
@[simp] theorem updEm_so (f) : (d.updEm n f).so = d.so := rfl
@[simp] theorem updEm_load (f) : (d.updEm n f).load = d.load := rfl
@[simp] theorem updEm_free (f) : (d.updEm n f).free = d.free := rfl
@[simp] theorem updEm_chases (f) : (d.updEm n f).chases = d.chases := rfl
@[simp] theorem updEm_lo (f) : (d.updEm n f).lo = d.lo := rfl
end
section
variable (d : Dev) (n m : Nat)
@[simp] theorem updPin_chOut (f) : (d.updPin n f).chOut m = d.chOut m := rfl
@[simp] theorem updPin_chCnt (f) : (d.updPin n f).chCnt m = d.chCnt m := rfl
@[simp] theorem updPin_chCap (f) : (d.updPin n f).chCap m = d.chCap m := rfl
@[simp] theorem updPin_chEm (f) : (d.updPin n f).chEm m = d.chEm m := rfl
@[simp] theorem updPin_dec (f) : (d.updPin n f).dec m = d.dec m := rfl
@[simp] theorem updPin_decTrk (f) : (d.updPin n f).decTrk m = d.decTrk m := rfl
@[simp] theorem updPin_aoq (f) : (d.updPin n f).aoq m = d.aoq m := rfl
@[simp] theorem updPin_pair (f) : (d.updPin n f).pair m = d.pair m := rfl
@[simp] theorem updPin_trip (f) : (d.updPin n f).trip m = d.trip m := rfl
@[simp] theorem updPin_axis (f) : (d.updPin n f).axis m = d.axis m := rfl
@[simp] theorem updPin_queue (f) : (d.updPin n f).queue m = d.queue m := rfl
@[simp] theorem updPin_slug (f) : (d.updPin n f).slug m = d.slug m := rfl
@[simp] theorem updPin_chase (f) : (d.updPin n f).chase m = d.chase m := rfl
@[simp] theorem updPin_comp (f) : (d.updPin n f).comp m = d.comp m := rfl
@[simp] theorem updPin_source (f) : (d.updPin n f).source m = d.source m := rfl
@[simp] theorem updPin_eng (f) : (d.updPin n f).eng m = d.eng m := rfl
@[simp] theorem updPin_head (f) : (d.updPin n f).head m = d.head m := rfl
@[simp] theorem updPin_fp (f) : (d.updPin n f).fp m = d.fp m := rfl
@[simp] theorem updPin_ptpPort (f) : (d.updPin n f).ptpPort m = d.ptpPort m := rfl
@[simp] theorem updPin_lane (f) : (d.updPin n f).lane m = d.lane m := rfl
@[simp] theorem updPin_mac (f) : (d.updPin n f).mac m = d.mac m := rfl
@[simp] theorem updPin_member (f) : (d.updPin n f).member m = d.member m := rfl
@[simp] theorem updPin_path (f) : (d.updPin n f).path m = d.path m := rfl
@[simp] theorem updPin_hstat (f) : (d.updPin n f).hstat m = d.hstat m := rfl
@[simp] theorem updPin_box (f) : (d.updPin n f).box m = d.box m := rfl
@[simp] theorem updPin_user (f) : (d.updPin n f).user m = d.user m := rfl
@[simp] theorem updPin_group (f) : (d.updPin n f).group m = d.group m := rfl
@[simp] theorem updPin_tb (f) : (d.updPin n f).tb = d.tb := rfl
@[simp] theorem updPin_pw (f) : (d.updPin n f).pw = d.pw := rfl
@[simp] theorem updPin_gl (f) : (d.updPin n f).gl = d.gl := rfl
@[simp] theorem updPin_tick (f) : (d.updPin n f).tick = d.tick := rfl
@[simp] theorem updPin_so (f) : (d.updPin n f).so = d.so := rfl
@[simp] theorem updPin_load (f) : (d.updPin n f).load = d.load := rfl
@[simp] theorem updPin_free (f) : (d.updPin n f).free = d.free := rfl
@[simp] theorem updPin_chases (f) : (d.updPin n f).chases = d.chases := rfl
@[simp] theorem updPin_lo (f) : (d.updPin n f).lo = d.lo := rfl
end
section
variable (d : Dev) (n m : Nat)
@[simp] theorem updDec_chOut (f) : (d.updDec n f).chOut m = d.chOut m := rfl
@[simp] theorem updDec_chCnt (f) : (d.updDec n f).chCnt m = d.chCnt m := rfl
@[simp] theorem updDec_chCap (f) : (d.updDec n f).chCap m = d.chCap m := rfl
@[simp] theorem updDec_chEm (f) : (d.updDec n f).chEm m = d.chEm m := rfl
@[simp] theorem updDec_pin (f) : (d.updDec n f).pin m = d.pin m := rfl
@[simp] theorem updDec_decTrk (f) : (d.updDec n f).decTrk m = d.decTrk m := rfl
@[simp] theorem updDec_aoq (f) : (d.updDec n f).aoq m = d.aoq m := rfl
@[simp] theorem updDec_pair (f) : (d.updDec n f).pair m = d.pair m := rfl
@[simp] theorem updDec_trip (f) : (d.updDec n f).trip m = d.trip m := rfl
@[simp] theorem updDec_axis (f) : (d.updDec n f).axis m = d.axis m := rfl
@[simp] theorem updDec_queue (f) : (d.updDec n f).queue m = d.queue m := rfl
@[simp] theorem updDec_slug (f) : (d.updDec n f).slug m = d.slug m := rfl
@[simp] theorem updDec_chase (f) : (d.updDec n f).chase m = d.chase m := rfl
@[simp] theorem updDec_comp (f) : (d.updDec n f).comp m = d.comp m := rfl
@[simp] theorem updDec_source (f) : (d.updDec n f).source m = d.source m := rfl
@[simp] theorem updDec_eng (f) : (d.updDec n f).eng m = d.eng m := rfl
@[simp] theorem updDec_head (f) : (d.updDec n f).head m = d.head m := rfl
@[simp] theorem updDec_fp (f) : (d.updDec n f).fp m = d.fp m := rfl
@[simp] theorem updDec_ptpPort (f) : (d.updDec n f).ptpPort m = d.ptpPort m := rfl
@[simp] theorem updDec_lane (f) : (d.updDec n f).lane m = d.lane m := rfl
@[simp] theorem updDec_mac (f) : (d.updDec n f).mac m = d.mac m := rfl
@[simp] theorem updDec_member (f) : (d.updDec n f).member m = d.member m := rfl
@[simp] theorem updDec_path (f) : (d.updDec n f).path m = d.path m := rfl
@[simp] theorem updDec_hstat (f) : (d.updDec n f).hstat m = d.hstat m := rfl
@[simp] theorem updDec_box (f) : (d.updDec n f).box m = d.box m := rfl
@[simp] theorem updDec_user (f) : (d.updDec n f).user m = d.user m := rfl
@[simp] theorem updDec_group (f) : (d.updDec n f).group m = d.group m := rfl
@[simp] theorem updDec_tb (f) : (d.updDec n f).tb = d.tb := rfl
@[simp] theorem updDec_pw (f) : (d.updDec n f).pw = d.pw := rfl
@[simp] theorem updDec_gl (f) : (d.updDec n f).gl = d.gl := rfl
@[simp] theorem updDec_tick (f) : (d.updDec n f).tick = d.tick := rfl
@[simp] theorem updDec_so (f) : (d.updDec n f).so = d.so := rfl
@[simp] theorem updDec_load (f) : (d.updDec n f).load = d.load := rfl
@[simp] theorem updDec_free (f) : (d.updDec n f).free = d.free := rfl
@[simp] theorem updDec_chases (f) : (d.updDec n f).chases = d.chases := rfl
@[simp] theorem updDec_lo (f) : (d.updDec n f).lo = d.lo := rfl
end
section
variable (d : Dev) (n m : Nat)
@[simp] theorem updDecTrk_chOut (f) : (d.updDecTrk n f).chOut m = d.chOut m := rfl
@[simp] theorem updDecTrk_chCnt (f) : (d.updDecTrk n f).chCnt m = d.chCnt m := rfl
@[simp] theorem updDecTrk_chCap (f) : (d.updDecTrk n f).chCap m = d.chCap m := rfl
@[simp] theorem updDecTrk_chEm (f) : (d.updDecTrk n f).chEm m = d.chEm m := rfl
@[simp] theorem updDecTrk_pin (f) : (d.updDecTrk n f).pin m = d.pin m := rfl
@[simp] theorem updDecTrk_dec (f) : (d.updDecTrk n f).dec m = d.dec m := rfl
@[simp] theorem updDecTrk_aoq (f) : (d.updDecTrk n f).aoq m = d.aoq m := rfl
@[simp] theorem updDecTrk_pair (f) : (d.updDecTrk n f).pair m = d.pair m := rfl
@[simp] theorem updDecTrk_trip (f) : (d.updDecTrk n f).trip m = d.trip m := rfl
@[simp] theorem updDecTrk_axis (f) : (d.updDecTrk n f).axis m = d.axis m := rfl
@[simp] theorem updDecTrk_queue (f) : (d.updDecTrk n f).queue m = d.queue m := rfl
@[simp] theorem updDecTrk_slug (f) : (d.updDecTrk n f).slug m = d.slug m := rfl
@[simp] theorem updDecTrk_chase (f) : (d.updDecTrk n f).chase m = d.chase m := rfl
@[simp] theorem updDecTrk_comp (f) : (d.updDecTrk n f).comp m = d.comp m := rfl
@[simp] theorem updDecTrk_source (f) : (d.updDecTrk n f).source m = d.source m := rfl
@[simp] theorem updDecTrk_eng (f) : (d.updDecTrk n f).eng m = d.eng m := rfl
@[simp] theorem updDecTrk_head (f) : (d.updDecTrk n f).head m = d.head m := rfl
@[simp] theorem updDecTrk_fp (f) : (d.updDecTrk n f).fp m = d.fp m := rfl
@[simp] theorem updDecTrk_ptpPort (f) : (d.updDecTrk n f).ptpPort m = d.ptpPort m := rfl
@[simp] theorem updDecTrk_lane (f) : (d.updDecTrk n f).lane m = d.lane m := rfl
@[simp] theorem updDecTrk_mac (f) : (d.updDecTrk n f).mac m = d.mac m := rfl
@[simp] theorem updDecTrk_member (f) : (d.updDecTrk n f).member m = d.member m := rfl
@[simp] theorem updDecTrk_path (f) : (d.updDecTrk n f).path m = d.path m := rfl
@[simp] theorem updDecTrk_hstat (f) : (d.updDecTrk n f).hstat m = d.hstat m := rfl
@[simp] theorem updDecTrk_box (f) : (d.updDecTrk n f).box m = d.box m := rfl
@[simp] theorem updDecTrk_user (f) : (d.updDecTrk n f).user m = d.user m := rfl
@[simp] theorem updDecTrk_group (f) : (d.updDecTrk n f).group m = d.group m := rfl
@[simp] theorem updDecTrk_tb (f) : (d.updDecTrk n f).tb = d.tb := rfl
@[simp] theorem updDecTrk_pw (f) : (d.updDecTrk n f).pw = d.pw := rfl
@[simp] theorem updDecTrk_gl (f) : (d.updDecTrk n f).gl = d.gl := rfl
@[simp] theorem updDecTrk_tick (f) : (d.updDecTrk n f).tick = d.tick := rfl
@[simp] theorem updDecTrk_so (f) : (d.updDecTrk n f).so = d.so := rfl
@[simp] theorem updDecTrk_load (f) : (d.updDecTrk n f).load = d.load := rfl
@[simp] theorem updDecTrk_free (f) : (d.updDecTrk n f).free = d.free := rfl
@[simp] theorem updDecTrk_chases (f) : (d.updDecTrk n f).chases = d.chases := rfl
@[simp] theorem updDecTrk_lo (f) : (d.updDecTrk n f).lo = d.lo := rfl
end
section
variable (d : Dev) (n m : Nat)
@[simp] theorem updAoq_chOut (f) : (d.updAoq n f).chOut m = d.chOut m := rfl
@[simp] theorem updAoq_chCnt (f) : (d.updAoq n f).chCnt m = d.chCnt m := rfl
@[simp] theorem updAoq_chCap (f) : (d.updAoq n f).chCap m = d.chCap m := rfl
@[simp] theorem updAoq_chEm (f) : (d.updAoq n f).chEm m = d.chEm m := rfl
@[simp] theorem updAoq_pin (f) : (d.updAoq n f).pin m = d.pin m := rfl
@[simp] theorem updAoq_dec (f) : (d.updAoq n f).dec m = d.dec m := rfl
@[simp] theorem updAoq_decTrk (f) : (d.updAoq n f).decTrk m = d.decTrk m := rfl
@[simp] theorem updAoq_pair (f) : (d.updAoq n f).pair m = d.pair m := rfl
@[simp] theorem updAoq_trip (f) : (d.updAoq n f).trip m = d.trip m := rfl
@[simp] theorem updAoq_axis (f) : (d.updAoq n f).axis m = d.axis m := rfl
@[simp] theorem updAoq_queue (f) : (d.updAoq n f).queue m = d.queue m := rfl
@[simp] theorem updAoq_slug (f) : (d.updAoq n f).slug m = d.slug m := rfl
@[simp] theorem updAoq_chase (f) : (d.updAoq n f).chase m = d.chase m := rfl
@[simp] theorem updAoq_comp (f) : (d.updAoq n f).comp m = d.comp m := rfl
@[simp] theorem updAoq_source (f) : (d.updAoq n f).source m = d.source m := rfl
@[simp] theorem updAoq_eng (f) : (d.updAoq n f).eng m = d.eng m := rfl
@[simp] theorem updAoq_head (f) : (d.updAoq n f).head m = d.head m := rfl
@[simp] theorem updAoq_fp (f) : (d.updAoq n f).fp m = d.fp m := rfl
@[simp] theorem updAoq_ptpPort (f) : (d.updAoq n f).ptpPort m = d.ptpPort m := rfl
@[simp] theorem updAoq_lane (f) : (d.updAoq n f).lane m = d.lane m := rfl
@[simp] theorem updAoq_mac (f) : (d.updAoq n f).mac m = d.mac m := rfl
@[simp] theorem updAoq_member (f) : (d.updAoq n f).member m = d.member m := rfl
@[simp] theorem updAoq_path (f) : (d.updAoq n f).path m = d.path m := rfl
@[simp] theorem updAoq_hstat (f) : (d.updAoq n f).hstat m = d.hstat m := rfl
@[simp] theorem updAoq_box (f) : (d.updAoq n f).box m = d.box m := rfl
@[simp] theorem updAoq_user (f) : (d.updAoq n f).user m = d.user m := rfl
@[simp] theorem updAoq_group (f) : (d.updAoq n f).group m = d.group m := rfl
@[simp] theorem updAoq_tb (f) : (d.updAoq n f).tb = d.tb := rfl
@[simp] theorem updAoq_pw (f) : (d.updAoq n f).pw = d.pw := rfl
@[simp] theorem updAoq_gl (f) : (d.updAoq n f).gl = d.gl := rfl
@[simp] theorem updAoq_tick (f) : (d.updAoq n f).tick = d.tick := rfl
@[simp] theorem updAoq_so (f) : (d.updAoq n f).so = d.so := rfl
@[simp] theorem updAoq_load (f) : (d.updAoq n f).load = d.load := rfl
@[simp] theorem updAoq_free (f) : (d.updAoq n f).free = d.free := rfl
@[simp] theorem updAoq_chases (f) : (d.updAoq n f).chases = d.chases := rfl
@[simp] theorem updAoq_lo (f) : (d.updAoq n f).lo = d.lo := rfl
end
section
variable (d : Dev) (n m : Nat)
@[simp] theorem updPair_chOut (f) : (d.updPair n f).chOut m = d.chOut m := rfl
@[simp] theorem updPair_chCnt (f) : (d.updPair n f).chCnt m = d.chCnt m := rfl
@[simp] theorem updPair_chCap (f) : (d.updPair n f).chCap m = d.chCap m := rfl
@[simp] theorem updPair_chEm (f) : (d.updPair n f).chEm m = d.chEm m := rfl
@[simp] theorem updPair_pin (f) : (d.updPair n f).pin m = d.pin m := rfl
@[simp] theorem updPair_dec (f) : (d.updPair n f).dec m = d.dec m := rfl
@[simp] theorem updPair_decTrk (f) : (d.updPair n f).decTrk m = d.decTrk m := rfl
@[simp] theorem updPair_aoq (f) : (d.updPair n f).aoq m = d.aoq m := rfl
@[simp] theorem updPair_trip (f) : (d.updPair n f).trip m = d.trip m := rfl
@[simp] theorem updPair_axis (f) : (d.updPair n f).axis m = d.axis m := rfl
@[simp] theorem updPair_queue (f) : (d.updPair n f).queue m = d.queue m := rfl
@[simp] theorem updPair_slug (f) : (d.updPair n f).slug m = d.slug m := rfl
@[simp] theorem updPair_chase (f) : (d.updPair n f).chase m = d.chase m := rfl
@[simp] theorem updPair_comp (f) : (d.updPair n f).comp m = d.comp m := rfl
@[simp] theorem updPair_source (f) : (d.updPair n f).source m = d.source m := rfl
@[simp] theorem updPair_eng (f) : (d.updPair n f).eng m = d.eng m := rfl
@[simp] theorem updPair_head (f) : (d.updPair n f).head m = d.head m := rfl
@[simp] theorem updPair_fp (f) : (d.updPair n f).fp m = d.fp m := rfl
@[simp] theorem updPair_ptpPort (f) : (d.updPair n f).ptpPort m = d.ptpPort m := rfl
@[simp] theorem updPair_lane (f) : (d.updPair n f).lane m = d.lane m := rfl
@[simp] theorem updPair_mac (f) : (d.updPair n f).mac m = d.mac m := rfl
@[simp] theorem updPair_member (f) : (d.updPair n f).member m = d.member m := rfl
@[simp] theorem updPair_path (f) : (d.updPair n f).path m = d.path m := rfl
@[simp] theorem updPair_hstat (f) : (d.updPair n f).hstat m = d.hstat m := rfl
@[simp] theorem updPair_box (f) : (d.updPair n f).box m = d.box m := rfl
@[simp] theorem updPair_user (f) : (d.updPair n f).user m = d.user m := rfl
@[simp] theorem updPair_group (f) : (d.updPair n f).group m = d.group m := rfl
@[simp] theorem updPair_tb (f) : (d.updPair n f).tb = d.tb := rfl
@[simp] theorem updPair_pw (f) : (d.updPair n f).pw = d.pw := rfl
@[simp] theorem updPair_gl (f) : (d.updPair n f).gl = d.gl := rfl
@[simp] theorem updPair_tick (f) : (d.updPair n f).tick = d.tick := rfl
@[simp] theorem updPair_so (f) : (d.updPair n f).so = d.so := rfl
@[simp] theorem updPair_load (f) : (d.updPair n f).load = d.load := rfl
@[simp] theorem updPair_free (f) : (d.updPair n f).free = d.free := rfl
@[simp] theorem updPair_chases (f) : (d.updPair n f).chases = d.chases := rfl
@[simp] theorem updPair_lo (f) : (d.updPair n f).lo = d.lo := rfl
end
section
variable (d : Dev) (n m : Nat)
@[simp] theorem updTrip_chOut (f) : (d.updTrip n f).chOut m = d.chOut m := rfl
@[simp] theorem updTrip_chCnt (f) : (d.updTrip n f).chCnt m = d.chCnt m := rfl
@[simp] theorem updTrip_chCap (f) : (d.updTrip n f).chCap m = d.chCap m := rfl
@[simp] theorem updTrip_chEm (f) : (d.updTrip n f).chEm m = d.chEm m := rfl
@[simp] theorem updTrip_pin (f) : (d.updTrip n f).pin m = d.pin m := rfl
@[simp] theorem updTrip_dec (f) : (d.updTrip n f).dec m = d.dec m := rfl
@[simp] theorem updTrip_decTrk (f) : (d.updTrip n f).decTrk m = d.decTrk m := rfl
@[simp] theorem updTrip_aoq (f) : (d.updTrip n f).aoq m = d.aoq m := rfl
@[simp] theorem updTrip_pair (f) : (d.updTrip n f).pair m = d.pair m := rfl
@[simp] theorem updTrip_axis (f) : (d.updTrip n f).axis m = d.axis m := rfl
@[simp] theorem updTrip_queue (f) : (d.updTrip n f).queue m = d.queue m := rfl
@[simp] theorem updTrip_slug (f) : (d.updTrip n f).slug m = d.slug m := rfl
@[simp] theorem updTrip_chase (f) : (d.updTrip n f).chase m = d.chase m := rfl
@[simp] theorem updTrip_comp (f) : (d.updTrip n f).comp m = d.comp m := rfl
@[simp] theorem updTrip_source (f) : (d.updTrip n f).source m = d.source m := rfl
@[simp] theorem updTrip_eng (f) : (d.updTrip n f).eng m = d.eng m := rfl
@[simp] theorem updTrip_head (f) : (d.updTrip n f).head m = d.head m := rfl
@[simp] theorem updTrip_fp (f) : (d.updTrip n f).fp m = d.fp m := rfl
@[simp] theorem updTrip_ptpPort (f) : (d.updTrip n f).ptpPort m = d.ptpPort m := rfl
@[simp] theorem updTrip_lane (f) : (d.updTrip n f).lane m = d.lane m := rfl
@[simp] theorem updTrip_mac (f) : (d.updTrip n f).mac m = d.mac m := rfl
@[simp] theorem updTrip_member (f) : (d.updTrip n f).member m = d.member m := rfl
@[simp] theorem updTrip_path (f) : (d.updTrip n f).path m = d.path m := rfl
@[simp] theorem updTrip_hstat (f) : (d.updTrip n f).hstat m = d.hstat m := rfl
@[simp] theorem updTrip_box (f) : (d.updTrip n f).box m = d.box m := rfl
@[simp] theorem updTrip_user (f) : (d.updTrip n f).user m = d.user m := rfl
@[simp] theorem updTrip_group (f) : (d.updTrip n f).group m = d.group m := rfl
@[simp] theorem updTrip_tb (f) : (d.updTrip n f).tb = d.tb := rfl
@[simp] theorem updTrip_pw (f) : (d.updTrip n f).pw = d.pw := rfl
@[simp] theorem updTrip_gl (f) : (d.updTrip n f).gl = d.gl := rfl
@[simp] theorem updTrip_tick (f) : (d.updTrip n f).tick = d.tick := rfl
@[simp] theorem updTrip_so (f) : (d.updTrip n f).so = d.so := rfl
@[simp] theorem updTrip_load (f) : (d.updTrip n f).load = d.load := rfl
@[simp] theorem updTrip_free (f) : (d.updTrip n f).free = d.free := rfl
@[simp] theorem updTrip_chases (f) : (d.updTrip n f).chases = d.chases := rfl
@[simp] theorem updTrip_lo (f) : (d.updTrip n f).lo = d.lo := rfl
end
section
variable (d : Dev) (n m : Nat)
@[simp] theorem updAxis_chOut (f) : (d.updAxis n f).chOut m = d.chOut m := rfl
@[simp] theorem updAxis_chCnt (f) : (d.updAxis n f).chCnt m = d.chCnt m := rfl
@[simp] theorem updAxis_chCap (f) : (d.updAxis n f).chCap m = d.chCap m := rfl
@[simp] theorem updAxis_chEm (f) : (d.updAxis n f).chEm m = d.chEm m := rfl
@[simp] theorem updAxis_pin (f) : (d.updAxis n f).pin m = d.pin m := rfl
@[simp] theorem updAxis_dec (f) : (d.updAxis n f).dec m = d.dec m := rfl
@[simp] theorem updAxis_decTrk (f) : (d.updAxis n f).decTrk m = d.decTrk m := rfl
@[simp] theorem updAxis_aoq (f) : (d.updAxis n f).aoq m = d.aoq m := rfl
@[simp] theorem updAxis_pair (f) : (d.updAxis n f).pair m = d.pair m := rfl
@[simp] theorem updAxis_trip (f) : (d.updAxis n f).trip m = d.trip m := rfl
@[simp] theorem updAxis_queue (f) : (d.updAxis n f).queue m = d.queue m := rfl
@[simp] theorem updAxis_slug (f) : (d.updAxis n f).slug m = d.slug m := rfl
@[simp] theorem updAxis_chase (f) : (d.updAxis n f).chase m = d.chase m := rfl
@[simp] theorem updAxis_comp (f) : (d.updAxis n f).comp m = d.comp m := rfl
@[simp] theorem updAxis_source (f) : (d.updAxis n f).source m = d.source m := rfl
@[simp] theorem updAxis_eng (f) : (d.updAxis n f).eng m = d.eng m := rfl
@[simp] theorem updAxis_head (f) : (d.updAxis n f).head m = d.head m := rfl
@[simp] theorem updAxis_fp (f) : (d.updAxis n f).fp m = d.fp m := rfl
@[simp] theorem updAxis_ptpPort (f) : (d.updAxis n f).ptpPort m = d.ptpPort m := rfl
@[simp] theorem updAxis_lane (f) : (d.updAxis n f).lane m = d.lane m := rfl
@[simp] theorem updAxis_mac (f) : (d.updAxis n f).mac m = d.mac m := rfl
@[simp] theorem updAxis_member (f) : (d.updAxis n f).member m = d.member m := rfl
@[simp] theorem updAxis_path (f) : (d.updAxis n f).path m = d.path m := rfl
@[simp] theorem updAxis_hstat (f) : (d.updAxis n f).hstat m = d.hstat m := rfl
@[simp] theorem updAxis_box (f) : (d.updAxis n f).box m = d.box m := rfl
@[simp] theorem updAxis_user (f) : (d.updAxis n f).user m = d.user m := rfl
@[simp] theorem updAxis_group (f) : (d.updAxis n f).group m = d.group m := rfl
@[simp] theorem updAxis_tb (f) : (d.updAxis n f).tb = d.tb := rfl
@[simp] theorem updAxis_pw (f) : (d.updAxis n f).pw = d.pw := rfl
@[simp] theorem updAxis_gl (f) : (d.updAxis n f).gl = d.gl := rfl
@[simp] theorem updAxis_tick (f) : (d.updAxis n f).tick = d.tick := rfl
@[simp] theorem updAxis_so (f) : (d.updAxis n f).so = d.so := rfl
@[simp] theorem updAxis_load (f) : (d.updAxis n f).load = d.load := rfl
@[simp] theorem updAxis_free (f) : (d.updAxis n f).free = d.free := rfl
@[simp] theorem updAxis_chases (f) : (d.updAxis n f).chases = d.chases := rfl
@[simp] theorem updAxis_lo (f) : (d.updAxis n f).lo = d.lo := rfl
end
section
variable (d : Dev) (n m : Nat)
@[simp] theorem updQueue_chOut (f) : (d.updQueue n f).chOut m = d.chOut m := rfl
@[simp] theorem updQueue_chCnt (f) : (d.updQueue n f).chCnt m = d.chCnt m := rfl
@[simp] theorem updQueue_chCap (f) : (d.updQueue n f).chCap m = d.chCap m := rfl
@[simp] theorem updQueue_chEm (f) : (d.updQueue n f).chEm m = d.chEm m := rfl
@[simp] theorem updQueue_pin (f) : (d.updQueue n f).pin m = d.pin m := rfl
@[simp] theorem updQueue_dec (f) : (d.updQueue n f).dec m = d.dec m := rfl
@[simp] theorem updQueue_decTrk (f) : (d.updQueue n f).decTrk m = d.decTrk m := rfl
@[simp] theorem updQueue_aoq (f) : (d.updQueue n f).aoq m = d.aoq m := rfl
@[simp] theorem updQueue_pair (f) : (d.updQueue n f).pair m = d.pair m := rfl
@[simp] theorem updQueue_trip (f) : (d.updQueue n f).trip m = d.trip m := rfl
@[simp] theorem updQueue_axis (f) : (d.updQueue n f).axis m = d.axis m := rfl
@[simp] theorem updQueue_slug (f) : (d.updQueue n f).slug m = d.slug m := rfl
@[simp] theorem updQueue_chase (f) : (d.updQueue n f).chase m = d.chase m := rfl
@[simp] theorem updQueue_comp (f) : (d.updQueue n f).comp m = d.comp m := rfl
@[simp] theorem updQueue_source (f) : (d.updQueue n f).source m = d.source m := rfl
@[simp] theorem updQueue_eng (f) : (d.updQueue n f).eng m = d.eng m := rfl
@[simp] theorem updQueue_head (f) : (d.updQueue n f).head m = d.head m := rfl
@[simp] theorem updQueue_fp (f) : (d.updQueue n f).fp m = d.fp m := rfl
@[simp] theorem updQueue_ptpPort (f) : (d.updQueue n f).ptpPort m = d.ptpPort m := rfl
@[simp] theorem updQueue_lane (f) : (d.updQueue n f).lane m = d.lane m := rfl
@[simp] theorem updQueue_mac (f) : (d.updQueue n f).mac m = d.mac m := rfl
@[simp] theorem updQueue_member (f) : (d.updQueue n f).member m = d.member m := rfl
@[simp] theorem updQueue_path (f) : (d.updQueue n f).path m = d.path m := rfl
@[simp] theorem updQueue_hstat (f) : (d.updQueue n f).hstat m = d.hstat m := rfl
@[simp] theorem updQueue_box (f) : (d.updQueue n f).box m = d.box m := rfl
@[simp] theorem updQueue_user (f) : (d.updQueue n f).user m = d.user m := rfl
@[simp] theorem updQueue_group (f) : (d.updQueue n f).group m = d.group m := rfl
@[simp] theorem updQueue_tb (f) : (d.updQueue n f).tb = d.tb := rfl
@[simp] theorem updQueue_pw (f) : (d.updQueue n f).pw = d.pw := rfl
@[simp] theorem updQueue_gl (f) : (d.updQueue n f).gl = d.gl := rfl
@[simp] theorem updQueue_tick (f) : (d.updQueue n f).tick = d.tick := rfl
@[simp] theorem updQueue_so (f) : (d.updQueue n f).so = d.so := rfl
@[simp] theorem updQueue_load (f) : (d.updQueue n f).load = d.load := rfl
@[simp] theorem updQueue_free (f) : (d.updQueue n f).free = d.free := rfl
@[simp] theorem updQueue_chases (f) : (d.updQueue n f).chases = d.chases := rfl
@[simp] theorem updQueue_lo (f) : (d.updQueue n f).lo = d.lo := rfl
end
section
variable (d : Dev) (n m : Nat)
@[simp] theorem updSlug_chOut (f) : (d.updSlug n f).chOut m = d.chOut m := rfl
@[simp] theorem updSlug_chCnt (f) : (d.updSlug n f).chCnt m = d.chCnt m := rfl
@[simp] theorem updSlug_chCap (f) : (d.updSlug n f).chCap m = d.chCap m := rfl
@[simp] theorem updSlug_chEm (f) : (d.updSlug n f).chEm m = d.chEm m := rfl
@[simp] theorem updSlug_pin (f) : (d.updSlug n f).pin m = d.pin m := rfl
@[simp] theorem updSlug_dec (f) : (d.updSlug n f).dec m = d.dec m := rfl
@[simp] theorem updSlug_decTrk (f) : (d.updSlug n f).decTrk m = d.decTrk m := rfl
@[simp] theorem updSlug_aoq (f) : (d.updSlug n f).aoq m = d.aoq m := rfl
@[simp] theorem updSlug_pair (f) : (d.updSlug n f).pair m = d.pair m := rfl
@[simp] theorem updSlug_trip (f) : (d.updSlug n f).trip m = d.trip m := rfl
@[simp] theorem updSlug_axis (f) : (d.updSlug n f).axis m = d.axis m := rfl
@[simp] theorem updSlug_queue (f) : (d.updSlug n f).queue m = d.queue m := rfl
@[simp] theorem updSlug_chase (f) : (d.updSlug n f).chase m = d.chase m := rfl
@[simp] theorem updSlug_comp (f) : (d.updSlug n f).comp m = d.comp m := rfl
@[simp] theorem updSlug_source (f) : (d.updSlug n f).source m = d.source m := rfl
@[simp] theorem updSlug_eng (f) : (d.updSlug n f).eng m = d.eng m := rfl
@[simp] theorem updSlug_head (f) : (d.updSlug n f).head m = d.head m := rfl
@[simp] theorem updSlug_fp (f) : (d.updSlug n f).fp m = d.fp m := rfl
@[simp] theorem updSlug_ptpPort (f) : (d.updSlug n f).ptpPort m = d.ptpPort m := rfl
@[simp] theorem updSlug_lane (f) : (d.updSlug n f).lane m = d.lane m := rfl
@[simp] theorem updSlug_mac (f) : (d.updSlug n f).mac m = d.mac m := rfl
@[simp] theorem updSlug_member (f) : (d.updSlug n f).member m = d.member m := rfl
@[simp] theorem updSlug_path (f) : (d.updSlug n f).path m = d.path m := rfl
@[simp] theorem updSlug_hstat (f) : (d.updSlug n f).hstat m = d.hstat m := rfl
@[simp] theorem updSlug_box (f) : (d.updSlug n f).box m = d.box m := rfl
@[simp] theorem updSlug_user (f) : (d.updSlug n f).user m = d.user m := rfl
@[simp] theorem updSlug_group (f) : (d.updSlug n f).group m = d.group m := rfl
@[simp] theorem updSlug_tb (f) : (d.updSlug n f).tb = d.tb := rfl
@[simp] theorem updSlug_pw (f) : (d.updSlug n f).pw = d.pw := rfl
@[simp] theorem updSlug_gl (f) : (d.updSlug n f).gl = d.gl := rfl
@[simp] theorem updSlug_tick (f) : (d.updSlug n f).tick = d.tick := rfl
@[simp] theorem updSlug_so (f) : (d.updSlug n f).so = d.so := rfl
@[simp] theorem updSlug_load (f) : (d.updSlug n f).load = d.load := rfl
@[simp] theorem updSlug_free (f) : (d.updSlug n f).free = d.free := rfl
@[simp] theorem updSlug_chases (f) : (d.updSlug n f).chases = d.chases := rfl
@[simp] theorem updSlug_lo (f) : (d.updSlug n f).lo = d.lo := rfl
end
section
variable (d : Dev) (n m : Nat)
@[simp] theorem updChase_chOut (f) : (d.updChase n f).chOut m = d.chOut m := rfl
@[simp] theorem updChase_chCnt (f) : (d.updChase n f).chCnt m = d.chCnt m := rfl
@[simp] theorem updChase_chCap (f) : (d.updChase n f).chCap m = d.chCap m := rfl
@[simp] theorem updChase_chEm (f) : (d.updChase n f).chEm m = d.chEm m := rfl
@[simp] theorem updChase_pin (f) : (d.updChase n f).pin m = d.pin m := rfl
@[simp] theorem updChase_dec (f) : (d.updChase n f).dec m = d.dec m := rfl
@[simp] theorem updChase_decTrk (f) : (d.updChase n f).decTrk m = d.decTrk m := rfl
@[simp] theorem updChase_aoq (f) : (d.updChase n f).aoq m = d.aoq m := rfl
@[simp] theorem updChase_pair (f) : (d.updChase n f).pair m = d.pair m := rfl
@[simp] theorem updChase_trip (f) : (d.updChase n f).trip m = d.trip m := rfl
@[simp] theorem updChase_axis (f) : (d.updChase n f).axis m = d.axis m := rfl
@[simp] theorem updChase_queue (f) : (d.updChase n f).queue m = d.queue m := rfl
@[simp] theorem updChase_slug (f) : (d.updChase n f).slug m = d.slug m := rfl
@[simp] theorem updChase_comp (f) : (d.updChase n f).comp m = d.comp m := rfl
@[simp] theorem updChase_source (f) : (d.updChase n f).source m = d.source m := rfl
@[simp] theorem updChase_eng (f) : (d.updChase n f).eng m = d.eng m := rfl
@[simp] theorem updChase_head (f) : (d.updChase n f).head m = d.head m := rfl
@[simp] theorem updChase_fp (f) : (d.updChase n f).fp m = d.fp m := rfl
@[simp] theorem updChase_ptpPort (f) : (d.updChase n f).ptpPort m = d.ptpPort m := rfl
@[simp] theorem updChase_lane (f) : (d.updChase n f).lane m = d.lane m := rfl
@[simp] theorem updChase_mac (f) : (d.updChase n f).mac m = d.mac m := rfl
@[simp] theorem updChase_member (f) : (d.updChase n f).member m = d.member m := rfl
@[simp] theorem updChase_path (f) : (d.updChase n f).path m = d.path m := rfl
@[simp] theorem updChase_hstat (f) : (d.updChase n f).hstat m = d.hstat m := rfl
@[simp] theorem updChase_box (f) : (d.updChase n f).box m = d.box m := rfl
@[simp] theorem updChase_user (f) : (d.updChase n f).user m = d.user m := rfl
@[simp] theorem updChase_group (f) : (d.updChase n f).group m = d.group m := rfl
@[simp] theorem updChase_tb (f) : (d.updChase n f).tb = d.tb := rfl
@[simp] theorem updChase_pw (f) : (d.updChase n f).pw = d.pw := rfl
@[simp] theorem updChase_gl (f) : (d.updChase n f).gl = d.gl := rfl
@[simp] theorem updChase_tick (f) : (d.updChase n f).tick = d.tick := rfl
@[simp] theorem updChase_so (f) : (d.updChase n f).so = d.so := rfl
@[simp] theorem updChase_load (f) : (d.updChase n f).load = d.load := rfl
@[simp] theorem updChase_free (f) : (d.updChase n f).free = d.free := rfl
@[simp] theorem updChase_lo (f) : (d.updChase n f).lo = d.lo := rfl
end
section
variable (d : Dev) (n m : Nat)
@[simp] theorem updComp_chOut (f) : (d.updComp n f).chOut m = d.chOut m := rfl
@[simp] theorem updComp_chCnt (f) : (d.updComp n f).chCnt m = d.chCnt m := rfl
@[simp] theorem updComp_chCap (f) : (d.updComp n f).chCap m = d.chCap m := rfl
@[simp] theorem updComp_chEm (f) : (d.updComp n f).chEm m = d.chEm m := rfl
@[simp] theorem updComp_pin (f) : (d.updComp n f).pin m = d.pin m := rfl
@[simp] theorem updComp_dec (f) : (d.updComp n f).dec m = d.dec m := rfl
@[simp] theorem updComp_decTrk (f) : (d.updComp n f).decTrk m = d.decTrk m := rfl
@[simp] theorem updComp_aoq (f) : (d.updComp n f).aoq m = d.aoq m := rfl
@[simp] theorem updComp_pair (f) : (d.updComp n f).pair m = d.pair m := rfl
@[simp] theorem updComp_trip (f) : (d.updComp n f).trip m = d.trip m := rfl
@[simp] theorem updComp_axis (f) : (d.updComp n f).axis m = d.axis m := rfl
@[simp] theorem updComp_queue (f) : (d.updComp n f).queue m = d.queue m := rfl
@[simp] theorem updComp_slug (f) : (d.updComp n f).slug m = d.slug m := rfl
@[simp] theorem updComp_chase (f) : (d.updComp n f).chase m = d.chase m := rfl
@[simp] theorem updComp_source (f) : (d.updComp n f).source m = d.source m := rfl
@[simp] theorem updComp_eng (f) : (d.updComp n f).eng m = d.eng m := rfl
@[simp] theorem updComp_head (f) : (d.updComp n f).head m = d.head m := rfl
@[simp] theorem updComp_fp (f) : (d.updComp n f).fp m = d.fp m := rfl
@[simp] theorem updComp_ptpPort (f) : (d.updComp n f).ptpPort m = d.ptpPort m := rfl
@[simp] theorem updComp_lane (f) : (d.updComp n f).lane m = d.lane m := rfl
@[simp] theorem updComp_mac (f) : (d.updComp n f).mac m = d.mac m := rfl
@[simp] theorem updComp_member (f) : (d.updComp n f).member m = d.member m := rfl
@[simp] theorem updComp_path (f) : (d.updComp n f).path m = d.path m := rfl
@[simp] theorem updComp_hstat (f) : (d.updComp n f).hstat m = d.hstat m := rfl
@[simp] theorem updComp_box (f) : (d.updComp n f).box m = d.box m := rfl
@[simp] theorem updComp_user (f) : (d.updComp n f).user m = d.user m := rfl
@[simp] theorem updComp_group (f) : (d.updComp n f).group m = d.group m := rfl
@[simp] theorem updComp_tb (f) : (d.updComp n f).tb = d.tb := rfl
@[simp] theorem updComp_pw (f) : (d.updComp n f).pw = d.pw := rfl
@[simp] theorem updComp_gl (f) : (d.updComp n f).gl = d.gl := rfl
@[simp] theorem updComp_tick (f) : (d.updComp n f).tick = d.tick := rfl
@[simp] theorem updComp_so (f) : (d.updComp n f).so = d.so := rfl
@[simp] theorem updComp_load (f) : (d.updComp n f).load = d.load := rfl
@[simp] theorem updComp_free (f) : (d.updComp n f).free = d.free := rfl
@[simp] theorem updComp_chases (f) : (d.updComp n f).chases = d.chases := rfl
@[simp] theorem updComp_lo (f) : (d.updComp n f).lo = d.lo := rfl
end
section
variable (d : Dev) (n m : Nat)
@[simp] theorem updSource_chOut (f) : (d.updSource n f).chOut m = d.chOut m := rfl
@[simp] theorem updSource_chCnt (f) : (d.updSource n f).chCnt m = d.chCnt m := rfl
@[simp] theorem updSource_chCap (f) : (d.updSource n f).chCap m = d.chCap m := rfl
@[simp] theorem updSource_chEm (f) : (d.updSource n f).chEm m = d.chEm m := rfl
@[simp] theorem updSource_pin (f) : (d.updSource n f).pin m = d.pin m := rfl
@[simp] theorem updSource_dec (f) : (d.updSource n f).dec m = d.dec m := rfl
@[simp] theorem updSource_decTrk (f) : (d.updSource n f).decTrk m = d.decTrk m := rfl
@[simp] theorem updSource_aoq (f) : (d.updSource n f).aoq m = d.aoq m := rfl
@[simp] theorem updSource_pair (f) : (d.updSource n f).pair m = d.pair m := rfl
@[simp] theorem updSource_trip (f) : (d.updSource n f).trip m = d.trip m := rfl
@[simp] theorem updSource_axis (f) : (d.updSource n f).axis m = d.axis m := rfl
@[simp] theorem updSource_queue (f) : (d.updSource n f).queue m = d.queue m := rfl
@[simp] theorem updSource_slug (f) : (d.updSource n f).slug m = d.slug m := rfl
@[simp] theorem updSource_chase (f) : (d.updSource n f).chase m = d.chase m := rfl
@[simp] theorem updSource_comp (f) : (d.updSource n f).comp m = d.comp m := rfl
@[simp] theorem updSource_eng (f) : (d.updSource n f).eng m = d.eng m := rfl
@[simp] theorem updSource_head (f) : (d.updSource n f).head m = d.head m := rfl
@[simp] theorem updSource_fp (f) : (d.updSource n f).fp m = d.fp m := rfl
@[simp] theorem updSource_ptpPort (f) : (d.updSource n f).ptpPort m = d.ptpPort m := rfl
@[simp] theorem updSource_lane (f) : (d.updSource n f).lane m = d.lane m := rfl
@[simp] theorem updSource_mac (f) : (d.updSource n f).mac m = d.mac m := rfl
@[simp] theorem updSource_member (f) : (d.updSource n f).member m = d.member m := rfl
@[simp] theorem updSource_path (f) : (d.updSource n f).path m = d.path m := rfl
@[simp] theorem updSource_hstat (f) : (d.updSource n f).hstat m = d.hstat m := rfl
@[simp] theorem updSource_box (f) : (d.updSource n f).box m = d.box m := rfl
@[simp] theorem updSource_user (f) : (d.updSource n f).user m = d.user m := rfl
@[simp] theorem updSource_group (f) : (d.updSource n f).group m = d.group m := rfl
@[simp] theorem updSource_tb (f) : (d.updSource n f).tb = d.tb := rfl
@[simp] theorem updSource_pw (f) : (d.updSource n f).pw = d.pw := rfl
@[simp] theorem updSource_gl (f) : (d.updSource n f).gl = d.gl := rfl
@[simp] theorem updSource_tick (f) : (d.updSource n f).tick = d.tick := rfl
@[simp] theorem updSource_so (f) : (d.updSource n f).so = d.so := rfl
@[simp] theorem updSource_load (f) : (d.updSource n f).load = d.load := rfl
@[simp] theorem updSource_free (f) : (d.updSource n f).free = d.free := rfl
@[simp] theorem updSource_chases (f) : (d.updSource n f).chases = d.chases := rfl
@[simp] theorem updSource_lo (f) : (d.updSource n f).lo = d.lo := rfl
end
section
variable (d : Dev) (n m : Nat)
@[simp] theorem updEng_chOut (f) : (d.updEng n f).chOut m = d.chOut m := rfl
@[simp] theorem updEng_chCnt (f) : (d.updEng n f).chCnt m = d.chCnt m := rfl
@[simp] theorem updEng_chCap (f) : (d.updEng n f).chCap m = d.chCap m := rfl
@[simp] theorem updEng_chEm (f) : (d.updEng n f).chEm m = d.chEm m := rfl
@[simp] theorem updEng_pin (f) : (d.updEng n f).pin m = d.pin m := rfl
@[simp] theorem updEng_dec (f) : (d.updEng n f).dec m = d.dec m := rfl
@[simp] theorem updEng_decTrk (f) : (d.updEng n f).decTrk m = d.decTrk m := rfl
@[simp] theorem updEng_aoq (f) : (d.updEng n f).aoq m = d.aoq m := rfl
@[simp] theorem updEng_pair (f) : (d.updEng n f).pair m = d.pair m := rfl
@[simp] theorem updEng_trip (f) : (d.updEng n f).trip m = d.trip m := rfl
@[simp] theorem updEng_axis (f) : (d.updEng n f).axis m = d.axis m := rfl
@[simp] theorem updEng_queue (f) : (d.updEng n f).queue m = d.queue m := rfl
@[simp] theorem updEng_slug (f) : (d.updEng n f).slug m = d.slug m := rfl
@[simp] theorem updEng_chase (f) : (d.updEng n f).chase m = d.chase m := rfl
@[simp] theorem updEng_comp (f) : (d.updEng n f).comp m = d.comp m := rfl
@[simp] theorem updEng_source (f) : (d.updEng n f).source m = d.source m := rfl
@[simp] theorem updEng_head (f) : (d.updEng n f).head m = d.head m := rfl
@[simp] theorem updEng_fp (f) : (d.updEng n f).fp m = d.fp m := rfl
@[simp] theorem updEng_ptpPort (f) : (d.updEng n f).ptpPort m = d.ptpPort m := rfl
@[simp] theorem updEng_lane (f) : (d.updEng n f).lane m = d.lane m := rfl
@[simp] theorem updEng_mac (f) : (d.updEng n f).mac m = d.mac m := rfl
@[simp] theorem updEng_member (f) : (d.updEng n f).member m = d.member m := rfl
@[simp] theorem updEng_path (f) : (d.updEng n f).path m = d.path m := rfl
@[simp] theorem updEng_hstat (f) : (d.updEng n f).hstat m = d.hstat m := rfl
@[simp] theorem updEng_box (f) : (d.updEng n f).box m = d.box m := rfl
@[simp] theorem updEng_user (f) : (d.updEng n f).user m = d.user m := rfl
@[simp] theorem updEng_group (f) : (d.updEng n f).group m = d.group m := rfl
@[simp] theorem updEng_tb (f) : (d.updEng n f).tb = d.tb := rfl
@[simp] theorem updEng_pw (f) : (d.updEng n f).pw = d.pw := rfl
@[simp] theorem updEng_gl (f) : (d.updEng n f).gl = d.gl := rfl
@[simp] theorem updEng_tick (f) : (d.updEng n f).tick = d.tick := rfl
@[simp] theorem updEng_so (f) : (d.updEng n f).so = d.so := rfl
@[simp] theorem updEng_load (f) : (d.updEng n f).load = d.load := rfl
@[simp] theorem updEng_free (f) : (d.updEng n f).free = d.free := rfl
@[simp] theorem updEng_chases (f) : (d.updEng n f).chases = d.chases := rfl
@[simp] theorem updEng_lo (f) : (d.updEng n f).lo = d.lo := rfl
end
section
variable (d : Dev) (n m : Nat)
@[simp] theorem updHead_chOut (f) : (d.updHead n f).chOut m = d.chOut m := rfl
@[simp] theorem updHead_chCnt (f) : (d.updHead n f).chCnt m = d.chCnt m := rfl
@[simp] theorem updHead_chCap (f) : (d.updHead n f).chCap m = d.chCap m := rfl
@[simp] theorem updHead_chEm (f) : (d.updHead n f).chEm m = d.chEm m := rfl
@[simp] theorem updHead_pin (f) : (d.updHead n f).pin m = d.pin m := rfl
@[simp] theorem updHead_dec (f) : (d.updHead n f).dec m = d.dec m := rfl
@[simp] theorem updHead_decTrk (f) : (d.updHead n f).decTrk m = d.decTrk m := rfl
@[simp] theorem updHead_aoq (f) : (d.updHead n f).aoq m = d.aoq m := rfl
@[simp] theorem updHead_pair (f) : (d.updHead n f).pair m = d.pair m := rfl
@[simp] theorem updHead_trip (f) : (d.updHead n f).trip m = d.trip m := rfl
@[simp] theorem updHead_axis (f) : (d.updHead n f).axis m = d.axis m := rfl
@[simp] theorem updHead_queue (f) : (d.updHead n f).queue m = d.queue m := rfl
@[simp] theorem updHead_slug (f) : (d.updHead n f).slug m = d.slug m := rfl
@[simp] theorem updHead_chase (f) : (d.updHead n f).chase m = d.chase m := rfl
@[simp] theorem updHead_comp (f) : (d.updHead n f).comp m = d.comp m := rfl
@[simp] theorem updHead_source (f) : (d.updHead n f).source m = d.source m := rfl
@[simp] theorem updHead_eng (f) : (d.updHead n f).eng m = d.eng m := rfl
@[simp] theorem updHead_fp (f) : (d.updHead n f).fp m = d.fp m := rfl
@[simp] theorem updHead_ptpPort (f) : (d.updHead n f).ptpPort m = d.ptpPort m := rfl
@[simp] theorem updHead_lane (f) : (d.updHead n f).lane m = d.lane m := rfl
@[simp] theorem updHead_mac (f) : (d.updHead n f).mac m = d.mac m := rfl
@[simp] theorem updHead_member (f) : (d.updHead n f).member m = d.member m := rfl
@[simp] theorem updHead_path (f) : (d.updHead n f).path m = d.path m := rfl
@[simp] theorem updHead_hstat (f) : (d.updHead n f).hstat m = d.hstat m := rfl
@[simp] theorem updHead_box (f) : (d.updHead n f).box m = d.box m := rfl
@[simp] theorem updHead_user (f) : (d.updHead n f).user m = d.user m := rfl
@[simp] theorem updHead_group (f) : (d.updHead n f).group m = d.group m := rfl
@[simp] theorem updHead_tb (f) : (d.updHead n f).tb = d.tb := rfl
@[simp] theorem updHead_pw (f) : (d.updHead n f).pw = d.pw := rfl
@[simp] theorem updHead_gl (f) : (d.updHead n f).gl = d.gl := rfl
@[simp] theorem updHead_tick (f) : (d.updHead n f).tick = d.tick := rfl
@[simp] theorem updHead_so (f) : (d.updHead n f).so = d.so := rfl
@[simp] theorem updHead_load (f) : (d.updHead n f).load = d.load := rfl
@[simp] theorem updHead_free (f) : (d.updHead n f).free = d.free := rfl
@[simp] theorem updHead_chases (f) : (d.updHead n f).chases = d.chases := rfl
@[simp] theorem updHead_lo (f) : (d.updHead n f).lo = d.lo := rfl
end
section
variable (d : Dev) (n m : Nat)
@[simp] theorem updFp_chOut (f) : (d.updFp n f).chOut m = d.chOut m := rfl
@[simp] theorem updFp_chCnt (f) : (d.updFp n f).chCnt m = d.chCnt m := rfl
@[simp] theorem updFp_chCap (f) : (d.updFp n f).chCap m = d.chCap m := rfl
@[simp] theorem updFp_chEm (f) : (d.updFp n f).chEm m = d.chEm m := rfl
@[simp] theorem updFp_pin (f) : (d.updFp n f).pin m = d.pin m := rfl
@[simp] theorem updFp_dec (f) : (d.updFp n f).dec m = d.dec m := rfl
@[simp] theorem updFp_decTrk (f) : (d.updFp n f).decTrk m = d.decTrk m := rfl
@[simp] theorem updFp_aoq (f) : (d.updFp n f).aoq m = d.aoq m := rfl
@[simp] theorem updFp_pair (f) : (d.updFp n f).pair m = d.pair m := rfl
@[simp] theorem updFp_trip (f) : (d.updFp n f).trip m = d.trip m := rfl
@[simp] theorem updFp_axis (f) : (d.updFp n f).axis m = d.axis m := rfl
@[simp] theorem updFp_queue (f) : (d.updFp n f).queue m = d.queue m := rfl
@[simp] theorem updFp_slug (f) : (d.updFp n f).slug m = d.slug m := rfl
@[simp] theorem updFp_chase (f) : (d.updFp n f).chase m = d.chase m := rfl
@[simp] theorem updFp_comp (f) : (d.updFp n f).comp m = d.comp m := rfl
@[simp] theorem updFp_source (f) : (d.updFp n f).source m = d.source m := rfl
@[simp] theorem updFp_eng (f) : (d.updFp n f).eng m = d.eng m := rfl
@[simp] theorem updFp_head (f) : (d.updFp n f).head m = d.head m := rfl
@[simp] theorem updFp_ptpPort (f) : (d.updFp n f).ptpPort m = d.ptpPort m := rfl
@[simp] theorem updFp_lane (f) : (d.updFp n f).lane m = d.lane m := rfl
@[simp] theorem updFp_mac (f) : (d.updFp n f).mac m = d.mac m := rfl
@[simp] theorem updFp_member (f) : (d.updFp n f).member m = d.member m := rfl
@[simp] theorem updFp_path (f) : (d.updFp n f).path m = d.path m := rfl
@[simp] theorem updFp_hstat (f) : (d.updFp n f).hstat m = d.hstat m := rfl
@[simp] theorem updFp_box (f) : (d.updFp n f).box m = d.box m := rfl
@[simp] theorem updFp_user (f) : (d.updFp n f).user m = d.user m := rfl
@[simp] theorem updFp_group (f) : (d.updFp n f).group m = d.group m := rfl
@[simp] theorem updFp_tb (f) : (d.updFp n f).tb = d.tb := rfl
@[simp] theorem updFp_pw (f) : (d.updFp n f).pw = d.pw := rfl
@[simp] theorem updFp_gl (f) : (d.updFp n f).gl = d.gl := rfl
@[simp] theorem updFp_tick (f) : (d.updFp n f).tick = d.tick := rfl
@[simp] theorem updFp_so (f) : (d.updFp n f).so = d.so := rfl
@[simp] theorem updFp_load (f) : (d.updFp n f).load = d.load := rfl
@[simp] theorem updFp_free (f) : (d.updFp n f).free = d.free := rfl
@[simp] theorem updFp_chases (f) : (d.updFp n f).chases = d.chases := rfl
@[simp] theorem updFp_lo (f) : (d.updFp n f).lo = d.lo := rfl
end
section
variable (d : Dev) (n m : Nat)
@[simp] theorem updPtpPort_chOut (f) : (d.updPtpPort n f).chOut m = d.chOut m := rfl
@[simp] theorem updPtpPort_chCnt (f) : (d.updPtpPort n f).chCnt m = d.chCnt m := rfl
@[simp] theorem updPtpPort_chCap (f) : (d.updPtpPort n f).chCap m = d.chCap m := rfl
@[simp] theorem updPtpPort_chEm (f) : (d.updPtpPort n f).chEm m = d.chEm m := rfl
@[simp] theorem updPtpPort_pin (f) : (d.updPtpPort n f).pin m = d.pin m := rfl
@[simp] theorem updPtpPort_dec (f) : (d.updPtpPort n f).dec m = d.dec m := rfl
@[simp] theorem updPtpPort_decTrk (f) : (d.updPtpPort n f).decTrk m = d.decTrk m := rfl
@[simp] theorem updPtpPort_aoq (f) : (d.updPtpPort n f).aoq m = d.aoq m := rfl
@[simp] theorem updPtpPort_pair (f) : (d.updPtpPort n f).pair m = d.pair m := rfl
@[simp] theorem updPtpPort_trip (f) : (d.updPtpPort n f).trip m = d.trip m := rfl
@[simp] theorem updPtpPort_axis (f) : (d.updPtpPort n f).axis m = d.axis m := rfl
@[simp] theorem updPtpPort_queue (f) : (d.updPtpPort n f).queue m = d.queue m := rfl
@[simp] theorem updPtpPort_slug (f) : (d.updPtpPort n f).slug m = d.slug m := rfl
@[simp] theorem updPtpPort_chase (f) : (d.updPtpPort n f).chase m = d.chase m := rfl
@[simp] theorem updPtpPort_comp (f) : (d.updPtpPort n f).comp m = d.comp m := rfl
@[simp] theorem updPtpPort_source (f) : (d.updPtpPort n f).source m = d.source m := rfl
@[simp] theorem updPtpPort_eng (f) : (d.updPtpPort n f).eng m = d.eng m := rfl
@[simp] theorem updPtpPort_head (f) : (d.updPtpPort n f).head m = d.head m := rfl
@[simp] theorem updPtpPort_fp (f) : (d.updPtpPort n f).fp m = d.fp m := rfl
@[simp] theorem updPtpPort_lane (f) : (d.updPtpPort n f).lane m = d.lane m := rfl
@[simp] theorem updPtpPort_mac (f) : (d.updPtpPort n f).mac m = d.mac m := rfl
@[simp] theorem updPtpPort_member (f) : (d.updPtpPort n f).member m = d.member m := rfl
@[simp] theorem updPtpPort_path (f) : (d.updPtpPort n f).path m = d.path m := rfl
@[simp] theorem updPtpPort_hstat (f) : (d.updPtpPort n f).hstat m = d.hstat m := rfl
@[simp] theorem updPtpPort_box (f) : (d.updPtpPort n f).box m = d.box m := rfl
@[simp] theorem updPtpPort_user (f) : (d.updPtpPort n f).user m = d.user m := rfl
@[simp] theorem updPtpPort_group (f) : (d.updPtpPort n f).group m = d.group m := rfl
@[simp] theorem updPtpPort_tb (f) : (d.updPtpPort n f).tb = d.tb := rfl
@[simp] theorem updPtpPort_pw (f) : (d.updPtpPort n f).pw = d.pw := rfl
@[simp] theorem updPtpPort_gl (f) : (d.updPtpPort n f).gl = d.gl := rfl
@[simp] theorem updPtpPort_tick (f) : (d.updPtpPort n f).tick = d.tick := rfl
@[simp] theorem updPtpPort_so (f) : (d.updPtpPort n f).so = d.so := rfl
@[simp] theorem updPtpPort_load (f) : (d.updPtpPort n f).load = d.load := rfl
@[simp] theorem updPtpPort_free (f) : (d.updPtpPort n f).free = d.free := rfl
@[simp] theorem updPtpPort_chases (f) : (d.updPtpPort n f).chases = d.chases := rfl
@[simp] theorem updPtpPort_lo (f) : (d.updPtpPort n f).lo = d.lo := rfl
end
section
variable (d : Dev) (n m : Nat)
@[simp] theorem updLane_chOut (f) : (d.updLane n f).chOut m = d.chOut m := rfl
@[simp] theorem updLane_chCnt (f) : (d.updLane n f).chCnt m = d.chCnt m := rfl
@[simp] theorem updLane_chCap (f) : (d.updLane n f).chCap m = d.chCap m := rfl
@[simp] theorem updLane_chEm (f) : (d.updLane n f).chEm m = d.chEm m := rfl
@[simp] theorem updLane_pin (f) : (d.updLane n f).pin m = d.pin m := rfl
@[simp] theorem updLane_dec (f) : (d.updLane n f).dec m = d.dec m := rfl
@[simp] theorem updLane_decTrk (f) : (d.updLane n f).decTrk m = d.decTrk m := rfl
@[simp] theorem updLane_aoq (f) : (d.updLane n f).aoq m = d.aoq m := rfl
@[simp] theorem updLane_pair (f) : (d.updLane n f).pair m = d.pair m := rfl
@[simp] theorem updLane_trip (f) : (d.updLane n f).trip m = d.trip m := rfl
@[simp] theorem updLane_axis (f) : (d.updLane n f).axis m = d.axis m := rfl
@[simp] theorem updLane_queue (f) : (d.updLane n f).queue m = d.queue m := rfl
@[simp] theorem updLane_slug (f) : (d.updLane n f).slug m = d.slug m := rfl
@[simp] theorem updLane_chase (f) : (d.updLane n f).chase m = d.chase m := rfl
@[simp] theorem updLane_comp (f) : (d.updLane n f).comp m = d.comp m := rfl
@[simp] theorem updLane_source (f) : (d.updLane n f).source m = d.source m := rfl
@[simp] theorem updLane_eng (f) : (d.updLane n f).eng m = d.eng m := rfl
@[simp] theorem updLane_head (f) : (d.updLane n f).head m = d.head m := rfl
@[simp] theorem updLane_fp (f) : (d.updLane n f).fp m = d.fp m := rfl
@[simp] theorem updLane_ptpPort (f) : (d.updLane n f).ptpPort m = d.ptpPort m := rfl
@[simp] theorem updLane_mac (f) : (d.updLane n f).mac m = d.mac m := rfl
@[simp] theorem updLane_member (f) : (d.updLane n f).member m = d.member m := rfl
@[simp] theorem updLane_path (f) : (d.updLane n f).path m = d.path m := rfl
@[simp] theorem updLane_hstat (f) : (d.updLane n f).hstat m = d.hstat m := rfl
@[simp] theorem updLane_box (f) : (d.updLane n f).box m = d.box m := rfl
@[simp] theorem updLane_user (f) : (d.updLane n f).user m = d.user m := rfl
@[simp] theorem updLane_group (f) : (d.updLane n f).group m = d.group m := rfl
@[simp] theorem updLane_tb (f) : (d.updLane n f).tb = d.tb := rfl
@[simp] theorem updLane_pw (f) : (d.updLane n f).pw = d.pw := rfl
@[simp] theorem updLane_gl (f) : (d.updLane n f).gl = d.gl := rfl
@[simp] theorem updLane_tick (f) : (d.updLane n f).tick = d.tick := rfl
@[simp] theorem updLane_so (f) : (d.updLane n f).so = d.so := rfl
@[simp] theorem updLane_load (f) : (d.updLane n f).load = d.load := rfl
@[simp] theorem updLane_free (f) : (d.updLane n f).free = d.free := rfl
@[simp] theorem updLane_chases (f) : (d.updLane n f).chases = d.chases := rfl
@[simp] theorem updLane_lo (f) : (d.updLane n f).lo = d.lo := rfl
end
section
variable (d : Dev) (n m : Nat)
@[simp] theorem updMac_chOut (f) : (d.updMac n f).chOut m = d.chOut m := rfl
@[simp] theorem updMac_chCnt (f) : (d.updMac n f).chCnt m = d.chCnt m := rfl
@[simp] theorem updMac_chCap (f) : (d.updMac n f).chCap m = d.chCap m := rfl
@[simp] theorem updMac_chEm (f) : (d.updMac n f).chEm m = d.chEm m := rfl
@[simp] theorem updMac_pin (f) : (d.updMac n f).pin m = d.pin m := rfl
@[simp] theorem updMac_dec (f) : (d.updMac n f).dec m = d.dec m := rfl
@[simp] theorem updMac_decTrk (f) : (d.updMac n f).decTrk m = d.decTrk m := rfl
@[simp] theorem updMac_aoq (f) : (d.updMac n f).aoq m = d.aoq m := rfl
@[simp] theorem updMac_pair (f) : (d.updMac n f).pair m = d.pair m := rfl
@[simp] theorem updMac_trip (f) : (d.updMac n f).trip m = d.trip m := rfl
@[simp] theorem updMac_axis (f) : (d.updMac n f).axis m = d.axis m := rfl
@[simp] theorem updMac_queue (f) : (d.updMac n f).queue m = d.queue m := rfl
@[simp] theorem updMac_slug (f) : (d.updMac n f).slug m = d.slug m := rfl
@[simp] theorem updMac_chase (f) : (d.updMac n f).chase m = d.chase m := rfl
@[simp] theorem updMac_comp (f) : (d.updMac n f).comp m = d.comp m := rfl
@[simp] theorem updMac_source (f) : (d.updMac n f).source m = d.source m := rfl
@[simp] theorem updMac_eng (f) : (d.updMac n f).eng m = d.eng m := rfl
@[simp] theorem updMac_head (f) : (d.updMac n f).head m = d.head m := rfl
@[simp] theorem updMac_fp (f) : (d.updMac n f).fp m = d.fp m := rfl
@[simp] theorem updMac_ptpPort (f) : (d.updMac n f).ptpPort m = d.ptpPort m := rfl
@[simp] theorem updMac_lane (f) : (d.updMac n f).lane m = d.lane m := rfl
@[simp] theorem updMac_member (f) : (d.updMac n f).member m = d.member m := rfl
@[simp] theorem updMac_path (f) : (d.updMac n f).path m = d.path m := rfl
@[simp] theorem updMac_hstat (f) : (d.updMac n f).hstat m = d.hstat m := rfl
@[simp] theorem updMac_box (f) : (d.updMac n f).box m = d.box m := rfl
@[simp] theorem updMac_user (f) : (d.updMac n f).user m = d.user m := rfl
@[simp] theorem updMac_group (f) : (d.updMac n f).group m = d.group m := rfl
@[simp] theorem updMac_tb (f) : (d.updMac n f).tb = d.tb := rfl
@[simp] theorem updMac_pw (f) : (d.updMac n f).pw = d.pw := rfl
@[simp] theorem updMac_gl (f) : (d.updMac n f).gl = d.gl := rfl
@[simp] theorem updMac_tick (f) : (d.updMac n f).tick = d.tick := rfl
@[simp] theorem updMac_so (f) : (d.updMac n f).so = d.so := rfl
@[simp] theorem updMac_load (f) : (d.updMac n f).load = d.load := rfl
@[simp] theorem updMac_free (f) : (d.updMac n f).free = d.free := rfl
@[simp] theorem updMac_chases (f) : (d.updMac n f).chases = d.chases := rfl
@[simp] theorem updMac_lo (f) : (d.updMac n f).lo = d.lo := rfl
end
section
variable (d : Dev) (n m : Nat)
@[simp] theorem updMember_chOut (f) : (d.updMember n f).chOut m = d.chOut m := rfl
@[simp] theorem updMember_chCnt (f) : (d.updMember n f).chCnt m = d.chCnt m := rfl
@[simp] theorem updMember_chCap (f) : (d.updMember n f).chCap m = d.chCap m := rfl
@[simp] theorem updMember_chEm (f) : (d.updMember n f).chEm m = d.chEm m := rfl
@[simp] theorem updMember_pin (f) : (d.updMember n f).pin m = d.pin m := rfl
@[simp] theorem updMember_dec (f) : (d.updMember n f).dec m = d.dec m := rfl
@[simp] theorem updMember_decTrk (f) : (d.updMember n f).decTrk m = d.decTrk m := rfl
@[simp] theorem updMember_aoq (f) : (d.updMember n f).aoq m = d.aoq m := rfl
@[simp] theorem updMember_pair (f) : (d.updMember n f).pair m = d.pair m := rfl
@[simp] theorem updMember_trip (f) : (d.updMember n f).trip m = d.trip m := rfl
@[simp] theorem updMember_axis (f) : (d.updMember n f).axis m = d.axis m := rfl
@[simp] theorem updMember_queue (f) : (d.updMember n f).queue m = d.queue m := rfl
@[simp] theorem updMember_slug (f) : (d.updMember n f).slug m = d.slug m := rfl
@[simp] theorem updMember_chase (f) : (d.updMember n f).chase m = d.chase m := rfl
@[simp] theorem updMember_comp (f) : (d.updMember n f).comp m = d.comp m := rfl
@[simp] theorem updMember_source (f) : (d.updMember n f).source m = d.source m := rfl
@[simp] theorem updMember_eng (f) : (d.updMember n f).eng m = d.eng m := rfl
@[simp] theorem updMember_head (f) : (d.updMember n f).head m = d.head m := rfl
@[simp] theorem updMember_fp (f) : (d.updMember n f).fp m = d.fp m := rfl
@[simp] theorem updMember_ptpPort (f) : (d.updMember n f).ptpPort m = d.ptpPort m := rfl
@[simp] theorem updMember_lane (f) : (d.updMember n f).lane m = d.lane m := rfl
@[simp] theorem updMember_mac (f) : (d.updMember n f).mac m = d.mac m := rfl
@[simp] theorem updMember_path (f) : (d.updMember n f).path m = d.path m := rfl
@[simp] theorem updMember_hstat (f) : (d.updMember n f).hstat m = d.hstat m := rfl
@[simp] theorem updMember_box (f) : (d.updMember n f).box m = d.box m := rfl
@[simp] theorem updMember_user (f) : (d.updMember n f).user m = d.user m := rfl
@[simp] theorem updMember_group (f) : (d.updMember n f).group m = d.group m := rfl
@[simp] theorem updMember_tb (f) : (d.updMember n f).tb = d.tb := rfl
@[simp] theorem updMember_pw (f) : (d.updMember n f).pw = d.pw := rfl
@[simp] theorem updMember_gl (f) : (d.updMember n f).gl = d.gl := rfl
@[simp] theorem updMember_tick (f) : (d.updMember n f).tick = d.tick := rfl
@[simp] theorem updMember_so (f) : (d.updMember n f).so = d.so := rfl
@[simp] theorem updMember_load (f) : (d.updMember n f).load = d.load := rfl
@[simp] theorem updMember_free (f) : (d.updMember n f).free = d.free := rfl
@[simp] theorem updMember_chases (f) : (d.updMember n f).chases = d.chases := rfl
@[simp] theorem updMember_lo (f) : (d.updMember n f).lo = d.lo := rfl
end
section
variable (d : Dev) (n m : Nat)
@[simp] theorem updPath_chOut (f) : (d.updPath n f).chOut m = d.chOut m := rfl
@[simp] theorem updPath_chCnt (f) : (d.updPath n f).chCnt m = d.chCnt m := rfl
@[simp] theorem updPath_chCap (f) : (d.updPath n f).chCap m = d.chCap m := rfl
@[simp] theorem updPath_chEm (f) : (d.updPath n f).chEm m = d.chEm m := rfl
@[simp] theorem updPath_pin (f) : (d.updPath n f).pin m = d.pin m := rfl
@[simp] theorem updPath_dec (f) : (d.updPath n f).dec m = d.dec m := rfl
@[simp] theorem updPath_decTrk (f) : (d.updPath n f).decTrk m = d.decTrk m := rfl
@[simp] theorem updPath_aoq (f) : (d.updPath n f).aoq m = d.aoq m := rfl
@[simp] theorem updPath_pair (f) : (d.updPath n f).pair m = d.pair m := rfl
@[simp] theorem updPath_trip (f) : (d.updPath n f).trip m = d.trip m := rfl
@[simp] theorem updPath_axis (f) : (d.updPath n f).axis m = d.axis m := rfl
@[simp] theorem updPath_queue (f) : (d.updPath n f).queue m = d.queue m := rfl
@[simp] theorem updPath_slug (f) : (d.updPath n f).slug m = d.slug m := rfl
@[simp] theorem updPath_chase (f) : (d.updPath n f).chase m = d.chase m := rfl
@[simp] theorem updPath_comp (f) : (d.updPath n f).comp m = d.comp m := rfl
@[simp] theorem updPath_source (f) : (d.updPath n f).source m = d.source m := rfl
@[simp] theorem updPath_eng (f) : (d.updPath n f).eng m = d.eng m := rfl
@[simp] theorem updPath_head (f) : (d.updPath n f).head m = d.head m := rfl
@[simp] theorem updPath_fp (f) : (d.updPath n f).fp m = d.fp m := rfl
@[simp] theorem updPath_ptpPort (f) : (d.updPath n f).ptpPort m = d.ptpPort m := rfl
@[simp] theorem updPath_lane (f) : (d.updPath n f).lane m = d.lane m := rfl
@[simp] theorem updPath_mac (f) : (d.updPath n f).mac m = d.mac m := rfl
@[simp] theorem updPath_member (f) : (d.updPath n f).member m = d.member m := rfl
@[simp] theorem updPath_hstat (f) : (d.updPath n f).hstat m = d.hstat m := rfl
@[simp] theorem updPath_box (f) : (d.updPath n f).box m = d.box m := rfl
@[simp] theorem updPath_user (f) : (d.updPath n f).user m = d.user m := rfl
@[simp] theorem updPath_group (f) : (d.updPath n f).group m = d.group m := rfl
@[simp] theorem updPath_tb (f) : (d.updPath n f).tb = d.tb := rfl
@[simp] theorem updPath_pw (f) : (d.updPath n f).pw = d.pw := rfl
@[simp] theorem updPath_gl (f) : (d.updPath n f).gl = d.gl := rfl
@[simp] theorem updPath_tick (f) : (d.updPath n f).tick = d.tick := rfl
@[simp] theorem updPath_so (f) : (d.updPath n f).so = d.so := rfl
@[simp] theorem updPath_load (f) : (d.updPath n f).load = d.load := rfl
@[simp] theorem updPath_free (f) : (d.updPath n f).free = d.free := rfl
@[simp] theorem updPath_chases (f) : (d.updPath n f).chases = d.chases := rfl
@[simp] theorem updPath_lo (f) : (d.updPath n f).lo = d.lo := rfl
end
section
variable (d : Dev) (n m : Nat)
@[simp] theorem updHstat_chOut (f) : (d.updHstat n f).chOut m = d.chOut m := rfl
@[simp] theorem updHstat_chCnt (f) : (d.updHstat n f).chCnt m = d.chCnt m := rfl
@[simp] theorem updHstat_chCap (f) : (d.updHstat n f).chCap m = d.chCap m := rfl
@[simp] theorem updHstat_chEm (f) : (d.updHstat n f).chEm m = d.chEm m := rfl
@[simp] theorem updHstat_pin (f) : (d.updHstat n f).pin m = d.pin m := rfl
@[simp] theorem updHstat_dec (f) : (d.updHstat n f).dec m = d.dec m := rfl
@[simp] theorem updHstat_decTrk (f) : (d.updHstat n f).decTrk m = d.decTrk m := rfl
@[simp] theorem updHstat_aoq (f) : (d.updHstat n f).aoq m = d.aoq m := rfl
@[simp] theorem updHstat_pair (f) : (d.updHstat n f).pair m = d.pair m := rfl
@[simp] theorem updHstat_trip (f) : (d.updHstat n f).trip m = d.trip m := rfl
@[simp] theorem updHstat_axis (f) : (d.updHstat n f).axis m = d.axis m := rfl
@[simp] theorem updHstat_queue (f) : (d.updHstat n f).queue m = d.queue m := rfl
@[simp] theorem updHstat_slug (f) : (d.updHstat n f).slug m = d.slug m := rfl
@[simp] theorem updHstat_chase (f) : (d.updHstat n f).chase m = d.chase m := rfl
@[simp] theorem updHstat_comp (f) : (d.updHstat n f).comp m = d.comp m := rfl
@[simp] theorem updHstat_source (f) : (d.updHstat n f).source m = d.source m := rfl
@[simp] theorem updHstat_eng (f) : (d.updHstat n f).eng m = d.eng m := rfl
@[simp] theorem updHstat_head (f) : (d.updHstat n f).head m = d.head m := rfl
@[simp] theorem updHstat_fp (f) : (d.updHstat n f).fp m = d.fp m := rfl
@[simp] theorem updHstat_ptpPort (f) : (d.updHstat n f).ptpPort m = d.ptpPort m := rfl
@[simp] theorem updHstat_lane (f) : (d.updHstat n f).lane m = d.lane m := rfl
@[simp] theorem updHstat_mac (f) : (d.updHstat n f).mac m = d.mac m := rfl
@[simp] theorem updHstat_member (f) : (d.updHstat n f).member m = d.member m := rfl
@[simp] theorem updHstat_path (f) : (d.updHstat n f).path m = d.path m := rfl
@[simp] theorem updHstat_box (f) : (d.updHstat n f).box m = d.box m := rfl
@[simp] theorem updHstat_user (f) : (d.updHstat n f).user m = d.user m := rfl
@[simp] theorem updHstat_group (f) : (d.updHstat n f).group m = d.group m := rfl
@[simp] theorem updHstat_tb (f) : (d.updHstat n f).tb = d.tb := rfl
@[simp] theorem updHstat_pw (f) : (d.updHstat n f).pw = d.pw := rfl
@[simp] theorem updHstat_gl (f) : (d.updHstat n f).gl = d.gl := rfl
@[simp] theorem updHstat_tick (f) : (d.updHstat n f).tick = d.tick := rfl
@[simp] theorem updHstat_so (f) : (d.updHstat n f).so = d.so := rfl
@[simp] theorem updHstat_load (f) : (d.updHstat n f).load = d.load := rfl
@[simp] theorem updHstat_free (f) : (d.updHstat n f).free = d.free := rfl
@[simp] theorem updHstat_chases (f) : (d.updHstat n f).chases = d.chases := rfl
@[simp] theorem updHstat_lo (f) : (d.updHstat n f).lo = d.lo := rfl
end
section
variable (d : Dev) (n m : Nat)
@[simp] theorem updBox_chOut (f) : (d.updBox n f).chOut m = d.chOut m := rfl
@[simp] theorem updBox_chCnt (f) : (d.updBox n f).chCnt m = d.chCnt m := rfl
@[simp] theorem updBox_chCap (f) : (d.updBox n f).chCap m = d.chCap m := rfl
@[simp] theorem updBox_chEm (f) : (d.updBox n f).chEm m = d.chEm m := rfl
@[simp] theorem updBox_pin (f) : (d.updBox n f).pin m = d.pin m := rfl
@[simp] theorem updBox_dec (f) : (d.updBox n f).dec m = d.dec m := rfl
@[simp] theorem updBox_decTrk (f) : (d.updBox n f).decTrk m = d.decTrk m := rfl
@[simp] theorem updBox_aoq (f) : (d.updBox n f).aoq m = d.aoq m := rfl
@[simp] theorem updBox_pair (f) : (d.updBox n f).pair m = d.pair m := rfl
@[simp] theorem updBox_trip (f) : (d.updBox n f).trip m = d.trip m := rfl
@[simp] theorem updBox_axis (f) : (d.updBox n f).axis m = d.axis m := rfl
@[simp] theorem updBox_queue (f) : (d.updBox n f).queue m = d.queue m := rfl
@[simp] theorem updBox_slug (f) : (d.updBox n f).slug m = d.slug m := rfl
@[simp] theorem updBox_chase (f) : (d.updBox n f).chase m = d.chase m := rfl
@[simp] theorem updBox_comp (f) : (d.updBox n f).comp m = d.comp m := rfl
@[simp] theorem updBox_source (f) : (d.updBox n f).source m = d.source m := rfl
@[simp] theorem updBox_eng (f) : (d.updBox n f).eng m = d.eng m := rfl
@[simp] theorem updBox_head (f) : (d.updBox n f).head m = d.head m := rfl
@[simp] theorem updBox_fp (f) : (d.updBox n f).fp m = d.fp m := rfl
@[simp] theorem updBox_ptpPort (f) : (d.updBox n f).ptpPort m = d.ptpPort m := rfl
@[simp] theorem updBox_lane (f) : (d.updBox n f).lane m = d.lane m := rfl
@[simp] theorem updBox_mac (f) : (d.updBox n f).mac m = d.mac m := rfl
@[simp] theorem updBox_member (f) : (d.updBox n f).member m = d.member m := rfl
@[simp] theorem updBox_path (f) : (d.updBox n f).path m = d.path m := rfl
@[simp] theorem updBox_hstat (f) : (d.updBox n f).hstat m = d.hstat m := rfl
@[simp] theorem updBox_user (f) : (d.updBox n f).user m = d.user m := rfl
@[simp] theorem updBox_group (f) : (d.updBox n f).group m = d.group m := rfl
@[simp] theorem updBox_tb (f) : (d.updBox n f).tb = d.tb := rfl
@[simp] theorem updBox_pw (f) : (d.updBox n f).pw = d.pw := rfl
@[simp] theorem updBox_gl (f) : (d.updBox n f).gl = d.gl := rfl
@[simp] theorem updBox_tick (f) : (d.updBox n f).tick = d.tick := rfl
@[simp] theorem updBox_so (f) : (d.updBox n f).so = d.so := rfl
@[simp] theorem updBox_load (f) : (d.updBox n f).load = d.load := rfl
@[simp] theorem updBox_free (f) : (d.updBox n f).free = d.free := rfl
@[simp] theorem updBox_chases (f) : (d.updBox n f).chases = d.chases := rfl
@[simp] theorem updBox_lo (f) : (d.updBox n f).lo = d.lo := rfl
end
section
variable (d : Dev) (n m : Nat)
@[simp] theorem updUser_chOut (f) : (d.updUser n f).chOut m = d.chOut m := rfl
@[simp] theorem updUser_chCnt (f) : (d.updUser n f).chCnt m = d.chCnt m := rfl
@[simp] theorem updUser_chCap (f) : (d.updUser n f).chCap m = d.chCap m := rfl
@[simp] theorem updUser_chEm (f) : (d.updUser n f).chEm m = d.chEm m := rfl
@[simp] theorem updUser_pin (f) : (d.updUser n f).pin m = d.pin m := rfl
@[simp] theorem updUser_dec (f) : (d.updUser n f).dec m = d.dec m := rfl
@[simp] theorem updUser_decTrk (f) : (d.updUser n f).decTrk m = d.decTrk m := rfl
@[simp] theorem updUser_aoq (f) : (d.updUser n f).aoq m = d.aoq m := rfl
@[simp] theorem updUser_pair (f) : (d.updUser n f).pair m = d.pair m := rfl
@[simp] theorem updUser_trip (f) : (d.updUser n f).trip m = d.trip m := rfl
@[simp] theorem updUser_axis (f) : (d.updUser n f).axis m = d.axis m := rfl
@[simp] theorem updUser_queue (f) : (d.updUser n f).queue m = d.queue m := rfl
@[simp] theorem updUser_slug (f) : (d.updUser n f).slug m = d.slug m := rfl
@[simp] theorem updUser_chase (f) : (d.updUser n f).chase m = d.chase m := rfl
@[simp] theorem updUser_comp (f) : (d.updUser n f).comp m = d.comp m := rfl
@[simp] theorem updUser_source (f) : (d.updUser n f).source m = d.source m := rfl
@[simp] theorem updUser_eng (f) : (d.updUser n f).eng m = d.eng m := rfl
@[simp] theorem updUser_head (f) : (d.updUser n f).head m = d.head m := rfl
@[simp] theorem updUser_fp (f) : (d.updUser n f).fp m = d.fp m := rfl
@[simp] theorem updUser_ptpPort (f) : (d.updUser n f).ptpPort m = d.ptpPort m := rfl
@[simp] theorem updUser_lane (f) : (d.updUser n f).lane m = d.lane m := rfl
@[simp] theorem updUser_mac (f) : (d.updUser n f).mac m = d.mac m := rfl
@[simp] theorem updUser_member (f) : (d.updUser n f).member m = d.member m := rfl
@[simp] theorem updUser_path (f) : (d.updUser n f).path m = d.path m := rfl
@[simp] theorem updUser_hstat (f) : (d.updUser n f).hstat m = d.hstat m := rfl
@[simp] theorem updUser_box (f) : (d.updUser n f).box m = d.box m := rfl
@[simp] theorem updUser_group (f) : (d.updUser n f).group m = d.group m := rfl
@[simp] theorem updUser_tb (f) : (d.updUser n f).tb = d.tb := rfl
@[simp] theorem updUser_pw (f) : (d.updUser n f).pw = d.pw := rfl
@[simp] theorem updUser_gl (f) : (d.updUser n f).gl = d.gl := rfl
@[simp] theorem updUser_tick (f) : (d.updUser n f).tick = d.tick := rfl
@[simp] theorem updUser_so (f) : (d.updUser n f).so = d.so := rfl
@[simp] theorem updUser_load (f) : (d.updUser n f).load = d.load := rfl
@[simp] theorem updUser_free (f) : (d.updUser n f).free = d.free := rfl
@[simp] theorem updUser_chases (f) : (d.updUser n f).chases = d.chases := rfl
@[simp] theorem updUser_lo (f) : (d.updUser n f).lo = d.lo := rfl
end
section
variable (d : Dev) (n m : Nat)
@[simp] theorem updGroup_chOut (f) : (d.updGroup n f).chOut m = d.chOut m := rfl
@[simp] theorem updGroup_chCnt (f) : (d.updGroup n f).chCnt m = d.chCnt m := rfl
@[simp] theorem updGroup_chCap (f) : (d.updGroup n f).chCap m = d.chCap m := rfl
@[simp] theorem updGroup_chEm (f) : (d.updGroup n f).chEm m = d.chEm m := rfl
@[simp] theorem updGroup_pin (f) : (d.updGroup n f).pin m = d.pin m := rfl
@[simp] theorem updGroup_dec (f) : (d.updGroup n f).dec m = d.dec m := rfl
@[simp] theorem updGroup_decTrk (f) : (d.updGroup n f).decTrk m = d.decTrk m := rfl
@[simp] theorem updGroup_aoq (f) : (d.updGroup n f).aoq m = d.aoq m := rfl
@[simp] theorem updGroup_pair (f) : (d.updGroup n f).pair m = d.pair m := rfl
@[simp] theorem updGroup_trip (f) : (d.updGroup n f).trip m = d.trip m := rfl
@[simp] theorem updGroup_axis (f) : (d.updGroup n f).axis m = d.axis m := rfl
@[simp] theorem updGroup_queue (f) : (d.updGroup n f).queue m = d.queue m := rfl
@[simp] theorem updGroup_slug (f) : (d.updGroup n f).slug m = d.slug m := rfl
@[simp] theorem updGroup_chase (f) : (d.updGroup n f).chase m = d.chase m := rfl
@[simp] theorem updGroup_comp (f) : (d.updGroup n f).comp m = d.comp m := rfl
@[simp] theorem updGroup_source (f) : (d.updGroup n f).source m = d.source m := rfl
@[simp] theorem updGroup_eng (f) : (d.updGroup n f).eng m = d.eng m := rfl
@[simp] theorem updGroup_head (f) : (d.updGroup n f).head m = d.head m := rfl
@[simp] theorem updGroup_fp (f) : (d.updGroup n f).fp m = d.fp m := rfl
@[simp] theorem updGroup_ptpPort (f) : (d.updGroup n f).ptpPort m = d.ptpPort m := rfl
@[simp] theorem updGroup_lane (f) : (d.updGroup n f).lane m = d.lane m := rfl
@[simp] theorem updGroup_mac (f) : (d.updGroup n f).mac m = d.mac m := rfl
@[simp] theorem updGroup_member (f) : (d.updGroup n f).member m = d.member m := rfl
@[simp] theorem updGroup_path (f) : (d.updGroup n f).path m = d.path m := rfl
@[simp] theorem updGroup_hstat (f) : (d.updGroup n f).hstat m = d.hstat m := rfl
@[simp] theorem updGroup_box (f) : (d.updGroup n f).box m = d.box m := rfl
@[simp] theorem updGroup_user (f) : (d.updGroup n f).user m = d.user m := rfl
@[simp] theorem updGroup_tb (f) : (d.updGroup n f).tb = d.tb := rfl
@[simp] theorem updGroup_pw (f) : (d.updGroup n f).pw = d.pw := rfl
@[simp] theorem updGroup_gl (f) : (d.updGroup n f).gl = d.gl := rfl
@[simp] theorem updGroup_tick (f) : (d.updGroup n f).tick = d.tick := rfl
@[simp] theorem updGroup_so (f) : (d.updGroup n f).so = d.so := rfl
@[simp] theorem updGroup_load (f) : (d.updGroup n f).load = d.load := rfl
@[simp] theorem updGroup_free (f) : (d.updGroup n f).free = d.free := rfl
@[simp] theorem updGroup_chases (f) : (d.updGroup n f).chases = d.chases := rfl
@[simp] theorem updGroup_lo (f) : (d.updGroup n f).lo = d.lo := rfl
end

end Sys2Proof.Laws
end

