-- ==== Sys2Proof/Laws/Exec.lean ====
section
/-! SUPPORT. What the four ways of running a command can do: an ill-formed command changes nothing; a well-formed
one answers a next state with the queue as it was. -/

namespace Sys2Proof.Laws

open Sys2Proof.Machine

theorem onCore_ok (f : Core → Core) (s : State) : onCore true f s = .next { s with core := f s.core } := rfl
theorem onCore_bad (f : Core → Core) (s : State) : onCore false f s = .next s := rfl

/-- A command of the core while its clocks run. -/
theorem whenLive_ok (f : Core → Core) (s : State) (h : live s.core.dev = true) :
    whenLive true f s = .next { s with core := f s.core } := by simp [whenLive, onCore, h]

/-- A command of the core while no clock runs changes nothing. -/
theorem whenLive_off (f : Core → Core) (s : State) (h : live s.core.dev = false) : whenLive true f s = .next s := by
  simp [whenLive, onCore, h]

theorem whenLiveDev_ok (f : Dev → Dev) (s : State) (h : live s.core.dev = true) :
    whenLiveDev true f s = .next { s with core := { s.core with dev := f s.core.dev } } := whenLive_ok _ s h

theorem whenRunning_ok (f : Core → Core) (s : State) (h : live s.core.dev = true) (hr : enginesRun s.core.dev = true) :
    whenRunning true f s = .next { s with core := f s.core } := by simp [whenRunning, whenLive_ok _ s h, hr]

theorem whenRunningDev_ok (f : Dev → Dev) (s : State) (h : live s.core.dev = true) (hr : enginesRun s.core.dev = true) :
    whenRunningDev true f s = .next { s with core := { s.core with dev := f s.core.dev } } := whenRunning_ok _ s h hr

/-- Whatever a command of the core answers: a next state with the same queue, the same state if the command is ill-formed. -/
theorem onCore_cases (ok : Bool) (f : Core → Core) (s : State) :
    (ok = false ∧ onCore ok f s = .next s) ∨
    (ok = true ∧ onCore ok f s = .next { s with core := f s.core }) := by
  cases ok
  · exact .inl ⟨rfl, rfl⟩
  · exact .inr ⟨rfl, rfl⟩

/-- The frame of a command of the device: the parts that its effect leaves alone. -/
theorem changesOnly_dev (l : List Part) (s : State) (d : Dev)
    (h : ∀ b : Part, b ∉ l → b.Same s.core { s.core with dev := d }) :
    ChangesOnly l s { s with core := { s.core with dev := d } } := ⟨rfl, h⟩

end Sys2Proof.Laws
end

