-- ==== Sys2Proof/Laws/Frames.lean ====
section
/-! SUPPORT. Frames: which parts of the device an operation leaves alone, once for each shared operation. -/

namespace Sys2Proof.Laws

open Sys2Proof.Machine

/-- The two devices are the same outside the parts `l`. -/
def SameBut (l : List Part) (d e : Dev) : Prop := ∀ (v : Vault) (b : Part), b ∉ l → b.Same ⟨v, d⟩ ⟨v, e⟩

theorem part_same_refl (b : Part) (c : Core) : b.Same c c := by cases b <;> rfl
theorem part_same_trans (b : Part) (c c1 c2 : Core) (h : b.Same c c1) (h2 : b.Same c1 c2) : b.Same c c2 := by
  cases b <;> exact Eq.trans h2 h

theorem sameBut_refl (l : List Part) (d : Dev) : SameBut l d d := fun _ b _ => part_same_refl b _
theorem sameBut_trans {l : List Part} {d e f : Dev} (h : SameBut l d e) (h2 : SameBut l e f) : SameBut l d f :=
  fun v b hb => part_same_trans b _ _ _ (h v b hb) (h2 v b hb)
theorem sameBut_mono {l m : List Part} {d e : Dev} (h : SameBut l d e) (hs : ∀ b ∈ l, b ∈ m) : SameBut m d e :=
  fun v b hb => h v b fun hm => hb (hs b hm)
/-- One more operation, whose own frame is known, after those before it. -/
theorem sameBut_then {l m : List Part} {c d e : Dev} (h : SameBut m d e) (hs : ∀ b ∈ m, b ∈ l) (k : SameBut l c d) :
    SameBut l c e := sameBut_trans k (sameBut_mono h hs)
theorem sameBut_ite {l : List Part} {d e f : Dev} {p : Prop} [Decidable p] (h : p → SameBut l d e) (h2 : ¬p → SameBut l d f) :
    SameBut l d (if p then e else f) := by
  split
  · exact h ‹_›
  · exact h2 ‹_›
theorem sameBut_forEach {α : Type} {l : List Part} (f : α → Dev → Dev) (h : ∀ a d, SameBut l d (f a d)) (as : List α) (d : Dev) :
    SameBut l d (forEach as f d) := by
  unfold forEach
  induction as generalizing d with
  | nil => exact sameBut_refl l d
  | cons a t ih => exact sameBut_trans (h a d) (ih (f a d))

/-- The frame of a command whose effect on the device is known to leave the other parts alone. -/
theorem changesOnly_sameBut {l : List Part} {s : State} {d : Dev} (h : SameBut l s.core.dev d) :
    ChangesOnly l s { s with core := { s.core with dev := d } } := ⟨rfl, h s.core.vault⟩

/-- A command of the core that completes: its frame and what it does follow from those of its effect. -/
theorem runs_dev {i : Instr} {s : State} {l : List Part} {P : State → Prop} {f : Dev → Dev} (hl : live s.core.dev = true)
    (he : exec i s = whenLiveDev true f s) (hf : SameBut l s.core.dev (f s.core.dev))
    (hp : P { s with core := { s.core with dev := f s.core.dev } }) : Runs i s l P :=
  ⟨_, he.trans (whenLiveDev_ok f s hl), changesOnly_sameBut hf, hp⟩

theorem runs_running {i : Instr} {s : State} {l : List Part} {P : State → Prop} {f : Dev → Dev} (hl : live s.core.dev = true)
    (hr : enginesRun s.core.dev = true) (he : exec i s = whenRunningDev true f s) (hf : SameBut l s.core.dev (f s.core.dev))
    (hp : P { s with core := { s.core with dev := f s.core.dev } }) : Runs i s l P :=
  ⟨_, he.trans (whenRunningDev_ok f s hl hr), changesOnly_sameBut hf, hp⟩

/-! ### Instances -/

theorem sameBut_updOut (d : Dev) (n : Nat) (f) : SameBut [.ch] d (d.updOut n f) := by
  intro v b hb
  cases b <;> first | rfl | simp at hb
theorem sameBut_updCnt (d : Dev) (n : Nat) (f) : SameBut [.ch] d (d.updCnt n f) := by
  intro v b hb
  cases b <;> first | rfl | simp at hb
theorem sameBut_updCap (d : Dev) (n : Nat) (f) : SameBut [.ch] d (d.updCap n f) := by
  intro v b hb
  cases b <;> first | rfl | simp at hb
theorem sameBut_updEm (d : Dev) (n : Nat) (f) : SameBut [.ch] d (d.updEm n f) := by
  intro v b hb
  cases b <;> first | rfl | simp at hb
theorem sameBut_updPin (d : Dev) (n : Nat) (f) : SameBut [.tooth] d (d.updPin n f) := by
  intro v b hb
  cases b <;> first | rfl | simp at hb
theorem sameBut_updDec (d : Dev) (n : Nat) (f) : SameBut [.tooth] d (d.updDec n f) := by
  intro v b hb
  cases b <;> first | rfl | simp at hb
theorem sameBut_updDecTrk (d : Dev) (n : Nat) (f) : SameBut [.tooth] d (d.updDecTrk n f) := by
  intro v b hb
  cases b <;> first | rfl | simp at hb
theorem sameBut_updAoq (d : Dev) (n : Nat) (f) : SameBut [.tooth] d (d.updAoq n f) := by
  intro v b hb
  cases b <;> first | rfl | simp at hb
theorem sameBut_updPair (d : Dev) (n : Nat) (f) : SameBut [.br] d (d.updPair n f) := by
  intro v b hb
  cases b <;> first | rfl | simp at hb
theorem sameBut_updTrip (d : Dev) (n : Nat) (f) : SameBut [.br] d (d.updTrip n f) := by
  intro v b hb
  cases b <;> first | rfl | simp at hb
theorem sameBut_updAxis (d : Dev) (n : Nat) (f) : SameBut [.ax] d (d.updAxis n f) := by
  intro v b hb
  cases b <;> first | rfl | simp at hb
theorem sameBut_updQueue (d : Dev) (n : Nat) (f) : SameBut [.ax] d (d.updQueue n f) := by
  intro v b hb
  cases b <;> first | rfl | simp at hb
theorem sameBut_updSlug (d : Dev) (n : Nat) (f) : SameBut [.gs] d (d.updSlug n f) := by
  intro v b hb
  cases b <;> first | rfl | simp at hb
theorem sameBut_updChase (d : Dev) (n : Nat) (f) : SameBut [.chases] d (d.updChase n f) := by
  intro v b hb
  cases b <;> first | rfl | simp at hb
theorem sameBut_updComp (d : Dev) (n : Nat) (f) : SameBut [.comps] d (d.updComp n f) := by
  intro v b hb
  cases b <;> first | rfl | simp at hb
theorem sameBut_updSource (d : Dev) (n : Nat) (f) : SameBut [.ic] d (d.updSource n f) := by
  intro v b hb
  cases b <;> first | rfl | simp at hb
theorem sameBut_updEng (d : Dev) (n : Nat) (f) : SameBut [.ne] d (d.updEng n f) := by
  intro v b hb
  cases b <;> first | rfl | simp at hb
theorem sameBut_updHead (d : Dev) (n : Nat) (f) : SameBut [.heads] d (d.updHead n f) := by
  intro v b hb
  cases b <;> first | rfl | simp at hb
theorem sameBut_updFp (d : Dev) (n : Nat) (f) : SameBut [.fps] d (d.updFp n f) := by
  intro v b hb
  cases b <;> first | rfl | simp at hb
theorem sameBut_updPtpPort (d : Dev) (n : Nat) (f) : SameBut [.ptp] d (d.updPtpPort n f) := by
  intro v b hb
  cases b <;> first | rfl | simp at hb
theorem sameBut_updLane (d : Dev) (n : Nat) (f) : SameBut [.lanes] d (d.updLane n f) := by
  intro v b hb
  cases b <;> first | rfl | simp at hb
theorem sameBut_updMac (d : Dev) (n : Nat) (f) : SameBut [.lk] d (d.updMac n f) := by
  intro v b hb
  cases b <;> first | rfl | simp at hb
theorem sameBut_updMember (d : Dev) (n : Nat) (f) : SameBut [.lk] d (d.updMember n f) := by
  intro v b hb
  cases b <;> first | rfl | simp at hb
theorem sameBut_updPath (d : Dev) (n : Nat) (f) : SameBut [.hi] d (d.updPath n f) := by
  intro v b hb
  cases b <;> first | rfl | simp at hb
theorem sameBut_updHstat (d : Dev) (n : Nat) (f) : SameBut [.hi] d (d.updHstat n f) := by
  intro v b hb
  cases b <;> first | rfl | simp at hb
theorem sameBut_updBox (d : Dev) (n : Nat) (f) : SameBut [.hi] d (d.updBox n f) := by
  intro v b hb
  cases b <;> first | rfl | simp at hb
theorem sameBut_updUser (d : Dev) (n : Nat) (f) : SameBut [.ds] d (d.updUser n f) := by
  intro v b hb
  cases b <;> first | rfl | simp at hb
theorem sameBut_updGroup (d : Dev) (n : Nat) (f) : SameBut [.ds] d (d.updGroup n f) := by
  intro v b hb
  cases b <;> first | rfl | simp at hb
theorem sameBut_updCtx (d : Dev) (e c : Nat) (f) : SameBut [.ctxs] d (d.updCtx e c f) := by
  intro v b hb
  cases b <;> first | rfl | simp at hb
theorem sameBut_draw (d : Dev) : SameBut [.free] d d.draw.2 := by
  intro v b hb
  cases b <;> first | rfl | simp at hb
theorem sameBut_write64 (d : Dev) (a : Nat) (v : W64) : SameBut [.mem] d (d.write64 a v) := by
  intro v b hb
  cases b <;> first | rfl | simp at hb

/-! ### Interrupts (R298–R305) -/

theorem sameBut_wakeEngine (e c : Nat) (d : Dev) : SameBut [.ne] d (wakeEngine e c d) := by
  unfold wakeEngine
  dsimp only
  split <;> exact sameBut_updEng _ _ _

/-- Firing a source can change the interrupt controller and, by the wake of a target, an engine. -/
theorem sameBut_fireSource (n : Nat) (d : Dev) : SameBut [.ic, .ne] d (fireSource n d) := by
  have hs := fun (d : Dev) f => sameBut_mono (m := [.ic, .ne]) (sameBut_updSource d n f) (by simp)
  unfold fireSource
  dsimp only
  split
  · split
    · exact sameBut_refl _ d
    · exact hs d _
  · refine sameBut_trans (hs d fun s => { s with pend := true }) ?_
    unfold wakeIfFirst
    split
    · exact sameBut_mono (sameBut_wakeEngine _ _ _) (by simp)
    · exact sameBut_refl _ _

theorem sameBut_settleVectors (d : Dev) : SameBut [.ic] d (settleVectors d) := by
  intro v b hb
  cases b <;> first | rfl | simp at hb

theorem sameBut_fireCrossing (b : Nat) (d : Dev) : SameBut [.ic, .ne] d (fireCrossing b d) := by
  unfold fireCrossing
  split
  · exact sameBut_fireSource _ _
  · exact sameBut_refl _ d

theorem sameBut_crossOverrun (i k : Nat) (d : Dev) : SameBut [.ic, .ne] d (crossOverrun i k d) := by
  unfold crossOverrun
  split
  · exact sameBut_refl _ d
  · refine sameBut_trans ?_ (sameBut_fireCrossing _ _)
    intro v b hb
    cases b <;> first | rfl | simp at hb

/-- So can an event of a member, by the event itself or by an overrun of its crossing. -/
theorem sameBut_memberEvent (n : Nat) (d : Dev) : SameBut [.ic, .ne] d (memberEvent n d) := by
  have hs := fun (d : Dev) f => sameBut_mono (m := [.ic, .ne]) (sameBut_updSource d n f) (by simp)
  unfold memberEvent
  dsimp only
  split
  · exact sameBut_refl _ d
  · split
    · exact sameBut_trans (hs d _) (sameBut_fireSource n _)
    · split
      · exact sameBut_trans (hs d _) (sameBut_crossOverrun _ 1 _)
      · exact sameBut_trans (sameBut_trans (hs d _) (hs _ _)) (sameBut_fireSource n _)

theorem sameBut_chanEvent (n ev : Nat) (d : Dev) : SameBut [.ic, .ne] d (chanEvent n ev d) := by
  unfold chanEvent
  dsimp only
  split
  · refine sameBut_trans ?_ (sameBut_memberEvent _ _)
    intro v b hb
    cases b <;> first | rfl | simp at hb
  · exact sameBut_refl _ d

theorem sameBut_axisEvent (a b : Nat) (d : Dev) : SameBut [.ic, .ne] d (axisEvent a b d) := by
  unfold axisEvent
  dsimp only
  split
  · refine sameBut_trans ?_ (sameBut_memberEvent _ _)
    intro v b hb
    cases b <;> first | rfl | simp at hb
  · exact sameBut_refl _ d

theorem sameBut_axFlag (a b : Nat) (d : Dev) : SameBut [.ax, .ic, .ne] d (axFlag a b d) :=
  sameBut_trans (sameBut_mono (sameBut_updAxis d a _) (by simp)) (sameBut_mono (sameBut_axisEvent a b _) (by simp))

end Sys2Proof.Laws
end

