-- ==== Sys2Proof/Laws/Access.lean ====
section
/-! SUPPORT. Accesses of the ports: where a register lies in BAR0, and that an access of an open port reaches the registers. -/

namespace Sys2Proof.Laws

open Sys2Proof.Machine

/-! ### Addresses (R425) -/

theorem locate_ax (a o : Nat) (ha : a < 4096) (ho : o < 128) : locate (0x80000 + a * 128 + o) = some (.ax, a, o) := by
  have h1 : (0x80000 + a * 128 + o - 0x80000) / 128 = a := by omega
  have h2 : (0x80000 + a * 128 + o) % 128 = o := by omega
  unfold locate
  iterate 25 rw [if_neg (by omega)]
  rw [if_pos (by omega), h1, h2]

theorem locate_ch (n o : Nat) (hn : n < 512) (ho : o < 256) : locate (baseCh n + o) = some (.ch, n, o) := by
  have h1 : (baseCh n + o - 0x100000) / 256 = n := by unfold baseCh; omega
  have h2 : (baseCh n + o) % 256 = o := by unfold baseCh; omega
  have h3 : 0x100000 ≤ baseCh n + o ∧ baseCh n + o < 0x120000 := by unfold baseCh; omega
  unfold locate
  iterate 26 rw [if_neg (by omega)]
  rw [if_pos (by omega), h1, h2]

theorem locate_cp (k o : Nat) (hk : k < 64) (ho : o < 512) : locate (baseCp k + o) = some (.cp, k, o) := by
  have h1 : (baseCp k + o - 0x28000) / 512 = k := by unfold baseCp; omega
  have h2 : (baseCp k + o) % 512 = o := by unfold baseCp; omega
  have h3 : 0x28000 ≤ baseCp k + o ∧ baseCp k + o < 0x30000 := by unfold baseCp; omega
  unfold locate
  iterate 22 rw [if_neg (by omega)]
  rw [if_pos (by omega), h1, h2]

theorem locate_ic (o : Nat) (ho : o < 0x2000) : locate (0x10000 + o) = some (.ic, 0, o) := by
  have h1 : 0x10000 + o - 0x10000 = o := by omega
  unfold locate
  iterate 8 rw [if_neg (by omega)]
  rw [if_pos (by omega), h1]

theorem locate_bp (p o : Nat) (hp : p < 128) (ho : o < 64) : locate (0x20000 + p * 64 + o) = some (.bp, p, o) := by
  have h1 : (0x20000 + p * 64 + o - 0x20000) / 64 = p := by omega
  have h2 : (0x20000 + p * 64 + o) % 64 = o := by omega
  unfold locate
  iterate 18 rw [if_neg (by omega)]
  rw [if_pos (by omega), h1, h2]

/-! ### Open ports (R324, R418) -/

/-- An access of an open port is carried out. -/
theorem viaPort_open {p : Nat} {s : State} (hp : isPath p = true) (ho : PortOpen p s.core.dev) (f : Core → Core) :
    viaPort p f s.core = f s.core := by
  simp only [isPath, Bool.or_eq_true, Bool.and_eq_true, decide_eq_true_eq] at hp
  have h0 : (p == 0 && s.core.dev.hi.pcieReset) = false := by
    by_cases h : p = 0
    · subst h; simpa using (ho.1 (by omega)).2
    · simp [h]
  have h1 : (p == 1 && s.core.dev.hi.qspiReset) = false := by
    by_cases h : p = 1
    · subst h; simpa using (ho.1 (by omega)).2
    · simp [h]
  have h2 : (decide (16 ≤ p) && !live s.core.dev) = false := by
    by_cases h : 16 ≤ p
    · simp [ho.2 h]
    · simp [h]
  simp [viaPort, h0, h1, h2]

theorem hostBlocked_open {p : Nat} {s : State} (ho : PortOpen p s.core.dev) :
    (decide (p < 2) && !fabricUp s.core.dev) = false := by
  by_cases h : p < 2
  · simp [(ho.1 h).1]
  · simp [h]

theorem busRead_open {p : Nat} {s : State} (a : Nat) (ho : PortOpen p s.core.dev) :
    busRead p a s.core = (fabricRead p a s.core).2.mapDev (putData p (fabricRead p a s.core).1) := by
  unfold busRead
  rw [hostBlocked_open ho, if_neg (by simp)]

theorem busWrite_open {p : Nat} {s : State} (a : Nat) (v : W32) (ho : PortOpen p s.core.dev) :
    busWrite p a v s.core = fabricWrite p a v s.core := by
  unfold busWrite
  rw [hostBlocked_open ho, if_neg (by simp)]

@[simp] theorem putData_data (p : Nat) (v : W32) (d : Dev) : Bank.get 0#32 (putData p v d).hi.data p = v := bank_get_set_same _ _ _ _

theorem sameBut_putData (p : Nat) (v : W32) (d : Dev) : SameBut [.hi] d (putData p v d) := by
  intro u b hb
  cases b <;> first | rfl | simp at hb

theorem sameBut_setLatch (p : Nat) (l) (d : Dev) : SameBut [.hi] d (setLatch p l d) := sameBut_updPath d p _

/-- A command that reads through an open port. -/
theorem runs_read {i : Instr} {s : State} {l : List Part} {P : State → Prop} {p a : Nat} (hp : isPath p = true)
    (ho : PortOpen p s.core.dev) (he : exec i s = onCore true (viaPort p (busRead p a)) s) {r : W32 × Core}
    (hr : fabricRead p a s.core = r) (hv : r.2.vault = s.core.vault) (hf : SameBut l s.core.dev r.2.dev) (hl : Part.hi ∈ l)
    (hP : P { s with core := r.2.mapDev (putData p r.1) }) : Runs i s l P := by
  have h : exec i s = .next { s with core := r.2.mapDev (putData p r.1) } := by
    rw [he, onCore_ok, viaPort_open hp ho, busRead_open a ho, hr]
  refine ⟨_, h, ⟨rfl, fun b hb => ?_⟩, hP⟩
  have h2 := sameBut_then (sameBut_putData p r.1 r.2.dev) (by simpa using hl) hf s.core.vault b hb
  have h3 : r.2.mapDev (putData p r.1) = ⟨s.core.vault, putData p r.1 r.2.dev⟩ := by simp [Core.mapDev, hv]
  simpa only [h3] using h2

end Sys2Proof.Laws
end

