-- ==== Sys2Proof/Laws/Bits.lean ====
section
/-! SUPPORT. Bits and fields of words: what is read after a bit or a field has been put. -/

namespace Sys2Proof.Laws

open Sys2Proof.Machine

theorem getLsbD_two_pow (i j : Nat) : (BitVec.ofNat 32 (2 ^ i)).getLsbD j = (decide (j < 32) && decide (i = j)) := by
  rw [BitVec.getLsbD_ofNat, Nat.testBit_two_pow]

@[simp] theorem bit_orBit_same (w : W32) (i : Nat) (h : i < 32) : bit (orBit w i) i = true := by
  rw [bit, orBit, BitVec.getLsbD_or, getLsbD_two_pow]
  simp [h]

theorem bit_orBit_other (w : W32) (i j : Nat) (h : i ≠ j) : bit (orBit w i) j = bit w j := by
  rw [bit, orBit, BitVec.getLsbD_or, getLsbD_two_pow]
  simp [h, bit]

@[simp] theorem bit_clrBit_same (w : W32) (i : Nat) : bit (clrBit w i) i = false := by
  rw [bit, clrBit, BitVec.getLsbD_and, BitVec.getLsbD_not, getLsbD_two_pow]
  by_cases h : i < 32 <;> simp [h]

theorem bit_clrBit_other (w : W32) (i j : Nat) (h : i ≠ j) : bit (clrBit w i) j = bit w j := by
  rw [bit, clrBit, BitVec.getLsbD_and, BitVec.getLsbD_not, getLsbD_two_pow]
  by_cases hj : j < 32
  · simp [h, hj, bit]
  · simp [bit, BitVec.getLsbD_of_ge _ _ (by omega : 32 ≤ j)]

theorem bit_putBit_same (w : W32) (i : Nat) (b : Bool) (h : i < 32) : bit (putBit w i b) i = b := by
  cases b <;> simp [putBit, h]

theorem bit_putBit_other (w : W32) (i j : Nat) (b : Bool) (h : i ≠ j) : bit (putBit w i b) j = bit w j := by
  cases b <;> simp [putBit, bit_orBit_other _ _ _ h, bit_clrBit_other _ _ _ h]

theorem fld_eq_extract (w : W32) (lo len : Nat) : fld w lo len = (w.extractLsb' lo len).toNat := by
  simp [fld, Nat.shiftRight_eq_div_pow]

/-- A field reads back what was put, modulo its width. -/
theorem fld_setFld_same (w : W32) (lo len v : Nat) (h : lo + len ≤ 32) : fld (setFld w lo len v) lo len = v % 2 ^ len := by
  rw [fld_eq_extract]
  have : (setFld w lo len v).extractLsb' lo len = BitVec.ofNat len v := by
    apply BitVec.eq_of_getLsbD_eq
    intro i hi
    have h1 : lo + i < 32 := by omega
    rw [BitVec.getLsbD_extractLsb', setFld, BitVec.getLsbD_or, BitVec.getLsbD_and, BitVec.getLsbD_not, fmask,
      BitVec.getLsbD_ofNat, BitVec.getLsbD_ofNat, BitVec.getLsbD_ofNat, Nat.testBit_mul_two_pow, Nat.testBit_mul_two_pow,
      Nat.testBit_mod_two_pow, Nat.testBit_two_pow_sub_one]
    simp [hi, h1]
  rw [this, BitVec.toNat_ofNat]

/-- A bit outside the field stays. -/
theorem bit_setFld_other (w : W32) (lo len v j : Nat) (h : j < lo ∨ lo + len ≤ j) : bit (setFld w lo len v) j = bit w j := by
  rw [bit, setFld, BitVec.getLsbD_or, BitVec.getLsbD_and, BitVec.getLsbD_not, fmask, BitVec.getLsbD_ofNat,
    BitVec.getLsbD_ofNat, Nat.testBit_mul_two_pow, Nat.testBit_mul_two_pow, Nat.testBit_mod_two_pow, Nat.testBit_two_pow_sub_one]
  by_cases hj : j < 32
  · rcases h with h | h
    · simp [bit, hj, Nat.not_le.mpr h]
    · simp [bit, hj, show ¬ (j - lo < len) by omega]
  · simp [bit, BitVec.getLsbD_of_ge _ _ (by omega : 32 ≤ j), hj]

end Sys2Proof.Laws
end

