-- ==== Sys2Proof/Laws/ChannelFrames.lean ====
section
/-! SUPPORT. Frames of the operations on channels, counters and captures. -/

namespace Sys2Proof.Laws

open Sys2Proof.Machine

/-- The parts that an output stage can reach: channels and, by an edge list, a remote head, its port and their interrupts. -/
def outParts : List Part := [.ch, .ic, .ne, .fps, .lk, .heads]
/-- The parts that a counter can reach. -/
def countParts : List Part := [.ch, .ic, .ne]

theorem sameBut_fpFlag (p b : Nat) (d : Dev) : SameBut [.fps, .lk, .ic, .ne] d (fpFlag p b d) := by
  have h : ∀ (d : Dev) (x : Link) (f), SameBut [.fps, .lk, .ic, .ne] d { d.updFp p f with lk := x } := by
    intro d x f v b hb
    cases b <;> first | rfl | simp at hb
  unfold fpFlag
  dsimp only
  split
  · exact sameBut_trans (h d _ _) (sameBut_mono (sameBut_memberEvent _ _) (by simp))
  · exact h d _ _

theorem sameBut_hdFlag (h b : Nat) (d : Dev) : SameBut [.heads, .ic, .ne] d (hdFlag h b d) :=
  sameBut_trans (sameBut_mono (sameBut_updHead d h _) (by simp)) (sameBut_mono (sameBut_memberEvent _ _) (by simp))

theorem sameBut_undoEdge (n h : Nat) (d : Dev) : SameBut [.heads] d (undoEdge n h d) :=
  sameBut_ite (fun _ => sameBut_updHead d h _) (fun _ => sameBut_refl _ d)

theorem sameBut_queueEdge (n : Nat) (lvl net : Bool) (e : Time64) (d : Dev) :
    SameBut [.fps, .lk, .ic, .ne, .heads] d (queueEdge n lvl net e d) := by
  have h1 := sameBut_mono (m := [.fps, .lk, .ic, .ne, .heads]) (sameBut_undoEdge n (fld (d.chOut n).rmap 16 11) d) (by simp)
  have hp : ∀ (p b : Nat) f, SameBut [.fps, .lk, .ic, .ne, .heads] d (fpFlag p b ((undoEdge n _ d).updFp p f)) :=
    fun p b f => sameBut_then (sameBut_fpFlag _ _ _) (by simp) (sameBut_then (sameBut_updFp _ p f) (by simp) h1)
  unfold queueEdge
  dsimp only
  repeat' split
  · exact h1
  · exact hp _ _ _
  · exact sameBut_then (sameBut_updHead _ _ _) (by simp) h1
  · exact hp _ _ _

theorem sameBut_putLevel (n : Nat) (v : Bool) (e : Time64) (g : Nat) (d : Dev) : SameBut outParts d (putLevel n v e g d) := by
  have hu : ∀ f, SameBut outParts d (d.updOut n f) := fun f => sameBut_mono (sameBut_updOut d n f) (by simp [outParts])
  unfold putLevel
  dsimp only
  repeat' split
  · exact sameBut_refl _ d
  · exact sameBut_then (sameBut_queueEdge _ _ _ _ _) (by simp [outParts]) (hu _)
  · exact hu _

theorem sameBut_setLevel (n : Nat) (v : Bool) (e : Time64) (g : Nat) (d : Dev) : SameBut outParts d (setLevel n v e g d) := by
  have hu : ∀ f, SameBut outParts d (d.updOut n f) := fun f => sameBut_mono (sameBut_updOut d n f) (by simp [outParts])
  unfold setLevel
  dsimp only
  split
  · exact sameBut_refl _ d
  · exact sameBut_trans (hu _) (sameBut_putLevel _ _ _ _ _)

theorem sameBut_levelRequest (n : Nat) (v : Bool) (e : Time64) (g : Nat) (d : Dev) :
    SameBut outParts d (levelRequest n v e g d) := by
  unfold levelRequest
  split
  · exact sameBut_mono (sameBut_updOut d n _) (by simp [outParts])
  · exact sameBut_setLevel n v e g d

theorem sameBut_takeIdle (n : Nat) (d : Dev) : SameBut outParts d (takeIdle n d) := by
  unfold takeIdle
  split
  · exact sameBut_refl _ d
  · exact sameBut_putLevel _ _ _ _ _

/-- A change of the owner of pins reaches what the change itself reaches, and the output stages of the pins. -/
theorem sameBut_withOwner {l : List Part} (ps : List Nat) (f : Dev → Dev) (d : Dev) (hf : SameBut l d (f d))
    (hl : ∀ b ∈ outParts, b ∈ l) : SameBut l d (withOwner ps f d) := by
  refine sameBut_trans hf (sameBut_forEach _ (fun p x => ?_) ps (f d))
  split
  · exact sameBut_refl _ x
  · exact sameBut_mono (sameBut_takeIdle p x) hl

theorem sameBut_reportComplete (o : Occurrence) (d : Dev) : SameBut [.gs] d (reportComplete o d) := by
  intro v b hb
  cases b <;> first | rfl | simp at hb

theorem sameBut_beginOcc (sid : Nat) (e : Time64) (fin : Nat) (d : Dev) : SameBut [.gs] d (beginOcc sid e fin d) := by
  intro v b hb
  cases b <;> first | rfl | simp at hb

theorem sameBut_windowClose (n : Nat) (d : Dev) : SameBut [.ch, .gs] d (windowClose n d) := by
  unfold windowClose
  dsimp only
  split
  · exact sameBut_trans (sameBut_mono (sameBut_updCap d n _) (by simp))
      (sameBut_forEach _ (fun o d => sameBut_mono (sameBut_reportComplete o d) (by simp)) _ _)
  · exact sameBut_refl _ d

theorem sameBut_galleyLevel (n sid : Nat) (e : Time64) (v : Bool) (d : Dev) :
    SameBut (.gs :: outParts) d (galleyLevel n sid e v d) := by
  have h1 := sameBut_then (sameBut_levelRequest n v e (actsAt d n sid e) d) (by decide) (sameBut_refl (.gs :: outParts) d)
  unfold galleyLevel
  dsimp only
  split
  · exact sameBut_then (sameBut_reportComplete _ _) (by decide) h1
  · exact h1

theorem sameBut_pulsesDone (n fin : Nat) (d : Dev) : SameBut [.gs] d (pulsesDone n fin d) :=
  sameBut_forEach _ sameBut_reportComplete _ _

theorem sameBut_galleyPulse (n sid : Nat) (e : Time64) (dur : Nat) (d : Dev) :
    SameBut (.gs :: outParts) d (galleyPulse n sid e dur d) := by
  have h1 := sameBut_then (sameBut_levelRequest n true e (actsAt d n sid e) d) (by decide) (sameBut_refl (.gs :: outParts) d)
  unfold galleyPulse
  dsimp only
  split
  · have h2 := fun t g => sameBut_then (sameBut_levelRequest n false t g _) (by decide) h1
    split
    · exact sameBut_then (sameBut_reportComplete _ _) (by decide) (h2 _ _)
    · exact h2 _ _
  · exact sameBut_then (sameBut_beginOcc _ _ _ _) (by decide) (sameBut_then (sameBut_updOut _ n _) (by decide) h1)

theorem sameBut_pulseEnds (n : Nat) (d : Dev) : SameBut (.gs :: outParts) d (pulseEnds n d) := by
  unfold pulseEnds
  split
  · exact sameBut_then (sameBut_pulsesDone _ _ _) (by decide) (sameBut_then (sameBut_levelRequest _ _ _ _ _) (by decide)
      (sameBut_then (sameBut_updOut d n _) (by decide) (sameBut_refl _ d)))
  · exact sameBut_refl _ d

/-! ### Pairs -/

theorem sameBut_bpFlag (p b : Nat) (d : Dev) : SameBut [.br, .ic, .ne] d (bpFlag p b d) :=
  sameBut_trans (sameBut_mono (sameBut_updPair d p _) (by simp)) (sameBut_mono (sameBut_memberEvent _ _) (by simp))

/-! ### Counters (R209–R224) -/

theorem sameBut_cnt (d : Dev) (n : Nat) (f) : SameBut countParts d (d.updCnt n f) :=
  sameBut_mono (sameBut_updCnt d n f) (by simp [countParts])
theorem sameBut_out (d : Dev) (n : Nat) (f) : SameBut countParts d (d.updOut n f) :=
  sameBut_mono (sameBut_updOut d n f) (by simp [countParts])
theorem sameBut_cap (d : Dev) (n : Nat) (f) : SameBut countParts d (d.updCap n f) :=
  sameBut_mono (sameBut_updCap d n f) (by simp [countParts])
theorem sameBut_record (n ev : Nat) (d : Dev) : SameBut countParts d (chanEvent n ev d) :=
  sameBut_mono (sameBut_chanEvent n ev d) (by simp [countParts])

theorem sameBut_reloadTerminal (n : Nat) (d : Dev) : SameBut countParts d (reloadTerminal n d) :=
  sameBut_ite (fun _ => sameBut_out d n _) (fun _ => sameBut_refl _ d)

theorem sameBut_resetOne (n : Nat) (d : Dev) : SameBut countParts d (resetOne n d) := by
  refine sameBut_trans ?_ (sameBut_trans (sameBut_cnt _ n _) (sameBut_reloadTerminal n _))
  exact sameBut_ite (fun _ => sameBut_refl _ d) (fun _ => sameBut_record n 0 d)

theorem sameBut_counterResetBy (n : Nat) (d : Dev) : SameBut countParts d (counterResetBy n d) := by
  unfold counterResetBy
  repeat' split
  · exact sameBut_cnt d n _
  · exact sameBut_resetOne n d
  · exact sameBut_trans (sameBut_resetOne n d) (sameBut_forEach _ sameBut_resetOne _ _)

theorem sameBut_counterStartBy (cmd : Bool) (n : Nat) (d : Dev) : SameBut countParts d (counterStartBy cmd n d) := by
  unfold counterStartBy
  dsimp only
  repeat' split
  all_goals exact sameBut_cnt d n _

theorem sameBut_counterStop (n : Nat) (d : Dev) : SameBut countParts d (counterStop n d) := by
  unfold counterStop
  split <;> exact sameBut_cnt d n _

theorem sameBut_matchAction (n code p : Nat) (d : Dev) : SameBut countParts d (matchAction n code p d) := by
  unfold matchAction
  dsimp only
  split
  all_goals first
    | with_reducible exact sameBut_counterResetBy _ d
    | with_reducible exact sameBut_counterStartBy _ _ d
    | with_reducible exact sameBut_counterStop _ d
    | with_reducible exact sameBut_refl _ d
    | exact sameBut_trans (sameBut_counterResetBy _ d) (sameBut_counterStartBy _ _ _)

theorem sameBut_eventAction (n ev : Nat) (d : Dev) : SameBut countParts d (eventAction n ev d) := sameBut_matchAction _ _ _ d

/-- An event of a counter reaches the counters and, by its interrupt record, the interrupt controller and an engine. -/
theorem sameBut_counterEvent (n ev : Nat) (d : Dev) : SameBut countParts d (counterEvent n ev d) :=
  sameBut_ite (fun _ => sameBut_refl _ d) (fun _ => sameBut_trans (sameBut_record n ev d) (sameBut_eventAction n ev _))

theorem sameBut_counterReset (n : Nat) (d : Dev) : SameBut countParts d (counterReset n d) := by
  unfold counterReset
  dsimp only
  split
  · exact sameBut_counterResetBy n d
  · exact sameBut_trans (sameBut_counterResetBy n d) (sameBut_trans (sameBut_cnt _ n _) (sameBut_eventAction n 0 _))

theorem sameBut_counterStart (n : Nat) (d : Dev) : SameBut countParts d (counterStart n d) := sameBut_counterStartBy true n d

theorem sameBut_carryInto (k n : Nat) (d : Dev) : SameBut countParts d (carryInto k n d) := by
  induction k generalizing n d with
  | zero => exact sameBut_refl _ d
  | succ k ih =>
    have h := sameBut_trans (sameBut_trans (sameBut_cnt d n fun c => { c with carry := true }) (sameBut_cnt _ n fun c => { c with term := true }))
      (sameBut_reloadTerminal n _)
    have h3 : SameBut countParts d (if (d.chCnt n).term then _ else if (d.chCnt n).rst then _ else _) :=
      sameBut_ite (fun _ => h) (fun _ => sameBut_ite (fun _ => sameBut_trans h (sameBut_eventAction n 0 _))
        (fun _ => sameBut_trans h (sameBut_counterEvent n 0 _)))
    unfold carryInto
    dsimp only
    refine sameBut_ite (fun _ => sameBut_refl _ d) fun _ => sameBut_ite (fun _ => ?_) fun _ => sameBut_cnt d n _
    split
    · exact sameBut_trans h3 (ih _ _)
    · exact h3

theorem sameBut_counterTerminal (n : Nat) (d : Dev) : SameBut countParts d (counterTerminal n d) := by
  unfold counterTerminal
  dsimp only
  refine sameBut_ite (fun _ => ?_) fun _ => sameBut_refl _ d
  have h1 := sameBut_trans (sameBut_cnt d n fun c => { c with term := true }) (sameBut_reloadTerminal n _)
  have h2 : SameBut countParts d (match stageAbove d n with
      | some a => carryInto 3 a (reloadTerminal n (d.updCnt n fun c => { c with term := true }))
      | none => reloadTerminal n (d.updCnt n fun c => { c with term := true })) := by
    split
    · exact sameBut_trans h1 (sameBut_carryInto _ _ _)
    · exact h1
  have h3 := sameBut_ite (p := (d.chCnt n).rst = true) (fun _ => h2) (fun _ => sameBut_trans h2 (sameBut_record n 0 _))
  exact sameBut_ite (fun _ => sameBut_trans h3 (sameBut_eventAction n 0 _)) (fun _ => h3)

theorem sameBut_compareMatch (n : Nat) (rise : Bool) (d : Dev) : SameBut countParts d (compareMatch n rise d) := by
  unfold compareMatch
  dsimp only
  split
  · refine sameBut_then (sameBut_counterEvent _ _ _) (by decide) ?_
    split
    · exact sameBut_cnt d n _
    · exact sameBut_then (sameBut_out _ n _) (by decide) (sameBut_cnt d n _)
  · exact sameBut_refl _ d

theorem sameBut_groupReset (n mask : Nat) (d : Dev) : SameBut countParts d (groupReset n mask d) := by
  unfold groupReset
  refine sameBut_forEach _ (fun p d => ?_) _ _
  split
  · exact sameBut_counterReset _ d
  · exact sameBut_refl _ d

theorem sameBut_groupStart (n mask : Nat) (d : Dev) : SameBut countParts d (groupStart n mask d) := by
  unfold groupStart
  refine sameBut_forEach _ (fun p d => ?_) _ _
  split
  · exact sameBut_counterStart _ d
  · exact sameBut_refl _ d

/-! ### Captures (R225–R230) -/

def capParts : List Part := [.ch, .ic, .ne, .gs]

theorem sameBut_capc (d : Dev) (n : Nat) (f) : SameBut capParts d (d.updCap n f) :=
  sameBut_mono (sameBut_updCap d n f) (by simp [capParts])

theorem sameBut_latchChain (n : Nat) (second : Bool) (d : Dev) : SameBut capParts d (latchChain n second d) := by
  unfold latchChain
  split
  · exact sameBut_refl _ d
  · exact sameBut_forEach _ (fun k d => sameBut_capc d k _) _ d

theorem sameBut_storeCapture (n : Nat) (second : Bool) (cnt : W32) (st : Time64) (g : BitVec 6) (sg : BitVec 2) (d : Dev) :
    SameBut capParts d (storeCapture n second cnt st g sg d) := by
  have hc : ∀ d, SameBut capParts d (counterEvent n 3 d) := fun d => sameBut_mono (sameBut_counterEvent n 3 d) (by simp [countParts, capParts])
  have ht : ∀ d, SameBut capParts d (tsFlag n 1 d) := fun d => sameBut_mono (sameBut_updCnt d n _) (by simp [capParts])
  have hw : ∀ d, SameBut capParts d (windowClose n d) := fun d => sameBut_mono (sameBut_windowClose n d) (by simp [capParts])
  unfold storeCapture
  dsimp only
  split
  · exact sameBut_trans (sameBut_capc d n _) (sameBut_trans (sameBut_latchChain n _ _) (sameBut_trans (ht _) (sameBut_trans (hc _)
      (sameBut_trans (sameBut_capc _ n _) (hw _)))))
  · exact sameBut_trans (sameBut_capc d n _) (sameBut_trans (sameBut_latchChain n _ _) (sameBut_trans (ht _) (hc _)))

theorem sameBut_takeCapture (n : Nat) (fall : Bool) (st : Time64) (g : BitVec 6) (sg : BitVec 2) (d : Dev) :
    SameBut capParts d (takeCapture n fall st g sg d) := by
  unfold takeCapture
  dsimp only
  split
  · exact sameBut_trans (sameBut_capc d n _) (sameBut_storeCapture _ _ _ _ _ _ _)
  · exact sameBut_storeCapture _ _ _ _ _ _ _
  · exact sameBut_storeCapture _ _ _ _ _ _ _

theorem sameBut_captureEdge (n : Nat) (rise : Bool) (k : Nat) (st : Time64) (g : BitVec 6) (sg : BitVec 2) (d : Dev) :
    SameBut capParts d (captureEdge n rise k st g sg d) := by
  have ht : ∀ fall f, SameBut capParts d (takeCapture n fall st g sg (d.updCap n f)) := fun fall f =>
    sameBut_then (sameBut_takeCapture _ _ _ _ _ _) (by decide) (sameBut_capc d n f)
  unfold captureEdge
  dsimp only
  repeat' split
  all_goals first
    | with_reducible exact sameBut_refl _ d
    | with_reducible exact sameBut_capc d n _
    | with_reducible exact ht _ _

/-- An accepted edge reaches the channels of its group: their captures. -/
theorem sameBut_captureEdges (p : Nat) (rise : Bool) (k : Nat) (st : Time64) (g : BitVec 6) (sg : BitVec 2) (d : Dev) :
    SameBut capParts d (captureEdges p rise k st g sg d) := sameBut_forEach _ (fun n d => sameBut_captureEdge n rise k st g sg d) _ _

/-- It advances the counts that it drives. -/
theorem sameBut_countEdges (p : Nat) (rise : Bool) (d : Dev) : SameBut [.ch] d (countEdges p rise d) :=
  sameBut_forEach _ (fun n d => sameBut_ite (fun _ => sameBut_updCnt d n _) (fun _ => sameBut_refl _ d)) _ _

end Sys2Proof.Laws
end

