-- ==== Sys2Proof/Laws/Kept.lean ====
section
/-! SUPPORT. What a frame says of each part and of each numbered instance. -/

namespace Sys2Proof.Laws

open Sys2Proof.Machine

section
variable {l : List Part} {d e : Dev} (h : SameBut l d e)
include h

theorem kept_ic (hb : Part.ic ∉ l) : e.ic = d.ic := h {} .ic hb
theorem kept_ch (hb : Part.ch ∉ l) : e.ch = d.ch := h {} .ch hb
theorem kept_tooth (hb : Part.tooth ∉ l) : e.tooth = d.tooth := h {} .tooth hb
theorem kept_br (hb : Part.br ∉ l) : e.br = d.br := h {} .br hb
theorem kept_ax (hb : Part.ax ∉ l) : e.ax = d.ax := h {} .ax hb
theorem kept_gl (hb : Part.gl ∉ l) : e.gl = d.gl := h {} .gl hb
theorem kept_gs (hb : Part.gs ∉ l) : e.gs = d.gs := h {} .gs hb
theorem kept_chases (hb : Part.chases ∉ l) : e.chases = d.chases := h {} .chases hb
theorem kept_tick (hb : Part.tick ∉ l) : e.tick = d.tick := h {} .tick hb
theorem kept_load (hb : Part.load ∉ l) : e.load = d.load := h {} .load hb
theorem kept_tb (hb : Part.tb ∉ l) : e.tb = d.tb := h {} .tb hb
theorem kept_so (hb : Part.so ∉ l) : e.so = d.so := h {} .so hb
theorem kept_ptp (hb : Part.ptp ∉ l) : e.ptp = d.ptp := h {} .ptp hb
theorem kept_comps (hb : Part.comps ∉ l) : e.comps = d.comps := h {} .comps hb
theorem kept_ne (hb : Part.ne ∉ l) : e.ne = d.ne := h {} .ne hb
theorem kept_ctxs (hb : Part.ctxs ∉ l) : e.ctxs = d.ctxs := h {} .ctxs hb
theorem kept_lanes (hb : Part.lanes ∉ l) : e.lanes = d.lanes := h {} .lanes hb
theorem kept_store (hb : Part.store ∉ l) : e.store = d.store := h {} .store hb
theorem kept_trace (hb : Part.trace ∉ l) : e.trace = d.trace := h {} .trace hb
theorem kept_mem (hb : Part.mem ∉ l) : e.mem = d.mem := h {} .mem hb
theorem kept_heads (hb : Part.heads ∉ l) : e.heads = d.heads := h {} .heads hb
theorem kept_fps (hb : Part.fps ∉ l) : e.fps = d.fps := h {} .fps hb
theorem kept_sec (hb : Part.sec ∉ l) : e.sec = d.sec := h {} .sec hb
theorem kept_hi (hb : Part.hi ∉ l) : e.hi = d.hi := h {} .hi hb
theorem kept_ds (hb : Part.ds ∉ l) : e.ds = d.ds := h {} .ds hb
theorem kept_lo (hb : Part.lo ∉ l) : e.lo = d.lo := h {} .lo hb
theorem kept_fm (hb : Part.fm ∉ l) : e.fm = d.fm := h {} .fm hb
theorem kept_pw (hb : Part.pw ∉ l) : e.pw = d.pw := h {} .pw hb
theorem kept_ecc (hb : Part.ecc ∉ l) : e.ecc = d.ecc := h {} .ecc hb
theorem kept_jtag (hb : Part.jtag ∉ l) : e.jtag = d.jtag := h {} .jtag hb
theorem kept_lk (hb : Part.lk ∉ l) : e.lk = d.lk := h {} .lk hb
theorem kept_free (hb : Part.free ∉ l) : e.free = d.free := h {} .free hb
theorem kept_polled (hb : Part.polled ∉ l) : e.polled = d.polled := h {} .polled hb
theorem kept_chOut (hb : Part.ch ∉ l) (n : Nat) : e.chOut n = d.chOut n := by
  unfold Dev.chOut; rw [kept_ch h hb]
theorem kept_chCnt (hb : Part.ch ∉ l) (n : Nat) : e.chCnt n = d.chCnt n := by
  unfold Dev.chCnt; rw [kept_ch h hb]
theorem kept_chCap (hb : Part.ch ∉ l) (n : Nat) : e.chCap n = d.chCap n := by
  unfold Dev.chCap; rw [kept_ch h hb]
theorem kept_chEm (hb : Part.ch ∉ l) (n : Nat) : e.chEm n = d.chEm n := by
  unfold Dev.chEm; rw [kept_ch h hb]
theorem kept_pin (hb : Part.tooth ∉ l) (n : Nat) : e.pin n = d.pin n := by
  unfold Dev.pin; rw [kept_tooth h hb]
theorem kept_dec (hb : Part.tooth ∉ l) (n : Nat) : e.dec n = d.dec n := by
  unfold Dev.dec; rw [kept_tooth h hb]
theorem kept_decTrk (hb : Part.tooth ∉ l) (n : Nat) : e.decTrk n = d.decTrk n := by
  unfold Dev.decTrk; rw [kept_tooth h hb]
theorem kept_aoq (hb : Part.tooth ∉ l) (n : Nat) : e.aoq n = d.aoq n := by
  unfold Dev.aoq; rw [kept_tooth h hb]
theorem kept_pair (hb : Part.br ∉ l) (n : Nat) : e.pair n = d.pair n := by
  unfold Dev.pair; rw [kept_br h hb]
theorem kept_trip (hb : Part.br ∉ l) (n : Nat) : e.trip n = d.trip n := by
  unfold Dev.trip; rw [kept_br h hb]
theorem kept_axis (hb : Part.ax ∉ l) (n : Nat) : e.axis n = d.axis n := by
  unfold Dev.axis; rw [kept_ax h hb]
theorem kept_queue (hb : Part.ax ∉ l) (n : Nat) : e.queue n = d.queue n := by
  unfold Dev.queue; rw [kept_ax h hb]
theorem kept_slug (hb : Part.gs ∉ l) (n : Nat) : e.slug n = d.slug n := by
  unfold Dev.slug; rw [kept_gs h hb]
theorem kept_chase (hb : Part.chases ∉ l) (n : Nat) : e.chase n = d.chase n := by
  unfold Dev.chase; rw [kept_chases h hb]
theorem kept_comp (hb : Part.comps ∉ l) (n : Nat) : e.comp n = d.comp n := by
  unfold Dev.comp; rw [kept_comps h hb]
theorem kept_source (hb : Part.ic ∉ l) (n : Nat) : e.source n = d.source n := by
  unfold Dev.source; rw [kept_ic h hb]
theorem kept_eng (hb : Part.ne ∉ l) (n : Nat) : e.eng n = d.eng n := by
  unfold Dev.eng; rw [kept_ne h hb]
theorem kept_head (hb : Part.heads ∉ l) (n : Nat) : e.head n = d.head n := by
  unfold Dev.head; rw [kept_heads h hb]
theorem kept_fp (hb : Part.fps ∉ l) (n : Nat) : e.fp n = d.fp n := by
  unfold Dev.fp; rw [kept_fps h hb]
theorem kept_ptpPort (hb : Part.ptp ∉ l) (n : Nat) : e.ptpPort n = d.ptpPort n := by
  unfold Dev.ptpPort; rw [kept_ptp h hb]
theorem kept_lane (hb : Part.lanes ∉ l) (n : Nat) : e.lane n = d.lane n := by
  unfold Dev.lane; rw [kept_lanes h hb]
theorem kept_mac (hb : Part.lk ∉ l) (n : Nat) : e.mac n = d.mac n := by
  unfold Dev.mac; rw [kept_lk h hb]
theorem kept_member (hb : Part.lk ∉ l) (n : Nat) : e.member n = d.member n := by
  unfold Dev.member; rw [kept_lk h hb]
theorem kept_path (hb : Part.hi ∉ l) (n : Nat) : e.path n = d.path n := by
  unfold Dev.path; rw [kept_hi h hb]
theorem kept_hstat (hb : Part.hi ∉ l) (n : Nat) : e.hstat n = d.hstat n := by
  unfold Dev.hstat; rw [kept_hi h hb]
theorem kept_box (hb : Part.hi ∉ l) (n : Nat) : e.box n = d.box n := by
  unfold Dev.box; rw [kept_hi h hb]
theorem kept_user (hb : Part.ds ∉ l) (n : Nat) : e.user n = d.user n := by
  unfold Dev.user; rw [kept_ds h hb]
theorem kept_group (hb : Part.ds ∉ l) (n : Nat) : e.group n = d.group n := by
  unfold Dev.group; rw [kept_ds h hb]

end

end Sys2Proof.Laws
end

