-- ==== Sys2Proof/Laws/GalleyFrames.lean ====
section
/-! SUPPORT. Frames of the operations on slugs, chases and axes, and what a disturbance leaves of an axis. -/

namespace Sys2Proof.Laws

open Sys2Proof.Machine

/-- The parts that the end of a slug can reach: the galley, its slugs, the outcome ring, requests of axes, interrupts. -/
def slugParts : List Part := [.gl, .gs, .mem, .ic, .ne, .ax]
/-- The parts that placing a slug can reach. -/
def armParts : List Part := .chases :: slugParts

theorem sameBut_glFlag (b : Nat) (d : Dev) : SameBut [.gl, .ic, .ne] d (glFlag b d) := by
  refine sameBut_then (sameBut_memberEvent _ _) (by decide) ?_
  intro v b hb
  cases b <;> first | exact (hb (by decide)).elim | rfl

theorem sameBut_nextSeq (d : Dev) : SameBut [.gl] d (nextSeq d).2 := by
  intro v b hb
  cases b <;> first | exact (hb (by decide)).elim | rfl

theorem sameBut_write128 (d : Dev) (a : Nat) (v : BitVec 128) : SameBut [.mem] d (d.write128 a v) :=
  sameBut_then (sameBut_write64 _ _ _) (by decide) (sameBut_write64 _ _ _)

theorem sameBut_gl (d : Dev) (x : Galley) : SameBut [.gl] d { d with gl := x } := by
  intro v b hb
  cases b <;> first | exact (hb (by decide)).elim | rfl

theorem sameBut_ax (d : Dev) (x : Axes) : SameBut [.ax] d { d with ax := x } := by
  intro v b hb
  cases b <;> first | exact (hb (by decide)).elim | rfl

theorem sameBut_gs (d : Dev) (x : GalleyStore) : SameBut [.gs] d { d with gs := x } := by
  intro v b hb
  cases b <;> first | exact (hb (by decide)).elim | rfl

theorem sameBut_writeRecord (r : Outcome) (d : Dev) : SameBut slugParts d (writeRecord r d) := by
  unfold writeRecord
  split
  · split
    · exact sameBut_then (sameBut_glFlag _ _) (by decide) (sameBut_mono (sameBut_gl d _) (by decide))
    · refine sameBut_then (sameBut_memberEvent _ _) (by decide) ?_
      have h : ∀ x, SameBut slugParts d { d.write128 (outcomeBase + 2 * d.gl.orhead) (recordImage r) with gl := x } :=
        fun x => sameBut_then (sameBut_gl _ _) (by decide) (sameBut_mono (sameBut_write128 _ _ _) (by decide))
      split
      · exact sameBut_then (sameBut_ax _ _) (by decide) (h _)
      · exact h _
  · exact sameBut_refl _ d

theorem sameBut_freeSlug (sid : Nat) (d : Dev) : SameBut [.gs] d (freeSlug sid d) := by
  unfold freeSlug
  dsimp only
  split
  · exact sameBut_updSlug d sid _
  · exact sameBut_then (sameBut_gs _ _) (by decide) (sameBut_updSlug d sid _)

theorem sameBut_maybeArm (a : Nat) (ang : Ang64) (d : Dev) : SameBut [.ax] d (maybeArm a ang d) := by
  unfold maybeArm
  split
  · exact sameBut_updQueue d _ _
  · exact sameBut_refl _ d

theorem sameBut_reinsert (sid : Nat) (d : Dev) : SameBut slugParts d (reinsert sid d) := by
  unfold reinsert
  dsimp only
  split
  · exact sameBut_then (sameBut_maybeArm _ _ _) (by decide) (sameBut_then (sameBut_updSlug _ sid _) (by decide)
      (sameBut_mono (sameBut_nextSeq d) (by decide)))
  · refine sameBut_then (sameBut_maybeArm _ _ _) (by decide) (sameBut_then (sameBut_updSlug _ sid _) (by decide)
      (sameBut_then (sameBut_writeRecord _ _) (by decide) (sameBut_then (sameBut_gl _ _) (by decide)
        (sameBut_mono (sameBut_nextSeq d) (by decide)))))

theorem sameBut_retireSlug (sid : Nat) (st : SlugState) (d : Dev) : SameBut [.gs] d (retireSlug sid st d) := by
  unfold retireSlug
  dsimp only
  split
  · exact sameBut_then (sameBut_freeSlug _ _) (by decide) (sameBut_updSlug d sid _)
  · exact sameBut_updSlug d sid _

theorem sameBut_missSlug (sid reason : Nat) (t : Time64) (d : Dev) : SameBut slugParts d (missSlug sid reason t d) := by
  have h : ∀ x r, SameBut slugParts d (writeRecord r { d with gl := x }) := fun x r =>
    sameBut_then (sameBut_writeRecord _ _) (by decide) (sameBut_mono (sameBut_gl d _) (by decide))
  unfold missSlug
  dsimp only
  split
  · exact sameBut_then (sameBut_reinsert _ _) (by decide) (h _ _)
  · exact sameBut_then (sameBut_retireSlug _ _ _) (by decide) (h _ _)

theorem sameBut_cancelSlug (sid reason : Nat) (t : Time64) (d : Dev) : SameBut slugParts d (cancelSlug sid reason t d) :=
  sameBut_then (sameBut_retireSlug _ _ _) (by decide) (sameBut_writeRecord _ d)

theorem sameBut_putEntry (cs k : Nat) (e : Option Entry) (d : Dev) : SameBut [.chases] d (putEntry cs k e d) := sameBut_updChase d cs _

theorem sameBut_placeEntry (q : Nat) (e : Entry) (d : Dev) : SameBut [.chases, .gl, .ic, .ne] d (placeEntry q e d).2 := by
  unfold placeEntry
  dsimp only
  split
  · split
    · exact sameBut_then (sameBut_updChase _ _ _) (by decide) (sameBut_mono (sameBut_putEntry _ _ _ d) (by decide))
    · exact sameBut_mono (sameBut_putEntry _ _ _ d) (by decide)
  · exact sameBut_then (sameBut_glFlag _ _) (by decide) (sameBut_mono (sameBut_gl d _) (by decide))

theorem sameBut_armSlug (sid : Nat) (t : Time64) (g : Ang64) (d : Dev) : SameBut armParts d (armSlug sid t g d) := by
  unfold armSlug
  dsimp only
  split <;>
  · rename_i h
    have h2 := congrArg Prod.snd h
    dsimp only at h2
    rw [← h2]
    exact sameBut_then (sameBut_updSlug _ _ _) (by decide) (sameBut_mono (sameBut_placeEntry _ _ d) (by decide))

theorem sameBut_passMissed (sid : Nat) (d : Dev) : SameBut slugParts d (passMissed sid d) := by
  unfold passMissed
  dsimp only
  refine sameBut_then (sameBut_missSlug _ _ _ _) (by decide) ?_
  split
  · exact sameBut_mono (sameBut_ax d _) (by decide)
  · exact sameBut_refl _ d

theorem sameBut_passSlug (sid : Nat) (d : Dev) : SameBut armParts d (passSlug sid d) := by
  have hm := sameBut_mono (m := armParts) (sameBut_passMissed sid d) (by decide)
  unfold passSlug
  dsimp only
  split <;> refine sameBut_ite (fun _ => hm) fun _ => ?_
  · exact sameBut_mono (sameBut_updSlug d sid _) (by decide)
  · exact sameBut_armSlug _ _ _ d

/-- An arming pass reaches the galley, the chases and the axes' queues. -/
theorem sameBut_armingPass (a : Nat) (d : Dev) : SameBut armParts d (armingPass a d) := by
  unfold armingPass
  dsimp only
  split
  · exact sameBut_forEach _ sameBut_passSlug _ d
  · exact sameBut_refl _ d

theorem sameBut_retimeAxis (a : Nat) (d : Dev) : SameBut [.chases] d (retimeAxis a d) := by
  refine sameBut_forEach _ (fun e d => ?_) _ d
  split
  · exact sameBut_putEntry _ _ _ d
  · exact sameBut_refl _ d

/-! ### Disturbances (R148) -/

theorem sameBut_entryAction (kind : PolicyKind) (cs k : Nat) (e : Entry) (d : Dev) :
    SameBut [.chases] d (entryAction kind cs k e d) := by
  unfold entryAction
  repeat' split
  all_goals exact sameBut_updChase d cs _

theorem sameBut_disturbOne (kind : PolicyKind) (a : Nat) (d : Dev) : SameBut [.chases, .ax] d (disturbOne kind a d) := by
  refine sameBut_then (sameBut_updAxis _ a _) (by decide) (sameBut_then (sameBut_updQueue _ _ _) (by decide) ?_)
  exact sameBut_mono (sameBut_forEach (fun (e : Nat × Nat × Entry) d => entryAction kind e.1 e.2.1 e.2.2 d)
    (fun e d => sameBut_entryAction kind e.1 e.2.1 e.2.2 d) _ d) (by decide)

/-- A disturbance reaches the chases and the axes with their queues. -/
theorem sameBut_disturb (kind : PolicyKind) (a : Nat) (d : Dev) : SameBut [.chases, .ax] d (disturb kind a d) :=
  sameBut_then (sameBut_forEach _ (fun v d => sameBut_disturbOne _ v d) _ _) (by decide) (sameBut_disturbOne kind a d)

theorem disturbOne_axis_same (kind : PolicyKind) (a : Nat) (d : Dev) :
    (disturbOne kind a d).axis a = { d.axis a with st := { (d.axis a).st with policyBusy := true } } := by
  have h := fun (es : List (Nat × Nat × Entry)) => kept_axis (sameBut_forEach (fun e d => entryAction kind e.1 e.2.1 e.2.2 d)
    (fun e d => sameBut_entryAction kind e.1 e.2.1 e.2.2 d) es d) (by decide) a
  unfold disturbOne
  simp [h]

theorem disturbOne_axis_other (kind : PolicyKind) (a b : Nat) (d : Dev) (hb : b ≠ a) :
    (disturbOne kind a d).axis b = d.axis b := by
  have h := fun (es : List (Nat × Nat × Entry)) => kept_axis (sameBut_forEach (fun e d => entryAction kind e.1 e.2.1 e.2.2 d)
    (fun e d => sameBut_entryAction kind e.1 e.2.1 e.2.2 d) es d) (by decide) b
  unfold disturbOne
  dsimp only
  rw [updAxis_other _ _ _ _ hb]
  simp [h]

/-- A disturbance leaves an axis as it was but for POLICY_BUSY, which it sets. -/
theorem disturb_axis (kind : PolicyKind) (a b : Nat) (d : Dev) :
    ∃ p, (disturb kind a d).axis b = { d.axis b with st := { (d.axis b).st with policyBusy := p } } ∧ (b = a → p = true) := by
  have h0 : ∃ p, (disturbOne kind a d).axis b = { d.axis b with st := { (d.axis b).st with policyBusy := p } } ∧ (b = a → p = true) := by
    by_cases h : b = a
    · subst h; exact ⟨true, disturbOne_axis_same _ _ _, fun _ => rfl⟩
    · exact ⟨(d.axis b).st.policyBusy, by rw [disturbOne_axis_other _ _ _ _ h], fun e => absurd e h⟩
  unfold disturb forEach
  dsimp only
  generalize (match kind with | .disabled | .resync => PolicyKind.search | k => k) = vk
  generalize followers d a = l
  generalize disturbOne kind a d = e at h0
  induction l generalizing e with
  | nil => exact h0
  | cons v t ih =>
    refine ih _ ?_
    obtain ⟨p, hp, hq⟩ := h0
    by_cases h : b = v
    · subst h
      exact ⟨true, by rw [disturbOne_axis_same, hp], fun _ => rfl⟩
    · exact ⟨p, by rw [disturbOne_axis_other _ _ _ _ h, hp], hq⟩

/-- An event bit of an axis changes its STAT alone. -/
theorem axFlag_axis_same (a b : Nat) (d : Dev) :
    (axFlag a b d).axis a = { d.axis a with st := { (d.axis a).st with stat := orBit (d.axis a).st.stat b } } := by
  unfold axFlag
  rw [kept_axis (sameBut_axisEvent a b _) (by decide), updAxis_same]

theorem axFlag_axis_other (a b c : Nat) (d : Dev) (h : c ≠ a) : (axFlag a b d).axis c = d.axis c := by
  unfold axFlag
  rw [kept_axis (sameBut_axisEvent a b _) (by decide), updAxis_other _ _ _ _ h]

end Sys2Proof.Laws
end

