-- ==== Sys2Proof/Laws/Services.lean ====
section
/-! SUPPORT. Dictionary services: that an answer of a service leaves its requester served, and nothing else changed. -/

namespace Sys2Proof.Laws

open Sys2Proof Sys2Proof.Machine

theorem box_upd (d : Dev) (n : Nat) (f) : (d.updBox n f).box n = f (d.box n) := by simp [Dev.box, Dev.updBox]
theorem user_fire (n k : Nat) (d : Dev) : (fireSource n d).user k = d.user k := by
  simp [Dev.user, kept_ds (sameBut_fireSource n d) (by decide)]
/-- Who is served when the answer changes only the requester's record and what `Served` names besides. -/
theorem served_mk {w : DictWho} {body : List Byte} {c : Core} {e : Dev} {pend : List Instr}
    (h : SameBut [.ds, .hi, .ic, .ne] c.dev e)
    (hu : e.user (whoNo w) = { c.dev.user (whoNo w) with answer := body }) (ho : ∀ k, k ≠ whoNo w → e.user k = c.dev.user k)
    (hd : e.ds = { c.dev.ds with users := e.ds.users, sessions := e.ds.sessions, sent := e.ds.sent })
    (hh : e.hi = { c.dev.hi with boxes := e.hi.boxes })
    (hb : w = .pcie ∨ w = .qspi → (c.dev.box (whoNo w)).go = true →
      (e.box (whoNo w)).go = false ∧ bit (e.box (whoNo w)).stat 11 = true ∧ (e.box (whoNo w)).rlen = body.length) :
    Served w body c { core := { c with dev := e }, pending := pend } := by
  have hl := kept_lk h (by decide)
  refine ⟨hu, ho, hd, hh, hb, fun _ => hl, ?_, fun m => ?_, fun b hm => h c.vault b fun hn => hm ?_⟩
  · simp [hl]
  · simp [Dev.mac, hl]
  · revert hn; cases b <;> simp

/-- A mailbox requester is served by its answer (R423). -/
theorem served_box (p : Nat) (w : DictWho) (body : List Byte) (c : Core) (pend : List Instr) (hw : whoNo w = p) :
    Served w body c { core := c.mapDev fun d => boxAnswer p body (d.updUser (whoNo w) fun u => { u with answer := body }), pending := pend } := by
  subst hw
  have hu : ∀ k, k ≠ whoNo w → (c.dev.updUser (whoNo w) fun u => { u with answer := body }).user k = c.dev.user k := by
    intro k hk; simp only [Dev.user, Dev.updUser]; exact bank_get_upd_other _ _ _ _ _ hk
  have hu1 : ((c.dev.updUser (whoNo w) fun u => { u with answer := body }).user (whoNo w)) = { c.dev.user (whoNo w) with answer := body } := by
    simp [Dev.user, Dev.updUser]
  have h0 : SameBut [.ds, .hi, .ic, .ne] c.dev (c.dev.updUser (whoNo w) fun u => { u with answer := body }) :=
    sameBut_mono (sameBut_updUser _ _ _) (by decide)
  unfold boxAnswer
  by_cases hg : (c.dev.box (whoNo w)).go = true
  · rw [show (c.mapDev fun d => _) = ({ c with dev := _ } : Core) from rfl]
    dsimp only
    rw [if_pos (by simpa [Dev.box, Dev.updUser] using hg)]
    have h1 := fun f => sameBut_then (sameBut_updBox _ (whoNo w) f) (by decide) h0
    split
    · have hs := fun f => sameBut_then (sameBut_fireSource (fld (c.dev.box (whoNo w)).ctl 16 8) _) (by decide) (h1 f)
      refine served_mk (hs _) ?_ ?_ ?_ ?_ ?_
      · simp only [user_fire]; exact hu1
      · intro k hk; simp only [user_fire]; exact hu k hk
      · simp only [kept_ds (sameBut_fireSource _ _) (by decide)]; rfl
      · simp only [kept_hi (sameBut_fireSource _ _) (by decide)]; rfl
      · intro _ _
        simp only [Dev.box, kept_hi (sameBut_fireSource _ _) (by decide)]
        simp [Dev.updBox, bit, orBit]
    · refine served_mk (h1 _) hu1 hu rfl rfl ?_
      intro _ _
      simp [Dev.box, Dev.updBox, bit, orBit]
  · rw [show (c.mapDev fun d => _) = ({ c with dev := _ } : Core) from rfl]
    dsimp only
    rw [if_neg (by simpa [Dev.box, Dev.updUser] using hg)]
    exact served_mk h0 hu1 hu rfl rfl fun _ h => absurd h hg

/-- A message that waits for the end of a cyclic gate changes what its MAC holds, and no other MAC. -/
theorem mac_hold (d : Dev) (m : Nat) (w : Waiting) (k : Nat) :
    (d.updMac m fun x => { x with held := x.held ++ [w] }).mac k =
      { d.mac k with held := ((d.updMac m fun x => { x with held := x.held ++ [w] }).mac k).held } := by
  by_cases h : k = m
  · subst h; rw [updMac_same]
  · rw [updMac_other _ _ _ _ h]

/-- Every requester is served by `respond` (R381, R385). -/
theorem served_respond (w : DictWho) (body : List Byte) (c : Core) (pend : List Instr) :
    Served w body c { core := c.mapDev (respond w body), pending := pend } := by
  cases w with
  | pcie => exact served_box 0 .pcie body c pend rfl
  | qspi => exact served_box 1 .qspi body c pend rfl
  | session n =>
    have hu : ∀ k, k ≠ 2 + n → (c.dev.updUser (2+n) fun u => { u with answer := body }).user k = c.dev.user k := by
      intro k hk; simp only [Dev.user, Dev.updUser]; exact bank_get_upd_other _ _ _ _ _ hk
    have hu1 : ((c.dev.updUser (2+n) fun u => { u with answer := body }).user (2+n)) = { c.dev.user (2+n) with answer := body } := by
      simp [Dev.user, Dev.updUser]
    have h0 : SameBut [.ds, .hi, .ic, .ne] c.dev (c.dev.updUser (2+n) fun u => { u with answer := body }) :=
      sameBut_mono (sameBut_updUser _ _ _) (by decide)
    have hw : ¬(DictWho.session n = .pcie ∨ DictWho.session n = .qspi) := by simp
    have hds : ∀ ss st : _, SameBut [.ds, .hi, .ic, .ne] c.dev
        { (c.dev.updUser (2+n) fun u => { u with answer := body }) with
          ds := { (c.dev.updUser (2+n) fun u => { u with answer := body }).ds with sessions := ss, sent := st } } := by
      intro ss st v b hb
      cases b <;> first | rfl | exact (hb (by decide)).elim
    unfold respond
    rw [show (c.mapDev fun d => _) = ({ c with dev := _ } : Core) from rfl]
    dsimp only [whoNo]
    split
    · rename_i x hx
      have hx' : c.dev.session n = some x := hx
      unfold sendDatagram orWait
      split
      · rename_i hgate
        have hgate' : (c.dev.mac x.mac).gate = true := hgate
        refine ⟨hu1, hu, rfl, rfl, fun h => absurd h hw, ?_, rfl, ?_, ?_⟩
        · intro hn; have := hn n x rfl hx'; rw [hgate'] at this; simp at this
        · exact mac_hold _ _ _
        · exact fun b hb => sameBut_then (l := [.ds, .hi, .ic, .ne, .lk]) (sameBut_updMac _ _ _) (by decide)
            (sameBut_mono (hds _ _) (by decide)) c.vault b hb
      · exact served_mk (hds _ _) hu1 hu rfl rfl fun h => absurd h hw
    · exact served_mk h0 hu1 hu rfl rfl fun h => absurd h hw

/-- A service whose answer is known serves its requester (R381). -/
theorem serves_of {i : Instr} {s : State} {w : DictWho} {svc index sub : Nat} {r : SvcAnswer × Core} {f : Core → Core}
    (hl : live s.core.dev = true) (hr : enginesRun s.core.dev = true) (hx : exec i s = whenRunning true f s)
    (hf : f s.core = answerSvc w svc index sub r) (code : DictCode) (ty total : Nat) (data : List Byte) (c : Core)
    (h : r = (.now code ty total data, c)) : Serves i s w (responseBody svc code index sub ty total data) c := by
  subst h
  refine ⟨{ s with core := f s.core }, by rw [hx, whenRunning_ok _ _ hl hr], rfl, ?_⟩
  rw [hf]; exact served_respond w _ c _

end Sys2Proof.Laws
end

