-- ==== Sys2Proof/Tests/Slice0.lean ====
section
/-! SUPPORT. Small tests of single commands on small states: for each statement, states and operands that meet its hypotheses,
clause by clause, with what the rules say the command leaves; the ranges of operands; a few values the manual works out. -/

namespace Sys2Proof.Tests

set_option Elab.async false

open Sys2Proof Sys2Proof.Machine

/-- The core after command `i`, and its device; `ok` says that the command answered a next state. -/
def rn (i : Instr) (s : State) : Core := match exec i s with | .next t => t.core | _ => {}
def rd (i : Instr) (s : State) : Dev := (rn i s).dev
def ok (i : Instr) (s : State) : Bool := match exec i s with | .next _ => true | _ => false
/-- The command changes nothing. -/
def same (i : Instr) (s : State) : Bool := match exec i s with | .next t => decide (t = s) | _ => false

/-- The command is ill formed, and acts on nothing. -/
def bad (i : Instr) (s : State) : Bool := !i.wf && same i s
/-- The state after a step. -/
def stp (s : State) : State := match step s with | .next t => t | _ => s

/-- A state with device `d`; a device whose core is up; one whose clocks stand still. -/
def st (d : Dev) : State := { core := { dev := d } }
def up : Dev := { pw := { boot := 5, coreUp := true } }
def held : Dev := { pw := { inReset := some .ext } }

def entry0 (t : Time64) : Entry := ⟨t, 0, 640, 8, 0, 0, 0, false, false, 0, 0, false, 1, 8, false⟩
def occ0 : Occurrence := ⟨8, 0, 0, 0, 1192, 1192, 640, 1, 0, false, 0, false, false, false, 0, false, false, false, false, false, 0⟩
def glOff (d : Dev) : Dev := { d with gl := { d.gl with cfg := 0 } }
def axOn (k : Nat) (x : Axis) : Axis := { x with cfg := { x.cfg with cfg := BitVec.ofNat 32 (2 ^ 31 + k * 2 ^ 28 + 0x33A000), tpt := 60 } }
def chOn (n : Nat) (d : Dev) : Dev := d.updOut n fun o => { o with ctl := 0x80000000#32, out := 0x10#32, enNow := true }
/-! ### The queue, operands, ports -/

/-- An ill-formed term for each check. -/
theorem test_ill_formed_terms :
    ([.registerWrite 4 0 0, .registerWrite 0 2 0, .registerWrite 0 67108864 0, .wideValueLowRead 2 0, .wideValueLowRead 0 3,
      .tickStrobeReachesEngine 16, .sync 4 20 0 0 none, .sync 0 20 0 64 none, .sync 0 256 0 0 none, .pinTransition 272 true 0, .preset 4,
      .ghost 4096, .updateService 16 0, .remove 262144, .chaseCommit 16, .edgeRise 512 0 0, .sideTurnOn 128 true 0,
      .tripAccepted 16, .icSetp 32 0, .interruptEvent 1024, .crossingResync 6, .acyclicDatagram 0 0 65536 0 0 [] true, .noResponse 64, .microword 16,
      .read (.session 8) 0 0, .read .pcie 65536 0, .read .pcie 0 256, .readSeg .pcie 0 0 4294967296 0, .readSeg .pcie 0 0 0 65536,
      .mailboxGo 2 0, .eventGroupTrigger 256, .qspiRead 4294967296 0 false, .powerRequest 4, .samplePreload [],
      .correctableError .galley 16777216, .claimableSpanEnd 1024, .tripLevelInactive 16, .sessionExpiry 8,
      .workerLost 256, .pop 0 4 0 0, .pop 0 0 4096 0, .pop 0 0 0 65536] : List Instr).all (fun i => !i.wf) = true := by
  decide +kernel

theorem test_ill_formed_acts_on_nothing : bad (.ghost 4096) (st up) = true := by decide +kernel

theorem test_step_takes_front :
    (stp { st up with pending := [.vtrimStep, .scrub] }).pending = [.scrub] := by decide +kernel

theorem test_idle_step :
    live held = false ∧ stp (st held) = st held ∧ live up = true ∧ nextPoll up.polled up = none ∧
    (stp (st up)).pending = [] ∧ (stp (st up)).core.dev.tb.time = 64 ∧ (stp (st up)).core.dev.polled = 0 ∧
    (nextPoll 0 { up with tb := { up.tb with time := 2000000 } }).isSome = true := by decide +kernel

theorem test_stopped_core :
    live held = false ∧ same (.edgeRise 0 0 0) (st held) = true ∧ same (.sideTurnOn 127 true 0) (st held) = true ∧ same (.microword 15) (st held) = true ∧
    same (.chaseCommit 15) (st held) = true ∧ same (.stopped 4095) (st held) = true ∧ same .tickBoundary (st held) = true := by decide +kernel

theorem test_core_in_reset_answers_hosts :
    fabricUp held = false ∧ held.hi.pcieReset = false ∧ isBar0 67108860 = true ∧
    Bank.get 0 (rd (.wideValueLowRead 0 67108860) (st held)).hi.data 0 = 0xFFFFFFFF#32 ∧
    ((rd (.wideValueCommit 1 0x1018 5) (st held)).hstat 1).dropc = 1 := by decide +kernel

theorem test_wide_reads :
    let s := st { up with tb := { up.tb with time := 0x0000000500000007#64 } }
    let d := rd (.wideValueLowRead 0 0x1008) s
    PortOpen 0 s.core.dev ∧ PortOpen 31 s.core.dev ∧ Bank.get 0 d.hi.data 0 = 7#32 ∧ (d.path 0).latch = [(0x100C, 5#32)] ∧
    Bank.get 0 (rd (.wideValueHighRead 0 0x100C) (st d)).hi.data 0 = 5#32 ∧
    ((rd (.wideValueHighRead 0 0x100C) (st d)).path 0).latch = [] ∧
    (rd (.wideValueHighRead 0 0x100C) s).tb.stat = 0x80#32 := by unfold PortOpen; decide +kernel

theorem test_wide_writes :
    let d := rd (.wideValueLowWrite 0 0x1018 64) (st { up with tb := { up.tb with ctl := 0 } })
    (d.path 0).stage = some (0x1018, 64) ∧
    ((rd (.wideValueLowWrite 31 (0x80018 + 4095 * 128) 9) (st up)).path 31).stage = some (0x80018 + 4095 * 128, 9) ∧
    (wide 0 64).toInt.natAbs ≤ d.so.stepMax ∧
    (rd (.wideValueCommit 0 0x101C 0) (st d)).tb.pending = some (.step 64 true) := by decide +kernel

theorem test_register_writes :
    ((rd (.registerWrite 0 (0x20004 + 127 * 64) 0xFFFFFFFF) (st up)).pair 127).dtr = 0x3FFFF#32 ∧
    locate 0x3FFFFFC = none ∧ same (.registerWrite 16 0x3FFFFFC 1) (st up) = true ∧
    (rd (.registerWrite 2 4 0x400) (st up)).hi.pcie.intDis = true := by decide +kernel

/-! ### Timebase, PTP -/

def tb0 (d : Dev) : Dev := { d with tb := { d.tb with ctl := 0 } }
def pm : Announce := { port := 0, priority1 := 100 }
/-- A worker that follows `pm`; a manager; a standby manager with the plant instance, which follows `pm` there. -/
def worker : Dev := { up with tb := { up.tb with ctl := 3 }, ptp := { best := some pm, heard := [pm] } }
def manager : Dev := { up with tb := { up.tb with ctl := 7 } }
def standby : Dev := { up with tb := { up.tb with ctl := 13 }, ptp := { plantBest := some pm, plantHeard := [pm] } }

theorem test_trim :
    (rd (.tbHtrimWrite 200000000) (st (tb0 up))).tb.trimNext = [(200000000, 2)] ∧
    (rd (.tbHtrimWrite 200000000) (st up)).tb.trimNext = [] ∧ (rd (.tbHtrimWrite 200000000) (st up)).tb.htrim = 200000000 ∧
    (rd (.tbHtrimWrite 200000001) (st up)).tb = { up.tb with stat := 0x2000#32 } := by decide +kernel

theorem test_step :
    (rd (.tbStepCommit 1024) (st (tb0 up))).tb.pending = some (.step 1024 true) ∧
    (rd (.tbStepCommit 1025) (st (tb0 up))).tb = { (tb0 up).tb with stat := 0x1000#32 } ∧
    (rd (.tbStepCommit 1) (st up)).tb = { up.tb with stat := 0x1000#32 } := by decide +kernel

theorem test_servo_handover :
    let d := { tb0 up with tb := { (tb0 up).tb with pending := some (.step 5 true), htrim := 9 } }
    (rd (.servoWrite true) (st d)).tb = { d.tb with ctl := 1, pending := none, stat := 0x1000#32 } ∧
    (rd (.servoWrite true) (st (tb0 up))).tb = { (tb0 up).tb with ctl := 1 } ∧
    (rd (.servoWrite false) (st up)).tb.trimNext = [(0, 2)] ∧ same (.servoWrite true) (st up) = true := by decide +kernel

theorem test_period_change :
    roleWorker up = false ∧ periodRejected 40000 { up with tick := { up.tick with nextAnchor := 200000000#64 } } = false ∧
    (rd (.nextPeriodWrite 40000) (st { up with tick := { up.tick with nextAnchor := 200000000#64 } })).tick.change = 1 ∧
    periodRejected 3906 up = true ∧ (rd (.nextPeriodWrite 3906) (st up)).tick = { up.tick with nextPeriod := 0, change := 3 } ∧
    (rd (.nextPeriodWrite 0) (st { up with tick := { up.tick with change := 1, nextPeriod := 5 } })).tick = up.tick ∧
    (rd (.nextAnchorWrite 64) (st up)).tick.nextAnchor = 64 ∧
    (rd (.nextAnchorWrite 64) (st { up with tick := { up.tick with change := 1 } })).tick.change = 0 := by decide +kernel

theorem test_tick_boundary :
    let d := { up with tb := { up.tb with time := 2000000 } }
    atOrAfter d.tb.time d.tick.next = true ∧ d.tb.stepNow = none ∧ d.lk.adopt = none ∧
    (rd .tickBoundary (st d)).tick.number = 1 ∧ (rd .tickBoundary (st d)).tick.lastBoundary = 2000000 ∧
    (rd .tickBoundary (st d)).tick.next = 4000000 ∧ (rd .tickBoundary (st d)).tick.strobeAt = some 0 ∧
    (rd .tickBoundary (st up)).tick.lastBoundary = 2000000 ∧ (rd .tickBoundary (st up)).tick.strobeAt = some 31250 := by decide +kernel

theorem test_strobes_and_credits :
    ((rd (.tickStrobeReachesEngine 15) (st up)).eng 15).ready = 1 ∧
    (rd (.tickStrobeReachesEngine 0) (st (up.updEng 0 fun g => { g with ready := 1 }))).load.overNow = true ∧
    ((rd (.updateCredit 0) (st up)).eng 0).credits = 1 ∧ updateQuota up = 125 ∧ shadowed up 0 = false ∧
    ((rd (.tickStrobeReachesEngine 3) (st (up.updEng 3 fun g => { g with ctl := 0x80#32, chalted := false }))).eng 3).ready = 9 ∧
    same (.tickStrobeReachesEngine 3) (st (up.updEng 3 fun g => { g with online := false })) = true ∧
    same (.updateCredit 3) (st (up.updEng 3 fun g => { g with online := false })) = true ∧
    same (.updateCredit 0) (st (up.updEng 0 fun g => { g with credits := 125 })) = true := by decide +kernel

theorem test_sync :
    listens worker 0 false = true ∧ selected worker 0 false = true ∧ listens standby 0 true = true ∧ selected standby 0 true = true ∧
    (rd (.sync 0 20 7 63 none) (st worker)).ptp.syncRx = some (0, 7, rxStamp worker 0 63) ∧
    (rd (.sync 0 0 7 0 none) (st standby)).ptp.plantSync = some (0, 7, rxStamp standby 0 0) ∧
    disciplines standby true = false ∧ instanceOf standby 0 = some true ∧ instanceOf worker 20 = some false ∧ instanceOf worker 0 = none ∧
    same (.sync 0 0 7 0 none) (st worker) = true ∧ same (.followUp 0 0 7 {}) (st worker) = true ∧
    (rd (.followUp 0 0 7 {}) (st { standby with ptp := { standby.ptp with plantSync := some (0, 7, 5) } })).ptp.plantSync = none := by
  decide +kernel

theorem test_sync_acquire :
    let d := { worker with ptp := { worker.ptp with syncRx := some (0, 7, 5) } }
    disciplines d false = true ∧ d.so.servo = .unset ∧ 2 ≤ d.so.lockCount ∧ d.so.within = 0 ∧
    (rd (.followUp 0 20 7 ⟨0, 1, -8192⟩) (st d)).so.servo = .acquire ∧ (rd (.followUp 0 20 7 ⟨0, 1, -8192⟩) (st d)).so.offset = 9 ∧
    (rd (.followUp 0 20 7 ⟨0, 1, -8192⟩) (st d)).so.lastSync = 5 := by decide +kernel

theorem test_grandmaster :
    let sa := { up with so := { up.so with servo := .free } }
    (rd (.announce 0 pm) (st { standby with ptp := {} })).ptp.plantHeard = [pm] ∧
    (rd (.announce 0 pm) (st { standby with ptp := {} })).ptp.plantBest = some pm ∧ instanceOf sa 20 = some false ∧ listens standby pm.port true = true ∧
    betterThan pm (ownSet sa) = true ∧ (rd (.announce 20 pm) (st sa)).so.servo = .acquire ∧
    (rd (.announce 20 pm) (st sa)).ptp.best = some pm ∧
    (rd (.announceReceiptTimeout true) (st standby)).ptp.plantBest = none ∧
    (rd (.announceReceiptTimeout false) (st up)).so.servo = .free ∧
    (rd (.announceReceiptTimeout true) (st { manager with tb := { manager.tb with ctl := 15 }, so := { up.so with servo := .locked } })).tb.plantHold = true ∧
    disciplines { manager with tb := { manager.tb with ctl := 15 }, so := { up.so with servo := .locked } } true = true ∧
    (rd (.syncReceiptTimeout false) (st { worker with so := { worker.so with servo := .acquire } })).so.servo = .unset ∧
    (rd (.syncReceiptTimeout false) (st { worker with so := { worker.so with servo := .locked } })).so.servo = .holdover := by decide +kernel

theorem test_peer_delay :
    let d := up.updPtpPort 0 fun p => { p with reqSent := some 100, respAt := some (400, 200) }
    listens up 0 false = true ∧
    (rd (.pdelayReq 0 3 0 63) (st up)).ptp.sent.length = 2 ∧ ((rd (.pdelayReqSend 0 5) (st up)).ptpPort 0).reqSent = some (txStamp up 0 5) ∧
    ((rd (.pdelayResp 0 5 ⟨0, 1, 4096⟩) (st (up.updPtpPort 0 fun p => { p with reqSent := some 1 }))).ptpPort 0).respAt = some (rxStamp up 0 5, 17) ∧
    ((rd (.pdelayRespFollowUp 0 ⟨0, 13, 49152⟩) (st d)).ptpPort 0).meanLinkDelay = 140 ∧
    ((rd (.pdelayRespFollowUp 0 ⟨0, 13, 49152⟩) (st d)).ptpPort 0).reqSent = none := by decide +kernel

/-- While the cyclic gate of its MAC is open a message waits (R360). -/
theorem test_ptp_waits :
    let g (d : Dev) := d.updMac 0 fun x => { x with gate := true }
    ((rd (.syncSend 0 63) (st (g manager))).mac 0).held = [.sync 63] ∧ ((rd (.announceSend 0) (st (g manager))).mac 0).held = [.announce] ∧
    ((rd (.pdelayReq 0 3 0 63) (st (g up))).mac 0).held = [.pdelayResp 3 (rxStamp up 0 0) 63] ∧
    ((rd (.pdelayReqSend 0 5) (st (g up))).mac 0).held = [.pdelayReq 5] ∧ listens (g manager) 0 false = true := by decide +kernel

theorem test_manager_sends :
    let d := { worker with so := { worker.so with servo := .holdover }, tb := { worker.tb with alignOk := true } }
    sendsSync manager = true ∧ (rd (.syncSend 0 63) (st manager)).tb.alignOk = true ∧ (rd (.syncSend 0 63) (st manager)).ptp.seqSync = 1 ∧
    (rd (.announceSend 0) (st manager)).ptp.sent = [.announce 0 20 0 100] ∧
    (rd .alignLost (st d)).tb = { d.tb with alignOk := false, stat := 0x400#32 } ∧
    same (.ptpManagementMessage 0) (st up) = true := by decide +kernel

/-! ### Pins, decoders, counters, reads with effects -/

def cand0 : PinCand := ⟨true, 77, 5, 0, false, 3⟩
def decOn (n : Nat) (d : Dev) : Dev := d.updDec n fun c => { c with cfg := { c.cfg with tdc := orBit c.cfg.tdc 0 } }

theorem test_pin_transition :
    let d := { up with tb := { up.tb with tclk := 19 } }
    let c := rd (.pinTransition 255 true 63) (st d)
    let z := d.updPin 0 fun s => { s with lastCap := some 0 }
    (c.pin 255).change = some ⟨true, stampAt d 63, 63, 0, false, 19⟩ ∧ ((sampleTclk 255 c).pin 255).lastCap = some 19 ∧
    ((sampleTclk 255 c).pin 255).line = [⟨true, stampAt d 63, 63, 0, false, 19⟩] ∧ (sampleTclk 255 c).tooth.decs = d.tooth.decs ∧
    ((rd (.pinTransition 255 false 2) (st c)).pin 255).change = none ∧
    ((rd (.pinTransition 0 true 1) (st z)).pin 0).change = some ⟨true, stampAt z 32, 32, 0, true, 19⟩ ∧
    ((sampleTclk 0 (rd (.pinTransition 0 true 1) (st z))).dec 0).coarsec = 1 ∧
    ((rd (.pinTransition 0 true 1) (st held)).pin 0) = { ball := true } ∧ same (.pinTransition 0 false 1) (st up) = true ∧
    ((rd (.pinTransition 271 true 1) (st up)).trip 15).ball = true := by decide +kernel

/-- An edge accepted in TCLK 4, its tooth of TCLK 6 and TOTAL one TCLK later. -/
theorem test_edge_accepted :
    let d := up.updPin 3 fun s => { s with ball := true, cand := some cand0 }
    let on := fun (d : Dev) => (decOn 3 d).updDec 3 fun c => { c with on := true }
    let e : PinPass := { edge := cand0, acc := 4, to_ := true, passed := true }
    let k := (on { up with tb := { up.tb with tclk := 6 } }).updPin 3 fun s => { s with pipe := [e] }
    let k0 := (on { up with tb := { up.tb with tclk := 6 } }).updPin 3 fun s => { s with pipe := [{ e with passed := false }] }
    same (.edgeAccepted 3) (st up) = true ∧ ((rd (.edgeAccepted 3) (st d)).pin 3).level = true ∧ ((rd (.edgeAccepted 3) (st d)).pin 3).cand = none ∧
    ((rd (.edgeAccepted 3) (st d)).pin 3).pipe.length = 1 ∧
    (k.dec 3).on = true ∧ decMode (k.dec 3) = 0 ∧ clearedNow k 3 = false ∧ decoderEdge k 3 3 = some e ∧
    decoderEdge k0 3 3 = some { e with passed := false } ∧ decoderStage 3 k0 = k0 ∧
    ((decoderStage 3 k).dec 3).lstamp = 77 ∧ ((decoderStage 3 k).dec 3).pos = 1 ∧ ((decoderStage 3 k).dec 3).total = 0 ∧
    ((advanceTotal 3 (decoderStage 3 k)).dec 3).total = 1 := by decide +kernel

theorem test_pin_write :
    ((rd (.pinWrite 7 0x5FF) (st up)).pin 7).pin = 0x5FF#32 ∧ ((rd (.pinWrite 7 0x5FF) (st up)).pin 7).level = false ∧
    (landPin ((rd (.pinWrite 7 0x5FF) (st up)).pin 7)).level = true ∧ (landPin { pin := 5, pinNow := 5, cand := some cand0 }).cand = some cand0 ∧
    (landPin { pin := 0x400, pinNow := 0, cand := some cand0 }).cand = some { cand0 with level := false } ∧
    ((rd (.pinWrite 7 0x3FF) (st up)).pin 7).pin = 0xFF#32 ∧ ((rd (.pinWrite 7 0x300) (st up)).dec 7).tdstat = 4#32 := by decide +kernel

theorem test_decoder :
    let quad := up.updDec 1 fun c => { c with cfg := { c.cfg with tdc := 12 } }
    let pw := (decOn 5 (up.updDec 5 fun c => { c with on := true, cfg := { c.cfg with tdc := 16 } }))
    let e : PinPass := { edge := cand0, acc := 4, to_ := true, passed := true }
    let off := (up.updDec 6 fun c => { c with on := true }).updPin 6 fun s => { s with pipe := [e] }
    let off := { off with tb := { off.tb with tclk := 6 } }
    decRefused up 0 = false ∧ decEn ((rd (.decoderEnable 0) (st up)).dec 0) = true ∧
    decRefused quad 1 = true ∧ ((rd (.decoderEnable 1) (st quad)).dec 1).tdstat = 4#32 ∧
    decEn ((rd (.decoderDisable 0) (st (decOn 0 up))).dec 0) = false ∧
    ((rd (.clr 255) (st (up.updDec 255 fun c => { c with total := 9 }))).dec 255).total = 0 ∧
    ((rd (.pwdFault 5) (st { pw with tooth := { pw.tooth with track := Bank.set {} [] 5 { lead := some 1 } } })).dec 5).pfltc = 1 ∧
    decoderEdge off 6 6 = some e ∧ ((landDecoder 6 off).dec 6).on = false ∧ decoderEdge (landDecoder 6 off) 6 6 = none ∧
    ((landDecoder 5 (decOn 5 up)).dec 5).on = true := by decide +kernel

theorem test_update_request :
    let d := up.updDec 5 fun c => { c with updcnt := 1 }
    (d.queue 0).contains (.update 0) = false ∧ (rd (.updateRequest 5) (st d)).queue 0 = [.update 0] ∧
    ((rd (.updateRequest 5) (st d)).dec 5).updSeen = 1 := by decide +kernel

theorem test_always_on_counters :
    let on := up.updAoq 3 fun a => { a with ctl := 1, cnt := 5 }
    ((rd (.aoqTransition 3 true false false) (st up)).aoq 3).cnt = 0 ∧
    ((rd (.aoqTransition 3 false false false) (st on)).aoq 3).cnt = 6 ∧ ((rd (.aoqTransition 3 true false false) (st on)).aoq 3).cnt = 4 ∧
    bit ((rd (.aoqTransition 3 true true false) (st on)).aoq 3).ctl 3 = true ∧ ((rd (.aoqTransition 3 true true false) (st on)).aoq 3).cnt = 5 ∧
    ok (.aoqTransition 3 false false true) (st on) = true ∧
    ((rd (.preset 3) (st (up.updAoq 3 fun a => { a with pre := 8, ctl := 0xFF00#32 }))).aoq 3) = { pre := 8, cnt := 8, ctl := 0x10#32 } := by
  decide +kernel

def pendSource (n k : Nat) (d : Dev) : Dev :=
  d.updSource n fun s => { s with src := BitVec.ofNat 32 (2 ^ 31 + k * 65536), pend := true }

theorem test_reads :
    let cap := up.updCap 9 fun c => { c with caps := 6, cap0 := 44 }
    let chain := (up.updOut 1 fun o => { o with ctl := 0xE0000000#32 }).updCnt 0 fun c => { c with cnt := 3 }
    let rx := up.updComp 63 fun c => { c with r := { c.r with rxd := 7, rxf := true } }
    Bank.get 0 (rd (.ustampLoRead 0 255) (st (up.updDec 255 fun c => { c with ustamp := 5, total := 3, utotal := 2 }))).hi.data 0 = 5 ∧
    (((rd (.ustampLoRead 0 255) (st (up.updDec 255 fun c => { c with ustamp := 5, total := 3, utotal := 2 }))).path 0).latch.getD 2 (0, 0)).2 = 3 ∧
    ((rd (.ustampLoRead 0 255) (st up)).path 0).latch.length = 4 ∧
    ((rd (.captureRead 16 9 false) (st cap)).chCap 9).caps = 4 ∧ Bank.get 0 (rd (.captureRead 16 9 false) (st cap)).hi.data 16 = 44 ∧
    stagesAbove chain 0 = [1] ∧ isStage chain 0 = false ∧ ((rd (.chainCountRead 1 0) (st chain)).path 1).latch = [(baseCh 1 + 0x18, 0)] ∧
    Bank.get 0 (rd (.rxdRead 0 63) (st rx)).hi.data 0 = 7 ∧ ((rd (.rxdRead 0 63) (st rx)).comp 63).r.rxf = false := by decide +kernel

theorem test_claims_and_records :
    let d := pendSource 600 31 (pendSource 601 31 up)
    winner 31 d = some 600 ∧ Bank.get 0 (rd (.claim 0 31) (st d)).hi.data 0 = 600 ∧ ((rd (.claim 0 31) (st d)).source 600).act = true ∧
    ((rd (.claim 0 31) (st d)).source 601).pend = true ∧ winner 0 d = none ∧
    Bank.get 0 (rd (.claim 0 0) (st d)).hi.data 0 = 0x80000000#32 ∧
    Bank.get 0 (rd (.chwRead 0 63) (st { up with ic := { up.ic with chw := Bank.set 0 [] 63 5 } })).hi.data 0 = 5 ∧
    Bank.get 0 (rd (.chwRead 0 63) (st { up with ic := { up.ic with chw := Bank.set 0 [] 63 5 } })).ic.chw 63 = 0 ∧
    Bank.get 0 (rd (.axwLoRead 0 63) (st { up with ic := { up.ic with axw := Bank.set 0 [] 63 5 } })).hi.data 0 = 5 := by decide +kernel

/-! ### Axes -/

/-- Axis `a` with the fields that `f` sets, fed by decoder 3. -/
def axd (a : Nat) (f : Axis → Axis) (d : Dev) : Dev :=
  (d.updDec 3 fun c => { c with cfg := { c.cfg with tdc := BitVec.ofNat 32 (a * 8192 + 1) } }).updAxis a f

theorem test_axis_enable :
    let e := axd 4095 (fun x => { x with cfg := { x.cfg with tpt := 60 }, trk := { x.trk with c := -7 } }) up
    let on := axd 2 (axOn 0) up
    axEn (e.axis 4095) = false ∧ axisRefused e 4095 = false ∧ axEn ((rd (.axisEnable 4095) (st e)).axis 4095) = true ∧
    ((rd (.axisEnable 4095) (st e)).axis 4095).trk.c = -7 ∧
    axisRefused up 0 = true ∧ axEn (up.axis 0) = false ∧ bit ((rd (.axisEnable 0) (st up)).axis 0).st.stat 19 = true ∧
    axEn (on.axis 2) = true ∧ axEn ((rd (.axisDisable 2) (st on)).axis 2) = false ∧
    ((rd (.axisDisable 2) (st on)).axis 2).st.policyBusy = true ∧
    axKind (on.axis 2) ≠ 2 ∧ ((rd (.resync 2) (st on)).axis 2).st.policyBusy = true ∧
    axKind ((axd 2 (axOn 2) up).axis 2) = 2 ∧ same (.resync 2) (st (axd 2 (axOn 2) up)) = true := by decide +kernel

def ghosting (y : Sync) : Axis → Axis := fun x =>
  { axOn 0 x with
    st := { x.st with sync := y, model := true, ghostc := 0xFFFF }
    trk := { x.trk with c := 9, span := 2, predict := 500, deadline := 600 } }

theorem test_ghost :
    let l := axd 0 (ghosting .locked) up
    let g := axd 0 (ghosting .ghosted) up
    ghostReady (l.axis 0) = true ∧ (l.axis 0).trk.held = [] ∧ (l.axis 0).st.dir = false ∧
    ((rd (.ghost 0) (st l)).axis 0).st.sync = .ghosted ∧ ((rd (.ghost 0) (st l)).axis 0).trk.c = 11 ∧
    ((rd (.ghost 0) (st l)).axis 0).st.ghostc = 0xFFFF ∧ ((rd (.ghost 0) (st l)).axis 0).trk.anchorT = 500 ∧
    ghostReady (g.axis 0) = true ∧ ((rd (.ghost 0) (st g)).axis 0).st.sync = .syncLost ∧
    ((rd (.ghost 0) (st g)).axis 0).st.lostc = 1 ∧ ((rd (.ghost 0) (st g)).axis 0).trk.c = 9 ∧
    ghostReady (up.axis 4095) = false ∧ ((rd (.ghost 4095) (st up)).axis 4095).st = (up.axis 4095).st := by decide +kernel

theorem test_sync_states :
    let l := axd 1 (fun x => { axOn 0 x with st := { x.st with sync := .locked } }) up
    let aoq (k : W32) := (axd 1 (fun x => let y := axOn 0 x; { y with st := { y.st with seeding := true }, cfg := { y.cfg with cfg := y.cfg.cfg ||| 0x06000000#32, aoqOfs := 3 } })
      up).updAoq 0 fun q => { q with ctl := k, cnt := 10 }
    let q := { aoq 16 with tooth := { (aoq 16).tooth with decs := [] } }
    let rem (y : Sync) (k : Nat) := up.updAxis 1 fun x => { axOn k x with st := { x.st with sync := y } }
    axKind (l.axis 1) = 0 ∧ ((rd (.stopped 1) (st l)).axis 1).st.sync = .locking ∧ ((rd (.stopped 1) (st l)).axis 1).st.stopped = true ∧
    same (.stopped 1) (st (rd (.stopped 1) (st l))) = true ∧ same (.aoqSeed 1) (st l) = true ∧
    (q.axis 1).st.seeding = true ∧ fld (q.axis 1).cfg.cfg 23 2 = 0 ∧ bit (q.aoq 0).ctl 4 = true ∧ bit (q.aoq 0).ctl 3 = false ∧
    feedingDecoder q 1 = none ∧ ((rd (.aoqSeed 1) (st q)).axis 1).st.sync = .locking ∧ ((rd (.aoqSeed 1) (st q)).axis 1).trk.c = 7 ∧
    feedingDecoder { aoq 8 with tooth := { (aoq 8).tooth with decs := [] } } 1 = none ∧
    bit ((rd (.aoqSeed 1) (st { aoq 8 with tooth := { (aoq 8).tooth with decs := [] } })).axis 1).st.stat 14 = true ∧
    axKind ((rem .locked 1).axis 1) = 1 ∧ ((rd (.remoteMiss 1) (st (rem .locked 1))).axis 1).st.sync = .coasting ∧
    ((rd (.coastLimit 1) (st (rem .coasting 1))).axis 1).st.sync = .syncLost ∧
    axKind ((rem .coasting 3).axis 1) = 3 ∧ ((rd (.coastMax 1) (st (rem .coasting 3))).axis 1).st.lostc = 1 := by decide +kernel

def rich (e : Nat) (d : Dev) : Dev := d.updEng e fun g => { g with credits := 1 }

theorem test_update_service :
    let q := (rich 15 up).updQueue 3 fun _ => [.update 4095, .arm 4095]
    let u := q.updAxis 4095 fun x => { x with mdl := { x.mdl with upd := some (99, 0, 4, true) } }
    canServe up 0 0 = false ∧ same (.updateService 0 0) (st up) = true ∧
    canServe q 15 4095 = true ∧ q.queue 3 = [.update 4095, .arm 4095] ∧ [UpdReq.arm 4095].any (isPolicyOf 4095) = false ∧ q.gs.granted = [] ∧ (q.axis 4095).mdl.upd = none ∧
    (rd (.updateService 15 4095) (st q)).queue 3 = [.arm 4095] ∧ ((rd (.updateService 15 4095) (st q)).eng 15).credits = 0 ∧ ((rd (.updateService 15 4095) (st q)).eng 15).cycles = 120 ∧
    (let z := q.updQueue 3 fun _ => [.update 4095, .policy 4095 .reversal false [] [] 0]
     decide (rn (.updateService 15 4095) (st z) = rn (.policyService 15 4095) (st z)) = true) ∧
    canServe u 15 4095 = true ∧ same (.updateService 15 4095) (st (q.updQueue 3 fun _ => [.arm 4095, .update 4095])) = true ∧ (u.axis 4095).mdl.upd = some (99, 0, 4, true) ∧
    (u.axis 4095).mdl.points.length < 2 ∧
    ((rd (.updateService 15 4095) (st u)).axis 4095).mdl.points.length = 1 := by decide +kernel

/-- A master-derived axis with a segment, and one PARKED slug of it. -/
def armDev : Dev :=
  (up.updAxis 5 fun x => { axOn 3 x with
    st := { x.st with sync := .locked }, trk := { x.trk with ang := 0 },
    mdl := { x.mdl with segOn := true, seg := { theta0 := 0, t0 := 0, w := 0x0001000000000000#64, a := 0 } } }).updSlug 262143 fun s =>
      { s with axis := 5, chan := 511, act := 3, state := .parked, angle := 0x1000#64, seq := 6, used := true, tofs := 640000 }

theorem test_arming :
    let r := rd (.armingPass 3 5) (st armDev)
    armable up 0 = false ∧ same (.armingPass 0 0) (st up) = true ∧
    armable armDev 5 = true ∧ axisSlugs armDev 5 .pending = [] ∧
    axisSlugs armDev 5 .parked = [(262143, armDev.slug 262143)] ∧ inHorizon armDev 5 (armDev.slug 262143).angle = true ∧
    (match fireTime armDev (armDev.slug 262143) (fld armDev.gl.cfg 16 16) with | some x => !atOrAfter armDev.tb.time x.1 | none => false) = true ∧
    fifoFull armDev = false ∧ freeSlot (armDev.chase 3) = some 0 ∧ (armDev.eng 3).online = true ∧
    (r.slug 262143).state = .armed ∧ (match Bank.get none (r.chase 3).entries 0 with | some x => decide (x.seq = 6) | none => false) = true := by
  decide +kernel

theorem test_policy :
    let ds : Dev := { up with gl := { up.gl with cfg := 0 } }
    let q (k : PolicyKind) (en sl : List (Nat × W32)) : Dev := (rich 0 ds).updQueue 0 fun _ => [.policy 7 k false en sl 50]
    let a := (q .suppressed [(4, 9)] []).updSlug 4 fun s => { s with state := .armed, seq := 9, axis := 7 }
    let w : Dev := { (ds.updSlug 4 fun s => { s with state := .parked, seq := 9 }) with
      ax := { ds.ax with walks := [.policy 7 .disabled false [] [(4, 9)] 50] } }
    canServe (q .disabled [] [(4, 9)]) 0 7 = true ∧ (rd (.policyService 0 7) (st (q .disabled [] [(4, 9)]))).ax.walks.length = 1 ∧
    canServe a 0 7 = true ∧ a.queue 0 = [.policy 7 .suppressed false [(4, 9)] [] 50] ∧
    recordSelected a (plainRecord 4 (a.slug 4) .missed 5 50) = false ∧ (a.slug 4).rpt = false ∧
    ((rd (.policyService 0 7) (st a)).slug 4).state = .missed ∧ (rd (.policyService 0 7) (st a)).gl.missed = 1 ∧
    (w.queue 0).any (isPolicyOf 7) = false ∧ recordSelected w (plainRecord 4 (w.slug 4) .cancelled 8 50) = false ∧
    ((rd (.policyWalk 7) (st w)).slug 4).state = .cancelled ∧ (rd (.policyWalk 7) (st w)).ax.walks = [] ∧
    canServe up 15 4095 = false ∧ same (.policyService 15 4095) (st up) = true := by decide +kernel

theorem test_tick_work :
    let r := up.updEng 15 fun g => { g with ready := 1, cycles := 10 }
    enginesRun r = true ∧ (r.eng 15).online = true ∧ bit (r.eng 15).ready 0 = true ∧ (r.eng 15).tback = 0 ∧ deviceWide r 15 = false ∧
    axesShare r 15 = [] ∧ ((rd (.tickWork 15) (st r)).eng 15).ready = 0 ∧ ((rd (.tickWork 15) (st r)).eng 15).cycles = 1510 ∧
    bit (up.eng 0).ready 0 = false ∧ same (.tickWork 0) (st up) = true := by decide +kernel

/-! ### The galley -/

/-- The host's staged words: a slug of channel 0, act 0, at angle 5, TOFS 9, D 64 (R118). -/
def stage (w0 : W32) (chan : Nat) (d : Dev) : Dev :=
  { d with gl := { d.gl with
      sw := Bank.set 0 (Bank.set 0 (Bank.set 0 (Bank.set 0 [] 0 w0) 2 64) 3 9) 4 5 |> fun b => Bank.set 0 b 6 (BitVec.ofNat 32 (chan * 2 ^ 25)) } }

theorem test_host_insert :
    let s := (stage 0 9 up).updAxis 0 fun x => { x with trk := { x.trk with ang := 4 } }
    let r := rd .insert (st s)
    let bad1 := stage 0 0 { up with gl := { up.gl with result := 1 } }
    imageReserved (stagedImage s) = false ∧ badSlug (slugOfImage (stagedImage s)) = false ∧ nextFresh s s.gs.fresh = 0 ∧
    (slugOfImage (stagedImage s)).axis = 0 ∧ 0 < sdiff (slugOfImage (stagedImage s)).angle (published s 0) ∧
    (r.slug 0).state = .parked ∧ (r.slug 0).chan = 9 ∧ (r.slug 0).angle = 5 ∧ (r.slug 0).tofs = 9 ∧ (r.slug 0).dur = 64 ∧
    r.gl.seq = 1 ∧ r.gl.result = 0x04000000#32 ∧
    bad1.gl.go = false ∧ imageReserved (stagedImage { bad1 with gl := { bad1.gl with sw := Bank.set 0 [] 6 1 } }) = true ∧
    (rd .insert (st { bad1 with gl := { bad1.gl with sw := Bank.set 0 [] 6 1 } })).gl.result = 0x00800000#32 ∧
    (rd .insert (st { bad1 with gl := { bad1.gl with sw := Bank.set 0 [] 6 1 } })).gl.seq = 1 ∧
    (rd .insert (st { up with gl := { up.gl with go := true } })).gl.stat = 0x40#32 := by decide +kernel

theorem test_host_commands :
    let d := glOff (stage 3 0 (up.updSlug 262143 fun s => { s with state := .parked, seq := 3, chan := 7 }))
    let dn := d.updSlug 262143 fun s => { s with state := .done }
    (d.slug 262143).state = .parked ∧ Bank.get 0 d.gl.sw 0 = 3 ∧ bit d.gl.cfg 0 = false ∧ findEntry d 262143 = none ∧
    ((rd (.remove 262143) (st d)).slug 262143).state = .cancelled ∧ (rd (.remove 262143) (st d)).gl.result = 0x1C03FFFF#32 ∧
    badSlug { d.slug 262143 with
      angle := (slugOfImage (stagedImage d)).angle, tofs := (slugOfImage (stagedImage d)).tofs, dur := (slugOfImage (stagedImage d)).dur,
      dmin := (slugOfImage (stagedImage d)).dmin, dmax := (slugOfImage (stagedImage d)).dmax,
      revp := (slugOfImage (stagedImage d)).revp, losp := (slugOfImage (stagedImage d)).losp } = false ∧
    ((rd (.modify 262143) (st d)).slug 262143).angle = 5 ∧ ((rd (.modify 262143) (st d)).slug 262143).chan = 7 ∧
    ((rd (.modify 262143) (st d)).slug 262143).seq = 1 ∧
    badSlug { d.slug 262143 with dur := (slugOfImage (stagedImage d)).dur } = false ∧
    ((rd (.modifyDur 262143) (st d)).slug 262143).dur = 64 ∧
    (dn.slug 262143).state = .done ∧ dn.gs.retired.contains 262143 = false ∧ (rd (.free 262143) (st dn)).gs.freed = [262143] ∧
    (d.slug 0).state = .free ∧ (rd (.free 0) (st d)).gl.result = 0x00C00000#32 := by decide +kernel


/-- R127, R137: the removal of an ARMED slug withdraws its entry; after its commit the removal is refused. -/
theorem test_remove_armed :
    let d := (glOff (stage 1 0 (up.updSlug 8 fun s => { s with state := .armed, seq := 1, chan := 3 }))).updChase 3 fun c =>
      { c with entries := Bank.set none [] 63 (some (entry0 99)) }
    let c := { d with gs := { d.gs with fifo := [.commit occ0] } }
    findEntry d 8 = some (3, 63, entry0 99) ∧ committing d 8 1 = false ∧ committing c 8 1 = true ∧
    ((rd (.remove 8) (st d)).slug 8).state = .cancelled ∧ occ ((rd (.remove 8) (st d)).chase 3) = 0 ∧
    (rd (.remove 8) (st d)).gl.result = 0x1C000008#32 ∧
    ((rd (.remove 8) (st c)).slug 8).state = .armed ∧ (rd (.remove 8) (st c)).gl.result = 0x0D000008#32 := by decide +kernel

theorem test_chase_commit :
    let d (t : Time64) := { up with tb := { up.tb with time := 1000 } }.updChase 15 fun c =>
      { c with entries := Bank.set none [] 63 (some (entry0 t)), start := Bank.set none [] 63 (some (entry0 t)) }
    commitChoice up 0 = none ∧ same (.chaseCommit 0) (st up) = true ∧
    commitChoice (d 1192) 15 = some (63, entry0 1192) ∧ sdiff (plusInt 1000#64 ((leadMin 0 0 8 * 64 : Nat) : Int)) 1192#64 ≤ 0 ∧
    (rd (.chaseCommit 15) (st (d 1192))).gs.flight.map (fun o => o.e) = [1192] ∧ occ ((rd (.chaseCommit 15) (st (d 1192))).chase 15) = 1 ∧
    occ (landChase ((rd (.chaseCommit 15) (st (d 1192))).chase 15)) = 0 ∧
    same (.chaseCommit 15) (st (rd (.chaseCommit 15) (st (d 1192)))) = true ∧
    commitChoice (d 1191) 15 = some (63, entry0 1191) ∧ 0 < sdiff (plusInt 1000#64 ((leadMin 0 0 8 * 64 : Nat) : Int)) 1191#64 ∧
    (rd (.chaseCommit 15) (st (d 1191))).gs.flight.map (fun o => (o.e, o.late)) = [(1192, true)] ∧
    ((rd (.chaseCommit 15) (st (d 1191))).chase 15).latec = 1 ∧ ((rd (.clrpk 15) (st (d 1191))).chase 15).peak = 1 := by decide +kernel

theorem test_commit_fifo :
    let f (r : CommitRec) (k : W32) : Dev := { up with gs := { up.gs with fifo := [r] }, gl := { up.gl with cfg := k, orhead := 4094, ortail := 0 } }
    occ0.rpt = false ∧ ((rd .commitRecord (st (f (.commit occ0) 0))).slug 8).state = .committed ∧
    recordSelected (f (.complete occ0) 0) (doneRecord occ0) = false ∧ ((rd .actionComplete (st (f (.complete occ0) 0))).slug 8).state = .done ∧
    recordSelected (f (.complete occ0) 128) (doneRecord occ0) = true ∧ bit (f (.complete occ0) 128).gl.cfg 0 = false ∧
    (rd .actionComplete (st (f (.complete occ0) 128))).gl.orhead = 4095 ∧
    (rd .actionComplete (st (f (.complete occ0) 128))).read64 (outcomeBase + 8188 + 1) = 1192#64 ∧
    ((rd .commitRecord (st (f (.commit { occ0 with rpt := true }) 0 |>.updAxis 0 fun x => { x with trk := { x.trk with ang := 4 } }))).slug 8).angle = 0x100000000#64 ∧
    ((rd .commitRecord (st (f (.commit { occ0 with rpt := true }) 0))).slug 8).seq = 1 ∧
    same .commitRecord (st up) = true ∧ same .actionComplete (st up) = true := by decide +kernel

theorem test_galley_arbiter :
    let w : GlWork := { who := .host, op := .free, sid := 6, seq := 2, age := 9 }
    let p : Dev := { up with gs := { up.gs with presented := [w] } }
    let g : Dev := glOff { up with gs := { up.gs with granted := [w] } } |>.updSlug 6 fun s => { s with state := .done, seq := 2 }
    let run : Dev := { up with gl := { up.gl with compacting := true, wmax := 5 } }
    let vis := { run with gl := { run.gl with slots := 15 } }.updSlug 0 fun s => { s with state := .done }
    let ev := up.updGroup 255 fun x => { x with enable := true, trigger := 0x10000000#32, templates := List.replicate 64 0 }
    (rd .galleyGrant (st p)).gs.presented = [] ∧ (rd .galleyGrant (st p)).gs.granted.length = 1 ∧
    (rd .galleyGrant (st { p with gs := { p.gs with presented := [{ w with op := .insert }] } })).gs.granted.map (fun w => w.newSeq) = [1] ∧
    ((rd .galleyGrant (st vis)).slug 0).state = .free ∧ (rd .galleyGrant (st vis)).lo.compact.position = 1 ∧
    (rd .galleyGrant (st p)).gl.wmax = 9 ∧
    g.gs.granted = [w] ∧ ((rd .galleyOpComplete (st g)).slug 6).state = .free ∧ (rd .galleyOpComplete (st g)).gl.result = 6 ∧
    (rd .compact (st up)).gl.compacting = true ∧ (rd .compactionDone (st run)).gl.compacting = false ∧ (rd .clrw (st run)).gl.wmax = 0 ∧
    fld (ev.group 255).trigger 28 4 = 1 ∧ (rd (.eventGroupTrigger 255) (st ev)).gs.presented.length = 2 := by decide +kernel

theorem test_galley_window :
    let d := up.updSlug 262143 fun s => { s with used := true, seq := 77, chan := 511 }
    Bank.get 0 (rd (.galleyWindowRead 1 (32 * 262143)) (st d)).hi.data 1 = 77 ∧
    (((rd (.galleyWindowRead 1 (32 * 262143)) (st d)).path 1).latch.getD 6 (0, 0)).2 = 0xFFFFC003#32 := by
  decide +kernel

/-! ### Channels and counters -/


theorem test_edges :
    let d := chOn 7 { up with gs := { up.gs with flight := [{ occ0 with chan := 7 }] }, tb := { up.tb with time := 1190 } }
    let e := (chOn 7 up).updEm 7 fun x => { x with emc := orBit x.emc 31 }
    chEn (d.chOut 7) = true ∧ emulated d 7 = false ∧ (findOcc d 8 1192).isSome = true ∧ findOcc d 9 1192 = none ∧
    ((rd (.edgeRise 7 8 1192) (st d)).chOut 7).lvl = true ∧ (rd (.edgeRise 7 8 1192) (st d)).gs.fifo.length = 1 ∧
    (rd (.edgeRise 7 9 1192) (st d)).gs.fifo = [] ∧
    ((rd (.edgeFall 7 8 1192) (st (rd (.edgeRise 7 8 1192) (st d)))).chOut 7).lvl = false ∧
    ((rd (.toggle 7 8 1192) (st d)).chOut 7).lvl = true ∧
    isDuration 0xFFFFFFFF = true ∧ reachedLocal d (localAt d 1192 + 0xFFFFFFFF) = false ∧
    ((rd (.pulse 7 8 1192 0xFFFFFFFF) (st d)).chOut 7).pulseEnd = some (2 + 0xFFFFFFFF) ∧
    reachedLocal d (localAt d 1192 + 10) = true ∧ ((rd (.pulse 7 8 1192 10) (st d)).chOut 7).lvl = false ∧
    emulated e 7 = true ∧ ((rd (.edgeRise 7 8 5) (st e)).chOut 7).stat = 0x10#32 := by decide +kernel

theorem test_other_actions :
    let d := up.updCap 255 fun c => { c with capc := 0x40000000#32, caps := 2 }
    let m := up.updEm 3 fun x => { x with emc := 0xA0000000#32 }
    let g := up.updEm 3 fun x => { x with emc := 0xA00A0000#32, last := some 9 }
    let w := up.updEng 15 fun g => { g with chalted := false }
    ((rd (.captureArm 255 8 10 0) (st d)).chCap 255).closeFirst = true ∧ ((rd (.captureArm 255 8 10 6) (st d)).chCap 255).closeAt = some 16 ∧
    ((rd (.captureArm 255 8 10 6) (st d)).chCap 255).caps = 0x42#32 ∧
    emEn (m.chEm 3) = true ∧ emSrc (m.chEm 3) = false ∧ emDir (m.chEm 3) = 2 ∧ ((rd (.emulationStep 3 0 8 5) (st m)).chEm 3).ec = 1 ∧
    (m.chEm 3).moves = [] ∧ reachedLocal m (actsAt m 3 8 0) = true ∧ ((rd (.emulationStep 3 0 8 0) (st m)).chEm 3).last = some 0 ∧
    (∀ k, (m.chEm 3).last = some k → k + emGap (m.chEm 3) * 64 ≤ actsAt m 3 8 5) ∧
    emGap (g.chEm 3) = 10 ∧ actsAt g 3 8 5 < 9 + 640 ∧ reachedLocal g 649 = false ∧
    ((rd (.emulationStep 3 0 8 5) (st g)).chEm 3).moves = [⟨649, 1, false⟩] ∧ ((rd (.emulationStep 3 0 8 5) (st g)).chEm 3).ec = 0 ∧
    ((rd (.emulationStep 3 0 8 5) (st g)).chOut 3).stat = 0x40#32 ∧
    2 ≤ 63 / 16 % 4 ∧ (w.eng 15).online = true ∧ (w.eng 15).busy = false ∧ ((rd (.engineWake 63 8 5) (st w)).eng 15).ready = 8 ∧
    findOcc w 8 5 = none ∧ ((rd (.engineWake 32 8 5) (st w)).eng 0).ready = 4 ∧
    ((rd (.doorbell 255 8 5) (st up)).source 255).pend = true ∧ (up.source 255).act = false := by decide +kernel

theorem test_output_stages :
    let on := chOn 0 up
    let pe := on.updOut 0 fun o => { o with lvl := true, pulseEnd := some 30 }
    let ent := on.updChase 3 fun c => { c with entries := Bank.set none [] 63 (some { entry0 9 with supp := false }) }
    let em (e : W32) := up.updEm 253 fun x => { x with emc := e, ec := -1 }
    let ax := (em 0xC0000000#32).updAxis 0 fun x => { x with st := { x.st with valid := true }, cfg := { x.cfg with tpt := 60 } }
    enableRefused up 255 = false ∧ isRemote 255 = false ∧ chEn ((rd (.channelEnable 255) (st up)).chOut 255) = true ∧
    (nextOut (rd (.channelEnable 255) (st up)) 255).enNow = true ∧
    (nextCnt (rd (.channelEnable 255) (st up)) 255).run = true ∧ (nextCnt (rd (.channelEnable 255) (st up)) 255).cnt = 0 ∧
    ((openTclk true 255 (up.updOut 255 fun o => { o with out := 4 })).chOut 255).lvl = true ∧
    enableRefused up 256 = true ∧ ((rd (.channelEnable 256) (st up)).chOut 256).stat = 8 ∧
    chEn ((rd (.channelDisable 0) (st on)).chOut 0) = false ∧ (nextCnt (rd (.channelDisable 0) (st on)) 0).run = false ∧
    (freeEntries ent).filter (fun e => entryOfChan 0 e.2.2) = [(3, 63, { entry0 9 with supp := false })] ∧
    Bank.get none ((rd (.channelDisable 0) (st ent)).chase 3).entries 63 = some { entry0 9 with supp := true } ∧
    same (.pulseEnd 0) (st on) = true ∧
    emulated pe 0 = false ∧ ((rd (.pulseEnd 0) (st pe)).chOut 0).lvl = false ∧ ((rd (.pulseEnd 0) (st pe)).chOut 0).pulseEnd = none ∧
    ((rd (.frise 0) (st on)).chOut 0).reqs = [⟨3, 0, true, true⟩] ∧
    same (.frise 0) (st (rd (.frise 0) (st on))) = true ∧ emulated (on.updEm 0 fun x => { x with emc := orBit x.emc 31 }) 0 = true ∧
    ((rd (.frise 0) (st (on.updEm 0 fun x => { x with emc := orBit x.emc 31 }))).chOut 0).stat = 0x90#32 ∧ ((rd (.ffall 0) (st up)).chOut 0).stat = 0x80#32 ∧
    (rd (.quoinClose 0xF0) (st up)).ch.quoin = 0xF0#32 ∧ (rd (.quoinOpen 0x30) (st (rd (.quoinClose 0xF0) (st up)))).ch.quoin = 0xC0#32 ∧
    (rd (.quoinClose 0x11) (st (rd (.quoinOpen 0x10) (st up)))).ch.quoin = 1 ∧
    emRefused (em 0) 254 (up.chEm 254) = true ∧ bit ((rd (.emen 254) (st up)).chOut 254).stat 3 = true ∧
    emRefused (em 0) 253 { (em 0).chEm 253 with emc := 0x80000000#32 } = false ∧ emEn ((rd (.emen 253) (st (em 0))).chEm 253) = true ∧
    ((rd (.emen 253) (st (em 0))).chEm 253).ec = -1 ∧ same (.emulationAxisStep 253) (st up) = true ∧
    emTarget ax (ax.chEm 253) = 0 ∧ emS ax (ax.chEm 253) = 60 ∧ (ax.chEm 253).last = none ∧
    ((rd (.emulationAxisStep 253) (st ax)).chEm 253).ec = 0 := by decide +kernel

theorem test_counters :
    let t (k : W32) := ({ up with tb := { up.tb with tclk := 5 } }.updOut 6 fun o => { o with per := 10, cmpr := 9, ctl := k, cmpg := 0x3F00, enNow := true }).updCnt 6 fun c =>
      { c with cnt := 9, run := true }
    terminalNow up 6 = false ∧ same (.counterTerminal 6) (st up) = true ∧
    terminalNow (t 0xD0000000#32) 6 = true ∧ stageAbove (t 0xD0000000#32) 6 = none ∧ chRld ((t 0xD0000000#32).chOut 6) = 2 ∧
    chMode ((t 0xD0000000#32).chOut 6) = 2 ∧
    countEnds (t 0xD0000000#32) 6 = true ∧ ((rd (.counterTerminal 6) (st (t 0xD0000000#32))).chCnt 6).term = true ∧
    (nextCnt (rd (.counterTerminal 6) (st (t 0xD0000000#32))) 6).cnt = 0 ∧ (nextCnt (rd (.counterTerminal 6) (st (t 0xD0000000#32))) 6).run = false ∧
    (nextCnt (rd (.counterTerminal 6) (st (t 0x90000000#32))) 6).run = true ∧ same (.counterTerminal 6) (st (rd (.counterTerminal 6) (st (t 0xD0000000#32)))) = true ∧
    compareHits up 6 false = false ∧ same (.compareMatch 6 false) (st up) = true ∧ compareHits (t 0x80000000#32) 6 true = true ∧
    ((rd (.compareMatch 6 true) (st (t 0x80000000#32))).chOut 6).reqs = [⟨7, 63, true, false⟩] ∧
    same (.compareMatch 6 true) (st (rd (.compareMatch 6 true) (st (t 0x80000000#32)))) = true := by decide +kernel

theorem test_compares :
    let plain := up.updOut 511 fun o => { o with ctl := 0 }
    let sh := up.updOut 511 fun o => { o with scmpr := 3, shp := true, ctl := 0 }
    let q := { up with ch := { up.ch with quoinStart := 0x80000000#32 } }.updOut 511 fun o => { o with ctl := 0x03F00000#32, shp := true, rel := true }
    let top := (up.updOut 511 fun o => { o with ctl := 0xA8000000#32, per := 10, sper := 20, enNow := true }).updCnt 511 fun c => { c with run := true, cnt := 9 }
    let two := (up.updOut 3 fun o => { o with ctl := 0xE0000000#32 })
    let land (d : Dev) := landOut d 511 (d.chOut 511)
    chShd (plain.chOut 511) = false ∧ ((rd (.compareWrite 511 12 7) (st plain)).chOut 511).cmpr = 0xFFFFFFFF#32 ∧
    (land (rd (.compareWrite 511 12 7) (st plain))).cmpr = 7 ∧ (land (rd (.periodWrite 511 3) (st plain))).per = 3 ∧
    (land (rd (.compareWrite 511 20 0xFFFF) (st plain))).cmpg = 0x3F3F#32 ∧
    chShd (up.chOut 511) = true ∧ terminalNow up 511 = false ∧ (land (rd (.compareWrite 511 16 7) (st up))).scmpf = 7 ∧
    (land (rd (.compareWrite 511 16 7) (st up))).shp = true ∧ (land (rd (.periodWrite 511 3) (st up))).sper = 3 ∧
    ((rd (.periodWrite 511 1) (st up)).chOut 511).stat = 8 ∧ (rd (.periodWrite 511 1) (st up)).chOut 511 = { up.chOut 511 with stat := 8 } ∧
    ((rd (.periodWrite 511 2) (st up)).chOut 511).writes = [⟨false, 8, 2⟩] ∧
    chQen (q.chOut 511) = true ∧ bit q.ch.quoinStart (chQg (q.chOut 511)) = true ∧ (q.chOut 511).writes = [] ∧
    land q = { q.chOut 511 with stat := 0x100#32 } ∧
    ((rd (.reload 511) (st sh)).chOut 511).rel = true ∧ (land (rd (.reload 511) (st sh))).cmpr = 3 ∧ (land (rd (.reload 511) (st sh))).shp = false ∧
    (land (rd (.compareWrite 511 12 7) (st (rd (.reload 511) (st (sh.updOut 511 fun o => { o with ctl := 0x04000000#32 })))))).cmpr = 3 ∧
    (land (rd (.compareWrite 511 12 7) (st (rd (.reload 511) (st (sh.updOut 511 fun o => { o with ctl := 0x04000000#32 })))))).scmpr = 7 ∧
    topNow top 511 = true ∧ (land top).per = 20 ∧
    isStage up 511 = false ∧ (nextCnt (rd (.countWrite 511 9) (st up)) 511).cnt = 9 ∧
    stageAbove two 2 = some 3 ∧ ((rd (.chainCountWrite 2 9) (st two)).chCnt 2).wshadow = some 9 ∧
    stageAbove two 3 = none ∧ isStage two 3 = true ∧ isStage two 2 = false ∧
    (nextCnt (rd (.chainCountWrite 3 1) (st (rd (.chainCountWrite 2 9) (st two)))) 2).cnt = 9 ∧
    (nextCnt (rd (.chainCountWrite 3 1) (st (rd (.chainCountWrite 2 9) (st two)))) 3).cnt = 1 := by decide +kernel

/-- A chain of channels 0 and 1, the count of the higher stage 7; captures on at channel 0. -/
def chain6 : Dev :=
  ((up.updOut 1 fun o => { o with ctl := 0xE0000000#32 }).updCnt 1 fun c => { c with cnt := 7 }).updCap 0 fun c =>
    { c with capc := 0x80000000#32 }

theorem test_counter_commands :
    let on := chOn 510 up
    let os := up.updOut 510 fun o => { o with ctl := 0xC0000000#32, enNow := true }
    let ro := os.updCnt 510 fun c => { c with run := true, cnt := 4 }
    let rt := ro.updCnt 510 fun c => { c with lnk := 0x08000000#32 }
    let cap := up.updCap 0 fun c => { c with capc := 0x80000000#32, caps := 2 }
    let win := up.updCap 9 fun c => { c with caps := 0x40 }
    ((rd (.counterTstart 510) (st up)).chCnt 510).tstat = 4 ∧ isStage on 510 = false ∧
    (nextCnt (rd (.counterStart 510) (st on)) 510).run = true ∧ chMode (os.chOut 510) = 2 ∧ (nextCnt (rd (.counterStart 510) (st os)) 510).run = true ∧
    lnkRtrg (ro.chCnt 510) = false ∧ ((rd (.counterStart 510) (st ro)).chCnt 510).tstat = 4 ∧
    lnkRtrg (rt.chCnt 510) = true ∧ (nextCnt (rd (.counterStart 510) (st rt)) 510).cnt = 0 ∧ retriggered (rd (.counterStart 510) (st rt)) 510 = true ∧
    (nextCnt (rd (.counterStart 510) (st (rd (.counterStop 510) (st on)))) 510).run = false ∧
    ((rd (.counterTstart 510) (st on)).chCnt 510).tstart = true ∧
    (nextCnt (rd (.gstart 505 0xC0) (st on)) 510).run = true ∧ (nextCnt (rd (.gstart 505 0xBF) (st on)) 510).run = false ∧
    (nextCnt (rd (.greset 505 0x40) (st (on.updCnt 510 fun c => { c with cnt := 5 }))) 510).cnt = 0 ∧
    ((rd (.greset 505 0x40) (st on)).chCnt 510).term = true ∧
    (isRemote 511 || !bit (up.chCap 511).capc 31) = true ∧ same (.swcap 511) (st up) = true ∧
    (isRemote 0 || !bit (cap.chCap 0).capc 31) = false ∧ fld (cap.chCap 0).capc 28 2 = 0 ∧ bit (cap.chCap 0).caps 6 = false ∧
    bit ((rd (.swcap 0) (st cap)).chCap 0).caps 3 = true ∧ same (.captureWindowClose 9) (st up) = true ∧
    ((rd (.captureWindowClose 9) (st win)).chCap 9).caps = 0 ∧ isStage chain6 0 = false ∧ stagesAbove chain6 0 = [1] ∧
    ((rd (.swcap 0) (st chain6)).chCap 1).cap0 = 7 := by decide +kernel

/-! ### Bridge pairs and trips -/

def pr (p : Nat) (f : Pair → Pair) : Dev := up.updPair p f
def runP (x : Pair) : Pair := { x with state := .run }

theorem test_sides :
    let offH := pr 127 fun x => { runP x with fhigh := { x.fhigh with qf := true, q := true }, low := { x.low with offAt := 5, dead := 16000 } }
    let offL := pr 127 fun x => { runP x with high := { x.high with offAt := 5, dead := 16000 } }
    let onH := pr 127 fun x => { runP x with high := { x.high with on := true, onAt := 8 } }
    mayTurnOn (offH.pair 127) true 16004 = false ∧ same (.sideTurnOn 127 true 16004) (st offH) = true ∧
    mayTurnOn (offH.pair 127) true 16005 = true ∧ ((rd (.sideTurnOn 127 true 16005) (st offH)).pair 127).high.on = true ∧
    mayTurnOn (offL.pair 127) false 16005 = true ∧ ((rd (.sideTurnOn 127 false 16005) (st offL)).pair 127).low.onAt = 16005 ∧
    mayTurnOff (onH.pair 127) true 3207 = false ∧ same (.sideTurnOff 127 true 3207) (st onH) = true ∧ endedAt (onH.pair 127) true < 8 + minPulse (onH.pair 127) ∧
    mayTurnOff (onH.pair 127) true 3208 = true ∧ (onH.pair 127).fhigh.qfAt < 3208 ∧
    ((rd (.sideTurnOff 127 true 3208) (st onH)).pair 127).high.dead = 16000 ∧ ((rd (.sideTurnOff 127 true 3208) (st onH)).pair 127).stat = 0x400#32 := by
  decide +kernel

theorem test_filter_and_refresh :
    let f := pr 0 fun x => { runP x with fhigh := { x.fhigh with q := true, qAt := 90, qfAt := 100 } }
    let ov := pr 0 fun x => { runP x with ctl := 0x20000032#32, fhigh := { x.fhigh with q := true, qAt := 90, qfAt := 100 }, flow := { x.flow with q := true, qf := true, qfAt := 3000 } }
    let eat := pr 0 fun x => { runP x with fhigh := { x.fhigh with qf := true, qAt := 90, qfAt := 100 } }
    let r := pr 0 fun x => { runP x with
      ctl := 0x40000032#32, bsmax := 10, high := { x.high with on := true, onAt := 8, dead := 100 }, low := { x.low with offAt := 3000 } }
    let e := pr 0 fun x => { runP x with refresh := some 50, bspw := 4, low := { x.low with on := true } , fhigh := { x.fhigh with qf := true } }
    filterDue (f.pair 0) (f.pair 0).fhigh 3299 = false ∧ same (.minPulseFilter 0 true 3299) (st f) = true ∧
    filterDue (f.pair 0) (f.pair 0).fhigh 3300 = true ∧ pairEnabled (f.pair 0) = true ∧ bpDrop (f.pair 0) = false ∧
    ((rd (.minPulseFilter 0 true 3300) (st f)).pair 0).fhigh.qf = true ∧ ((rd (.minPulseFilter 0 true 3300) (st f)).pair 0).filtc = 0 ∧
    overlapAt (ov.pair 0) 3300 = true ∧ ((rd (.minPulseFilter 0 true 3300) (st ov)).pair 0).ovlc = 1 ∧
    ((rd (.minPulseFilter 0 true 3300) (st eat)).pair 0).eatc = 1 ∧ bpInter (f.pair 0) = false ∧ same (.minPulseFilter 0 false 3300) (st f) = true ∧
    ((takeCommand 0 true ((chOn 0 f).updOut 0 fun o => { o with lvlAt := 200 })).pair 0).filtc = 1 ∧
    ((takeCommand 0 true ((chOn 0 f).updOut 0 fun o => { o with lvlAt := 9000, lvl := true })).pair 0).fhigh.qAt = 9000 ∧
    ((takeCommand 0 true ((chOn 0 f).updOut 0 fun o => { o with lvlAt := 9000, lvl := true })).pair 0).filtc = 0 ∧
    refreshDue (r.pair 0) 3639 = false ∧ same (.refreshStart 0 3639) (st r) = true ∧ refreshDue (r.pair 0) 3640 = true ∧
    ((rd (.refreshStart 0 3640) (st r)).pair 0).refc = 1 ∧ ((rd (.refreshStart 0 3640) (st r)).pair 0).high.on = false ∧
    (e.pair 0).refresh = some 50 ∧ 50 + (e.pair 0).high.dead + fld (e.pair 0).bspw 0 12 * 64 ≤ 306 ∧
    ((rd (.refreshEnd 0 306) (st e)).pair 0).low.on = false ∧ same (.refreshEnd 0 1) (st f) = true := by decide +kernel

/-- A trip input is associated with pair 5, and both are enabled. -/
def tripped : Dev := (pr 5 fun x => { runP x with ctl := 0x80008032#32, high := { x.high with on := true } }).updTrip 5 fun x => { x with ctl := 0x80000032#32, active := 1 }

theorem test_disable_and_trip :
    let s2 := pr 5 fun x => { x with ctl := 0x80000032#32, state := .stopping }
    let a := rd (.tripAccepted 5) (st tripped)
    let low := { tripped with tb := { tripped.tb with tclk := 4 } }.updTrip 5 fun x => { x with active := 0 }
    ((rd (.dis 5) (st tripped)).pair 5).stopDue = true ∧ ((rd (.dis 5) (st tripped)).pair 5).state = .run ∧
    ((openPair 5 (rd (.dis 5) (st tripped))).pair 5).state = .stopping ∧ ((openPair 0 (rd (.dis 0) (st up))).pair 0).state = .disabled ∧
    ((rd (.stoppingDone 5) (st s2)).pair 5).state = .disabled ∧ bit ((rd (.stoppingDone 5) (st s2)).pair 5).ctl 31 = false ∧
    same (.stoppingDone 5) (st tripped) = true ∧ tripDue (up.trip 15) = false ∧ same (.tripAccepted 15) (st up) = true ∧
    tripDue (tripped.trip 5) = true ∧ Nat.testBit (bpMask (tripped.pair 5)) 5 = true ∧ (a.pair 5).state = .run ∧ (a.trip 5).hit = true ∧
    ((openPair 5 a).pair 5).state = .tripped ∧ ((openPair 5 a).pair 5).high.on = false ∧ ((openPair 5 a).pair 5).tripc = 1 ∧
    ((rd (.swtrip 15) (st up)).trip 15).soft = true ∧ ((openTrip 15 (rd (.swtrip 15) (st up))).trip 15).latch = true ∧
    ((rd (.latchClear 5) (st a)).trip 5).clrRej = true ∧
    same (.latchClear 15) (st (openTrip 15 (rd (.swtrip 15) (st up)))) = true ∧
    ((rd (.latchClear 15) (st { openTrip 15 (rd (.swtrip 15) (st up)) with tb := { up.tb with tclk := 1 } })).trip 15).latch = false ∧
    same (.tripLevelInactive 5) (st a) = true ∧ (low.trip 5).active = 0 ∧
    ((rd (.tripLevelInactive 5) (st (low.updTrip 5 fun x => { x with level := true }))).trip 5).level = false ∧
    (openPair 5 tripped).pair 5 = tripped.pair 5 := by decide +kernel

/-- R202: a sample inside a window counts as inactive up to the cap of BLANK samples, the first one being counted in BLANKC. -/
theorem test_trip_samples :
    let x (w : Bool) (r : Nat) : Trip := { (tripped.trip 5) with ball := false, window := w, raw := r }
    tiEn (x true 0) = true ∧ ((x true 0).ball == bit (x true 0).ctl 30) = true ∧ tiBlank (x true 0) = 50 ∧
    (sampleTrip (x true 0)).active = 0 ∧ (sampleTrip (x true 0)).blankc = 1 ∧ (sampleTrip (x true 49)).active = 0 ∧
    (sampleTrip (x true 50)).active = 2 ∧ (sampleTrip (x false 0)).active = 2 ∧ (sampleTrip (x false 0)).blankc = 0 := by decide +kernel

/-! ### Compositors -/

/-- Compositor 63, running, with one word at PC 63. -/
def cp (w : W32) (f : Comp → Comp) : State :=
  st (up.updComp 63 fun c => f { c with r := { c.r with ctl := 0x80400000#32, pins := 0x00080000#32, pc := 63 }, imem := [(63, w)], run := true })
def c63 (i : Instr) (w : W32) (f : Comp → Comp) : Comp := (rd i (cp w f)).comp 63

theorem test_set_out_in :
    cpExecutes ((cp 0x0300FF5A#32 id).core.dev.comp 63) 0 = true ∧ (c63 (.cpSet 63) 0x0300FF5A#32 id).levels = 0x5A#8 ∧
    (c63 (.cpSet 63) 0x0300FF5A#32 id).dly = 3 ∧ (c63 (.cpSet 63) 0x0300FF5A#32 id).r.pc = 0 ∧
    (c63 (.cpSet 63) 0x0080BEEF#32 id).r.c0 = 0xBEEF#32 ∧
    cpExecutes ((cp 0x10070000#32 id).core.dev.comp 63) 1 = true ∧ 7 < cpOcnt ((cp 0 id).core.dev.comp 63) ∧
    (c63 (.cpOut 63) 0x10070000#32 fun c => { c with r := { c.r with s := 0x8000000000000000#64, bc := 1 } }).levels = 0x80#8 ∧
    (c63 (.cpOut 63) 0x10070000#32 fun c => { c with r := { c.r with s := 0x8000000000000000#64, bc := 1 } }).r.bc = 0 ∧
    cpExecutes ((cp 0x20000000#32 id).core.dev.comp 63) 2 = true ∧
    (c63 (.cpIn 63) 0x20000000#32 fun c => { c with r := { c.r with s := 3, bc := 64 } }).r.s = 6 ∧
    cpExecutes ((cp 0x20070000#32 id).core.dev.comp 63) 2 = true ∧ 8 < fld (0x20070001#32) 16 3 + fld (0x20070001#32) 0 3 + 1 := by
  decide +kernel

theorem test_wait_mov_jmp :
    cpExecutes ((cp 0x30000000#32 id).core.dev.comp 63) 3 = true ∧ (c63 (.cpWait 63) 0x30000000#32 id).r.pc = 0 ∧
    (c63 (.cpWait 63) 0x30000100#32 id).stall = true ∧ cpExecutes ((cp 0x30800000#32 id).core.dev.comp 63) 3 = true ∧
    (c63 (.cpWait 63) 0x30800000#32 fun c => { c with r := { c.r with wt := 1 } }).stall = true ∧ (c63 (.cpWait 63) 0x30800000#32 id).r.pc = 0 ∧
    cpExecutes ((cp 0x40434000#32 id).core.dev.comp 63) 4 = true ∧ (c63 (.cpMov 63) 0x40434000#32 id).r.c1 = 0xFFFFFFFF#32 ∧
    cpExecutes ((cp 0x40100000#32 id).core.dev.comp 63) 4 = true ∧ (c63 (.cpMov 63) 0x40100000#32 id).r.pc = 63 ∧
    (c63 (.cpMov 63) 0x40100000#32 fun c => { c with r := { c.r with txf := true, txd := 9 } }).r.s = 9 ∧
    cpExecutes ((cp 0x50080007#32 id).core.dev.comp 63) 5 = true ∧ (c63 (.cpJmp 63) 0x50080007#32 id).r.pc = 0 ∧
    (c63 (.cpJmp 63) 0x50080007#32 fun c => { c with r := { c.r with c0 := 1 } }).r.pc = 7 ∧
    (c63 (.cpMov 63) 0x40100000#32 fun c => { c with r := { c.r with txf := true }, txNew := true }).r.pc = 63 ∧
    (c63 (.cpMov 63) 0x40100000#32 fun c => { c with r := { c.r with txf := true, txd := 9, stat := 0x800 }, txTry := some (4, false) }).r.txd = 4 ∧
    (c63 (.cpMov 63) 0x40100000#32 fun c => { c with r := { c.r with txf := true, txd := 9, stat := 0x800 }, txTry := some (4, false) }).r.stat = 0 := by decide +kernel

theorem test_sig_halt_illop :
    cpExecutes ((cp 0x60000000#32 id).core.dev.comp 63) 6 = true ∧ bit (c63 (.cpSig 63) 0x60000000#32 id).r.stat 8 = true ∧
    cpExecutes ((cp 0x70000000#32 id).core.dev.comp 63) 7 = true ∧ (c63 (.cpHalt 63) 0x70000000#32 id).run = false ∧
    (c63 (.cpHalt 63) 0x70000000#32 id).r.pc = 0 ∧ cpIllegal 0x80000000#32 = true ∧ (c63 (.cpIllop 63) 0x80000000#32 id).run = false ∧
    (c63 (.cpIllop 63) 0x80000000#32 id).r.pc = 63 ∧ (c63 (.compositorDelayStep 63) 0 fun c => { c with dly := 15 }).dly = 14 ∧
    ([.cpSet 63, .cpOut 63, .cpIn 63, .cpWait 63, .cpMov 63, .cpJmp 63, .cpSig 63, .cpHalt 63, .cpIllop 63,
      .compositorDelayStep 63] : List Instr).all (fun i => same i (cp 0 fun c => { c with run := false })) = true := by decide +kernel

theorem test_compositor_control :
    let h (c : Comp) : Comp := { c with run := false }
    ((rd (.txdWrite 0 9) (st up)).comp 0).r.txf = true ∧ (c63 (.txdWrite 63 9) 0 fun c => { c with r := { c.r with txf := true } }).r.stat = 0x800#32 ∧
    (c63 (.compositorStart 63 true) 0 fun c => { h c with r := { c.r with c0 := 5 } }).r.c0 = 0 ∧ (c63 (.compositorStart 63 false) 0 h).run = true ∧
    (c63 (.compositorTstart 63 true) 0 h).tpend = true ∧ ((rd (.compositorStart 0 true) (st up)).comp 0).r.stat = 0x20#32 ∧
    (c63 (.compositorHalt 63) 0 id).stop = true ∧ (cpLand (c63 (.compositorHalt 63) 0 id)).run = false ∧
    same (.compositorStart 63 true) (cp 0 id) = true ∧
    (cpLand (c63 (.compositorDisable 63) 0 id)).run = false ∧ (compPins (cpLand (c63 (.compositorDisable 63) 0 id))).1 = false ∧
    (compPins (c63 (.compositorDisable 63) 0 id)).1 = true ∧
    (compPins (cpLand ((rd (.compositorEnable 0) (st (up.updComp 0 fun c => { c with r := { c.r with oli := 9 } }))).comp 0))).2.1 = 9 ∧ cpRefused up 0 = false ∧
    ((rd (.compositorEnable 0) (st (up.updComp 0 fun c => { c with r := { c.r with oli := 9 } }))).comp 0).levels = 9 ∧
    cpRefused (up.updComp 0 fun c => { c with r := { c.r with pins := 0x00090000#32 } }) 0 = true ∧
    ((rd (.compositorEnable 0) (st (up.updComp 0 fun c => { c with r := { c.r with pins := 0x00090000#32 } }))).comp 0).r.stat = 0x20#32 ∧
    cpEn (c63 (.compositorDisable 63) 0 id) = false ∧ (c63 (.programWrite 63 0x10 0x4F) 0 h).r.pc = 15 ∧
    (c63 (.programWrite 63 0x28 7) 0 h).r.c0 = 7 ∧ Bank.get 0 (c63 (.programWrite 63 0x1FC 7) 0 h).imem 63 = 7 ∧
    isProgramReg 0x1FC = true ∧ same (.programWrite 63 0x1FC 9) (cp 9 id) = true ∧
    (c63 (.programWrite 63 0x28 7) 9 fun c => { c with fresh := true }).r.c0 = 7 ∧ (c63 (.programWrite 63 0x1FC 7) 9 id).r.stat = 0x80#32 := by decide +kernel

/-! ### Engines -/

def addWord : Microword := BitVec.ofNat 192 (0x4005 * 2 ^ 177 + 3 * 2 ^ 161 + 1 * 2 ^ 155 + 2 * 2 ^ 149 + 3 * 2 ^ 143 + 2 ^ 33)
def engOn (e c : Nat) (d : Dev) : Dev :=
  (d.updEng e fun g => { g with busy := true, ctx := c, chalted := false }).updCtx e c fun x => { x with
    pc := 0x4004, start := false, regs := [(1, 5), (2, 0xFFFFFFFFFFFFFFFB#64)] }

theorem test_microword :
    let d := engOn 15 3 { up with store := { up.store with words := [(0x4004, addWord)] } }
    let r := rd (.microword 15) (st d)
    let off := up.updEng 0 fun g => { g with online := false }
    enginesRun d = true ∧ (d.eng 15).online = true ∧ (d.eng 15).paired = false ∧ (d.eng 15).atSafe = false ∧
    fetchWord d (d.ctx 15 3).pc = addWord ∧ stalls (d.eng 15) (d.ctx 15 3) addWord = false ∧ mwAop addWord = 3 ∧ mwBop addWord = 0 ∧
    mwMdu addWord = 0 ∧ mwAng addWord = 0 ∧ mwGal addWord = 0 ∧ mwChop addWord = 0 ∧ mwDmop addWord = 0 ∧ mwTrc addWord = false ∧
    mwBcond addWord = 0 ∧ mwSeq addWord = 0 ∧ mwFa addWord = true ∧
    gReg (r.ctx 15 3) 3 = 0 ∧ (r.ctx 15 3).z = true ∧ (r.ctx 15 3).c = true ∧ (r.ctx 15 3).pc = 0x4005#15 ∧
    same (.microword 0) (st off) = true := by decide +kernel

theorem test_safe_point :
    let r := up.updEng 7 fun g => { g with ready := 1, tback := 2, tickNo := 9 }
    let w := engOn 7 2 up
    (r.eng 7).offReq = false ∧ (r.eng 7).pendFault = none ∧ (r.eng 7).chaltReq = false ∧ hasRequest r 7 = false ∧
    bit (r.eng 7).ready 1 = false ∧ bit (r.eng 7).ready 0 = true ∧ (r.ctx 7 0).start = true ∧
    ((rd (.safePoint 7) (st r)).ctx 7 0).pc = 0x10#15 ∧ gReg ((rd (.safePoint 7) (st r)).ctx 7 0) 63 = 0x20009#64 ∧
    (w.eng 7).busy = true ∧ (w.eng 7).atSafe = false ∧ same (.safePoint 7) (st w) = true ∧
    (w.eng 7).ctx = 2 ∧ bit (w.eng 7).pendWake 2 = false ∧ ((rd (.endw 7) (st w)).ctx 7 2).start = true ∧ same (.endw 7) (st r) = true := by
  decide +kernel

theorem test_engine_control :
    let l : Dev := { up with store := { up.store with openState := 2 } }
    let lone := forEach [13, 14, 15] (fun e d => d.updEng e fun g => { g with online := false }) up
    let p := (up.updEng 12 fun g => { g with paired := true }).updEng 13 fun g => { g with paired := true }
    0x6000 ≤ (l.eng 15).centry.toNat ∧ ((rd (.cstart 15) (st l)).eng 15).ready = 8 ∧ bit ((rd (.cstart 15) (st up)).eng 15).stat 12 = true ∧
    ((rd (.chalt 0) (st up)).eng 0).chaltReq = true ∧ ((staying up 3).filter fun x => x != 15).isEmpty = false ∧
    ((rd (.offlineRequest 15) (st up)).eng 15).offReq = true ∧ ((staying lone 3).filter fun x => x != 12).isEmpty = true ∧
    bit ((rd (.offlineRequest 12) (st lone)).eng 12).stat 12 = true ∧ (lone.eng 15).online = false ∧
    ((rd (.onlineRequest 15) (st lone)).eng 15).onReq = true ∧ bit ((rd (.lockWrite 14 true) (st up)).eng 14).ctl 2 = true ∧
    same (.lockWrite 15 true) (st up) = true ∧ (p.eng 14).online = true ∧ (p.eng 12).paired = true ∧
    ((rd (.lockstepMismatch 13) (st p)).eng 12).online = false ∧ ((rd (.lockstepMismatch 13) (st p)).eng 12).faultc = 1 ∧
    ((rd (.lockstepMismatch 13) (st p)).eng 14).online = true := by decide +kernel

/-- A block of cluster 3's memory at word FFFCh: an image of channel 9 at angle 5 with D 64. -/
def blkDev (f : Slug → Slug) : Dev :=
  glOff ({ up with mem := [(0x4FFFD, 64), (0x4FFFE, 5), (0x4FFFF, BitVec.ofNat 64 (9 * 2 ^ 25))] }.updSlug 6 fun s => f { s with seq := 3, chan := 7 })
def v6 : W64 := 0x0000000600000003#64

theorem test_galley_port :
    let d := blkDev fun s => { s with state := .parked }
    let dn := blkDev fun s => { s with state := .done }
    let pa := d.updAxis 0 fun x => { x with trk := { x.trk with ang := 4 } }
    let n := slugOfImage (d.read256 (dataAddr 3 0xFFFC))
    issues 15 d = true ∧ isBlock 0xFFFC = true ∧ fld v6 32 18 = 6 ∧ loWord v6 = (d.slug 6).seq ∧ n.chan = 9 ∧ n.angle = 5 ∧
    imageReserved (pa.read256 (dataAddr 3 0xFFFC)) = false ∧ badSlug n = false ∧ nextFresh pa pa.gs.fresh = 0 ∧
    0 < sdiff n.angle (published pa n.axis) ∧ ((rd (.ins 15 3 0xFFFC) (st pa)).slug 0).chan = 9 ∧ ((rd (.ins 15 3 0xFFFC) (st pa)).ctx 15 3).galCode = 0 ∧
    bit d.gl.cfg 0 = false ∧ bit d.gl.cfg 4 = false ∧ ((rd (.rem 15 3 v6) (st d)).slug 6).state = .cancelled ∧
    badSlug { d.slug 6 with
      angle := n.angle, tofs := n.tofs, dur := n.dur, dmin := n.dmin, dmax := n.dmax, revp := n.revp, losp := n.losp } = false ∧
    ((rd (.mod 15 3 v6 0xFFFC) (st d)).slug 6).angle = 5 ∧ findEntry d 6 = none ∧ badSlug { d.slug 6 with dur := n.dur } = false ∧
    ((rd (.modd 15 3 v6 0xFFFC) (st d)).slug 6).dur = 64 ∧ loWord v6 = (dn.slug 6).seq ∧
    ((rd (.galleyPortFree 15 3 v6) (st dn)).slug 6).state = .free := by decide +kernel

theorem test_galley_port_lists :
    let d := blkDev fun s => { s with state := .parked, used := true }
    let dp := blkDev fun s => { s with state := .pending, used := true }
    let dn := blkDev fun s => { s with state := .done }
    let r := rd (.pop 15 3 0 0xFFF0) (st d)
    axisSlugs d 0 .parked = [(6, d.slug 6)] ∧ atOrAfter (d.read64 (dataAddr 3 0xFFF0 + 4)) (d.slug 6).angle = true ∧
    (r.slug 6).state = .pending ∧ r.read64 0x4FFF0 = 3#64 ∧ axisSlugs d 4095 .parked = [] ∧ ((rd (.pop 15 3 4095 0) (st d)).ctx 15 3).galCode = 6 ∧
    axisSlugs dp 0 .pending = [(6, dp.slug 6)] ∧ fld 0x0003FFFF00000000#64 32 18 = 0x3FFFF ∧
    (rd (.pend 15 3 0 0x0003FFFF00000000#64 0xFFF0) (st dp)).read64 0x4FFF0 = 3#64 ∧
    slugStateOf (fld (2#32) 0 3) = .pending ∧ ((rd (.mark 15 3 v6 2) (st d)).slug 6).state = .pending ∧
    ((rd (.mark 15 3 v6 2) (st dn)).ctx 15 3).galCode = 5 ∧ (d.slug 6).state ≠ .free ∧
    (rd (.galleyPortRead 15 3 v6 0) (st d)).read64 0x40000 = 3#64 ∧ loWord 0#64 = (d.slug 0).seq ∧
    ((rd (.galleyPortRead 15 3 0 0) (st d)).ctx 15 3).galCode = 3 := by decide +kernel

theorem test_channel_bus :
    let pl := up.updOut 511 fun o => { o with ctl := 0 }
    let mx := ({ up with mem := [(0x4FFF1, 7)] }.updAxis 4095 fun x => { axOn 0 x with st := { x.st with sync := .locked, model := true } })
    let rm := up.updAxis 4095 (axOn 1)
    (up.ctx 15 3).retq.length < 4 ∧ ((rd (.crd 15 3 511 0x18) (st (up.updCnt 511 fun c => { c with cnt := 5 }))).ctx 15 3).retq = [some 5] ∧
    chShd (pl.chOut 511) = false ∧ ((rd (.cwr 15 3 511 0x0C 9) (st pl)).chOut 511).writes = [⟨true, 12, 9⟩] ∧
    ((rd (.ard 15 3 4095 0x10) (st up)).ctx 15 3).retq = [some 250000] ∧ ((rd (.awr 15 3 4095 0x10 9) (st up)).axis 4095).cfg.ghmax = 9 ∧
    (rd (.decrd 15 3 255 15 0 0xFFF0) (st (up.updDec 255 fun c => { c with total := 4, ring := Bank.set {} [] 15 { stamp := 9 } }))).read64 0x4FFF0 = 4 ∧
    (rd (.decrd 15 3 255 15 0 0xFFF0) (st (up.updDec 255 fun c => { c with total := 4, ring := Bank.set {} [] 15 { stamp := 9 } }))).read64 0x4FFF6 = 9 ∧
    loadValid up 0 = false ∧ ((rd (.mload 15 3 0 0) (st up)).ctx 15 3).retq = [some 2] ∧
    loadValid mx 4095 = true ∧ (mx.read64 (dataAddr 3 0xFFF0)).toInt = (mx.axis 4095).trk.c ∧ (mx.axis 4095).st.dir = false ∧
    ((rd (.mload 15 3 4095 0xFFF0) (st mx)).axis 4095).trk.pace.rate = 7 ∧
    takesSegment up 0 = false ∧ ((rd (.segld 15 3 0 0) (st up)).ctx 15 3).retq = [some 2] ∧
    axEn (rm.axis 4095) = true ∧ axKind (rm.axis 4095) = 1 ∧ ((rd (.segld 15 3 4095 0) (st rm)).axis 4095).mdl.segOn = true := by decide +kernel

theorem test_channel_bus_entries :
    let c := up.updChase 15 fun c => { c with entries := Bank.set none [] 63 (some (entry0 9)) }
    let cm := c.updChase 15 fun x => { x with committed := some 63 }
    let full := up.updCtx 15 3 fun x => { x with retq := [none, some 1, some 1, some 1] }
    let f : Dev := { up with gs := { up.gs with flight := List.replicate 2047 occ0 } }
    ((rd (.chrd 15 3 511 0) (st (up.updCap 511 fun c => { c with caps := 6 }))).chCap 511).caps = 0 ∧
    isStage up 511 = false ∧ stagesAbove up 511 = [] ∧ ((rd (.chwr 15 3 511 0xFFFE) (st { up with mem := [(0x4FFFE, 5)] })).chCnt 511).wr = some 5 ∧
    fifoFull f = true ∧ ((rd (.arm 15 3 0) (st f)).ctx 15 3).retq = [some 3] ∧
    (match Bank.get none ((rd (.retime 15 3 1023 0 0xFFFE) (st { c with mem := [(0x4FFFE, 5)] })).chase 15).entries 63 with
      | some x => decide (x.t = 5 ∧ x.g = 0) | none => false) = true ∧
    commitsNow c 15 63 = false ∧ Bank.get none ((rd (.wdraw 15 3 1023) (st c)).chase 15).entries 63 = none ∧
    commitsNow cm 15 63 = true ∧ ((rd (.wdraw 15 3 1023) (st cm)).ctx 15 3).retq = [some 0x03FF0001] ∧
    Bank.get none ((rd (.wdraw 15 3 1023) (st cm)).chase 15).entries 63 = some (entry0 9) ∧
    (match Bank.get none ((rd (.durw 15 3 1023 7) (st c)).chase 15).entries 63 with | some x => decide (x.d = 7) | none => false) = true ∧
    Bank.get none (up.chase 15).entries 63 = none ∧ ((rd (.wdraw 15 3 1023) (st up)).ctx 15 3).retq = [some 0x03FF0001] ∧
    ((rd (.cpop 15 3 63 0 9) (st up)).comp 63).r.txf = true ∧ ((rd (.greg 15 3 0x80021FC4 0xFFFFF) (st up)).pair 127).dtr = 0x3FFFF#32 ∧
    4 ≤ (full.ctx 15 3).retq.length ∧ (full.eng 15).pendFault = none ∧ ((rd (.wdraw 15 3 0) (st full)).ctx 15 3).faulted = true := by
  decide +kernel

theorem test_lanes_and_open_forme :
    let o : ChanOp := ⟨12, 3, 0xC, 1023, 0, 0, 0, [], none⟩
    let d : Dev := { up.updCtx 12 3 fun x => { x with retq := [none] } with lanes := Bank.set {} [] 3 { ops := [o] } }
    let l : Core := { vault := { lifecycle := .field }, dev := { up with store := { up.store with openState := 1, openPrev := 2 } } }
    same (.channelBusGrant 3) (st up) = true ∧ (d.lane 3).ops = [o] ∧ (d.ctx 12 3).retq = [none] ∧
    Bank.get none (d.chase (1023 / 64)).entries (1023 % 64) = none ∧ ((rd (.channelBusGrant 3) (st d)).ctx 12 3).retq = [some 0x03FF0001] ∧
    ((rd (.channelBusGrant 3) (st d)).lane 3).ops = [] ∧ same .openFormeLoadDone (st up) = true ∧
    openEnd l l.dev.store.image = ⟨.lifecycle, 1, 0⟩ ∧ (rd .openFormeLoadDone { core := l }).store.openState = 2 := by decide +kernel

/-! ### Interrupts and crossings -/

theorem test_interrupt_records :
    let e : Nat → Dev → Dev := fun n d => rd (.interruptEvent n) (st d)
    let act := up.updSource 1023 fun s => { s with act := true }
    ((e 1023 up).source 1023).pend = true ∧ ((e 1023 (e 1023 up)).source 1023).lost = true ∧
    ((rd (.icDbell 255) (st up)).source 255).pend = true ∧ (rd (.icDbell 256) (st up)).ic.stat = 1 ∧
    ((rd (.icSetp 31 0x80000000) (st up)).source 1023).pend = true ∧
    ((rd (.icPendClear 31 0x80000000) (st (e 1023 up))).source 1023).pend = false ∧
    ((rd (.icPendClear 15 0x80000000) (st (up.updSource 511 fun s =>
      { s with src := 0xC000#32, pend := true, level := true }))).source 511).pend = true ∧
    isTarget 0 = true ∧ srcTgt (act.source 1023) = 0 ∧ ((rd (.complete 0 1023) (st act)).source 1023).act = false ∧
    (rd (.complete 31 1023) (st up)).ic.stat = 4 ∧ srcEn (up.source 0x3AD) = false ∧
    srcPri ((rd (.icSourceWrite 0x3AD 0x80000007) (st up)).source 0x3AD) = 7 ∧
    (rd (.icSourceWrite 0x3AF 0x80000007) (st up)).ic = { up.ic with stat := 4 } ∧
    ((rd (.claimableSpanEnd 5) (st (up.updSource 5 fun s => { s with span := true }))).source 5).span = false := by decide +kernel

theorem test_vectors_pins_wakes :
    let pend := up.updSource 9 fun s => { s with src := 0x80030001#32, pend := true }
    let v : Dev := { pend with hi := { pend.hi with pcie := { pend.hi.pcie with msixEn := true } } }
    let h : Dev := { up with pw := { up.pw with state := .hold, waking := true, wakeCause := 2, wakeSource := 0x100 } }
    let w := h.updSource 0x1FF fun s => { s with wakeArmed := true }
    winner 3 v = some 9 ∧ v.ic.vlevel.getLsbD 3 = false ∧ v.hi.pcie.mask.getLsbD 3 = true ∧ v.hi.pcieReset = false ∧
    (rd (.hostVectorMessage 3) (st v)).hi.pcie.pend = 8 ∧ winner 0 up = none ∧ same (.hostVectorMessage 0) (st up) = true ∧
    srcSense (up.source 0x1FF) = 0 ∧ ((rd (.pinSenseAccept 255 true) (st up)).source 0x1FF).pend = true ∧
    ((rd (.pinSenseAccept 255 false) (st up)).source 0x1FF).pend = false ∧
    (up.hi.pcie.msixEn && up.hi.pcie.pend.getLsbD 3 && up.ic.vlevel.getLsbD 3) = false ∧ (rd (.msixUnmask 3) (st up)).hi.pcie.mask = 7 ∧
    up.pw.state ≠ .hold ∧ same (.wakeLatch 255 true) (st up) = true ∧ wakeLatchCatches (w.source 0x1FF) true = true ∧
    ((rd (.wakeLatch 255 true) (st w)).source 0x1FF).wakeSet = true := by decide +kernel

theorem test_crossings :
    let m := up.updMac 3 fun x => { x with cfg := 0xA0000000#32 }
    up.ic.xsel = 0 ∧ (rd (.pcieReset 0) (st up)).ic.xstat = 4 ∧ Bank.get 0 (rd (.pcieReset 70000) (st up)).ic.xovr 2 = 0xFFFF#16 ∧
    (rd (.macLineReset 3 0) (st up)).ic.xstat = 0x80#32 ∧ (rd (.crossingResync 0) (st (rd (.pcieReset 0) (st up)))).ic.xstat = 0 ∧
    (rd (.crossingResync 1) (st { up with hi := { up.hi with qspiReset := true } })).hi.qspiReset = false ∧
    emEnabled (m.mac 3) = true ∧ (rd (.crossingResync 5) (st (rd (.macLineReset 3 0) (st m)))).ic.xstat = 0 ∧
    same (.crossingResync 5) (st up) = true := by decide +kernel

/-! ### Field ports -/

/-- R334: the CRC of "123456789". -/
theorem test_crc : crc16 [0x31, 0x32, 0x33, 0x34, 0x35, 0x36, 0x37, 0x38, 0x39] = 0x29B1#16 := by decide +kernel

def resp (h : Nat) (sts : Byte) (body : List Byte) : List Byte :=
  let l := [BitVec.ofNat 8 (128 + h % 32), sts] ++ body
  l ++ beBytes 2 (crc16 l).toNat

/-- Port 63, enabled, with a head of type `ty` at its address 31 and an exchange on its line. -/
def port (ty : Nat) (line : Option Exchange) : Dev :=
  (up.updFp 63 fun f => { f with cfg := orBit f.cfg 31, line := line }).updHead 2047 fun x =>
    { x with enumd := true, htype := ty, cap := 15, use := 0x80010000#32, cfg := 0x80010000#32 }

theorem test_exchange_start :
    let d := port 1 none
    let q : EdgeEntry := ⟨100, true, 1, 0, 0⟩
    let gd := { port 2 none with tb := { up.tb with tclk := 9 } }.updHead 2047 fun x => { x with eq := [q, { q with tclk := 6 }] }
    let a := d.updFp 63 fun f => { f with acy := [{ head := 2047, kind := .identify }] }
    fpEn (d.fp 63) = true ∧ planned (d.head 2047) (d.head 2047).use = true ∧ hdRph (d.head 2047).use = 0 ∧
    d.tick.number.toNat % 2 ^ hdRdiv (d.head 2047).use = 0 ∧ (planSlot d 63 fun h => (d.head h).use).isNone = false ∧ (d.head 2047).sent = [] ∧
    ((rd (.cyclicExchangeStart 2047) (st d)).head 2047).seqb = 1 ∧ ((rd (.cyclicExchangeStart 2047) (st d)).fp 63).line.isSome = true ∧
    ((rd (.cyclicExchangeStart 2047) (st gd)).head 2047).sent = [q] ∧ ((rd (.cyclicExchangeStart 2047) (st gd)).head 2047).eq.length = 2 ∧
    fpEn (up.fp 0) = false ∧ same (.cyclicExchangeStart 0) (st up) = true ∧
    (bitGrains (a.fp 63) 160 : Int) ≤ sdiff a.tick.next a.tb.time ∧ ((rd (.acyclicExchangeStart 63) (st a)).fp 63).acy = [] := by
  decide +kernel

theorem test_responses :
    let e : Exchange := { head := 2047, n := 1 }
    let g := resp 2047 5 []
    let en := (port 1 (some e)).updAxis 4 fun x => { axOn 1 x with cfg := { (axOn 1 x).cfg with src := 2047 } }
    let ns := resp 2047 0x15 [1, 2, 3]
    let n := resp 2047 5 [1, 2, 3]
    let i := resp 2047 5 [0x34, 0x12]
    frameStatus g = 5 ∧ bit (5 : Byte) 6 = false ∧ bit (5 : Byte) 7 = false ∧ bit (5 : Byte) 4 = false ∧ frameGood e g false 0 = true ∧
    ((rd (.gateDriveResponse 63 g false) (st (port 2 (some e)))).head 2047).hstat = 5 ∧
    frameStatus n = 5 ∧ frameGood e n false (3 * e.n) = true ∧ ((rd (.encoderResponse 63 n false) (st (port 1 (some e)))).fp 63).line = none ∧
    axesOfHead en 2047 = [4] ∧ frameGood e ns false (3 * e.n) = true ∧ bit (0x15 : Byte) 4 = true ∧
    ((rd (.encoderResponse 63 ns false) (st en)).axis 4).mdl.samples = [(0x30201#32, 0, 0)] ∧
    frameStatus i = 5 ∧ frameGood e i false 2 = true ∧ ((rd (.ioResponse 63 i false) (st (port 3 (some e)))).head 2047).inputs = 0x1234#16 ∧
    e.tries < fpRetry ((port 2 (some e)).fp 63) ∧ ((rd (.noResponse 63) (st (port 2 (some e)))).fp 63).retryc = 1 ∧
    fpRetry ((port 2 (some e)).fp 63) ≤ 1 ∧ bit ((rd (.noResponse 63) (st (port 2 (some { e with tries := 1 })))).head 2047).stat 3 = true ∧
    ([.noResponse 63, .gateDriveResponse 63 [] true, .encoderResponse 63 [] true, .ioResponse 63 [] true, .identifyResponse 63 [] true 0,
      .readResponse 63 [] true, .writeResponse 63 [] true] : List Instr).all (fun i => same i (st (port 1 none))) = true := by decide +kernel

theorem test_acyclic_responses :
    let ir : AcyReq := { head := 2047, kind := .identify }
    let rr : AcyReq := { head := 2047, kind := .read 9 3, done := 1 }
    let wr : AcyReq := { head := 2047, kind := .setup 3 1 8 64 2, done := 7 }
    let e (r : AcyReq) : Exchange := { head := 2047, acy := some r, n := 1 }
    let i4 := resp 2047 0 [1, 2, 3, 4]
    let r2 := resp 2047 0 [9, 0xAB]
    let w1 := resp 2047 0 [0]
    frameGood (e ir) i4 false 4 = true ∧ 2 * ((3200 + 32) / 64 * 32) ≤ bitGrains ((port 0 none).fp 63) 10 ∧
    ((rd (.identifyResponse 63 i4 false 3200) (st (port 0 (some (e ir))))).fp 63).acy.length = 1 ∧
    rr.kind = .read 9 (rr.done + (e rr).n + 1) ∧ frameGood (e rr) r2 false (1 + (e rr).n) = true ∧
    ((rd (.readResponse 63 r2 false) (st (port 1 (some (e rr))))).fp 63).acy.map (fun r => (r.done, r.got)) = [(2, [0xAB#8])] ∧
    frameGood (e wr) w1 false 1 = true ∧ ((port 0 none).fp 63).enumAt = none ∧
    ((rd (.writeResponse 63 w1 false) (st (port 0 (some (e wr))))).head 2047).htype = 3 ∧
    ((rd (.writeResponse 63 w1 false) (st (port 0 (some (e wr))))).head 2047).q = 2 := by decide +kernel

theorem test_port_commands :
    let b := up.updFp 63 fun f => { f with cfg := 0x10000300#32 }
    let busy := up.updFp 63 fun f => { f with planBusy := true }
    let en : Dev := { up with lo := { up.lo with enum := { up.lo.enum with op := { up.lo.enum.op with state := 1 } } } }
    fld (b.fp 63).cfg 8 8 < 4 ∧ ((rd (.portEnable 63) (st b)).fp 63).stat = 4 ∧ 4 ≤ fld (up.fp 63).cfg 8 8 ∧
    (planSlot (up.updFp 63 fun f => { f with cfg := orBit f.cfg 31, shifted := false }) 63 (stagedCfg up)).isSome = true ∧
    fpEn ((rd (.portEnable 63) (st up)).fp 63) = true ∧ fpEn ((rd (.portDisable 63) (st (port 1 none))).fp 63) = false ∧
    ((port 1 none).fp 63).acy = [] ∧ same (.portDisable 63) (st up) = true ∧
    same (.load 63) (st (up.updFp 63 fun f => { f with offIn := some 0 })) = true ∧ ((rd (.load 63) (st busy)).fp 63).stat = 0x400#32 ∧
    (planSlot up 63 (stagedCfg up)).isSome = true ∧ ((rd (.load 63) (st up)).fp 63).planBusy = true ∧
    ((rd (.enum 63) (st up)).fp 63).stat = 4 ∧ up.lo.enum.op.state ≠ 1 ∧ ((rd (.enum 63) (st (port 1 none))).fp 63).enumAt = some 0 ∧ same .enumerationDone (st up) = true ∧
    (en.fps.all fun e => e.2.enumAt.isNone) = true ∧ en.lo.enum.boot = false ∧ en.lo.enum.refused = false ∧
    (rd .enumerationDone (st en)).lo.enum.op.state = 2 := by decide +kernel

/-! ### Bamben Link -/

/-- Role `r`, MAC 3 enabled and in the mask, the servo LOCKED. -/
def linked (r : Nat) : Dev :=
  let d := up.updMac 3 fun x => { x with cfg := 0xA0000000#32, linkUp := true }
  { d with
    tb := { d.tb with ctl := BitVec.ofNat 32 (2 * r) }, so := { d.so with servo := .locked }
    lk := { d.lk with cfg := { d.lk.cfg with linkMask := 8 }, accepted := true, srcMac := 7 } }
def frame0 (t : Time64) (g : BitVec 8) : Trajectory := ⟨1, 0, g, false, 0xFFFF, t, 31250, 31250, 0, 5, 6, []⟩
def gateOn (d : Dev) : Dev := d.updMac 3 fun x => { x with gate := true }

theorem test_gates :
    let m := linked 3
    let f : Dev := { m with lk := { m.lk with formed := some (frame0 0 0) } }
    cyclicMac up 3 = false ∧ same (.cyclicGateOpen 3) (st up) = true ∧ cyclicMac m 3 = true ∧ m.lk.formed = none ∧
    ((rd (.cyclicGateOpen 3) (st m)).mac 3).gate = true ∧ bit f.lk.sentOn 3 = false ∧
    fitsWindow f (f.mac 3) 0 (linkPayload f 1 f.tick.number (trajBody (frame0 0 0))).length = true ∧
    (rd (.cyclicGateOpen 3) (st f)).lk.sent.length = 1 ∧ roleManager (linked 1) = false ∧
    ((rd (.cyclicGateClose 3) (st (gateOn (linked 1)))).mac 3).gate = false ∧ same (.cyclicGateClose 3) (st m) = true ∧
    (gateOn m).lk.sentOn = 0 ∧ bit ((rd (.cyclicGateClose 3) (st (gateOn m))).mac 0).stat 9 = true ∧
    (rd (.cyclicGateClose 3) (st ((gateOn (linked 1)).updMac 3 fun x => { x with held := [.reply 1 9 [1], .datagram 2 []] }))).lk.replies = [(3, 1, 9, [1])] := by decide +kernel

theorem test_trajectories :
    let w := linked 1
    let w2 : Dev := { w with lk := { w.lk with gen := 5 } }
    isTrajectory (frame0 0 0) = true ∧ (frame0 0 0).domain = w.lk.cfg.domainId ∧ tbRole w.tb = 1 ∧ timeHeld w = true ∧
    isTrajectory { frame0 0 0 with domain := 2 } = true ∧
    (rd (.trajectoryFrame 3 7 { frame0 0 0 with domain := 2 }) (st w)).lk.taken = none ∧
    atOrAfter w.tb.time 0#64 = true ∧ ((rd (.trajectoryFrame 3 7 (frame0 0 0)) (st w)).mac 3).latec = 1 ∧
    atOrAfter w.tb.time 2000000#64 = false ∧ genAfter w2.lk.gen 4#8 = true ∧
    ((rd (.trajectoryFrame 3 7 (frame0 2000000 4)) (st w2)).mac 3).stalec = 1 ∧
    w.lk.copyTick ≠ some 0xFFFF#16 ∧ gridMismatch w { frame0 2000000 0 with tick := 0 } = false ∧
    (rd (.trajectoryFrame 3 7 { frame0 2000000 0 with tick := 0 }) (st w)).lk.heard = true ∧
    (rd (.trajectoryFrame 3 7 { frame0 2000000 0 with tick := 0 }) (st w)).so.epochNs = 6 := by decide +kernel

theorem test_members :
    let m := linked 3
    let k := m.updMember 255 fun x => { x with known := true }
    (roleFollows m && cyclicMac m 3 && m.lk.accepted) = false ∧ same (.summarySend 3) (st m) = true ∧
    (roleFollows (linked 2) && cyclicMac (linked 2) 3 && (linked 2).lk.accepted) = true ∧
    ((rd (.summarySend 3) (st (linked 2))).mac 3).sumdropc = 1 ∧ (m.member 255).known = false ∧
    ((rd (.summary 3 1 7 255 0 (List.replicate 33 1)) (st m)).member 255).inbox = some (0, List.replicate 33 1, false) ∧
    (takeInbox 1 ((rd (.summary 3 1 7 255 0 (List.replicate 33 1)) (st m)).member 255)).summary.length = 32 ∧
    (takeInbox 0 ((rd (.summary 3 1 7 255 0 (List.replicate 33 1)) (st m)).member 255)).summary = [] ∧
    (takeInbox 1 ((rd (.fullStatus 3 1 7 255 0 (List.replicate 300 1)) (st m)).member 255)).full.length = 256 ∧
    summaryLate m 0 = false ∧ summaryLate m 0xFFFF = true ∧ ((rd (.summary 3 1 7 255 0xFFFF []) (st m)).mac 3).latec = 1 ∧ roleFollows m = false ∧ same (.masterLost 63) (st m) = true ∧
    derivedAxes (linked 1) 63 = [] ∧ bit (rd (.masterLost 63) (st (linked 1))).lk.lostMask 63 = true ∧
    ((rd (.workerLost 255) (st k)).member 255).lost = true ∧ same .takeover (st m) = true ∧
    domState (linked 2) ≠ .standby ∧ (rd .takeover (st (linked 2))).lk.blocked = 1 ∧
    domState { linked 2 with lk := { (linked 2).lk with state := .standby } } = .standby ∧
    tbRole (rd .takeover (st { linked 2 with lk := { (linked 2).lk with state := .standby } })).tb = 3 := by decide +kernel

theorem test_link_services :
    let d := linked 1
    let req : List Byte := [0x42, 0x4C, 1, 1, 1, 1, 0, 0]
    let ses : Session := ⟨5, 65535, 3, 9, true, []⟩
    let b := d.setSession 7 (some ses)
    macServes d 3 = true ∧ (rd (.arp 3 9 (d.mac 3).ip) (st d)).lk.replies.length = 1 ∧
    (rd (.icmpEcho 3 9 (d.mac 3).ip [1] true) (st d)).lk.replies = [(3, 1, 9, [1])] ∧ same (.icmpEcho 3 9 (d.mac 3).ip [1] false) (st d) = true ∧
    same (.arp 3 9 1) (st d) = true ∧ macServes up 0 = false ∧ same (.acyclicDatagram 0 1 65535 0 d.lk.cfg.udpPort [] true) (st up) = true ∧
    same (.acyclicDatagram 3 1 65535 1 d.lk.cfg.udpPort [] true) (st d) = true ∧ same (.acyclicDatagram 3 1 65535 (d.mac 3).ip 1 [] true) (st d) = true ∧
    same (.acyclicDatagram 3 1 65535 (d.mac 3).ip d.lk.cfg.udpPort [] false) (st d) = true ∧
    ((rd (.icmpEcho 3 9 (d.mac 3).ip [1] true) (st (gateOn d))).mac 3).held = [.reply 1 9 [1]] ∧
    ((rd (.arp 3 9 (d.mac 3).ip) (st (gateOn d))).mac 3).held.length = 1 ∧
    ((rd (.acyclicDatagram 3 5 65535 (d.mac 3).ip d.lk.cfg.udpPort req true) (st (gateOn b))).mac 3).held.length = 1 ∧
    ((rd (.acyclicDatagram 3 1 65535 (d.mac 3).ip d.lk.cfg.udpPort [1, 2, 3, 4, 5, 6, 7] true) (st d)).mac 3).acyerr = 1 ∧
    sessionOf b 5 65535 = some (7, ses) ∧ (rd (.acyclicDatagram 3 5 65535 (d.mac 3).ip d.lk.cfg.udpPort req true) (st b)).ds.sent.length = 1 ∧
    same (.sessionExpiry 0) (st b) = true ∧ (rd (.sessionExpiry 7) (st b)).session 7 = none ∧
    emEnabled ((rd (.macEnable 3) (st up)).mac 3) = true ∧ ((rd (.macDisable 3 70000) (st d)).mac 3).rxdropc = 0xFFFF#16 ∧
    same (.macDisable 3 70000) (st up) = true ∧ bit ((rd (.linkDown 3) (st d)).mac 3).stat 3 = true ∧
    ((rd (.linkUp 0) (st up)).mac 0).linkUp = true ∧ ((rd (.receiveError 3) (st d)).mac 3).rxerrc = 1 ∧ same (.receiveError 0) (st up) = true := by
  decide +kernel

/-! ### The dictionary -/

/-- The object of an index and a subindex meets `f`; it is absent with code `e`. -/
def obj (i k : Nat) (c : Core) (f : Obj → Bool) : Bool := match findObj i k c with | .ok o => f o | .error _ => false
def missing (i k : Nat) (c : Core) (e : DictCode) : Bool := match findObj i k c with | .ok _ => false | .error x => decide (x = e)
def answer (i : Instr) (s : State) (w : Nat) : List Byte := ((rd i s).user w).answer

theorem test_absent_objects :
    let c := (st up).core
    enginesRun up = true ∧ isRequester (.session 7) = true ∧ isRequester (.session 8) = false ∧
    missing 0xFFFF 0xFF c .noObject = true ∧ missing 0x1100 0xFF c .noSub = true ∧ indexPresent 0xFFFF c = false ∧
    answer (.read (.session 7) 0xFFFF 0xFF) (st up) 9 = responseBody 1 .noObject 0xFFFF 0xFF 0 0 [] ∧
    answer (.keyedWrite .qspi 0x1100 0xFF []) (st up) 1 = responseBody 3 .noSub 0x1100 0xFF 0 0 [] := by decide +kernel

theorem test_reads_and_writes :
    let s := st up
    let wk : Dev := { up with tb := { up.tb with ctl := 2 } }
    let snap := st (up.updUser 0 fun u => { u with snap := some ⟨0x1100, 0x12, [7, 8], 0⟩ })
    obj 0x1100 0x12 s.core (fun o => o.acc == 1 && o.rd .pcie s.core == [0, 0] && (valueFault o [1] == some .typeErr) && valueFault o [1, 2] == none) = true ∧
    obj 0x2080 1 s.core (fun o => o.acc == 2) = true ∧ obj 0x2080 4 s.core (fun o => o.acc == 0) = true ∧
    obj 0x1100 0 s.core (fun o => o.acc == 4) = true ∧ obj 0x2000 2 s.core (fun o => o.acc == 3) = true ∧
    obj 0x2050 1 s.core (fun o => o.acc == 1 && decide (1452 < (o.rd .pcie s.core).length)) = true ∧ isParam 0x2050 1 = false ∧
    roleFirst 0x2010 3 wk = true ∧ answer (.write .pcie 0x2010 3 [1]) (st wk) 0 = responseBody 2 .role 0x2010 3 tyU32 0 [] ∧
    roleFirst 0x2010 3 up = false ∧ answer (.write .pcie 0x2010 3 [1]) s 0 = responseBody 2 .typeErr 0x2010 3 tyU32 0 [] ∧
    answer (.write .pcie 0x1100 0x12 [1, 2]) s 0 = responseBody 2 .ok 0x1100 0x12 tyU16 2 [] ∧
    (rd (.write .pcie 0x1100 0x12 [1, 2]) s).lk.cfg.appWord = 258 ∧
    answer (.write .pcie 0x1100 0x12 [1]) s 0 = responseBody 2 .typeErr 0x1100 0x12 tyU16 0 [] ∧
    answer (.write .pcie 0x2000 2 [1]) s 0 = responseBody 2 .key 0x2000 2 tyU8 0 [] ∧
    answer (.readSeg .pcie 0x1100 0x12 1 65535) snap 0 = responseBody 5 .ok 0x1100 0x12 tyU16 2 [8] ∧
    (s.core.dev.user 0).snap = none ∧ answer (.readSeg .pcie 0x1100 0x12 1 1) s 0 = responseBody 5 .segment 0x1100 0x12 tyU16 0 [] ∧
    isParam 0x3CFF 0x21 = true ∧ obj 0x3CFF 0x21 s.core (fun o => o.acc == 1) = true ∧ fpEn (up.fp ((0x3CFF - 0x3500) / 32)) = false := by
  decide +kernel

theorem test_segmented_writes :
    let q := st (up.updUser 0 fun u => { u with stage := some { index := 0x1100, sub := 0x12, bytes := [7] } })
    ((rd (.writeSeg .pcie 0x1100 0x12 0 false [7]) (st up)).user 0).stage.map (·.bytes) = some [7] ∧
    (q.core.dev.user 0).stage.isSome = true ∧ ((rd (.writeSeg .pcie 0x1100 0x12 1 false [8]) q).user 0).stage.map (·.bytes) = some [7, 8] ∧
    (rd (.writeSeg .pcie 0x1100 0x12 1 true [8]) q).lk.cfg.appWord = 0x708 ∧
    answer (.writeSeg .pcie 0x1100 0x12 4294967295 true []) q 0 = responseBody 6 .segment 0x1100 0x12 tyU16 0 [] ∧
    obj 0x1100 0x12 (setStage .pcie none q.core) (fun o => o.acc == 1 && valueFault o [1, 2] == none) = true ∧
    (rd (.writeSeg .pcie 0x1100 0x12 0 true [1, 2]) q).lk.cfg.appWord = 258 := by decide +kernel

/-- A customer index with six strings of 248 bytes. -/
def strings : Core := { dev := { up with
  ds := { up.ds with custom := (List.range 6).map fun i => ⟨0x7001, i + 1, 12, 0, false, 0⟩ }
  mem := (List.range 31).map fun i => (0x21E000 + i, 1) } }

theorem test_read_all :
    let t := { core := strings : State }
    indexPresent 0x1012 (st up).core = true ∧ subsOf 0x1012 (st up).core = [1, 2, 3, 4] ∧
    answer (.readAll .pcie 0x1012) (st up) 0 = responseBody 7 .ok 0x1012 0 0 22 ([1, 13, 0, 2, 2, 1, 255, 3, 2, 1, 0, 4, 5, 8] ++ List.replicate 8 0) ∧
    ((subsOf 0x7001 strings).all fun k => obj 0x7001 k strings fun o => decide ((o.rd .pcie strings).length ≤ 255)) = true ∧
    answer (.readAll .pcie 0x7001) t 0 = responseBody 7 .tooBig 0x7001 0 0 0 [] := by decide +kernel

theorem test_slug_objects :
    let d := glOff (up.updSlug 6 fun s => { s with state := .parked, seq := 3 })
    let rm : List Byte := [0, 0, 0, 6, 0, 0, 0, 3]
    let im : List Byte := List.replicate 11 0 ++ [64] ++ List.replicate 7 0 ++ [5] ++ List.replicate 12 0
    (d.slug (beNat rm / 2 ^ 32 % 2 ^ 18)).state = .parked ∧ ((rd (.slugRemoveObject .pcie rm) (st d)).slug 6).state = .cancelled ∧
    im.length = 32 ∧ imageReserved (bytesImage im) = false ∧ badSlug (slugOfImage (bytesImage im)) = false ∧
    (slugOfImage (bytesImage im)).angle = 5 ∧ 0 < sdiff (slugOfImage (bytesImage im)).angle (published d (slugOfImage (bytesImage im)).axis) ∧
    ((rd (.slugInsertObject .pcie im) (st d)).slug 0).dur = 64 := by decide +kernel

/-! #### Keyed writes -/

def key0 : BitVec 256 := 77
def vault0 : Vault := { slots := [(0, { state := .valid, key := key0 })] }
def tag0 : List Byte := keyTag key0 (tagMessage 0x2000 2 [1] ⟨0, 1, []⟩)
def trail (tag : List Byte) : List Byte := [0, 0, 0, 0, 0, 0, 0, 0, 0, 0, 0, 0, 0, 0, 0, 1] ++ tag

/-- A keyed write of ROLE under slot 0, whatever the hash function: checks 2 to 6 pass, and the value is one of its object's. -/
theorem test_keyed_write_passes :
    (trail tag0).length = 32 ∧ allZero (slice (trail tag0) 1 7) = true ∧ keyedKindOf 0x2000 2 = .plain 2 ∧
    keyedFailure vault0 true (.plain 2) 0x2000 2 [1] (trailerOf (trail tag0)) = none ∧
    obj 0x2000 2 { vault := takeCounter (trailerOf (trail tag0)) vault0 } (fun o => o.acc == 3 && valueFault o [1] == none) = true := by
  have hl : tag0.length = 16 := by simp [tag0, keyTag, keyBytes, beBytes]
  have ht : trailerOf (trail tag0) = ⟨0, 1, tag0⟩ := by
    have : slice (trail tag0) 16 16 = tag0 := by
      show tag0.take 16 = tag0
      rw [List.take_of_length_le (by omega)]
    unfold trailerOf; rw [this]; rfl
  refine ⟨by simp [trail, hl], rfl, rfl, ?_, rfl⟩
  rw [ht]
  have : keyTag (keyOf vault0 ⟨0, 1, tag0⟩) (tagMessage 0x2000 2 [1] ⟨0, 1, tag0⟩) = tag0 := rfl
  simp only [keyedFailure, this, bne_self_eq_false]; rfl

theorem test_keyed_write_fails :
    keyedFailure {} true (.plain 2) 0x2000 2 [1] (trailerOf (trail (List.replicate 16 0))) = some 3 ∧
    keyedKindOf 0x1015 1 = .key 3 ∧ isBoot (trailerOf (trail [])) = false ∧
    (rd (.keyedWrite .pcie 0x2000 2 (1 :: trail (List.replicate 16 0))) (st up)).sec.failures = 1 ∧
    (rd (.keyedWrite .pcie 0x1100 0x12 []) (st up)).sec.failures = 1 := by decide +kernel

theorem test_store :
    let run : Dev := { up with lo := { up.lo with flash := ⟨1, 0, 0⟩ } }
    let im : FlashImage := ⟨8, [], []⟩
    let sn : Dev := { run with ds := { run.ds with snap := some im } }
    let p := up.updPair 127 fun x => { x with state := .run }
    let e5 : Dev := { up with lo := { up.lo with enum := { up.lo.enum with op := { up.lo.enum.op with state := 2 } } } }
    let th (e : DictEntry) : Dev := { e5 with ds := { e5.ds with third := [e] } }
    same .commit (st run) = true ∧ up.lo.flash.state ≠ 1 ∧ (rd .erase (st up)).lo.flashKind = 2 ∧
    pairEnabled (p.pair 127) = true ∧ same .restore (st p) = true ∧ same (.commitDone true) (st up) = true ∧
    (rd (.commitDone false) (st run)).lo.flash.state = 3 ∧ run.ds.snap = none ∧ (rd (.commitDone true) (st run)).lo.flash.state = 2 ∧
    imageLen im ≤ 524272 ∧ ((rd (.commitDone true) (st sn)).ds.flash.a).isSome = true ∧
    same .dictionaryThirdPass (st up) = true ∧ same .dictionaryThirdPass (st e5) = true ∧
    (entryWrite true ⟨0x1100, 0x12, tyU16, [1, 2]⟩ (st e5).core).1 = .ok ∧ (entryWrite true ⟨0x1100, 0x12, tyU16, [1]⟩ (st e5).core).1 ≠ .ok ∧
    (rd .dictionaryThirdPass (st (th ⟨0x1100, 0x12, tyU16, [1, 2]⟩))).lk.cfg.appWord = 258 := by decide +kernel

/-- With every object at its default RESTORE writes nothing. -/
theorem test_restore_defaults : live defaultCore.dev = true ∧ enginesRun defaultCore.dev = true ∧
    (∀ p, p < 128 → pairEnabled (defaultCore.dev.pair p) = false) ∧
    ∀ e, e ∈ persistObjs defaultCore → e.2.2.rd .pcie defaultCore = defaultOf e.2.2 := ⟨rfl, rfl, fun _ _ => rfl, fun _ _ => rfl⟩

theorem test_mailbox :
    let body : List Byte := [1, 0] ++ beBytes 2 0x1100 ++ [0x12, 0, 0, 0, 0, 0, 0, 0]
    let q : Dev := { up with ds := { up.ds with queue := [⟨.qspi, body⟩] } }
    let g := q.updBox 1 fun b => { b with go := true }
    obj 0x1100 0x12 (st g).core (fun o => o.acc == 1 && o.rd .qspi (st g).core == [0, 0]) = true ∧
    answer (.mailboxResponse 1) (st g) 1 = responseBody 1 .ok 0x1100 0x12 tyU16 2 [0, 0] ∧
    ((rd (.mailboxResponse 1) (st g)).box 1).rlen = 14 ∧ same (.mailboxResponse 0) (st up) = true ∧
    serviceRuns g = true ∧ same (.mailboxResponse 1) (st (forEach [0, 1, 2, 3] (fun e d => d.updEng e fun x => { x with ready := 1 }) g)) = true ∧
    same (.mailboxGo 1 (g.box 1).ctl) (st g) = true ∧ (g.box 1).ctl ≠ 12 ∧ (g.box 1).go = true ∧
    ((rd (.mailboxGo 1 12) (st g)).box 1).stat = 0x1000#32 ∧ fld (11#32) 0 11 < 12 ∧ ((rd (.mailboxGo 1 11) (st up)).box 1).stat = 0x2000#32 ∧
    ((rd (.mailboxGo 1 1464) (st up)).box 1).go = true ∧ 1464 < fld (1465#32) 0 11 ∧ ((rd (.mailboxGo 1 1465) (st up)).box 1).go = false := by
  decide +kernel

/-! ### Host interfaces -/

theorem test_qspi :
    let t := { up with tb := { up.tb with time := 0x0000000500000007#64 } }
    let rs : Dev := { up with hi := { up.hi with qspiReset := true } }
    let op : Dev := { t with hi := { t.hi with txn := { open_ := some (0x1008, none) } } }
    let du : Dev := { up with hi := { up.hi with txn := { resetDue := true } } }
    same (.qspiRead 0 1 true) (st rs) = true ∧ portLive 1 t = true ∧ (rd (.qspiRead 0x1008 2 false) (st t)).hi.txn.answers = [(0x80, 7), (0x80, 5)] ∧
    (rd (.qspiRead 67108860 0 true) (st up)).hi.txn.open_ = some (67108860, none) ∧
    ((rd (.qspiWrite (0x20004 + 127 * 64) [9] none) (st up)).pair 127).dtr = 9 ∧
    (rd (.qspiWrite (268435456 + 16777212) [9] none) (st up)).hi.txn.answers = [(0x80, 9)] ∧ portLive 1 held = false ∧
    (rd (.qspiRead 67108860 1 false) (st held)).hi.txn.answers = [(0x81, 0xFFFFFFFF#32)] ∧
    ((rd (.qspiWrite 67108860 [9] none) (st held)).hstat 1).dropc = 1 ∧ ((rd (.qspiRead 536870912 1 false) (st up)).hstat 1).badc = 1 ∧
    ((rd (.qspiWrite 2 [9] none) (st up)).hstat 1).badc = 1 ∧ (rd (.qspiWrite 4294967295 [] (some 3)) (st up)).hi.txn.open_.isSome = true ∧
    ((rd (.clearHostStatus 0x79) (st (rd .qspiUnknownOpcode (st up)))).hstat 1) = { linten := true } ∧
    (rd (.hqCsNRise true) (st du)).hi.qspiReset = true ∧ (rd (.hqCsNRise true) (st op)).path 1 = { latch := [(0x100C, 5)] } ∧
    (rd (.hqCsNRise false) (st op)).path 1 = {} ∧ (rd (.hqRstN 0) (st up)).ic.xstat = 8 ∧ Bank.get 0 (rd (.hqRstN 9) (st up)).ic.xovr 3 = 9 ∧
    same .badAccess (st { up with hi := { up.hi with pcieReset := true } }) = true ∧ ((rd .badAccess (st up)).hstat 0).badc = 1 := by decide +kernel

/-! ### Monitor and memory -/

theorem test_monitor :
    let sv (k : Nat) : Dev := { up with
      fm := { up.fm with surveying := some k, tjFirst := 400 }, lo := { up.lo with survey := ⟨1, 0, 0⟩ } }
    let pl : Dev := { up with fm := { up.fm with due := some ({ up.fm.plan with guard := 9 }, true) } }
    let vt : Dev := { up with fm := { up.fm with vtrimNow := 3 } }
    let cl : Dev := { up with lo := { up.lo with cal := ⟨1, 0, 0⟩ } }
    same .survey (st (sv 0)) = true ∧ (rd .surveyStart (st up)).fm.surveying = some 0 ∧
    ((450 : Int) - (sv 47).fm.tjFirst).natAbs ≤ 50 ∧ (rd (.sentinelMeasured 9 450) (st (sv 47))).fm.surveying = some 48 ∧
    50 < ((451 : Int) - (sv 47).fm.tjFirst).natAbs ∧ (rd (.sentinelMeasured 9 451) (st (sv 47))).fm.abandoned = true ∧
    same (.surveyDone 9) (st (sv 47)) = true ∧ (rd (.surveyDone 9) (st (sv 48))).fm.surveys = 1 ∧
    same .marginPlanTakesEffect (st up) = true ∧ (rd .marginPlanTakesEffect (st pl)).br.guard = 9 ∧ (rd .marginPlanTakesEffect (st pl)).fm.forced = 1 ∧
    (rd .vtrimStep (st vt)).fm.vtrimNow = 2 ∧ same .calibrationStart (st cl) = true ∧ (rd (.calibrationDone true) (st cl)).lo.cal.state = 2 ∧
    same (.calibrationDone true) (st up) = true ∧ (rd .calibrationStart (st up)).lo.cal.state = 1 := by decide +kernel

theorem test_memory_errors :
    let a := up.updChase 15 fun c => { c with entries := Bank.set none [] 63 (some (entry0 9)) }
    let off : Dev := { up with ecc := { up.ecc with scrubEn := false } }
    let last : Dev := { up with ecc := { up.ecc with word := 2097151 } }
    (rd (.correctableError .scratch 16777215) (st up)).ecc.cecc = 1 ∧ up.gs.retired.contains (1048575 / 4) = false ∧
    findEntry up (1048575 / 4) = none ∧ (rd (.uncorrectableError .galley 1048575 .background true) (st up)).gs.retired = [262143] ∧
    ((rd (.uncorrectableError .compositor 2047 .background true) (st up)).comp 63).r.stat = 0x400#32 ∧
    Bank.get none (a.chase (4095 / 256)).entries (4095 / 4 % 64) = some (entry0 9) ∧ (a.slug 8).state ≠ .armed ∧
    Bank.get none ((rd (.uncorrectableError .chase 4095 .background true) (st a)).chase 15).entries 63 = none ∧
    ((rd (.uncorrectableError .engineData 0 (.engine 15 3) true) (st up)).ctx 15 3).faulted = true ∧ (up.eng 15).pendFault = none ∧
    same .scrub (st off) = true ∧ (rd .scrub (st last)).ecc.passes = 1 ∧ (rd .scrub (st up)).ecc.word = 1 := by decide +kernel

/-! ### Power, resets, JTAG -/

def pwr (f : Power → Power) : State := st { up with pw := f up.pw }

theorem test_tamper :
    let v : Vault := { slots := [(3, { state := .valid, counter := 9 })], bootCounter := 5 }
    let t := rn .tamper { core := { vault := v, dev := up } }
    let l := rn .vbatLoss { core := { vault := v, dev := up } }
    t.vault.tamper = true ∧ t.vault.bootCounter = 0 ∧ (t.vault.slot 3).state = .voided ∧ (t.vault.slot 0).state = .empty ∧
    l.vault.vbatLost = true ∧ (l.vault.slot 3).counter = 0 ∧ same .vbatRestore (st up) = true ∧
    (rn .vbatRestore { core := l }).vault.tamper = true := by decide +kernel

theorem test_power :
    let go (r : Nat) := pwr fun p => { p with go := true, req := r }
    (rd (.powerRequest 3) (go 0)).pw.cmdRej = true ∧ (rd (.powerRequest 0) (st up)).pw.req = 0 ∧
    powerRefused (held) 3 = false ∧ powerRefused (up.updPair 127 fun x => { x with state := .run }) 3 = true ∧
    (rd (.powerRequest 3) (st (up.updPair 127 fun x => { x with state := .run }))).pw.cmdRej = true ∧
    powerRefused up 1 = false ∧ (rd (.powerRequest 1) (st up)).pw.go = true ∧ same .idleEntry (st up) = true ∧
    same .holdEntry (st up) = true ∧ (rd .idleEntry (go 1)).pw.state = .idle ∧
    (rd .idleExit (pwr fun p => { p with go := true, req := 0, state := .idle })).pw.state = .run ∧
    wakePending up = [] ∧ up.lo.survey.state ≠ 1 ∧
    (rd .holdEntry (pwr fun p => { p with go := true, req := 2, state := .idle, toward := some .hold })).pw.state = .hold ∧
    (rd (.wrst 0x5752) (st up)).pw.ordered = some .warmCmd ∧ (rd (.wrst 0x5752) (go 1)).pw.go = false ∧ (rd (.wrst 1) (st up)).pw.cmdRej = true := by
  decide +kernel

theorem test_hold_deep :
    let h (f : Power → Power) := pwr fun p => f { p with state := .hold, toward := some .deep }
    (rd .pwrEnFall (h id)).pw.state = .deep ∧ same .pwrEnFall (h fun p => { p with toward := none }) = true ∧ (rd (.wakeN 4) (h id)).pw.waking = true ∧
    same (.holdExit 5) (h id) = true ∧ (rd (.holdExit 32768) (h fun p => { p with waking := true, xt32 := true })).tb.time = 16000000000#64 ∧
    same (.wakeN 4) (st up) = true ∧
    (let d := rd (.wakeN 4) (pwr fun p => { p with state := .deep, xt32 := true }); d.pw.rstc = 1 ∧ d.pw.state = .run ∧ d.pw.holdTime = 4#64) ∧
    (rd .supplyFault (pwr fun p => { p with state := .deep })).pw.state = .deep ∧ (st up).core.vault.vbatLost = false := by
  decide +kernel

theorem test_resets_and_jtag :
    let r := rd (.sysRstN true) (pwr fun p => { p with rstc := 1 })
    let low := pwr fun p => { p with sysRst := true }
    r.pw.rstc = 3 ∧ r.pw.inReset = some .ext ∧ (rd (.sysRstN false) low).pw.sysRst = false ∧ (rd .supplyFault (st up)).pw.rstc = 1 ∧
    same .warmRestart (st up) = true ∧ (rd .warmRestart (pwr fun p => { p with ordered := some .warmCmd })).pw.rstc = 5 ∧
    same (.boot 0 true none 7) (st up) = true ∧ (rd .bypass (st up)).jtag.ir = .bypass ∧
    (List.replicate 256 true).length = 256 ∧ (rd (.samplePreload (List.replicate 256 true)) (st up)).jtag.sampled.length = 256 ∧
    (rd .extest low).jtag.ir = .extest ∧ (rd .extest (st up)).jtag.ir = .bypass ∧ (rd .highz low).jtag.ir = .highz ∧
    State.reset.core.dev.pw.coreUp = false ∧ State.reset.core.dev.pw.sysRst = false ∧ State.reset.core.dev.pw.state = .run := by decide +kernel

theorem test_interlocked_at_reset : Interlocked State.reset ∧ ok .tickBoundary State.reset = true := by
  refine ⟨fun n => ?_, by decide +kernel⟩
  rw [show State.reset.core.dev.pair n = {} from rfl]; decide

theorem test_fused : FusedAs 2 (some 5) { core := { vault := { lifecycle := .field, custHash := some 5 } } } ∧
    (match step { core := { vault := { lifecycle := .field, custHash := some 5 } } } with | .next _ => true | _ => false) = true :=
  ⟨⟨by decide, fun _ h => by cases h; rfl⟩, by decide +kernel⟩

/-! ### RESTORE with one object off its default: the hypotheses of its clause, by a proof over all objects -/

set_option linter.unusedSimpArgs false

/-- Core `c` with APP_WORD (1100h:12h) written. -/
def withApp (c : Core) : Core := { c with dev := { c.dev with lk := { c.dev.lk with cfg := { c.dev.lk.cfg with appWord := 5 } } } }

theorem peekIc_app (c : Core) (o : Nat) : peekIc (withApp c).dev o = peekIc c.dev o := by
  have h (t : Nat) : (icClaim t (withApp c).dev).1 = (icClaim t c.dev).1 := by
    unfold icClaim; rw [show winner t (withApp c).dev = winner t c.dev from rfl]
    split
    · cases winner t c.dev <;> rfl
    · rfl
  unfold peekIc; dsimp only; rw [h]; rfl

theorem reg_app (c : Core) (a : Nat) : reg (withApp c) a = reg c a := by
  unfold reg regPeek; cases locate a with
  | none => rfl
  | some x =>
    obtain ⟨b, i, o⟩ := x
    cases b <;> first | exact peekIc_app c o | rfl

/-- A persistent object reads its default in that core. -/
def AtDefault (x : Option Obj) : Prop := ∀ o, x = some o → o.persist = true → o.rd .pcie (withApp defaultCore) = defaultOf o

theorem at_ite {p : Prop} [Decidable p] {a b : Option Obj} (ha : p → AtDefault a) (hb : ¬p → AtDefault b) :
    AtDefault (if p then a else b) := by split <;> simp_all
theorem at_none : AtDefault none := fun _ h => nomatch h
theorem at_some {o : Obj} (h : o.rd .pcie (withApp defaultCore) = defaultOf o) : AtDefault (some o) := fun _ e _ => by cases e; exact h
theorem at_volatile {o : Obj} (h : o.persist = false) : AtDefault (some o) := fun _ e hp => by cases e; simp [h] at hp

theorem at_typeObj (n k : Nat) : AtDefault (typeObj n k) := by
  unfold typeObj ; (try dsimp only); (repeat' split) <;> first | exact at_none | (refine at_volatile ?_; rfl) |
    (refine at_some ?_; simp only [defaultOf, bitObj, fieldObj, wordObj, rateObj, polarityObj, rwNat, reg_app]; done) |
    (refine at_some ?_; rfl)
theorem at_securityObj (k : Nat) : AtDefault (securityObj k) := by
  unfold securityObj ; (try dsimp only); (repeat' split) <;> first | exact at_none | (refine at_volatile ?_; rfl) |
    (refine at_some ?_; simp only [defaultOf, bitObj, fieldObj, wordObj, rateObj, polarityObj, rwNat, reg_app]; done) |
    (refine at_some ?_; rfl)
theorem at_slotObj (n k : Nat) : AtDefault (slotObj n k) := by
  unfold slotObj ; (try dsimp only); (repeat' split) <;> first | exact at_none | (refine at_volatile ?_; rfl) |
    (refine at_some ?_; simp only [defaultOf, bitObj, fieldObj, wordObj, rateObj, polarityObj, rwNat, reg_app]; done) |
    (refine at_some ?_; rfl)
theorem at_sourceObj (k : Nat) : AtDefault (sourceObj k) := by
  unfold sourceObj ; (try dsimp only); (repeat' split) <;> first | exact at_none | (refine at_volatile ?_; rfl) |
    (refine at_some ?_; simp only [defaultOf, bitObj, fieldObj, wordObj, rateObj, polarityObj, rwNat, reg_app]; done) |
    (refine at_some ?_; rfl)
theorem at_macObj (n k : Nat) : AtDefault (macObj n k) := by
  unfold macObj ; (try dsimp only); (repeat' split) <;> first | exact at_none | (refine at_volatile ?_; rfl) |
    (refine at_some ?_; simp only [defaultOf, bitObj, fieldObj, wordObj, rateObj, polarityObj, rwNat, reg_app]; done) |
    (refine at_some ?_; rfl)
theorem at_memberObj (n k : Nat) : AtDefault (memberObj n k) := by
  unfold memberObj ; (try dsimp only); (repeat' split) <;> first | exact at_none | (refine at_volatile ?_; rfl) |
    (refine at_some ?_; simp only [defaultOf, bitObj, fieldObj, wordObj, rateObj, polarityObj, rwNat, reg_app]; done) |
    (refine at_some ?_; rfl)
theorem at_timebaseObj (k : Nat) : AtDefault (timebaseObj k) := by
  unfold timebaseObj ; (try dsimp only); (repeat' split) <;> first | exact at_none | (refine at_volatile ?_; rfl) |
    (refine at_some ?_; simp only [defaultOf, bitObj, fieldObj, wordObj, rateObj, polarityObj, rwNat, reg_app]; done) |
    (refine at_some ?_; rfl)
theorem at_ptpObj (k : Nat) : AtDefault (ptpObj k) := by
  unfold ptpObj ; (try dsimp only); (repeat' split) <;> first | exact at_none | (refine at_volatile ?_; rfl) |
    (refine at_some ?_; simp only [defaultOf, bitObj, fieldObj, wordObj, rateObj, polarityObj, rwNat, reg_app]; done) |
    (refine at_some ?_; rfl)
theorem at_ptpPortObj (n k : Nat) : AtDefault (ptpPortObj n k) := by
  unfold ptpPortObj ; (try dsimp only); (repeat' split) <;> first | exact at_none | (refine at_volatile ?_; rfl) |
    (refine at_some ?_; simp only [defaultOf, bitObj, fieldObj, wordObj, rateObj, polarityObj, rwNat, reg_app]; done) |
    (refine at_some ?_; rfl)
theorem at_tickObj (k : Nat) : AtDefault (tickObj k) := by
  unfold tickObj ; (try dsimp only); (repeat' split) <;> first | exact at_none | (refine at_volatile ?_; rfl) |
    (refine at_some ?_; simp only [defaultOf, bitObj, fieldObj, wordObj, rateObj, polarityObj, rwNat, reg_app]; done) |
    (refine at_some ?_; rfl)
theorem at_loadObj (k : Nat) : AtDefault (loadObj k) := by
  unfold loadObj ; (try dsimp only); (repeat' split) <;> first | exact at_none | (refine at_volatile ?_; rfl) |
    (refine at_some ?_; simp only [defaultOf, bitObj, fieldObj, wordObj, rateObj, polarityObj, rwNat, reg_app]; done) |
    (refine at_some ?_; rfl)
theorem at_quoinsObj (k : Nat) : AtDefault (quoinsObj k) := by
  unfold quoinsObj ; (try dsimp only); (repeat' split) <;> first | exact at_none | (refine at_volatile ?_; rfl) |
    (refine at_some ?_; simp only [defaultOf, bitObj, fieldObj, wordObj, rateObj, polarityObj, rwNat, reg_app]; done) |
    (refine at_some ?_; rfl)
theorem at_tripObj (n k : Nat) : AtDefault (tripObj n k) := by
  unfold tripObj ; (try dsimp only); (repeat' split) <;> first | exact at_none | (refine at_volatile ?_; rfl) |
    (refine at_some ?_; simp only [defaultOf, bitObj, fieldObj, wordObj, rateObj, polarityObj, rwNat, reg_app]; done) |
    (refine at_some ?_; rfl)
theorem at_engineObj (n k : Nat) : AtDefault (engineObj n k) := by
  unfold engineObj ; (try dsimp only); (repeat' split) <;> first | exact at_none | (refine at_volatile ?_; rfl) |
    (refine at_some ?_; simp only [defaultOf, bitObj, fieldObj, wordObj, rateObj, polarityObj, rwNat, reg_app]; done) |
    (refine at_some ?_; rfl)
theorem at_storeObj (k : Nat) : AtDefault (storeObj k) := by
  unfold storeObj ; (try dsimp only); (repeat' split) <;> first | exact at_none | (refine at_volatile ?_; rfl) |
    (refine at_some ?_; simp only [defaultOf, bitObj, fieldObj, wordObj, rateObj, polarityObj, rwNat, reg_app]; done) |
    (refine at_some ?_; rfl)
theorem at_icObj (k : Nat) : AtDefault (icObj k) := by
  unfold icObj ; (try dsimp only); (repeat' split) <;> first | exact at_none | (refine at_volatile ?_; rfl) |
    (refine at_some ?_; simp only [defaultOf, bitObj, fieldObj, wordObj, rateObj, polarityObj, rwNat, reg_app]; done) |
    (refine at_some ?_; rfl)
theorem at_fastObj (k : Nat) : AtDefault (fastObj k) := by
  unfold fastObj ; (try dsimp only); (repeat' split) <;> first | exact at_none | (refine at_volatile ?_; rfl) |
    (refine at_some ?_; simp only [defaultOf, bitObj, fieldObj, wordObj, rateObj, polarityObj, rwNat, reg_app]; done) |
    (refine at_some ?_; rfl)
theorem at_powerObj (k : Nat) : AtDefault (powerObj k) := by
  unfold powerObj ; (try dsimp only); (repeat' split) <;> first | exact at_none | (refine at_volatile ?_; rfl) |
    (refine at_some ?_; simp only [defaultOf, bitObj, fieldObj, wordObj, rateObj, polarityObj, rwNat, reg_app]; done) |
    (refine at_some ?_; rfl)
theorem at_chanOut (n k : Nat) : AtDefault (chanOut n k) := by
  unfold chanOut ; (try dsimp only); (repeat' split) <;> first | exact at_none | (refine at_volatile ?_; rfl) |
    (refine at_some ?_; simp only [defaultOf, bitObj, fieldObj, wordObj, rateObj, polarityObj, rwNat, reg_app]; done) |
    (refine at_some ?_; rfl)
theorem at_decObj (n k : Nat) : AtDefault (decObj n k) := by
  unfold decObj ; (try dsimp only); (repeat' split) <;> first | exact at_none | (refine at_volatile ?_; rfl) |
    (refine at_some ?_; simp only [defaultOf, bitObj, fieldObj, wordObj, rateObj, polarityObj, rwNat, reg_app]; done) |
    (refine at_some ?_; rfl)
theorem at_pairObj (n k : Nat) : AtDefault (pairObj n k) := by
  unfold pairObj ; (try dsimp only); (repeat' split) <;> first | exact at_none | (refine at_volatile ?_; rfl) |
    (refine at_some ?_; simp only [defaultOf, bitObj, fieldObj, wordObj, rateObj, polarityObj, rwNat, reg_app]; done) |
    (refine at_some ?_; rfl)
theorem at_compObj (n k : Nat) : AtDefault (compObj n k) := by
  unfold compObj ; (try dsimp only); (repeat' split) <;> first | exact at_none | (refine at_volatile ?_; rfl) |
    (refine at_some ?_; simp only [defaultOf, bitObj, fieldObj, wordObj, rateObj, polarityObj, rwNat, reg_app]; done) |
    (refine at_some ?_; rfl)
theorem at_portObj (n k : Nat) : AtDefault (portObj n k) := by
  unfold portObj ; (try dsimp only); (repeat' split) <;> first | exact at_none | (refine at_volatile ?_; rfl) |
    (refine at_some ?_; simp only [defaultOf, bitObj, fieldObj, wordObj, rateObj, polarityObj, rwNat, reg_app]; done) |
    (refine at_some ?_; rfl)
theorem at_headObj (n k : Nat) : AtDefault (headObj n k) := by
  unfold headObj ; (try dsimp only); (repeat' split) <;> first | exact at_none | (refine at_volatile ?_; rfl) |
    (refine at_some ?_; simp only [defaultOf, bitObj, fieldObj, wordObj, rateObj, polarityObj, rwNat, reg_app]; done) |
    (refine at_some ?_; rfl)
theorem at_axisObj (n k : Nat) : AtDefault (axisObj n k) := by
  unfold axisObj ; (try dsimp only); (repeat' split) <;> first | exact at_none | (refine at_volatile ?_; rfl) |
    (refine at_some ?_; simp only [defaultOf, bitObj, fieldObj, wordObj, rateObj, polarityObj, rwNat, reg_app]; done) |
    (refine at_some ?_; rfl)
theorem at_galleyObj (k : Nat) : AtDefault (galleyObj k) := by
  unfold galleyObj ; (try dsimp only); (repeat' split) <;> first | exact at_none | (refine at_volatile ?_; rfl) |
    (refine at_some ?_; simp only [defaultOf, bitObj, fieldObj, wordObj, rateObj, polarityObj, rwNat, reg_app]; done) |
    (refine at_some ?_; rfl)
theorem at_slugCmdObj (k : Nat) : AtDefault (slugCmdObj k) := by
  unfold slugCmdObj ; (try dsimp only); (repeat' split) <;> first | exact at_none | (refine at_volatile ?_; rfl) |
    (refine at_some ?_; simp only [defaultOf, bitObj, fieldObj, wordObj, rateObj, polarityObj, rwNat, reg_app]; done) |
    (refine at_some ?_; rfl)
theorem at_policyObj (k : Nat) : AtDefault (policyObj k) := by
  unfold policyObj ; (try dsimp only); (repeat' split) <;> first | exact at_none | (refine at_volatile ?_; rfl) |
    (refine at_some ?_; simp only [defaultOf, bitObj, fieldObj, wordObj, rateObj, polarityObj, rwNat, reg_app]; done) |
    (refine at_some ?_; rfl)
theorem at_chaseObj (n k : Nat) : AtDefault (chaseObj n k) := by
  unfold chaseObj ; (try dsimp only); (repeat' split) <;> first | exact at_none | (refine at_volatile ?_; rfl) |
    (refine at_some ?_; simp only [defaultOf, bitObj, fieldObj, wordObj, rateObj, polarityObj, rwNat, reg_app]; done) |
    (refine at_some ?_; rfl)
theorem at_groupObj (n k : Nat) : AtDefault (groupObj n k) := by
  unfold groupObj ; (try dsimp only); (repeat' split) <;> first | exact at_none | (refine at_volatile ?_; rfl) |
    (refine at_some ?_; simp only [defaultOf, bitObj, fieldObj, wordObj, rateObj, polarityObj, rwNat, reg_app]; done) |
    (refine at_some ?_; rfl)
theorem at_longObj (n k : Nat) : AtDefault (longObj n k) := by
  unfold longObj longOpObj; (try dsimp only); (repeat' split) <;> first | exact at_none | (refine at_volatile ?_; rfl) |
    (refine at_some ?_; simp only [defaultOf, bitObj, fieldObj, wordObj, rateObj, polarityObj, rwNat, reg_app]; done) |
    (refine at_some ?_; rfl)
theorem at_traceObj (k : Nat) : AtDefault (traceObj k) := by
  unfold traceObj ; (try dsimp only); (repeat' split) <;> first | exact at_none | (refine at_volatile ?_; rfl) |
    (refine at_some ?_; simp only [defaultOf, bitObj, fieldObj, wordObj, rateObj, polarityObj, rwNat, reg_app]; done) |
    (refine at_some ?_; rfl)
theorem at_crossObj (k : Nat) : AtDefault (crossObj k) := by
  unfold crossObj ; (try dsimp only); (repeat' split) <;> first | exact at_none | (refine at_volatile ?_; rfl) |
    (refine at_some ?_; simp only [defaultOf, bitObj, fieldObj, wordObj, rateObj, polarityObj, rwNat, reg_app]; done) |
    (refine at_some ?_; rfl)
theorem at_memoryObj (k : Nat) : AtDefault (memoryObj k) := by
  unfold memoryObj ; (try dsimp only); (repeat' split) <;> first | exact at_none | (refine at_volatile ?_; rfl) |
    (refine at_some ?_; simp only [defaultOf, bitObj, fieldObj, wordObj, rateObj, polarityObj, rwNat, reg_app]; done) |
    (refine at_some ?_; rfl)
theorem at_customDeclObj (k : Nat) : AtDefault (customDeclObj k) := by
  unfold customDeclObj ; (try dsimp only); (repeat' split) <;> first | exact at_none | (refine at_volatile ?_; rfl) |
    (refine at_some ?_; simp only [defaultOf, bitObj, fieldObj, wordObj, rateObj, polarityObj, rwNat, reg_app]; done) |
    (refine at_some ?_; rfl)

theorem at_domainObj (k : Nat) (h : k ≠ 0x12) : AtDefault (domainObj k) := by
  unfold domainObj; split <;> first | exact at_none | exact absurd rfl h | (refine at_volatile ?_; rfl) | (refine at_some ?_; rfl)

theorem at_core (i k : Nat) (h : ¬(i = 0x1100 ∧ k = 0x12)) : AtDefault (coreObj i k (withApp defaultCore)) := by
  unfold coreObj
  refine at_ite (fun _ => at_typeObj _ _) fun _ => at_ite (fun _ => at_securityObj _) fun _ => at_ite (fun _ => at_slotObj _ _) fun _ =>
    at_ite (fun e => at_domainObj _ fun e2 => h ⟨e, e2⟩) fun _ => at_ite (fun _ => at_sourceObj _) fun _ => at_ite (fun _ => at_macObj _ _) fun _ =>
    at_ite (fun _ => at_memberObj _ _) fun _ => at_ite (fun _ => at_timebaseObj _) fun _ => at_ite (fun _ => at_ptpObj _) fun _ =>
    at_ite (fun _ => at_ptpPortObj _ _) fun _ => at_ite (fun _ => at_tickObj _) fun _ => at_ite (fun _ => at_loadObj _) fun _ =>
    at_ite (fun _ => at_quoinsObj _) fun _ => at_ite (fun _ => at_tripObj _ _) fun _ => at_ite (fun _ => at_engineObj _ _) fun _ =>
    at_ite (fun _ => at_storeObj _) fun _ => at_ite (fun _ => at_icObj _) fun _ => at_ite (fun _ => at_fastObj _) fun _ =>
    at_ite (fun _ => at_powerObj _) fun _ =>
    at_ite (fun _ => at_ite (fun _ => at_chanOut _ _) fun _ => at_decObj _ _) fun _ => at_ite (fun _ => at_pairObj _ _) fun _ =>
    at_ite (fun _ => at_compObj _ _) fun _ => at_ite (fun _ => at_portObj _ _) fun _ => at_ite (fun _ => at_headObj _ _) fun _ =>
    at_ite (fun _ => at_axisObj _ _) fun _ => at_ite (fun _ => at_galleyObj _) fun _ => at_ite (fun _ => at_slugCmdObj _) fun _ =>
    at_ite (fun _ => at_policyObj _) fun _ => at_ite (fun _ => at_chaseObj _ _) fun _ => at_ite (fun _ => at_groupObj _ _) fun _ =>
    at_ite (fun _ => at_longObj _ _) fun _ => at_ite (fun _ => at_traceObj _) fun _ => at_ite (fun _ => at_crossObj _) fun _ =>
    at_ite (fun _ => at_memoryObj _) fun _ => at_ite (fun _ => at_customDeclObj _) fun _ => at_ite (fun _ => ?_) fun _ => at_none
  rw [show customObj (withApp defaultCore) i k = none from rfl]; exact at_none

theorem mem_persist {c : Core} {e : Nat × Nat × Obj} (h : e ∈ persistObjs c) : coreObj e.1 e.2.1 c = some e.2.2 ∧ e.2.2.persist = true := by
  obtain ⟨i, _, h⟩ := List.mem_flatMap.mp h
  obtain ⟨k, _, h⟩ := List.mem_filterMap.mp h
  split at h
  · split at h
    · cases h; simp_all
    · cases h
  · cases h

/-- DictionaryStore, RESTORE: in this core APP_WORD alone differs from its default. -/
theorem test_restore : ∃ o, (0x1100, 0x12, o) ∈ persistObjs (withApp defaultCore) ∧ live (withApp defaultCore).dev = true ∧
    enginesRun (withApp defaultCore).dev = true ∧ (∀ p, p < 128 → pairEnabled ((withApp defaultCore).dev.pair p) = false) ∧
    o.rd .pcie (withApp defaultCore) ≠ defaultOf o ∧ (o.wr .pcie (defaultOf o) (withApp defaultCore)).2 = defaultCore ∧
    defaultCore.dev.ds.custom = (withApp defaultCore).dev.ds.custom ∧
    (∀ e, e ∈ persistObjs (withApp defaultCore) → (e.1, e.2.1) ≠ (0x1100, 0x12) → e.2.2.rd .pcie (withApp defaultCore) = defaultOf e.2.2) ∧
    ∀ e, e ∈ persistObjs defaultCore → e.2.2.rd .pcie defaultCore = defaultOf e.2.2 := by
  refine ⟨_, List.mem_flatMap.mpr ⟨0x1100, ?_, List.mem_filterMap.mpr ⟨0x11, ?_, rfl⟩⟩, rfl, rfl, fun p _ => rfl, ?_, rfl, rfl, ?_, fun _ _ => rfl⟩
  · unfold objIndices; simp only [List.mem_append]; iterate 17 left
    right; decide
  · decide
  · decide
  · intro e h n
    exact at_core _ _ (fun h2 => n (Prod.ext h2.1 h2.2)) _ (mem_persist h).1 (mem_persist h).2

end Sys2Proof.Tests
end

section
/-! SUPPORT. Commands that act on one block of the device: how such a command completes, and the frame of a change of one block. -/

namespace Sys2Proof.Proofs

open Sys2Proof Sys2Proof.Machine Sys2Proof.Laws

/-- A command whose effect leaves the device as it is leaves the state as it is, whether the clocks run or not. -/
theorem exec_idle {i : Instr} {s : State} {f : Dev → Dev} (he : exec i s = whenLiveDev true f s) (hf : f s.core.dev = s.core.dev) :
    exec i s = .next s := by
  rw [he]
  by_cases hl : live s.core.dev = true
  · rw [whenLiveDev_ok f s hl, hf]
  · exact whenLive_off _ s (by simpa using hl)

/-- The same for the engines' own commands. -/
theorem exec_idle_running {i : Instr} {s : State} {f : Dev → Dev} (he : exec i s = whenRunningDev true f s)
    (hf : f s.core.dev = s.core.dev) : exec i s = .next s := by
  rw [he]
  by_cases hl : live s.core.dev = true
  · by_cases hr : enginesRun s.core.dev = true
    · rw [whenRunningDev_ok f s hl hr, hf]
    · simp [whenRunningDev, whenRunning, whenLive_ok _ s hl, hr]
  · exact whenLive_off _ s (by simpa using hl)

/-! ### Frames of a change of one block -/

theorem sameBut_tick (d : Dev) (x : TickCtl) : SameBut [.tick] d { d with tick := x } := by
  intro v b hb
  cases b
  case tick => simp at hb
  all_goals rfl

end Sys2Proof.Proofs
end

section
/-! O10: a change of the tick period (R18). -/

namespace Sys2Proof.Proofs

open Sys2Proof Sys2Proof.Machine Sys2Proof.Laws

variable {d : Dev}

/-! ### NEXT_PERIOD and NEXT_ANCHOR, case by case -/

theorem nextPeriodWrite_worker {v : W32} (h : roleWorker d = true) : nextPeriodWrite v d = (.role, d) := by
  simp [nextPeriodWrite, h]

theorem nextPeriodWrite_cancels (h : roleWorker d = false) :
    nextPeriodWrite 0 d =
      (.ok, { d with tick := { d.tick with nextPeriod := 0, change := if d.tick.change = 1 then 0 else d.tick.change } }) := by
  simp [nextPeriodWrite, h]

theorem nextPeriodWrite_rejected {v : W32} (h : roleWorker d = false) (hv : v ≠ 0) (hp : periodRejected v.toNat d = true) :
    nextPeriodWrite v d = (.state, { d with tick := { d.tick with nextPeriod := 0, change := 3 } }) := by
  rw [nextPeriodWrite, if_neg (by simp [h]), if_neg hv, if_pos hp]

theorem nextPeriodWrite_arms {v : W32} (h : roleWorker d = false) (hv : v ≠ 0) (hp : periodRejected v.toNat d = false) :
    nextPeriodWrite v d = (.ok, { d with tick := { d.tick with nextPeriod := v, change := 1 } }) := by
  rw [nextPeriodWrite, if_neg (by simp [h]), if_neg hv, if_neg (by simp [hp])]

theorem nextAnchorWrite_worker {v : Time64} (h : roleWorker d = true) : nextAnchorWrite v d = (.role, d) := by
  simp [nextAnchorWrite, h]

theorem nextAnchorWrite_keeps {v : Time64} (h : roleWorker d = false) (hc : d.tick.change ≠ 1) :
    nextAnchorWrite v d = (.ok, { d with tick := { d.tick with nextAnchor := v } }) := by
  simp [nextAnchorWrite, h, hc]

theorem nextAnchorWrite_cancels {v : Time64} (h : roleWorker d = false) (hc : d.tick.change = 1) :
    nextAnchorWrite v d = (.ok, { d with tick := { d.tick with nextAnchor := v, nextPeriod := 0, change := 0 } }) := by
  simp [nextAnchorWrite, h, hc]

/-- A command of the core that leaves the device with tick block `x` changes that block alone. -/
theorem runs_setsTick {i : Instr} {s : State} {f : Dev → Dev} {x : TickCtl} (hl : live s.core.dev = true)
    (he : exec i s = whenLiveDev true f s) (hf : f s.core.dev = { s.core.dev with tick := x }) :
    Runs i s [.tick] fun t => t.core.dev.tick = x := by
  refine runs_dev hl he ?_ ?_
  · rw [hf]; exact sameBut_tick _ x
  · simp only [hf]

end Sys2Proof.Proofs

namespace Sys2Proof.Proofs

open Sys2Proof Sys2Proof.Machine Sys2Proof.Laws

/-- Settles O10: each write is one of the cases of NEXT_PERIOD or NEXT_ANCHOR, and sets the tick block or nothing. -/
theorem periodChange : Obligations.PeriodChange := by
  intro s hl
  refine ⟨fun v hw => ?_, fun v hw => ?_, fun v hw hv hp => ?_, fun v hw hv hp => ?_, fun hw => ?_, fun v hw hc => ?_, fun v hw hc => ?_⟩
  · exact exec_idle rfl (congrArg Prod.snd (nextPeriodWrite_worker hw))
  · exact exec_idle rfl (congrArg Prod.snd (nextAnchorWrite_worker hw))
  · exact runs_setsTick hl rfl (congrArg Prod.snd (nextPeriodWrite_arms hw hv hp))
  · exact runs_setsTick hl rfl (congrArg Prod.snd (nextPeriodWrite_rejected hw hv hp))
  · exact runs_setsTick hl rfl (congrArg Prod.snd (nextPeriodWrite_cancels hw))
  · exact runs_setsTick hl rfl (congrArg Prod.snd (nextAnchorWrite_keeps hw hc))
  · exact runs_setsTick hl rfl (congrArg Prod.snd (nextAnchorWrite_cancels hw hc))

end Sys2Proof.Proofs
end

section
/-! O12: the strobe of an engine and its credits (R24, R25, R272, R274). -/

namespace Sys2Proof.Proofs

open Sys2Proof Sys2Proof.Machine Sys2Proof.Laws

/-! ### Words of four bits: the ready and pending contexts -/

theorem bit_or_same {w : BitVec 4} (c : Nat) (h : c < 4) : bit (w ||| BitVec.ofNat 4 (2 ^ c)) c = true := by
  rw [bit, BitVec.getLsbD_or, BitVec.getLsbD_ofNat, Nat.testBit_two_pow_self]
  simp [h]

theorem bit_andNot_same {w : BitVec 4} (c : Nat) : bit (w &&& ~~~ BitVec.ofNat 4 (2 ^ c)) c = false := by
  rw [bit, BitVec.getLsbD_and, BitVec.getLsbD_not, BitVec.getLsbD_ofNat, Nat.testBit_two_pow_self]
  simp

/-! ### Frames and effects of the operations on engines -/

theorem sameBut_setReady (e c : Nat) (on : Bool) (d : Dev) : SameBut [.ne] d (setReady e c on d) := sameBut_updEng d e _

theorem sameBut_neFlag (e b : Nat) (d : Dev) : SameBut [.ne, .ic] d (neFlag e b d) :=
  sameBut_then (sameBut_memberEvent _ _) (by decide) (sameBut_mono (sameBut_updEng d e _) (by decide))

theorem eng_setReady_same (e c : Nat) (on : Bool) (d : Dev) : (setReady e c on d).eng e = { d.eng e with
    ready := if on then (d.eng e).ready ||| BitVec.ofNat 4 (2 ^ c) else (d.eng e).ready &&& ~~~ BitVec.ofNat 4 (2 ^ c) } :=
  updEng_same d e _

theorem eng_setReady_other {e x : Nat} (c : Nat) (on : Bool) (d : Dev) (h : x ≠ e) : (setReady e c on d).eng x = d.eng x :=
  updEng_other d e x _ h

/-- A wake makes its context ready, or is kept pending. -/
theorem wakeEngine_ready_or_pending (e : Nat) {c : Nat} (hc : c < 4) (d : Dev) :
    bit ((wakeEngine e c d).eng e).ready c = true ∨ bit ((wakeEngine e c d).eng e).pendWake c = true := by
  unfold wakeEngine
  dsimp only
  split
  · rw [updEng_same]; exact .inr (bit_or_same c hc)
  · rw [updEng_same]; exact .inl (bit_or_same c hc)

/-! ### The strobe, case by case -/

section
variable {d : Dev} {e : Nat}

/-- The last thing the strobe does: it wakes context 3 of an engine whose CTL.CTICK is set (R272). -/
def ctickWake (e : Nat) (ctl : W32) (d : Dev) : Dev := if bit ctl 7 then wakeEngine e 3 d else d

theorem sameBut_ctickWake (e : Nat) (ctl : W32) (d : Dev) : SameBut [.ne] d (ctickWake e ctl d) :=
  sameBut_ite (fun _ => sameBut_wakeEngine e 3 d) fun _ => sameBut_refl _ d

theorem strobeReaches_offline (h : (d.eng e).online = false) : strobeReaches e d = ctickWake e (d.eng e).ctl d := by
  simp [strobeReaches, ctickWake, h]

theorem strobeReaches_idle (h : (d.eng e).online = true) (hr : bit (d.eng e).ready 0 = false) :
    strobeReaches e d = ctickWake e (d.eng e).ctl (setReady e 0 true (d.updEng e fun g => { g with tickNo := d.tick.number })) := by
  simp [strobeReaches, ctickWake, h, hr]

/-- The load record of a tick in which an engine was still at work (R27). -/
def markOverrun (d : Dev) : Dev := { d with load := { d.load with
  overruns := if d.load.overNow then d.load.overruns else d.load.overruns + 1, overNow := true } }

theorem sameBut_markOverrun (d : Dev) : SameBut [.load] d (markOverrun d) := by
  intro v b hb
  cases b
  case load => simp at hb
  all_goals rfl

/-- TICK_OVERRUN: the strobe finds context 0 at work. -/
def overrunTick (e : Nat) (d : Dev) : Dev :=
  neFlag e 13 ((markOverrun d).updEng e fun g => { g with ovrc := incSat g.ovrc, tback := g.tback + 1 })

theorem sameBut_overrunTick (e : Nat) (d : Dev) : SameBut [.ne, .load, .ic] d (overrunTick e d) :=
  sameBut_then (sameBut_neFlag _ _ _) (by decide) (sameBut_then (sameBut_updEng _ _ _) (by decide)
    (sameBut_mono (sameBut_markOverrun d) (by decide)))

theorem overrunTick_overNow (e : Nat) (d : Dev) : (overrunTick e d).load.overNow = true := by
  rw [overrunTick, kept_load (sameBut_neFlag _ _ _) (by decide)]
  rfl

theorem strobeReaches_busy (h : (d.eng e).online = true) (hr : bit (d.eng e).ready 0 = true) :
    strobeReaches e d = ctickWake e (d.eng e).ctl (overrunTick e d) := by
  simp [strobeReaches, ctickWake, overrunTick, markOverrun, h, hr]

/-- Whatever the state of the engine, the strobe ends with the wake of CTL.CTICK. -/
theorem strobeReaches_ends (e : Nat) (d : Dev) :
    ∃ d1, SameBut [.ne, .load, .ic] d d1 ∧ strobeReaches e d = ctickWake e (d.eng e).ctl d1 := by
  cases ho : (d.eng e).online
  · exact ⟨d, sameBut_refl _ d, strobeReaches_offline ho⟩
  cases hr : bit (d.eng e).ready 0
  · exact ⟨_, sameBut_then (sameBut_setReady _ _ _ _) (by decide) (sameBut_mono (sameBut_updEng d e _) (by decide)),
      strobeReaches_idle ho hr⟩
  · exact ⟨_, sameBut_overrunTick e d, strobeReaches_busy ho hr⟩

theorem sameBut_strobeReaches (e : Nat) (d : Dev) : SameBut [.ne, .load, .ic] d (strobeReaches e d) := by
  obtain ⟨d1, h1, h⟩ := strobeReaches_ends e d
  rw [h]
  exact sameBut_then (sameBut_ctickWake _ _ _) (by decide) h1

theorem strobeReaches_ctick (h : bit (d.eng e).ctl 7 = true) :
    bit ((strobeReaches e d).eng e).ready 3 = true ∨ bit ((strobeReaches e d).eng e).pendWake 3 = true := by
  obtain ⟨d1, _, h1⟩ := strobeReaches_ends e d
  rw [h1, ctickWake, if_pos h]
  exact wakeEngine_ready_or_pending e (by decide) d1

end

/-! ### The commands -/

section
variable {s : State} {e : Nat}

theorem exec_tickStrobe (h : isEngine e = true) :
    exec (.tickStrobeReachesEngine e) s = whenRunningDev true (strobeReaches e) s :=
  congrArg (fun ok => whenRunningDev ok (strobeReaches e) s) h

theorem exec_updateCredit (h : isEngine e = true) : exec (.updateCredit e) s = whenLiveDev true (updateCredit e) s :=
  congrArg (fun ok => whenLiveDev ok (updateCredit e) s) h

end

theorem strobe_makes_ready {d : Dev} {e : Nat} (ho : (d.eng e).online = true) (hc : bit (d.eng e).ctl 7 = false)
    (hr : bit (d.eng e).ready 0 = false) :
    SameBut [.ne] d (strobeReaches e d) ∧ bit ((strobeReaches e d).eng e).ready 0 = true ∧
      ((strobeReaches e d).eng e).tickNo = d.tick.number ∧ ∀ x, x ≠ e → (strobeReaches e d).eng x = d.eng x := by
  have h : strobeReaches e d = setReady e 0 true (d.updEng e fun g => { g with tickNo := d.tick.number }) := by
    rw [strobeReaches_idle ho hr, ctickWake, hc, if_neg (by decide)]
  rw [h]
  refine ⟨sameBut_then (sameBut_setReady _ _ _ _) (by decide) (sameBut_updEng d e _), ?_, ?_, fun x hx => ?_⟩
  · rw [eng_setReady_same, if_pos rfl]; exact bit_or_same 0 (by decide)
  · rw [eng_setReady_same, updEng_same]
  · rw [eng_setReady_other _ _ _ hx, updEng_other _ _ _ _ hx]

/-- Settles O12: the strobe's three cases, its wake at the end, and the guard of a credit. -/
theorem strobesAndCredits : Obligations.StrobesAndCredits := by
  intro s e he hl
  refine ⟨fun hrun ho hc hr => ?_, fun hrun ho hr => ?_, fun hrun ho hc => ?_, fun hrun hc => ?_, fun ho hs => ?_, fun h => ?_⟩
  · obtain ⟨hf, hp⟩ := strobe_makes_ready ho hc hr
    exact runs_running hl hrun (exec_tickStrobe he) hf hp
  · refine runs_running hl hrun (exec_tickStrobe he) (sameBut_strobeReaches e _) ?_
    dsimp only
    rw [strobeReaches_busy ho hr, kept_load (sameBut_ctickWake _ _ _) (by decide)]
    exact overrunTick_overNow e _
  · refine exec_idle_running (exec_tickStrobe he) ?_
    rw [strobeReaches_offline ho, ctickWake, hc, if_neg (by decide)]
  · exact runs_running hl hrun (exec_tickStrobe he) (sameBut_strobeReaches e _) (strobeReaches_ctick hc)
  · have h : updateCredit e s.core.dev = s.core.dev.updEng e fun g => { g with
        credits := min (g.credits + 1) (updateQuota s.core.dev : Nat) } := by simp [updateCredit, ho, hs]
    refine runs_dev hl (exec_updateCredit he) ?_ ⟨?_, fun x hx => ?_⟩
    · rw [h]; exact sameBut_updEng _ e _
    · dsimp only; rw [h, updEng_same]
    · dsimp only; rw [h, updEng_other _ _ _ _ hx]
  · refine exec_idle (exec_updateCredit he) (if_neg ?_)
    rcases h with h | h <;> simp [h]

end Sys2Proof.Proofs
end

section
/-! O20: the control of a decoder (R26, R68, R69, R73). -/

namespace Sys2Proof.Proofs

open Sys2Proof Sys2Proof.Machine Sys2Proof.Laws

section
variable {d : Dev} {n : Nat}

/-! ### Enable and disable (R68, R69) -/

/-- An enabled decoder: EN is set, its reference is sought anew and its interval comparison starts again. -/
def enabledDecoder (n : Nat) (d : Dev) : Dev :=
  ((d.updDec n fun c => { c with cfg := { c.cfg with tdc := orBit c.cfg.tdc 0 }, refFound := false }).updDecTrk n fun _ => {}).updPin n
    fun p => { p with count := 0 }

theorem decoderEnable_accepted (h : decEn (d.dec n) = false) (hr : decRefused d n = false) :
    decoderEnable n d = enabledDecoder n d := by
  simp [decoderEnable, enabledDecoder, h, hr]

theorem decoderEnable_refused (h : decEn (d.dec n) = false) (hr : decRefused d n = true) :
    decoderEnable n d = tdFlag n 2 d := by
  simp [decoderEnable, h, hr]

theorem decoderDisable_enabled (h : decEn (d.dec n) = true) :
    decoderDisable n d = d.updDec n fun c => { c with cfg := { c.cfg with tdc := clrBit c.cfg.tdc 0 } } := by
  simp [decoderDisable, h]

theorem sameBut_enabledDecoder (n : Nat) (d : Dev) : SameBut [.tooth] d (enabledDecoder n d) :=
  sameBut_then (sameBut_updPin _ _ _) (by decide) (sameBut_then (sameBut_updDecTrk _ _ _) (by decide) (sameBut_updDec d n _))

theorem sameBut_decoderClear (n : Nat) (d : Dev) : SameBut [.tooth] d (decoderClear n d) :=
  sameBut_then (sameBut_updPin _ _ _) (by decide) (sameBut_then (sameBut_updDecTrk _ _ _) (by decide) (sameBut_updDec d n _))

/-! ### The over-long pulse (R73) -/

/-- A pulse that has reached PWT3: counted, flagged, and no longer under way. -/
def pulseFaulted (n : Nat) (d : Dev) : Dev :=
  tdFlag n 8 ((d.updDec n fun c => { c with pfltc := incSat c.pfltc }).updDecTrk n fun k => { k with lead := none })

theorem pwdFault_due (ho : (d.dec n).on = true) (hm : decMode (d.dec n) = 4) (hk : (d.decTrk n).lead.isSome = true) :
    pwdFault n d = pulseFaulted n d := by
  simp [pwdFault, pulseFaulted, ho, hm, hk]

theorem sameBut_pulseFaulted (n : Nat) (d : Dev) : SameBut [.tooth] d (pulseFaulted n d) :=
  sameBut_then (sameBut_updDec _ _ _) (by decide) (sameBut_then (sameBut_updDecTrk _ _ _) (by decide) (sameBut_updDec d n _))

/-! ### The update request (R26) -/

theorem updateRequest_queued (hu : (d.dec n).updcnt ≠ (d.dec n).updSeen)
    (hq : (d.queue (clusterOf (fld (d.dec n).cfg.tdc 13 12))).contains (.update (fld (d.dec n).cfg.tdc 13 12)) = false) :
    updateRequest n d = (d.updDec n fun c => { c with updSeen := c.updcnt }).updQueue (clusterOf (fld (d.dec n).cfg.tdc 13 12))
      (· ++ [.update (fld (d.dec n).cfg.tdc 13 12)]) := by
  unfold updateRequest
  dsimp only
  rw [if_neg hu, updDec_queue, if_neg (by rw [hq]; decide)]

/-! ### What the next TCLK makes of EN (R69) -/

theorem landDecoder_disabled (ho : (d.dec n).on = true) (he : decEn (d.dec n) = false) :
    landDecoder n d = (d.updDec n fun c => { c with on := false, from_ := d.tb.tclk + 1 }).updDecTrk n fun k => { k with lead := none } := by
  simp [landDecoder, ho, he]

theorem landDecoder_enabled (ho : (d.dec n).on = false) (he : decEn (d.dec n) = true) :
    landDecoder n d = d.updDec n fun c => { c with on := true } := by
  simp [landDecoder, ho, he]

/-- An edge that a decoder takes is none of a transition before the TCLK from which it counts. -/
theorem decoderEdge_from {p : Nat} {e : PinPass} (h : decoderEdge d n p = some e) : (d.dec n).from_ ≤ e.edge.tclk := by
  have := List.find?_some h
  simp only [Bool.and_eq_true, decide_eq_true_eq] at this
  exact this.2

end

/-! ### The commands -/

section
variable {s : State} {n : Nat} (h : isPin n = true)
include h

theorem exec_decoderEnable : exec (.decoderEnable n) s = whenLiveDev true (decoderEnable n) s :=
  congrArg (fun ok => whenLiveDev ok (decoderEnable n) s) h
theorem exec_decoderDisable : exec (.decoderDisable n) s = whenLiveDev true (decoderDisable n) s :=
  congrArg (fun ok => whenLiveDev ok (decoderDisable n) s) h
theorem exec_clr : exec (.clr n) s = whenLiveDev true (decoderClear n) s :=
  congrArg (fun ok => whenLiveDev ok (decoderClear n) s) h
theorem exec_pwdFault : exec (.pwdFault n) s = whenLiveDev true (pwdFault n) s :=
  congrArg (fun ok => whenLiveDev ok (pwdFault n) s) h
theorem exec_updateRequest : exec (.updateRequest n) s = whenLiveDev true (updateRequest n) s :=
  congrArg (fun ok => whenLiveDev ok (updateRequest n) s) h

end

/-- A command of the core that turns the device into `e`: what is said of `e` holds after it. -/
theorem runs_to {i : Instr} {s : State} {l : List Part} {f : Dev → Dev} {e : Dev} {P : State → Prop} (hl : live s.core.dev = true)
    (hx : exec i s = whenLiveDev true f s) (hf : f s.core.dev = e) (hs : SameBut l s.core.dev e)
    (hp : P { s with core := { s.core with dev := e } }) : Runs i s l P := by
  subst hf
  exact runs_dev hl hx hs hp

/-- Settles O20: each command by its case of the decoder's operations, and EN as the next TCLK takes it up. -/
theorem decoderControl : Obligations.DecoderControl := by
  intro s n hn hl
  refine ⟨fun he hr => ?_, fun he hr => ?_, fun he => ?_, ?_, fun ho hm hk => ?_, fun hu hq => ?_, fun ho he => ?_, fun ho he => ?_⟩
  · refine runs_to hl (exec_decoderEnable hn) (decoderEnable_accepted he hr) (sameBut_enabledDecoder n _) ?_
    refine ⟨?_, ?_, ?_, fun m hm => ?_⟩ <;> simp [enabledDecoder, updDec_other, *]
  · refine runs_to hl (exec_decoderEnable hn) (decoderEnable_refused he hr) (sameBut_updDec _ n _) ⟨?_, fun m hm => ?_⟩
    · exact updDec_same _ n _
    · exact updDec_other _ n m _ hm
  · refine runs_to hl (exec_decoderDisable hn) (decoderDisable_enabled he) (sameBut_updDec _ n _) ⟨?_, rfl, fun m hm => ?_⟩
    · exact updDec_same _ n _
    · exact updDec_other _ n m _ hm
  · refine runs_to hl (exec_clr hn) rfl (sameBut_decoderClear n _) ?_
    refine ⟨?_, ?_, ?_, ?_, ?_, fun m hm => ?_⟩ <;> simp [decoderClear, updDec_other, *]
  · refine runs_to hl (exec_pwdFault hn) (pwdFault_due ho hm hk) (sameBut_pulseFaulted n _) ?_
    refine ⟨?_, ?_, ?_, fun m hm => ?_⟩ <;> simp [pulseFaulted, tdFlag, updDec_other, *]
  · refine runs_to hl (exec_updateRequest hn) (updateRequest_queued hu hq)
      (sameBut_then (sameBut_updQueue _ _ _) (by decide) (sameBut_mono (sameBut_updDec _ n _) (by decide))) ⟨?_, ?_, rfl⟩
    · simp
    · simp
  · rw [landDecoder_disabled ho he]
    refine ⟨by simp, by simp, fun e _ hlate hedge => ?_⟩
    have hfrom := decoderEdge_from hedge
    simp only [updDecTrk_dec, updDec_same] at hfrom
    omega
  · rw [landDecoder_enabled ho he, updDec_same]

end Sys2Proof.Proofs
end

section
/-! O26: an engine takes an update request (R25, R26, R98, R129, R150). -/

namespace Sys2Proof.Proofs

open Sys2Proof Sys2Proof.Machine Sys2Proof.Laws

/-! ### What waits for the galley -/

/-- With nothing granted there is nothing to settle. -/
theorem settleGranted_none {d : Dev} (h : d.gs.granted = []) : settleGranted d = d := by
  rw [settleGranted, h]; rfl

/-! ### The request served next (R26, R150) -/

section
variable {d : Dev} {e a : Nat}

theorem updateService_refused (h : canServe d e a = false) : updateService e a d = d := by
  unfold updateService
  split
  · rw [if_neg (by simp [h])]
  · rfl

theorem updateService_otherHead (h : (d.queue (clusterOf a)).head? ≠ some (.update a)) : updateService e a d = d := by
  unfold updateService
  split
  case h_1 b rest hq =>
    rw [if_neg]
    rintro ⟨rfl, -⟩
    simp [hq] at h
  · rfl

theorem updateService_takes {rest : List UpdReq} (hc : canServe d e a = true) (hq : d.queue (clusterOf a) = .update a :: rest)
    (hp : rest.any (isPolicyOf a) = false) : updateService e a d = takeUpdate e a d := by
  simp [updateService, hq, hc, hp, isPolicyOf]

/-- A policy request of the axis goes first: the service of the update is that of the policy. -/
theorem updateService_policyFirst {rest : List UpdReq} (hq : d.queue (clusterOf a) = .update a :: rest)
    (hp : rest.any (isPolicyOf a) = true) : updateService e a d = policyService e a d := by
  cases hc : canServe d e a
  case true => simp [updateService, hq, hc, hp]
  case false =>
    rw [updateService_refused hc]
    unfold policyService
    split
    · rw [if_neg (by simp [hc])]
    · rfl

end

/-! ### The update itself (R98, R25) -/

section
variable {d : Dev} {e a : Nat}

/-- With fewer than three fit points there is no fit: the update tooth is taken, and nothing else. -/
theorem serveUpdate_noFit (h : (d.axis a).mdl.upd = none ∨ (takePoint (d.axis a)).mdl.points.length < 3) :
    serveUpdate a d = d.updAxis a takePoint := by
  unfold serveUpdate
  dsimp only
  rw [if_neg]
  rw [updAxis_same]
  rcases h with h | h
  · simp [h]
  · simp only [Bool.and_eq_true, decide_eq_true_eq]; omega

theorem takePoint_none {x : Axis} (h : x.mdl.upd = none) : takePoint x = x := by
  rw [takePoint, h]
  dsimp only
  rw [← h]

theorem takePoint_some {x : Axis} {st : Time64} {sg : BitVec 2} {c : Int} (h : x.mdl.upd = some (st, sg, c, true)) :
    takePoint x = { x with mdl := { x.mdl with upd := none, points := (⟨st, c, angOf x.cfg c⟩ :: x.mdl.points).take 33 } } := by
  rw [takePoint, h]

/-- The device after an update without a fit: the request is out of the queue, and the axis has taken its tooth. -/
def tookPoint (a : Nat) (d : Dev) : Dev := (d.updQueue (clusterOf a) fun q => q.erase (.update a)).updAxis a takePoint

theorem sameBut_tookPoint (a : Nat) (d : Dev) : SameBut [.ax] d (tookPoint a d) :=
  sameBut_then (sameBut_updAxis _ _ _) (by decide) (sameBut_updQueue d _ _)

theorem takeUpdate_noFit (hg : d.gs.granted = [])
    (h : (d.axis a).mdl.upd = none ∨ (takePoint (d.axis a)).mdl.points.length < 3) :
    takeUpdate e a d = chargeCredits e (120 + 12 * retimeCount d a) (tookPoint a d) := by
  have hs : serveUpdate a (settleGranted (d.updQueue (clusterOf a) fun q => q.erase (.update a))) = tookPoint a d := by
    rw [settleGranted_none (by exact hg), serveUpdate_noFit (by simpa using h)]
    rfl
  have hn : narmed (tookPoint a d) a = narmed d a := rfl
  unfold takeUpdate
  dsimp only
  rw [hs, hn, Nat.sub_self, Nat.mul_zero, Nat.add_zero]

theorem sameBut_chargeCredits (e cost : Nat) (d : Dev) : SameBut [.ne] d (chargeCredits e cost d) := sameBut_updEng d e _

theorem chargeCredits_credits (e cost : Nat) (d : Dev) : ((chargeCredits e cost d).eng e).credits < (d.eng e).credits := by
  have h : 1 ≤ max 1 ((cost + 119) / 120) := le_max_left _ _
  rw [chargeCredits, updEng_same]
  dsimp only
  omega

theorem chargeCredits_cycles (e cost : Nat) (d : Dev) : ((chargeCredits e cost d).eng e).cycles = (d.eng e).cycles + cost := by
  rw [chargeCredits, updEng_same]

/-- The frame and the axes of an update service without a fit. -/
theorem takeUpdate_noFit_axes (e a : Nat) (cost : Nat) (d : Dev) :
    SameBut [.ax, .ne] d (chargeCredits e cost (tookPoint a d)) ∧
      (chargeCredits e cost (tookPoint a d)).axis a = takePoint (d.axis a) ∧
      ∀ b, b ≠ a → (chargeCredits e cost (tookPoint a d)).axis b = d.axis b := by
  refine ⟨sameBut_then (sameBut_chargeCredits _ _ _) (by decide) (sameBut_mono (sameBut_tookPoint a d) (by decide)), ?_, fun b hb => ?_⟩
  · simp [chargeCredits, tookPoint]
  · simp [chargeCredits, tookPoint, updAxis_other _ _ _ _ hb]

end

/-! ### The command -/

theorem exec_updateService {s : State} {e a : Nat} (he : isEngine e = true) (ha : isAxis a = true) :
    exec (.updateService e a) s = whenRunningDev true (updateService e a) s :=
  congrArg (fun ok => whenRunningDev ok (updateService e a) s) (show (isEngine e && isAxis a) = true by rw [he, ha]; rfl)

theorem exec_policyService {s : State} {e a : Nat} (he : isEngine e = true) (ha : isAxis a = true) :
    exec (.policyService e a) s = whenRunningDev true (policyService e a) s :=
  congrArg (fun ok => whenRunningDev ok (policyService e a) s) (show (isEngine e && isAxis a) = true by rw [he, ha]; rfl)

/-- A command of the engines that turns the device into `e`: what is said of `e` holds after it. -/
theorem runs_running_to {i : Instr} {s : State} {l : List Part} {f : Dev → Dev} {e : Dev} {P : State → Prop}
    (hl : live s.core.dev = true) (hr : enginesRun s.core.dev = true) (hx : exec i s = whenRunningDev true f s)
    (hf : f s.core.dev = e) (hs : SameBut l s.core.dev e) (hp : P { s with core := { s.core with dev := e } }) : Runs i s l P := by
  subst hf
  exact runs_running hl hr hx hs hp

/-- Settles O26: the queue's head and the credits decide, and a served update without a fit takes its tooth and is charged. -/
theorem updateRequests : Obligations.UpdateRequests := by
  intro s e a he ha hl hrun
  have hx := exec_updateService (s := s) he ha
  refine ⟨fun hc => ?_, fun hh => ?_, fun rest hq hp => ?_, fun rest hc hq hp hg hu => ?_, fun rest st sg c hc hq hp hg hu hlen => ?_⟩
  · exact exec_idle_running hx (updateService_refused hc)
  · exact exec_idle_running hx (updateService_otherHead hh)
  · rw [hx, exec_policyService he ha, whenRunningDev_ok _ s hl hrun, whenRunningDev_ok _ s hl hrun, updateService_policyFirst hq hp]
  · obtain ⟨hf, haxis, -⟩ := takeUpdate_noFit_axes e a (120 + 12 * retimeCount s.core.dev a) s.core.dev
    refine runs_running_to hl hrun hx ((updateService_takes hc hq hp).trans (takeUpdate_noFit hg (.inl hu))) hf ⟨?_, ?_, ?_, ?_⟩
    · simp [chargeCredits, tookPoint, hq]
    · exact haxis.trans (takePoint_none hu)
    · exact chargeCredits_credits e _ (tookPoint a s.core.dev)
    · exact (chargeCredits_cycles e _ (tookPoint a s.core.dev)).trans (Nat.add_assoc _ _ _).symm
  · have hpt := takePoint_some hu
    have hlen3 : (takePoint (s.core.dev.axis a)).mdl.points.length < 3 := by
      rw [hpt]
      simp only [List.length_take, List.length_cons]
      omega
    obtain ⟨hf, haxis, hother⟩ := takeUpdate_noFit_axes e a (120 + 12 * retimeCount s.core.dev a) s.core.dev
    refine runs_running_to hl hrun hx ((updateService_takes hc hq hp).trans (takeUpdate_noFit hg (.inr hlen3))) hf ⟨?_, ?_, ?_, hother⟩
    all_goals
      dsimp only
      rw [haxis, hpt]
    exact List.take_of_length_le (by simp only [List.length_cons]; omega)

end Sys2Proof.Proofs
end

section
/-! O27: an arming pass of the tick's work (R25, R129, R131). -/

namespace Sys2Proof.Proofs

open Sys2Proof Sys2Proof.Machine Sys2Proof.Laws

section
variable {d : Dev} {e a : Nat}

/-! ### The pass (R129) -/

theorem armingPass_unarmable (h : armable d a = false) : armingPass a d = d := by
  simp [armingPass, h]

/-- The pass over the one slug of the axis that is PARKED inside the horizon. -/
theorem armingPass_one {sid : Nat} {x : Slug} (h : armable d a = true) (hpend : axisSlugs d a .pending = [])
    (hpark : axisSlugs d a .parked = [(sid, x)]) (hin : inHorizon d a x.angle = true) : armingPass a d = passSlug sid d := by
  simp [armingPass, h, hpend, hpark, hin, forEach]

theorem passSlug_ahead {sid : Nat} {t : Time64} {g : Ang64}
    (hf : fireTime d (d.slug sid) (fld d.gl.cfg 16 16) = some (t, g)) (ht : atOrAfter d.tb.time t = false) :
    passSlug sid d = armSlug sid t g d := by
  simp [passSlug, hf, ht]

/-! ### Placing an entry (R131) -/

/-- An entry whose first chase has a free slot goes there. -/
theorem placeEntry_first {q k : Nat} {x : Entry} (hfull : fifoFull d = false) (hk : freeSlot (d.chase (4 * q + x.chan % 4)) = some k) :
    placeEntry q x d = (some (4 * q + x.chan % 4, k, false), putEntry (4 * q + x.chan % 4) k (some x) d) := by
  have hrange : List.range 4 = [0, 1, 2, 3] := rfl
  simp [placeEntry, hfull, hrange, hk]

/-- The entry that a slug gives at fire time `t` and gate angle `g` (R122, R133). -/
def slugEntry (d : Dev) (sid : Nat) (t : Time64) (g : Ang64) : Entry :=
  ⟨t, g, entryDur (d.slug sid) (d.slug sid).dur, sid, (d.slug sid).axis, (d.slug sid).chan, (d.slug sid).act, (d.slug sid).mode,
    decide ((d.slug sid).act ≤ 4 ∨ (d.slug sid).act = 7) && !chEn (d.chOut (d.slug sid).chan), (d.slug sid).revp,
    (d.slug sid).losp, (d.slug sid).rpt, (d.slug sid).seq, fld d.gl.cfg 16 16, false⟩

/-- The device with the slug armed in slot `k` of chase `cs`. -/
def armedIn (cs k sid : Nat) (x : Entry) (d : Dev) : Dev :=
  (putEntry cs k (some x) d).updSlug sid fun s => { s with state := .armed }

theorem armSlug_first {sid k : Nat} {t : Time64} {g : Ang64} (hfull : fifoFull d = false)
    (hk : freeSlot (d.chase (4 * clusterOf (d.slug sid).axis + (d.slug sid).chan % 4)) = some k) :
    armSlug sid t g d =
      armedIn (4 * clusterOf (d.slug sid).axis + (d.slug sid).chan % 4) k sid (slugEntry d sid t g) d := by
  unfold armSlug
  dsimp only
  rw [placeEntry_first hfull hk]
  rfl

theorem sameBut_armedIn (cs k sid : Nat) (x : Entry) (d : Dev) : SameBut [.chases, .gs] d (armedIn cs k sid x d) :=
  sameBut_then (sameBut_updSlug _ _ _) (by decide) (sameBut_mono (sameBut_putEntry cs k _ d) (by decide))

theorem armedIn_entry (cs k sid : Nat) (x : Entry) (d : Dev) :
    Bank.get none ((armedIn cs k sid x d).chase cs).entries k = some x := by
  rw [armedIn, updSlug_chase, putEntry, updChase_same]
  exact bank_get_set_same none (d.chase cs).entries k (some x)

theorem armedIn_slug_same (cs k sid : Nat) (x : Entry) (d : Dev) :
    (armedIn cs k sid x d).slug sid = { d.slug sid with state := .armed } := by
  rw [armedIn, updSlug_same, putEntry, updChase_slug]

theorem armedIn_slug_other {m : Nat} (cs k sid : Nat) (x : Entry) (d : Dev) (h : m ≠ sid) :
    (armedIn cs k sid x d).slug m = d.slug m := by
  rw [armedIn, updSlug_other _ _ _ _ h, putEntry, updChase_slug]

/-! ### The pass of the tick's work -/

/-- The charge of a pass that has led from `d` to `d1` (R25; log entry 40). -/
def chargePass (e a : Nat) (d d1 : Dev) : Dev :=
  d1.updEng e fun g => { g with cycles := g.cycles + 24 * (narmed d1 a - narmed d a) }

theorem chargePass_slug (e a : Nat) (d d1 : Dev) (m : Nat) : (chargePass e a d d1).slug m = d1.slug m := updEng_slug ..

theorem chargePass_chase (e a : Nat) (d d1 : Dev) (m : Nat) : (chargePass e a d d1).chase m = d1.chase m := updEng_chase ..

theorem armingService_tick (hq : (d.queue (clusterOf a)).contains (.arm a) = false) (ho : (d.eng e).online = true)
    (hs : shadowed d e = false) (he : e / 4 = clusterOf a) (hg : d.gs.granted = []) :
    armingService e a d = chargePass e a d (armingPass a d) := by
  unfold armingService
  dsimp only
  rw [if_neg (by rw [hq]; decide), if_pos (by simp [ho, hs, he]), settleGranted_none hg]
  rfl

end

theorem exec_armingPass {s : State} {e a : Nat} (he : isEngine e = true) (ha : isAxis a = true) :
    exec (.armingPass e a) s = whenRunningDev true (armingService e a) s :=
  congrArg (fun ok => whenRunningDev ok (armingService e a) s) (show (isEngine e && isAxis a) = true by rw [he, ha]; rfl)

/-- Settles O27: the pass is empty for an axis that is not armable, and otherwise arms its one slug in its first chase. -/
theorem armingPlacesSlugs : Obligations.ArmingPlacesSlugs := by
  intro s e a he ha hl hrun ho hs hcl hq hg
  have hpass := armingService_tick hq ho hs hcl hg
  refine ⟨fun harm => ?_, fun sid t0 g k harm hpend hpark hin hax hf ht hfull hk => ?_⟩
  · rw [armingPass_unarmable harm] at hpass
    refine runs_running_to hl hrun (exec_armingPass he ha) hpass (sameBut_updEng _ e _) fun x => ?_
    by_cases hxe : x = e
    · subst hxe; simp [chargePass]
    · exact updEng_other _ e x _ hxe
  · have harmed := armSlug_first (t := t0) (g := g) hfull (by rw [hax]; exact hk)
    rw [hax] at harmed
    rw [armingPass_one harm hpend hpark hin, passSlug_ahead hf ht, harmed] at hpass
    generalize hd1 : armedIn (4 * clusterOf a + (s.core.dev.slug sid).chan % 4) k sid
      (slugEntry s.core.dev sid t0 g) s.core.dev = d1 at hpass
    have hsame : SameBut [.chases, .gs] s.core.dev d1 := hd1 ▸ sameBut_armedIn _ _ _ _ _
    refine runs_running_to hl hrun (exec_armingPass he ha) hpass
      (sameBut_then (sameBut_updEng _ _ _) (by decide) (sameBut_mono hsame (by decide)))
      ⟨?_, ?_, ⟨slugEntry s.core.dev sid t0 g, ?_, rfl, rfl, rfl, rfl⟩, fun m hm => ?_⟩
    · have hcyc : ((chargePass e a s.core.dev d1).eng e).cycles = (d1.eng e).cycles + 24 * (narmed d1 a - narmed s.core.dev a) := by
        rw [chargePass, updEng_same]
      rw [kept_eng hsame (by decide)] at hcyc
      exact hcyc
    · rw [chargePass_slug, ← hd1, armedIn_slug_same]
    · rw [chargePass_chase, ← hd1, armedIn_entry]
    · rw [chargePass_slug, ← hd1, armedIn_slug_other _ _ _ _ _ hm]

end Sys2Proof.Proofs
end

section
/-! O29: the tick work of an engine with no axis in its share (R24, R269, R273). -/

namespace Sys2Proof.Proofs

open Sys2Proof Sys2Proof.Machine Sys2Proof.Laws

variable {d : Dev} {e : Nat}

/-- The end of the tick's work in an engine that is not behind (R269). -/
def tickEnded (e : Nat) (d : Dev) : Dev := setReady e 0 false (d.updCtx e 0 fun x => { x with start := true, stack := [] })

theorem endWork_tick (h : (d.eng e).tback = 0) : endWork e 0 d = tickEnded e d := by
  simp [endWork, h, tickEnded]

theorem workAxes_nil (d : Dev) : workAxes [] d = d := rfl

@[simp] theorem updCtx_eng (d : Dev) (e c x : Nat) (f : Ctx → Ctx) : (d.updCtx e c f).eng x = d.eng x := rfl

/-- The charge of a share that places no slug (R27). -/
def shareCharged (e cost : Nat) (d : Dev) : Dev :=
  (d.updEng e fun g => { g with cycles := g.cycles + cost }).updEng e fun g => { g with cycles := g.cycles + 24 * 0 }

theorem eng_shareCharged_same (e cost : Nat) (d : Dev) :
    (shareCharged e cost d).eng e = { d.eng e with cycles := (d.eng e).cycles + cost } := by
  simp [shareCharged]

theorem eng_shareCharged_other {x : Nat} (e cost : Nat) (d : Dev) (h : x ≠ e) : (shareCharged e cost d).eng x = d.eng x := by
  rw [shareCharged, updEng_other _ _ _ _ h, updEng_other _ _ _ _ h]

theorem sameBut_shareCharged (e cost : Nat) (d : Dev) : SameBut [.ne] d (shareCharged e cost d) :=
  sameBut_trans (sameBut_updEng d e _) (sameBut_updEng _ e _)

/-- A share with no axis is charged, and ends. -/
theorem tickWork_noAxis (hrun : enginesRun d = true) (ho : (d.eng e).online = true) (ht : tickMayRun d e = true)
    (hg : d.gs.granted = []) (hb : (d.eng e).tback = 0) (hw : deviceWide d e = false) (ha : axesShare d e = []) :
    tickWork e d = tickEnded e (shareCharged e (shareCost d e) d) := by
  unfold tickWork
  simp only [hrun, ho, ht, hw, ha]
  rw [if_neg (by decide), if_neg (by decide), settleGranted_none (by exact hg), workAxes_nil]
  exact endWork_tick (by rw [updEng_same, updEng_same]; exact hb)

theorem tickWork_idle (h : bit (d.eng e).ready 0 = false ∨ hasRequest d e = true) : tickWork e d = d := by
  have ht : tickMayRun d e = false := by rcases h with h | h <;> simp [tickMayRun, h]
  simp [tickWork, ht]

theorem exec_tickWork {s : State} (he : isEngine e = true) : exec (.tickWork e) s = whenLiveDev true (tickWork e) s :=
  congrArg (fun ok => whenLiveDev ok (tickWork e) s) he

end Sys2Proof.Proofs

namespace Sys2Proof.Proofs

open Sys2Proof Sys2Proof.Machine Sys2Proof.Laws

/-- Settles O29: without axes the share is its charge and the end of context 0. -/
theorem tickWorkOfAnEngine : Obligations.TickWorkOfAnEngine := by
  intro s e he hl
  refine ⟨fun hrun ho ht hg hb hw ha => ?_, fun h => exec_idle (exec_tickWork he) (tickWork_idle h)⟩
  refine runs_to hl (exec_tickWork he) (tickWork_noAxis hrun ho ht hg hb hw ha)
    (sameBut_then (sameBut_setReady _ _ _ _) (by decide) (sameBut_then (sameBut_updCtx _ _ _ _) (by decide)
      (sameBut_mono (sameBut_shareCharged e _ _) (by decide)))) ⟨?_, ?_, fun x hx => ?_⟩
  · dsimp only
    rw [tickEnded, eng_setReady_same, if_neg (by decide)]
    exact bit_andNot_same 0
  · dsimp only
    rw [tickEnded, eng_setReady_same, updCtx_eng, eng_shareCharged_same]
  · dsimp only
    rw [tickEnded, eng_setReady_other _ _ _ hx, updCtx_eng, eng_shareCharged_other _ _ _ hx]

end Sys2Proof.Proofs
end

section
/-! SUPPORT. Frames of the operations on the timebase, the roles and the link (R36–R58, R355–R368). -/

namespace Sys2Proof.Proofs

open Sys2Proof Sys2Proof.Machine Sys2Proof.Laws

/-! ### A change of one block -/

theorem sameBut_tb (d : Dev) (x : Timebase) : SameBut [.tb] d { d with tb := x } := by
  intro v b hb
  cases b
  case tb => simp at hb
  all_goals rfl

theorem sameBut_so (d : Dev) (x : ServoObj) : SameBut [.so] d { d with so := x } := by
  intro v b hb
  cases b
  case so => simp at hb
  all_goals rfl

theorem sameBut_ptp (d : Dev) (x : Ptp) : SameBut [.ptp] d { d with ptp := x } := by
  intro v b hb
  cases b
  case ptp => simp at hb
  all_goals rfl

theorem sameBut_lk (d : Dev) (x : Link) : SameBut [.lk] d { d with lk := x } := by
  intro v b hb
  cases b
  case lk => simp at hb
  all_goals rfl

theorem sameBut_ds (d : Dev) (x : DictStore) : SameBut [.ds] d { d with ds := x } := by
  intro v b hb
  cases b
  case ds => simp at hb
  all_goals rfl

/-! ### Flags and the servo -/

theorem sameBut_emFlag (m b : Nat) (d : Dev) : SameBut [.lk, .ic, .ne] d (emFlag m b d) := by
  have h := sameBut_mono (m := [.lk, .ic, .ne]) (sameBut_updMac d m fun x => { x with stat := orBit x.stat b }) (by decide)
  unfold emFlag
  dsimp only
  split
  · exact sameBut_then (sameBut_memberEvent _ _) (by decide) h
  · exact h

theorem sameBut_tbFlag (b : Nat) (d : Dev) : SameBut [.tb, .ic, .ne] d (tbFlag b d) := by
  have h := fun x => sameBut_mono (m := [.tb, .ic, .ne]) (sameBut_tb d x) (by decide)
  unfold tbFlag
  dsimp only
  split
  · exact h _
  · exact sameBut_then (sameBut_memberEvent _ _) (by decide) (h _)

/-- A servo that a change of role leaves in another state. -/
theorem sameBut_tbSo (d : Dev) (x : Timebase) (y : ServoObj) : SameBut [.tb, .so] d { d with tb := x, so := y } :=
  sameBut_then (sameBut_so { d with tb := x } y) (by decide) (sameBut_mono (sameBut_tb d x) (by decide))

theorem sameBut_dropServo (d : Dev) : SameBut [.tb, .so] d (dropServo d) := sameBut_tbSo d _ _

theorem sameBut_setTrim (v : Int) (d : Dev) : SameBut [.tb] d (setTrim v d) := sameBut_tb d _

theorem sameBut_enterUnset (d : Dev) : SameBut [.tb, .so] d (enterUnset d) := by
  have h := sameBut_then (sameBut_dropServo { d with so := { d.so with servo := .unset, within := 0 } }) (by decide)
    (sameBut_mono (m := [.tb, .so]) (sameBut_so d _) (by decide))
  unfold enterUnset
  dsimp only
  split
  · exact sameBut_then (sameBut_setTrim _ _) (by decide) h
  · exact h

/-! ### The role (R43, R48, R355) -/

theorem sameBut_settleRole (d : Dev) : SameBut [.tb, .so] d (settleRole d) := by
  unfold settleRole
  split
  · exact sameBut_trans (sameBut_tbSo d _ _) (sameBut_dropServo _)
  · exact sameBut_ite (fun _ => sameBut_enterUnset d) fun _ => sameBut_refl _ d

theorem sameBut_settleAlign (d : Dev) : SameBut [.tb, .ic, .ne] d (settleAlign d) := by
  have h := fun x => sameBut_mono (m := [.tb, .ic, .ne]) (sameBut_tb d x) (by decide)
  exact sameBut_ite (fun _ => sameBut_trans (h _) (sameBut_tbFlag 10 _)) fun _ => h _

theorem sameBut_settleDomain (d : Dev) : SameBut [.lk] d (settleDomain d) := sameBut_lk d _

theorem sameBut_settleAll (d : Dev) : SameBut [.tb, .so, .lk, .ic, .ne] d (settleAll d) :=
  sameBut_then (sameBut_settleDomain _) (by decide) (sameBut_then (sameBut_settleAlign _) (by decide)
    (sameBut_mono (sameBut_settleRole d) (by decide)))

theorem sameBut_setRole (r : Nat) (d : Dev) : SameBut [.tb, .so, .ptp, .lk, .ic, .ne] d (setRole r d) := by
  have h : ∀ x y z w, SameBut [.tb, .so, .ptp, .lk, .ic, .ne] d { d with tb := x, so := y, ptp := z, lk := w } := fun x y z w =>
    sameBut_then (sameBut_lk { d with tb := x, so := y, ptp := z } w) (by decide)
      (sameBut_then (sameBut_ptp { d with tb := x, so := y } z) (by decide) (sameBut_mono (sameBut_tbSo d x y) (by decide)))
  exact sameBut_ite (fun _ => sameBut_then (sameBut_settleAll _) (by decide) (h _ _ _ _)) fun _ =>
    sameBut_then (sameBut_settleAll _) (by decide) (h _ _ _ _)

end Sys2Proof.Proofs
end

section
/-! SUPPORT. Frames of the operations on lost masters, lost workers, a takeover and what leaves at the end of a cyclic window
(R360, R361, R365, R366, R368). -/

namespace Sys2Proof.Proofs

open Sys2Proof Sys2Proof.Machine Sys2Proof.Laws

/-! ### Axes that lose their source (R108, R365, R366) -/

/-- The parts that an axis's loss of its source can reach. -/
def lossParts : List Part := [.ax, .chases, .ic, .ne]

theorem sameBut_enterCoast (a : Nat) (d : Dev) : SameBut [.ax, .ic, .ne] d (enterCoast a d) :=
  sameBut_then (sameBut_axFlag _ _ _) (by decide) (sameBut_mono (sameBut_updAxis d a _) (by decide))

theorem sameBut_enterLost (a : Nat) (d : Dev) : SameBut lossParts d (enterLost a d) :=
  sameBut_then (sameBut_disturb _ _ _) (by decide) (sameBut_then (sameBut_axFlag _ _ _) (by decide)
    (sameBut_mono (sameBut_updAxis d a _) (by decide)))

theorem sameBut_remoteMiss (a : Nat) (d : Dev) : SameBut lossParts d (remoteMiss a d) :=
  sameBut_ite (fun _ => sameBut_mono (sameBut_enterCoast a d) (by decide)) fun _ => sameBut_refl _ d

theorem sameBut_coastLimit (a : Nat) (d : Dev) : SameBut lossParts d (coastLimit a d) :=
  sameBut_ite (fun _ => sameBut_enterLost a d) fun _ => sameBut_refl _ d

theorem sameBut_coastMax (a : Nat) (d : Dev) : SameBut lossParts d (coastMax a d) :=
  sameBut_ite (fun _ => sameBut_enterLost a d) fun _ => sameBut_refl _ d

/-! ### Masters and members -/

theorem sameBut_masterLost (m : Nat) (d : Dev) : SameBut [.lk, .ax, .ic, .ne] d (masterLost m d) := by
  have hcoast : ∀ a x, SameBut [.lk, .ax, .ic, .ne] x (if (x.axis a).st.sync = .locked then enterCoast a x else x) := fun a x =>
    sameBut_ite (fun _ => sameBut_mono (sameBut_enterCoast a x) (by decide)) fun _ => sameBut_refl _ x
  have hlost := fun y => sameBut_then (l := [.lk, .ax, .ic, .ne]) (sameBut_emFlag 0 15 { d with lk := y }) (by decide)
    (sameBut_mono (sameBut_lk d y) (by decide))
  exact sameBut_ite (fun _ => sameBut_trans (hlost _) (sameBut_forEach _ hcoast _ _)) fun _ => sameBut_refl _ d

theorem sameBut_workerLost (a : Nat) (d : Dev) : SameBut [.lk, .ic, .ne] d (workerLost a d) :=
  sameBut_ite (fun _ => sameBut_then (sameBut_emFlag _ _ _) (by decide) (sameBut_mono (sameBut_updMember d a _) (by decide)))
    fun _ => sameBut_refl _ d

/-! ### A standby's takeover (R368) -/

/-- The parts that a takeover can reach. -/
def takeoverParts : List Part := [.lk, .so, .tb, .ptp, .ic, .ne]

theorem sameBut_soPtp (d : Dev) (x : ServoObj) (y : Ptp) : SameBut [.so, .ptp] d { d with so := x, ptp := y } :=
  sameBut_then (sameBut_ptp { d with so := x } y) (by decide) (sameBut_mono (sameBut_so d x) (by decide))

theorem sameBut_takeover (d : Dev) : SameBut takeoverParts d (takeover d) := by
  have h := fun x => sameBut_mono (m := takeoverParts) (sameBut_lk d x) (by decide)
  refine sameBut_ite (fun _ => sameBut_refl _ d) fun _ => sameBut_ite (fun _ => ?_) fun _ =>
    sameBut_then (sameBut_emFlag 0 8 _) (by decide) (h _)
  exact sameBut_then (sameBut_soPtp _ _ _) (by decide) (sameBut_then (sameBut_setRole 3 _) (by decide)
    (sameBut_then (sameBut_emFlag 0 14 _) (by decide) (sameBut_then (sameBut_dropServo _) (by decide) (h _))))

/-! ### What leaves at the end of the cyclic window (R360) -/

/-- The parts that messages reach as they leave. -/
def leaveParts : List Part := [.ptp, .so, .tb, .ic, .ne, .lk, .ds]

theorem sameBut_sendPtp (x : PtpMsg) (d : Dev) : SameBut [.ptp] d (sendPtp x d) := sameBut_ptp d _

theorem sameBut_syncLeaves (p g : Nat) (d : Dev) : SameBut leaveParts d (syncLeaves p g d) :=
  sameBut_then (sameBut_settleAlign _) (by decide) (sameBut_then (sameBut_soPtp _ _ _) (by decide)
    (sameBut_then (sameBut_sendPtp _ _) (by decide) (sameBut_mono (sameBut_sendPtp _ d) (by decide))))

theorem sameBut_announceLeaves (p : Nat) (d : Dev) : SameBut [.ptp] d (announceLeaves p d) :=
  sameBut_trans (sameBut_ptp d _) (sameBut_sendPtp _ _)

theorem sameBut_pdelayReqLeaves (p g : Nat) (d : Dev) : SameBut [.ptp] d (pdelayReqLeaves p g d) :=
  sameBut_trans (sameBut_trans (sameBut_updPtpPort d p _) (sameBut_ptp _ _)) (sameBut_sendPtp _ _)

theorem sameBut_pdelayRespLeaves (p : Nat) (seq : BitVec 16) (rx : Time64) (g : Nat) (d : Dev) :
    SameBut [.ptp] d (pdelayRespLeaves p seq rx g d) := sameBut_trans (sameBut_sendPtp _ d) (sameBut_sendPtp _ _)

theorem sameBut_leaves (m : Nat) (w : Waiting) (d : Dev) : SameBut leaveParts d (leaves m w d) := by
  cases w with
  | sync g => exact sameBut_syncLeaves m g d
  | announce => exact sameBut_mono (sameBut_announceLeaves m d) (by decide)
  | pdelayReq g => exact sameBut_mono (sameBut_pdelayReqLeaves m g d) (by decide)
  | pdelayResp seq rx g => exact sameBut_mono (sameBut_pdelayRespLeaves m seq rx g d) (by decide)
  | reply kind dest data => exact sameBut_mono (sameBut_lk d _) (by decide)
  | datagram n l => exact sameBut_mono (sameBut_ds d _) (by decide)

theorem sameBut_releaseWaiting (m : Nat) (d : Dev) : SameBut leaveParts d (releaseWaiting m d) :=
  sameBut_ite (fun _ => sameBut_refl _ d) fun _ =>
    sameBut_trans (sameBut_mono (sameBut_updMac d m _) (by decide)) (sameBut_forEach _ (sameBut_leaves m) _ _)

theorem sameBut_gateClose (m : Nat) (d : Dev) : SameBut leaveParts d (gateClose m d) := by
  have h := sameBut_trans (sameBut_mono (m := leaveParts) (sameBut_updMac d m fun x => { x with gate := false }) (by decide))
    (sameBut_releaseWaiting m _)
  exact sameBut_ite (fun _ => sameBut_ite (fun _ => sameBut_then (sameBut_emFlag 0 9 _) (by decide) h) fun _ => h)
    fun _ => sameBut_refl _ d

end Sys2Proof.Proofs
end

section
/-! O11: the boundary of a tick (R15, R49): the work that a boundary sets off leaves the tick block as the strobe made it. -/

namespace Sys2Proof.Proofs

open Sys2Proof Sys2Proof.Machine Sys2Proof.Laws

/-! ### Operations that leave the tick block alone -/

theorem tick_forEach {α : Type} (f : α → Dev → Dev) (h : ∀ a d, (f a d).tick = d.tick) (l : List α) (d : Dev) :
    (forEach l f d).tick = d.tick := by
  unfold forEach
  induction l generalizing d with
  | nil => rfl
  | cons a t ih => exact (ih (f a d)).trans (h a d)

@[simp] theorem memberEvent_tick (n : Nat) (d : Dev) : (memberEvent n d).tick = d.tick :=
  kept_tick (sameBut_memberEvent n d) (by decide)
@[simp] theorem fpFlag_tick (p b : Nat) (d : Dev) : (fpFlag p b d).tick = d.tick := kept_tick (sameBut_fpFlag p b d) (by decide)
@[simp] theorem emFlag_tick (m b : Nat) (d : Dev) : (emFlag m b d).tick = d.tick := kept_tick (sameBut_emFlag m b d) (by decide)
@[simp] theorem fmFlag_tick (b : Nat) (d : Dev) : (fmFlag b d).tick = d.tick := memberEvent_tick _ _
@[simp] theorem loFinish_tick (f : LongOps → LongOps) (d : Dev) : (loFinish f d).tick = d.tick := memberEvent_tick _ _
@[simp] theorem counterStart_tick (n : Nat) (d : Dev) : (counterStart n d).tick = d.tick :=
  kept_tick (sameBut_counterStart n d) (by decide)
@[simp] theorem remoteMiss_tick (a : Nat) (d : Dev) : (remoteMiss a d).tick = d.tick := kept_tick (sameBut_remoteMiss a d) (by decide)
@[simp] theorem coastLimit_tick (a : Nat) (d : Dev) : (coastLimit a d).tick = d.tick := kept_tick (sameBut_coastLimit a d) (by decide)
@[simp] theorem coastMax_tick (a : Nat) (d : Dev) : (coastMax a d).tick = d.tick := kept_tick (sameBut_coastMax a d) (by decide)
@[simp] theorem masterLost_tick (m : Nat) (d : Dev) : (masterLost m d).tick = d.tick := kept_tick (sameBut_masterLost m d) (by decide)
@[simp] theorem workerLost_tick (a : Nat) (d : Dev) : (workerLost a d).tick = d.tick := kept_tick (sameBut_workerLost a d) (by decide)
@[simp] theorem takeover_tick (d : Dev) : (takeover d).tick = d.tick := kept_tick (sameBut_takeover d) (by decide)
@[simp] theorem gateClose_tick (m : Nat) (d : Dev) : (gateClose m d).tick = d.tick := kept_tick (sameBut_gateClose m d) (by decide)
@[simp] theorem updCtx_tick (d : Dev) (e c : Nat) (f : Ctx → Ctx) : (d.updCtx e c f).tick = d.tick := rfl

/-! #### Counters, compositors and the timebase -/

theorem startCounters_tick (d : Dev) : (startCounters d).tick = d.tick := by
  refine tick_forEach _ (fun n x => ?_) _ d
  simp

theorem strobeComps_tick (d : Dev) : (strobeComps d).tick = d.tick := by
  refine tick_forEach _ (fun k x => ?_) _ d
  simp

theorem boundaryStep_tick (takes : Bool) (d : Dev) : (boundaryStep takes d).tick = d.tick := by
  unfold boundaryStep
  dsimp only
  split
  · rw [apply_ite Dev.tick, ite_self]
  · rfl
  · rfl

/-! #### Engines -/

theorem restartContexts_tick (e : Nat) (l : List Nat) (f : Ctx → Ctx) (d : Dev) :
    (forEach l (fun c x => x.updCtx e c f) d).tick = d.tick := by
  refine tick_forEach _ (fun c x => ?_) l d
  simp

theorem engineLoads_tick (d : Dev) : (engineLoads d).tick = d.tick := by
  unfold engineLoads
  dsimp only
  refine tick_forEach _ (fun e x => ?_) _ d
  simp

theorem comeOnline_tick (e : Nat) (d : Dev) : (comeOnline e d).tick = d.tick := by
  unfold comeOnline
  simp [restartContexts_tick]

theorem requeue_tick (e : Nat) (d : Dev) : (requeue e d).tick = d.tick := by
  unfold requeue
  split <;> simp

theorem takeLock_tick (e : Nat) (d : Dev) : (takeLock e d).tick = d.tick := by
  unfold takeLock
  dsimp only
  split
  · rfl
  · simp only [updEng_tick, requeue_tick]
    exact tick_forEach _ (fun x y => restartContexts_tick x _ _ y) _ d

theorem boundaryEngines_tick (d : Dev) : (boundaryEngines d).tick = d.tick := by
  have honline : ∀ e (x : Dev), (if (x.eng e).onReq then comeOnline e x else x).tick = x.tick := fun e x => by
    split
    · exact comeOnline_tick e x
    · rfl
  unfold boundaryEngines
  dsimp only
  rw [tick_forEach _ (fun _ _ => by simp), tick_forEach takeLock takeLock_tick, tick_forEach _ honline]

theorem capCredits_tick (d : Dev) : (capCredits d).tick = d.tick := by
  refine tick_forEach _ (fun e x => ?_) _ d
  split <;> simp

/-! #### Field ports -/

theorem settlePort_tick (p : Nat) (d : Dev) : (settlePort p d).tick = d.tick := by
  unfold settlePort
  dsimp only
  split
  · rfl
  · split <;> simp

theorem settlePorts_tick (d : Dev) : (settlePorts d).tick = d.tick := tick_forEach _ settlePort_tick _ d

theorem fpBoundary_tick (p : Nat) (d : Dev) : (fpBoundary p d).tick = d.tick := by
  have hserved : ∀ h (x : Dev), (if (x.head h).served then x.updHead h fun x => { x with served := false } else x).tick = x.tick := fun h x => by
    split <;> simp
  have hcyc : ∀ (c : Bool) f, (if c = true then fpFlag p 5 (d.updFp p f) else d).tick = d.tick := fun c f => by
    split <;> simp
  unfold fpBoundary
  dsimp only
  rw [apply_ite Dev.tick, updFp_tick, tick_forEach _ (fun _ _ => by simp), tick_forEach _ hserved, updFp_tick, hcyc, ite_self]

/-! #### Axes -/

theorem remoteTick_tick (a : Nat) (d : Dev) : (remoteTick a d).tick = d.tick := by
  unfold remoteTick
  dsimp only
  split
  · rfl
  · split
    · split <;> simp
    · split <;> simp
    · rfl

/-! #### The link -/

theorem coastBoundary_tick (a : Nat) (d : Dev) : (coastBoundary a d).tick = d.tick := by
  unfold coastBoundary
  dsimp only
  split
  · split <;> simp
  · rfl

theorem masterBoundary_tick (m : Nat) (d : Dev) : (masterBoundary m d).tick = d.tick := by
  have h : ∀ (c : Bool) x y, (if c = true then ({ d with lk := x } : Dev)
      else if 3 ≤ Bank.get 0 d.lk.masterMiss m + 1 then masterLost m { d with lk := y } else { d with lk := y }).tick = d.tick := fun c x y => by
    split
    · rfl
    · split <;> simp
  exact h _ _ _

theorem memberBoundary_tick (a : Nat) (d : Dev) : (memberBoundary a d).tick = d.tick := by
  unfold memberBoundary
  dsimp only
  split
  · split <;> simp
  · rfl

theorem silentBoundary_tick (d : Dev) : (silentBoundary d).tick = d.tick := by
  unfold silentBoundary
  dsimp only
  rw [apply_ite Dev.tick, apply_ite Dev.tick, takeover_tick, ite_self, ite_self]

theorem drawBytes_tick (l : List Nat) (acc : List Byte × Dev) : (l.foldl (fun (acc : List Byte × Dev) _ =>
    (acc.1 ++ beBytes 8 acc.2.draw.1.toNat, acc.2.draw.2)) acc).2.tick = acc.2.tick := by
  induction l generalizing acc with
  | nil => rfl
  | cons _ t ih => exact ih _

theorem appBytes_tick (d : Dev) : (appBytes d).2.tick = d.tick := by
  unfold appBytes
  split
  · exact drawBytes_tick _ _
  · rfl

theorem takeBody_tick (past : Bool) (d : Dev) : (takeBody past d).tick = d.tick := appBytes_tick d

theorem linkBoundary_tick (past : Bool) (d : Dev) : (linkBoundary past d).tick = d.tick := by
  have hsettle : ∀ x, (settleDomain x).tick = x.tick := fun _ => rfl
  unfold linkBoundary
  dsimp only
  rw [takeBody_tick]
  dsimp only
  rw [silentBoundary_tick, apply_ite Dev.tick, tick_forEach _ memberBoundary_tick, ite_self, apply_ite Dev.tick,
    tick_forEach _ masterBoundary_tick, apply_ite Dev.tick, ite_self, ite_self, tick_forEach _ coastBoundary_tick, hsettle,
    tick_forEach _ gateClose_tick]

/-! #### The monitor and the power states -/

theorem publishMargins_tick (d : Dev) : (publishMargins d).tick = d.tick := by
  unfold publishMargins
  dsimp only
  split <;> simp

theorem planTakesEffect_tick (d : Dev) : (planTakesEffect d).tick = d.tick := by
  unfold planTakesEffect
  split
  · rfl
  · dsimp only
    simp only [apply_ite Dev.tick, publishMargins_tick, fmFlag_tick, ite_self]

theorem surveyStart_tick (d : Dev) : (surveyStart d).tick = d.tick := by
  unfold surveyStart
  split <;> rfl

theorem surveyAbandon_tick (d : Dev) : (surveyAbandon d).tick = d.tick := by
  unfold surveyAbandon
  split <;> simp

theorem restartEngines_tick (d : Dev) : (restartEngines d).tick = d.tick := by
  refine tick_forEach _ (fun e x => ?_) _ d
  simp [restartContexts_tick]

theorem afterHold_tick (d : Dev) : (afterHold d).tick = d.tick := by
  unfold afterHold
  split <;> simp [restartEngines_tick]

theorem armWakeLatches_tick (d : Dev) : (armWakeLatches d).tick = d.tick := by
  refine tick_forEach _ (fun n x => ?_) _ d
  dsimp only
  split <;> simp

theorem holdAbandon_tick (d : Dev) : (holdAbandon d).tick = d.tick := by
  unfold holdAbandon
  dsimp only
  split
  · exact restartEngines_tick _
  · rfl

theorem holdEntry_tick (d : Dev) : (holdEntry d).tick = d.tick := by
  unfold holdEntry
  split
  · split
    · exact holdAbandon_tick d
    · dsimp only
      rw [surveyAbandon_tick, armWakeLatches_tick]
  · rfl

theorem idleExit_tick (d : Dev) : (idleExit d).tick = d.tick := by
  unfold idleExit
  split
  · exact restartEngines_tick _
  · rfl

theorem idleEntry_tick (d : Dev) : (idleEntry d).tick = d.tick := by
  unfold idleEntry settleStop
  split
  · split
    · rfl
    · split <;> rfl
  · rfl

theorem boundaryPower_tick (d : Dev) : (boundaryPower d).tick = d.tick := by
  rw [boundaryPower, idleEntry_tick, idleExit_tick, holdEntry_tick, afterHold_tick]

end Sys2Proof.Proofs
end

section
namespace Sys2Proof.Proofs

open Sys2Proof Sys2Proof.Machine Sys2Proof.Laws

/-! ### The strobe and what takes over with it (R15, R18, R364) -/

/-- The tick block after the strobe of a device that stands at its boundary (R15). -/
def strobedTick (d : Dev) : TickCtl :=
  { d.tick with
    lastBoundary := d.tick.next, number := d.tick.number + 1, count := d.tick.count + 1, strobeAt := some d.tb.tclk
    strobeTime := d.tb.time, unsettled := false, next := d.tick.next + BitVec.ofNat 64 (d.tick.period * 64) }

theorem raiseStrobe_tick (d : Dev) : (raiseStrobe d).tick = strobedTick d := memberEvent_tick _ _

/-- What the strobe leaves stands in `y` as in `x`, whatever period or grid has taken over. -/
def StrobeKept (x y : TickCtl) : Prop :=
  y.count = x.count ∧ y.unsettled = x.unsettled ∧ y.lastBoundary = x.lastBoundary ∧ y.strobeAt = x.strobeAt

theorem strobeKept_refl (x : TickCtl) : StrobeKept x x := ⟨rfl, rfl, rfl, rfl⟩

theorem strobeKept_trans {x y z : TickCtl} (h : StrobeKept x y) (h2 : StrobeKept y z) : StrobeKept x z := by
  obtain ⟨hc, hu, hl, hs⟩ := h
  obtain ⟨hc2, hu2, hl2, hs2⟩ := h2
  exact ⟨hc2.trans hc, hu2.trans hu, hl2.trans hl, hs2.trans hs⟩

theorem takePeriod_strobeKept (d : Dev) : StrobeKept d.tick (takePeriod d).tick := by
  unfold takePeriod
  dsimp only
  rw [settlePorts_tick]
  exact ⟨rfl, rfl, rfl, rfl⟩

theorem takeGrid_strobeKept (tref : Time64) (p : Nat) (n : BitVec 16) (d : Dev) : StrobeKept d.tick (takeGrid tref p n d).tick := by
  unfold takeGrid
  dsimp only
  split
  · exact strobeKept_refl _
  · split
    · dsimp only
      rw [settlePorts_tick, emFlag_tick]
      exact ⟨rfl, rfl, rfl, rfl⟩
    · dsimp only
      rw [settlePorts_tick, emFlag_tick]
      exact ⟨rfl, rfl, rfl, rfl⟩

theorem adoptGrid_strobeKept (d : Dev) : StrobeKept d.tick (adoptGrid d).tick := by
  unfold adoptGrid
  split
  · exact takeGrid_strobeKept _ _ _ d
  · exact strobeKept_refl _

theorem adoptGrid_none {d : Dev} (h : d.lk.adopt = none) : adoptGrid d = d := by
  rw [adoptGrid, h]

/-- The device with the period and grid that hold from the boundary on, the strobe being raised. -/
def regridded (d : Dev) : Dev :=
  adoptGrid (if changeDue (engineLoads (raiseStrobe (reachBoundary d))) then takePeriod (engineLoads (raiseStrobe (reachBoundary d)))
    else engineLoads (raiseStrobe (reachBoundary d)))

/-- All the work of a boundary after that leaves the tick block alone. -/
theorem tickBoundary_tick (d : Dev) : (tickBoundary d).tick = (regridded d).tick := by
  unfold tickBoundary
  dsimp only
  rw [capCredits_tick, boundaryPower_tick, apply_ite Dev.tick, surveyStart_tick, ite_self, planTakesEffect_tick, linkBoundary_tick,
    tick_forEach _ remoteTick_tick, tick_forEach _ fpBoundary_tick, boundaryEngines_tick, strobeComps_tick, startCounters_tick,
    boundaryStep_tick]
  rfl

theorem tickBoundary_strobeKept (d : Dev) : StrobeKept (strobedTick (reachBoundary d)) (tickBoundary d).tick := by
  rw [tickBoundary_tick, ← raiseStrobe_tick, ← engineLoads_tick]
  refine strobeKept_trans ?_ (adoptGrid_strobeKept _)
  split
  · exact takePeriod_strobeKept _
  · exact strobeKept_refl _

/-! ### The way to the boundary (log entry 35) -/

theorem shiftAll_count (x : W64) (d : Dev) : (shiftAll x d).tick.count = d.tick.count := by
  have hc := fun l (y : Dev) => tick_forEach (fun k y => y.updChase k (shiftChase x)) (fun _ _ => by simp) l y
  have hh := fun l (y : Dev) => tick_forEach (fun k y => y.updHead k (shiftHead x)) (fun _ _ => by simp) l y
  have ha := fun l (y : Dev) => tick_forEach (fun k y => y.updAxis k (stepTrack x)) (fun _ _ => by simp) l y
  unfold shiftAll
  dsimp only
  rw [ha, hh, hc]

theorem tbFlag_tick (b : Nat) (d : Dev) : (tbFlag b d).tick = d.tick := kept_tick (sameBut_tbFlag b d) (by decide)

theorem regrid_count (d : Dev) : (regrid d).tick.count = d.tick.count := rfl

theorem applyStep_count (d : Dev) : (applyStep d).tick.count = d.tick.count := by
  unfold applyStep
  split
  · rfl
  · rw [tbFlag_tick]
    dsimp only
    rw [shiftAll_count]
  · rw [tbFlag_tick, regrid_count]
    dsimp only
    rw [shiftAll_count]

theorem passQuiet_count (d : Dev) : (passQuiet d).tick.count = d.tick.count := by
  unfold passQuiet
  split
  · split <;> rfl
  · rfl

theorem landChases_tick (d : Dev) : (landChases d).tick = d.tick := tick_forEach _ (fun _ _ => by simp) _ d

theorem landChannels_tick (d : Dev) : (landChannels d).tick = d.tick := tick_forEach _ (fun _ _ => by simp) _ d

theorem reachBoundary_count (d : Dev) : (reachBoundary d).tick.count = d.tick.count := by
  unfold reachBoundary
  dsimp only
  split
  · exact applyStep_count d
  · rw [passQuiet_count]
    dsimp only
    rw [landChases_tick, landChannels_tick]
    exact applyStep_count d

theorem sdiff_nonpos_of_atOrAfter {a b : W64} (h : atOrAfter a b = true) : Machine.sdiff b a ≤ 0 := by
  have hd : 0 ≤ (a - b).toInt := of_decide_eq_true h
  rw [Machine.sdiff]
  rw [BitVec.toInt_eq_toNat_cond] at hd ⊢
  split at hd <;> split <;> bv_omega

/-- A device whose TIME64 has come to the boundary stands there already. -/
theorem reachBoundary_there {d : Dev} (hs : d.tb.stepNow = none) (ht : atOrAfter d.tb.time d.tick.next = true) :
    reachBoundary d = d := by
  have ha : applyStep d = d := by rw [applyStep, hs]
  unfold reachBoundary
  dsimp only
  rw [ha, if_pos (sdiff_nonpos_of_atOrAfter ht)]

/-! ### A boundary at which no period and no grid takes over -/

theorem engineLoads_lk (d : Dev) : (engineLoads d).lk = d.lk := by
  unfold engineLoads
  dsimp only
  exact kept_lk (sameBut_forEach _ (fun e x => sameBut_updEng x e _) _ d) (by decide)

theorem raiseStrobe_lk (d : Dev) : (raiseStrobe d).lk = d.lk := by
  unfold raiseStrobe
  dsimp only
  rw [kept_lk (sameBut_memberEvent _ _) (by decide)]

theorem regridded_plain {d : Dev} (hs : d.tb.stepNow = none) (ha : d.lk.adopt = none) (hc : d.tick.change ≠ 1)
    (ht : atOrAfter d.tb.time d.tick.next = true) : (regridded d).tick = strobedTick d := by
  have htick : (engineLoads (raiseStrobe d)).tick = strobedTick d := (engineLoads_tick _).trans (raiseStrobe_tick d)
  have hdue : changeDue (engineLoads (raiseStrobe d)) = false := by
    rw [changeDue, htick]
    simp [strobedTick, hc]
  rw [regridded, reachBoundary_there hs ht, hdue, if_neg (by decide), adoptGrid_none, htick]
  rw [engineLoads_lk, raiseStrobe_lk, ha]

end Sys2Proof.Proofs

namespace Sys2Proof.Proofs

open Sys2Proof Sys2Proof.Machine Sys2Proof.Laws

theorem exec_tickBoundary {s : State} (hl : live s.core.dev = true) :
    exec .tickBoundary s = .next { s with core := { s.core with dev := tickBoundary s.core.dev } } :=
  (show exec .tickBoundary s = whenLiveDev true tickBoundary s from rfl).trans (whenLiveDev_ok _ s hl)

/-- Settles O11: the strobe sets the tick block, and nothing that the boundary sets off after it touches what the strobe leaves. -/
theorem tickAdvances : Obligations.TickAdvances := by
  refine ⟨fun s hl => ?_, fun s hl hs ha hc ht => ?_⟩
  · obtain ⟨hcount, hunsettled, hlast, hstrobe⟩ := tickBoundary_strobeKept s.core.dev
    have hcount' := hcount.trans (congrArg (· + 1) (reachBoundary_count s.core.dev))
    refine ⟨_, exec_tickBoundary hl, ?_⟩
    generalize tickBoundary s.core.dev = d at hcount' hunsettled hlast hstrobe
    exact ⟨rfl, rfl, hcount', hunsettled, hlast, hstrobe⟩
  · have htick := (tickBoundary_tick s.core.dev).trans (regridded_plain hs ha hc ht)
    refine ⟨_, exec_tickBoundary hl, ?_⟩
    generalize tickBoundary s.core.dev = d at htick
    exact ⟨rfl, rfl, congrArg TickCtl.number htick, congrArg TickCtl.lastBoundary htick, congrArg TickCtl.next htick⟩

end Sys2Proof.Proofs
end

section
/-! O51: the frames of the synchronisation domain (R354–R369): what each link command does, case by case. -/

namespace Sys2Proof.Proofs

open Sys2Proof Sys2Proof.Machine Sys2Proof.Laws

/-! ### The event bits of a MAC (R375) -/

/-- An event bit changes of the link nothing but the STAT of its MAC. -/
theorem emFlag_lk (m b : Nat) (d : Dev) : (emFlag m b d).lk = (d.updMac m fun x => { x with stat := orBit x.stat b }).lk := by
  unfold emFlag
  dsimp only
  split
  · exact kept_lk (sameBut_memberEvent _ _) (by decide)
  · rfl

theorem emFlag_mac_same (m b : Nat) (d : Dev) : (emFlag m b d).mac m = { d.mac m with stat := orBit (d.mac m).stat b } := by
  rw [Dev.mac, emFlag_lk]
  exact updMac_same d m _

theorem emFlag_stat {b : Nat} (m : Nat) (d : Dev) (hb : b < 32) : bit ((emFlag m b d).mac m).stat b = true := by
  rw [emFlag_mac_same]
  exact bit_orBit_same _ _ hb

/-- Of the other fields of a MAC an event bit changes none, whichever MAC shows it. -/
theorem emFlag_mac (m b k : Nat) (d : Dev) : (emFlag m b d).mac k = { d.mac k with stat := ((emFlag m b d).mac k).stat } := by
  by_cases h : k = m
  · subst h; rw [emFlag_mac_same]
  · have hk : (emFlag m b d).mac k = d.mac k := by
      rw [Dev.mac, emFlag_lk]
      exact updMac_other d m k _ h
    rw [hk]

theorem emFlag_member (m b a : Nat) (d : Dev) : (emFlag m b d).member a = d.member a := by
  rw [Dev.member, emFlag_lk]
  rfl

/-! ### The cyclic gate (R358, R360) -/

section
variable {d : Dev} {m : Nat}

/-- MAC `m` with its gate open, or closed. -/
def gateAt (m : Nat) (v : Bool) (d : Dev) : Dev := d.updMac m fun x => { x with gate := v }

theorem gateAt_mac_same (m : Nat) (v : Bool) (d : Dev) : (gateAt m v d).mac m = { d.mac m with gate := v } := updMac_same d m _

theorem gateAt_mac_other {k : Nat} (m : Nat) (v : Bool) (d : Dev) (h : k ≠ m) : (gateAt m v d).mac k = d.mac k :=
  updMac_other d m k _ h

theorem cyclicMac_gateAt (m : Nat) (v : Bool) (d : Dev) : cyclicMac (gateAt m v d) m = cyclicMac d m := by
  rw [cyclicMac, gateAt_mac_same]
  rfl

theorem gateOpen_noFrame (hc : cyclicMac d m = true) (hf : d.lk.formed = none) : gateOpen m d = gateAt m true d := by
  have h : (gateAt m true d).lk.formed = none := hf
  rw [gateOpen, if_pos hc, sendTrajectory]
  unfold gateAt at h ⊢
  rw [h]

/-- The trajectory of the tick leaves as the gate opens. -/
theorem gateOpen_sends {f : Trajectory} (hc : cyclicMac d m = true) (hf : d.lk.formed = some f) (hs : bit d.lk.sentOn m = false)
    (hw : fitsWindow d (d.mac m) 0 (linkPayload d 1 d.tick.number (trajBody f)).length = true) :
    gateOpen m d = { gateAt m true d with lk := { (gateAt m true d).lk with
      sent := d.lk.sent ++ [⟨m, groupAddress d, d.lk.cfg.pcp, linkPayload d 1 d.tick.number (trajBody f)⟩]
      sentOn := d.lk.sentOn ||| BitVec.ofNat 4 (2 ^ m) } } := by
  have hc2 : cyclicMac (gateAt m true d) m = true := (cyclicMac_gateAt m true d).trans hc
  have hg2 : ((gateAt m true d).mac m).gate = true := by rw [gateAt_mac_same]
  have hw2 : fitsWindow (gateAt m true d) ((gateAt m true d).mac m) 0 (linkPayload d 1 d.tick.number (trajBody f)).length = true := by
    rw [gateAt_mac_same]; exact hw
  have hf2 : (gateAt m true d).lk.formed = some f := hf
  have hs2 : bit (gateAt m true d).lk.sentOn m = false := hs
  have hp2 : linkPayload (gateAt m true d) 1 (gateAt m true d).tick.number (trajBody f) = linkPayload d 1 d.tick.number (trajBody f) := rfl
  rw [gateOpen, if_pos hc]
  change sendTrajectory m 0 (gateAt m true d) = _
  rw [sendTrajectory, hf2]
  dsimp only
  rw [hp2, hc2, hg2, hs2, hw2]
  rfl

theorem releaseWaiting_none (h : (d.mac m).held = []) : releaseWaiting m d = d := by
  simp [releaseWaiting, h]

/-- A reply and a datagram that waited leave in their order. -/
theorem releaseWaiting_two {kind n : Nat} {dest : W32} {data l : List Byte}
    (h : (d.mac m).held = [.reply kind dest data, .datagram n l]) :
    releaseWaiting m d = datagramLeaves n l (replyLeaves m kind dest data (d.updMac m fun x => { x with held := [] })) := by
  rw [releaseWaiting, h]
  rfl

/-- At the end of the window what waited leaves; off the manager's cyclic MACs that is all. -/
theorem gateClose_open (hg : (d.mac m).gate = true) (hr : roleManager (releaseWaiting m (gateAt m false d)) = false) :
    gateClose m d = releaseWaiting m (gateAt m false d) := by
  rw [gateClose, if_pos hg]
  change (if (roleManager (releaseWaiting m (gateAt m false d)) && _ && _) = true then _ else _) = _
  rw [hr]
  rfl

/-- The trajectory that has not left misses the window (R358). -/
theorem gateClose_misses (hg : (d.mac m).gate = true) (hr : roleManager d = true) (hc : cyclicMac d m = true)
    (hs : bit d.lk.sentOn m = false) (hh : (d.mac m).held = []) : gateClose m d = emFlag 0 9 (gateAt m false d) := by
  have hrel : releaseWaiting m (gateAt m false d) = gateAt m false d :=
    releaseWaiting_none (by rw [gateAt_mac_same]; exact hh)
  have hc2 : cyclicMac (gateAt m false d) m = true := (cyclicMac_gateAt m false d).trans hc
  have hs2 : bit (gateAt m false d).lk.sentOn m = false := hs
  have hr2 : roleManager (gateAt m false d) = true := hr
  rw [gateClose, if_pos hg]
  change (if (roleManager (releaseWaiting m (gateAt m false d)) && cyclicMac (releaseWaiting m (gateAt m false d)) m &&
    !bit (releaseWaiting m (gateAt m false d)).lk.sentOn m) = true then emFlag 0 9 (releaseWaiting m (gateAt m false d)) else _) = _
  rw [hrel, hr2, hc2, hs2]
  rfl

end

/-! ### Trajectory frames (R362, R363, R369) -/

section
variable {d : Dev} {m : Nat} {src : BitVec 48} {f : Trajectory}

theorem trajectoryRx_foreign (h : f.domain ≠ d.lk.cfg.domainId) : trajectoryRx m src f d = settleDomain d := by
  have h2 : (f.domain != (settleDomain d).lk.cfg.domainId) = true := bne_iff_ne.mpr h
  unfold trajectoryRx
  dsimp only
  rw [h2]
  simp

/-- The frames that a locked worker judges: of its own domain, from the manager, on a MAC that carries cyclic traffic. -/
structure WorkerHears (d : Dev) (m : Nat) (f : Trajectory) : Prop where
  cyclic : cyclicMac d m = true
  domain : f.domain = d.lk.cfg.domainId
  manager : f.src = 0
  active : f.stby = false
  worker : tbRole d.tb = 1
  locked : timeHeld d = true

/-- A worker judges the frame by its time, its generation and its source. -/
theorem trajectoryRx_worker (h : WorkerHears d m f) :
    trajectoryRx m src f d =
      if atOrAfter d.tb.time f.tref then (settleDomain d).updMac m fun x => { x with latec := incSat x.latec }
      else if !d.lk.accepted then acceptFrame m src f false (settleDomain d)
      else if genAfter d.lk.gen f.gen then staleFrame m (settleDomain d)
      else if genAfter f.gen d.lk.gen then acceptFrame m src f true (settleDomain d)
      else if d.lk.srcMac.toNat < src.toNat then staleFrame m (settleDomain d)
      else acceptFrame m src f false (settleDomain d) := by
  obtain ⟨hcyclic, hdom, hsrc, hstby, hrole, hheld⟩ := h
  have h1 : cyclicMac (settleDomain d) m = true := hcyclic
  have h2 : (f.domain != (settleDomain d).lk.cfg.domainId) = false := bne_eq_false_iff_eq.mpr hdom
  have h3 : roleManager (settleDomain d) = false := by
    have : roleManager d = false := by simp [roleManager, hrole]
    exact this
  have h4 : roleFollows (settleDomain d) = true := by
    have : roleFollows d = true := by simp [roleFollows, hrole]
    exact this
  have h5 : timeHeld (settleDomain d) = true := hheld
  unfold trajectoryRx
  dsimp only
  rw [h1, h2, h3, h4, h5, hsrc, hstby, if_neg (by decide), if_neg (by decide), if_neg (by decide), Bool.true_and]
  rfl

theorem genAfter_self (g : BitVec 8) : genAfter g g = false := by simp [genAfter]

/-- What a worker keeps of a frame it accepts: its source, its generation and the epoch it carries (R363). -/
def heardFrame (src : BitVec 48) (f : Trajectory) (d : Dev) : Dev :=
  { d with
    lk := { d.lk with gen := f.gen, srcMac := src, accepted := true, copyTick := some f.tick, heard := true, silent := 0 }
    so := { d.so with epochS := f.epochS, epochNs := f.epochNs, epochObjS := f.epochS, epochObjNs := f.epochNs } }

theorem acceptFrame_first (h : d.lk.copyTick ≠ some f.tick) :
    acceptFrame m src f false d = takeFrame f (heardFrame src f d) := by
  rw [acceptFrame, if_neg (fun hc => h hc.1)]
  rfl

theorem takeFrame_matching (ht : timeHeld d = true) (hg : gridMismatch d f = false) :
    takeFrame f d = { d with lk := { d.lk with taken := some f, mismatches := 0 } } := by
  simp [takeFrame, ht, hg]

end

/-! ### Summaries (R359, R361, R362) -/

section
variable {d : Dev} {m : Nat}

theorem summarySend_silent (h : (roleFollows d && cyclicMac d m && d.lk.accepted) = false) : summarySend m d = d := by
  simp [summarySend, h]

theorem summarySend_drops (h : (roleFollows d && cyclicMac d m && d.lk.accepted) = true) (hg : (d.mac m).gate = false) :
    summarySend m d = d.updMac m fun x => { x with sumdropc := incSat x.sumdropc } := by
  rw [summarySend, if_pos h]
  simp [hg]

theorem summarySend_leaves {l : List Byte} (h : (roleFollows d && cyclicMac d m && d.lk.accepted) = true)
    (hg : (d.mac m).gate = true) (hp : d.tick.number.toNat % 8 ≠ fullPhase d)
    (hl : linkPayload d 2 d.tick.number (d.lk.body.take 32) = l)
    (hw : fitsWindow d (d.mac m) ((d.lk.cfg.sumOffset + ownAddress d * d.lk.cfg.sumSpacing) * 64) l.length = true) :
    summarySend m d = { d with lk := { d.lk with sent := d.lk.sent ++ [⟨m, d.lk.srcMac, d.lk.cfg.pcp, l⟩] } } := by
  subst hl
  rw [summarySend, if_pos h]
  simp [hg, hp, hw]

section
variable {dom a : Nat} {src : BitVec 48} {tick : BitVec 16} {body : List Byte} {full : Bool}
  (hr : roleManager d = true) (hc : cyclicMac d m = true) (hd : dom = d.lk.cfg.domainId) (ha : a < 256)
include hr hc hd ha

theorem summaryRx_late (hl : summaryLate d tick = true) :
    summaryRx m dom src a tick body full d = d.updMac m fun x => { x with latec := incSat x.latec } := by
  simp [summaryRx, hr, hc, hd, ha, hl]

theorem summaryRx_taken (hl : summaryLate d tick = false) (hk : (d.member a).known = false ∨ (d.member a).mac = src) :
    summaryRx m dom src a tick body full d = d.updMember a fun x => { x with
      known := true, mac := src, seen := true, misses := 0, lost := false, inbox := some (tick, body, full) } := by
  have hsame : ((d.member a).known && (d.member a).mac != src) = false := by
    rcases hk with h | h <;> simp [h]
  simp [summaryRx, hr, hc, hd, ha, hl, hsame]

end

/-- The work of a later tick takes what a member has sent (R21). -/
theorem takeInbox_later {x : Member} {now tick : BitVec 16} {body : List Byte} {full : Bool} (h : x.inbox = some (tick, body, full))
    (hn : tick ≠ now) :
    takeInbox now x = { x with inbox := none, summary := body.take 32, full := if full then body.take 256 else x.full } := by
  rw [takeInbox, h]
  exact if_neg hn

end

/-! ### Lost masters, lost workers, takeovers (R362, R366, R368) -/

section
variable {d : Dev}

/-- The link with master `k` lost. -/
def withoutMaster (k : Nat) (d : Dev) : Dev :=
  { d with lk := { d.lk with
    lostMask := d.lk.lostMask ||| BitVec.ofNat 64 (2 ^ k), state := if d.lk.state = .joined then .masterLost else d.lk.state } }

theorem masterLost_first {k : Nat} (hk : k < 64) (hr : roleFollows d = true) (hb : bit d.lk.lostMask k = false)
    (ha : derivedAxes d k = []) : masterLost k d = emFlag 0 15 (withoutMaster k d) := by
  have hnone : derivedAxes (emFlag 0 15 (withoutMaster k d)) k = [] := by
    rw [derivedAxes, kept_ax (sameBut_emFlag 0 15 _) (by decide)]
    exact ha
  rw [masterLost, if_pos (by simp [hk, hr, hb])]
  change forEach (derivedAxes (emFlag 0 15 (withoutMaster k d)) k) _ (emFlag 0 15 (withoutMaster k d)) = _
  rw [hnone]
  rfl

theorem workerLost_first {a : Nat} (hr : roleManager d = true) (hk : (d.member a).known = true) (hl : (d.member a).lost = false) :
    workerLost a d = emFlag 0 10 (d.updMember a fun x => { x with lost := true }) := by
  rw [workerLost, if_pos (by simp [hr, hk, hl])]

theorem takeover_blocked (hr : tbRole d.tb = 2) (hs : domState d ≠ .standby) :
    takeover d = emFlag 0 8 { d with lk := { d.lk with blocked := d.lk.blocked + 1 } } := by
  simp [takeover, hr, hs]

end

end Sys2Proof.Proofs
end

section
namespace Sys2Proof.Proofs

open Sys2Proof Sys2Proof.Machine Sys2Proof.Laws

/-! ### The standby takes over (R368, R48) -/

section
variable (d : Dev)

theorem tbFlag_ctl (b : Nat) : (tbFlag b d).tb.ctl = d.tb.ctl := by
  unfold tbFlag
  dsimp only
  split
  · rfl
  · rw [kept_tb (sameBut_memberEvent _ _) (by decide)]

theorem enterUnset_ctl : (enterUnset d).tb.ctl = d.tb.ctl := by
  unfold enterUnset
  dsimp only
  split <;> rfl

theorem settleRole_ctl : (settleRole d).tb.ctl = d.tb.ctl := by
  unfold settleRole
  split
  · rfl
  · split
    · exact enterUnset_ctl d
    · rfl

theorem settleAlign_ctl : (settleAlign d).tb.ctl = d.tb.ctl := by
  have h : ∀ (c : Bool) (x : Dev), (if c = true then tbFlag 10 x else x).tb.ctl = x.tb.ctl := fun c x => by
    split
    · exact tbFlag_ctl x 10
    · rfl
  exact h _ _

/-- What follows at once on a role leaves the role. -/
theorem settleAll_ctl : (settleAll d).tb.ctl = d.tb.ctl := (settleAlign_ctl _).trans (settleRole_ctl d)

/-- It leaves of the link all but the domain state. -/
theorem settleAll_lk : (settleAll d).lk = { d.lk with state := (settleAll d).lk.state } := by
  have h : (settleAlign (settleRole d)).lk = d.lk :=
    (kept_lk (sameBut_settleAlign _) (by decide)).trans (kept_lk (sameBut_settleRole d) (by decide))
  have hs : (settleAll d).lk = { (settleAlign (settleRole d)).lk with state := (settleAll d).lk.state } := rfl
  rw [h] at hs
  exact hs

theorem settleAll_manager (h : tbRole d.tb = 3) : (settleAll d).lk.state = .manager := by
  have hr : tbRole (settleAlign (settleRole d)).tb = 3 := by
    rw [tbRole, settleAlign_ctl, settleRole_ctl]; exact h
  change domState (settleAlign (settleRole d)) = .manager
  rw [domState, hr]
  rfl

/-- A new role starts without announce information and without a Sync sent (R42, R53). -/
def freshRole (r : Nat) : Dev :=
  { d with
    tb := { d.tb with ctl := setFld d.tb.ctl 1 2 r }
    lk := { d.lk with state := .off }
    so := { d.so with syncSent := false, tookOver := false }
    ptp := { d.ptp with best := none, plantBest := none, heard := [], plantHeard := [], syncRx := none, plantSync := none } }

theorem setRole_new {r : Nat} (h : tbRole d.tb ≠ r) : setRole r d = settleAll (freshRole d r) := by
  rw [setRole, if_neg h]
  rfl

theorem freshRole_role {r : Nat} (h : r < 4) : tbRole (freshRole d r).tb = r := by
  rw [tbRole, freshRole, fld_setFld_same _ _ _ _ (by decide)]
  exact Nat.mod_eq_of_lt h

/-- The link as the standby takes it over: its own generation (R369). -/
def nextGeneration : Dev :=
  { d with lk := { d.lk with gen := d.lk.gen + 1, takeovers := d.lk.takeovers + 1, silent := 0, accepted := false } }

/-- The device just before it is the manager. -/
def leavingStandby : Dev := freshRole (emFlag 0 14 (dropServo (nextGeneration d))) 3

theorem takeover_standby (hr : tbRole d.tb = 2) (hs : domState d = .standby) :
    takeover d = { settleAll (leavingStandby d) with
      so := { (settleAll (leavingStandby d)).so with tookOver := true }
      ptp := { (settleAll (leavingStandby d)).ptp with
        plantBest := (dropServo (nextGeneration d)).ptp.plantBest, plantHeard := (dropServo (nextGeneration d)).ptp.plantHeard } } := by
  have hrole : tbRole (emFlag 0 14 (dropServo (nextGeneration d))).tb ≠ 3 := by
    rw [kept_tb (sameBut_emFlag 0 14 _) (by decide)]
    change tbRole d.tb ≠ 3
    rw [hr]
    decide
  rw [leavingStandby, ← setRole_new _ hrole, takeover, if_neg (not_not.mpr hr), if_pos hs]
  rfl

theorem leavingStandby_lk : (leavingStandby d).lk.gen = d.lk.gen + 1 ∧ (leavingStandby d).lk.takeovers = d.lk.takeovers + 1 := by
  constructor
  · change (emFlag 0 14 (dropServo (nextGeneration d))).lk.gen = _
    rw [emFlag_lk]; rfl
  · change (emFlag 0 14 (dropServo (nextGeneration d))).lk.takeovers = _
    rw [emFlag_lk]; rfl

end

/-! ### The commands -/

section
variable {s : State} {m : Nat} (h : isMac m = true)
include h

theorem exec_cyclicGateOpen : exec (.cyclicGateOpen m) s = whenLiveDev true (gateOpen m) s :=
  congrArg (fun ok => whenLiveDev ok (gateOpen m) s) h
theorem exec_cyclicGateClose : exec (.cyclicGateClose m) s = whenLiveDev true (gateClose m) s :=
  congrArg (fun ok => whenLiveDev ok (gateClose m) s) h
theorem exec_trajectoryFrame {src : BitVec 48} {f : Trajectory} (hf : isTrajectory f = true) :
    exec (.trajectoryFrame m src f) s = whenLiveDev true (trajectoryRx m src f) s :=
  congrArg (fun ok => whenLiveDev ok (trajectoryRx m src f) s) (show (isMac m && isTrajectory f) = true by rw [h, hf]; rfl)
theorem exec_summarySend : exec (.summarySend m) s = whenLiveDev true (summarySend m) s :=
  congrArg (fun ok => whenLiveDev ok (summarySend m) s) h

section
variable {dom a : Nat} {src : BitVec 48} {tick : BitVec 16} {body : List Byte} (hd : dom < 65536) (ha : a < 256)
include hd ha

theorem exec_summary : exec (.summary m dom src a tick body) s = whenLiveDev true (summaryRx m dom src a tick body false) s :=
  congrArg (fun ok => whenLiveDev ok (summaryRx m dom src a tick body false) s)
    (show (isMac m && decide (dom < 65536) && decide (a < 256)) = true by rw [h, decide_eq_true hd, decide_eq_true ha]; rfl)
theorem exec_fullStatus : exec (.fullStatus m dom src a tick body) s = whenLiveDev true (summaryRx m dom src a tick body true) s :=
  congrArg (fun ok => whenLiveDev ok (summaryRx m dom src a tick body true) s)
    (show (isMac m && decide (dom < 65536) && decide (a < 256)) = true by rw [h, decide_eq_true hd, decide_eq_true ha]; rfl)

end
end

section
variable {s : State}

theorem exec_masterLost {k : Nat} (h : k < 64) : exec (.masterLost k) s = whenLiveDev true (masterLost k) s :=
  congrArg (fun ok => whenLiveDev ok (masterLost k) s) (decide_eq_true h)
theorem exec_workerLost {a : Nat} (h : a < 256) : exec (.workerLost a) s = whenLiveDev true (workerLost a) s :=
  congrArg (fun ok => whenLiveDev ok (workerLost a) s) (decide_eq_true h)
theorem exec_takeover : exec .takeover s = whenLiveDev true takeover s := rfl

end

/-! ### The clauses, by command -/

/-- The manager's role is read from the timebase alone. -/
theorem roleManager_of_tb {d e : Dev} (h : e.tb = d.tb) : roleManager e = roleManager d := by
  rw [roleManager, roleManager, h]

/-- A MAC is read from the list of MACs alone. -/
theorem mac_of_macs {d e : Dev} (h : e.lk.macs = d.lk.macs) (k : Nat) : e.mac k = d.mac k := by
  rw [Dev.mac, Dev.mac, h]

theorem sameBut_gateAt (m : Nat) (v : Bool) (d : Dev) : SameBut [.lk] d (gateAt m v d) := sameBut_updMac d m _
theorem sameBut_replyLeaves (m kind : Nat) (dest : W32) (data : List Byte) (d : Dev) : SameBut [.lk] d (replyLeaves m kind dest data d) :=
  sameBut_lk d _
theorem sameBut_datagramLeaves (n : Nat) (l : List Byte) (d : Dev) : SameBut [.ds] d (datagramLeaves n l d) := sameBut_ds d _


section
variable {d : Dev} {m : Nat}

theorem gateClose_quiet (hg : (d.mac m).gate = true) (hr : roleManager d = false) (hh : (d.mac m).held = []) :
    gateClose m d = gateAt m false d := by
  have hrel : releaseWaiting m (gateAt m false d) = gateAt m false d :=
    releaseWaiting_none (by rw [gateAt_mac_same]; exact hh)
  have hrole := (roleManager_of_tb (congrArg Dev.tb hrel)).trans hr
  exact (gateClose_open hg hrole).trans hrel

/-- The device after the gate of MAC `m` has closed and a reply and a datagram have left. -/
def closedTwo (m kind : Nat) (dest : W32) (data : List Byte) (n : Nat) (l : List Byte) (d : Dev) : Dev :=
  datagramLeaves n l (replyLeaves m kind dest data ((gateAt m false d).updMac m fun x => { x with held := [] }))

theorem sameBut_closedTwo (m kind : Nat) (dest : W32) (data : List Byte) (n : Nat) (l : List Byte) (d : Dev) :
    SameBut [.lk, .ds] d (closedTwo m kind dest data n l d) :=
  sameBut_then (sameBut_datagramLeaves n l _) (by decide) (sameBut_then (sameBut_replyLeaves m kind dest data _) (by decide)
    (sameBut_then (sameBut_updMac _ m _) (by decide) (sameBut_mono (sameBut_gateAt m false d) (by decide))))

theorem gateClose_two {kind n : Nat} {dest : W32} {data l : List Byte} (hg : (d.mac m).gate = true) (hr : roleManager d = false)
    (hh : (d.mac m).held = [.reply kind dest data, .datagram n l]) : gateClose m d = closedTwo m kind dest data n l d := by
  have hheld : ((gateAt m false d).mac m).held = [.reply kind dest data, .datagram n l] := by rw [gateAt_mac_same]; exact hh
  have hrel : releaseWaiting m (gateAt m false d) = closedTwo m kind dest data n l d := releaseWaiting_two hheld
  have htb : (closedTwo m kind dest data n l d).tb = d.tb := kept_tb (sameBut_closedTwo _ _ _ _ _ _ d) (by decide)
  have hrole := (roleManager_of_tb ((congrArg Dev.tb hrel).trans htb)).trans hr
  exact (gateClose_open hg hrole).trans hrel

theorem closedTwo_mac (m kind : Nat) (dest : W32) (data : List Byte) (n : Nat) (l : List Byte) (d : Dev) :
    (closedTwo m kind dest data n l d).mac m = { d.mac m with gate := false, held := [] } := by
  have h : (closedTwo m kind dest data n l d).mac m = ((gateAt m false d).updMac m fun x => { x with held := [] }).mac m :=
    mac_of_macs (by dsimp only [closedTwo, datagramLeaves, replyLeaves]) m
  rw [h, updMac_same, gateAt_mac_same]

end

section
variable {s : State} {m : Nat} (hm : isMac m = true) (hl : live s.core.dev = true)
include hm hl

theorem cyclicGateOpen_runs :
    (cyclicMac s.core.dev m = false → exec (.cyclicGateOpen m) s = .next s) ∧
    (cyclicMac s.core.dev m = true → s.core.dev.lk.formed = none →
      Runs (.cyclicGateOpen m) s [.lk] fun t =>
        t.core.dev.mac m = { s.core.dev.mac m with gate := true } ∧ t.core.dev.lk.sent = s.core.dev.lk.sent ∧
        ∀ k, k ≠ m → t.core.dev.mac k = s.core.dev.mac k) ∧
    (∀ f, cyclicMac s.core.dev m = true → s.core.dev.lk.formed = some f → bit s.core.dev.lk.sentOn m = false →
      fitsWindow s.core.dev (s.core.dev.mac m) 0 (linkPayload s.core.dev 1 s.core.dev.tick.number (trajBody f)).length = true →
      Runs (.cyclicGateOpen m) s [.lk] fun t =>
        t.core.dev.lk.sent = s.core.dev.lk.sent ++
          [⟨m, groupAddress s.core.dev, s.core.dev.lk.cfg.pcp, linkPayload s.core.dev 1 s.core.dev.tick.number (trajBody f)⟩] ∧
        bit t.core.dev.lk.sentOn m = true) := by
  refine ⟨fun hc => ?_, fun hc hf => ?_, fun f hc hf hs hw => ?_⟩
  · exact exec_idle (exec_cyclicGateOpen hm) (by rw [gateOpen, hc]; rfl)
  · exact runs_to hl (exec_cyclicGateOpen hm) (gateOpen_noFrame hc hf) (sameBut_gateAt m true _)
      ⟨gateAt_mac_same m true _, rfl, fun k hk => gateAt_mac_other m true _ hk⟩
  · exact runs_to hl (exec_cyclicGateOpen hm) (gateOpen_sends hc hf hs hw)
      (sameBut_trans (sameBut_gateAt m true _) (sameBut_lk _ _)) ⟨rfl, bit_or_same m (of_decide_eq_true hm)⟩

theorem cyclicGateClose_runs :
    ((s.core.dev.mac m).gate = true → roleManager s.core.dev = false →
      ((s.core.dev.mac m).held = [] → Runs (.cyclicGateClose m) s [.lk] fun t =>
        t.core.dev.mac m = { s.core.dev.mac m with gate := false } ∧ ∀ k, k ≠ m → t.core.dev.mac k = s.core.dev.mac k) ∧
      (∀ kind dest data n l, (s.core.dev.mac m).held = [.reply kind dest data, .datagram n l] →
        Runs (.cyclicGateClose m) s [.lk, .ds] fun t =>
          t.core.dev.mac m = { s.core.dev.mac m with gate := false, held := [] } ∧
          t.core.dev.lk.replies = s.core.dev.lk.replies ++ [(m, kind, dest, data)] ∧
          t.core.dev.ds = { s.core.dev.ds with sent := s.core.dev.ds.sent ++ [(n, l)] })) ∧
    ((s.core.dev.mac m).gate = true → roleManager s.core.dev = true → cyclicMac s.core.dev m = true →
      bit s.core.dev.lk.sentOn m = false → (s.core.dev.mac m).held = [] →
      Runs (.cyclicGateClose m) s [.lk, .ic, .ne] fun t =>
        (t.core.dev.mac m).gate = false ∧ bit (t.core.dev.mac 0).stat 9 = true ∧ t.core.dev.lk.sent = s.core.dev.lk.sent) ∧
    ((s.core.dev.mac m).gate = false → exec (.cyclicGateClose m) s = .next s) := by
  refine ⟨fun hg hr => ⟨fun hh => ?_, fun kind dest data n l hh => ?_⟩, fun hg hr hc hs hh => ?_, fun hg => ?_⟩
  · exact runs_to hl (exec_cyclicGateClose hm) (gateClose_quiet hg hr hh) (sameBut_gateAt m false _)
      ⟨gateAt_mac_same m false _, fun k hk => gateAt_mac_other m false _ hk⟩
  · exact runs_to hl (exec_cyclicGateClose hm) (gateClose_two hg hr hh) (sameBut_closedTwo _ _ _ _ _ _ _)
      ⟨closedTwo_mac _ _ _ _ _ _ _, rfl, rfl⟩
  · refine runs_to hl (exec_cyclicGateClose hm) (gateClose_misses hg hr hc hs hh)
      (sameBut_then (sameBut_emFlag 0 9 _) (by decide) (sameBut_mono (sameBut_gateAt m false _) (by decide)))
      ⟨?_, emFlag_stat 0 _ (by decide), ?_⟩
    · dsimp only
      rw [emFlag_mac, gateAt_mac_same]
    · dsimp only
      rw [emFlag_lk]
      rfl
  · exact exec_idle (exec_cyclicGateClose hm) (by rw [gateClose, hg]; rfl)

end

end Sys2Proof.Proofs
end

section
namespace Sys2Proof.Proofs

open Sys2Proof Sys2Proof.Machine Sys2Proof.Laws

/-! ### A worker's frames: late, stale, accepted (R362, R363, R369) -/

section
variable {d : Dev} {m : Nat} {src : BitVec 48} {f : Trajectory}

theorem trajectoryRx_late (h : WorkerHears d m f) (ht : atOrAfter d.tb.time f.tref = true) :
    trajectoryRx m src f d = (settleDomain d).updMac m fun x => { x with latec := incSat x.latec } := by
  rw [trajectoryRx_worker h, if_pos ht]

theorem trajectoryRx_stale (h : WorkerHears d m f) (ht : atOrAfter d.tb.time f.tref = false) (ha : d.lk.accepted = true)
    (hg : genAfter d.lk.gen f.gen = true) : trajectoryRx m src f d = staleFrame m (settleDomain d) := by
  rw [trajectoryRx_worker h, if_neg (by simp [ht]), if_neg (by simp [ha]), if_pos hg]

/-- The device with the frame taken for the work of the next tick. -/
def frameTaken (src : BitVec 48) (f : Trajectory) (d : Dev) : Dev :=
  { heardFrame src f (settleDomain d) with
    lk := { (heardFrame src f (settleDomain d)).lk with taken := some f, mismatches := 0 } }

theorem trajectoryRx_accepted (h : WorkerHears d m f) (ht : atOrAfter d.tb.time f.tref = false) (ha : d.lk.accepted = true)
    (hsrc : d.lk.srcMac = src) (hgen : f.gen = d.lk.gen) (hcopy : d.lk.copyTick ≠ some f.tick) (hgrid : gridMismatch d f = false) :
    trajectoryRx m src f d = frameTaken src f d := by
  have hheld : timeHeld (heardFrame src f (settleDomain d)) = true := h.locked
  have hmatch : gridMismatch (heardFrame src f (settleDomain d)) f = false := hgrid
  have hfirst : (settleDomain d).lk.copyTick ≠ some f.tick := hcopy
  rw [trajectoryRx_worker h, if_neg (by simp [ht]), if_neg (by simp [ha]), hgen, genAfter_self, if_neg (by decide),
    if_neg (by decide), hsrc, if_neg (Nat.lt_irrefl _), acceptFrame_first hfirst, takeFrame_matching hheld hmatch]
  rfl

theorem sameBut_staleFrame (m : Nat) (d : Dev) : SameBut [.lk, .ic, .ne] d (staleFrame m d) :=
  sameBut_then (sameBut_emFlag m 4 _) (by decide) (sameBut_mono (sameBut_updMac d m _) (by decide))

theorem sameBut_frameTaken (src : BitVec 48) (f : Trajectory) (d : Dev) : SameBut [.lk, .so] d (frameTaken src f d) := by
  have h : ∀ x y, SameBut [.lk, .so] d { d with lk := x, so := y } := fun x y =>
    sameBut_then (sameBut_so { d with lk := x } y) (by decide) (sameBut_mono (sameBut_lk d x) (by decide))
  exact h _ _

theorem staleFrame_lk (m : Nat) (d : Dev) : (staleFrame m d).lk =
    ((d.updMac m fun x => { x with stalec := incSat x.stalec }).updMac m fun x => { x with stat := orBit x.stat 4 }).lk :=
  emFlag_lk m 4 _

end

/-! ### The clauses, by command -/

section
variable {s : State} {m : Nat} (hm : isMac m = true) (hl : live s.core.dev = true)
include hm hl

theorem trajectoryFrame_runs (src : BitVec 48) (f : Trajectory) (hf : isTrajectory f = true) :
    (f.domain ≠ s.core.dev.lk.cfg.domainId → Runs (.trajectoryFrame m src f) s [.lk] fun t =>
      t.core.dev.lk = { s.core.dev.lk with state := domState s.core.dev }) ∧
    (WorkerHears s.core.dev m f → atOrAfter s.core.dev.tb.time f.tref = true →
      Runs (.trajectoryFrame m src f) s [.lk] fun t =>
        (t.core.dev.mac m).latec = incSat (s.core.dev.mac m).latec ∧ t.core.dev.lk.taken = s.core.dev.lk.taken) ∧
    (WorkerHears s.core.dev m f → atOrAfter s.core.dev.tb.time f.tref = false →
      s.core.dev.lk.accepted = true → genAfter s.core.dev.lk.gen f.gen = true →
      Runs (.trajectoryFrame m src f) s [.lk, .ic, .ne] fun t =>
        (t.core.dev.mac m).stalec = incSat (s.core.dev.mac m).stalec ∧ bit (t.core.dev.mac m).stat 4 = true ∧
        t.core.dev.lk.gen = s.core.dev.lk.gen ∧ t.core.dev.lk.taken = s.core.dev.lk.taken) ∧
    (WorkerHears s.core.dev m f → atOrAfter s.core.dev.tb.time f.tref = false →
      s.core.dev.lk.accepted = true → s.core.dev.lk.srcMac = src → f.gen = s.core.dev.lk.gen →
      s.core.dev.lk.copyTick ≠ some f.tick → gridMismatch s.core.dev f = false →
      Runs (.trajectoryFrame m src f) s [.lk, .so] fun t =>
        t.core.dev.lk.taken = some f ∧ t.core.dev.lk.copyTick = some f.tick ∧ t.core.dev.lk.heard = true ∧
        t.core.dev.so = { s.core.dev.so with
          epochS := f.epochS, epochNs := f.epochNs, epochObjS := f.epochS, epochObjNs := f.epochNs } ∧
        t.core.dev.lk.missed = s.core.dev.lk.missed) := by
  have hx := exec_trajectoryFrame (s := s) hm (src := src) hf
  refine ⟨fun hd => ?_, fun h ht => ?_, fun h ht ha hg => ?_, fun h ht ha hsrc hgen hcopy hgrid => ?_⟩
  · exact runs_to hl hx (trajectoryRx_foreign hd) (sameBut_settleDomain _) rfl
  · refine runs_to hl hx (trajectoryRx_late h ht) (sameBut_trans (sameBut_settleDomain _) (sameBut_updMac _ m _)) ⟨?_, rfl⟩
    rw [updMac_same]
    rfl
  · refine runs_to hl hx (trajectoryRx_stale h ht ha hg) (sameBut_then (sameBut_staleFrame m _) (by decide)
      (sameBut_mono (sameBut_settleDomain _) (by decide))) ⟨?_, emFlag_stat m _ (by decide), ?_, ?_⟩
    · dsimp only
      rw [staleFrame, emFlag_mac_same, updMac_same]
      rfl
    · dsimp only
      rw [staleFrame_lk]
      rfl
    · dsimp only
      rw [staleFrame_lk]
      rfl
  · exact runs_to hl hx (trajectoryRx_accepted h ht ha hsrc hgen hcopy hgrid) (sameBut_frameTaken src f _) ⟨rfl, rfl, rfl, rfl, rfl⟩

theorem summarySend_runs :
    ((roleFollows s.core.dev && cyclicMac s.core.dev m && s.core.dev.lk.accepted) = false → exec (.summarySend m) s = .next s) ∧
    ((roleFollows s.core.dev && cyclicMac s.core.dev m && s.core.dev.lk.accepted) = true → (s.core.dev.mac m).gate = false →
      Runs (.summarySend m) s [.lk] fun t =>
        (t.core.dev.mac m).sumdropc = incSat (s.core.dev.mac m).sumdropc ∧ t.core.dev.lk.sent = s.core.dev.lk.sent) ∧
    (∀ l, (roleFollows s.core.dev && cyclicMac s.core.dev m && s.core.dev.lk.accepted) = true → (s.core.dev.mac m).gate = true →
      s.core.dev.tick.number.toNat % 8 ≠ fullPhase s.core.dev →
      linkPayload s.core.dev 2 s.core.dev.tick.number (s.core.dev.lk.body.take 32) = l →
      fitsWindow s.core.dev (s.core.dev.mac m)
        ((s.core.dev.lk.cfg.sumOffset + ownAddress s.core.dev * s.core.dev.lk.cfg.sumSpacing) * 64) l.length = true →
      Runs (.summarySend m) s [.lk] fun t =>
        t.core.dev.lk.sent = s.core.dev.lk.sent ++ [⟨m, s.core.dev.lk.srcMac, s.core.dev.lk.cfg.pcp, l⟩] ∧
        t.core.dev.lk.macs = s.core.dev.lk.macs) := by
  refine ⟨fun h => ?_, fun h hg => ?_, fun l h hg hp hpay hw => ?_⟩
  · exact exec_idle (exec_summarySend hm) (summarySend_silent h)
  · refine runs_to hl (exec_summarySend hm) (summarySend_drops h hg) (sameBut_updMac _ m _) ⟨?_, rfl⟩
    rw [updMac_same]
  · exact runs_to hl (exec_summarySend hm) (summarySend_leaves h hg hp hpay hw) (sameBut_lk _ _) ⟨rfl, rfl⟩

omit hm in
/-- What is said of a member's summary, sent as such or with a full status (R359, R362). -/
theorem summaryTaken (i : Instr) (dom a : Nat) (src : BitVec 48) (tick : BitVec 16) (body : List Byte) (full : Bool)
    (hx : exec i s = whenLiveDev true (summaryRx m dom src a tick body full) s) (ha : a < 256)
    (hr : roleManager s.core.dev = true) (hc : cyclicMac s.core.dev m = true) (hd : dom = s.core.dev.lk.cfg.domainId)
    (hlate : summaryLate s.core.dev tick = false) (hk : (s.core.dev.member a).known = false ∨ (s.core.dev.member a).mac = src) :
    Runs i s [.lk] fun t =>
      t.core.dev.member a = { s.core.dev.member a with
        known := true, mac := src, seen := true, misses := 0, lost := false, inbox := some (tick, body, full) } ∧
      (tick ≠ s.core.dev.tick.number →
        takeInbox s.core.dev.tick.number (t.core.dev.member a) = { t.core.dev.member a with
          inbox := none, summary := body.take 32, full := if full then body.take 256 else (t.core.dev.member a).full }) ∧
      ∀ b, b ≠ a → t.core.dev.member b = s.core.dev.member b := by
  refine runs_to hl hx (summaryRx_taken hr hc hd ha hlate hk) (sameBut_updMember _ a _) ⟨?_, fun ht => ?_, fun b hb => ?_⟩
  · exact updMember_same _ a _
  · exact takeInbox_later (by rw [updMember_same]) ht
  · exact updMember_other _ a b _ hb

theorem summary_runs (dom : Nat) (src : BitVec 48) (a : Nat) (tick : BitVec 16) (body : List Byte) (hd : dom < 65536) (ha : a < 256)
    (hr : roleManager s.core.dev = true) (hc : cyclicMac s.core.dev m = true) (hdom : dom = s.core.dev.lk.cfg.domainId) :
    (summaryLate s.core.dev tick = false → ((s.core.dev.member a).known = false ∨ (s.core.dev.member a).mac = src) →
      (Runs (.summary m dom src a tick body) s [.lk] fun t =>
        t.core.dev.member a = { s.core.dev.member a with
          known := true, mac := src, seen := true, misses := 0, lost := false, inbox := some (tick, body, false) } ∧
        (tick ≠ s.core.dev.tick.number → (takeInbox s.core.dev.tick.number (t.core.dev.member a)).summary = body.take 32 ∧
          (takeInbox s.core.dev.tick.number (t.core.dev.member a)).full = (s.core.dev.member a).full) ∧
        ∀ b, b ≠ a → t.core.dev.member b = s.core.dev.member b) ∧
      (Runs (.fullStatus m dom src a tick body) s [.lk] fun t =>
        (t.core.dev.member a).inbox = some (tick, body, true) ∧
        (tick ≠ s.core.dev.tick.number → (takeInbox s.core.dev.tick.number (t.core.dev.member a)).full = body.take 256 ∧
          (takeInbox s.core.dev.tick.number (t.core.dev.member a)).summary = body.take 32) ∧
        ∀ b, b ≠ a → t.core.dev.member b = s.core.dev.member b)) ∧
    (summaryLate s.core.dev tick = true → Runs (.summary m dom src a tick body) s [.lk] fun t =>
      (t.core.dev.mac m).latec = incSat (s.core.dev.mac m).latec ∧ t.core.dev.member a = s.core.dev.member a) := by
  have hsum := exec_summary (s := s) (src := src) (tick := tick) (body := body) hm hd ha
  have hfull := exec_fullStatus (s := s) (src := src) (tick := tick) (body := body) hm hd ha
  refine ⟨fun hlate hk => ⟨?_, ?_⟩, fun hlate => ?_⟩
  · obtain ⟨t, ht, hframe, hmem, hnext, hother⟩ := summaryTaken hl _ dom a src tick body false hsum ha hr hc hdom hlate hk
    refine ⟨t, ht, hframe, hmem, fun hn => ?_, hother⟩
    rw [hnext hn, hmem]
    exact ⟨rfl, rfl⟩
  · obtain ⟨t, ht, hframe, hmem, hnext, hother⟩ := summaryTaken hl _ dom a src tick body true hfull ha hr hc hdom hlate hk
    refine ⟨t, ht, hframe, by rw [hmem], fun hn => ?_, hother⟩
    rw [hnext hn]
    exact ⟨rfl, rfl⟩
  · refine runs_to hl hsum (summaryRx_late hr hc hdom ha hlate) (sameBut_updMac _ m _) ⟨?_, rfl⟩
    rw [updMac_same]

end

/-! ### Loss and takeover (R362, R366, R368) -/

section
variable {s : State} (hl : live s.core.dev = true)
include hl

theorem masterLost_runs (k : Nat) (hk : k < 64) : (roleFollows s.core.dev = false → exec (.masterLost k) s = .next s) ∧
    (roleFollows s.core.dev = true → bit s.core.dev.lk.lostMask k = false → derivedAxes s.core.dev k = [] →
      Runs (.masterLost k) s [.lk, .ic, .ne] fun t =>
        bit t.core.dev.lk.lostMask k = true ∧ bit (t.core.dev.mac 0).stat 15 = true ∧
        t.core.dev.lk.state = if s.core.dev.lk.state = .joined then .masterLost else s.core.dev.lk.state) := by
  refine ⟨fun hr => exec_idle (exec_masterLost hk) (by simp [masterLost, hr]), fun hr hb ha => ?_⟩
  refine runs_to hl (exec_masterLost hk) (masterLost_first hk hr hb ha) (sameBut_then (sameBut_emFlag 0 15 _) (by decide)
    (sameBut_mono (sameBut_lk _ _) (by decide))) ⟨?_, emFlag_stat 0 _ (by decide), ?_⟩
  · dsimp only
    rw [emFlag_lk]
    change bit (s.core.dev.lk.lostMask ||| BitVec.ofNat 64 (2 ^ k)) k = true
    rw [bit, BitVec.getLsbD_or, BitVec.getLsbD_ofNat, Nat.testBit_two_pow_self]
    simp [hk]
  · dsimp only
    rw [emFlag_lk]
    rfl

theorem workerLost_runs (a : Nat) (ha : a < 256) (hr : roleManager s.core.dev = true) (hk : (s.core.dev.member a).known = true)
    (hlost : (s.core.dev.member a).lost = false) :
    Runs (.workerLost a) s [.lk, .ic, .ne] fun t =>
      (t.core.dev.member a).lost = true ∧ bit (t.core.dev.mac 0).stat 10 = true ∧
      ∀ b, b ≠ a → t.core.dev.member b = s.core.dev.member b := by
  refine runs_to hl (exec_workerLost ha) (workerLost_first hr hk hlost) (sameBut_then (sameBut_emFlag 0 10 _) (by decide)
    (sameBut_mono (sameBut_updMember _ a _) (by decide))) ⟨?_, emFlag_stat 0 _ (by decide), fun b hb => ?_⟩
  · dsimp only
    rw [emFlag_member, updMember_same]
  · dsimp only
    rw [emFlag_member, updMember_other _ _ _ _ hb]

theorem takeover_runs :
    (tbRole s.core.dev.tb ≠ 2 → exec .takeover s = .next s) ∧
    (tbRole s.core.dev.tb = 2 → domState s.core.dev ≠ .standby →
      Runs .takeover s [.lk, .ic, .ne] fun t =>
        t.core.dev.lk.blocked = s.core.dev.lk.blocked + 1 ∧ bit (t.core.dev.mac 0).stat 8 = true ∧
        t.core.dev.lk.gen = s.core.dev.lk.gen) ∧
    (tbRole s.core.dev.tb = 2 → domState s.core.dev = .standby →
      Runs .takeover s [.lk, .so, .tb, .ptp, .ic, .ne] fun t =>
        t.core.dev.ptp.best = none ∧ t.core.dev.so.tookOver = true ∧ tbRole t.core.dev.tb = 3 ∧ t.core.dev.lk.gen = s.core.dev.lk.gen + 1 ∧ t.core.dev.lk.state = .manager ∧
        t.core.dev.lk.takeovers = s.core.dev.lk.takeovers + 1) := by
  refine ⟨fun hr => exec_idle exec_takeover (by simp [takeover, hr]), fun hr hs => ?_, fun hr hs => ?_⟩
  · refine runs_to hl exec_takeover (takeover_blocked hr hs) (sameBut_then (sameBut_emFlag 0 8 _) (by decide)
      (sameBut_mono (sameBut_lk _ _) (by decide))) ⟨?_, emFlag_stat 0 _ (by decide), ?_⟩
    · dsimp only
      rw [emFlag_lk]
      rfl
    · dsimp only
      rw [emFlag_lk]
      rfl
  · have hto := takeover_standby s.core.dev hr hs
    obtain ⟨hgen, hcount⟩ := leavingStandby_lk s.core.dev
    have hlk := settleAll_lk (leavingStandby s.core.dev)
    have hrole : tbRole (leavingStandby s.core.dev).tb = 3 := freshRole_role _ (by decide)
    refine runs_to hl exec_takeover hto (hto ▸ sameBut_takeover _) ⟨?_, rfl, ?_, ?_, settleAll_manager _ hrole, ?_⟩
    · dsimp only
      rw [kept_ptp (sameBut_settleAll _) (by decide)]
      rfl
    · dsimp only
      rw [tbRole, settleAll_ctl]
      exact hrole
    · dsimp only
      rw [hlk]
      exact hgen
    · dsimp only
      rw [hlk]
      exact hcount

end

/-- Settles O51: each link command by its cases. -/
theorem linkFrames : Obligations.LinkFrames := by
  intro s m hm hl
  obtain ⟨hopenIdle, hopen, hsends⟩ := cyclicGateOpen_runs hm hl
  obtain ⟨hclose, hmiss, hcloseIdle⟩ := cyclicGateClose_runs hm hl
  obtain ⟨hsilent, hdrop, hleave⟩ := summarySend_runs hm hl
  obtain ⟨hnotStandby, hblocked, htakes⟩ := takeover_runs hl
  refine ⟨hopenIdle, hopen, hsends, hclose, hmiss, hcloseIdle, fun src f hf => ?_, hsilent, hdrop, hleave,
    fun dom src a tick body hd ha hr hc hdom => summary_runs hm hl dom src a tick body hd ha hr hc hdom,
    fun k hk => masterLost_runs hl k hk, fun a ha hr hk hlost => workerLost_runs hl a ha hr hk hlost, hnotStandby, hblocked, htakes⟩
  obtain ⟨hforeign, hlate, hstale, hacc⟩ := trajectoryFrame_runs hm hl src f hf
  exact ⟨hforeign, fun hc hd hs hb hr ht => hlate ⟨hc, hd, hs, hb, hr, ht⟩, fun hc hd hs hb hr ht => hstale ⟨hc, hd, hs, hb, hr, ht⟩,
    fun hc hd hs hb hr ht => hacc ⟨hc, hd, hs, hb, hr, ht⟩⟩

end Sys2Proof.Proofs
end

section
namespace Sys2Proof.Proofs

open Sys2Proof Sys2Proof.Machine Sys2Proof.Laws

/-! ### The services reach their requester (R381) -/

/-- A requester of the dictionary that is served: the device lives, its engines run, and the numbers fit their fields. -/
structure Asks (s : State) (w : DictWho) (index sub : Nat) : Prop where
  live : live s.core.dev = true
  runs : enginesRun s.core.dev = true
  who : isRequester w = true
  index : index < 65536
  sub : sub < 256

/-- The numbers of such a request are well formed. -/
theorem Asks.wf {s : State} {w : DictWho} {index sub : Nat} (a : Asks s w index sub) :
    (isRequester w && decide (index < 65536) && decide (sub < 256)) = true := by
  simp [a.who, a.index, a.sub]

/-- A service that the dictionary runs on a request serves its requester with what it answers. -/
theorem serves_service {i : Instr} {s : State} {w : DictWho} {svc index sub ty total : Nat} {code : DictCode} {data : List Byte}
    {c : Core} {g : Core → SvcAnswer × Core} (hl : live s.core.dev = true) (hr : enginesRun s.core.dev = true)
    (hwf : Instr.wf i = true) (hx : exec i s = whenRunning (Instr.wf i) (fun c => answerSvc w svc index sub (g c)) s)
    (h : g s.core = (.now code ty total data, c)) : Serves i s w (responseBody svc code index sub ty total data) c :=
  serves_of hl hr (hwf ▸ hx) rfl code ty total data c h

section
variable {s : State} {w : DictWho} {index sub ty total : Nat} {code : DictCode} {data v : List Byte} {c : Core}
variable (a : Asks s w index sub)
include a

theorem serves_read (h : svcRead w index sub s.core = (.now code ty total data, c)) :
    Serves (.read w index sub) s w (responseBody 1 code index sub ty total data) c :=
  serves_service a.live a.runs a.wf rfl h

theorem serves_write (h : svcWrite w index sub v s.core = (.now code ty total data, c)) :
    Serves (.write w index sub v) s w (responseBody 2 code index sub ty total data) c :=
  serves_service a.live a.runs a.wf rfl h

theorem serves_keyedWrite (h : svcKeyedWrite w index sub v s.core = (.now code ty total data, c)) :
    Serves (.keyedWrite w index sub v) s w (responseBody 3 code index sub ty total data) c :=
  serves_service a.live a.runs a.wf rfl h

theorem serves_describe (h : svcDescribe index sub s.core = (.now code ty total data, c)) :
    Serves (.describe w index sub) s w (responseBody 4 code index sub ty total data) c :=
  serves_service a.live a.runs a.wf rfl h

theorem serves_readSeg {off n : Nat} (ho : off < 4294967296) (hn : n < 65536)
    (h : svcReadSeg w index sub off n s.core = (.now code ty total data, c)) :
    Serves (.readSeg w index sub off n) s w (responseBody 5 code index sub ty total data) c :=
  serves_service a.live a.runs (Bool.and_eq_true_iff.mpr ⟨Bool.and_eq_true_iff.mpr ⟨a.wf, decide_eq_true ho⟩, decide_eq_true hn⟩) rfl h

theorem serves_writeSeg {off : Nat} {last : Bool} (ho : off < 4294967296)
    (h : svcWriteSeg w index sub off last v s.core = (.now code ty total data, c)) :
    Serves (.writeSeg w index sub off last v) s w (responseBody 6 code index sub ty total data) c :=
  serves_service a.live a.runs (Bool.and_eq_true_iff.mpr ⟨a.wf, decide_eq_true ho⟩) rfl h

theorem serves_readAll (h : svcReadAll w index s.core = (.now code ty total data, c)) :
    Serves (.readAll w index) s w (responseBody 7 code index 0 ty total data) c :=
  serves_service a.live a.runs (Bool.and_eq_true_iff.mpr ⟨a.who, decide_eq_true a.index⟩) rfl h

end

/-! ### What a service makes of an absent object (R382) -/

section
variable {w : DictWho} {index sub : Nat} {c : Core} {e : DictCode}

/-- An absent object is NO_OBJECT or NO_SUB. -/
theorem findObj_error (h : findObj index sub c = .error e) : e = .noObject ∨ e = .noSub := by
  unfold findObj at h
  split at h
  · split at h
    · cases h
    · cases h; exact .inl rfl
  · split at h
    · cases h
    · split at h
      · cases h; exact .inr rfl
      · cases h; exact .inl rfl

theorem findObj_error_ne_ok (h : findObj index sub c = .error e) : e ≠ .ok := by
  rcases findObj_error h with rfl | rfl <;> decide

theorem svcRead_absent (h : findObj index sub c = .error e) : svcRead w index sub c = (.now e 0 0 [], c) := by
  simp [svcRead, h, refuse]

theorem svcWriteAs_absent (svc : Nat) (v : List Byte) (h : findObj index sub c = .error e) :
    svcWriteAs svc w index sub v c = (.now e 0 0 [], c) := by
  simp [svcWriteAs, writeValue, typeOf, h, Except.isOk, Except.toBool, findObj_error_ne_ok h]

theorem svcKeyedWrite_absent (l : List Byte) (h : findObj index sub c = .error e) :
    svcKeyedWrite w index sub l c = (.now e 0 0 [], c) := by
  simp [svcKeyedWrite, h, refuse]

theorem svcDescribe_absent (h : findObj index sub c = .error e) : svcDescribe index sub c = (.now e 0 0 [], c) := by
  simp [svcDescribe, h, refuse]

theorem svcReadSeg_absent (off n : Nat) (h : findObj index sub c = .error e) :
    svcReadSeg w index sub off n c = (.now e 0 0 [], c) := by
  simp [svcReadSeg, h, refuse]

theorem svcWriteSeg_absent (off : Nat) (last : Bool) (v : List Byte) (h : findObj index sub c = .error e) :
    svcWriteSeg w index sub off last v c = (.now e 0 0 [], c) := by
  simp [svcWriteSeg, h, refuse]

end

/-! ### Description and reads of an object (R382, R383) -/

/-- A segment of any object but OUTCOMES changes nothing (R394). -/
theorem segmentOf_plain {q : SegStore} {ty off n : Nat} (hq : ¬(q.index = 0x6000 ∧ q.sub = 6)) (c : Core) :
    segmentOf q ty off n c = (.now .ok ty q.bytes.length ((q.bytes.drop off).take n), c) := by
  have hdone : (q.index == 0x6000 && q.sub == 6) = false := by simpa [Bool.and_eq_true] using hq
  simp [segmentOf, slice, Bool.and_assoc, hdone]

section
variable {w : DictWho} {index sub : Nat} {c : Core} {o : Obj}
variable (h : findObj index sub c = .ok o)
include h

theorem svcDescribe_found : svcDescribe index sub c = (.now .ok o.ty 8
    ([BitVec.ofNat 8 o.ty, BitVec.ofNat 8 o.acc, if o.persist then 1 else 0, 0] ++ beBytes 4 o.limit), c) := by
  simp [svcDescribe, h]

theorem svcRead_writeOnly (ha : o.acc = 2) : svcRead w index sub c = (.now .writeOnly o.ty 0 [], c) := by
  simp [svcRead, h, ha, refuse]

theorem svcRead_value (ha : o.acc ≠ 2) (hp : isParam index sub = false) (hlen : (o.rd w c).length ≤ 1452) :
    svcRead w index sub c = (.now .ok o.ty (o.rd w c).length (o.rd w c), dictReadEffect w index sub c) := by
  simp [svcRead, h, ha, hp, Nat.not_lt.mpr hlen]

theorem svcRead_tooBig (ha : o.acc ≠ 2) (hp : isParam index sub = false) (hlen : 1452 < (o.rd w c).length) :
    svcRead w index sub c = (.now .tooBig o.ty 0 [], c) := by
  simp [svcRead, h, ha, hp, hlen, refuse]

theorem svcReadSeg_first (ha : o.acc ≠ 2) (hp : isParam index sub = false) (hq : ¬(index = 0x6000 ∧ sub = 6)) (n : Nat) :
    svcReadSeg w index sub 0 n c = (.now .ok o.ty (o.rd w c).length ((o.rd w c).take n),
      dictReadEffect w index sub (c.mapDev fun d => d.updUser (whoNo w) fun u =>
        { u with snap := some ⟨index, sub, o.rd w c, c.dev.gl.orhead⟩ })) := by
  simp [svcReadSeg, h, ha, hp, segmentOf_plain (q := ⟨index, sub, o.rd w c, c.dev.gl.orhead⟩) hq]

theorem svcReadSeg_snapshot (ha : o.acc ≠ 2) {q : SegStore} {off : Nat} (hs : (c.dev.user (whoNo w)).snap = some q)
    (hi : q.index = index) (hk : q.sub = sub) (hoff : 0 < off) (hq : ¬(index = 0x6000 ∧ sub = 6)) (n : Nat) :
    svcReadSeg w index sub off n c = (.now .ok o.ty q.bytes.length ((q.bytes.drop off).take n), c) := by
  subst hi hk
  simp [svcReadSeg, h, ha, hs, Nat.pos_iff_ne_zero.mp hoff, segmentOf_plain hq]

theorem svcReadSeg_noSnapshot (ha : o.acc ≠ 2) {off : Nat} (hs : (c.dev.user (whoNo w)).snap = none) (hoff : 0 < off) (n : Nat) :
    svcReadSeg w index sub off n c = (.now .segment o.ty 0 [], c) := by
  simp [svcReadSeg, h, ha, hs, Nat.pos_iff_ne_zero.mp hoff, refuse]

end

/-! ### Writes of a value (R382) -/

/-- A value of the wrong length or range is TYPE or RANGE. -/
theorem valueFault_ne_ok {o : Obj} {v : List Byte} {e : DictCode} (h : valueFault o v = some e) : e ≠ .ok := by
  unfold valueFault at h
  split at h
  · cases h; decide
  · split at h
    · cases h; decide
    · split at h
      · cases h; decide
      · cases h

section
variable {w : DictWho} {index sub : Nat} {c : Core} {o : Obj} {v : List Byte} {keyed : Bool}
variable (h : findObj index sub c = .ok o)
include h

theorem writeValue_role (hr : roleFirst index sub c.dev = true) : writeValue w index sub v keyed c = (.role, c) := by
  simp [writeValue, h, hr]

theorem writeValue_readOnly (hr : roleFirst index sub c.dev = false) (ha : o.acc = 0 ∨ o.acc = 4) :
    writeValue w index sub v keyed c = (.readOnly, c) := by
  simp [writeValue, h, hr, ha]

theorem writeValue_key (hr : roleFirst index sub c.dev = false) (ha : o.acc = 3) :
    writeValue w index sub v false c = (.key, c) := by
  simp [writeValue, h, hr, ha]

theorem writeValue_fault (hr : roleFirst index sub c.dev = false) (ha : o.acc = 1 ∨ o.acc = 2) {e : DictCode}
    (hv : valueFault o v = some e) : writeValue w index sub v keyed c = (e, c) := by
  rcases ha with ha | ha <;> simp [writeValue, h, hr, ha, hv]

theorem writeValue_rule (hr : roleFirst index sub c.dev = false) (ha : o.acc = 1 ∨ o.acc = 2)
    (hv : valueFault o v = none) : writeValue w index sub v keyed c = o.wr w v c := by
  rcases ha with ha | ha <;> simp [writeValue, h, hr, ha, hv]

theorem writeValue_keyed (hr : roleFirst index sub c.dev = false) (ha : o.acc = 3)
    (hv : valueFault o v = none) : writeValue w index sub v true c = o.wr w v c := by
  simp [writeValue, h, hr, ha, hv]

/-- A write of an object that no head holds answers what the write of its value gives. -/
theorem svcWriteAs_value (svc : Nat) (hp : isParam index sub = false) {r : DictCode × Core}
    (hw : writeValue w index sub v false c = r) :
    svcWriteAs svc w index sub v c = (.now r.1 o.ty (if r.1 = .ok then v.length else 0) [], r.2) := by
  simp [svcWriteAs, hp, hw, typeOf, h]

theorem svcWrite_refused (hp : isParam index sub = false) {e : DictCode} (he : e ≠ .ok)
    (hw : writeValue w index sub v false c = (e, c)) : svcWrite w index sub v c = (.now e o.ty 0 [], c) := by
  have hval := svcWriteAs_value h 2 hp hw
  rwa [if_neg he] at hval

end

/-! ### Segmented writes (R383) -/

section
variable {w : DictWho} {index sub : Nat} {c : Core} {o : Obj} {v : List Byte}
variable (h : findObj index sub c = .ok o)
include h

theorem svcWriteSeg_first : svcWriteSeg w index sub 0 false v c =
    (.now .ok o.ty v.length [], setStage w (some { index := index, sub := sub, bytes := v }) c) := by
  simp [svcWriteSeg, h]

theorem svcWriteSeg_next {q : SegStore} (hs : (c.dev.user (whoNo w)).stage = some q) (hi : q.index = index) (hk : q.sub = sub)
    (hlen : 0 < q.bytes.length) : svcWriteSeg w index sub q.bytes.length false v c =
      (.now .ok o.ty (q.bytes ++ v).length [], setStage w (some { index := index, sub := sub, bytes := q.bytes ++ v }) c) := by
  simp [svcWriteSeg, h, hs, hi, hk, List.length_pos_iff.mp hlen]

theorem svcWriteSeg_gap {q : SegStore} {off : Nat} (last : Bool) (hs : (c.dev.user (whoNo w)).stage = some q)
    (hne : off ≠ q.bytes.length) (hoff : 0 < off) :
    svcWriteSeg w index sub off last v c = (.now .segment o.ty 0 [], setStage w none c) := by
  simp [svcWriteSeg, h, hs, Nat.pos_iff_ne_zero.mp hoff, hne.symm, refuse]

theorem svcWriteSeg_last :
    svcWriteSeg w index sub 0 true v c = svcWriteAs 6 w index sub v (setStage w none c) := by
  simp [svcWriteSeg, h]

end

end Sys2Proof.Proofs
end

section
namespace Sys2Proof.Proofs

open Sys2Proof Sys2Proof.Machine Sys2Proof.Laws

/-! ### The parameters of a head whose port is disabled (R345) -/

/-- The object at the subindex of a head's parameters. -/
theorem findObj_param {index sub : Nat} {c : Core} (hp : isParam index sub = true) : findObj index sub c = .ok paramObj := by
  simp only [isParam, Bool.and_eq_true, decide_eq_true_eq, beq_iff_eq] at hp
  obtain ⟨⟨hlo, hhi⟩, rfl⟩ := hp
  have hobj : objAt index 0x21 c = headObj (index - 0x3500) 0x21 := by
    simp (disch := omega) only [objAt, coreObj, if_neg, if_pos]
  simp [findObj, hobj, headObj]

theorem paramQueue_disabled {q : AcyReq} {d : Dev} (h : fpEn (d.fp (q.head / 32)) = false) : paramQueue q d = none := by
  simp [paramQueue, h]

theorem paramAccess_disabled {w : DictWho} {svc h want : Nat} {k : AcyKind} {c : Core} (hd : fpEn (c.dev.fp (h / 32)) = false) :
    paramAccess w svc h want k c = (.now .state tyDomain 0 [], c) := by
  simp [paramAccess, paramQueue_disabled (q := ⟨h, k, _, _, _, _, _, _⟩) hd, hd, refuse]

theorem svcRead_param_disabled {w : DictWho} {index sub : Nat} {c : Core} (hp : isParam index sub = true)
    (hd : fpEn (c.dev.fp ((index - 0x3500) / 32)) = false) : svcRead w index sub c = (.now .state tyDomain 0 [], c) := by
  have hacc : paramObj.acc ≠ 2 := by decide
  simp [svcRead, findObj_param hp, hacc, hp, paramAccess_disabled hd]

/-! ### A read of all the readable subindices (R382) -/

/-- The readable subindices of an index, each with its type and its value. -/
def readable (w : DictWho) (index : Nat) (c : Core) : List (Nat × Nat × List Byte) :=
  (subsOf index c).filterMap fun k => match objAt index k c with
    | some o => if o.acc = 2 then none else some (k, o.ty, o.rd w c)
    | none => none

/-- The bytes that a response shows of a subindex. -/
def itemBytes (e : Nat × Nat × List Byte) : List Byte :=
  [BitVec.ofNat 8 e.1, BitVec.ofNat 8 e.2.1, BitVec.ofNat 8 e.2.2.length] ++ e.2.2

section
variable {w : DictWho} {index : Nat} {c : Core}

theorem svcReadAll_eq : svcReadAll w index c =
    if !indexPresent index c then (.now .noObject 0 0 [], c)
    else if 1452 < ((readable w index c).flatMap itemBytes).length ∨
        ((readable w index c).any fun e => decide (255 < e.2.2.length)) = true then (.now .tooBig 0 0 [], c)
    else (.now .ok 0 ((readable w index c).flatMap itemBytes).length ((readable w index c).flatMap itemBytes),
      (readable w index c).foldl (fun c e => dictReadEffect w index e.1 c) c) := rfl

theorem svcReadAll_present (hp : indexPresent index c = true) (hshort : ∀ e ∈ readable w index c, e.2.2.length ≤ 255) :
    svcReadAll w index c =
      if 1452 < ((readable w index c).flatMap itemBytes).length then (.now .tooBig 0 0 [], c)
      else (.now .ok 0 ((readable w index c).flatMap itemBytes).length ((readable w index c).flatMap itemBytes),
        (readable w index c).foldl (fun c e => dictReadEffect w index e.1 c) c) := by
  have hany : ((readable w index c).any fun e => decide (255 < e.2.2.length)) = false := by
    simpa [List.any_eq_false] using fun a b x hx => hshort (a, b, x) hx
  simp [svcReadAll_eq, hp, hany]

theorem svcReadAll_absent (hp : indexPresent index c = false) : svcReadAll w index c = (.now .noObject 0 0 [], c) := by
  simp [svcReadAll_eq, hp]

end

/-! ### The keyed write (R402–R404) -/

section
variable {w : DictWho} {index sub : Nat} {c : Core} {o : Obj} {v tr : List Byte}
variable (h : findObj index sub c = .ok o)
include h

theorem svcKeyedWrite_unkeyed (l : List Byte) (ha : o.acc ≠ 3) :
    svcKeyedWrite w index sub l c = (.now .key o.ty 0 [], c.mapDev (keyFailure 1 index sub)) := by
  simp [svcKeyedWrite, h, ha, refuse]

variable (ha : o.acc = 3) (htr : tr.length = 32) (hz : allZero (slice tr 1 7) = true)
include ha htr hz

theorem svcKeyedWrite_fails {k : Nat}
    (hk : keyedFailure c.vault (fromHost w) (keyedKindOf index sub) index sub v (trailerOf tr) = some k) :
    svcKeyedWrite w index sub (v ++ tr) c = (.now .key o.ty 0 [], c.mapDev (keyFailure k index sub)) := by
  simp [svcKeyedWrite, h, ha, htr, hz, hk, refuse]

theorem svcKeyedWrite_plain
    (hk : keyedFailure c.vault (fromHost w) (keyedKindOf index sub) index sub v (trailerOf tr) = none) {cls : Nat}
    (hkind : keyedKindOf index sub = .plain cls) {r : DictCode × Core}
    (hr : writeValue w index sub v true { c with vault := takeCounter (trailerOf tr) c.vault } = r) :
    svcKeyedWrite w index sub (v ++ tr) c = (.now r.1 o.ty (if r.1 = .ok then v.length else 0) [], r.2) := by
  rw [hkind] at hk
  simp [svcKeyedWrite, h, ha, htr, hz, hk, hkind, hr]

theorem svcKeyedWrite_key
    (hk : keyedFailure c.vault (fromHost w) (keyedKindOf index sub) index sub v (trailerOf tr) = none) {n : Nat} {key : BitVec 256}
    (hkind : keyedKindOf index sub = .key n) (hboot : isBoot (trailerOf tr) = false)
    (hkey : unwrapped c.vault (trailerOf tr) v = some key) :
    svcKeyedWrite w index sub (v ++ tr) c =
      (.now .ok o.ty v.length [], { c with vault := writeKey n key (takeCounter (trailerOf tr) c.vault) }) := by
  rw [hkind] at hk
  simp [svcKeyedWrite, h, ha, htr, hz, hk, hkind, hboot, hkey]

end

end Sys2Proof.Proofs
end

section
namespace Sys2Proof.Proofs

open Sys2Proof Sys2Proof.Machine Sys2Proof.Laws

/-! ### What a served request leaves unchanged -/

/-- A request that is served changes what its service changed, and what its answer changes. -/
theorem runs_of_serves {i : Instr} {s : State} {w : DictWho} {body : List Byte} {e : Dev} {l : List Part} {P : State → Prop}
    (h : Serves i s w body { s.core with dev := e }) (he : SameBut l s.core.dev e) (hl : [Part.ds, .hi, .ic, .ne, .lk] ⊆ l)
    (hP : ∀ t, Served w body { s.core with dev := e } t → P t) : Runs i s l P := by
  obtain ⟨t, hx, hp, hs⟩ := h
  obtain ⟨-, -, -, -, -, -, -, -, hsame⟩ := id hs
  exact ⟨t, hx, ⟨hp, fun b hb => part_same_trans b _ _ _ (he s.core.vault b hb) (hsame b fun hn => hb (hl hn))⟩, hP t hs⟩

section
variable {w : DictWho} {body : List Byte} {c : Core} {t : State} (h : Served w body c t)
include h

theorem served_user : t.core.dev.user (whoNo w) = { c.dev.user (whoNo w) with answer := body } := h.1

theorem served_slug (m : Nat) : t.core.dev.slug m = c.dev.slug m := by
  obtain ⟨-, -, -, -, -, -, -, -, hsame⟩ := h
  exact congrArg (fun g => Bank.get {} g.slugs m) (hsame .gs (by decide))

end

/-! ### A slug removed through its object (R146) -/

section
variable {d : Dev} {sid : Nat}

/-- A cancelled slug that is neither recorded nor freed is only marked. -/
theorem cancelSlug_marks (reason : Nat) (t : Time64) (hrec : bit d.gl.cfg 4 = false) (hfree : bit d.gl.cfg 0 = false) :
    cancelSlug sid reason t d = d.updSlug sid fun x => { x with state := .cancelled } := by
  simp [cancelSlug, retireSlug, writeRecord, recordSelected, plainRecord, hrec, hfree]

theorem directRemove_parked (hst : (d.slug sid).state = .parked) (hrec : bit d.gl.cfg 4 = false)
    (hfree : bit d.gl.cfg 0 = false) (hg : d.gs.granted = []) :
    directRemove sid (d.slug sid).seq d =
      (⟨.ok, .cancelled, sid, (d.slug sid).seq⟩, d.updSlug sid fun x => { x with state := .cancelled }) := by
  simp [directRemove, settleGranted_none hg, opRemove, stale, hst, cancelSlug_marks 1 d.tb.time hrec hfree]

end

/-- A write of the removal object carries out the removal (R146). -/
theorem svcWrite_slugRemove {w : DictWho} {l : List Byte} {c : Core} (hl : l.length = 8) {r : GlAnswer × Dev}
    (hr : directRemove (beNat l / 2 ^ 32 % 2 ^ 18) (BitVec.ofNat 32 (beNat l)) c.dev = r) :
    svcWrite w 0x5001 2 l c = (.now .ok tyU64 8 [], (slugAnswerTo w r c).2) := by
  have hobj : findObj 0x5001 2 c =
      .ok ⟨tyU64, 2, false, 8, fun _ _ => [], fun w l c => slugRemove w (beNat l) c⟩ := by
    simp [findObj, objAt, coreObj, slugCmdObj]
  have hfault : valueFault ⟨tyU64, 2, false, 8, fun _ _ => [], fun w l c => slugRemove w (beNat l) c⟩ l = none := by
    simp [valueFault, hl, tyU64, typeSize, tyBool]
  have hw := writeValue_rule (w := w) (keyed := false) hobj (by simp [roleFirst]) (.inr rfl) hfault
  rw [svcWrite, svcWriteAs_value hobj 2 (by simp [isParam]) hw]
  subst hr
  simp [slugRemove, slugAnswerTo, hl]

/-! ### A slug inserted through its object (R146) -/

/-- The galley after an insertion under the SID `sid`. -/
def inserted (sid : Nat) (x : Slug) (d : Dev) : Dev :=
  { d with
    gl := { d.gl with seq := d.gl.seq + 1 }
    gs := { d.gs with
      fresh := sid + 1
      slugs := Bank.set {} d.gs.slugs sid { x with seq := d.gl.seq + 1, state := .parked, used := true } } }

section
variable {d : Dev} {sid : Nat} {x : Slug}

theorem sameBut_inserted (sid : Nat) (x : Slug) (d : Dev) : SameBut [.gl, .gs] d (inserted sid x d) := by
  have hgl : SameBut [.gl, .gs] d { d with gl := { d.gl with seq := d.gl.seq + 1 } } := sameBut_mono (sameBut_gl d _) (by decide)
  exact sameBut_then (sameBut_gs _ _) (by decide) hgl

theorem inserted_slug_same : (inserted sid x d).slug sid = { x with seq := d.gl.seq + 1, state := .parked, used := true } :=
  bank_get_set_same ..

theorem inserted_slug_other {m : Nat} (h : m ≠ sid) : (inserted sid x d).slug m = d.slug m := bank_get_set_other _ _ _ _ _ h

theorem maybeArm_slug (a : Nat) (g : Ang64) (d : Dev) (m : Nat) : (maybeArm a g d).slug m = d.slug m :=
  congrArg (fun x : GalleyStore => Bank.get ({} : Slug) x.slugs m) (kept_gs (sameBut_maybeArm a g d) (by decide))

theorem directInsert_ahead (hbad : badSlug x = false) (hf : nextFresh d d.gs.fresh < 262144)
    (hahead : 0 < sdiff x.angle (published d x.axis)) (hg : d.gs.granted = []) :
    directInsert x false d = (⟨.ok, .parked, nextFresh d d.gs.fresh, d.gl.seq + 1⟩,
      maybeArm x.axis x.angle (inserted (nextFresh d d.gs.fresh) x d)) := by
  have halloc : allocSid (nextSeq d).2 = some (nextFresh d d.gs.fresh,
      { (nextSeq d).2 with gs := { d.gs with fresh := nextFresh d d.gs.fresh + 1 } }) := if_pos hf
  simp [directInsert, settleGranted_none hg, opInsert, hbad, halloc, hahead]
  simp [nextSeq, inserted]

end

theorem svcWrite_slugInsert {w : DictWho} {l : List Byte} {c : Core} (hl : l.length = 32) {r : GlAnswer × Dev}
    (hr : directInsert (slugOfImage (bytesImage l)) (imageReserved (bytesImage l)) c.dev = r) :
    svcWrite w 0x5001 1 l c = (.now .ok tyDomain 32 [], (slugAnswerTo w r c).2) := by
  have hobj : findObj 0x5001 1 c = .ok ⟨tyDomain, 2, false, 32, fun _ _ => [], slugInsert⟩ := by
    simp [findObj, objAt, coreObj, slugCmdObj]
  have hfault : valueFault ⟨tyDomain, 2, false, 32, fun _ _ => [], slugInsert⟩ l = none := by
    simp [valueFault, hl, tyDomain, typeSize, tyBool]
  have hw := writeValue_rule (w := w) (keyed := false) hobj (by simp [roleFirst]) (.inr rfl) hfault
  rw [svcWrite, svcWriteAs_value hobj 2 (by simp [isParam]) hw]
  subst hr
  simp [slugInsert, slugAnswerTo, hl]

/-! ### The two objects serve their requester -/

section
variable {s : State} {w : DictWho} {l : List Byte} (hlive : live s.core.dev = true) (hrun : enginesRun s.core.dev = true)
variable (hwho : isRequester w = true)
include hlive hrun hwho

theorem slugRemoveObject_parked {sid : Nat} (hlen : l.length = 8) (hsid : beNat l / 2 ^ 32 % 2 ^ 18 = sid)
    (hseq : BitVec.ofNat 32 (beNat l) = (s.core.dev.slug sid).seq) (hst : (s.core.dev.slug sid).state = .parked)
    (hfree : bit s.core.dev.gl.cfg 0 = false) (hrec : bit s.core.dev.gl.cfg 4 = false) (hg : s.core.dev.gs.granted = []) :
    Runs (.slugRemoveObject w l) s [.ds, .hi, .ic, .ne, .lk, .gs] fun t =>
      t.core.dev.slug sid = { s.core.dev.slug sid with state := .cancelled } ∧
      (t.core.dev.user (whoNo w)).reply = ⟨0, sid, (s.core.dev.slug sid).seq⟩ ∧
      (t.core.dev.user (whoNo w)).answer = responseBody 2 .ok 0x5001 2 tyU64 8 [] ∧
      ∀ m, m ≠ sid → t.core.dev.slug m = s.core.dev.slug m := by
  have hr := directRemove_parked hst hrec hfree hg
  rw [← hseq, ← hsid] at hr
  have hserves := serves_service (i := .slugRemoveObject w l) hlive hrun hwho rfl (svcWrite_slugRemove hlen hr)
  refine runs_of_serves hserves ?_ (by decide) fun t ht => ?_
  · exact sameBut_then (sameBut_updUser _ _ _) (by decide) (sameBut_mono (sameBut_updSlug _ _ _) (by decide))
  · rw [hsid] at ht
    refine ⟨?_, ?_, ?_, fun m hm => ?_⟩
    · rw [served_slug ht, updUser_slug, updSlug_same]
    · rw [served_user ht, updUser_same, hseq]; rfl
    · rw [served_user ht]
    · rw [served_slug ht, updUser_slug, updSlug_other _ _ _ _ hm]

theorem slugInsertObject_ahead {n : Slug} {sid : Nat} (hlen : l.length = 32) (hn : slugOfImage (bytesImage l) = n)
    (hres : imageReserved (bytesImage l) = false) (hbad : badSlug n = false)
    (hsid : nextFresh s.core.dev s.core.dev.gs.fresh = sid) (hfresh : sid < 262144)
    (hahead : 0 < sdiff n.angle (published s.core.dev n.axis)) (hg : s.core.dev.gs.granted = []) :
    Runs (.slugInsertObject w l) s [.ds, .hi, .ic, .ne, .lk, .gl, .gs, .ax] fun t =>
      t.core.dev.slug sid = { n with seq := s.core.dev.gl.seq + 1, state := .parked, used := true } ∧
      (t.core.dev.user (whoNo w)).reply = ⟨0, sid, s.core.dev.gl.seq + 1⟩ ∧
      (t.core.dev.user (whoNo w)).answer = responseBody 2 .ok 0x5001 1 tyDomain 32 [] ∧
      ∀ m, m ≠ sid → t.core.dev.slug m = s.core.dev.slug m := by
  subst hsid hn
  have hr := directInsert_ahead hbad hfresh hahead hg
  rw [← hres] at hr
  have hserves := serves_service (i := .slugInsertObject w l) hlive hrun hwho rfl (svcWrite_slugInsert hlen hr)
  refine runs_of_serves hserves ?_ (by decide) fun t ht => ?_
  · exact sameBut_then (sameBut_updUser _ _ _) (by decide) (sameBut_then (sameBut_maybeArm _ _ _) (by decide)
      (sameBut_mono (sameBut_inserted _ _ _) (by decide)))
  · refine ⟨?_, ?_, ?_, fun m hm => ?_⟩
    · rw [served_slug ht, updUser_slug, maybeArm_slug, inserted_slug_same]
    · rw [served_user ht, updUser_same]; rfl
    · rw [served_user ht]
    · rw [served_slug ht, updUser_slug, maybeArm_slug, inserted_slug_other hm]

end

end Sys2Proof.Proofs
end

section
namespace Sys2Proof.Proofs

open Sys2Proof Sys2Proof.Machine Sys2Proof.Laws

/-- Settles O53: each service by the equation for what it answers, and the equation by the rule the object falls under. -/
theorem dictionaryServices : Obligations.DictionaryServices := by
  unfold Obligations.DictionaryServices
  intro s w index sub hlive hrun hwho hindex hsub
  have a : Asks s w index sub := ⟨hlive, hrun, hwho, hindex, hsub⟩
  refine ⟨?absent, ?found, ?allAbsent, ?all, ?remove, ?insert⟩
  case absent =>
    intro e v last off n h hoff hn
    exact ⟨serves_read a (svcRead_absent h), serves_write a (svcWriteAs_absent 2 v h),
      serves_keyedWrite a (svcKeyedWrite_absent v h), serves_describe a (svcDescribe_absent h),
      serves_readSeg a hoff hn (svcReadSeg_absent off n h), serves_writeSeg a hoff (svcWriteSeg_absent off last v h)⟩
  case found =>
    intro o h
    refine ⟨serves_describe a (svcDescribe_found h), fun ha => serves_read a (svcRead_writeOnly h ha), ?reads, ?role,
      ?readOnly, ?key, ?value, ?param, ?first, ?next, ?gap, ?last, ?unkeyed, ?keyed⟩
    case reads =>
      intro ha hp
      refine ⟨?_, fun hlen => serves_read a (svcRead_tooBig h ha hp hlen), ?_, ?_, ?_⟩
      · rintro v rfl hlen
        exact serves_read a (svcRead_value h ha hp hlen)
      · rintro v n rfl hn hq
        exact serves_readSeg a (by decide) hn (svcReadSeg_first h ha hp hq n)
      · intro q off n hs hi hk hoff hmax hn hq
        exact serves_readSeg a hmax hn (svcReadSeg_snapshot h ha hs hi hk hoff hq n)
      · intro off n hs hoff hmax hn
        exact serves_readSeg a hmax hn (svcReadSeg_noSnapshot h ha hs hoff n)
    case role =>
      intro v hp hr
      exact serves_write a (svcWrite_refused h hp (by decide) (writeValue_role h hr))
    case readOnly =>
      intro v hp hr ha
      exact serves_write a (svcWrite_refused h hp (by decide) (writeValue_readOnly h hr ha))
    case key =>
      intro v hp hr ha
      exact serves_write a (svcWrite_refused h hp (by decide) (writeValue_key h hr ha))
    case value =>
      intro v hp hr ha
      refine ⟨fun e hv => ?_, ?_⟩
      · exact serves_write a (svcWrite_refused h hp (valueFault_ne_ok hv) (writeValue_fault h hr ha hv))
      · rintro hv r rfl
        exact serves_write a (svcWriteAs_value h 2 hp (writeValue_rule h hr ha hv))
    case param =>
      intro hp hd
      exact serves_read a (svcRead_param_disabled hp hd)
    case first =>
      intro v
      exact serves_writeSeg a (by decide) (svcWriteSeg_first h)
    case next =>
      intro v q hs hi hk hpos hmax
      exact serves_writeSeg a hmax (svcWriteSeg_next h hs hi hk hpos)
    case gap =>
      intro v q last off hs hne hoff hmax
      exact serves_writeSeg a hmax (svcWriteSeg_gap h last hs hne hoff)
    case last =>
      rintro v o' h' hp hr ha hv r rfl
      have hw := svcWriteAs_value h' 6 hp (writeValue_rule (w := w) (keyed := false) h' hr ha hv)
      exact serves_writeSeg a (by decide) ((svcWriteSeg_last h).trans hw)
    case unkeyed =>
      intro l ha
      exact serves_keyedWrite a (svcKeyedWrite_unkeyed h l ha)
    case keyed =>
      intro v tr ha htr hz
      refine ⟨fun k hk => serves_keyedWrite a (svcKeyedWrite_fails h ha htr hz hk), fun hk => ⟨?_, ?_⟩⟩
      · rintro cls o' c hkind rfl h' hr ha' hv r rfl
        exact serves_keyedWrite a (svcKeyedWrite_plain h ha htr hz hk hkind (writeValue_keyed h' hr ha' hv))
      · intro n k hkind hboot hkey
        exact serves_keyedWrite a (svcKeyedWrite_key h ha htr hz hk hkind hboot hkey)
  case allAbsent =>
    intro hp
    exact serves_readAll a (svcReadAll_absent hp)
  case all =>
    intro items l hp hitems hl hshort
    have hread : readable w index s.core = items := hitems
    have hbytes : (readable w index s.core).flatMap itemBytes = l := by rw [hread]; exact hl
    have hans := svcReadAll_present hp (w := w) (by rw [hread]; exact hshort)
    rw [hbytes, hread] at hans
    exact ⟨fun hfit => serves_readAll a (hans.trans (if_neg (Nat.not_lt.mpr hfit))),
      fun hbig => serves_readAll a (hans.trans (if_pos hbig))⟩
  case remove =>
    intro l sid hlen hsid hseq hst hfree hrec hg
    exact slugRemoveObject_parked hlive hrun hwho hlen hsid hseq hst hfree hrec hg
  case insert =>
    intro l n hlen hn hres hbad hfresh hahead hg
    exact slugInsertObject_ahead hlive hrun hwho hlen hn hres hbad rfl hfresh hahead hg

end Sys2Proof.Proofs
end

section
/-! SUPPORT. The flags of the timebase and ALIGN_OK (R53, R298): what they change of the timebase. -/

namespace Sys2Proof.Proofs

open Sys2Proof Sys2Proof.Machine Sys2Proof.Laws

section
variable (d : Dev)

/-- A flag changes of the timebase TB_STAT alone. -/
theorem tbFlag_tb (b : Nat) : (tbFlag b d).tb = { d.tb with stat := orBit d.tb.stat b } := by
  unfold tbFlag
  dsimp only
  split
  · rfl
  · rw [kept_tb (sameBut_memberEvent _ _) (by decide)]

/-- Alignment takes its new value; ALIGN_LOST is raised with it or not. -/
theorem settleAlign_cases : ∃ now, settleAlign d = tbFlag 10 { d with tb := { d.tb with alignOk := now } } ∨
    settleAlign d = { d with tb := { d.tb with alignOk := now } } := ⟨_, ite_eq_or_eq _ _ _⟩

/-- It changes of the timebase ALIGN_OK and TB_STAT alone. -/
theorem settleAlign_tb : ∃ ok st, (settleAlign d).tb = { d.tb with alignOk := ok, stat := st } := by
  obtain ⟨now, h | h⟩ := settleAlign_cases d
  · rw [h, tbFlag_tb]
    exact ⟨now, _, rfl⟩
  · rw [h]
    exact ⟨now, _, rfl⟩

theorem settleAlign_so : (settleAlign d).so = d.so := kept_so (sameBut_settleAlign d) (by decide)

theorem settleAlign_ptp : (settleAlign d).ptp = d.ptp := kept_ptp (sameBut_settleAlign d) (by decide)

variable {d}

/-- A manager is aligned from its first Sync on. -/
theorem settleAlign_syncSent (hr : roleManager d = true) (hs : d.so.syncSent = true) :
    settleAlign d = { d with tb := { d.tb with alignOk := true } } := by
  simp [settleAlign, hr, hs]

end

section
variable {i : Instr} {s : State} {f : Dev → Dev} {x : Timebase} (hl : live s.core.dev = true)
  (he : exec i s = whenLiveDev true f s)
include hl he

/-- A command of the core that leaves the device with timebase `x` changes that block alone. -/
theorem runs_setsTb (hf : f s.core.dev = { s.core.dev with tb := x }) : Runs i s [.tb] fun t => t.core.dev.tb = x :=
  runs_to hl he hf (sameBut_tb _ x) rfl

/-- One that raises a flag as well reaches the interrupts of TB_STAT. -/
theorem runs_setsTb_flag {b : Nat} (hf : f s.core.dev = tbFlag b { s.core.dev with tb := x }) :
    Runs i s [.tb, .ic, .ne] fun t => t.core.dev.tb = { x with stat := orBit x.stat b } :=
  runs_to hl he hf (sameBut_trans (sameBut_mono (sameBut_tb _ x) (by decide)) (sameBut_tbFlag b _)) (tbFlag_tb _ b)

end

end Sys2Proof.Proofs
end

section
/-! O9: the host's hold on the timebase (R48). -/

namespace Sys2Proof.Proofs

open Sys2Proof Sys2Proof.Machine Sys2Proof.Laws

section
variable {d : Dev}

/-! ### TB_HTRIM and TB_STEP, case by case -/

theorem htrimWrite_host {v : W32} (hv : trimInRange v.toInt = true) (hs : bit d.tb.ctl 0 = false) :
    htrimWrite v d = { d with tb := { d.tb with htrim := v.toInt, trimNext := d.tb.trimNext ++ [(v.toInt, 2)] } } := by
  rw [htrimWrite, if_pos hv, if_neg (by simp [tbServo, hs])]
  rfl

theorem htrimWrite_servo {v : W32} (hv : trimInRange v.toInt = true) (hs : bit d.tb.ctl 0 = true) :
    htrimWrite v d = { d with tb := { d.tb with htrim := v.toInt } } := by
  rw [htrimWrite, if_pos hv]
  exact if_pos hs

theorem htrimWrite_rejected {v : W32} (hv : trimInRange v.toInt = false) : htrimWrite v d = tbFlag 13 d := by
  rw [htrimWrite, if_neg (by simp [hv])]

theorem stepCommit_waits {v : W64} (hs : bit d.tb.ctl 0 = false) (hv : v.toInt.natAbs ≤ d.so.stepMax) :
    stepCommit v d = { d with tb := { d.tb with pending := some (.step v true) } } := by
  rw [stepCommit, if_neg (by simp [tbServo, hs, hv])]

theorem stepCommit_refused {v : W64} (h : bit d.tb.ctl 0 = true ∨ d.so.stepMax < v.toInt.natAbs) :
    stepCommit v d = tbFlag 12 d := by
  rw [stepCommit, if_pos (by simpa [tbServo] using h)]

/-! ### SERVO, case by case -/

theorem dropHostStep_drops {w : W64} (h : d.tb.pending = some (.step w true)) :
    dropHostStep d = tbFlag 12 { d with tb := { d.tb with pending := none } } := by
  rw [dropHostStep, h]

theorem dropHostStep_keeps (h : ∀ w, d.tb.pending ≠ some (.step w true)) : dropHostStep d = d := by
  unfold dropHostStep
  split
  · exact absurd ‹_› (h _)
  · rfl

theorem servoWrite_same {b : Bool} (h : bit d.tb.ctl 0 = b) : servoWrite b d = d := if_pos h.symm

/-- The servo takes the timebase over: the host's step goes. -/
theorem servoWrite_on (h : bit d.tb.ctl 0 = false) :
    servoWrite true d = dropHostStep { d with tb := { d.tb with ctl := orBit d.tb.ctl 0 } } := by
  rw [servoWrite, if_neg (by simp [tbServo, h]), if_pos rfl]
  rfl

/-- The device after the servo has let go, before ALIGN_OK settles. -/
def servoReleased (d : Dev) : Dev := dropServo { d with tb := { d.tb with ctl := clrBit d.tb.ctl 0 } }

/-- The host takes the timebase over: the servo's orders go, and TB_HTRIM is set as the trim. -/
theorem servoWrite_off (h : bit d.tb.ctl 0 = true) :
    servoWrite false d = setTrim d.tb.htrim (settleAlign (servoReleased d)) := by
  rw [servoWrite, if_neg (by simp [tbServo, h]), if_neg (by decide)]
  rfl

theorem sameBut_servoReleased (d : Dev) : SameBut [.tb, .so] d (servoReleased d) :=
  sameBut_then (sameBut_dropServo _) (by decide) (sameBut_mono (sameBut_tb d _) (by decide))

theorem sameBut_servoWrite_off (h : bit d.tb.ctl 0 = true) : SameBut [.tb, .so, .ic, .ne] d (servoWrite false d) := by
  rw [servoWrite_off h]
  exact sameBut_then (sameBut_setTrim _ _) (by decide) (sameBut_then (sameBut_settleAlign _) (by decide)
    (sameBut_mono (sameBut_servoReleased d) (by decide)))

/-- The timebase in the host's hands: but for ALIGN_OK and its flag it is the released one with TB_HTRIM as a trim set. -/
theorem servoWrite_off_tb (h : bit d.tb.ctl 0 = true) : ∃ ok st, (servoWrite false d).tb =
    { (servoReleased d).tb with alignOk := ok, stat := st, trimNext := d.tb.trimNext ++ [(d.tb.htrim, 2)] } := by
  obtain ⟨ok, st, htb⟩ := settleAlign_tb (servoReleased d)
  rw [servoWrite_off h, setTrim, htb]
  exact ⟨ok, st, rfl⟩

theorem servoWrite_off_so (h : bit d.tb.ctl 0 = true) : (servoWrite false d).so = { d.so with slewRemaining := 0 } := by
  rw [servoWrite_off h]
  exact settleAlign_so _

theorem servoReleased_pending_host {w : W64} (h : d.tb.pending = some (.step w true)) :
    (servoReleased d).tb.pending = some (.step w true) := by
  simp [servoReleased, dropServo, h]

theorem servoReleased_pending_none (h : ∀ w, d.tb.pending ≠ some (.step w true)) : (servoReleased d).tb.pending = none := by
  unfold servoReleased dropServo
  dsimp only
  split
  · exact absurd ‹_› (h _)
  · rfl

end

/-- Settles O9: each write is one of the cases of TB_HTRIM, TB_STEP or SERVO, and sets the timebase, with a flag or without. -/
theorem hostTrimStepAndServo : Obligations.HostTrimStepAndServo := by
  intro s hl
  refine ⟨fun v hv hs => ?_, fun v hv hs => ?_, fun v hv => ?_, fun v hs hv => ?_, fun v h => ?_, fun hs w hw => ?_,
    fun hs hw => ?_, fun hs => ?_, fun b hb => ?_⟩
  · exact runs_setsTb hl rfl (htrimWrite_host hv hs)
  · exact runs_setsTb hl rfl (htrimWrite_servo hv hs)
  · exact runs_setsTb_flag hl rfl (htrimWrite_rejected hv)
  · exact runs_setsTb hl rfl (stepCommit_waits hs hv)
  · exact runs_setsTb_flag hl rfl (stepCommit_refused h)
  · exact runs_setsTb_flag hl rfl ((servoWrite_on hs).trans (dropHostStep_drops hw))
  · exact runs_setsTb hl rfl ((servoWrite_on hs).trans (dropHostStep_keeps hw))
  · obtain ⟨ok, st, htb⟩ := servoWrite_off_tb hs
    refine runs_dev hl rfl (sameBut_servoWrite_off hs) ?_
    dsimp only
    rw [htb]
    exact ⟨rfl, rfl, bit_clrBit_same _ _, rfl, servoWrite_off_so hs, fun w => servoReleased_pending_host,
      servoReleased_pending_none⟩
  · exact exec_idle rfl (servoWrite_same hb)

end Sys2Proof.Proofs
end

section
/-! O13: from a Sync to the servo (R38, R40, R43). -/

namespace Sys2Proof.Proofs

open Sys2Proof Sys2Proof.Machine Sys2Proof.Laws

section
variable {d : Dev} {p dom : Nat} {plant : Bool}

/-! ### The PTP domain a message belongs to (R38) -/

theorem toInstance_none (f : Bool → Dev → Dev) (h : instanceOf d dom = none) : toInstance p dom f d = d := by
  rw [toInstance, h]

theorem toInstance_heard (f : Bool → Dev → Dev) (h : instanceOf d dom = some plant) (hl : listens d p plant = true) :
    toInstance p dom f d = f plant d := by
  rw [toInstance, h]
  exact if_pos hl

/-! ### The Sync that waits for its Follow_Up -/

/-- The Sync, of the plant or of the domain, that waits for its Follow_Up. -/
def waitingSync (plant : Bool) (d : Dev) : Option (Nat × BitVec 16 × Time64) := if plant then d.ptp.plantSync else d.ptp.syncRx

/-- The device with `x` as the waiting Sync of the plant or of the domain. -/
def setWaitingSync (plant : Bool) (x : Option (Nat × BitVec 16 × Time64)) (d : Dev) : Dev :=
  if plant then { d with ptp := { d.ptp with plantSync := x } } else { d with ptp := { d.ptp with syncRx := x } }

variable {x : Option (Nat × BitVec 16 × Time64)}

theorem sameBut_setWaitingSync : SameBut [.ptp] d (setWaitingSync plant x d) :=
  sameBut_ite (fun _ => sameBut_ptp d _) fun _ => sameBut_ptp d _

theorem setWaitingSync_waiting : waitingSync plant (setWaitingSync plant x d) = x := by
  cases plant <;> rfl

theorem setWaitingSync_so : (setWaitingSync plant x d).so = d.so := kept_so sameBut_setWaitingSync (by decide)

theorem setWaitingSync_disciplines : disciplines (setWaitingSync plant x d) plant = disciplines d plant := by
  cases plant <;> rfl

/-- The path from the source is not the waiting Sync's. -/
theorem setWaitingSync_offset (rx : Time64) (origin : PtpTime) :
    offsetOf (setWaitingSync plant x d) p plant rx origin = offsetOf d p plant rx origin := by
  cases plant <;> rfl

theorem syncRx_twoStep {g : Nat} {seq : BitVec 16} (h : instanceOf d dom = some plant) (hl : listens d p plant = true)
    (hs : selected d p plant = true) :
    syncRx p dom seq g none d = setWaitingSync plant (some (p, seq, rxStamp d p g)) d := by
  rw [syncRx, toInstance_heard _ h hl]
  exact if_pos hs

theorem followUp_takes {seq : BitVec 16} {origin : PtpTime} {rx : Time64} (h : instanceOf d dom = some plant)
    (hl : listens d p plant = true) (hs : selected d p plant = true) (hw : waitingSync plant d = some (p, seq, rx)) :
    followUp p dom seq origin d = takeSync p plant rx origin (setWaitingSync plant none d) := by
  unfold waitingSync at hw
  rw [followUp, toInstance_heard _ h hl]
  dsimp only
  rw [hw]
  exact if_pos ⟨rfl, rfl, hs⟩

/-! ### The offset measured and the servo's new state (R43, R44) -/

variable {rx : Time64} {origin : PtpTime}

theorem takeSync_disciplines (h : disciplines d plant = true) :
    takeSync p plant rx origin d = servoOffset (offsetOf d p plant rx origin) rx d := if_pos h

/-- A plant that does not discipline TIME64 has its offset measured (R55). -/
theorem takeSync_plant_measures (h : disciplines d true = false) : takeSync p true rx origin d =
    { d with ptp := { d.ptp with plantOffset := offsetOf d p true rx origin } } :=
  (if_neg (by simp [h])).trans (if_pos rfl)

/-- A domain that does not discipline TIME64 uses no Sync. -/
theorem takeSync_domain_idle (h : disciplines d false = false) : takeSync p false rx origin d = d :=
  (if_neg (by simp [h])).trans (if_neg (by decide))

/-- Of the servo's objects a correction changes the trims it has set, the slew that remains and the mark of its time set. -/
theorem correct_so (o : Int) (d : Dev) : ∃ trims base slew done,
    (correct o d).so = { d.so with trims := trims, trimBase := base, slewRemaining := slew, setDone := done } := by
  unfold correct
  dsimp only
  repeat' split
  all_goals exact ⟨_, _, _, _, rfl⟩

/-- The device in ACQUIRE with its first offset, before the correction. -/
def acquiring (o : Int) (rx : Time64) (d : Dev) : Dev :=
  { d with
    so := { d.so with servo := .acquire, offset := BitVec.ofInt 64 o, lastSync := rx, setDone := false
                      within := if o.natAbs ≤ d.so.lockThreshold then 1 else 0
                      offsets := (o.natAbs :: d.so.offsets).take 64 }
    tb := { d.tb with plantHold := false } }

/-- The first offset in UNSET starts ACQUIRE, and does not lock yet. -/
theorem servoOffset_unset {o : Int} (hu : d.so.servo = .unset) (hc : 2 ≤ d.so.lockCount) (hw : d.so.within = 0) :
    servoOffset o rx d = settleAlign (correct o (acquiring o rx d)) := by
  have hlock : ¬ d.so.lockCount ≤ if o.natAbs ≤ d.so.lockThreshold then 1 else 0 := by split <;> omega
  simp [servoOffset, acquiring, hu, hw, hlock]

theorem servoOffset_acquires {o : Int} (hu : d.so.servo = .unset) (hc : 2 ≤ d.so.lockCount) (hw : d.so.within = 0) :
    (servoOffset o rx d).so.servo = .acquire ∧ (servoOffset o rx d).so.lastSync = rx ∧
      (servoOffset o rx d).so.offset = BitVec.ofInt 64 o := by
  obtain ⟨trims, base, slew, done, hso⟩ := correct_so o (acquiring o rx d)
  rw [servoOffset_unset hu hc hw, settleAlign_so, hso]
  exact ⟨rfl, rfl, rfl⟩

end

/-! ### The commands -/

section
variable {s : State} {p dom : Nat} {seq : BitVec 16} (hp : isMac p = true) (hd : dom < 256)
include hp hd

theorem exec_sync {g : Nat} {o : Option PtpTime} (hg : isGrain g = true) :
    exec (.sync p dom seq g o) s = whenLiveDev true (syncRx p dom seq g o) s :=
  congrArg (fun ok => whenLiveDev ok (syncRx p dom seq g o) s)
    (show (isMac p && decide (dom < 256) && isGrain g) = true by rw [hp, decide_eq_true hd, hg]; rfl)

theorem exec_followUp {origin : PtpTime} : exec (.followUp p dom seq origin) s = whenLiveDev true (followUp p dom seq origin) s :=
  congrArg (fun ok => whenLiveDev ok (followUp p dom seq origin) s)
    (show (isMac p && decide (dom < 256)) = true by rw [hp, decide_eq_true hd]; rfl)

variable {plant : Bool} (hl : live s.core.dev = true) (hi : instanceOf s.core.dev dom = some plant)
  (hn : listens s.core.dev p plant = true) (hs : selected s.core.dev p plant = true)
include hl hi hn hs

theorem sync_waits {g : Nat} (hg : isGrain g = true) : Runs (.sync p dom seq g none) s [.ptp] fun t =>
    waitingSync plant t.core.dev = some (p, seq, rxStamp s.core.dev p g) :=
  runs_to hl (exec_sync hp hd hg) (syncRx_twoStep hi hn hs) sameBut_setWaitingSync setWaitingSync_waiting

variable {origin : PtpTime} {rx : Time64} (hw : waitingSync plant s.core.dev = some (p, seq, rx))
include hw

theorem followUp_measures (hdis : disciplines s.core.dev plant = false) : Runs (.followUp p dom seq origin) s [.ptp] fun t =>
    waitingSync plant t.core.dev = none ∧
      (plant = true → t.core.dev.ptp.plantOffset = offsetOf s.core.dev p plant rx origin) := by
  have ht := followUp_takes (origin := origin) hi hn hs hw
  have hdis' := (setWaitingSync_disciplines (x := none)).trans hdis
  cases plant with
  | false => exact runs_to hl (exec_followUp hp hd) (ht.trans (takeSync_domain_idle hdis')) sameBut_setWaitingSync ⟨rfl, nofun⟩
  | true =>
    exact runs_to hl (exec_followUp hp hd) (ht.trans (takeSync_plant_measures hdis'))
      (sameBut_trans sameBut_setWaitingSync (sameBut_ptp _ _)) ⟨rfl, fun _ => rfl⟩

theorem followUp_acquires (hdis : disciplines s.core.dev plant = true) (hu : s.core.dev.so.servo = .unset)
    (hc : 2 ≤ s.core.dev.so.lockCount) (hz : s.core.dev.so.within = 0) :
    ∃ t, exec (.followUp p dom seq origin) s = .next t ∧ t.pending = s.pending ∧ t.core.vault = s.core.vault ∧
      t.core.dev.so.servo = .acquire ∧ t.core.dev.so.lastSync = rx ∧
      t.core.dev.so.offset = BitVec.ofInt 64 (offsetOf s.core.dev p plant rx origin) := by
  have ht : followUp p dom seq origin s.core.dev =
      servoOffset (offsetOf s.core.dev p plant rx origin) rx (setWaitingSync plant none s.core.dev) := by
    rw [followUp_takes hi hn hs hw, takeSync_disciplines (setWaitingSync_disciplines.trans hdis), setWaitingSync_offset]
  refine ⟨_, (exec_followUp hp hd).trans (whenLiveDev_ok _ s hl), rfl, rfl, ?_⟩
  dsimp only
  rw [ht]
  exact servoOffset_acquires (by rwa [setWaitingSync_so]) (by rwa [setWaitingSync_so]) (by rwa [setWaitingSync_so])

end

/-- Settles O13: the message's PTP domain decides, and for the selected source the waiting Sync is set and then taken. -/
theorem syncReachesServo : Obligations.SyncReachesServo := by
  intro s p dom seq g hp hd hg hl
  refine ⟨fun hi => ⟨fun o => ?_, fun origin => ?_⟩, fun plant hi hn hs => ⟨?_, fun origin rx hw hdis => ?_,
    fun origin rx hw hdis hu hc hz => ?_⟩⟩
  · exact exec_idle (exec_sync hp hd hg) (toInstance_none _ hi)
  · exact exec_idle (exec_followUp hp hd) (toInstance_none _ hi)
  · exact sync_waits hp hd hl hi hn hs hg
  · exact followUp_measures hp hd hl hi hn hs hw hdis
  · exact followUp_acquires hp hd hl hi hn hs hw hdis hu hc hz

end Sys2Proof.Proofs
end

section
/-! O14: the grandmaster selected, and its loss (R38, R42, R43, R52, R54). -/

namespace Sys2Proof.Proofs

open Sys2Proof Sys2Proof.Machine Sys2Proof.Laws

section
variable {d : Dev} {dom : Nat} {m : Announce}

/-! ### A data set heard (R38, R42) -/

/-- The data sets heard with that of `m` in the place of the last of its port. -/
def heardWith (m : Announce) (l : List Announce) : List Announce := m :: l.filter fun x => x.port != m.port

theorem heardWith_nil (m : Announce) : heardWith m [] = [m] := rfl

theorem eligibleSet_of_better {plant : Bool} (h : betterThan m (ownSet d) = true) : eligibleSet d plant m = true := by
  rw [eligibleSet, h, Bool.or_true]

/-- A data set heard alone is the best if it may be selected at all. -/
theorem bestOf_single {plant : Bool} (h : eligibleSet d plant m = true) : bestOf d plant [m] = some m := by
  simp [bestOf, h]

/-- On the plant's side every data set may be selected, whatever the device's own. -/
theorem bestOf_plant (d e : Dev) (l : List Announce) : bestOf d true l = bestOf e true l := rfl

theorem sameBut_settleBest (d : Dev) : SameBut [.ptp] d (settleBest d) := sameBut_ptp d _

theorem announceRx_plant (h : instanceOf d dom = some true) (hl : listens d m.port true = true) :
    announceRx dom m d = settleBest { d with ptp := { d.ptp with plantHeard := heardWith m d.ptp.plantHeard } } := by
  rw [announceRx, toInstance_heard _ h hl]
  rfl

/-- The device after a data set of its own domain, the best of all being selected. -/
def domainHeard (m : Announce) (d : Dev) : Dev := settleBest { d with ptp := { d.ptp with heard := heardWith m d.ptp.heard } }

theorem domainHeard_best (hh : d.ptp.heard = []) (hb : betterThan m (ownSet d) = true) : (domainHeard m d).ptp.best = some m := by
  change bestOf _ false (heardWith m d.ptp.heard) = some m
  rw [hh, heardWith_nil]
  exact bestOf_single (eligibleSet_of_better hb)

/-- A standalone device in FREE that hears a grandmaster acquires (R43). -/
theorem announceRx_acquires (h : instanceOf d dom = some false) (hl : listens d m.port false = true) (hr : tbRole d.tb = 0)
    (hf : d.so.servo = .free) (hb : (domainHeard m d).ptp.best = some m) : announceRx dom m d =
      settleAlign { domainHeard m d with so := { (domainHeard m d).so with servo := .acquire, within := 0, setDone := false } } := by
  have hman : roleManager d = false := by rw [roleManager, hr]; rfl
  have hall : (!false && tbRole d.tb == 0 && d.so.servo == .free && (domainHeard m d).ptp.best.isSome) = true := by
    rw [hr, hf, hb]; rfl
  rw [announceRx, toInstance_heard _ h hl]
  refine (if_neg ?_).trans (if_pos hall)
  rw [hman]
  decide

theorem sameBut_ptpTb (d : Dev) (x : Ptp) (y : Timebase) : SameBut [.ptp, .tb] d { d with ptp := x, tb := y } :=
  sameBut_then (sameBut_tb { d with ptp := x } y) (by decide) (sameBut_mono (sameBut_ptp d x) (by decide))

/-! ### Timeouts (R43, R52, R54) -/

theorem announceTimeout_unset (hr : tbRole d.tb = 0) (hu : d.so.servo = .unset) : announceTimeout false d =
    { d with ptp := { d.ptp with best := none, heard := [] }, so := { d.so with servo := .free } } := by
  simp [announceTimeout, hr, hu]

theorem enterUnset_servo (d : Dev) : (enterUnset d).so.servo = .unset := by
  unfold enterUnset
  dsimp only
  split <;> rfl

theorem enterHoldover_servo (d : Dev) : (enterHoldover d).so.servo = .holdover := by
  unfold enterHoldover
  dsimp only
  split <;> rfl

variable {plant : Bool}

theorem syncTimeout_acquire (hd : disciplines d plant = true) (hs : d.so.servo = .acquire) :
    (syncTimeout plant d).so.servo = .unset := by
  unfold syncTimeout
  dsimp only
  rw [hd, if_neg (by decide), hs]
  dsimp only
  rw [settleAlign_so]
  exact enterUnset_servo _

theorem syncTimeout_locked (hd : disciplines d plant = true) (hs : d.so.servo = .locked) :
    (syncTimeout plant d).so.servo = .holdover := by
  unfold syncTimeout
  dsimp only
  rw [hd, if_neg (by decide), hs]
  dsimp only
  rw [settleAlign_so]
  exact enterHoldover_servo _

end

/-! ### The commands -/

section
variable {s : State} (hl : live s.core.dev = true)

theorem exec_announce {dom : Nat} {m : Announce} (hd : dom < 256) :
    exec (.announce dom m) s = whenLiveDev true (announceRx dom m) s :=
  congrArg (fun ok => whenLiveDev ok (announceRx dom m) s) (decide_eq_true hd)

include hl

theorem exec_syncTimeout (plant : Bool) : exec (.syncReceiptTimeout plant) s =
    .next { s with core := { s.core with dev := syncTimeout plant s.core.dev } } := whenLiveDev_ok (syncTimeout plant) s hl

theorem announce_plant {dom : Nat} {m : Announce} (hd : dom < 256) (h : instanceOf s.core.dev dom = some true)
    (hn : listens s.core.dev m.port true = true) :
    Runs (.announce dom m) s [.ptp] fun t =>
      t.core.dev.ptp.plantHeard = m :: s.core.dev.ptp.plantHeard.filter (fun x => x.port != m.port) ∧
      t.core.dev.ptp.plantBest = bestOf s.core.dev true t.core.dev.ptp.plantHeard :=
  runs_to hl (exec_announce hd) (announceRx_plant h hn) (sameBut_trans (sameBut_ptp _ _) (sameBut_settleBest _))
    ⟨rfl, bestOf_plant _ _ _⟩

theorem announce_acquires {dom : Nat} {m : Announce} (hd : dom < 256) (h : instanceOf s.core.dev dom = some false)
    (hn : listens s.core.dev m.port false = true) (hh : s.core.dev.ptp.heard = []) (hr : tbRole s.core.dev.tb = 0)
    (hf : s.core.dev.so.servo = .free) (hb : betterThan m (ownSet s.core.dev) = true) :
    ∃ t, exec (.announce dom m) s = .next t ∧ t.core.vault = s.core.vault ∧
      t.core.dev.ptp.best = some m ∧ t.core.dev.so.servo = .acquire := by
  have hbest := domainHeard_best hh hb
  refine ⟨_, (exec_announce hd).trans (whenLiveDev_ok _ s hl), rfl, ?_⟩
  dsimp only
  rw [announceRx_acquires h hn hr hf hbest, settleAlign_ptp, settleAlign_so]
  exact ⟨hbest, rfl⟩

end

/-- Settles O14: a data set by its PTP domain, a timeout by the servo's state. -/
theorem grandmasterComesAndGoes : Obligations.GrandmasterComesAndGoes := by
  intro s hl
  refine ⟨fun dom m hd h hn => ?_, fun dom m hd h hn hh hr hf hb => ?_, ?_, fun hr hu => ?_, fun plant hd hs => ?_,
    fun plant hd hs => ?_⟩
  · exact announce_plant hl hd h hn
  · exact announce_acquires hl hd h hn hh hr hf hb
  · exact runs_to (f := announceTimeout true) hl rfl rfl (sameBut_ptpTb _ _ _) ⟨rfl, rfl⟩
  · exact runs_to hl rfl (announceTimeout_unset hr hu) (sameBut_mono (sameBut_soPtp _ _ _) (by decide)) ⟨rfl, rfl⟩
  · exact ⟨_, exec_syncTimeout hl plant, rfl, syncTimeout_acquire hd hs⟩
  · exact ⟨_, exec_syncTimeout hl plant, rfl, syncTimeout_locked hd hs⟩

end Sys2Proof.Proofs
end

section
/-! O15: the peer delay (R38, R39, R360). -/

namespace Sys2Proof.Proofs

open Sys2Proof Sys2Proof.Machine Sys2Proof.Laws

/-! ### A message and the cyclic gate of its MAC (R360) -/

section
variable {d : Dev} {p : Nat}

theorem orWait_leaves (w : Waiting) (f : Dev → Dev) (h : (d.mac p).gate = false) : orWait p w f d = f d :=
  if_neg (by simp [h])

/-- The device with one message more in the queue of MAC `p`. -/
def withHeld (p : Nat) (w : Waiting) (d : Dev) : Dev := d.updMac p fun x => { x with held := x.held ++ [w] }

theorem orWait_waits (w : Waiting) (f : Dev → Dev) (h : (d.mac p).gate = true) : orWait p w f d = withHeld p w d := if_pos h

theorem sameBut_withHeld (p : Nat) (w : Waiting) (d : Dev) : SameBut [.lk] d (withHeld p w d) := sameBut_updMac d p _

theorem withHeld_held (p : Nat) (w : Waiting) (d : Dev) : ((withHeld p w d).mac p).held = (d.mac p).held ++ [w] := by
  rw [withHeld, updMac_same]

end

/-- A command of the core whose message finds the gate open leaves it in the queue of its MAC. -/
theorem runs_waits {i : Instr} {s : State} {f g : Dev → Dev} {p : Nat} {w : Waiting} (hl : live s.core.dev = true)
    (he : exec i s = whenLiveDev true f s) (hf : f s.core.dev = orWait p w g s.core.dev) (hg : (s.core.dev.mac p).gate = true) :
    Runs i s [.lk] fun t => (t.core.dev.mac p).held = (s.core.dev.mac p).held ++ [w] :=
  runs_to hl he (hf.trans (orWait_waits w g hg)) (sameBut_withHeld p w _) (withHeld_held p w _)

/-! ### The four messages -/

section
variable {d : Dev} {p : Nat} (hn : listens d p false = true)
include hn

theorem pdelayReq_listens (seq : BitVec 16) (g g2 : Nat) : pdelayReq p seq g g2 d =
    orWait p (.pdelayResp seq (rxStamp d p g) g2) (pdelayRespLeaves p seq (rxStamp d p g) g2) d := if_pos hn

theorem pdelayReqSend_listens (g : Nat) : pdelayReqSend p g d = orWait p (.pdelayReq g) (pdelayReqLeaves p g) d := if_pos hn

theorem pdelayResp_taken {g : Nat} {t2 : PtpTime} (hr : (d.ptpPort p).reqSent.isSome = true) : pdelayResp p g t2 d =
    d.updPtpPort p fun q => { q with respAt := some (rxStamp d p g, BitVec.ofInt 64 (ptpGrains t2)) } := by
  rw [pdelayResp, hn, hr]
  rfl

theorem pdelayRespFollowUp_measures {t1 t2 t4 : Time64} {t3 : PtpTime} (h1 : (d.ptpPort p).reqSent = some t1)
    (h2 : (d.ptpPort p).respAt = some (t4, t2)) : pdelayRespFollowUp p t3 d =
      d.updPtpPort p fun q => { q with
        reqSent := none, respAt := none
        meanLinkDelay := BitVec.ofInt 32 ((sdiff t4 t1 - sdiff (BitVec.ofInt 64 (ptpGrains t3)) t2) / 2) } := by
  rw [pdelayRespFollowUp, h1, h2]
  exact if_pos hn

end

theorem pdelayRespLeaves_sent (p : Nat) (seq : BitVec 16) (rx : Time64) (g : Nat) (d : Dev) :
    (pdelayRespLeaves p seq rx g d).ptp.sent =
      d.ptp.sent ++ [.pdelayResp p seq rx, .pdelayRespFollowUp p seq (txStamp d p g)] := List.append_assoc _ [_] [_]

theorem pdelayReqLeaves_reqSent (p g : Nat) (d : Dev) : ((pdelayReqLeaves p g d).ptpPort p).reqSent = some (txStamp d p g) :=
  congrArg PtpPort.reqSent (updPtpPort_same d p fun q => { q with reqSent := some (txStamp d p g), respAt := none })

/-! ### The commands -/

section
variable {s : State} {p : Nat} (hp : isMac p = true)
include hp

theorem exec_pdelayReq {seq : BitVec 16} {g g2 : Nat} (hg : isGrain g = true) (hg2 : isGrain g2 = true) :
    exec (.pdelayReq p seq g g2) s = whenLiveDev true (pdelayReq p seq g g2) s :=
  congrArg (fun ok => whenLiveDev ok (pdelayReq p seq g g2) s)
    (show (isMac p && isGrain g && isGrain g2) = true by rw [hp, hg, hg2]; rfl)

theorem exec_pdelayReqSend {g : Nat} (hg : isGrain g = true) :
    exec (.pdelayReqSend p g) s = whenLiveDev true (pdelayReqSend p g) s :=
  congrArg (fun ok => whenLiveDev ok (pdelayReqSend p g) s) (show (isMac p && isGrain g) = true by rw [hp, hg]; rfl)

theorem exec_pdelayResp {g : Nat} {t2 : PtpTime} (hg : isGrain g = true) :
    exec (.pdelayResp p g t2) s = whenLiveDev true (pdelayResp p g t2) s :=
  congrArg (fun ok => whenLiveDev ok (pdelayResp p g t2) s) (show (isMac p && isGrain g) = true by rw [hp, hg]; rfl)

theorem exec_pdelayRespFollowUp {t3 : PtpTime} :
    exec (.pdelayRespFollowUp p t3) s = whenLiveDev true (pdelayRespFollowUp p t3) s :=
  congrArg (fun ok => whenLiveDev ok (pdelayRespFollowUp p t3) s) hp

end

/-- Settles O15: each message by its effect on its port, and those that the device sends by the gate of their MAC. -/
theorem peerDelay : Obligations.PeerDelay := by
  intro s p hp hl hn
  refine ⟨fun seq g g2 hg hg2 ho => ?_, fun g hg ho => ?_, fun seq g g2 hg hg2 ho => ⟨?_, ?_⟩, fun g t2 hg hr => ?_,
    fun t1 t2 t3 t4 h1 h2 => ?_⟩
  · exact runs_to hl (exec_pdelayReq hp hg hg2) ((pdelayReq_listens hn seq g g2).trans (orWait_leaves _ _ ho))
      (sameBut_pdelayRespLeaves _ _ _ _ _) (pdelayRespLeaves_sent _ _ _ _ _)
  · exact runs_to hl (exec_pdelayReqSend hp hg) ((pdelayReqSend_listens hn g).trans (orWait_leaves _ _ ho))
      (sameBut_pdelayReqLeaves _ _ _) ⟨pdelayReqLeaves_reqSent _ _ _, rfl, rfl⟩
  · exact runs_waits hl (exec_pdelayReq hp hg hg2) (pdelayReq_listens hn seq g g2) ho
  · exact runs_waits hl (exec_pdelayReqSend hp hg) (pdelayReqSend_listens hn g) ho
  · exact runs_to hl (exec_pdelayResp hp hg) (pdelayResp_taken hn hr) (sameBut_updPtpPort _ _ _) (updPtpPort_same _ _ _)
  · refine runs_to hl (exec_pdelayRespFollowUp hp) (pdelayRespFollowUp_measures hn h1 h2) (sameBut_updPtpPort _ _ _) ?_
    dsimp only
    rw [updPtpPort_same]
    exact ⟨rfl, rfl⟩

end Sys2Proof.Proofs
end

section
/-! O16: what a grandmaster sends, and ALIGN_OK (R37, R53, R360). -/

namespace Sys2Proof.Proofs

open Sys2Proof Sys2Proof.Machine Sys2Proof.Laws

section
variable {d : Dev} {p : Nat}

/-! ### A Sync and an Announce -/

theorem roleManager_of_sendsSync (h : sendsSync d = true) : roleManager d = true := by
  rw [sendsSync, Bool.and_eq_true] at h
  exact h.1

theorem syncSend_sends (g : Nat) (hn : listens d p false = true) (hs : sendsSync d = true) :
    syncSend p g d = orWait p (.sync g) (syncLeaves p g) d := if_pos (by rw [hn, hs]; rfl)

theorem announceSend_sends (hn : listens d p false = true) (hs : sendsSync d = true) :
    announceSend p d = orWait p .announce (announceLeaves p) d := if_pos (by rw [hn, hs]; rfl)

/-- The device after a Sync and its Follow_Up have left. -/
def syncLeft (p g : Nat) (d : Dev) : Dev :=
  { d with
    ptp := { d.ptp with
      sent := d.ptp.sent ++ [.sync p d.ptp.domain d.ptp.seqSync,
        .followUp p d.ptp.domain d.ptp.seqSync (ptpTimeOf (txStamp d p g))]
      seqSync := d.ptp.seqSync + 1 }
    so := { d.so with syncSent := true } }

/-- A grandmaster that sends is a manager, so its first Sync aligns it (R53). -/
theorem syncLeaves_aligns (g : Nat) (h : sendsSync d = true) :
    syncLeaves p g d = { syncLeft p g d with tb := { d.tb with alignOk := true } } := by
  have hleft : syncLeaves p g d = settleAlign (syncLeft p g d) := by
    rw [syncLeft, ← List.singleton_append, ← List.append_assoc]
    rfl
  rw [hleft, settleAlign_syncSent (roleManager_of_sendsSync h : roleManager (syncLeft p g d) = true) rfl]
  rfl

theorem sameBut_syncLeft (p g : Nat) (d : Dev) : SameBut [.ptp, .so] d (syncLeft p g d) :=
  sameBut_mono (sameBut_soPtp d _ _) (by decide)

/-- The priority of a manager's Announce is 100 (R42). -/
theorem rolePriority_manager (h : roleManager d = true) : rolePriority (tbRole d.tb) = 100 := by
  rw [eq_of_beq h]
  rfl

theorem announceLeaves_sent (h : roleManager d = true) :
    (announceLeaves p d).ptp.sent = d.ptp.sent ++ [.announce p d.ptp.domain d.ptp.seqAnnounce 100] := by
  rw [← rolePriority_manager h]
  rfl

/-! ### ALIGN_LOST -/

theorem alignLost_falls (hr : roleManager d = false) (hh : d.so.servo = .holdover) (ha : d.tb.alignOk = true) :
    alignLost d = tbFlag 10 { d with tb := { d.tb with alignOk := false } } := by
  refine if_pos ?_
  rw [hr, hh, ha]
  rfl

end

/-! ### The commands -/

section
variable {s : State} {p : Nat} (hp : isMac p = true)
include hp

theorem exec_syncSend {g : Nat} (hg : isGrain g = true) : exec (.syncSend p g) s = whenLiveDev true (syncSend p g) s :=
  congrArg (fun ok => whenLiveDev ok (syncSend p g) s) (show (isMac p && isGrain g) = true by rw [hp, hg]; rfl)

theorem exec_announceSend : exec (.announceSend p) s = whenLiveDev true (announceSend p) s :=
  congrArg (fun ok => whenLiveDev ok (announceSend p) s) hp

theorem exec_ptpManagement : exec (.ptpManagementMessage p) s = whenLiveDev true (ptpManagement p) s :=
  congrArg (fun ok => whenLiveDev ok (ptpManagement p) s) hp

end

/-- Settles O16: what leaves a grandmaster by the gate of its MAC, and ALIGN_OK by the first Sync and by ALIGN_LOST. -/
theorem grandmasterSendsAndAlignment : Obligations.GrandmasterSendsAndAlignment := by
  intro s hl
  refine ⟨fun p g hp hg hn hs ho => ?_, fun p hp hn hs ho => ?_, fun p g hp hg hn hs ho => ⟨?_, ?_⟩, fun hr hh ha => ?_,
    fun p hp => ?_⟩
  · exact runs_to hl (exec_syncSend hp hg)
      ((syncSend_sends g hn hs).trans ((orWait_leaves _ _ ho).trans (syncLeaves_aligns g hs)))
      (sameBut_then (sameBut_tb _ _) (by decide) (sameBut_mono (sameBut_syncLeft p g _) (by decide))) ⟨rfl, rfl, rfl⟩
  · exact runs_to hl (exec_announceSend hp) ((announceSend_sends hn hs).trans (orWait_leaves _ _ ho))
      (sameBut_announceLeaves p _) ⟨announceLeaves_sent (roleManager_of_sendsSync hs), rfl⟩
  · exact runs_waits hl (exec_syncSend hp hg) (syncSend_sends g hn hs) ho
  · exact runs_waits hl (exec_announceSend hp) (announceSend_sends hn hs) ho
  · exact runs_setsTb_flag hl rfl (alignLost_falls hr hh ha)
  · exact exec_idle (exec_ptpManagement hp) rfl

end Sys2Proof.Proofs
end

section
/-! SUPPORT. Commands of the always-on island and of the pads, which the core's clocks do not gate, and the frames of a change of one
block of the device. -/

namespace Sys2Proof.Proofs

open Sys2Proof Sys2Proof.Machine Sys2Proof.Laws

section
variable {i : Instr} {s : State} {l : List Part} {f g : Dev → Dev} {e : Dev} {P : State → Prop}

/-- A command that acts whether the clocks run or not, and turns the device into `e`. -/
theorem runs_onDevice (hx : exec i s = onDevice true f s) (hf : f s.core.dev = e) (hs : SameBut l s.core.dev e)
    (hp : P { s with core := { s.core with dev := e } }) : Runs i s l P := by
  subst hf
  exact ⟨_, hx, changesOnly_sameBut hs, hp⟩

theorem liveOr_live (h : live s.core.dev = true) : onCore true (liveOr f g) s = onDevice true f s := by
  simp [onCore, onDevice, liveOr, h]

theorem liveOr_stopped (h : live s.core.dev = false) : onCore true (liveOr f g) s = onDevice true g s := by
  simp [onCore, onDevice, liveOr, h]

end

end Sys2Proof.Proofs
end

section
/-! O17: the transitions of a ball and what the sampler makes of them (R60, R62, R202). -/

namespace Sys2Proof.Proofs

open Sys2Proof Sys2Proof.Machine Sys2Proof.Laws

variable {d : Dev} {p : Nat} {lvl : Bool} {g : BitVec 6}

/-! ### The capture held for the sampler -/

theorem notArmed_captured {k : Nat} (h : (d.pin p).lastCap = some k) : notArmed d p = decide (d.tb.tclk < k + 20) := by
  simp [notArmed, h]

theorem notArmed_rearmed (h : ∀ k, (d.pin p).lastCap = some k → k + 20 ≤ d.tb.tclk) : notArmed d p = false := by
  cases hc : (d.pin p).lastCap with
  | none => simp [notArmed, hc]
  | some k => rw [notArmed_captured hc]; simpa using h k hc

theorem captured_armed (h : notArmed d p = false) :
    captured p lvl g d = ⟨lvl, stampAt d g.toNat, g, d.tb.stepGen, false, d.tb.tclk⟩ := by
  simp [captured, h]

/-- A sampler that has not re-armed stamps at the centre of the TCLK. -/
theorem captured_coarse (h : notArmed d p = true) :
    captured p lvl g d = ⟨lvl, stampAt d 32, 32#6, d.tb.stepGen, true, d.tb.tclk⟩ := by
  simp [captured, h]

/-! ### The ball -/

/-- The device after a transition of the ball of TP `p` whose capture is `c`. -/
def ballMoved (p : Nat) (lvl : Bool) (c : PinCand) (d : Dev) : Dev :=
  d.updPin p fun s => { s with ball := lvl, change := if lvl = s.seen then none else some c }

theorem pinTransition_moves (h : (d.pin p).ball ≠ lvl) : pinTransition p lvl g d = ballMoved p lvl (captured p lvl g d) d := if_neg h

theorem pinTransition_still (h : (d.pin p).ball = lvl) : pinTransition p lvl g d = d := if_pos h

theorem ballTransition_pin (h : isPin p = true) : ballTransition p lvl g d = pinTransition p lvl g d :=
  if_pos (of_decide_eq_true h)

theorem ballTransition_trip (i : Nat) : ballTransition (256 + i) lvl g d = tripBall i lvl d := by
  rw [ballTransition, if_neg (by omega), Nat.add_sub_cancel_left]

theorem ballLevel_pin (h : isPin p = true) : ballLevel p lvl d = d.updPin p fun s => { s with ball := lvl, change := none } :=
  if_pos (of_decide_eq_true h)

theorem ballLevel_trip (i : Nat) : ballLevel (256 + i) lvl d = tripBall i lvl d := by
  rw [ballLevel, if_neg (by omega), Nat.add_sub_cancel_left]

/-! ### The sampler at the end of a TCLK -/

/-- The sampler of TP `p` takes the capture `c`. -/
def sampled (p : Nat) (c : PinCand) (d : Dev) : Dev := d.updPin p fun s => { s with
  seen := s.ball, change := none, line := s.line ++ [c], lastCap := if c.coarse then s.lastCap else some d.tb.tclk }

/-- A coarse capture counted, with its flag (R62; log entry 62). -/
def coarseCounted (p : Nat) (d : Dev) : Dev := tdFlag p 6 (d.updDec p fun x => { x with coarsec := incSat x.coarsec })

theorem sampleTclk_still (h : (d.pin p).ball = (d.pin p).seen) : sampleTclk p d = d := if_pos h

theorem sampleTclk_fine {c : PinCand} (h : (d.pin p).ball ≠ (d.pin p).seen) (hc : (d.pin p).change = some c) (hf : c.coarse = false) :
    sampleTclk p d = sampled p c d := by
  simp [sampleTclk, sampled, h, hc, hf]

theorem sampleTclk_coarse {c : PinCand} (h : (d.pin p).ball ≠ (d.pin p).seen) (hc : (d.pin p).change = some c) (hf : c.coarse = true) :
    sampleTclk p d = coarseCounted p (sampled p c d) := by
  simp [sampleTclk, sampled, coarseCounted, h, hc, hf]

theorem coarseCounted_pin (d : Dev) (p q : Nat) : (coarseCounted p d).pin q = d.pin q := rfl

theorem coarseCounted_dec (d : Dev) (p : Nat) : (coarseCounted p d).dec p =
    { d.dec p with coarsec := incSat (d.dec p).coarsec, tdstat := orBit (d.dec p).tdstat 6 } := by
  rw [coarseCounted, tdFlag, updDec_same, updDec_same]

theorem sampled_pin (d : Dev) (p : Nat) (c : PinCand) : (sampled p c d).pin p = { d.pin p with
    seen := (d.pin p).ball, change := none, line := (d.pin p).line ++ [c]
    lastCap := if c.coarse then (d.pin p).lastCap else some d.tb.tclk } := updPin_same d p _

/-- A capture reaches the synchroniser, and is counted if it is coarse. -/
theorem sampleTclk_captures {c : PinCand} (h : (d.pin p).ball ≠ (d.pin p).seen) (hc : (d.pin p).change = some c) :
    (sampleTclk p d).pin p = { d.pin p with
        seen := (d.pin p).ball, change := none, line := (d.pin p).line ++ [c]
        lastCap := if c.coarse then (d.pin p).lastCap else some d.tb.tclk } ∧
      (if c.coarse then
        ((sampleTclk p d).dec p).coarsec = incSat (d.dec p).coarsec ∧ bit ((sampleTclk p d).dec p).tdstat 6 = true
      else (sampleTclk p d).tooth.decs = d.tooth.decs) := by
  cases hf : c.coarse
  · rw [sampleTclk_fine h hc hf, sampled_pin, hf]
    exact ⟨rfl, rfl⟩
  · rw [sampleTclk_coarse h hc hf, coarseCounted_pin, coarseCounted_dec, sampled_pin, hf]
    exact ⟨rfl, rfl, bit_orBit_same _ 6 (by decide)⟩

/-! ### The commands -/

variable {s : State}

theorem exec_pinTransition (h : p < 272) :
    exec (.pinTransition p lvl g) s = onCore true (liveOr (ballTransition p lvl g) (ballLevel p lvl)) s :=
  congrArg (fun ok => onCore ok (liveOr (ballTransition p lvl g) (ballLevel p lvl)) s) (decide_eq_true h)

theorem exec_pinTransition_live (h : isPin p = true) (hl : live s.core.dev = true) :
    exec (.pinTransition p lvl g) s = onDevice true (pinTransition p lvl g) s := by
  have hp : p < 256 := of_decide_eq_true h
  rw [exec_pinTransition (by omega), liveOr_live hl]
  exact congrArg (fun f => onDevice true f s) (funext fun _ => ballTransition_pin h)

/-- A transition while the clocks run is held for the sampler as `c`. -/
theorem pinTransition_runs {c : PinCand} (h : isPin p = true) (hl : live s.core.dev = true) (hb : (s.core.dev.pin p).ball ≠ lvl)
    (hc : captured p lvl g s.core.dev = c) :
    Runs (.pinTransition p lvl g) s [.tooth] fun t =>
      t.core.dev.pin p = { s.core.dev.pin p with ball := lvl, change := if lvl = (s.core.dev.pin p).seen then none else some c } ∧
      t.core.dev.tooth.decs = s.core.dev.tooth.decs ∧ ∀ q, q ≠ p → t.core.dev.pin q = s.core.dev.pin q := by
  refine runs_onDevice (exec_pinTransition_live h hl) (pinTransition_moves hb) (sameBut_updPin _ p _) ⟨?_, rfl, fun q hq => ?_⟩
  · rw [hc]; exact updPin_same _ p _
  · exact updPin_other _ p q _ hq

/-- Whether the clocks run or not, a trip input's ball takes its level. -/
theorem tripTransition_exec {i : Nat} (h : i < 16) : exec (.pinTransition (256 + i) lvl g) s = onDevice true (tripBall i lvl) s := by
  have hon := congrArg (fun f => onDevice true f s) (funext fun d => ballTransition_trip (d := d) (lvl := lvl) (g := g) i)
  have hoff := congrArg (fun f => onDevice true f s) (funext fun d => ballLevel_trip (d := d) (lvl := lvl) i)
  rw [exec_pinTransition (by omega)]
  cases hl : live s.core.dev
  · exact (liveOr_stopped hl).trans hoff
  · exact (liveOr_live hl).trans hon

/-- Settles O17: a ball by its level and by whether its sampler has re-armed, the sampler by whether its capture is coarse. -/
theorem pinTransitions : Obligations.PinTransitions := by
  refine ⟨fun s p lvl g hp => ⟨fun hl hb hk => ?_, fun k hl hb hk hlt => ?_, fun hl => ?_, fun hl hb => ?_⟩, fun s i lvl g hi => ?_,
    fun d p => ⟨sampleTclk_still, fun c => sampleTclk_captures⟩⟩
  · exact pinTransition_runs hp hl hb (captured_armed (notArmed_rearmed hk))
  · exact pinTransition_runs hp hl hb (captured_coarse (by simpa [notArmed_captured hk] using hlt))
  · have hp' : p < 256 := of_decide_eq_true hp
    refine runs_onDevice ((exec_pinTransition (by omega)).trans (liveOr_stopped hl)) (ballLevel_pin hp) (sameBut_updPin _ p _) ⟨?_, rfl⟩
    exact updPin_same _ p _
  · rw [exec_pinTransition_live hp hl]
    simp [onDevice, onCore, Core.mapDev, pinTransition_still hb]
  · refine runs_onDevice (tripTransition_exec hi) rfl (sameBut_updTrip _ i _) ⟨?_, rfl, fun j hj => ?_⟩
    · exact updTrip_same _ i _
    · exact updTrip_other _ i j _ hj

end Sys2Proof.Proofs
end

section
/-! SUPPORT. Frames of a tooth on the track of its axis (R96–R108): axes, chases and, by an event, the interrupts. -/

namespace Sys2Proof.Proofs

open Sys2Proof Sys2Proof.Machine Sys2Proof.Laws

variable (a : Nat) (attr : W32) (upd : Bool) (s p : Time64) (d : Dev)

theorem sameBut_axisLoss (f : Axis → Axis) : SameBut lossParts d (d.updAxis a f) := sameBut_mono (sameBut_updAxis d a f) (by decide)

theorem sameBut_axFlagLoss (b : Nat) : SameBut lossParts d (axFlag a b d) := sameBut_mono (sameBut_axFlag a b d) (by decide)

theorem sameBut_enterSearch : SameBut lossParts d (enterSearch a d) :=
  sameBut_then (sameBut_disturb _ _ _) (by decide) (sameBut_axisLoss a d _)

theorem sameBut_noteUpdate (sg : BitVec 2) (ok inWin : Bool) : SameBut lossParts d (noteUpdate a upd s sg ok inWin d) :=
  sameBut_ite (fun _ => sameBut_axisLoss a d _) fun _ => sameBut_refl _ d

theorem sameBut_checkReference (was : Sync) : SameBut lossParts d (checkReference was a attr s p d) := by
  unfold checkReference
  dsimp only
  split
  · exact sameBut_refl _ d
  · refine sameBut_ite (fun _ => sameBut_refl _ d) fun _ => ?_
    split
    · exact sameBut_enterSearch a d
    · exact sameBut_trans (sameBut_axisLoss a d _) (sameBut_axFlagLoss a _ _)
    · exact sameBut_trans (sameBut_axisLoss a d _) (sameBut_axFlagLoss a _ _)
    · exact sameBut_refl _ d

theorem sameBut_afterTooth (was : Sync) (inWin : Bool) : SameBut lossParts d (afterTooth was a attr upd s p inWin d) :=
  sameBut_trans (sameBut_trans (sameBut_axisLoss a d _) (sameBut_checkReference a attr s p _ was)) (sameBut_noteUpdate a upd s _ _ _ _)

theorem sameBut_reversal : SameBut lossParts d (reversal a attr s d) :=
  sameBut_then (sameBut_disturb _ _ _) (by decide) (sameBut_trans (sameBut_axisLoss a d _) (sameBut_axFlagLoss a _ _))

theorem sameBut_startTrack (c : Int) : SameBut lossParts d (startTrack a c attr upd s d) :=
  sameBut_trans (sameBut_axisLoss a d _) (sameBut_noteUpdate a upd s _ _ _ _)

theorem sameBut_searchTooth : SameBut lossParts d (searchTooth a attr upd s d) := by
  have h2 := fun f g => sameBut_trans (sameBut_axisLoss a d f) (sameBut_axisLoss a (d.updAxis a f) g)
  unfold searchTooth
  dsimp only
  split
  · exact sameBut_startTrack a attr upd s d 0
  · exact sameBut_refl _ d
  · refine sameBut_ite (fun _ => sameBut_ite (fun _ => sameBut_axisLoss a d _) fun _ => ?_) fun _ => ?_
    · split
      · exact h2 _ _
      · refine sameBut_ite (fun _ => h2 _ _) fun _ => sameBut_ite (fun _ => ?_) fun _ => ?_
        · exact sameBut_trans (h2 _ _) (sameBut_startTrack a attr upd s _ 0)
        · exact sameBut_trans (h2 _ _) (sameBut_axFlagLoss a _ _)
    · split
      · exact sameBut_startTrack a attr upd s d _
      · exact sameBut_refl _ d

theorem sameBut_absorb : SameBut lossParts d (absorb a attr upd s d) :=
  sameBut_trans (sameBut_trans (sameBut_trans (sameBut_axisLoss a d _) (sameBut_axFlagLoss a _ _)) (sameBut_checkReference a attr _ _ _ _))
    (sameBut_noteUpdate a upd s _ _ _ _)

theorem sameBut_acceptAt (ghost : Bool) : SameBut lossParts d (acceptAt a s ghost d) := sameBut_axisLoss a d _

theorem sameBut_runningTooth : SameBut lossParts d (runningTooth a attr upd s d) := by
  refine sameBut_ite (fun _ => ?_) fun _ => sameBut_ite (fun _ => sameBut_absorb a attr upd s d) fun _ => sameBut_ite (fun _ => ?_) fun _ => ?_
  · exact sameBut_trans (sameBut_reversal a attr s d) (sameBut_afterTooth a attr upd s _ _ _ _)
  · exact sameBut_trans (sameBut_trans (sameBut_axisLoss a d _) (sameBut_axFlagLoss a _ _)) (sameBut_noteUpdate a upd s _ _ _ _)
  · refine sameBut_trans (sameBut_ite (fun _ => ?_) fun _ => sameBut_acceptAt a s d false) (sameBut_afterTooth a attr upd s _ _ _ _)
    exact sameBut_trans (sameBut_acceptAt a s d false) (sameBut_axisLoss a _ _)

/-- A tooth leaves the decoders as it found them. -/
theorem sameBut_trackTooth : SameBut lossParts d (trackTooth a s attr upd d) := by
  unfold trackTooth
  dsimp only
  refine sameBut_ite (fun _ => sameBut_refl _ d) fun _ => ?_
  split
  · exact sameBut_searchTooth a attr upd _ d
  · exact sameBut_ite (fun _ => sameBut_enterSearch a d) fun _ => sameBut_refl _ d
  · exact sameBut_runningTooth a attr upd _ d
  · exact sameBut_runningTooth a attr upd _ d
  · exact sameBut_ite (fun _ => sameBut_axisLoss a d _) fun _ => sameBut_runningTooth a attr upd _ d

end Sys2Proof.Proofs
end

section
/-! O18: from an accepted edge to a tooth (R63, R65, R70, R81–R83). -/

namespace Sys2Proof.Proofs

open Sys2Proof Sys2Proof.Machine Sys2Proof.Laws

variable {d : Dev} {n : Nat} {e : PinPass}

/-! ### The filter's acceptance (R63) -/

theorem edgeAccepted_none (h : (d.pin n).cand = none) : edgeAccepted n d = d := by
  simp [edgeAccepted, h]

theorem edgeAccepted_some {c : PinCand} (h : (d.pin n).cand = some c) :
    edgeAccepted n d = d.updPin n fun s => { s with
      level := c.level, cand := none, pipe := s.pipe ++ [{ edge := c, acc := d.tb.tclk, to_ := c.level }] } := by
  simp [edgeAccepted, h]

theorem exec_edgeAccepted {s : State} (h : isPin n = true) : exec (.edgeAccepted n) s = whenLiveDev true (edgeAccepted n) s :=
  congrArg (fun ok => whenLiveDev ok (edgeAccepted n) s) h

/-! ### The decoder stage (R65, R70) -/

theorem decoderStage_waits (hm : decMode (d.dec n) = 0) (he : decoderEdge d n n = some e) (hp : e.passed = false) :
    decoderStage n d = d := by
  simp [decoderStage, quadMode, hm, he, hp]

theorem decoderStage_forms (ho : (d.dec n).on = true) (hm : decMode (d.dec n) = 0) (he : decoderEdge d n n = some e)
    (hp : e.passed = true) : decoderStage n d =
      formTooth n e.edge.stamp e.edge.sg e.edge.coarse (singleDir (d.dec n) e.partner) d := by
  simp [decoderStage, quadMode, ho, hm, he, hp]

/-! ### The tooth (R81–R83) -/

/-- What a decoder keeps of a tooth: its stamp and the ring entry that shows it. -/
def ToothKept (c c' : Decoder) (stamp : Time64) (rev : Bool) : Prop :=
  c'.lstamp = stamp ∧ c'.pos = (if rev then c.pos - 1 else c.pos + 1) ∧
  (Bank.get {} c'.ring (c.total.toNat % 16)).stamp = stamp ∧ c'.total = c.total ∧ c'.adv.isSome = true

/-- The decoder forms a tooth, outside the TCLK of a CLR, before the track of its axis takes it. -/
theorem formTooth_reachesTrack (stamp : Time64) (sg : BitVec 2) (coarse rev : Bool) (h : clearedNow d n = false) :
    ∃ a attr upd d2, formTooth n stamp sg coarse rev d = trackTooth a stamp attr upd d2 ∧
      ToothKept (d.dec n) (d2.dec n) stamp rev ∧ ∀ m, m ≠ n → d2.dec m = d.dec m := by
  have htrk : ∀ (b : Bool) (f : DecTrack → DecTrack) m, (if b then d.updDecTrk n f else d).dec m = d.dec m := fun b f m => by
    cases b <;> rfl
  refine ⟨_, _, _, _, rfl, ?_, fun m hm => ?_⟩
  · rw [updDec_same, htrk, h]
    exact ⟨rfl, rfl, congrArg RingEntry.stamp (bank_get_set_same ..), rfl, rfl⟩
  · rw [updDec_other _ _ _ _ hm, htrk]

/-- A tooth is kept by its decoder, and no other decoder changes. -/
theorem formTooth_kept (stamp : Time64) (sg : BitVec 2) (coarse rev : Bool) (h : clearedNow d n = false) :
    ToothKept (d.dec n) ((formTooth n stamp sg coarse rev d).dec n) stamp rev ∧
      ∀ m, m ≠ n → (formTooth n stamp sg coarse rev d).dec m = d.dec m := by
  obtain ⟨a, attr, upd, d2, hform, hkept, hother⟩ := formTooth_reachesTrack stamp sg coarse rev h
  have hdec := kept_dec (sameBut_trackTooth a attr upd stamp d2) (by decide)
  rw [hform, hdec]
  exact ⟨hkept, fun m hm => (hdec m).trans (hother m hm)⟩

/-- TOTAL follows the tooth one TCLK later (R65). -/
theorem advanceTotal_adds (h : (d.dec n).adv.isSome = true) : ((advanceTotal n d).dec n).total = (d.dec n).total + 1 := by
  obtain ⟨t, ht⟩ := Option.isSome_iff_exists.mp h
  simp [advanceTotal, ht]

/-- Settles O18: an edge by whether one waits in the filter, a tooth by whether the prescaler has passed the edge. -/
theorem edgesFormTeeth : Obligations.EdgesFormTeeth := by
  refine ⟨fun s p hp hl => ⟨fun h => exec_idle (exec_edgeAccepted hp) (edgeAccepted_none h), fun c h => ?_⟩,
    fun d n e ho hm hc he => ⟨decoderStage_waits hm he, fun hp => ?_⟩⟩
  · refine runs_to hl (exec_edgeAccepted hp) (edgeAccepted_some h) (sameBut_updPin _ p _) ⟨?_, rfl, fun q hq => ?_⟩
    · exact updPin_same _ p _
    · exact updPin_other _ p q _ hq
  · obtain ⟨⟨hstamp, hpos, hring, htotal, hadv⟩, hother⟩ :=
      formTooth_kept e.edge.stamp e.edge.sg e.edge.coarse (singleDir (d.dec n) e.partner) hc
    rw [decoderStage_forms ho hm he hp]
    exact ⟨hstamp, hpos, hring, htotal, (advanceTotal_adds hadv).trans (by rw [htotal]), hother⟩

end Sys2Proof.Proofs
end

section
/-! O19: the configuration of a pin (R63, R64). -/

namespace Sys2Proof.Proofs

open Sys2Proof Sys2Proof.Machine Sys2Proof.Laws

variable {d : Dev} {p : Nat} {v : W32}

theorem pinWrite_stored (h : fld v 8 2 ≠ 3) : pinWrite p v d = d.updPin p fun s => { s with pin := v &&& 0x7FF#32 } := by
  simp [pinWrite, h]

/-- EDGE 11b leaves EDGE as it was, with CFG_ERR. -/
theorem pinWrite_reservedEdge (h : fld v 8 2 = 3) : pinWrite p v d =
    tdFlag p 2 (d.updPin p fun s => { s with pin := setFld (v &&& 0x7FF#32) 8 2 (fld s.pin 8 2) }) := by
  simp [pinWrite, h]

theorem tdFlag_pin (d : Dev) (n b q : Nat) : (tdFlag n b d).pin q = d.pin q := rfl

theorem exec_pinWrite {s : State} (h : isPin p = true) : exec (.pinWrite p v) s = whenLiveDev true (pinWrite p v) s :=
  congrArg (fun ok => whenLiveDev ok (pinWrite p v) s) h

/-! ### The register in force (R63) -/

variable {x : PinStage}

theorem landPin_sameInv (h : bit x.pin 10 = bit x.pinNow 10) : (landPin x).level = x.level ∧ (landPin x).cand = x.cand := by
  simp [landPin, h]

/-- A change of INV inverts the accepted level and the level under judgement. -/
theorem landPin_newInv (h : bit x.pin 10 ≠ bit x.pinNow 10) : (landPin x).level = !x.level ∧
    ∀ c, x.cand = some c → (landPin x).cand = some { c with level := !c.level } := by
  have hflip : (bit x.pin 10 != bit x.pinNow 10) = true := bne_iff_ne.mpr h
  exact ⟨by simp [landPin, hflip], fun c hc => by simp [landPin, hflip, hc]⟩

/-- Settles O19: a write by whether its EDGE is reserved, the next TCLK by whether INV has changed. -/
theorem pinConfiguration : Obligations.PinConfiguration := by
  refine ⟨fun s p v hp hl => ⟨fun h => ?_, fun h => ?_⟩, fun x => ⟨rfl, rfl, List.length_map _, landPin_sameInv, landPin_newInv⟩⟩
  · refine runs_to hl (exec_pinWrite hp) (pinWrite_stored h) (sameBut_updPin _ p _) ⟨?_, rfl, fun q hq => ?_⟩
    · exact updPin_same _ p _
    · exact updPin_other _ p q _ hq
  · refine runs_to hl (exec_pinWrite hp) (pinWrite_reservedEdge h)
      (sameBut_trans (sameBut_updPin _ p _) (sameBut_updDec _ p _)) ⟨?_, ?_, fun q hq => ⟨?_, ?_⟩⟩
    · exact (tdFlag_pin _ p 2 p).trans (updPin_same _ p _)
    · exact updDec_same _ p _
    · exact (tdFlag_pin _ p 2 q).trans (updPin_other _ p q _ hq)
    · exact updDec_other _ p q _ hq

end Sys2Proof.Proofs
end

section
/-! O21: the always-on counters (R88, R90). -/

namespace Sys2Proof.Proofs

open Sys2Proof Sys2Proof.Machine Sys2Proof.Laws

variable {d : Dev} {k : Nat}

/-! ### A transition, case by case -/

theorem aoqTransition_off (b near : Bool) (h : bit (d.aoq k).ctl 0 = false) :
    aoqTransition k b false near d = d.updAoq k fun q => { q with ab := q.ab ^^^ (if b then 1#2 else 2#2) } := by
  simp [aoqTransition, h]

theorem aoqTransition_illegal (b near : Bool) (h : bit (d.aoq k).ctl 0 = true) :
    aoqTransition k b true near d = d.updAoq k fun q => aoqErr { q with ab := q.ab ^^^ 3#2 } := by
  simp [aoqTransition, h]

/-- The counter next to a preset: a free value within one of the preset (R90). -/
def nearPresetCounter (k : Nat) (b : Bool) (w : W64) (d : Dev) : Dev :=
  d.updAoq k fun q => { q with
    ab := (d.aoq k).ab ^^^ (if b then 1#2 else 2#2), ctl := orBit q.ctl 3, cnt := q.pre + BitVec.ofNat 32 (w.toNat % 3) - 1 }

theorem aoqTransition_nearPreset (b : Bool) (h : bit (d.aoq k).ctl 0 = true) :
    aoqTransition k b false true d = nearPresetCounter k b d.draw.1 d.draw.2 := by
  unfold aoqTransition
  rw [if_neg (by rw [h]; decide), if_neg (by decide), if_pos rfl]
  rfl

/-- A from 00b is a step forward, and B one back, while SWAP is 0 (R71, R88). -/
theorem aoqTransition_fromLow (b : Bool) (h : bit (d.aoq k).ctl 0 = true) (hs : bit (d.aoq k).ctl 1 = false) (h0 : (d.aoq k).ab = 0#2) :
    aoqTransition k b false false d = d.updAoq k fun q => { q with
      ab := if b then 1#2 else 2#2, cnt := if b then q.cnt - 1 else q.cnt + 1 } := by
  cases b <;> simp [aoqTransition, h, hs, h0, quadTooth, quadIndex]

theorem preset_within_one (pre : W32) (r : Nat) :
    pre + BitVec.ofNat 32 (r % 3) - 1 = pre - 1 ∨ pre + BitVec.ofNat 32 (r % 3) - 1 = pre ∨
      pre + BitVec.ofNat 32 (r % 3) - 1 = pre + 1 := by
  have hr : r % 3 = 0 ∨ r % 3 = 1 ∨ r % 3 = 2 := by omega
  rcases hr with h | h | h
  · left; rw [h]; bv_omega
  · right; left; rw [h]; bv_omega
  · right; right; rw [h]; bv_omega

/-! ### The commands -/

variable {s : State}

theorem exec_aoqTransition (b illegal near : Bool) (h : k < 4) :
    exec (.aoqTransition k b illegal near) s = onDevice true (aoqTransition k b illegal near) s :=
  congrArg (fun ok => onDevice ok (aoqTransition k b illegal near) s) (decide_eq_true h)

theorem exec_preset (h : k < 4) : exec (.preset k) s = whenLiveDev true (aoqPreset k) s :=
  congrArg (fun ok => whenLiveDev ok (aoqPreset k) s) (decide_eq_true h)

/-- Settles O21: a transition by EN, by whether it is illegal and by whether a preset is near. -/
theorem alwaysOnCounters : Obligations.AlwaysOnCounters := by
  intro s k hk
  have hrun := fun b illegal near => exec_aoqTransition (s := s) b illegal near hk
  refine ⟨fun b near h => ?_, fun h hs h0 => ⟨?_, ?_⟩, fun b near h => ?_, fun b h => ?_, fun hl => ?_⟩
  · refine runs_onDevice (hrun ..) (aoqTransition_off b near h) (sameBut_updAoq _ k _) ⟨?_, ?_, ?_⟩ <;> simp
  · refine runs_onDevice (hrun ..) (aoqTransition_fromLow false h hs h0) (sameBut_updAoq _ k _) (updAoq_same _ k _)
  · refine runs_onDevice (hrun ..) (aoqTransition_fromLow true h hs h0) (sameBut_updAoq _ k _) (updAoq_same _ k _)
  · refine runs_onDevice (hrun ..) (aoqTransition_illegal b near h) (sameBut_updAoq _ k _) ?_
    dsimp only
    rw [updAoq_same]
    exact ⟨rfl, rfl, (bit_setFld_other _ 8 8 _ 3 (by decide)).trans (bit_orBit_same _ 3 (by decide))⟩
  · refine runs_onDevice (hrun ..) (aoqTransition_nearPreset b h)
      (sameBut_then (sameBut_updAoq _ k _) (by decide) (sameBut_mono (sameBut_draw _) (by decide))) ?_
    dsimp only
    rw [nearPresetCounter, updAoq_same]
    exact ⟨bit_orBit_same _ 3 (by decide), preset_within_one _ _⟩
  · refine runs_to hl (exec_preset hk) rfl (sameBut_updAoq _ k _) ?_
    dsimp only
    rw [aoqPreset, updAoq_same]
    refine ⟨rfl, ?_, fld_setFld_same _ 8 8 0 (by decide), rfl, fun m hm => updAoq_other _ k m _ hm⟩
    exact (bit_setFld_other _ 8 8 _ 4 (by decide)).trans (bit_orBit_same _ 4 (by decide))

end Sys2Proof.Proofs
end

section
/-! O22: reads that have an effect (R85, R223, R228, R243, R298, R303). -/

namespace Sys2Proof.Proofs

open Sys2Proof Sys2Proof.Machine Sys2Proof.Laws

/-! ### Frames of a change of one block -/

theorem sameBut_ic (d : Dev) (x : IntCtl) : SameBut [.ic] d { d with ic := x } := by
  intro v b hb
  cases b
  case ic => simp at hb
  all_goals rfl

/-! ### The two kinds of a read of a word (R418, R429) -/

section
variable {c : Core} {p a : Nat}

theorem isBar0_aligned (h : isBar0 a = true) : a % 2 ^ 26 / 4 * 4 = a := by
  simp only [isBar0, Bool.and_eq_true, decide_eq_true_eq] at h
  omega

/-- The words that a lowest word latches, as they read now. -/
def latchWords (c : Core) (p : Nat) (l : List Nat) : List (Nat × W32) := l.map fun b => (b, linkedValue c p b)

/-- A read of a lowest word latches its linked words. -/
theorem fabricRead_low {l : List Nat} (ha : isBar0 a = true) (hc : isCaps a = false) (hl : linkedWords c.dev a = some l) :
    fabricRead p a c = (regPeek c p a, c.mapDev fun d => readEffect a (setLatch p (latchWords c p l) d)) := by
  unfold fabricRead
  dsimp only
  rw [isBar0_aligned ha, hc, if_neg (by decide), hl]
  rfl

/-- A read of a word that stands alone, through a port with nothing latched. -/
theorem fabricRead_alone (ha : isBar0 a = true) (hc : isCaps a = false) (hl : linkedWords c.dev a = none)
    (hu : upperWord c.dev a = none) (hlatch : (c.dev.path p).latch = []) :
    fabricRead p a c = (regPeek c p a, c.mapDev (readEffect a)) := by
  unfold fabricRead
  dsimp only
  rw [isBar0_aligned ha, hc, if_neg (by decide), hl]
  simp [highRead, latched, hlatch, Core.mapDev, hu]

end

/-- A command that reads BAR0 word `a` through an open port, finds `v` there and turns the device into `e`. -/
theorem runs_reads {i : Instr} {s : State} {l : List Part} {P : State → Prop} {p a : Nat} {v : W32} {f : Dev → Dev}
    {e : Dev} (hp : isPath p = true) (ho : PortOpen p s.core.dev)
    (hx : exec i s = onCore (Instr.wf i) (viaPort p (busRead p a)) s) (hw : Instr.wf i = true)
    (hr : fabricRead p a s.core = (v, s.core.mapDev f)) (he : f s.core.dev = e) (hf : SameBut l s.core.dev e)
    (hl : Part.hi ∈ l) (hP : P { s with core := { s.core with dev := putData p v e } }) : Runs i s l P := by
  subst he
  exact runs_read hp ho (by rw [hx, hw]) hr rfl hf hl hP

/-! ### Words of a channel's window -/

section
variable {c : Core} {p n : Nat}

theorem isBar0_ch {o : Nat} (hn : n < 512) (ho : o < 256) (h4 : o % 4 = 0) : isBar0 (baseCh n + o) = true := by
  have hlt : 0x100000 + n * 256 + o < 67108864 := by omega
  have hal : (0x100000 + n * 256 + o) % 4 = 0 := by omega
  simp [isBar0, baseCh, hlt, hal]

theorem isCaps_ch {o : Nat} (hn : n < 512) (ho : o < 256) (h : o ≠ 0x4C) : isCaps (baseCh n + o) = false := by
  unfold isCaps
  rw [locate_ch n o hn ho]
  split
  · rename_i heq
    cases heq
    exact absurd rfl h
  · rfl

theorem regPeek_ch (o : Nat) (hn : n < 512) (ho : o < 256) : regPeek c p (baseCh n + o) = peekCh c.dev n o := by
  unfold regPeek
  rw [locate_ch n o hn ho]

/-- A linked word is latched as it reads, but for the parts of CAPS. -/
theorem linkedValue_ch (o : Nat) (hn : n < 512) (ho : o < 256) (h1 : o ≠ 0x4E) (h2 : o ≠ 0x4F) :
    linkedValue c p (baseCh n + o) = peekCh c.dev n o := by
  unfold linkedValue
  rw [locate_ch n o hn ho]
  dsimp only
  rw [if_neg h1, if_neg h2, regPeek_ch o hn ho]

theorem linkedWords_ustamp (hn : n < 256) : linkedWords c.dev (baseCh n + 0xD8) =
    some [baseCh n + 0xDC, baseCh n + 0xE0, baseCh n + 0xC8, baseCh n + 0xCC] := by
  unfold linkedWords
  rw [locate_ch n 0xD8 (by omega) (by decide)]
  simp [isRemote, hn]

theorem linkedWords_cap0 (hn : n < 512) : linkedWords c.dev (baseCh n + 0x50) =
    some [baseCh n + 0x58, baseCh n + 0x5C, baseCh n + 0x4E] := by
  unfold linkedWords
  rw [locate_ch n 0x50 hn (by decide)]
  rfl

theorem linkedWords_chain {a : Nat} (hn : n < 512) (hs : isStage c.dev n = false) (ha : stagesAbove c.dev n = [a]) :
    linkedWords c.dev (baseCh n + 0x18) = some [baseCh a + 0x18] := by
  unfold linkedWords
  rw [locate_ch n 0x18 hn (by decide)]
  simp [hs, ha]

theorem readEffect_chNone {o : Nat} (d : Dev) (hn : n < 512) (ho : o < 256) (h1 : o ≠ 0x50) (h2 : o ≠ 0x54) :
    readEffect (baseCh n + o) d = d := by
  unfold readEffect
  rw [locate_ch n o hn ho]
  dsimp only
  rw [if_neg h1, if_neg h2]

theorem readEffect_cap0 (d : Dev) (hn : n < 512) : readEffect (baseCh n + 0x50) d = (captureRead n false d).2 := by
  unfold readEffect
  rw [locate_ch n 0x50 hn (by decide)]
  rfl

theorem peekCh_dec {d : Dev} {o : Nat} (hn : n < 256) (h : 0x80 ≤ o) : peekCh d n o = peekDec d n o := by
  unfold peekCh
  dsimp only
  split <;> first | omega | simp [isRemote, hn, h]

/-- A word of the decoder is latched as it reads. -/
theorem linkedValue_dec {o : Nat} (hn : n < 256) (h : 0x80 ≤ o) (ho : o < 256) :
    linkedValue c p (baseCh n + o) = peekDec c.dev n o := by
  rw [linkedValue_ch o (by omega) ho (by omega) (by omega), peekCh_dec hn h]

/-- USTAMP_LO: the update latch with what the port latches behind it (R85). -/
theorem fabricRead_ustamp (hn : n < 256) : fabricRead p (baseCh n + 0xD8) c = (loWord (c.dev.dec n).ustamp,
    c.mapDev (setLatch p [(baseCh n + 0xDC, hiWord (c.dev.dec n).ustamp), (baseCh n + 0xE0, (c.dev.dec n).uattr),
      (baseCh n + 0xC8, (c.dev.dec n).total), (baseCh n + 0xCC, (c.dev.dec n).pos)])) := by
  have hn' : n < 512 := by omega
  have hval := fun o => linkedValue_dec (c := c) (p := p) (o := o) hn
  rw [fabricRead_low (isBar0_ch hn' (by decide) rfl) (isCaps_ch hn' (by decide) (by decide)) (linkedWords_ustamp hn),
    regPeek_ch _ hn' (by decide), peekCh_dec hn (by decide)]
  simp only [latchWords, List.map, readEffect_chNone _ hn' (show 0xD8 < 256 by decide) (by decide) (by decide)]
  rw [hval 0xDC (by decide) (by decide), hval 0xE0 (by decide) (by decide), hval 0xC8 (by decide) (by decide),
    hval 0xCC (by decide) (by decide)]
  rfl

/-- CAP0: the count captured, and its FULL bit cleared (R228). -/
theorem fabricRead_cap0 (hn : n < 512) : fabricRead p (baseCh n + 0x50) c = ((c.dev.chCap n).cap0,
    c.mapDev fun d => (captureRead n false
      (setLatch p (latchWords c p [baseCh n + 0x58, baseCh n + 0x5C, baseCh n + 0x4E]) d)).2) := by
  rw [fabricRead_low (isBar0_ch hn (by decide) rfl) (isCaps_ch hn (by decide) (by decide)) (linkedWords_cap0 hn),
    regPeek_ch _ hn (by decide)]
  simp only [readEffect_cap0 _ hn]
  rfl

/-- CNT of a chain's lowest stage latches that of the stage above (R223). -/
theorem fabricRead_chain {a : Nat} (hn : n < 512) (hs : isStage c.dev n = false) (ha : stagesAbove c.dev n = [a]) (ha' : a < 512) :
    fabricRead p (baseCh n + 0x18) c =
      ((c.dev.chCnt n).cnt, c.mapDev (setLatch p [(baseCh a + 0x18, (c.dev.chCnt a).cnt)])) := by
  rw [fabricRead_low (isBar0_ch hn (by decide) rfl) (isCaps_ch hn (by decide) (by decide)) (linkedWords_chain hn hs ha),
    regPeek_ch _ hn (by decide)]
  simp only [latchWords, List.map, readEffect_chNone _ hn (show 0x18 < 256 by decide) (by decide) (by decide)]
  rw [linkedValue_ch _ ha' (by decide) (by decide) (by decide)]
  rfl

end

/-! ### RXD of a compositor (R243) -/

theorem fabricRead_rxd {c : Core} {p k : Nat} (hk : k < 64) (hlatch : (c.dev.path p).latch = []) (hr : (c.dev.comp k).rxWas = none) :
    fabricRead p (baseCp k + 0x18) c =
      ((c.dev.comp k).r.rxd, c.mapDev fun d => d.updComp k fun x => { x with r := { x.r with rxf := false } }) := by
  have hloc := locate_cp k 0x18 hk (by decide)
  have hbar : isBar0 (baseCp k + 0x18) = true := by
    have hlt : 0x28000 + k * 512 + 0x18 < 67108864 := by omega
    have hal : (0x28000 + k * 512 + 0x18) % 4 = 0 := by omega
    simp [isBar0, baseCp, hlt, hal]
  rw [fabricRead_alone hbar (by simp [isCaps, hloc]) (by simp [linkedWords, hloc]) (by simp [upperWord, hloc]) hlatch]
  simp [regPeek, hloc, peekCp, Core.mapDev, readEffect, rxdRead, hr]

/-! ### The words of the interrupt controller (R298, R303) -/

section
variable {c : Core} {p a o : Nat}

theorem isBar0_ic (ha : a = 0x10000 + o) (ho : o < 0x2000) (h4 : o % 4 = 0) : isBar0 a = true := by
  have hlt : a < 67108864 := by omega
  have hal : a % 4 = 0 := by omega
  simp [isBar0, hlt, hal]

theorem locate_icAt (ha : a = 0x10000 + o) (ho : o < 0x2000) : locate a = some (.ic, 0, o) := ha ▸ locate_ic o ho

/-- A word of the interrupt controller other than the first of AXW stands alone. -/
theorem fabricRead_ic (ha : a = 0x10000 + o) (ho : o < 0x600) (h4 : o % 4 = 0) (hlatch : (c.dev.path p).latch = []) :
    fabricRead p a c = (peekIc c.dev o, c.mapDev (readEffect a)) := by
  have hloc := locate_icAt ha (by omega)
  have hlow : ¬(0x600 ≤ o ∧ o < 0x800 ∧ o % 8 = 0) := by omega
  have hup : ¬(0x600 ≤ o ∧ o < 0x800 ∧ o % 8 = 4) := by omega
  rw [fabricRead_alone (isBar0_ic ha (by omega) h4) (by simp [isCaps, hloc]) (by simp [linkedWords, hloc, hlow])
    (by simp [upperWord, hloc, hup]) hlatch]
  simp [regPeek, hloc]

end

section
variable {c : Core} {p k g : Nat}

theorem peekIc_claim {d : Dev} (hk : k < 32) : peekIc d (0x100 + 4 * k) = (icClaim k d).1 := by
  unfold peekIc
  dsimp only
  rw [if_neg (by omega), if_neg (by omega), if_pos (by omega), show (0x100 + 4 * k - 0x100) / 4 = k by omega]

theorem peekIc_chw {d : Dev} (hg : g < 64) : peekIc d (0x500 + 4 * g) = Bank.get 0 d.ic.chw g := by
  unfold peekIc
  dsimp only
  iterate 8 rw [if_neg (by omega)]
  rw [if_pos (by omega), show (0x500 + 4 * g - 0x500) / 4 = g by omega]

theorem peekIc_axwLo {d : Dev} (hg : g < 64) : peekIc d (0x600 + 8 * g) = loWord (Bank.get 0 d.ic.axw g) := by
  unfold peekIc
  dsimp only
  iterate 9 rw [if_neg (by omega)]
  rw [if_pos (by omega), if_pos (by omega), show (0x600 + 8 * g - 0x600) / 8 = g by omega]

theorem peekIc_axwHi {d : Dev} (hg : g < 64) : peekIc d (0x604 + 8 * g) = hiWord (Bank.get 0 d.ic.axw g) := by
  unfold peekIc
  dsimp only
  iterate 9 rw [if_neg (by omega)]
  rw [if_pos (by omega), if_neg (by omega), show (0x604 + 8 * g - 0x600) / 8 = g by omega]

theorem readEffect_claim (d : Dev) (hk : k < 32) : readEffect (0x10100 + 4 * k) d = (icClaim k d).2 := by
  unfold readEffect
  rw [locate_icAt (show 0x10100 + 4 * k = 0x10000 + (0x100 + 4 * k) by omega) (by omega)]
  dsimp only
  rw [if_pos (by omega), show (0x100 + 4 * k - 0x100) / 4 = k by omega]

theorem readEffect_chw (d : Dev) (hg : g < 64) : readEffect (0x10500 + 4 * g) d = (icChwRead g d).2 := by
  unfold readEffect
  rw [locate_icAt (show 0x10500 + 4 * g = 0x10000 + (0x500 + 4 * g) by omega) (by omega)]
  dsimp only
  rw [if_neg (by omega), if_pos (by omega), show (0x500 + 4 * g - 0x500) / 4 = g by omega]

theorem readEffect_axw (d : Dev) (hg : g < 64) : readEffect (0x10600 + 8 * g) d = (icAxwRead g d).2 := by
  unfold readEffect
  rw [locate_icAt (show 0x10600 + 8 * g = 0x10000 + (0x600 + 8 * g) by omega) (by omega)]
  dsimp only
  rw [if_neg (by omega), if_neg (by omega), if_pos (by omega), show (0x600 + 8 * g - 0x600) / 8 = g by omega]

theorem fabricRead_claim (hk : k < 32) (hlatch : (c.dev.path p).latch = []) :
    fabricRead p (0x10100 + 4 * k) c = ((icClaim k c.dev).1, c.mapDev fun d => (icClaim k d).2) := by
  rw [fabricRead_ic (o := 0x100 + 4 * k) (by omega) (by omega) (by omega) hlatch, peekIc_claim hk]
  simp only [Core.mapDev, readEffect_claim _ hk]

theorem fabricRead_chw (hg : g < 64) (hlatch : (c.dev.path p).latch = []) :
    fabricRead p (0x10500 + 4 * g) c = (Bank.get 0 c.dev.ic.chw g, c.mapDev fun d => (icChwRead g d).2) := by
  rw [fabricRead_ic (o := 0x500 + 4 * g) (by omega) (by omega) (by omega) hlatch, peekIc_chw hg]
  simp only [Core.mapDev, readEffect_chw _ hg]

theorem fabricRead_axwLo (hg : g < 64) : fabricRead p (0x10600 + 8 * g) c = (loWord (Bank.get 0 c.dev.ic.axw g),
    c.mapDev fun d => (icAxwRead g (setLatch p [(0x10604 + 8 * g, hiWord (Bank.get 0 c.dev.ic.axw g))] d)).2) := by
  have hloc := locate_icAt (show 0x10600 + 8 * g = 0x10000 + (0x600 + 8 * g) by omega) (by omega)
  have hhi := locate_icAt (show 0x10604 + 8 * g = 0x10000 + (0x604 + 8 * g) by omega) (by omega)
  have hl : linkedWords c.dev (0x10600 + 8 * g) = some [0x10604 + 8 * g] := by
    unfold linkedWords
    rw [hloc]
    dsimp only
    rw [if_pos (by omega), show 0x10600 + 8 * g + 4 = 0x10604 + 8 * g by omega]
  have hv : linkedValue c p (0x10604 + 8 * g) = hiWord (Bank.get 0 c.dev.ic.axw g) := by
    simp only [linkedValue, hhi, regPeek, peekIc_axwHi hg]
  rw [fabricRead_low (isBar0_ic (o := 0x600 + 8 * g) (by omega) (by omega) (by omega)) (by simp [isCaps, hloc]) hl]
  simp only [latchWords, List.map, hv, regPeek, hloc, peekIc_axwLo hg, readEffect_axw _ hg]

end

/-! ### The claim (R303) -/

section
variable {d : Dev} {k n : Nat}

theorem icClaim_none (h : winner k d = none) : icClaim k d = (0x80000000#32, d) := by
  simp [icClaim, h]

/-- The winner is active after its claim. -/
def claimed (n : Nat) (d : Dev) : Dev := settleVectors (d.updSource n fun s => { s with pend := false, act := true, span := false })

theorem icClaim_some (ht : isTarget k = true) (h : winner k d = some n) : icClaim k d = (BitVec.ofNat 32 n, claimed n d) := by
  simp [icClaim, ht, h, claimed]

theorem sameBut_claimed (n : Nat) (d : Dev) : SameBut [.ic] d (claimed n d) :=
  sameBut_trans (sameBut_updSource d n _) (sameBut_settleVectors _)

theorem settleVectors_source (d : Dev) (n : Nat) : (settleVectors d).source n = d.source n := rfl

theorem claimed_same (n : Nat) (d : Dev) : (claimed n d).source n = { d.source n with pend := false, act := true, span := false } := by
  rw [claimed, settleVectors_source, updSource_same]

theorem claimed_other {m : Nat} (d : Dev) (h : m ≠ n) : (claimed n d).source m = d.source m := by
  rw [claimed, settleVectors_source, updSource_other _ _ _ _ h]

end

/-! ### What a read leaves beside its answer -/

section
variable (p : Nat) (v : W32) (d : Dev) (n : Nat)

theorem putData_source : (putData p v d).source n = d.source n := rfl
theorem putData_comp : (putData p v d).comp n = d.comp n := rfl
theorem putData_chCap : (putData p v d).chCap n = d.chCap n := rfl
theorem putData_path : (putData p v d).path n = d.path n := rfl
theorem icAxwRead_path (g : Nat) : (icAxwRead g d).2.path n = d.path n := rfl
theorem setLatch_latch (l : List (Nat × W32)) : ((setLatch p l d).path p).latch = l := by rw [setLatch, updPath_same]
theorem icChwRead_clears : Bank.get 0 (icChwRead n d).2.ic.chw n = 0 := bank_get_set_same 0 d.ic.chw n 0
theorem icAxwRead_clears : Bank.get 0 (icAxwRead n d).2.ic.axw n = 0 := bank_get_set_same 0 d.ic.axw n 0

end

/-! ### The commands -/

section
variable {s : State} {p : Nat} (hp : isPath p = true) (ho : PortOpen p s.core.dev)
include hp ho

theorem ustampLoRead_runs {n : Nat} (hn : isPin n = true) : Runs (.ustampLoRead p n) s [.hi] fun t =>
    Bank.get 0 t.core.dev.hi.data p = loWord (s.core.dev.dec n).ustamp ∧
    (t.core.dev.path p).latch = [(baseCh n + 0xDC, hiWord (s.core.dev.dec n).ustamp), (baseCh n + 0xE0, (s.core.dev.dec n).uattr),
      (baseCh n + 0xC8, (s.core.dev.dec n).total), (baseCh n + 0xCC, (s.core.dev.dec n).pos)] :=
  runs_reads hp ho rfl (by simp [Instr.wf, hp, hn]) (fabricRead_ustamp (of_decide_eq_true hn)) rfl (sameBut_setLatch p _ _) (by decide)
    ⟨putData_data .., (congrArg PortPath.latch (putData_path ..)).trans (setLatch_latch ..)⟩

theorem captureRead_runs {n : Nat} (hn : isChannel n = true) : Runs (.captureRead p n false) s [.hi, .ch] fun t =>
    Bank.get 0 t.core.dev.hi.data p = (s.core.dev.chCap n).cap0 ∧
    t.core.dev.chCap n = { s.core.dev.chCap n with caps := clrBit (s.core.dev.chCap n).caps 1 } ∧
    ∀ m, m ≠ n → t.core.dev.chCap m = s.core.dev.chCap m := by
  refine runs_reads hp ho rfl (by simp [Instr.wf, hp, hn]) (fabricRead_cap0 (of_decide_eq_true hn)) rfl ?_ (by decide) ⟨putData_data .., ?_, fun m hm => ?_⟩
  · exact sameBut_then (sameBut_updCap _ n _) (by decide) (sameBut_mono (sameBut_setLatch p _ _) (by decide))
  · exact (putData_chCap ..).trans (updCap_same ..)
  · exact (putData_chCap ..).trans (updCap_other _ n m _ hm)

theorem chainCountRead_runs {n a : Nat} (hn : isChannel n = true) (hs : isStage s.core.dev n = false)
    (ha : stagesAbove s.core.dev n = [a]) (ha' : a < 512) : Runs (.chainCountRead p n) s [.hi] fun t =>
      Bank.get 0 t.core.dev.hi.data p = (s.core.dev.chCnt n).cnt ∧
      (t.core.dev.path p).latch = [(baseCh a + 0x18, (s.core.dev.chCnt a).cnt)] :=
  runs_reads hp ho rfl (by simp [Instr.wf, hp, hn]) (fabricRead_chain (of_decide_eq_true hn) hs ha ha') rfl (sameBut_setLatch p _ _)
    (by decide) ⟨putData_data .., (congrArg PortPath.latch (putData_path ..)).trans (setLatch_latch ..)⟩

theorem rxdRead_runs {k : Nat} (hk : isComp k = true) (hlatch : (s.core.dev.path p).latch = [])
    (hr : (s.core.dev.comp k).rxWas = none) : Runs (.rxdRead p k) s [.hi, .comps] fun t =>
      Bank.get 0 t.core.dev.hi.data p = (s.core.dev.comp k).r.rxd ∧
      t.core.dev.comp k = { s.core.dev.comp k with r := { (s.core.dev.comp k).r with rxf := false } } ∧
      ∀ m, m ≠ k → t.core.dev.comp m = s.core.dev.comp m :=
  runs_reads hp ho rfl (by simp [Instr.wf, hp, hk]) (fabricRead_rxd (of_decide_eq_true hk) hlatch hr) rfl
    (sameBut_mono (sameBut_updComp _ k _) (by decide)) (by decide)
    ⟨putData_data .., (putData_comp ..).trans (updComp_same ..), fun m hm => (putData_comp ..).trans (updComp_other _ k m _ hm)⟩

theorem claim_runs {k n : Nat} (hk : k < 32) (ht : isTarget k = true) (hw : winner k s.core.dev = some n)
    (hlatch : (s.core.dev.path p).latch = []) : Runs (.claim p k) s [.hi, .ic] fun t =>
      Bank.get 0 t.core.dev.hi.data p = BitVec.ofNat 32 n ∧
      t.core.dev.source n = { s.core.dev.source n with pend := false, act := true, span := false } ∧
      ∀ m, m ≠ n → t.core.dev.source m = s.core.dev.source m := by
  have hr := fabricRead_claim (c := s.core) (p := p) hk hlatch
  have hclaim := icClaim_some ht hw
  rw [hclaim] at hr
  refine runs_reads hp ho rfl (by simp [Instr.wf, hp, hk]) hr (congrArg Prod.snd hclaim)
    (sameBut_mono (sameBut_claimed n _) (by decide)) (by decide) ⟨putData_data .., ?_, fun m hm => ?_⟩
  · exact (putData_source ..).trans (claimed_same ..)
  · exact (putData_source ..).trans (claimed_other _ hm)

/-- With nothing to claim the read answers NONE and changes nothing. -/
theorem claimNone_runs {k : Nat} (hk : k < 32) (hw : winner k s.core.dev = none) (hlatch : (s.core.dev.path p).latch = []) :
    Runs (.claim p k) s [.hi] fun t => Bank.get 0 t.core.dev.hi.data p = 0x80000000#32 := by
  have hr := fabricRead_claim (c := s.core) (p := p) hk hlatch
  rw [icClaim_none hw] at hr
  exact runs_reads hp ho rfl (by simp [Instr.wf, hp, hk]) hr (congrArg Prod.snd (icClaim_none hw)) (sameBut_refl _ _) (by decide)
    (putData_data ..)

theorem chwRead_runs {g : Nat} (hg : g < 64) (hlatch : (s.core.dev.path p).latch = []) : Runs (.chwRead p g) s [.hi, .ic] fun t =>
    Bank.get 0 t.core.dev.hi.data p = Bank.get 0 s.core.dev.ic.chw g ∧ Bank.get 0 t.core.dev.ic.chw g = 0 :=
  runs_reads hp ho rfl (by simp [Instr.wf, hp, hg]) (fabricRead_chw hg hlatch) rfl (sameBut_mono (sameBut_ic _ _) (by decide)) (by decide)
    ⟨putData_data .., icChwRead_clears s.core.dev g⟩

theorem axwLoRead_runs {g : Nat} (hg : g < 64) : Runs (.axwLoRead p g) s [.hi, .ic] fun t =>
    Bank.get 0 t.core.dev.hi.data p = loWord (Bank.get 0 s.core.dev.ic.axw g) ∧
    (t.core.dev.path p).latch = [(0x10604 + 8 * g, hiWord (Bank.get 0 s.core.dev.ic.axw g))] ∧
    Bank.get 0 t.core.dev.ic.axw g = 0 :=
  runs_reads hp ho rfl (by simp [Instr.wf, hp, hg]) (fabricRead_axwLo hg) rfl
    (sameBut_then (sameBut_ic _ _) (by decide) (sameBut_mono (sameBut_setLatch p _ _) (by decide))) (by decide)
    ⟨putData_data .., (congrArg PortPath.latch ((putData_path ..).trans (icAxwRead_path ..))).trans (setLatch_latch ..), icAxwRead_clears _ g⟩

end

/-- Settles O22: each read by what stands at its word, the words latched with it, and its effect. -/
theorem readsWithEffects : Obligations.ReadsWithEffects := by
  intro s p hp ho
  refine ⟨fun n hn => ustampLoRead_runs hp ho hn, fun n hn => captureRead_runs hp ho hn,
    fun n a hn hs ha ha' => chainCountRead_runs hp ho hn hs ha ha', fun k hk hlatch hr => rxdRead_runs hp ho hk hlatch hr,
    fun k n hk ht hw hlatch => claim_runs hp ho hk ht hw hlatch, fun k hk hw hlatch => claimNone_runs hp ho hk hw hlatch,
    fun g hg hlatch => ⟨chwRead_runs hp ho hg hlatch, axwLoRead_runs hp ho hg⟩⟩

end Sys2Proof.Proofs
end

section
/-! SUPPORT. Frames of a change of one block of the device, the events that a member fires, and the flags of the monitor. -/

namespace Sys2Proof.Proofs

open Sys2Proof Sys2Proof.Machine Sys2Proof.Laws

theorem sameBut_fm (d : Dev) (x : Monitor) : SameBut [.fm] d { d with fm := x } := by
  intro v b hb
  cases b
  case fm => simp at hb
  all_goals rfl

theorem sameBut_lo (d : Dev) (x : LongOps) : SameBut [.lo] d { d with lo := x } := by
  intro v b hb
  cases b
  case lo => simp at hb
  all_goals rfl

theorem sameBut_ecc (d : Dev) (x : EccState) : SameBut [.ecc] d { d with ecc := x } := by
  intro v b hb
  cases b
  case ecc => simp at hb
  all_goals rfl

theorem sameBut_load (d : Dev) (x : LoadObj) : SameBut [.load] d { d with load := x } := by
  intro v b hb
  cases b
  case load => simp at hb
  all_goals rfl

theorem sameBut_br (d : Dev) (x : Bridge) : SameBut [.br] d { d with br := x } := by
  intro v b hb
  cases b
  case br => simp at hb
  all_goals rfl

theorem sameBut_fmLo (d : Dev) (x : Monitor) (y : LongOps) : SameBut [.fm, .lo] d { d with fm := x, lo := y } :=
  sameBut_then (sameBut_lo { d with fm := x } y) (by decide) (sameBut_mono (sameBut_fm d x) (by decide))

theorem sameBut_gsEcc (d : Dev) (x : GalleyStore) (y : EccState) : SameBut [.ecc, .gs] d { d with gs := x, ecc := y } :=
  sameBut_then (sameBut_ecc { d with gs := x } y) (by decide) (sameBut_mono (sameBut_gs d x) (by decide))

theorem sameBut_fmLoadBr (d : Dev) (x : Monitor) (y : LoadObj) (z : Bridge) :
    SameBut [.fm, .load, .br] d { d with fm := x, load := y, br := z } :=
  sameBut_then (sameBut_br { d with fm := x, load := y } z) (by decide)
    (sameBut_then (sameBut_load { d with fm := x } y) (by decide) (sameBut_mono (sameBut_fm d x) (by decide)))

/-! ### Events of members -/

section
variable (n : Nat) (d : Dev)

theorem memberEvent_fm : (memberEvent n d).fm = d.fm := kept_fm (sameBut_memberEvent n d) (by decide)
theorem memberEvent_lo : (memberEvent n d).lo = d.lo := kept_lo (sameBut_memberEvent n d) (by decide)
theorem memberEvent_ecc : (memberEvent n d).ecc = d.ecc := kept_ecc (sameBut_memberEvent n d) (by decide)

end

/-- A source is pending or active after it has fired. -/
theorem fireSource_taken (n : Nat) (d : Dev) :
    ((fireSource n d).source n).pend = true ∨ ((fireSource n d).source n).act = true := by
  unfold fireSource
  dsimp only
  split
  next h =>
    have h' : (d.source n).pend = true ∨ (d.source n).act = true := by simpa using h
    split
    · exact h'
    · simpa using h'
  next =>
    left
    unfold wakeIfFirst
    split
    · rw [kept_source (sameBut_wakeEngine _ _ _) (by decide), updSource_same]
    · rw [updSource_same]

/-- The first event of a source whose crossing is idle is taken. -/
theorem memberEvent_taken {n : Nat} {d : Dev} (hf : (d.source n).firedAt = none) (he : (d.source n).hsEnd = 0)
    (hw : (d.source n).hsWait = false) :
    ((memberEvent n d).source n).pend = true ∨ ((memberEvent n d).source n).act = true := by
  have hh : handshakeAt (d.source n) (eventSpan n) d.tb.tclk = (d.tb.tclk, false) := by simp [handshakeAt, he, hw]
  unfold memberEvent
  dsimp only
  rw [hf, hh, if_neg (by simp)]
  split
  · exact fireSource_taken n _
  · rw [if_neg (by simp)]
    exact fireSource_taken n _

/-- A change of the wakes of an engine leaves its pending fault alone; so does what may end in one. -/
theorem wakeEngine_pendFault (e c x : Nat) (d : Dev) : ((wakeEngine e c d).eng x).pendFault = (d.eng x).pendFault := by
  by_cases h : x = e
  · subst h
    unfold wakeEngine
    dsimp only
    split <;> rw [updEng_same]
  · unfold wakeEngine
    dsimp only
    split <;> rw [updEng_other _ _ _ _ h]

theorem fireSource_pendFault (n x : Nat) (d : Dev) : ((fireSource n d).eng x).pendFault = (d.eng x).pendFault := by
  unfold fireSource wakeIfFirst
  dsimp only
  split
  · split <;> rfl
  · split
    · exact wakeEngine_pendFault _ _ _ _
    · rfl

theorem crossOverrun_pendFault (i k x : Nat) (d : Dev) : ((crossOverrun i k d).eng x).pendFault = (d.eng x).pendFault := by
  unfold crossOverrun fireCrossing
  split
  · rfl
  · split
    · exact fireSource_pendFault _ _ _
    · rfl

theorem memberEvent_pendFault (n x : Nat) (d : Dev) : ((memberEvent n d).eng x).pendFault = (d.eng x).pendFault := by
  unfold memberEvent
  dsimp only
  split
  · rfl
  · split
    · exact fireSource_pendFault _ _ _
    · split
      · exact crossOverrun_pendFault _ _ _ _
      · exact fireSource_pendFault _ _ _

/-! ### The end of a long operation and the flags of FM_STAT -/

theorem loFinish_fm (f : LongOps → LongOps) (d : Dev) : (loFinish f d).fm = d.fm := memberEvent_fm _ _
theorem loFinish_lo (f : LongOps → LongOps) (d : Dev) : (loFinish f d).lo = f d.lo := memberEvent_lo _ _
theorem sameBut_loFinish (f : LongOps → LongOps) (d : Dev) : SameBut [.lo, .ic, .ne] d (loFinish f d) :=
  sameBut_then (sameBut_memberEvent _ _) (by decide) (sameBut_mono (sameBut_lo d _) (by decide))

theorem fmFlag_fm (b : Nat) (d : Dev) : (fmFlag b d).fm = { d.fm with stat := orBit d.fm.stat b } := memberEvent_fm _ _
theorem sameBut_fmFlag (b : Nat) (d : Dev) : SameBut [.fm, .ic, .ne] d (fmFlag b d) :=
  sameBut_then (sameBut_memberEvent _ _) (by decide) (sameBut_mono (sameBut_fm d _) (by decide))

end Sys2Proof.Proofs
end

section
/-! O56: the fastness monitor, the calibration and the checked memories (R61, R392, R436–R442, R447–R449). -/

namespace Sys2Proof.Proofs

open Sys2Proof Sys2Proof.Machine Sys2Proof.Laws

variable {d : Dev} {s : State} {k n : Nat}

/-! ### Surveys: asked for, begun, under way, abandoned -/

theorem surveyRequest_running (h : d.lo.survey.state = 1) : surveyRequest d = d := if_pos h

theorem surveyRequest_idle (h : d.lo.survey.state ≠ 1) : surveyRequest d = { d with fm := { d.fm with asked := true } } := if_neg h

theorem surveyStart_running (h : d.lo.survey.state = 1) : surveyStart d = d := by simp [surveyStart, h]

theorem surveyStart_idle (h : d.lo.survey.state ≠ 1) (hup : d.pw.coreUp = true) : surveyStart d = { d with
    fm := { d.fm with surveying := some 0, asked := false, fresh := [], startedAt := some d.tick.count, abandoned := false }
    lo := { d.lo with survey := ⟨1, 0, 0⟩ } } := by simp [surveyStart, h, hup, LongOp.begin]

/-- The reading of sentinel `k` taken at die temperature `tj`. -/
def readingTaken (k : Nat) (v : BitVec 16) (tj : Int) (d : Dev) : Dev := { d with
  fm := { d.fm with surveying := some (k + 1), fresh := Bank.set 0 d.fm.fresh k v
                    tjFirst := if k = 0 then tj else d.fm.tjFirst, tj := tj }
  lo := { d.lo with survey := { d.lo.survey with progress := 200 * (k + 1), position := k + 1 } } }

/-- The survey abandoned: its readings dropped and its operation refused. -/
def abandonedSurvey (d : Dev) : Dev := loFinish (fun l => { l with survey := l.survey.finish false })
  { d with fm := { d.fm with surveying := none, fresh := [], abandoned := true } }

theorem sentinelMeasured_takes {v : BitVec 16} {tj : Int} (hk : d.fm.surveying = some k) (hlt : k < 48)
    (ht : k = 0 ∨ (tj - d.fm.tjFirst).natAbs ≤ 50) : sentinelMeasured v tj d = readingTaken k v tj d := by
  unfold sentinelMeasured
  rw [hk]
  dsimp only
  rw [if_neg (by omega), if_neg (by omega)]
  rfl

theorem sentinelMeasured_abandons {v : BitVec 16} {tj : Int} (hk : d.fm.surveying = some k) (hlt : k < 48) (h0 : 0 < k)
    (ht : 50 < (tj - d.fm.tjFirst).natAbs) (hr : d.lo.survey.state = 1) : sentinelMeasured v tj d = abandonedSurvey d := by
  unfold sentinelMeasured
  rw [hk]
  dsimp only
  rw [if_neg (by omega), if_pos ⟨by omega, ht⟩]
  exact if_pos hr

theorem sameBut_readingTaken (k : Nat) (v : BitVec 16) (tj : Int) (d : Dev) : SameBut [.fm, .lo] d (readingTaken k v tj d) :=
  sameBut_fmLo d _ _

theorem sameBut_abandonedSurvey (d : Dev) : SameBut [.fm, .lo, .ic, .ne] d (abandonedSurvey d) :=
  sameBut_then (sameBut_loFinish _ _) (by decide) (sameBut_mono (sameBut_fm d _) (by decide))

theorem abandonedSurvey_fm (d : Dev) :
    (abandonedSurvey d).fm = { d.fm with surveying := none, fresh := [], abandoned := true } := loFinish_fm _ _

theorem abandonedSurvey_state (d : Dev) : (abandonedSurvey d).lo.survey.state = 3 := by
  rw [abandonedSurvey, loFinish_lo]
  rfl

/-! ### Margins and the end of a survey -/

/-- The margins of the readings in `m` for the plan in `m`. -/
def withMargins (m : Monitor) : Monitor :=
  let e := marginE (readD m) (ceilingOf m.plan.eclkc)
  let r := marginS (readR m)
  let o := marginO (readS m)
  { m with mE := e, mS := r, mO := o, margin := min e (min r o) }

theorem withMargins_mE (m : Monitor) : (withMargins m).mE = marginE (readD m) (ceilingOf m.plan.eclkc) := by simp only [withMargins]
theorem withMargins_mS (m : Monitor) : (withMargins m).mS = marginS (readR m) := by simp only [withMargins]
theorem withMargins_mO (m : Monitor) : (withMargins m).mO = marginO (readS m) := by simp only [withMargins]

theorem withMargins_margin (m : Monitor) :
    (withMargins m).margin = min (withMargins m).mE (min (withMargins m).mS (withMargins m).mO) := by simp only [withMargins]

theorem publishMargins_low (h : (withMargins d.fm).margin < 500) :
    publishMargins d = fmFlag 3 { d with fm := withMargins d.fm } := if_pos h

theorem publishMargins_high (h : ¬(withMargins d.fm).margin < 500) : publishMargins d = { d with fm := withMargins d.fm } := if_neg h

/-- Beside the margins, publishing them changes FM_STAT alone. -/
theorem publishMargins_fm (d : Dev) : (publishMargins d).fm = { withMargins d.fm with stat := (publishMargins d).fm.stat } := by
  by_cases h : (withMargins d.fm).margin < 500
  · rw [publishMargins_low h, fmFlag_fm]
  · rw [publishMargins_high h]

theorem publishMargins_flags (h : (publishMargins d).fm.margin < 500) : bit (publishMargins d).fm.stat 3 = true := by
  rw [publishMargins_fm] at h
  rw [publishMargins_low h, fmFlag_fm]
  exact bit_orBit_same _ 3 (by decide)

/-- MARGIN_LOW is the one flag that the margins set. -/
theorem publishMargins_stat_other {b : Nat} (h : 3 ≠ b) : bit (publishMargins d).fm.stat b = bit d.fm.stat b := by
  by_cases hm : (withMargins d.fm).margin < 500
  · rw [publishMargins_low hm, fmFlag_fm]
    exact bit_orBit_other _ 3 b h
  · rw [publishMargins_high hm]
    rfl

theorem sameBut_publishMargins (d : Dev) : SameBut [.fm, .ic, .ne] d (publishMargins d) := by
  by_cases h : (withMargins d.fm).margin < 500
  · rw [publishMargins_low h]
    exact sameBut_then (sameBut_fmFlag _ _) (by decide) (sameBut_mono (sameBut_fm d _) (by decide))
  · rw [publishMargins_high h]
    exact sameBut_mono (sameBut_fm d _) (by decide)

/-- The monitor with the readings of the survey that ends, and their place in the history. -/
def withReadings (d : Dev) : Monitor :=
  let m : Monitor :=
    { d.fm with values := d.fm.fresh, fresh := [], surveying := none, last := d.tb.time, surveys := d.fm.surveys + 1 }
  { m with history := ((d.tb.time, readD m) :: m.history).take 16 }

theorem readD_withReadings (d : Dev) : readD (withReadings d) = largestOf d.fm.fresh 0 32 := rfl
theorem readR_withReadings (d : Dev) : readR (withReadings d) = leastOf d.fm.fresh 32 8 := rfl
theorem readS_withReadings (d : Dev) : readS (withReadings d) = largestOf d.fm.fresh 40 8 := rfl

/-- The monitor with the plan derived and handled: it waits, is proposed, or is forced (R440). -/
def withPlanHandled (drift : Nat) (d : Dev) : Monitor :=
  let base := match d.fm.due with | some (p, _) => p | none => d.fm.plan
  let p := derivePlan d base drift
  let part := { base with vtrim := p.vtrim, calint := p.calint }
  let quiet := decide (p.eclkc = base.eclkc) && decide (p.guard = base.guard)
  let forced := match d.fm.due with | some (_, f) => f | none => false
  let wait (q : Plan) : Option (Plan × Bool) := if q = base then d.fm.due else some (q, forced)
  if quiet then { d.fm with due := wait part, propValid := false }
  else if 500 ≤ d.fm.margin then { d.fm with due := wait part, prop := p, propValid := true }
  else { d.fm with due := some (p, true), propValid := false }

/-- Handling the plan leaves the readings, the margins and the plan in force alone. -/
theorem withPlanHandled_eq (drift : Nat) (d : Dev) : withPlanHandled drift d = { d.fm with
    due := (withPlanHandled drift d).due, prop := (withPlanHandled drift d).prop
    propValid := (withPlanHandled drift d).propValid } := by
  simp only [withPlanHandled]
  split_ifs <;> rfl

/-- The margins of the survey that ends are out. -/
def marginsOut (d : Dev) : Dev := publishMargins { d with fm := withReadings d }

/-- The survey's plan is handled and its end flagged. -/
def planOut (drift : Nat) (d : Dev) : Dev :=
  fmFlag 4 { d with fm := { withPlanHandled drift d with proj := projection d } }

theorem surveyDone_early {drift : Nat} (h : d.fm.surveying ≠ some 48) : surveyDone drift d = d := if_pos h

theorem surveyDone_complete {drift : Nat} (h : d.fm.surveying = some 48) : surveyDone drift d =
    loFinish (fun l => { l with survey := { l.survey.finish true with position := 48 } }) (planOut drift (marginsOut d)) :=
  if_neg (not_not_intro h)

theorem marginsOut_fm (d : Dev) : (marginsOut d).fm = { withMargins (withReadings d) with stat := (marginsOut d).fm.stat } :=
  publishMargins_fm _

theorem planOut_fm (drift : Nat) (d : Dev) : (planOut drift d).fm = { d.fm with
    due := (withPlanHandled drift d).due, prop := (withPlanHandled drift d).prop
    propValid := (withPlanHandled drift d).propValid, proj := projection d, stat := orBit d.fm.stat 4 } := by
  rw [planOut, fmFlag_fm, withPlanHandled_eq]

theorem sameBut_marginsOut (d : Dev) : SameBut [.fm, .lo, .ic, .ne] d (marginsOut d) :=
  sameBut_then (sameBut_publishMargins _) (by decide) (sameBut_mono (sameBut_fm d _) (by decide))

theorem sameBut_planOut (drift : Nat) (d : Dev) : SameBut [.fm, .lo, .ic, .ne] d (planOut drift d) :=
  sameBut_then (sameBut_fmFlag _ _) (by decide) (sameBut_mono (sameBut_fm d _) (by decide))

theorem runs_surveyDone {drift : Nat} (hl : live s.core.dev = true) (h : s.core.dev.fm.surveying = some 48) :
    Runs (.surveyDone drift) s [.fm, .lo, .ic, .ne] fun t =>
      t.core.dev.fm.values = s.core.dev.fm.fresh ∧ t.core.dev.fm.last = s.core.dev.tb.time ∧
      t.core.dev.fm.surveys = s.core.dev.fm.surveys + 1 ∧ t.core.dev.fm.surveying = none ∧
      t.core.dev.fm.plan = s.core.dev.fm.plan ∧
      t.core.dev.fm.mE = marginE (largestOf s.core.dev.fm.fresh 0 32) (ceilingOf s.core.dev.fm.plan.eclkc) ∧
      t.core.dev.fm.mS = marginS (leastOf s.core.dev.fm.fresh 32 8) ∧
      t.core.dev.fm.mO = marginO (largestOf s.core.dev.fm.fresh 40 8) ∧
      t.core.dev.fm.margin = min t.core.dev.fm.mE (min t.core.dev.fm.mS t.core.dev.fm.mO) ∧
      (t.core.dev.fm.margin < 500 → bit t.core.dev.fm.stat 3 = true) ∧ bit t.core.dev.fm.stat 4 = true ∧
      t.core.dev.lo.survey.state = 2 := by
  refine runs_to hl rfl (surveyDone_complete h) ?_ ?_
  · exact sameBut_then (sameBut_loFinish _ _) (by decide) (sameBut_trans (sameBut_marginsOut _) (sameBut_planOut _ _))
  · simp only [loFinish_fm, loFinish_lo, planOut_fm]
    have hlow := publishMargins_flags (d := { s.core.dev with fm := withReadings s.core.dev })
    change (marginsOut s.core.dev).fm.margin < 500 → bit (marginsOut s.core.dev).fm.stat 3 = true at hlow
    refine ⟨?_, ?_, ?_, ?_, ?_, ?_, ?_, ?_, ?_, fun hm => ?_, bit_orBit_same _ 4 (by decide), rfl⟩
    case refine_10 => exact (bit_orBit_other _ 4 3 (by decide)).trans (hlow hm)
    case refine_6 => rw [marginsOut_fm, withMargins_mE, readD_withReadings]; rfl
    case refine_7 => rw [marginsOut_fm, withMargins_mS, readR_withReadings]
    case refine_8 => rw [marginsOut_fm, withMargins_mO, readS_withReadings]
    case refine_9 => rw [marginsOut_fm, withMargins_margin]
    all_goals rw [marginsOut_fm]; rfl

/-! ### The plan takes effect -/

/-- The waiting plan `p` in force, before the flags. -/
def planInForce (p : Plan) (forced : Bool) (d : Dev) : Dev :=
  let q := { p with bud := planBudget d p.eclkc }
  let taken := d.fm.propValid && (forced || (p.eclkc == d.fm.prop.eclkc && p.guard == d.fm.prop.guard))
  { d with
    fm := { d.fm with plan := q, due := none, propValid := d.fm.propValid && !taken
                      forced := if forced then d.fm.forced + 1 else d.fm.forced
                      consent := if forced then planWord q else d.fm.consent }
    load := { d.load with eclk := ceilingOf q.eclkc }
    br := { d.br with guard := BitVec.ofNat 12 q.guard } }

/-- PLAN_CHANGED, and FORCED for a plan that was forced. -/
def planFlagged (forced : Bool) (d : Dev) : Dev := if forced then fmFlag 5 (fmFlag 6 d) else fmFlag 6 d

/-- The margins again, for the plan now in force, once a survey has read any. -/
def marginsAgain (d : Dev) : Dev :=
  if d.fm.margin = 0xFFFF then d else publishMargins { d with fm := { d.fm with proj := projection d } }

theorem planTakesEffect_none (h : d.fm.due = none) : planTakesEffect d = d := by simp [planTakesEffect, h]

theorem planTakesEffect_due {p : Plan} {forced : Bool} (h : d.fm.due = some (p, forced)) :
    planTakesEffect d = marginsAgain (planFlagged forced (planInForce p forced d)) := by
  unfold planTakesEffect
  rw [h]
  rfl

theorem planFlagged_fm (forced : Bool) (d : Dev) :
    (planFlagged forced d).fm = { d.fm with stat := (planFlagged forced d).fm.stat } := by
  cases forced
  · show (fmFlag 6 d).fm = { d.fm with stat := (fmFlag 6 d).fm.stat }
    rw [fmFlag_fm]
  · show (fmFlag 5 (fmFlag 6 d)).fm = { d.fm with stat := (fmFlag 5 (fmFlag 6 d)).fm.stat }
    rw [fmFlag_fm, fmFlag_fm]

theorem planFlagged_changed (forced : Bool) (d : Dev) : bit (planFlagged forced d).fm.stat 6 = true := by
  cases forced
  · exact (congrArg (fun m : Monitor => bit m.stat 6) (fmFlag_fm 6 d)).trans (bit_orBit_same _ 6 (by decide))
  · show bit (fmFlag 5 (fmFlag 6 d)).fm.stat 6 = true
    rw [fmFlag_fm, fmFlag_fm]
    exact (bit_orBit_other _ 5 6 (by decide)).trans (bit_orBit_same _ 6 (by decide))

theorem planFlagged_forced (d : Dev) : bit (planFlagged true d).fm.stat 5 = true := by
  show bit (fmFlag 5 (fmFlag 6 d)).fm.stat 5 = true
  rw [fmFlag_fm]
  exact bit_orBit_same _ 5 (by decide)

/-- Publishing the margins again keeps the plan and what it waits for, and every flag but MARGIN_LOW. -/
theorem marginsAgain_fm (d : Dev) : (marginsAgain d).fm.plan = d.fm.plan ∧ (marginsAgain d).fm.due = d.fm.due ∧
    (marginsAgain d).fm.forced = d.fm.forced ∧ ∀ b, 3 ≠ b → bit (marginsAgain d).fm.stat b = bit d.fm.stat b := by
  unfold marginsAgain
  split
  · exact ⟨rfl, rfl, rfl, fun _ _ => rfl⟩
  · refine ⟨?_, ?_, ?_, fun b hb => publishMargins_stat_other hb⟩
    all_goals rw [publishMargins_fm]; rfl

theorem sameBut_planInForce (p : Plan) (forced : Bool) (d : Dev) : SameBut [.fm, .load, .br] d (planInForce p forced d) :=
  sameBut_fmLoadBr d _ _ _

theorem sameBut_planFlagged (forced : Bool) (d : Dev) : SameBut [.fm, .ic, .ne] d (planFlagged forced d) :=
  sameBut_ite (fun _ => sameBut_trans (sameBut_fmFlag 6 d) (sameBut_fmFlag 5 _)) fun _ => sameBut_fmFlag 6 d

theorem sameBut_marginsAgain (d : Dev) : SameBut [.fm, .ic, .ne] d (marginsAgain d) :=
  sameBut_ite (fun _ => sameBut_refl _ d) fun _ =>
    sameBut_then (sameBut_publishMargins _) (by decide) (sameBut_mono (sameBut_fm d _) (by decide))

theorem runs_marginPlanTakesEffect {p : Plan} {forced : Bool} (hl : live s.core.dev = true) (h : s.core.dev.fm.due = some (p, forced)) :
    Runs .marginPlanTakesEffect s [.fm, .load, .br, .ic, .ne] fun t =>
      t.core.dev.fm.plan = { p with bud := planBudget s.core.dev p.eclkc } ∧ t.core.dev.fm.due = none ∧
      t.core.dev.load = { s.core.dev.load with eclk := ceilingOf p.eclkc } ∧
      t.core.dev.br = { s.core.dev.br with guard := BitVec.ofNat 12 p.guard } ∧ bit t.core.dev.fm.stat 6 = true ∧
      (forced = true → bit t.core.dev.fm.stat 5 = true ∧ t.core.dev.fm.forced = s.core.dev.fm.forced + 1) := by
  have hflags := sameBut_trans (sameBut_planFlagged forced (planInForce p forced s.core.dev)) (sameBut_marginsAgain _)
  obtain ⟨hplan, hdue, hforced, hstat⟩ := marginsAgain_fm (planFlagged forced (planInForce p forced s.core.dev))
  refine runs_to hl rfl (planTakesEffect_due h) ?_ ⟨?_, ?_, kept_load hflags (by decide), kept_br hflags (by decide), ?_, ?_⟩
  · exact sameBut_then hflags (by decide) (sameBut_mono (sameBut_planInForce p forced s.core.dev) (by decide))
  · rw [hplan, planFlagged_fm]
    rfl
  · rw [hdue, planFlagged_fm]
    rfl
  · rw [hstat 6 (by decide)]
    exact planFlagged_changed _ _
  · rintro rfl
    rw [hstat 5 (by decide), hforced, planFlagged_fm]
    exact ⟨planFlagged_forced _, rfl⟩

/-! ### VTRIM and the calibration -/

theorem vtrimStep_up (h : d.fm.vtrimNow < d.fm.plan.vtrim) :
    vtrimStep d = { d with fm := { d.fm with vtrimNow := d.fm.vtrimNow + 1 } } := by simp [vtrimStep, h]

theorem vtrimStep_down (h : d.fm.plan.vtrim < d.fm.vtrimNow) :
    vtrimStep d = { d with fm := { d.fm with vtrimNow := d.fm.vtrimNow - 1 } } := by
  simp [vtrimStep, h, not_lt_of_ge (le_of_lt h)]

theorem vtrimStep_there (h : d.fm.vtrimNow = d.fm.plan.vtrim) : vtrimStep d = d := by simp [vtrimStep, h.symm]

theorem calibrationStart_running (h : d.lo.cal.state = 1) : calibrationStart d = d := if_pos h

theorem calibrationStart_idle (h : d.lo.cal.state ≠ 1) : calibrationStart d = { d with lo := { d.lo with cal := ⟨1, 0, 0⟩ } } :=
  if_neg h

theorem calibrationDone_running {ok : Bool} (h : d.lo.cal.state = 1) :
    calibrationDone ok d = loFinish (fun l => { l with cal := l.cal.finish ok }) d := if_pos h

theorem calibrationDone_idle {ok : Bool} (h : d.lo.cal.state ≠ 1) : calibrationDone ok d = d := if_neg h

theorem runs_calibrationDone (ok : Bool) (hl : live s.core.dev = true) (h : s.core.dev.lo.cal.state = 1) :
    Runs (.calibrationDone ok) s [.lo, .ic, .ne] fun t =>
      t.core.dev.lo.cal.state = (if ok then 2 else 3) ∧ (ok = true → t.core.dev.lo.cal.progress = 10000) ∧
      t.core.dev.lo = { s.core.dev.lo with cal := t.core.dev.lo.cal } := by
  refine runs_to hl rfl (calibrationDone_running h) (sameBut_loFinish _ _) ?_
  dsimp only
  rw [loFinish_lo]
  exact ⟨rfl, fun hok => if_pos hok, rfl⟩

/-! ### Errors of the SRAM -/

theorem eccAddr_word (r : SramRegion) (hn : n < 16777216) : eccAddr r n = BitVec.ofNat 32 (regionCode r * 2 ^ 28 + n) := by
  rw [eccAddr, Nat.mod_eq_of_lt (show n < 2 ^ 24 from hn)]

theorem runs_correctableError (r : SramRegion) (hl : live s.core.dev = true) (hn : n < 16777216) :
    Runs (.correctableError r n) s [.ecc, .ic, .ne] fun t =>
      t.core.dev.ecc = { s.core.dev.ecc with
        cecc := incSat s.core.dev.ecc.cecc, addr := BitVec.ofNat 32 (regionCode r * 2 ^ 28 + n) } ∧
      ((s.core.dev.source 0x3AA).firedAt = none → (s.core.dev.source 0x3AA).hsEnd = 0 → (s.core.dev.source 0x3AA).hsWait = false →
        (t.core.dev.source 0x3AA).pend = true ∨ (t.core.dev.source 0x3AA).act = true) := by
  have hx : exec (.correctableError r n) s = whenLiveDev (decide (n < 16777216)) (correctableError r n) s := rfl
  rw [decide_eq_true hn] at hx
  refine runs_to hl hx rfl ?_ ⟨?_, fun hf he hw => memberEvent_taken (d := { s.core.dev with ecc := _ }) hf he hw⟩
  · exact sameBut_then (sameBut_memberEvent _ _) (by decide) (sameBut_mono (sameBut_ecc _ _) (by decide))
  · rw [← eccAddr_word r hn]
    exact memberEvent_ecc _ _

/-- An uncorrectable error counted and recorded, with its source. -/
def uncorrectableRecorded (r : SramRegion) (n : Nat) (d : Dev) : Dev :=
  memberEvent 0x3AB { d with ecc := { d.ecc with uecc := incSat d.ecc.uecc, addr := eccAddr r n, alarm := true } }

theorem uncorrectableRecorded_ecc (r : SramRegion) (n : Nat) (d : Dev) : (uncorrectableRecorded r n d).ecc =
    { d.ecc with uecc := incSat d.ecc.uecc, addr := eccAddr r n, alarm := true } := memberEvent_ecc _ _

theorem sameBut_uncorrectableRecorded (r : SramRegion) (n : Nat) (d : Dev) :
    SameBut [.ecc, .ic, .ne] d (uncorrectableRecorded r n d) :=
  sameBut_then (sameBut_memberEvent _ _) (by decide) (sameBut_mono (sameBut_ecc d _) (by decide))

theorem uncorrectableRecorded_pendFault (r : SramRegion) (n e : Nat) (d : Dev) :
    ((uncorrectableRecorded r n d).eng e).pendFault = (d.eng e).pendFault := memberEvent_pendFault _ _ _

/-- An uncorrectable error in a region whose loss is `f`: it is recorded, then `f` acts. -/
theorem runs_uncorrectable {r : SramRegion} {who : SramReader} {all : Bool} {f : Dev → Dev} {l : List Part} {P : State → Prop} {e : Dev}
    (hl : live s.core.dev = true) (hn : n < 16777216)
    (hr : ∀ c : Core, uncorrectableError r n who all c = c.mapDev fun d => f (uncorrectableRecorded r n d))
    (he : f (uncorrectableRecorded r n s.core.dev) = e)
    (hf : SameBut l (uncorrectableRecorded r n s.core.dev) e) (hs : ∀ b ∈ [Part.ecc, .ic, .ne], b ∈ l)
    (hP : P { s with core := { s.core with dev := e } }) : Runs (.uncorrectableError r n who all) s l P := by
  have hx : exec (.uncorrectableError r n who all) s = whenLive (decide (n < 16777216)) (uncorrectableError r n who all) s := rfl
  rw [decide_eq_true hn, funext hr] at hx
  exact runs_to hl hx he (sameBut_trans (sameBut_mono (sameBut_uncorrectableRecorded r n s.core.dev) hs) hf) hP

/-! ### What an uncorrectable error does in its region -/

/-- A slug out of service, its storage retired. -/
def storageRetired (k : Nat) (d : Dev) : Dev :=
  let d2 := d.updSlug k fun _ => {}
  { d2 with
    gs := { d2.gs with retired := d2.gs.retired ++ [k], freed := d2.gs.freed.filter fun n => n != k }
    ecc := { d2.ecc with retired := d2.ecc.retired + 1 } }

theorem retireStorage_unplaced (hk : k < 262144) (hr : d.gs.retired.contains k = false) (he : findEntry d k = none) :
    retireStorage k d = storageRetired k d := by
  unfold retireStorage
  rw [he]
  exact if_neg (by rw [hr]; simpa using hk)

theorem sameBut_storageRetired (k : Nat) (d : Dev) : SameBut [.ecc, .gs] d (storageRetired k d) :=
  sameBut_trans (sameBut_mono (sameBut_updSlug d k _) (by decide)) (sameBut_gsEcc _ _ _)

theorem storageRetired_slug_same (k : Nat) (d : Dev) : (storageRetired k d).slug k = {} := updSlug_same d k fun _ => {}
theorem storageRetired_slug_other {m : Nat} (h : m ≠ k) : (storageRetired k d).slug m = d.slug m := updSlug_other d k m (fun _ => {}) h

/-- Which entries commit in this TCLK, and so a slug's free entry, depends on the chases, the time and the axes alone. -/
theorem findEntry_congr {e : Dev} (hc : e.chases = d.chases) (ht : e.tb = d.tb) (ha : e.ax = d.ax) (k : Nat) :
    findEntry e k = findEntry d k := by
  have hchase : e.chase = d.chase := by
    funext c
    rw [Dev.chase, Dev.chase, hc]
  have helig : eligible e = eligible d := by
    funext x
    simp only [eligible, published, Dev.axis, ht, ha]
  have hchoice : commitChoice e = commitChoice d := by
    funext c
    rw [commitChoice, commitChoice, hchase, helig]
  have hnow : commitsNow e = commitsNow d := by
    funext c j
    rw [commitsNow, commitsNow, hchase, hchoice]
  rw [findEntry, findEntry, freeEntries, freeEntries, allEntries, allEntries, hc, hnow]

theorem runs_galleyError {who : SramReader} {all : Bool} (hl : live s.core.dev = true) (hn : n < 1048576)
    (hr : s.core.dev.gs.retired.contains (n / 4) = false) (he : findEntry s.core.dev (n / 4) = none) :
    Runs (.uncorrectableError .galley n who all) s [.ecc, .ic, .ne, .gs] fun t =>
      t.core.dev.ecc = { s.core.dev.ecc with
        uecc := incSat s.core.dev.ecc.uecc, addr := BitVec.ofNat 32 n, alarm := true, retired := s.core.dev.ecc.retired + 1 } ∧
      t.core.dev.slug (n / 4) = {} ∧ t.core.dev.gs.retired = s.core.dev.gs.retired ++ [n / 4] ∧
      ∀ m, m ≠ n / 4 → t.core.dev.slug m = s.core.dev.slug m := by
  have hrec := sameBut_uncorrectableRecorded .galley n s.core.dev
  have hgs := kept_gs hrec (by decide)
  have hfree := findEntry_congr (kept_chases hrec (by decide)) (kept_tb hrec (by decide)) (kept_ax hrec (by decide)) (n / 4)
  have haddr : eccAddr .galley n = BitVec.ofNat 32 n := by simp [eccAddr_word .galley (n := n) (by omega), regionCode]
  refine runs_uncorrectable hl (by omega) (fun c => rfl)
    (retireStorage_unplaced (by omega) (by rw [hgs]; exact hr) (hfree.trans he))
    (sameBut_mono (sameBut_storageRetired _ _) (by decide)) (by decide)
    ⟨?_, storageRetired_slug_same _ _, ?_, fun m hm => (storageRetired_slug_other hm).trans (kept_slug hrec (by decide) m)⟩
  · show { (uncorrectableRecorded .galley n s.core.dev).ecc with
        retired := (uncorrectableRecorded .galley n s.core.dev).ecc.retired + 1 } = _
    rw [uncorrectableRecorded_ecc, haddr]
  · show (uncorrectableRecorded .galley n s.core.dev).gs.retired ++ [n / 4] = _
    rw [hgs]

theorem sameBut_cpFlag (k b : Nat) (d : Dev) : SameBut [.comps, .ic, .ne] d (cpFlag k b d) := by
  have h := fun f => sameBut_mono (m := [.comps, .ic, .ne]) (sameBut_updComp d k f) (by decide)
  exact sameBut_ite (fun _ => sameBut_then (sameBut_memberEvent _ _) (by decide) (h _)) fun _ => h _

/-- A flag of a compositor stands in its STAT. -/
theorem cpFlag_comp (k b m : Nat) (d : Dev) : (cpFlag k b d).comp m =
    (d.updComp k fun c => { c with r := { c.r with stat := orBit c.r.stat b } }).comp m := by
  unfold cpFlag
  dsimp only
  split
  · exact kept_comp (sameBut_memberEvent _ _) (by decide) m
  · rfl

/-- The compositor `k` halted by an error, with its flag. -/
def compositorLost (k : Nat) (d : Dev) : Dev := cpFlag k 10 (d.updComp k cpHalted)

theorem sameBut_compositorLost (k : Nat) (d : Dev) : SameBut [.comps, .ic, .ne] d (compositorLost k d) :=
  sameBut_then (sameBut_cpFlag _ _ _) (by decide) (sameBut_mono (sameBut_updComp d k _) (by decide))

theorem compositorLost_same (k : Nat) (d : Dev) : (compositorLost k d).comp k =
    { cpHalted (d.comp k) with r := { (d.comp k).r with stat := orBit (d.comp k).r.stat 10 } } := by
  rw [compositorLost, cpFlag_comp, updComp_same, updComp_same]
  rfl

theorem compositorLost_other {m : Nat} (h : m ≠ k) : (compositorLost k d).comp m = d.comp m := by
  rw [compositorLost, cpFlag_comp, updComp_other _ _ _ _ h, updComp_other _ _ _ _ h]

theorem runs_compositorError {who : SramReader} {all : Bool} (hl : live s.core.dev = true) (hn : n < 2048) :
    Runs (.uncorrectableError .compositor n who all) s [.ecc, .ic, .ne, .comps] fun t =>
      (t.core.dev.comp (n / 32)).run = false ∧ bit (t.core.dev.comp (n / 32)).r.stat 10 = true ∧
      t.core.dev.ecc.alarm = true ∧ ∀ m, m ≠ n / 32 → t.core.dev.comp m = s.core.dev.comp m := by
  have hrec := sameBut_uncorrectableRecorded .compositor n s.core.dev
  have hlost := sameBut_compositorLost (n / 32) (uncorrectableRecorded .compositor n s.core.dev)
  refine runs_uncorrectable (f := compositorLost (n / 32)) hl (by omega) (fun c => rfl) rfl
    (sameBut_mono hlost (by decide)) (by decide) ?_
  dsimp only
  rw [compositorLost_same, kept_ecc hlost (by decide), uncorrectableRecorded_ecc]
  exact ⟨rfl, bit_orBit_same _ 10 (by decide), rfl, fun m hm => (compositorLost_other hm).trans (kept_comp hrec (by decide) m)⟩

/-- Slot `k` of chase `cs` withdrawn, with what its present commit would start. -/
def slotWithdrawn (cs k : Nat) (d : Dev) : Dev :=
  (putEntry cs k none d).updChase cs fun c => { c with start := Bank.set none c.start k none }

theorem sameBut_slotWithdrawn (cs k : Nat) (d : Dev) : SameBut [.chases] d (slotWithdrawn cs k d) :=
  sameBut_trans (sameBut_putEntry cs k none d) (sameBut_updChase _ cs _)

theorem slotWithdrawn_empty (cs k : Nat) (d : Dev) : Bank.get none ((slotWithdrawn cs k d).chase cs).entries k = none := by
  rw [slotWithdrawn, updChase_same, putEntry, updChase_same]
  exact bank_get_set_same none _ k none

theorem entryLost_unarmed {e : Entry} (he : Bank.get none (d.chase (n / 64)).entries (n % 64) = some e)
    (hs : (d.slug e.sid).state ≠ .armed) : entryLost n d = slotWithdrawn (n / 64) (n % 64) d := by
  unfold entryLost
  rw [he]
  exact if_neg fun h => hs h.1

theorem runs_chaseError {who : SramReader} {all : Bool} {e : Entry} (hl : live s.core.dev = true) (hn : n < 4096)
    (he : Bank.get none (s.core.dev.chase (n / 256)).entries (n / 4 % 64) = some e) (hs : (s.core.dev.slug e.sid).state ≠ .armed) :
    Runs (.uncorrectableError .chase n who all) s [.ecc, .ic, .ne, .chases] fun t =>
      Bank.get none (t.core.dev.chase (n / 256)).entries (n / 4 % 64) = none ∧ t.core.dev.ecc.alarm = true := by
  have hrec := sameBut_uncorrectableRecorded .chase n s.core.dev
  have hcs : n / 4 / 64 = n / 256 := by omega
  have hgone := sameBut_slotWithdrawn (n / 4 / 64) (n / 4 % 64) (uncorrectableRecorded .chase n s.core.dev)
  refine runs_uncorrectable hl (by omega) (fun c => rfl) (entryLost_unarmed (e := e) ?_ ?_) (sameBut_mono hgone (by decide))
    (by decide) ⟨?_, ?_⟩
  · rw [kept_chase hrec (by decide), hcs]
    exact he
  · rw [kept_slug hrec (by decide)]
    exact hs
  · rw [← hcs]
    exact slotWithdrawn_empty _ _ _
  · dsimp only
    rw [kept_ecc hgone (by decide), uncorrectableRecorded_ecc]

theorem contextFault_first {code e c : Nat} (h : (d.eng e).pendFault = none) :
    ((contextFault code e c d).eng e).pendFault = some (code, c, (d.ctx e c).pc.toNat) := by
  simp [contextFault, h]

theorem contextFault_faulted (code e c : Nat) (d : Dev) : ((contextFault code e c d).ctx e c).faulted = true := by
  rw [contextFault, updCtx_same]

theorem sameBut_contextFault (code e c : Nat) (d : Dev) : SameBut [.ne, .ctxs] d (contextFault code e c d) :=
  sameBut_then (sameBut_updCtx _ _ _ _) (by decide) (sameBut_mono (sameBut_updEng d e _) (by decide))

theorem runs_engineDataError {e c : Nat} {all : Bool} (hl : live s.core.dev = true) (hn : n < 16777216)
    (hf : (s.core.dev.eng e).pendFault = none) :
    Runs (.uncorrectableError .engineData n (.engine e c) all) s [.ecc, .ic, .ne, .ctxs] fun t =>
      (t.core.dev.eng e).pendFault = some (1, c, (s.core.dev.ctx e c).pc.toNat) ∧ (t.core.dev.ctx e c).faulted = true := by
  have hrec := sameBut_uncorrectableRecorded .engineData n s.core.dev
  have hpc : (uncorrectableRecorded .engineData n s.core.dev).ctx e c = s.core.dev.ctx e c := by
    rw [Dev.ctx, Dev.ctx, kept_ctxs hrec (by decide)]
  refine runs_uncorrectable (f := contextFault 1 e c) hl hn (fun _ => rfl) rfl
    (sameBut_mono (sameBut_contextFault 1 e c _) (by decide)) (by decide) ⟨?_, contextFault_faulted _ _ _ _⟩
  rw [← hpc]
  exact contextFault_first ((uncorrectableRecorded_pendFault _ _ _ _).trans hf)

/-! ### The scrubber -/

theorem scrubStep_off (h : d.ecc.scrubEn = false) : scrubStep d = d := by simp [scrubStep, h]

theorem scrubStep_next (h : d.ecc.scrubEn = true) (hw : d.ecc.word + 1 < 2097152) :
    scrubStep d = { d with ecc := { d.ecc with word := d.ecc.word + 1 } } := by simp [scrubStep, h, hw]

theorem scrubStep_pass (h : d.ecc.scrubEn = true) (hw : 2097152 ≤ d.ecc.word + 1) :
    scrubStep d = { d with ecc := { d.ecc with word := 0, passes := d.ecc.passes + 1 } } := by
  simp [scrubStep, h, Nat.not_lt.mpr hw]

/-! ### The statement -/

theorem runs_vtrimStep (hl : live s.core.dev = true) : Runs .vtrimStep s [.fm] fun t =>
    (s.core.dev.fm.vtrimNow < s.core.dev.fm.plan.vtrim →
      t.core.dev.fm = { s.core.dev.fm with vtrimNow := s.core.dev.fm.vtrimNow + 1 }) ∧
    (s.core.dev.fm.plan.vtrim < s.core.dev.fm.vtrimNow →
      t.core.dev.fm = { s.core.dev.fm with vtrimNow := s.core.dev.fm.vtrimNow - 1 }) ∧
    (s.core.dev.fm.vtrimNow = s.core.dev.fm.plan.vtrim → t.core.dev.fm = s.core.dev.fm) :=
  runs_to hl rfl rfl (sameBut_fm _ _) ⟨fun h => congrArg Dev.fm (vtrimStep_up h), fun h => congrArg Dev.fm (vtrimStep_down h),
    fun h => congrArg Dev.fm (vtrimStep_there h)⟩

theorem sameBut_scrubStep (d : Dev) : SameBut [.ecc] d (scrubStep d) :=
  sameBut_ite (fun _ => sameBut_ite (fun _ => sameBut_ecc d _) fun _ => sameBut_ecc d _) fun _ => sameBut_refl _ d

theorem runs_sentinelTaken {v : BitVec 16} {tj : Int} (hl : live s.core.dev = true) (hk : s.core.dev.fm.surveying = some k) (hlt : k < 48)
    (ht : k = 0 ∨ (tj - s.core.dev.fm.tjFirst).natAbs ≤ 50) : Runs (.sentinelMeasured v tj) s [.fm, .lo] fun t =>
      t.core.dev.fm.surveying = some (k + 1) ∧ Bank.get 0 t.core.dev.fm.fresh k = v ∧
      (∀ m, m ≠ k → Bank.get 0 t.core.dev.fm.fresh m = Bank.get 0 s.core.dev.fm.fresh m) ∧
      t.core.dev.fm.values = s.core.dev.fm.values ∧ t.core.dev.fm.plan = s.core.dev.fm.plan ∧
      t.core.dev.lo.survey.progress = 200 * (k + 1) :=
  runs_to hl rfl (sentinelMeasured_takes hk hlt ht) (sameBut_readingTaken k v tj _)
    ⟨rfl, bank_get_set_same _ _ _ _, fun _ hm => bank_get_set_other _ _ _ _ _ hm, rfl, rfl, rfl⟩

theorem runs_sentinelAbandons {v : BitVec 16} {tj : Int} (hl : live s.core.dev = true) (hk : s.core.dev.fm.surveying = some k)
    (hlt : k < 48) (h0 : 0 < k) (ht : 50 < (tj - s.core.dev.fm.tjFirst).natAbs) (hr : s.core.dev.lo.survey.state = 1) :
    Runs (.sentinelMeasured v tj) s [.fm, .lo, .ic, .ne] fun t =>
      t.core.dev.fm = { s.core.dev.fm with surveying := none, fresh := [], abandoned := true } ∧
      t.core.dev.lo.survey.state = 3 :=
  runs_to hl rfl (sentinelMeasured_abandons hk hlt h0 ht hr) (sameBut_abandonedSurvey _)
    ⟨abandonedSurvey_fm _, abandonedSurvey_state _⟩

/-- Settles O56: each command by its case of the monitor's, the calibration's and the memories' operations. -/
theorem monitorAndMemory : Obligations.MonitorAndMemory := by
  unfold Obligations.MonitorAndMemory
  intro s hl
  refine ⟨fun h => ⟨?_, ?_⟩, fun h => ⟨?_, fun hup => ?_⟩, fun k v tj hk hlt => ⟨fun ht => ?_, fun h0 ht hr => ?_⟩, fun drift h => ?_,
    fun drift h => runs_surveyDone hl h, fun h => ?_, fun p forced h => runs_marginPlanTakesEffect hl h, runs_vtrimStep hl,
    fun h => ⟨?_, fun ok => runs_calibrationDone ok hl h⟩, fun h => ⟨fun ok => ?_, ?_⟩, fun r n hn => runs_correctableError r hl hn,
    fun n who all hn hr he => runs_galleyError hl hn hr he, fun n who all hn => runs_compositorError hl hn,
    fun n who all e hn he hs => runs_chaseError hl hn he hs, fun n e c all hn _ _ hf => runs_engineDataError hl hn hf,
    fun h => ?_, fun h => ?_⟩
  · exact exec_idle rfl (surveyRequest_running h)
  · exact exec_idle rfl (surveyStart_running h)
  · exact runs_to hl rfl (surveyRequest_idle h) (sameBut_fm _ _) rfl
  · exact runs_to hl rfl (surveyStart_idle h hup) (sameBut_fmLo _ _ _) ⟨rfl, rfl⟩
  · exact runs_sentinelTaken hl hk hlt ht
  · exact runs_sentinelAbandons hl hk hlt h0 ht hr
  · exact exec_idle rfl (surveyDone_early h)
  · exact exec_idle rfl (planTakesEffect_none h)
  · exact exec_idle rfl (calibrationStart_running h)
  · exact exec_idle rfl (calibrationDone_idle h)
  · exact runs_to hl rfl (calibrationStart_idle h) (sameBut_lo _ _) rfl
  · exact exec_idle rfl (scrubStep_off h)
  · exact runs_to hl rfl rfl (sameBut_scrubStep _)
      ⟨fun hw => congrArg Dev.ecc (scrubStep_next h hw), fun hw => congrArg Dev.ecc (scrubStep_pass h hw)⟩

end Sys2Proof.Proofs
end

section
/-! O58: the state after reset, and after BOOT with a blank flash (R16, R87, R206, R312, R352, R395). -/

namespace Sys2Proof.Proofs

open Sys2Proof Sys2Proof.Machine Sys2Proof.Laws

/-! ### One object of the stand-alone settings -/

section
variable {c : Core} {d e : Dev}

/-- A write of a register field leaves what holds of the core before it and of the core with the register written. -/
theorem regSet_keeps {P : Core → Prop} {a lo len mask v : Nat} (h0 : P c)
    (hp : P (c.mapDev (regPoke 16 a (setFld (reg c a) lo len v)))) : P (regSet a lo len mask v c).2 := by
  unfold regSet
  dsimp only
  split
  · exact hp
  · dsimp only
    split
    · exact hp
    · exact h0

/-- So does a setting of an object on a register field, once what it has ordered is in force. -/
theorem setObj_keeps {P : Core → Prop} {index sub ty a lo len off mn mx v : Nat}
    (ho : coreObj index sub c = some (fieldObj ty a lo len off mn mx)) (h0 : P (c.mapDev landRegisters))
    (hp : ∀ u, P ((c.mapDev (regPoke 16 a (setFld (reg c a) lo len u))).mapDev landRegisters)) : P (setObj index sub v c) := by
  have hset : ∀ u, P ((regSet a lo len (2 ^ len - 1) u c).2.mapDev landRegisters) := fun u =>
    regSet_keeps (P := fun e => P (e.mapDev landRegisters)) h0 (hp u)
  rw [setObj, ho]
  simp only [fieldObj, rwNat]
  split
  · split
    · exact h0
    · split
      · exact h0
      · exact hset _
  · exact hset _

/-! ### Registers in force, with no channel, compositor or pair at work -/

/-- No channel, compositor or pair has left its reset state. -/
def Bare (d : Dev) : Prop := d.ch = {} ∧ d.comps = [] ∧ d.br.pairs = []

theorem bare_sameBut {l : List Part} (h : SameBut l d e) (hc : Part.ch ∉ l) (hk : Part.comps ∉ l) (hb : Part.br ∉ l) (hd : Bare d) :
    Bare e := by
  obtain ⟨hch, hcomps, hpairs⟩ := hd
  exact ⟨(kept_ch h hc).trans hch, (kept_comps h hk).trans hcomps, (congrArg Bridge.pairs (kept_br h hb)).trans hpairs⟩

theorem sameBut_landDecoder (n : Nat) (d : Dev) : SameBut [.tooth] d (landDecoder n d) :=
  sameBut_ite (fun _ => sameBut_refl _ d) fun _ =>
    sameBut_ite (fun _ => sameBut_trans (sameBut_updDec d n _) (sameBut_updDecTrk _ n _)) fun _ => sameBut_updDec d n _

theorem sameBut_landTooth (d : Dev) : SameBut [.tooth] d (landTooth d) :=
  sameBut_trans (sameBut_forEach _ sameBut_landDecoder _ d) (sameBut_forEach _ (fun p d => sameBut_updPin d p _) _ _)

theorem landChannels_bare (h : d.ch = {}) : landChannels d = d := by
  have hland : landChannels d = { d with ch := { d.ch with quoinStart := d.ch.quoin, quoinOpened := 0 } } := by
    simp [landChannels, chanKeys, h, forEach]
  rw [hland, h]
  show { d with ch := ({} : Channels) } = d
  rw [← h]

theorem landRegisters_bare (h : Bare d) : landRegisters d = landTooth d := by
  obtain ⟨hch, hcomps, hpairs⟩ := h
  have hc := kept_comps (sameBut_landTooth d) (by decide)
  have hp := kept_br (sameBut_landTooth d) (by decide)
  have hk := kept_ch (sameBut_landTooth d) (by decide)
  simp [landRegisters, landChannels_bare hch, landComps, forEach, chanKeys, hc, hp, hk, hch, hcomps, hpairs]

theorem sameBut_landRegisters (h : Bare d) : SameBut [.tooth] d (landRegisters d) := by
  rw [landRegisters_bare h]
  exact sameBut_landTooth d

/-! ### Settings of decoders, axes and MACs -/

/-- What the settings of decoders and axes change. -/
def frontParts : List Part := [.tooth, .ax, .ic, .ne]

/-- From core `c` to core `e` nothing but the parts `l` of the device has changed. -/
def CoreBut (l : List Part) (c e : Core) : Prop := e.vault = c.vault ∧ SameBut l c.dev e.dev

theorem coreBut_trans {l : List Part} {c e f : Core} (h : CoreBut l c e) (h2 : CoreBut l e f) : CoreBut l c f :=
  ⟨h2.1.trans h.1, sameBut_trans h.2 h2.2⟩

theorem coreBut_mapDev {l : List Part} {f : Dev → Dev} (h : SameBut l c.dev (f c.dev)) : CoreBut l c (c.mapDev f) := ⟨rfl, h⟩

/-- A setting leaves what the register's write leaves, and the decoders take up their registers. -/
theorem setObj_coreBut {l : List Part} {index sub ty a lo len off mn mx v : Nat}
    (ho : coreObj index sub c = some (fieldObj ty a lo len off mn mx)) (hb : Bare c.dev)
    (hp : ∀ u, SameBut l c.dev (regPoke 16 a (setFld (reg c a) lo len u) c.dev)) (ht : Part.tooth ∈ l) (hc : Part.ch ∉ l)
    (hk : Part.comps ∉ l) (hbr : Part.br ∉ l) : CoreBut l c (setObj index sub v c) := by
  have hland : ∀ e : Core, Bare e.dev → CoreBut l e (e.mapDev landRegisters) := fun e he =>
    coreBut_mapDev (sameBut_mono (m := l) (sameBut_landRegisters he) (by simpa using ht))
  have hpoke : ∀ f : Dev → Dev, SameBut l c.dev (f c.dev) → CoreBut l c ((c.mapDev f).mapDev landRegisters) := fun f hf =>
    coreBut_trans (coreBut_mapDev hf) (hland (c.mapDev f) (bare_sameBut hf hc hk hbr hb))
  exact setObj_keeps ho (hland c hb) fun u => hpoke _ (hp u)

theorem sameBut_tdcWrite (n : Nat) (v : W32) (d : Dev) : SameBut [.tooth] d (tdcWrite n v d) := by
  have hen : ∀ d, SameBut [.tooth] d (decoderEnable n d) := fun d =>
    sameBut_ite (fun _ => sameBut_refl _ d) fun _ => sameBut_ite (fun _ => sameBut_updDec d n _) fun _ => sameBut_enabledDecoder n d
  have hdis : ∀ d, SameBut [.tooth] d (decoderDisable n d) := fun d =>
    sameBut_ite (fun _ => sameBut_updDec d n _) fun _ => sameBut_refl _ d
  refine sameBut_trans (sameBut_trans ?_ (sameBut_ite (fun _ => sameBut_decoderClear n _) fun _ => sameBut_refl _ _))
    (sameBut_ite (fun _ => hen _) fun _ => hdis _)
  exact sameBut_ite (fun _ => sameBut_ite (fun _ => sameBut_updDec d n _) fun _ => sameBut_refl _ d) fun _ => sameBut_updDec d n _

theorem setObj_decoder {index sub n ty lo len mn mx v : Nat} (hn : n < 256)
    (ho : coreObj index sub c = some (fieldObj ty (baseCh n + 0x88) lo len 0 mn mx)) (hb : Bare c.dev) :
    CoreBut frontParts c (setObj index sub v c) := by
  refine setObj_coreBut ho hb (fun u => ?_) (by decide) (by decide) (by decide) (by decide)
  rw [regPoke, locate_ch n 0x88 (by omega) (by decide)]
  have hpoke : ∀ w, pokeCh n 0x88 w c.dev = tdcWrite n w c.dev := fun w => by simp [pokeCh, pokeDec, isRemote, hn]
  dsimp only
  rw [hpoke]
  exact sameBut_mono (sameBut_tdcWrite n _ _) (by decide)

theorem sameBut_axCfgWrite_disabled {a : Nat} {w : W32} (h : axEn (d.axis a) = false) : SameBut [.ax, .ic, .ne] d (axCfgWrite a w d) := by
  have hupd : ∀ d f, SameBut [.ax, .ic, .ne] d (d.updAxis a f) := fun d f => sameBut_mono (sameBut_updAxis d a f) (by decide)
  have hen : ∀ d, SameBut [.ax, .ic, .ne] d (axisEnable a d) := fun d =>
    sameBut_ite (fun _ => sameBut_refl _ d) fun _ => sameBut_ite (fun _ => sameBut_axFlag a _ d) fun _ => hupd d _
  unfold axCfgWrite
  dsimp only
  rw [h, if_neg (by decide)]
  exact sameBut_ite (fun _ => sameBut_trans (hupd d _) (hen _)) fun _ => hupd d _

theorem setObj_axis {index sub a ty lo len mn mx v : Nat} (ha : a < 4096)
    (ho : coreObj index sub c = some (fieldObj ty (baseAx a) lo len 0 mn mx)) (hb : Bare c.dev) (he : axEn (c.dev.axis a) = false) :
    CoreBut frontParts c (setObj index sub v c) := by
  refine setObj_coreBut ho hb (fun u => ?_) (by decide) (by decide) (by decide) (by decide)
  have hloc : locate (baseAx a) = some (.ax, a, 0) := locate_ax a 0 ha (by decide)
  rw [regPoke, hloc]
  exact sameBut_mono (sameBut_axCfgWrite_disabled he) (by decide)

/-- MAC 0 disabled, at the speed of its reset, with either interface. -/
def MacOff (d : Dev) : Prop := (d.mac 0).cfg = 0x20000000#32 ∨ (d.mac 0).cfg = 0x60000000#32

theorem macOff_disabled (h : MacOff d) : emEnabled (d.mac 0) = false := by
  rcases h with h | h <;> rw [emEnabled, h] <;> decide

/-- A field of one bit takes the last bit of the value written. -/
theorem setFld_lastBit (w : W32) (lo v : Nat) : setFld w lo 1 v = setFld w lo 1 (v % 2) := by simp [setFld]

/-- EM0_CFG as a setting of the interface or of EN writes it: the speed stays. -/
theorem macOff_word {lo : Nat} (h : MacOff d) (hlo : lo = 30 ∨ lo = 31) (u : Nat) :
    fld (setFld (d.mac 0).cfg lo 1 u) 28 2 = 2 := by
  rw [setFld_lastBit]
  rcases h with h | h <;> rcases hlo with rfl | rfl <;> rcases Nat.mod_two_eq_zero_or_one u with hu | hu <;> rw [h, hu] <;> decide

/-- EM0_CFG as a setting of the interface leaves it. -/
theorem macOff_interface (h : MacOff d) (u : Nat) :
    bit (setFld (d.mac 0).cfg 30 1 u) 31 = false ∧
      (setFld (d.mac 0).cfg 28 3 (fld (setFld (d.mac 0).cfg 30 1 u) 28 3) = 0x20000000#32 ∨
        setFld (d.mac 0).cfg 28 3 (fld (setFld (d.mac 0).cfg 30 1 u) 28 3) = 0x60000000#32) := by
  rw [setFld_lastBit]
  rcases h with h | h <;> rcases Nat.mod_two_eq_zero_or_one u with hu | hu <;> rw [h, hu] <;> decide

theorem emCfgWrite_off {w : W32} (h : MacOff d) (hw : fld w 28 2 = 2) : emCfgWrite 0 w d =
    if bit w 31 then macEnable 0 (d.updMac 0 fun x => { x with cfg := setFld x.cfg 28 3 (fld w 28 3) })
    else d.updMac 0 fun x => { x with cfg := setFld x.cfg 28 3 (fld w 28 3) } := by
  simp [emCfgWrite, macOff_disabled h, hw]

theorem regPoke_em0 (w : W32) (d : Dev) : regPoke 16 0x17000 w d = emCfgWrite 0 w d := rfl
theorem reg_em0 (c : Core) : reg c 0x17000 = (c.dev.mac 0).cfg := rfl

theorem sameBut_emCfgWrite_off {w : W32} (h : MacOff d) (hw : fld w 28 2 = 2) : SameBut [.lk] d (emCfgWrite 0 w d) := by
  rw [emCfgWrite_off h hw]
  exact sameBut_ite (fun _ => sameBut_trans (sameBut_updMac d 0 _) (sameBut_updMac _ 0 _)) fun _ => sameBut_updMac d 0 _

/-- The decoders that the stand-alone settings enable: 0 in quadrature, 2 in index mode (R87). -/
def standTooth : Tooth :=
  { decs := [(0, { cfg := { tdc := 0xD#32 }, on := true }), (2, { cfg := { tdc := 0x15#32 }, on := true })] }

theorem landTooth_stand (h : d.tooth = standTooth) : landTooth d = d := by
  have h0 : landDecoder 0 d = d := if_pos (by rw [Dev.dec, h]; rfl)
  have h2 : landDecoder 2 d = d := if_pos (by rw [Dev.dec, h]; rfl)
  unfold landTooth
  rw [h]
  simp [standTooth, forEach, h0, h2]

/-- A setting of MAC 0 with the stand-alone decoders in force leaves all but the links. -/
theorem setObj_mac {index sub ty lo mn mx v : Nat} (ho : coreObj index sub c = some (fieldObj ty 0x17000 lo 1 0 mn mx)) (hb : Bare c.dev)
    (ht : c.dev.tooth = standTooth) (hm : MacOff c.dev) (hlo : lo = 30 ∨ lo = 31) : CoreBut [.lk] c (setObj index sub v c) := by
  have hland : ∀ f : Dev → Dev, SameBut [.lk] c.dev (f c.dev) → CoreBut [.lk] c ((c.mapDev f).mapDev landRegisters) := by
    intro f hf
    have hid : landRegisters (f c.dev) = f c.dev := by
      rw [landRegisters_bare (bare_sameBut hf (by decide) (by decide) (by decide) hb),
        landTooth_stand ((kept_tooth hf (by decide)).trans ht)]
    refine coreBut_mapDev (c := c) (f := fun d => landRegisters (f d)) ?_
    rw [hid]
    exact hf
  refine setObj_keeps ho (hland id (sameBut_refl _ _)) fun u => hland _ ?_
  rw [regPoke_em0, reg_em0]
  exact sameBut_emCfgWrite_off hm (macOff_word hm hlo u)

/-- A setting of the interface leaves MAC 0 disabled. -/
theorem setObj_interface {v : Nat} (hb : Bare c.dev) (hm : MacOff c.dev) : MacOff (setObj 0x1110 0x02 v c).dev := by
  have hland : ∀ e : Core, Bare e.dev → MacOff e.dev → MacOff (e.mapDev landRegisters).dev := by
    intro e he hoff
    show MacOff (landRegisters e.dev)
    rw [MacOff, kept_mac (sameBut_landRegisters he) (by decide)]
    exact hoff
  refine setObj_keeps (P := fun e => MacOff e.dev) (ty := tyU8) (a := 0x17000) (lo := 30) (len := 1) (off := 0) (mn := 0) (mx := 1)
    rfl (hland c hb hm) fun u => hland _ ?_ ?_
  · rw [reg_em0]
    exact bare_sameBut (sameBut_emCfgWrite_off hm (macOff_word hm (.inl rfl) u)) (by decide) (by decide) (by decide) hb
  · obtain ⟨hoff, hcfg⟩ := macOff_interface hm u
    rw [reg_em0]
    show MacOff (regPoke 16 0x17000 _ c.dev)
    rw [regPoke_em0, emCfgWrite_off hm (macOff_word hm (.inl rfl) u), hoff, if_neg (by decide), MacOff, updMac_same]
    exact hcfg

end

/-! ### The stand-alone settings (R395) -/

/-- The MACs with their addresses. -/
def macAddressed (d : Dev) : Dev := forEach [0, 1, 2, 3] (fun m d => d.updMac m fun x => { x with addr := Config.macAddress m }) d

/-- The core as BOOT takes it up: addresses of the MACs and levels at the straps. -/
def bootStart (strap : BitVec 4) (xt32 : Bool) : Core :=
  State.reset.core.mapDev fun d =>
    let d1 := macAddressed d
    { d1 with
      ds := { d1.ds with flash := d.ds.flash }
      pw := { d1.pw with inReset := none, ordered := none, supplyLow := false, strap := strap, strapBalls := strap, xt32 := xt32 } }

/-- R87: decoder 0 in quadrature, decoder 2 in index mode. -/
def standDecoders (c : Core) : Core :=
  setObj 0x3002 0x4B 1 (setObj 0x3002 0x43 5 (setObj 0x3000 0x4B 1 (setObj 0x3000 0x43 3 c)))

/-- R117: axis 0 before it is enabled. -/
def standAxisReference (c : Core) : Core := setObj 0x4000 0x03 2 c
def standAxisDisabled (c : Core) : Core := setObj 0x4000 0x0B 0 (standAxisReference c)
def standAxis (c : Core) : Core := setObj 0x4000 0x01 1 (standAxisDisabled c)

/-- R376: MAC 0. -/
def standMac (strap : BitVec 4) (c : Core) : Core := setObj 0x1110 0x01 1 (setObj 0x1110 0x02 (if strap.getLsbD 3 then 1 else 0) c)

/-- R186: the channels that emulate, where CFG_REPEAT is high. -/
def standEmulation (c : Core) : Core :=
  setObj 0x3004 0x0C 0xC00A0000 ([0x3004, 0x3005, 0x3006].foldl (fun c i => setObj i 0x01 1 (setObj i 0x0B 0x10 c)) c)

theorem standAlone_eq (strap : BitVec 4) (c : Core) : standAlone strap c =
    if strap.getLsbD 2 then standEmulation (standMac strap (standAxis (standDecoders c)))
    else standMac strap (standAxis (standDecoders c)) := rfl

/-- Decoders and interrupts as R87 and R312 give them, and no field port, head or long operation touched. -/
def Quiet (d : Dev) : Prop := d.tooth = standTooth ∧ d.ic = {} ∧ d.fps = [] ∧ d.heads = [] ∧ d.lo = {}

/-- The settings of the decoders and axis 0, evaluated. -/
theorem standAxis_evaluated : ∀ (strap : BitVec 4) (xt32 : Bool),
    let c := standDecoders (bootStart strap xt32)
    axEn (c.dev.axis 0) = false ∧ axEn ((standAxisReference c).dev.axis 0) = false ∧ axEn ((standAxisDisabled c).dev.axis 0) = false ∧
      (standAxis c).dev.tooth = standTooth ∧ (standAxis c).dev.ic = {} := by decide +kernel

/-- The emulation's channels set over the links that MAC 0's settings leave, evaluated. -/
theorem standEmulation_evaluated : ∀ (strap : BitVec 4) (xt32 : Bool), strap.getLsbD 2 = true →
    let c := standAxis (standDecoders (bootStart strap xt32))
    Quiet (standEmulation (c.mapDev fun d => { d with lk := (standMac strap c).dev.lk })).dev := by
  unfold Quiet
  decide +kernel

theorem bare_coreBut {c e : Core} (h : CoreBut frontParts c e) (hb : Bare c.dev) : Bare e.dev :=
  bare_sameBut h.2 (by decide) (by decide) (by decide) hb

theorem coreBut_standDecoders {c : Core} (hb : Bare c.dev) : CoreBut frontParts c (standDecoders c) := by
  have h1 : CoreBut frontParts c (setObj 0x3000 0x43 3 c) := setObj_decoder (n := 0) (by decide) rfl hb
  have h2 : CoreBut frontParts _ (setObj 0x3000 0x4B 1 (setObj 0x3000 0x43 3 c)) :=
    setObj_decoder (n := 0) (by decide) rfl (bare_coreBut h1 hb)
  have h12 := coreBut_trans h1 h2
  have h3 : CoreBut frontParts _ (setObj 0x3002 0x43 5 (setObj 0x3000 0x4B 1 (setObj 0x3000 0x43 3 c))) :=
    setObj_decoder (n := 2) (by decide) rfl (bare_coreBut h12 hb)
  have h123 := coreBut_trans h12 h3
  exact coreBut_trans h123 (setObj_decoder (n := 2) (by decide) rfl (bare_coreBut h123 hb))

theorem coreBut_standAxis {c : Core} (hb : Bare c.dev) (h0 : axEn (c.dev.axis 0) = false)
    (h1 : axEn ((standAxisReference c).dev.axis 0) = false) (h2 : axEn ((standAxisDisabled c).dev.axis 0) = false) :
    CoreBut frontParts c (standAxis c) := by
  have ha : CoreBut frontParts c (standAxisReference c) := setObj_axis (a := 0) (by decide) rfl hb h0
  have hc : CoreBut frontParts c (standAxisDisabled c) :=
    coreBut_trans ha (setObj_axis (a := 0) (by decide) rfl (bare_coreBut ha hb) h1)
  exact coreBut_trans hc (setObj_axis (a := 0) (by decide) rfl (bare_coreBut hc hb) h2)

/-- A device that differs in its links alone is the old one with the new links. -/
theorem eq_of_sameBut_lk {d e : Dev} (h : SameBut [.lk] d e) : e = { d with lk := e.lk } := by
  have k : ∀ b : Part, b ≠ .lk → b.Same ⟨{}, d⟩ ⟨{}, e⟩ := fun b hb => h {} b (by simpa using hb)
  rcases d
  rcases e
  simp only [Dev.mk.injEq]
  exact ⟨k .free nofun, k .polled nofun, k .ic nofun, k .ch nofun, k .tooth nofun, k .br nofun, k .ax nofun, k .gl nofun, k .gs nofun,
    k .chases nofun, k .tick nofun, k .load nofun, k .tb nofun, k .so nofun, k .ptp nofun, k .comps nofun, k .ne nofun, k .ctxs nofun,
    k .lanes nofun, k .store nofun, k .trace nofun, k .mem nofun, k .heads nofun, k .fps nofun, k .sec nofun, k .hi nofun, k .ds nofun,
    k .lo nofun, k .fm nofun, k .pw nofun, k .ecc nofun, k .jtag nofun, trivial⟩

theorem eq_of_coreBut_lk {c e : Core} (h : CoreBut [.lk] c e) : e = c.mapDev fun d => { d with lk := e.dev.lk } := by
  obtain ⟨hvault, hdev⟩ := h
  show e = ⟨c.vault, { c.dev with lk := e.dev.lk }⟩
  rw [← eq_of_sameBut_lk hdev, ← hvault]

/-- The settings of MAC 0 leave all but the links. -/
theorem coreBut_standMac {c : Core} {strap : BitVec 4} (hb : Bare c.dev) (ht : c.dev.tooth = standTooth) (hm : MacOff c.dev) :
    CoreBut [.lk] c (standMac strap c) := by
  have h1 : CoreBut [.lk] c (setObj 0x1110 0x02 (if strap.getLsbD 3 then 1 else 0) c) := setObj_mac rfl hb ht hm (.inl rfl)
  exact coreBut_trans h1 (setObj_mac rfl (bare_sameBut h1.2 (by decide) (by decide) (by decide) hb)
    ((kept_tooth h1.2 (by decide)).trans ht) (setObj_interface hb hm) (.inr rfl))

theorem macAddressed_mac0 (d : Dev) : (macAddressed d).mac 0 = { d.mac 0 with addr := Config.macAddress 0 } := by
  have hmac : ∀ (d : Dev) (m : Nat) (f : Mac → Mac), 0 ≠ m → (d.updMac m f).mac 0 = d.mac 0 := fun d m f h => updMac_other d m 0 f h
  simp only [macAddressed, forEach, List.foldl]
  rw [hmac _ 3 _ (by decide), hmac _ 2 _ (by decide), hmac _ 1 _ (by decide), updMac_same]

theorem bootStart_macOff (strap : BitVec 4) (xt32 : Bool) : MacOff (bootStart strap xt32).dev :=
  .inl (congrArg Mac.cfg (macAddressed_mac0 {}))

theorem bootStart_bare (strap : BitVec 4) (xt32 : Bool) : Bare (bootStart strap xt32).dev := ⟨rfl, rfl, rfl⟩

/-- Whatever the straps say, the stand-alone settings leave the interrupts, ports and heads at rest. -/
theorem standAlone_quiet (strap : BitVec 4) (xt32 : Bool) : Quiet (standAlone strap (bootStart strap xt32)).dev := by
  obtain ⟨h0, h1, h2, htooth, hic⟩ := standAxis_evaluated strap xt32
  have hfront := coreBut_trans (coreBut_standDecoders (bootStart_bare strap xt32))
    (coreBut_standAxis (bare_coreBut (coreBut_standDecoders (bootStart_bare strap xt32)) (bootStart_bare strap xt32)) h0 h1 h2)
  have hbare := bare_coreBut hfront (bootStart_bare strap xt32)
  have hoff : MacOff (standAxis (standDecoders (bootStart strap xt32))).dev := by
    rw [MacOff, kept_mac hfront.2 (by decide)]
    exact bootStart_macOff strap xt32
  have hmac := coreBut_standMac (strap := strap) hbare htooth hoff
  rw [standAlone_eq]
  by_cases hrepeat : strap.getLsbD 2 = true
  · rw [if_pos hrepeat, eq_of_coreBut_lk hmac]
    exact standEmulation_evaluated strap xt32 hrepeat
  · rw [if_neg hrepeat]
    exact ⟨(kept_tooth hmac.2 (by decide)).trans htooth, (kept_ic hmac.2 (by decide)).trans hic,
      (kept_fps hmac.2 (by decide)).trans (kept_fps hfront.2 (by decide)),
      (kept_heads hmac.2 (by decide)).trans (kept_heads hfront.2 (by decide)),
      (kept_lo hmac.2 (by decide)).trans (kept_lo hfront.2 (by decide))⟩

/-! ### The boot order with a blank flash -/

/-- No object, image or patch stands in a blank flash. -/
theorem boot_blank (strap : BitVec 4) (xt32 : Bool) (us : Nat) : ∃ warm, boot strap xt32 none us State.reset.core =
    (standAlone strap (bootStart strap xt32)).mapDev fun d => release us warm (settleDomain d) := by
  cases h : flashRead strap <;> exact ⟨_, by simp only [boot, h]; rfl⟩

/-- No enumeration begins where no field port is known. -/
theorem enumStarts_noPorts {d : Dev} (l : List Nat) (h : d.fps = []) :
    forEach l (fun p d => if fpEn (d.fp p) then enumStart p d else d) d = d := by
  have hp : ∀ p, fpEn (d.fp p) = false := by
    intro p
    rw [Dev.fp, h, bank_get_nil]
    decide
  induction l with
  | nil => rfl
  | cons p l ih => simpa [forEach, hp] using ih

/-- The device as BOOT releases it, with its pins in operation. -/
def released (us : Nat) (warm : Bool) (d : Dev) : Dev := { d with pw := { d.pw with
  boot := 5, coreUp := true, frozen := none, bootTime := BitVec.ofNat 32 us
  restartTime := if warm then BitVec.ofNat 32 us else d.pw.restartTime } }

theorem release_noPorts {d : Dev} (us : Nat) (warm : Bool) (h : d.fps = []) : release us warm d =
    { released us warm d with lo := { d.lo with enum := { d.lo.enum with boot := true } } } :=
  congrArg (fun e : Dev => { e with lo := { e.lo with enum := { e.lo.enum with boot := true } } })
    (enumStarts_noPorts (d := released us warm d) (List.range 64) h)

/-- What BOOT leaves of a quiet device: the boot's end, and the decoders, the interrupts, the ports and the heads at rest. -/
theorem booted_quiet {d : Dev} (us : Nat) (warm : Bool) (hq : Quiet d) :
    let e := release us warm (settleDomain d)
    e.pw.boot = 5 ∧ e.pw.coreUp = true ∧ e.tooth = standTooth ∧ e.ic = {} ∧ e.fps = [] ∧ e.heads = [] ∧ e.lo.enum.op.state = 0 := by
  obtain ⟨htooth, hic, hfps, hheads, hlo⟩ := hq
  dsimp only
  rw [release_noPorts us warm (show (settleDomain d).fps = [] from hfps)]
  exact ⟨rfl, rfl, htooth, hic, hfps, hheads, congrArg (fun l : LongOps => l.enum.op.state) hlo⟩

/-- Beside 0 and 2 the stand-alone settings enable no decoder. -/
theorem standTooth_other {n : Nat} (h0 : n ≠ 0) (h2 : n ≠ 2) : decEn (Bank.get {} standTooth.decs n) = false := by
  have hn : Bank.get ({} : Decoder) standTooth.decs n = {} := by
    simp [standTooth, Bank.get, h0.symm, h2.symm]
  rw [hn]
  decide

/-! ### Reset -/

theorem interlocked_reset : Interlocked State.reset := by
  intro n
  show ¬(({} : Pair).high.on = true ∧ ({} : Pair).low.on = true) ∧
    (({} : Pair).state = .tripped → ({} : Pair).high.on = false ∧ ({} : Pair).low.on = false)
  decide

theorem fusedAs_reset : FusedAs 0 none State.reset := ⟨Nat.zero_le _, nofun⟩

theorem chan_reset (n : Nat) : chEn (State.reset.core.dev.chOut n) = false ∧ (State.reset.core.dev.chOut n).cmpr = 0xFFFFFFFF#32 ∧
    (State.reset.core.dev.chCnt n).cnt = 0 := by
  show chEn ({} : ChanOut) = false ∧ ({} : ChanOut).cmpr = 0xFFFFFFFF#32 ∧ ({} : ChanCnt).cnt = 0
  decide

theorem axis_reset (a : Nat) : axEn (State.reset.core.dev.axis a) = false := by
  show axEn ({} : Axis) = false
  decide

/-! ### The statement -/

/-- BOOT of the reset state with a blank flash. -/
theorem boot_reset (strap : BitVec 4) (xt32 : Bool) (us : Nat) : ∃ t, exec (.boot strap xt32 none us) State.reset = .next t ∧
    t.core.dev.pw.boot = 5 ∧ t.core.dev.pw.coreUp = true ∧ t.core.dev.tooth = standTooth ∧ t.core.dev.ic = {} ∧
    t.core.dev.fps = [] ∧ t.core.dev.heads = [] ∧ t.core.dev.lo.enum.op.state = 0 := by
  obtain ⟨warm, hboot⟩ := boot_blank strap xt32 us
  have hx : exec (.boot strap xt32 none us) State.reset =
      .next { State.reset with core := boot strap xt32 none us State.reset.core } := onCore_ok _ _
  rw [hboot] at hx
  exact ⟨_, hx, booted_quiet us warm (standAlone_quiet strap xt32)⟩

/-- Settles O58: at reset by the state's own values; after BOOT by the stand-alone settings, evaluated where they are settings of
decoders, the axis and the emulation, and by the frame of MAC 0's, whose address is the build's. -/
theorem resetAndBlankBoot : Obligations.ResetAndBlankBoot := by
  unfold Obligations.ResetAndBlankBoot
  refine ⟨rfl, rfl, rfl, rfl, rfl, rfl, chan_reset, axis_reset, fun _ => ⟨rfl, rfl, rfl⟩, fun _ => rfl, fun _ _ => rfl, fun _ => rfl,
    rfl, rfl, rfl, rfl, rfl, interlocked_reset, fusedAs_reset, fun _ _ => rfl, fun strap xt32 us => ?_⟩
  obtain ⟨t, hx, hboot, hup, htooth, hic, hfps, hheads, henum⟩ := boot_reset strap xt32 us
  have hdec : ∀ n, t.core.dev.dec n = Bank.get {} standTooth.decs n := fun n => by rw [Dev.dec, htooth]
  refine ⟨t, hx, hboot, hup, ?_, ?_, ?_, ?_, ?_, ?_, ?_, ?_, fun n h0 h2 => ?_, fun n => ?_, fun k => ?_, by rw [hic], fun p => ?_,
    fun h => ?_, henum⟩
  case refine_9 =>
    rw [hdec]
    exact standTooth_other h0 h2
  case refine_10 =>
    rw [Dev.source, hic, bank_get_nil]
    decide
  case refine_11 =>
    rw [winner, hic]
    rfl
  case refine_12 =>
    rw [Dev.fp, hfps, bank_get_nil]
    decide
  case refine_13 =>
    rw [Dev.head, hheads, bank_get_nil]
    decide
  all_goals
    rw [hdec]
    decide

end Sys2Proof.Proofs
end

section
/-! SUPPORT. What an event leaves of its axis: a flag, a disturbance, SYNC_LOST, COASTING, the count of a ghost (R96, R104, R108, R148). -/

namespace Sys2Proof.Proofs

open Sys2Proof Sys2Proof.Machine Sys2Proof.Laws

variable (a b : Nat) (d : Dev) (f : Axis → Axis)

/-! ### Flags and disturbances -/

theorem disturb_axis_same (kind : PolicyKind) :
    (disturb kind a d).axis a = { d.axis a with st := { (d.axis a).st with policyBusy := true } } := by
  obtain ⟨p, hp, hbusy⟩ := disturb_axis kind a a d
  rw [hp, hbusy rfl]

/-- An event that changes its axis and flags it leaves the other axes. -/
theorem flagged_axis_other {c : Nat} (h : c ≠ a) : (axFlag a b (d.updAxis a f)).axis c = d.axis c := by
  rw [axFlag_axis_other _ _ _ _ h, updAxis_other _ _ _ _ h]

theorem flagged_axis_same : (axFlag a b (d.updAxis a f)).axis a =
    { f (d.axis a) with st := { (f (d.axis a)).st with stat := orBit (f (d.axis a)).st.stat b } } := by
  rw [axFlag_axis_same, updAxis_same]

/-- An event that changes its axis, flags it and disturbs it. -/
theorem disturbed_axis_same (kind : PolicyKind) : (disturb kind a (axFlag a b (d.updAxis a f))).axis a =
    { f (d.axis a) with st := { (f (d.axis a)).st with stat := orBit (f (d.axis a)).st.stat b, policyBusy := true } } := by
  rw [disturb_axis_same, flagged_axis_same]

theorem sameBut_disturbedAxis (kind : PolicyKind) : SameBut [.ax, .chases] d (disturb kind a (d.updAxis a f)) :=
  sameBut_then (sameBut_disturb _ _ _) (by decide) (sameBut_mono (sameBut_updAxis d a f) (by decide))

theorem sameBut_flaggedAxis : SameBut [.ax, .ic, .ne] d (axFlag a b (d.updAxis a f)) :=
  sameBut_then (sameBut_axFlag _ _ _) (by decide) (sameBut_mono (sameBut_updAxis d a f) (by decide))

/-! ### SEARCH and SYNC_LOST entered -/

/-- An axis in SEARCH: invalid, without a model (R108, R109). -/
def Searching (x : Axis) : Prop := x.st.sync = .search ∧ x.st.valid = false ∧ x.st.model = false

/-- The axis `y` has lost its sync, which it had as `x` (R104, R108). -/
def LostFrom (x y : Axis) : Prop :=
  y.st.sync = .syncLost ∧ y.st.model = false ∧ y.st.lostc = incSat x.st.lostc ∧ y.st.policyBusy = true ∧ y.trk.c = x.trk.c

/-- SYNC_LOST leaves the count where it was, whether the axis is halted as a physical one or not. -/
theorem enterLost_lostFrom : LostFrom (d.axis a) ((enterLost a d).axis a) := by
  rw [enterLost, disturbed_axis_same]
  refine ⟨rfl, rfl, rfl, rfl, ?_⟩
  dsimp only
  split <;> rfl

/-! ### COASTING entered -/

theorem enterCoast_axis_same : ((enterCoast a d).axis a).st.sync = .coasting ∧ bit ((enterCoast a d).axis a).st.stat 13 = true := by
  rw [enterCoast, flagged_axis_same]
  exact ⟨rfl, bit_orBit_same _ 13 (by decide)⟩

/-! ### The count of a tooth or a ghost (R96) -/

section
variable (x : Axis) (s p : Time64)

@[simp] theorem withWindows_st : (withWindows x s p).st = x.st := rfl
@[simp] theorem withWindows_c : (withWindows x s p).trk.c = x.trk.c := rfl
@[simp] theorem withWindows_anchorT : (withWindows x s p).trk.anchorT = x.trk.anchorT := rfl

end

/-- The count moves by the span in the axis's direction, and the anchor is at the stamp; the status stays. -/
theorem acceptAt_axis_same (s : Time64) (ghost : Bool) :
    ((acceptAt a s ghost d).axis a).st = (d.axis a).st ∧
    ((acceptAt a s ghost d).axis a).trk.c = (if (d.axis a).st.dir then (d.axis a).trk.c - (d.axis a).trk.span
      else (d.axis a).trk.c + (d.axis a).trk.span) ∧
    ((acceptAt a s ghost d).axis a).trk.anchorT = s := by
  unfold acceptAt
  dsimp only
  rw [updAxis_same]
  split
  · exact ⟨withWindows_st .., withWindows_c .., withWindows_anchorT ..⟩
  · exact ⟨rfl, rfl, rfl⟩

theorem acceptAt_axis_other (s : Time64) (ghost : Bool) {c : Nat} (h : c ≠ a) : (acceptAt a s ghost d).axis c = d.axis c :=
  updAxis_other _ _ _ _ h

theorem sameBut_acceptAtAxis (s : Time64) (ghost : Bool) : SameBut [.ax] d (acceptAt a s ghost d) := sameBut_updAxis d a _

/-! ### The commands -/

section
variable {a : Nat} {s : State} (h : isAxis a = true)
include h

theorem exec_axisEnable : exec (.axisEnable a) s = whenLiveDev true (axisEnable a) s :=
  congrArg (fun ok => whenLiveDev ok (axisEnable a) s) h
theorem exec_axisDisable : exec (.axisDisable a) s = whenLiveDev true (axisDisable a) s :=
  congrArg (fun ok => whenLiveDev ok (axisDisable a) s) h
theorem exec_resync : exec (.resync a) s = whenLiveDev true (resync a) s :=
  congrArg (fun ok => whenLiveDev ok (resync a) s) h
theorem exec_ghost : exec (.ghost a) s = whenLiveDev true (ghostDue a) s :=
  congrArg (fun ok => whenLiveDev ok (ghostDue a) s) h
theorem exec_stopped : exec (.stopped a) s = whenLiveDev true (stopAxis a) s :=
  congrArg (fun ok => whenLiveDev ok (stopAxis a) s) h
theorem exec_aoqSeed : exec (.aoqSeed a) s = whenLiveDev true (aoqSeed a) s :=
  congrArg (fun ok => whenLiveDev ok (aoqSeed a) s) h
theorem exec_remoteMiss : exec (.remoteMiss a) s = whenLiveDev true (remoteMiss a) s :=
  congrArg (fun ok => whenLiveDev ok (remoteMiss a) s) h
theorem exec_coastLimit : exec (.coastLimit a) s = whenLiveDev true (coastLimit a) s :=
  congrArg (fun ok => whenLiveDev ok (coastLimit a) s) h
theorem exec_coastMax : exec (.coastMax a) s = whenLiveDev true (coastMax a) s :=
  congrArg (fun ok => whenLiveDev ok (coastMax a) s) h

end

end Sys2Proof.Proofs
end

section
/-! O23: enabling, disabling and resynchronising an axis (R108, R115, R148). -/

namespace Sys2Proof.Proofs

open Sys2Proof Sys2Proof.Machine Sys2Proof.Laws

variable {a : Nat} {d : Dev}

/-- An accepted enable is a change of the axis alone: it searches, and its count stays. -/
theorem axisEnable_accepted (he : axEn (d.axis a) = false) (hr : axisRefused d a = false) :
    ∃ f, axisEnable a d = d.updAxis a f ∧ ∀ x, axEn (f x) = true ∧ Searching (f x) ∧ (f x).trk.c = x.trk.c := by
  refine ⟨_, (if_neg (by rw [he]; decide)).trans (if_neg (by rw [hr]; decide)), fun x => ⟨?_, ⟨rfl, rfl, rfl⟩, rfl⟩⟩
  exact bit_orBit_same _ 31 (by decide)

theorem axisEnable_refused (he : axEn (d.axis a) = false) (hr : axisRefused d a = true) : axisEnable a d = axFlag a 19 d := by
  simp [axisEnable, he, hr]

theorem axisDisable_enabled (he : axEn (d.axis a) = true) : axisDisable a d =
    disturb .disabled a (d.updAxis a fun x => { toSearch x with cfg := { (toSearch x).cfg with cfg := clrBit (toSearch x).cfg.cfg 31 } }) :=
  if_pos he

theorem resync_disturbs (he : axEn (d.axis a) = true) (hk : axKind (d.axis a) ≠ 2) :
    resync a d = disturb .resync a (d.updAxis a toSearch) := by
  simp [resync, he, hk]

theorem resync_idle (h : axEn (d.axis a) = true ∧ axKind (d.axis a) = 2 ∨ axEn (d.axis a) = false) : resync a d = d := by
  rcases h with ⟨_, hk⟩ | he
  · simp [resync, hk]
  · simp [resync, he]

/-- Settles O23: an enable by whether it is refused, a disable and a RESYNC as disturbances of an axis brought to SEARCH, and a
RESYNC of a virtual or disabled axis as one that leaves the device. -/
theorem axisEnableAndSearch : Obligations.AxisEnableAndSearch := by
  intro s a ha hl
  refine ⟨fun he hr => ?_, fun he hr => ?_, fun he => ?_, fun he hk => ?_, fun h => exec_idle (exec_resync ha) (resync_idle h)⟩
  · obtain ⟨f, hf, hx⟩ := axisEnable_accepted he hr
    obtain ⟨hen, ⟨hsync, hvalid, hmodel⟩, hc⟩ := hx (s.core.dev.axis a)
    refine runs_to hl (exec_axisEnable ha) hf (sameBut_updAxis _ a f) ?_
    dsimp only
    rw [updAxis_same]
    exact ⟨hen, hsync, hvalid, hmodel, hc, rfl, fun b hb => updAxis_other _ a b f hb⟩
  · refine runs_to hl (exec_axisEnable ha) (axisEnable_refused he hr) (sameBut_axFlag a 19 _) ?_
    dsimp only
    rw [axFlag_axis_same]
    exact ⟨he, bit_orBit_same _ 19 (by decide), fun b hb => axFlag_axis_other a 19 b _ hb⟩
  · refine runs_to hl (exec_axisDisable ha) (axisDisable_enabled he) (sameBut_disturbedAxis a _ _ _) ?_
    dsimp only
    rw [disturb_axis_same, updAxis_same]
    exact ⟨bit_clrBit_same _ 31, rfl, rfl⟩
  · refine runs_to hl (exec_resync ha) (resync_disturbs he hk) (sameBut_disturbedAxis a _ _ _) ?_
    dsimp only
    rw [disturb_axis_same, updAxis_same]
    exact ⟨he, rfl, rfl, rfl⟩

end Sys2Proof.Proofs
end

section
/-! O24: ghost teeth (R102, R104). -/

namespace Sys2Proof.Proofs

open Sys2Proof Sys2Proof.Machine Sys2Proof.Laws

variable {a : Nat} {d : Dev}

/-- The decision about the ghost of this deadline has been taken, and no tooth waits for it. -/
def ghostDecided (x : Axis) : Axis := { x with trk := { x.trk with held := [], decided := true } }

@[simp] theorem ghostDecided_st (x : Axis) : (ghostDecided x).st = x.st := rfl

/-- The ghost of a LOCKED axis: accepted at the predicted time, counted and flagged (R102). -/
def withGhost (a : Nat) (d : Dev) : Dev :=
  axFlag a 10 ((acceptAt a (d.axis a).trk.predict true (d.updAxis a ghostDecided)).updAxis a fun x => { x with
    st := { x.st with sync := .ghosted, ghostc := incSat x.st.ghostc }
    trk := { x.trk with ghostDl := (d.axis a).trk.deadline, lastTooth := d.tb.tclk } })

theorem sameBut_withGhost (a : Nat) (d : Dev) : SameBut [.ax, .ic, .ne] d (withGhost a d) :=
  sameBut_trans (sameBut_mono (sameBut_trans (sameBut_updAxis d a _) (sameBut_acceptAtAxis a _ _ _)) (by decide))
    (sameBut_flaggedAxis a 10 _ _)

theorem withGhost_axis_same (a : Nat) (d : Dev) :
    ((withGhost a d).axis a).st.sync = .ghosted ∧ ((withGhost a d).axis a).st.ghostc = incSat (d.axis a).st.ghostc ∧
    ((withGhost a d).axis a).trk.c = (if (d.axis a).st.dir then (d.axis a).trk.c - (d.axis a).trk.span
      else (d.axis a).trk.c + (d.axis a).trk.span) ∧
    ((withGhost a d).axis a).trk.anchorT = (d.axis a).trk.predict ∧
    ((withGhost a d).axis a).trk.ghostDl = (d.axis a).trk.deadline ∧ bit ((withGhost a d).axis a).st.stat 10 = true := by
  have haccept := acceptAt_axis_same a (d.updAxis a ghostDecided) (d.axis a).trk.predict true
  rw [updAxis_same] at haccept
  obtain ⟨hst, hc, hanchor⟩ := haccept
  rw [withGhost, flagged_axis_same]
  refine ⟨rfl, ?_, hc, hanchor, rfl, bit_orBit_same _ 10 (by decide)⟩
  dsimp only
  rw [hst, ghostDecided_st]

theorem withGhost_axis_other {b : Nat} (h : b ≠ a) : (withGhost a d).axis b = d.axis b := by
  rw [withGhost, flagged_axis_other _ _ _ _ h, acceptAt_axis_other _ _ _ _ h, updAxis_other _ _ _ _ h]

theorem sameBut_lostAfterGhost (a : Nat) (d : Dev) : SameBut [.ax, .chases, .ic, .ne] d (enterLost a (d.updAxis a ghostDecided)) :=
  sameBut_trans (sameBut_mono (sameBut_updAxis d a _) (by decide)) (sameBut_enterLost a _)

/-! ### The cases of a missing tooth, with no tooth held -/

section
variable (hh : (d.axis a).trk.held = [])
include hh

theorem ghostDue_locked (hr : ghostReady (d.axis a) = true) (hs : (d.axis a).st.sync = .locked) : ghostDue a d = withGhost a d := by
  unfold ghostDue
  dsimp only
  rw [hr, hs, hh]
  rfl

theorem ghostDue_ghosted (hr : ghostReady (d.axis a) = true) (hs : (d.axis a).st.sync = .ghosted) :
    ghostDue a d = enterLost a (d.updAxis a ghostDecided) := by
  unfold ghostDue
  dsimp only
  rw [hr, hs, hh]
  rfl

theorem ghostDue_none (h : ghostReady (d.axis a) = false ∨ (d.axis a).st.sync ≠ .locked ∧ (d.axis a).st.sync ≠ .ghosted) :
    ghostDue a d = d.updAxis a ghostDecided := by
  unfold ghostDue
  dsimp only
  rw [hh]
  rcases h with hr | ⟨hlocked, hghosted⟩
  · rw [hr]
    rfl
  · split
    · rfl
    · split
      · exact absurd ‹_› hlocked
      · exact absurd ‹_› hghosted
      · rfl

end

/-- Settles O24: GHOST by the conditions of a ghost and by the sync state that it finds. -/
theorem ghostTeeth : Obligations.GhostTeeth := by
  intro s a ha hl hh
  have hx := exec_ghost (s := s) ha
  refine ⟨fun hr hs => ?_, fun hr hs => ?_, fun h => ?_⟩
  · obtain ⟨hsync, hghostc, hc, hanchor, hdl, hstat⟩ := withGhost_axis_same a s.core.dev
    exact runs_to hl hx (ghostDue_locked hh hr hs) (sameBut_withGhost a _)
      ⟨hsync, hghostc, hc, hanchor, hdl, hstat, fun b hb => withGhost_axis_other hb⟩
  · refine runs_to hl hx (ghostDue_ghosted hh hr hs) (sameBut_lostAfterGhost a _) ?_
    have hlost := enterLost_lostFrom a (s.core.dev.updAxis a ghostDecided)
    rw [updAxis_same] at hlost
    exact hlost
  · refine runs_to hl hx (ghostDue_none hh h) (sameBut_updAxis _ a _) ?_
    dsimp only
    rw [updAxis_same]
    exact ⟨rfl, rfl, fun b hb => updAxis_other _ a b _ hb⟩

end Sys2Proof.Proofs
end

section
/-! O25: standstill, the seed of an always-on counter, COASTING and its loss (R107, R108, R110). -/

namespace Sys2Proof.Proofs

open Sys2Proof Sys2Proof.Machine Sys2Proof.Laws

variable {a : Nat} {d : Dev}

/-! ### STOPPED (R107) -/

theorem stopAxis_idle (h : (d.axis a).st.stopped = true) : stopAxis a d = d := by
  simp [stopAxis, h]

/-- STOPPED is a change of the axis that flags and disturbs it: no model, the count and the direction as they were. -/
theorem stopAxis_moving (he : axEn (d.axis a) = true) (hk : axKind (d.axis a) = 0) (h : (d.axis a).st.stopped = false) :
    ∃ f, stopAxis a d = disturb .stopped a (axFlag a 7 (d.updAxis a f)) ∧ ∀ x, (f x).st.stopped = true ∧
      (f x).st.sync = (if x.st.sync = .locked ∨ x.st.sync = .ghosted then .locking else x.st.sync) ∧
      (f x).trk.m = x.trk.m ∧ (f x).st.model = false ∧ (f x).st.dir = x.st.dir :=
  ⟨_, if_pos (by simp [he, hk, h]), fun _ => ⟨rfl, rfl, rfl, rfl, rfl⟩⟩

theorem sameBut_stoppedAxis (f : Axis → Axis) : SameBut lossParts d (disturb .stopped a (axFlag a 7 (d.updAxis a f))) :=
  sameBut_then (sameBut_disturb _ _ _) (by decide) (sameBut_mono (sameBut_flaggedAxis a 7 d f) (by decide))

/-! ### AOQ_SEED (R110) -/

/-- The counter that seeds an axis. -/
def seedCounter (d : Dev) (a : Nat) : Aoq := d.aoq (fld (d.axis a).cfg.cfg 23 2)

/-- Without a seed to come nothing moves. -/
theorem aoqSeed_idle (h : (d.axis a).st.seeding = false) : aoqSeed a d = d := by
  simp [aoqSeed, h]

/-- The counter has been read, whatever it gave. -/
def seedTaken (x : Axis) : Axis := { x with st := { x.st with seeding := false } }

section
variable (he : axEn (d.axis a) = true) (hseed : (d.axis a).st.seeding = true) (hfeed : feedingDecoder d a = none)
include he hseed hfeed

theorem aoqSeed_faulted (herr : bit (seedCounter d a).ctl 3 = true) : aoqSeed a d = axFlag a 14 (d.updAxis a seedTaken) := by
  unfold seedCounter at herr
  exact (if_pos (by simp [he, hseed, hfeed])).trans (if_pos (by simp [herr]))

/-- A counter that has been set and has met no error gives the axis its count. -/
theorem aoqSeed_taken (hset : bit (seedCounter d a).ctl 4 = true) (herr : bit (seedCounter d a).ctl 3 = false) :
    ∃ f, aoqSeed a d = (d.updAxis a seedTaken).updAxis a f ∧ ∀ x, (f x).st.sync = .locking ∧ (f x).st.valid = true ∧
      (f x).st.seeding = x.st.seeding ∧ (f x).trk.c = (seedCounter d a).cnt.toInt - (d.axis a).cfg.aoqOfs.toInt := by
  unfold seedCounter at hset herr ⊢
  exact ⟨_, (if_pos (by simp [he, hseed, hfeed])).trans (if_neg (by simp [hset, herr])), fun _ => ⟨rfl, rfl, rfl, rfl⟩⟩

end

/-! ### COASTING and its loss (R108) -/

section
variable (he : axEn (d.axis a) = true)
include he

theorem remoteMiss_coasts (hk : axKind (d.axis a) = 1) (hs : (d.axis a).st.sync = .locked) : remoteMiss a d = enterCoast a d :=
  if_pos (by simp [he, hk, hs])

theorem coastLimit_loses (hk : axKind (d.axis a) = 1) (hs : (d.axis a).st.sync = .coasting) : coastLimit a d = enterLost a d :=
  if_pos (by simp [he, hk, hs])

theorem coastMax_loses (hk : axKind (d.axis a) = 3) (hs : (d.axis a).st.sync = .coasting) : coastMax a d = enterLost a d :=
  if_pos (by simp [he, hk, hs])

end

/-- Settles O25: each command by the kind and the sync state of the axis that it finds, the seed by what its counter shows. -/
theorem syncStates : Obligations.SyncStates := by
  intro s a ha hl he
  obtain ⟨hsync, _, hlostc, _, _⟩ := enterLost_lostFrom a s.core.dev
  refine ⟨fun hk h => ?_, fun _ h => exec_idle (exec_stopped ha) (stopAxis_idle h), fun hseed hset herr hfeed => ?_,
    fun hseed herr hfeed => ?_, fun h => exec_idle (exec_aoqSeed ha) (aoqSeed_idle h), fun hk hs => ?_, fun hk hs => ?_,
    fun hk hs => ?_⟩
  · obtain ⟨f, hf, hx⟩ := stopAxis_moving he hk h
    obtain ⟨hstopped, hstate, hm, hmodel, hdir⟩ := hx (s.core.dev.axis a)
    refine runs_to hl (exec_stopped ha) hf (sameBut_stoppedAxis f) ?_
    dsimp only
    rw [disturbed_axis_same]
    exact ⟨hstopped, hstate, bit_orBit_same _ 7 (by decide), hm, hmodel, hdir, rfl⟩
  · obtain ⟨f, hf, hx⟩ := aoqSeed_taken he hseed hfeed hset herr
    obtain ⟨hstate, hvalid, hseeding, hc⟩ := hx (seedTaken (s.core.dev.axis a))
    refine runs_to hl (exec_aoqSeed ha) hf (sameBut_trans (sameBut_updAxis _ a _) (sameBut_updAxis _ a _)) ?_
    dsimp only
    rw [updAxis_same, updAxis_same]
    exact ⟨hstate, hvalid, hseeding, hc, fun b hb => (updAxis_other _ a b _ hb).trans (updAxis_other _ a b _ hb)⟩
  · refine runs_to hl (exec_aoqSeed ha) (aoqSeed_faulted he hseed hfeed herr) (sameBut_flaggedAxis a 14 _ _) ?_
    dsimp only
    rw [flagged_axis_same]
    exact ⟨bit_orBit_same _ 14 (by decide), rfl, rfl⟩
  · obtain ⟨hcoast, hflag⟩ := enterCoast_axis_same a s.core.dev
    exact runs_to hl (exec_remoteMiss ha) (remoteMiss_coasts he hk hs) (sameBut_enterCoast a _)
      ⟨hcoast, hflag, fun b hb => flagged_axis_other a 13 _ _ hb⟩
  · exact runs_to hl (exec_coastLimit ha) (coastLimit_loses he hk hs) (sameBut_enterLost a _) ⟨hsync, hlostc⟩
  · exact runs_to hl (exec_coastMax ha) (coastMax_loses he hk hs) (sameBut_enterLost a _) ⟨hsync, hlostc⟩

end Sys2Proof.Proofs
end

section
/-! SUPPORT. The galley: the end of a slug, its return to the free list, its re-insertion and its outcome record (R124, R127, R138–R141). -/

namespace Sys2Proof.Proofs

open Sys2Proof Sys2Proof.Machine Sys2Proof.Laws

/-! ### The galley's registers and its storage

The rules stand over any value `x` of the registers or of the storage, so that no proof compares two of them field by field. -/

section
variable (x : Galley) (y : GalleyStore) (d : Dev)

/-- The device with the galley's registers as `x`. -/
def withGl : Dev := { d with gl := x }

theorem sameBut_withGl : SameBut [.gl] d (withGl x d) := sameBut_gl d x
@[simp] theorem withGl_gl : (withGl x d).gl = x := rfl
@[simp] theorem withGl_gs : (withGl x d).gs = d.gs := rfl
@[simp] theorem withGl_mem : (withGl x d).mem = d.mem := rfl
@[simp] theorem withGl_slug (m : Nat) : (withGl x d).slug m = d.slug m := rfl
@[simp] theorem withGl_chase (m : Nat) : (withGl x d).chase m = d.chase m := rfl
@[simp] theorem withGl_committing (sid : Nat) (seq : W32) : committing (withGl x d) sid seq = committing d sid seq := rfl
@[simp] theorem withGl_findEntry (sid : Nat) : findEntry (withGl x d) sid = findEntry d sid := rfl

/-- The device with the galley's storage as `y`. -/
def withGs : Dev := { d with gs := y }

theorem sameBut_withGs : SameBut [.gs] d (withGs y d) := sameBut_gs d y
@[simp] theorem withGs_gs : (withGs y d).gs = y := rfl
@[simp] theorem withGs_gl : (withGs y d).gl = d.gl := rfl
@[simp] theorem withGs_mem : (withGs y d).mem = d.mem := rfl
@[simp] theorem withGs_chase (m : Nat) : (withGs y d).chase m = d.chase m := rfl
theorem withGs_slug (h : y.slugs = d.gs.slugs) (m : Nat) : (withGs y d).slug m = d.slug m := by
  rw [Dev.slug, Dev.slug, withGs_gs, h]

theorem sameBut_withGlGs : SameBut [.gl, .gs] d (withGl x (withGs y d)) :=
  sameBut_then (sameBut_withGl _ _) (by decide) (sameBut_mono (sameBut_withGs y d) (by decide))

end

section
variable {d : Dev} {sid : Nat}

/-! ### The end of a slug (R124, R140, R141) -/

/-- Without AUTOFREE a slug that ends is retained. -/
theorem retireSlug_retains (st : SlugState) (hfree : bit d.gl.cfg 0 = false) :
    retireSlug sid st d = d.updSlug sid fun x => { x with state := st } := if_neg (by simp [hfree])

theorem freeSlug_granted (sid : Nat) (d : Dev) : (freeSlug sid d).gs.granted = d.gs.granted := by
  unfold freeSlug
  dsimp only
  split
  · rfl
  · rfl

theorem freeSlug_slug (sid m : Nat) (d : Dev) : (freeSlug sid d).slug m = (d.updSlug sid fun x => { x with state := .free }).slug m := by
  unfold freeSlug
  dsimp only
  split
  · rfl
  · rfl

theorem freeSlug_slug_same (sid : Nat) (d : Dev) : (freeSlug sid d).slug sid = { d.slug sid with state := .free } :=
  (freeSlug_slug sid sid d).trans (updSlug_same ..)

theorem freeSlug_slug_other {m : Nat} (d : Dev) (h : m ≠ sid) : (freeSlug sid d).slug m = d.slug m :=
  (freeSlug_slug sid m d).trans (updSlug_other _ _ _ _ h)

/-- A slug in service goes to the end of the free list (log entry 5). -/
theorem freeSlug_freed (h : d.gs.retired.contains sid = false) : (freeSlug sid d).gs.freed = d.gs.freed ++ [sid] := by
  unfold freeSlug
  dsimp only
  rw [if_neg (by exact Bool.eq_false_iff.mp h)]
  rfl

/-! ### Re-insertion one turn on (R139) -/

/-- The slug one turn on, PARKED under the next SEQ. -/
def turnedOn (sid : Nat) (d : Dev) : Dev := (nextSeq d).2.updSlug sid fun x =>
  { x with angle := (d.slug sid).angle + 0x100000000#64, seq := d.gl.seq + 1, state := .parked, metFull := false }

theorem reinsert_ahead (h : sdiff (published d (d.slug sid).axis) ((d.slug sid).angle + 0x100000000#64) < 0) :
    reinsert sid d = maybeArm (d.slug sid).axis ((d.slug sid).angle + 0x100000000#64) (turnedOn sid d) := if_pos h

theorem turnedOn_slug_same (sid : Nat) (d : Dev) : (turnedOn sid d).slug sid =
    { d.slug sid with angle := (d.slug sid).angle + 0x100000000#64, seq := d.gl.seq + 1, state := .parked, metFull := false } :=
  updSlug_same ..

theorem turnedOn_slug_other {m : Nat} (d : Dev) (h : m ≠ sid) : (turnedOn sid d).slug m = d.slug m := updSlug_other _ _ _ _ h

theorem sameBut_turnedOn (sid : Nat) (d : Dev) : SameBut [.gs, .gl] d (turnedOn sid d) :=
  sameBut_then (sameBut_updSlug _ _ _) (by decide) (sameBut_mono (sameBut_nextSeq d) (by decide))

/-- An arm request leaves the axes themselves as they are. -/
theorem maybeArm_axes (a : Nat) (g : Ang64) (d : Dev) : (maybeArm a g d).ax.axes = d.ax.axes := by
  unfold maybeArm
  split
  · rfl
  · rfl

end

/-! ### Outcome records (R140) -/

section
variable {d : Dev} {r : Outcome}

theorem writeRecord_unselected (h : recordSelected d r = false) : writeRecord r d = d := if_neg (by simp [h])

/-- ORHEAD moved on by one record. -/
def headMoved (x : Galley) : Galley := { x with orhead := (x.orhead + 1) % 4096 }

/-- The record in the ring at ORHEAD, which has moved on. -/
def recordWritten (r : Outcome) (d : Dev) : Dev :=
  withGl (headMoved d.gl) (d.write128 (outcomeBase + 2 * d.gl.orhead) (recordImage r))

theorem writeRecord_selected (h : recordSelected d r = true) (ht : r.tripped = false) (hring : (d.gl.orhead + 1) % 4096 ≠ d.gl.ortail) :
    writeRecord r d = memberEvent 0x3A7 (recordWritten r d) := by
  have hgl : ∀ a v, (d.write128 a v).gl = d.gl := fun a v => kept_gl (sameBut_write128 d a v) (by decide)
  rw [writeRecord, if_pos h, if_neg hring, ht]
  dsimp only
  rw [hgl]
  rfl

theorem sameBut_recordWritten (r : Outcome) (d : Dev) : SameBut [.mem, .gl] d (recordWritten r d) :=
  sameBut_then (sameBut_withGl _ _) (by decide) (sameBut_mono (sameBut_write128 d _ _) (by decide))

theorem halves_of_record (v : BitVec 128) :
    (((v >>> 64).setWidth 64).setWidth 128 <<< 64) ||| (v.setWidth 64).setWidth 128 = v := by
  apply BitVec.eq_of_getLsbD_eq
  intro i hi
  by_cases h : i < 64
  · simp [h, hi]
  · have hback : 64 + (i - 64) = i := by omega
    simp [h, hi, hback]
    omega

theorem read128_write128_same (d : Dev) (a : Nat) (v : BitVec 128) : (d.write128 a v).read128 a = v := by
  rw [Dev.read128, Dev.write128, read64_write64_same, read64_write64_other _ _ _ _ (by omega), read64_write64_same, halves_of_record]

theorem read64_write128_other (d : Dev) {a b : Nat} (v : BitVec 128) (h : b ≠ a) (h1 : b ≠ a + 1) :
    (d.write128 a v).read64 b = d.read64 b := by
  rw [Dev.write128, read64_write64_other _ _ _ _ h1, read64_write64_other _ _ _ _ h]

end

end Sys2Proof.Proofs
end

section
/-! SUPPORT. The slug operations of the galley, case by case, and the host's commands that carry them out (R124, R127, R137, R138, R142). -/

namespace Sys2Proof.Proofs

open Sys2Proof Sys2Proof.Machine Sys2Proof.Laws

section
variable {d : Dev} {sid : Nat} {seq : W32}

/-! ### Commands that name no slug (R124) -/

/-- The answer to a command whose SID and SEQ do not name a slug. -/
def staleAnswer (sid : Nat) (d : Dev) : GlAnswer := ⟨.stale, (d.slug sid).state, sid, (d.slug sid).seq⟩

theorem stale_of (h : (d.slug sid).state = .free ∨ seq ≠ (d.slug sid).seq) : stale d sid seq = true := by
  rcases h with h | h
  · simp [stale, h]
  · simp [stale, h.symm]

theorem not_stale (hst : (d.slug sid).state ≠ .free) (hseq : (d.slug sid).seq = seq) : stale d sid seq = false := by
  simp [stale, hst, hseq]

theorem opRemove_stale (h : stale d sid seq = true) : opRemove sid seq d = (staleAnswer sid d, d) := if_pos h

theorem opModify_stale (n : Slug) (sq : W32) (h : stale d sid seq = true) : opModify sid seq n sq d = (staleAnswer sid d, d) := if_pos h

theorem opModifyDur_stale (dur : Nat) (sq : W32) (h : stale d sid seq = true) :
    opModifyDur sid seq dur sq d = (staleAnswer sid d, d) := if_pos h

theorem opFree_stale (h : stale d sid seq = true) : opFree sid seq d = (staleAnswer sid d, d) := if_pos h

/-! ### Commands that name a slug (R127, R137, R142) -/

section
variable (hseq : (d.slug sid).seq = seq)
include hseq

theorem opRemove_parked (hst : (d.slug sid).state = .parked) (hfree : bit d.gl.cfg 0 = false) (hrec : bit d.gl.cfg 4 = false) :
    opRemove sid seq d =
      (⟨.ok, .cancelled, sid, (d.slug sid).seq⟩, d.updSlug sid fun x => { x with state := .cancelled }) := by
  simp [opRemove, not_stale (by simp [hst]) hseq, hst, cancelSlug_marks 1 d.tb.time hrec hfree]

theorem opRemove_committing (hst : (d.slug sid).state = .armed) (hc : committing d sid seq = true) :
    opRemove sid seq d = (⟨.committed, .armed, sid, (d.slug sid).seq⟩, d) := by
  simp [opRemove, not_stale (by simp [hst]) hseq, hst, hc]

/-- An armed slug whose entry is not committing loses its entry. -/
theorem opRemove_withdraws {cs k : Nat} {e : Entry} (hst : (d.slug sid).state = .armed) (hc : committing d sid seq = false)
    (he : findEntry d sid = some (cs, k, e)) (hfree : bit d.gl.cfg 0 = false) (hrec : bit d.gl.cfg 4 = false) :
    opRemove sid seq d = (⟨.ok, .cancelled, sid, (d.slug sid).seq⟩,
      (putEntry cs k none d).updSlug sid fun x => { x with state := .cancelled }) := by
  have hcancel := cancelSlug_marks (d := putEntry cs k none d) (sid := sid) 1 d.tb.time hrec hfree
  simp [opRemove, not_stale (by simp [hst]) hseq, hst, hc, he, hcancel]

/-- The slug with the fields that a modification stages (R142). -/
def restaged (n x : Slug) : Slug :=
  { x with angle := n.angle, tofs := n.tofs, dur := n.dur, dmin := n.dmin, dmax := n.dmax, revp := n.revp, losp := n.losp }

theorem opModify_parked {n : Slug} (sq : W32) (hst : (d.slug sid).state = .parked) (hbad : badSlug (restaged n (d.slug sid)) = false) :
    opModify sid seq n sq d = (⟨.ok, .parked, sid, sq⟩,
      renameSlug sid seq sq (d.updSlug sid fun _ => { restaged n (d.slug sid) with seq := sq })) := by
  unfold opModify
  dsimp only
  rw [if_neg (by simp [not_stale (by simp [hst]) hseq]), if_neg (by simp [hst]), if_neg (by exact Bool.eq_false_iff.mp hbad)]
  rfl

theorem opModifyDur_parked {dur : Nat} (sq : W32) (hst : (d.slug sid).state = .parked)
    (hbad : badSlug { d.slug sid with dur := dur } = false) (he : findEntry d sid = none) :
    opModifyDur sid seq dur sq d = (⟨.ok, .parked, sid, sq⟩,
      renameSlug sid seq sq (d.updSlug sid fun x => { x with dur := dur, seq := sq })) := by
  unfold opModifyDur
  dsimp only
  rw [if_neg (by simp [not_stale (by simp [hst]) hseq]), if_neg (by exact Bool.eq_false_iff.mp hbad), he, hst]
  rfl

theorem opFree_done (hst : (d.slug sid).state = .done) (hfree : bit d.gl.cfg 0 = false) :
    opFree sid seq d = (⟨.ok, .free, sid, (d.slug sid).seq⟩, freeSlug sid d) := by
  simp [opFree, not_stale (by simp [hst]) hseq, hst, hfree]

end

/-- A slot holds what was put there. -/
@[simp] theorem putEntry_entry (cs k : Nat) (e : Option Entry) (d : Dev) : Bank.get none ((putEntry cs k e d).chase cs).entries k = e := by
  rw [putEntry, updChase_same]
  exact bank_get_set_same none (d.chase cs).entries k e

@[simp] theorem putEntry_slug (cs k : Nat) (e : Option Entry) (d : Dev) (m : Nat) : (putEntry cs k e d).slug m = d.slug m := updChase_slug ..

theorem putEntry_other {m : Nat} (cs k : Nat) (e : Option Entry) (d : Dev) (h : m ≠ cs) : (putEntry cs k e d).chase m = d.chase m :=
  updChase_other d cs m _ h

theorem sameBut_renameSlug (sid : Nat) (old new : W32) (d : Dev) : SameBut [.ax, .ne, .lanes] d (renameSlug sid old new d) := by
  intro v b hb
  cases b
  case ax | ne | lanes => simp at hb
  all_goals rfl

@[simp] theorem renameSlug_slug (sid : Nat) (old new : W32) (d : Dev) (m : Nat) : (renameSlug sid old new d).slug m = d.slug m :=
  kept_slug (sameBut_renameSlug sid old new d) (by decide) m

end

/-! ### The answer in GL_RESULT (R142) -/

section
variable (r : GlAnswer × Dev)

theorem sameBut_glAnswer : SameBut [.gl] r.2 (glAnswer r) := sameBut_gl r.2 _
@[simp] theorem glAnswer_gs : (glAnswer r).gs = r.2.gs := kept_gs (sameBut_glAnswer r) (by decide)
@[simp] theorem glAnswer_slug (m : Nat) : (glAnswer r).slug m = r.2.slug m := kept_slug (sameBut_glAnswer r) (by decide) m
@[simp] theorem glAnswer_chase (m : Nat) : (glAnswer r).chase m = r.2.chase m := kept_chase (sameBut_glAnswer r) (by decide) m
theorem glAnswer_gl : (glAnswer r).gl = { r.2.gl with
    go := false, rseq := r.1.seq
    result := BitVec.ofNat 32 (slugStateCode r.1.state * 2 ^ 26 + glCodeNo r.1.code * 2 ^ 22 + r.1.sid) } := rfl

end

/-- GL_RESULT after a slug command: the word `n` of state and code, and the SID (R142). -/
theorem glAnswer_result {code : GlCode} {st : SlugState} {n sid : Nat} {seq : W32} {d : Dev}
    (h : slugStateCode st * 2 ^ 26 + glCodeNo code * 2 ^ 22 = n) :
    (glAnswer (⟨code, st, sid, seq⟩, d)).gl.result = BitVec.ofNat 32 (n + sid) := by
  rw [glAnswer_gl, h]

/-! ### What a grant gives a request (R138) -/

section
variable {d : Dev} {w : GlWork}

/-- The operations that take the next SEQ at their grant. -/
abbrev TakesSeq (op : GlOp) : Prop := op = .insert ∨ op = .modify ∨ op = .modifyDur

theorem grantWork_takesSeq (hgrp : w.group = none) (hop : TakesSeq w.op) :
    grantWork w d = ({ w with pub := published d w.slug.axis, newSeq := d.gl.seq + 1 }, (nextSeq d).2) := by
  rcases hop with h | h | h <;> simp [grantWork, h, hgrp, nextSeq]

theorem grantWork_keepsSeq (hgrp : w.group = none) (hop : ¬TakesSeq w.op) :
    grantWork w d = ({ w with pub := published d w.slug.axis }, d) := by
  cases h : w.op
  case insert | modify | modifyDur => simp [h] at hop
  all_goals simp [grantWork, h, hgrp]

end

/-! ### The host's commands (R142) -/

/-- OP of a slug command in GL_CMD. -/
def opCode (op : GlOp) : Nat :=
  match op with | .insert => 0 | .remove => 1 | .modify => 2 | .modifyDur => 3 | .free => 4 | _ => 5

/-- The galley's registers with OP and SID of a command in GL_CMD. -/
def notedGl (op : GlOp) (sid : Nat) (x : Galley) : Galley := { x with cmd := BitVec.ofNat 32 (opCode op * 2 ^ 24 + sid) }

/-- The galley's registers after the grant of an operation: the sequence counter moved, or not (R138). -/
def countedGl (op : GlOp) (x : Galley) : Galley := { x with seq := if TakesSeq op then x.seq + 1 else x.seq }

/-- The galley's registers as the grant of a host's command leaves them. -/
def commandedGl (op : GlOp) (sid : Nat) (x : Galley) : Galley := countedGl op (notedGl op sid x)

@[simp] theorem commandedGl_cfg (op : GlOp) (sid : Nat) (x : Galley) : (commandedGl op sid x).cfg = x.cfg := by
  rw [commandedGl, countedGl, notedGl]

/-- The device as the grant of a command finds it. -/
abbrev commanded (op : GlOp) (sid : Nat) (d : Dev) : Dev := withGl (commandedGl op sid d.gl) d

/-- The request of the host's command. -/
def hostWork (op : GlOp) (sid : Nat) (d : Dev) : GlWork :=
  { who := .host, op := op, sid := sid, seq := Bank.get 0 d.gl.sw 0, slug := slugOfImage (stagedImage d), bad := imageReserved (stagedImage d) }

theorem grantWork_hostWork (op : GlOp) (sid : Nat) (x : Galley) (d : Dev) : grantWork (hostWork op sid d) (withGl x d) =
    ({ hostWork op sid d with
        pub := published d (slugOfImage (stagedImage d)).axis, newSeq := if TakesSeq op then x.seq + 1 else 0 },
      withGl (countedGl op x) d) := by
  unfold countedGl
  by_cases hop : TakesSeq op
  · rw [grantWork_takesSeq rfl hop, if_pos hop, if_pos hop]
    rfl
  · rw [grantWork_keepsSeq rfl hop, if_neg hop, if_neg hop]
    rfl

section
variable {d : Dev} {sid : Nat} (hsid : sid < 262144) (hgo : d.gl.go = false) (hg : d.gs.granted = [])
include hsid hgo hg

/-- With nothing granted before it, the host's command is granted and carried out at once. -/
theorem hostOp_runs (op : GlOp) : hostOp op sid d = runHost { hostWork op sid d with
    pub := published d (slugOfImage (stagedImage d)).axis, newSeq := if TakesSeq op then (notedGl op sid d.gl).seq + 1 else 0 }
    (commanded op sid d) := by
  have hmod : sid % 2 ^ 18 = sid := by omega
  have hsettle : ∀ x, settleGranted (withGl x d) = withGl x d := fun x => settleGranted_none hg
  unfold hostOp
  rw [if_neg (Bool.eq_false_iff.mp hgo), hmod]
  exact congrArg (fun r : GlWork × Dev => runHost r.1 r.2)
    ((congrArg (grantWork (hostWork op sid d)) (hsettle _)).trans (grantWork_hostWork op sid _ d))

theorem hostOp_remove : hostOp .remove sid d = glAnswer (opRemove sid (Bank.get 0 d.gl.sw 0) (commanded .remove sid d)) :=
  hostOp_runs hsid hgo hg .remove

theorem hostOp_modify : hostOp .modify sid d = glAnswer (opModify sid (Bank.get 0 d.gl.sw 0) (slugOfImage (stagedImage d))
    (d.gl.seq + 1) (commanded .modify sid d)) := hostOp_runs hsid hgo hg .modify

theorem hostOp_modifyDur : hostOp .modifyDur sid d = glAnswer (opModifyDur sid (Bank.get 0 d.gl.sw 0)
    (slugOfImage (stagedImage d)).dur (d.gl.seq + 1) (commanded .modifyDur sid d)) := hostOp_runs hsid hgo hg .modifyDur

theorem hostOp_free : hostOp .free sid d = glAnswer (opFree sid (Bank.get 0 d.gl.sw 0) (commanded .free sid d)) :=
  hostOp_runs hsid hgo hg .free

end

end Sys2Proof.Proofs
end

section
/-! O31: the host's commands on a slug that it names by SID and SEQ (R124, R127, R137, R142). -/

namespace Sys2Proof.Proofs

open Sys2Proof Sys2Proof.Machine Sys2Proof.Laws

section
variable {s : State} {sid : Nat} (hsid : isSid sid = true)
include hsid

theorem exec_remove : exec (.remove sid) s = whenLiveDev true (hostOp .remove sid) s :=
  congrArg (fun ok => whenLiveDev ok (hostOp .remove sid) s) hsid
theorem exec_modify : exec (.modify sid) s = whenLiveDev true (hostOp .modify sid) s :=
  congrArg (fun ok => whenLiveDev ok (hostOp .modify sid) s) hsid
theorem exec_modifyDur : exec (.modifyDur sid) s = whenLiveDev true (hostOp .modifyDur sid) s :=
  congrArg (fun ok => whenLiveDev ok (hostOp .modifyDur sid) s) hsid
theorem exec_free : exec (.free sid) s = whenLiveDev true (hostOp .free sid) s :=
  congrArg (fun ok => whenLiveDev ok (hostOp .free sid) s) hsid

end

/-! ### What each command makes of the device -/

section
variable {d : Dev} {sid : Nat} (hsid : sid < 262144) (hgo : d.gl.go = false) (hg : d.gs.granted = [])
include hsid hgo hg

section
variable (hseq : (d.slug sid).seq = Bank.get 0 d.gl.sw 0)
include hseq

theorem hostOp_remove_parked (hst : (d.slug sid).state = .parked) (hfree : bit d.gl.cfg 0 = false) (hrec : bit d.gl.cfg 4 = false) :
    hostOp .remove sid d = glAnswer (⟨.ok, .cancelled, sid, (d.slug sid).seq⟩,
      (commanded .remove sid d).updSlug sid fun x => { x with state := .cancelled }) := by
  rw [hostOp_remove hsid hgo hg, opRemove_parked (by simpa using hseq) (by simpa using hst) (by simpa using hfree)
    (by simpa using hrec), withGl_slug]

theorem hostOp_remove_committing (hst : (d.slug sid).state = .armed) (hc : committing d sid (d.slug sid).seq = true) :
    hostOp .remove sid d = glAnswer (⟨.committed, .armed, sid, (d.slug sid).seq⟩, commanded .remove sid d) := by
  rw [hostOp_remove hsid hgo hg, opRemove_committing (by simpa using hseq) (by simpa using hst)
    (by rw [withGl_committing, ← hseq]; exact hc), withGl_slug]

theorem hostOp_remove_withdraws {cs k : Nat} {e : Entry} (hst : (d.slug sid).state = .armed)
    (hc : committing d sid (d.slug sid).seq = false) (he : findEntry d sid = some (cs, k, e))
    (hfree : bit d.gl.cfg 0 = false) (hrec : bit d.gl.cfg 4 = false) :
    hostOp .remove sid d = glAnswer (⟨.ok, .cancelled, sid, (d.slug sid).seq⟩,
      (putEntry cs k none (commanded .remove sid d)).updSlug sid fun x => { x with state := .cancelled }) := by
  rw [hostOp_remove hsid hgo hg, opRemove_withdraws (by simpa using hseq) (by simpa using hst) (by rw [withGl_committing, ← hseq]; exact hc)
    ((withGl_findEntry _ _ _).trans he) (by simpa using hfree) (by simpa using hrec), withGl_slug]

theorem hostOp_modify_parked (hst : (d.slug sid).state = .parked)
    (hbad : badSlug (restaged (slugOfImage (stagedImage d)) (d.slug sid)) = false) :
    hostOp .modify sid d = glAnswer (⟨.ok, .parked, sid, d.gl.seq + 1⟩, renameSlug sid (Bank.get 0 d.gl.sw 0) (d.gl.seq + 1)
      ((commanded .modify sid d).updSlug sid fun _ =>
        { restaged (slugOfImage (stagedImage d)) (d.slug sid) with seq := d.gl.seq + 1 })) := by
  rw [hostOp_modify hsid hgo hg, opModify_parked (by simpa using hseq) _ (by simpa using hst) (by rw [withGl_slug]; exact hbad), withGl_slug]

theorem hostOp_modifyDur_parked (hst : (d.slug sid).state = .parked)
    (hbad : badSlug { d.slug sid with dur := (slugOfImage (stagedImage d)).dur } = false) (he : findEntry d sid = none) :
    hostOp .modifyDur sid d = glAnswer (⟨.ok, .parked, sid, d.gl.seq + 1⟩, renameSlug sid (Bank.get 0 d.gl.sw 0) (d.gl.seq + 1)
      ((commanded .modifyDur sid d).updSlug sid fun x =>
        { x with dur := (slugOfImage (stagedImage d)).dur, seq := d.gl.seq + 1 })) := by
  rw [hostOp_modifyDur hsid hgo hg, opModifyDur_parked (by simpa using hseq) _ (by simpa using hst) (by rw [withGl_slug]; exact hbad)
    ((withGl_findEntry _ _ _).trans he)]

theorem hostOp_free_done (hst : (d.slug sid).state = .done) (hfree : bit d.gl.cfg 0 = false) :
    hostOp .free sid d = glAnswer (⟨.ok, .free, sid, (d.slug sid).seq⟩, freeSlug sid (commanded .free sid d)) := by
  rw [hostOp_free hsid hgo hg, opFree_done (by simpa using hseq) (by simpa using hst) (by simpa using hfree), withGl_slug]

end

/-- A name that is stale is answered alike by the four commands (R124). -/
theorem hostOp_stale (h : (d.slug sid).state = .free ∨ Bank.get 0 d.gl.sw 0 ≠ (d.slug sid).seq) {op : GlOp}
    (hop : op = .remove ∨ op = .modify ∨ op = .modifyDur ∨ op = .free) :
    hostOp op sid d = glAnswer (staleAnswer sid d, commanded op sid d) := by
  have hs : stale (commanded op sid d) sid (Bank.get 0 d.gl.sw 0) = true := stale_of (by rw [withGl_slug]; exact h)
  have ha : staleAnswer sid (commanded op sid d) = staleAnswer sid d := by rw [staleAnswer, staleAnswer, withGl_slug]
  rcases hop with rfl | rfl | rfl | rfl
  · rw [hostOp_remove hsid hgo hg, opRemove_stale hs, ha]
  · rw [hostOp_modify hsid hgo hg, opModify_stale _ _ hs, ha]
  · rw [hostOp_modifyDur hsid hgo hg, opModifyDur_stale _ _ hs, ha]
  · rw [hostOp_free hsid hgo hg, opFree_stale hs, ha]

end

/-! ### What is read after a command -/

/-- The frame of a host's command: its answer, what its operation changes, and GL_CMD with the sequence counter. -/
theorem sameBut_hostOp {l : List Part} {op : GlOp} {sid : Nat} {d : Dev} {r : GlAnswer × Dev} (hgl : Part.gl ∈ l)
    (h : SameBut l (commanded op sid d) r.2) : SameBut l d (glAnswer r) :=
  sameBut_then (sameBut_glAnswer r) (by simpa using hgl) (sameBut_trans (sameBut_mono (sameBut_withGl _ d) (by simpa using hgl)) h)

/-- GL after a command on a stale name: the command with its OP and SID, the slug's state and SEQ, and the code STALE. -/
def staleGalley (op : GlOp) (sid : Nat) (d : Dev) : Galley := { d.gl with
  cmd := BitVec.ofNat 32 (opCode op * 2 ^ 24 + sid), go := false, rseq := (d.slug sid).seq
  seq := if TakesSeq op then d.gl.seq + 1 else d.gl.seq
  result := BitVec.ofNat 32 (slugStateCode (d.slug sid).state * 2 ^ 26 + glCodeNo .stale * 2 ^ 22 + sid) }

theorem staleAnswer_gl (op : GlOp) (sid : Nat) (d : Dev) :
    (glAnswer (staleAnswer sid d, commanded op sid d)).gl = staleGalley op sid d := by
  rw [glAnswer_gl, withGl_gl, commandedGl, countedGl, notedGl, staleAnswer, staleGalley]

theorem staleGalley_eq {op : GlOp} {code : Nat} {n : W32} {sid : Nat} {d : Dev} (hcode : opCode op = code)
    (hn : (if TakesSeq op then d.gl.seq + 1 else d.gl.seq) = d.gl.seq + n) : staleGalley op sid d = { d.gl with
      cmd := BitVec.ofNat 32 (code * 2 ^ 24 + sid), go := false, rseq := (d.slug sid).seq, seq := d.gl.seq + n
      result := BitVec.ofNat 32 (slugStateCode (d.slug sid).state * 2 ^ 26 + 3 * 2 ^ 22 + sid) } := by
  have hstale : glCodeNo .stale = 3 := rfl
  rw [staleGalley, hcode, hn, hstale]

/-- A command of the host on a stale name changes the galley's registers alone. -/
theorem runs_staleCommand {s : State} {sid : Nat} {i : Instr} {op : GlOp} {x : Galley} (hl : live s.core.dev = true)
    (hx : exec i s = whenLiveDev true (hostOp op sid) s)
    (hop : hostOp op sid s.core.dev = glAnswer (staleAnswer sid s.core.dev, commanded op sid s.core.dev))
    (hgl : staleGalley op sid s.core.dev = x) : Runs i s [.gl] fun t => t.core.dev.gl = x :=
  runs_to hl hx hop (sameBut_hostOp (by decide) (sameBut_refl _ _)) ((staleAnswer_gl op sid _).trans hgl)

/-- Settles O31: each command by the state of the slug that it names, and by whether SID and SEQ name one. -/
theorem hostSlugCommands : Obligations.HostSlugCommands := by
  intro s sid hl hsid hgo hg
  have hs : sid < 262144 := of_decide_eq_true hsid
  refine ⟨fun hst hseq hfree hrec => ?_, fun hst hseq hbad => ?_, fun hst hseq hbad he => ?_, fun hst hseq => ⟨fun hc => ?_,
    fun cs k e hc he hfree hrec => ?_⟩, fun hst hseq hfree hret => ?_, fun h i code n hi => ?_⟩
  · refine runs_to hl (exec_remove hsid) (hostOp_remove_parked hs hgo hg hseq.symm hst hfree hrec)
      (sameBut_hostOp (by decide) (sameBut_mono (sameBut_updSlug _ _ _) (by decide))) ⟨?_, ?_, fun m hm => ?_⟩
    · simp
    · exact glAnswer_result (by decide)
    · simp [updSlug_other, hm]
  · refine runs_to hl (exec_modify hsid) (hostOp_modify_parked hs hgo hg hseq.symm hst hbad)
      (sameBut_hostOp (by decide) (sameBut_then (sameBut_renameSlug _ _ _ _) (by decide)
        (sameBut_mono (sameBut_updSlug _ _ _) (by decide)))) ⟨?_, ?_, ?_, ?_, ?_, fun m hm => ?_⟩
    · simp [restaged]
    · simp [restaged]
    · simp [restaged]
    · simp [restaged, hst]
    · simp
    · simp [updSlug_other, hm]
  · refine runs_to hl (exec_modifyDur hsid) (hostOp_modifyDur_parked hs hgo hg hseq.symm hst hbad he)
      (sameBut_hostOp (by decide) (sameBut_then (sameBut_renameSlug _ _ _ _) (by decide)
        (sameBut_mono (sameBut_updSlug _ _ _) (by decide)))) ⟨?_, fun m hm => ?_⟩
    · simp
    · simp [updSlug_other, hm]
  · refine runs_to hl (exec_remove hsid) (hostOp_remove_committing hs hgo hg hseq.symm hst hc)
      (sameBut_hostOp (by decide) (sameBut_refl _ _)) ⟨?_, ?_⟩
    · exact glAnswer_result (by decide)
    · rw [glAnswer_gl]
  · refine runs_to hl (exec_remove hsid) (hostOp_remove_withdraws hs hgo hg hseq.symm hst hc he hfree hrec)
      (sameBut_hostOp (by decide) (sameBut_then (sameBut_updSlug _ _ _) (by decide)
        (sameBut_mono (sameBut_putEntry _ _ _ _) (by decide)))) ⟨?_, ?_, ?_, fun m hm => ?_⟩
    · simp
    · simp
    · exact glAnswer_result (by decide)
    · simp [putEntry_other, hm]
  · refine runs_to hl (exec_free hsid) (hostOp_free_done hs hgo hg hseq.symm hst hfree)
      (sameBut_hostOp (by decide) (sameBut_mono (sameBut_freeSlug _ _) (by decide))) ⟨?_, ?_, ?_⟩
    · simp [freeSlug_slug_same]
    · rw [glAnswer_gs, freeSlug_freed (by rw [withGl_gs]; exact hret), withGl_gs]
    · exact (glAnswer_result (n := 0) (by decide)).trans (congrArg _ (Nat.zero_add sid))
  · simp only [List.mem_cons, Prod.mk.injEq, List.not_mem_nil, or_false] at hi
    rcases hi with ⟨rfl, rfl, rfl⟩ | ⟨rfl, rfl, rfl⟩ | ⟨rfl, rfl, rfl⟩ | ⟨rfl, rfl, rfl⟩
    · exact runs_staleCommand hl (exec_remove hsid) (hostOp_stale hs hgo hg h (by decide)) (staleGalley_eq rfl (by simp [TakesSeq]))
    · exact runs_staleCommand hl (exec_modify hsid) (hostOp_stale hs hgo hg h (by decide)) (staleGalley_eq rfl (by simp [TakesSeq]))
    · exact runs_staleCommand hl (exec_modifyDur hsid) (hostOp_stale hs hgo hg h (by decide)) (staleGalley_eq rfl (by simp [TakesSeq]))
    · exact runs_staleCommand hl (exec_free hsid) (hostOp_stale hs hgo hg h (by decide)) (staleGalley_eq rfl (by simp [TakesSeq]))

end Sys2Proof.Proofs
end

section
/-! O32: a chase commits an entry (R132, R135, R136). -/

namespace Sys2Proof.Proofs

open Sys2Proof Sys2Proof.Machine Sys2Proof.Laws

variable {d : Dev} {cs k : Nat} {e : Entry}

/-- The earliest edge time of an entry that commits now: TIME64 plus its least lead (R134, R136). -/
def earliestEdge (d : Dev) (e : Entry) : Time64 := plusInt d.tb.time ((leadMin e.act e.chan e.lead * 64 : Nat) : Int)

/-- The occurrence of entry `e` that commits with edge time `edge`. -/
def occurrenceAt (edge : Time64) (late : Bool) (e : Entry) (d : Dev) : Occurrence :=
  { sid := e.sid, axis := e.axis, chan := e.chan, act := e.act, e := edge, place := edge, d := e.d, seq := e.seq
    sg := d.tb.stepGen, late := late, lateTclk := if late then min 8191 (((sdiff edge e.t).toNat + 63) / 64) else 0
    ghosted := (d.axis e.axis).trk.pubSync == .ghosted, coast := (d.axis e.axis).trk.pubSync == .coasting || e.coast
    rpt := e.rpt, lead := e.lead, back := (d.axis e.axis).trk.pubDir
    ran := decide (e.chan < 256) && (d.pair (e.chan / 2)).state == .run }

/-- Occurrence `o` in flight, its commit record in the FIFO. -/
def inFlight (o : Occurrence) (d : Dev) : Dev :=
  withGs { d.gs with flight := d.gs.flight ++ [o], fifo := d.gs.fifo ++ [.commit o] } d

theorem sameBut_inFlight (o : Occurrence) (d : Dev) : SameBut [.gs] d (inFlight o d) := sameBut_withGs _ d

@[simp] theorem inFlight_chase (o : Occurrence) (d : Dev) (m : Nat) : (inFlight o d).chase m = d.chase m := withGs_chase _ d m
@[simp] theorem inFlight_gl (o : Occurrence) (d : Dev) : (inFlight o d).gl = d.gl := withGs_gl _ d

/-! ### The commit, case by case -/

theorem commitChoice_once (h : (d.chase cs).committed.isSome = true) : commitChoice d cs = none := if_pos h

theorem chaseCommit_none (h : commitChoice d cs = none) : chaseCommit cs d = d := by rw [chaseCommit, h]

theorem chaseCommit_onTime (h : commitChoice d cs = some (k, e)) (ht : sdiff (earliestEdge d e) e.t ≤ 0) :
    chaseCommit cs d = inFlight (occurrenceAt e.t false e d) (d.updChase cs fun c => { c with committed := some k }) := by
  have hlate : decide (0 < sdiff (earliestEdge d e) e.t) = false := decide_eq_false (by omega)
  unfold earliestEdge at hlate
  rw [chaseCommit, h]
  dsimp only
  rw [hlate]
  rfl

/-- The device with the late commit of `e` from slot `k` counted. -/
def lateCounted (cs k : Nat) (d : Dev) : Dev :=
  withGl { d.gl with late := incSat d.gl.late } (d.updChase cs fun c => { c with committed := some k, latec := incSat c.latec })

theorem chaseCommit_late (h : commitChoice d cs = some (k, e)) (ht : 0 < sdiff (earliestEdge d e) e.t) :
    chaseCommit cs d = inFlight (occurrenceAt (earliestEdge d e) true e d) (lateCounted cs k d) := by
  have hlate : decide (0 < sdiff (earliestEdge d e) e.t) = true := decide_eq_true ht
  unfold earliestEdge at hlate
  rw [chaseCommit, h]
  dsimp only
  rw [hlate]
  rfl

theorem sameBut_lateCounted (cs k : Nat) (d : Dev) : SameBut [.chases, .gl] d (lateCounted cs k d) :=
  sameBut_then (sameBut_withGl _ _) (by decide) (sameBut_mono (sameBut_updChase d cs _) (by decide))

/-! ### The end of the TCLK (R132) -/

theorem landChase_frees {c : Chase} (h : c.committed = some k) : Bank.get none (landChase c).entries k = none := by
  simp only [landChase, h]
  exact bank_get_set_same none c.entries k none

/-! ### The commands -/

section
variable {s : State} (hcs : isChase cs = true)
include hcs

theorem exec_chaseCommit : exec (.chaseCommit cs) s = whenLiveDev true (chaseCommit cs) s :=
  congrArg (fun ok => whenLiveDev ok (chaseCommit cs) s) hcs

theorem exec_clrpk : exec (.clrpk cs) s = whenLiveDev true (clearPeak cs) s :=
  congrArg (fun ok => whenLiveDev ok (clearPeak cs) s) hcs

end

/-- Settles O32: the choice of the chase decides, and the sign of the lead that is left decides whether the commit is late. -/
theorem chaseCommits : Obligations.ChaseCommits := by
  intro s cs hcs hl
  refine ⟨fun h => ?_, fun k e h ht => ?_, fun k e h ht => ?_, ?_⟩
  · exact exec_idle (exec_chaseCommit hcs) (chaseCommit_none (h.elim id commitChoice_once))
  · refine runs_to hl (exec_chaseCommit hcs) (chaseCommit_onTime h ht)
      (sameBut_then (sameBut_inFlight _ _) (by decide) (sameBut_mono (sameBut_updChase _ cs _) (by decide)))
      ⟨?_, landChase_frees ?_, ⟨_, rfl, rfl, rfl, rfl, rfl, rfl, rfl⟩, rfl, fun m hm => ?_⟩
    · simp
    · simp
    · simp [updChase_other, hm]
  · refine runs_to hl (exec_chaseCommit hcs) (chaseCommit_late h ht)
      (sameBut_then (sameBut_inFlight _ _) (by decide) (sameBut_mono (sameBut_lateCounted cs k _) (by decide)))
      ⟨?_, landChase_frees ?_, ⟨_, rfl, rfl, rfl, rfl⟩, ?_, fun m hm => ?_⟩
    · simp [lateCounted]
    · simp [lateCounted]
    · simp [lateCounted]
    · simp [lateCounted, updChase_other, hm]
  · exact runs_to hl (exec_clrpk hcs) rfl (sameBut_updChase _ cs _) ⟨updChase_same .., fun m hm => updChase_other _ cs m _ hm⟩

end Sys2Proof.Proofs
end

section
/-! O33: the records of the commit FIFO and the outcome rings (R127, R139–R141). -/

namespace Sys2Proof.Proofs

open Sys2Proof Sys2Proof.Machine Sys2Proof.Laws

variable {d : Dev} {o : Occurrence} {rest : List CommitRec}

/-- The device with `rest` left in the commit FIFO. -/
abbrev fifoLeft (rest : List CommitRec) (d : Dev) : Dev := withGs { d.gs with fifo := rest } d

theorem sameBut_fifoLeft (rest : List CommitRec) (d : Dev) : SameBut [.gs] d (fifoLeft rest d) := sameBut_withGs _ d

/-! ### The oldest record, case by case -/

theorem commitRecord_commits (hf : d.gs.fifo = .commit o :: rest) (hg : d.gs.granted = []) (hr : o.rpt = false) :
    commitRecord d = (fifoLeft rest d).updSlug o.sid fun x => { x with state := .committed } := by
  rw [commitRecord, hf]
  dsimp only
  rw [settleGranted_none (by exact hg), if_neg (by simp [hr])]
  rfl

theorem commitRecord_repeats (hf : d.gs.fifo = .commit o :: rest) (hg : d.gs.granted = []) (hr : o.rpt = true) :
    commitRecord d = reinsert o.sid (fifoLeft rest d) := by
  rw [commitRecord, hf]
  dsimp only
  rw [settleGranted_none (by exact hg), if_pos hr]
  rfl

theorem actionComplete_ends (hf : d.gs.fifo = .complete o :: rest) (hg : d.gs.granted = []) (hr : o.rpt = false) :
    actionComplete d = retireSlug o.sid .done (writeRecord (doneRecord o) (fifoLeft rest d)) := by
  rw [actionComplete, hf]
  dsimp only
  rw [settleGranted_none (by exact hg), if_neg (by simp [hr])]
  rfl

/-- The record of an occurrence that ends, written to the ring. -/
def outcomeWritten (rest : List CommitRec) (o : Occurrence) (d : Dev) : Dev :=
  memberEvent 0x3A7 (recordWritten (doneRecord o) (fifoLeft rest d))

theorem sameBut_outcomeWritten (rest : List CommitRec) (o : Occurrence) (d : Dev) :
    SameBut [.gs, .gl, .mem, .ic, .ne] d (outcomeWritten rest o d) :=
  sameBut_then (sameBut_memberEvent _ _) (by decide) (sameBut_then (sameBut_recordWritten _ _) (by decide)
    (sameBut_mono (sameBut_fifoLeft rest d) (by decide)))

theorem outcomeWritten_gl (rest : List CommitRec) (o : Occurrence) (d : Dev) :
    (outcomeWritten rest o d).gl = { d.gl with orhead := (d.gl.orhead + 1) % 4096 } := by
  rw [outcomeWritten, kept_gl (sameBut_memberEvent _ _) (by decide), recordWritten, withGl_gl, withGs_gl, headMoved]

theorem withGs_write128 (y : GalleyStore) (d : Dev) (a : Nat) (v : BitVec 128) :
    (withGs y d).write128 a v = withGs y (d.write128 a v) := rfl

theorem outcomeWritten_mem (rest : List CommitRec) (o : Occurrence) (d : Dev) :
    (outcomeWritten rest o d).mem = (d.write128 (outcomeBase + 2 * d.gl.orhead) (recordImage (doneRecord o))).mem := by
  rw [outcomeWritten, kept_mem (sameBut_memberEvent _ _) (by decide), recordWritten, withGl_mem, withGs_write128, withGs_mem, withGs_gl]

theorem read64_congr {d e : Dev} (h : e.mem = d.mem) (a : Nat) : e.read64 a = d.read64 a := by rw [Dev.read64, Dev.read64, h]

theorem read128_congr {d e : Dev} (h : e.mem = d.mem) (a : Nat) : e.read128 a = d.read128 a := by
  rw [Dev.read128, Dev.read128, read64_congr h, read64_congr h]

section
variable (hf : d.gs.fifo = .complete o :: rest) (hg : d.gs.granted = []) (hr : o.rpt = false) (hfree : bit d.gl.cfg 0 = false)
include hf hg hr hfree

theorem actionComplete_unrecorded (hrec : recordSelected d (doneRecord o) = false) :
    actionComplete d = (fifoLeft rest d).updSlug o.sid fun x => { x with state := .done } := by
  rw [actionComplete_ends hf hg hr, writeRecord_unselected (by exact hrec), retireSlug_retains _ (by exact hfree)]

theorem actionComplete_recorded (hrec : recordSelected d (doneRecord o) = true) (ht : o.tripped = false)
    (hring : (d.gl.orhead + 1) % 4096 ≠ d.gl.ortail) :
    actionComplete d = (outcomeWritten rest o d).updSlug o.sid fun x => { x with state := .done } := by
  have hcfg : (outcomeWritten rest o d).gl.cfg = d.gl.cfg := by rw [outcomeWritten_gl]
  rw [actionComplete_ends hf hg hr, writeRecord_selected (by exact hrec) (by exact ht) (by exact hring), ← outcomeWritten,
    retireSlug_retains _ (by rw [hcfg]; exact hfree)]

end

/-! ### The statement -/

section
variable {s : State}

theorem commitRecord_empty (h : d.gs.fifo = []) : commitRecord d = d := by rw [commitRecord, h]

theorem actionComplete_empty (h : d.gs.fifo = []) : actionComplete d = d := by rw [actionComplete, h]

theorem runs_recordedCompletion (hl : live s.core.dev = true) (hg : s.core.dev.gs.granted = [])
    (hf : s.core.dev.gs.fifo = .complete o :: rest) (hr : o.rpt = false) (hfree : bit s.core.dev.gl.cfg 0 = false)
    (hrec : recordSelected s.core.dev (doneRecord o) = true) (ht : o.tripped = false)
    (hring : (s.core.dev.gl.orhead + 1) % 4096 ≠ s.core.dev.gl.ortail) :
    Runs .actionComplete s [.gs, .gl, .mem, .ic, .ne] fun t =>
      t.core.dev.gl = { s.core.dev.gl with orhead := (s.core.dev.gl.orhead + 1) % 4096 } ∧
      t.core.dev.read128 (outcomeBase + 2 * s.core.dev.gl.orhead) = recordImage (doneRecord o) ∧
      (t.core.dev.slug o.sid).state = .done ∧
      ∀ a, a ≠ outcomeBase + 2 * s.core.dev.gl.orhead → a ≠ outcomeBase + 2 * s.core.dev.gl.orhead + 1 →
        t.core.dev.read64 a = s.core.dev.read64 a := by
  have hmem := outcomeWritten_mem rest o s.core.dev
  exact runs_to hl rfl (actionComplete_recorded hf hg hr hfree hrec ht hring)
    (sameBut_then (sameBut_updSlug _ _ _) (by decide) (sameBut_outcomeWritten rest o _))
    ⟨outcomeWritten_gl rest o _, (read128_congr hmem _).trans (read128_write128_same ..), congrArg Slug.state (updSlug_same ..),
      fun a h h1 => (read64_congr hmem a).trans (read64_write128_other _ _ h h1)⟩

end

/-- Settles O33: the kind of the oldest record and its RPT decide what becomes of its slug, and GL_CFG whether a record is written. -/
theorem commitFifo : Obligations.CommitFifo := by
  intro s o rest hl hg
  refine ⟨fun hf hr => ?_, fun hf hr hahead => ?_, fun hf hr hfree hrec => ?_, fun hf hr hfree hrec ht hring => ?_, fun h => ⟨?_, ?_⟩⟩
  · exact runs_to hl rfl (commitRecord_commits hf hg hr) (sameBut_then (sameBut_updSlug _ _ _) (by decide) (sameBut_fifoLeft rest _))
      ⟨rfl, updSlug_same .., fun m hm => updSlug_other _ _ m _ hm⟩
  · have harm := fun g => sameBut_maybeArm (s.core.dev.slug o.sid).axis g (turnedOn o.sid (fifoLeft rest s.core.dev))
    refine runs_to hl rfl ((commitRecord_repeats hf hg hr).trans (reinsert_ahead hahead))
      (sameBut_then (harm _) (by decide) (sameBut_then (sameBut_turnedOn _ _) (by decide) (sameBut_mono (sameBut_fifoLeft rest _) (by decide))))
      ⟨congrArg GalleyStore.fifo (kept_gs (harm _) (by decide)), ?_, kept_gl (harm _) (by decide), maybeArm_axes .., fun m hm => ?_⟩
    · exact (maybeArm_slug ..).trans (turnedOn_slug_same ..)
    · exact (maybeArm_slug ..).trans (turnedOn_slug_other _ hm)
  · exact runs_to hl rfl (actionComplete_unrecorded hf hg hr hfree hrec)
      (sameBut_then (sameBut_updSlug _ _ _) (by decide) (sameBut_fifoLeft rest _))
      ⟨rfl, updSlug_same .., fun m hm => updSlug_other _ _ m _ hm⟩
  · exact runs_recordedCompletion hl hg hf hr hfree hrec ht hring
  · exact exec_idle rfl (commitRecord_empty h)
  · exact exec_idle rfl (actionComplete_empty h)

end Sys2Proof.Proofs
end

section
/-! O34: the arbiter of the galley, compaction and event groups (R138, R144, R325–R327, R393). -/

namespace Sys2Proof.Proofs

open Sys2Proof Sys2Proof.Machine Sys2Proof.Laws

variable {d : Dev} {w : GlWork}

/-! ### A request that stands alone is granted (R138, R325, R326) -/

/-- The device after the grant of its one request, as `g`, with the sequence counter at `n`. -/
def grantedAlone (g : GlWork) (n : W32) (d : Dev) : Dev :=
  withGl { d.gl with seq := n, wmax := max d.gl.wmax g.age }
    (withGs { d.gs with presented := [], granted := d.gs.granted ++ [g] } d)

theorem sameBut_grantedAlone (g : GlWork) (n : W32) (d : Dev) : SameBut [.gs, .gl] d (grantedAlone g n d) :=
  sameBut_mono (sameBut_withGlGs _ _ d) (by decide)

theorem fronts_single (w : GlWork) : fronts [w] [] = [(w, true)] := rfl

theorem grantChoice_single (w : GlWork) : grantChoice [w] = some w := rfl

theorem galleyGrant_single (hp : d.gs.presented = [w]) (hroom : d.gs.granted.length < 16) (hc : d.gl.compacting = false) :
    galleyGrant d = { (grantWork w d).2 with
      gs := { (grantWork w d).2.gs with presented := [], granted := d.gs.granted ++ [(grantWork w d).1] }
      gl := { (grantWork w d).2.gl with wmax := max d.gl.wmax w.age } } := by
  simp [galleyGrant, hc, hp, hroom, fronts_single, grantChoice_single]

theorem succ_ne_self (n : W32) : n + 1 ≠ n := by simp

/-- The grant of a request that stands alone: the counter goes to `n`, which the request takes if it differs. -/
theorem galleyGrant_alone {n : W32} (hp : d.gs.presented = [w]) (hgrp : w.group = none) (hroom : d.gs.granted.length < 16)
    (hc : d.gl.compacting = false) (hn : n = if TakesSeq w.op then d.gl.seq + 1 else d.gl.seq) :
    galleyGrant d =
      grantedAlone { w with pub := published d w.slug.axis, newSeq := if n = d.gl.seq then w.newSeq else n } n d := by
  rw [galleyGrant_single hp hroom hc]
  by_cases hop : TakesSeq w.op
  · rw [if_pos hop] at hn
    subst hn
    rw [grantWork_takesSeq hgrp hop, if_neg (succ_ne_self _)]
    rfl
  · rw [if_neg hop] at hn
    subst hn
    rw [grantWork_keepsSeq hgrp hop, if_pos rfl]
    rfl

/-! ### The operation granted first completes (R125, R126) -/

/-- The device with `rest` still granted. -/
def grantsLeft (rest : List GlWork) (d : Dev) : Dev := withGs { d.gs with granted := rest } d

theorem grantsLeft_slug (rest : List GlWork) (d : Dev) (m : Nat) : (grantsLeft rest d).slug m = d.slug m := withGs_slug _ d rfl m

theorem galleyComplete_hostFree {rest : List GlWork} (hg : d.gs.granted = w :: rest) (hw : w.who = .host) (hop : w.op = .free) :
    galleyComplete d = glAnswer (opFree w.sid w.seq (grantsLeft rest d)) := by
  rw [galleyComplete, hg]
  dsimp only
  rw [hw]
  dsimp only
  rw [runHost, hop]
  rfl

/-- The slug that a host's FREE names, returned to the free list. -/
def freedByHost (w : GlWork) (rest : List GlWork) (d : Dev) : Dev :=
  glAnswer (⟨.ok, .free, w.sid, (d.slug w.sid).seq⟩, freeSlug w.sid (grantsLeft rest d))

theorem galleyComplete_frees {rest : List GlWork} (hg : d.gs.granted = w :: rest) (hw : w.who = .host) (hop : w.op = .free)
    (hst : (d.slug w.sid).state = .done) (hseq : (d.slug w.sid).seq = w.seq) (hfree : bit d.gl.cfg 0 = false) :
    galleyComplete d = freedByHost w rest d := by
  have hslug := grantsLeft_slug rest d w.sid
  have hcfg : bit (grantsLeft rest d).gl.cfg 0 = false := by rw [grantsLeft, withGs_gl]; exact hfree
  rw [galleyComplete_hostFree hg hw hop, opFree_done (by rw [hslug]; exact hseq) (by rw [hslug]; exact hst) hcfg, hslug, freedByHost]

theorem sameBut_freedByHost (w : GlWork) (rest : List GlWork) (d : Dev) : SameBut [.gs, .gl] d (freedByHost w rest d) :=
  sameBut_then (sameBut_glAnswer _) (by decide) (sameBut_then (sameBut_freeSlug _ _) (by decide)
    (sameBut_mono (sameBut_withGs _ d) (by decide)))

/-! ### Compaction (R144) -/

theorem compactBegin_starts (h : d.gl.compacting = false) : compactBegin d =
    { d with gl := { d.gl with compacting := true, slots := 0 }, lo := { d.lo with compact := LongOp.begin } } :=
  if_neg (by simp [h])

theorem galleyGrant_visits (hc : d.gl.compacting = true) (hs : 15 ≤ d.gl.slots) : galleyGrant d =
    compactVisit { d with gs := { d.gs with presented := (fronts d.gs.presented []).map older } } :=
  if_pos (by simp [hc, hs])

/-- The slug that a compaction visits is freed if it is final. -/
def visited (d : Dev) : Dev :=
  if (d.slug d.lo.compact.position).state == .done || (d.slug d.lo.compact.position).state == .missed ||
    (d.slug d.lo.compact.position).state == .cancelled then freeSlug d.lo.compact.position d else d

theorem sameBut_visited (d : Dev) : SameBut [.gs] d (visited d) :=
  sameBut_ite (fun _ => sameBut_freeSlug _ d) fun _ => sameBut_refl _ d

theorem visited_granted (d : Dev) : (visited d).gs.granted = d.gs.granted := by
  unfold visited
  split
  · exact freeSlug_granted _ d
  · rfl

theorem visited_slug_done (h : (d.slug d.lo.compact.position).state = .done) :
    ((visited d).slug d.lo.compact.position).state = .free := by
  rw [visited, if_pos (by simp [h]), freeSlug_slug_same]

theorem visited_slug_other {m : Nat} (h : m ≠ d.lo.compact.position) : (visited d).slug m = d.slug m := by
  unfold visited
  split
  · exact freeSlug_slug_other d h
  · rfl

/-- The compaction's POSITION and PROGRESS after the visit at `sid`. -/
def advanced (sid : Nat) (o : LongOp) : LongOp :=
  { o with position := if sid + 1 < 262144 then sid + 1 else o.position, progress := (sid + 1) * 10000 / 262144 }

theorem compactVisit_eq (d : Dev) : compactVisit d = { visited d with
    gl := { (visited d).gl with slots := 0 }
    lo := { (visited d).lo with compact := advanced d.lo.compact.position (visited d).lo.compact } } := rfl

theorem sameBut_glLo (d : Dev) (x : Galley) (y : LongOps) : SameBut [.gl, .lo] d { d with gl := x, lo := y } :=
  sameBut_then (sameBut_lo { d with gl := x } y) (by decide) (sameBut_mono (sameBut_gl d x) (by decide))

theorem sameBut_compactVisit (d : Dev) : SameBut [.gs, .gl, .lo] d (compactVisit d) := by
  rw [compactVisit_eq]
  exact sameBut_then (sameBut_glLo (visited d) _ _) (by decide) (sameBut_mono (sameBut_visited d) (by decide))

theorem compactVisit_position (h : d.lo.compact.position + 1 < 262144) :
    (compactVisit d).lo.compact.position = d.lo.compact.position + 1 := if_pos h

theorem compactVisit_gl (d : Dev) : (compactVisit d).gl = { d.gl with slots := 0 } := by
  rw [← kept_gl (sameBut_visited d) (by decide)]
  rfl

theorem sameBut_gsGl (d : Dev) (x : GalleyStore) (y : Galley) : SameBut [.gs, .gl] d { d with gs := x, gl := y } :=
  sameBut_mono (sameBut_withGlGs y x d) (by decide)

theorem sameBut_compactDone (d : Dev) : SameBut [.gs, .gl] d (compactDone d) :=
  sameBut_trans (sameBut_mono (sameBut_forEach freeSlug sameBut_freeSlug _ d) (by decide)) (sameBut_gsGl _ _ _)

/-- A compaction done, with POSITION at the last SID (R392). -/
def compactionEnded (l : LongOps) : LongOps := { l with compact := { l.compact.finish true with position := 262143 } }

theorem compactFinish_running (h : d.gl.compacting = true) : compactFinish d = loFinish compactionEnded (compactDone d) := if_pos h

theorem loFinish_gl (f : LongOps → LongOps) (d : Dev) : (loFinish f d).gl = d.gl := kept_gl (sameBut_loFinish f d) (by decide)

/-! ### Event groups (R393) -/

/-- The device with the trigger of group `g` taken, which has fired and presents `ws`. -/
def groupFired (g : Nat) (ws : List GlWork) (d : Dev) : Dev :=
  let d1 := { d with ds := { d.ds with trigs := d.ds.trigs.erase g } }
  { (d1.updGroup g fun x => { x with fired := incSat x.fired }) with gs := { d.gs with presented := d.gs.presented ++ ws } }

theorem sameBut_groupFired (g : Nat) (ws : List GlWork) (d : Dev) : SameBut [.ds, .gs] d (groupFired g ws d) :=
  sameBut_then (sameBut_gs _ _) (by decide) (sameBut_then (sameBut_updGroup _ _ _) (by decide)
    (sameBut_mono (sameBut_ds d _) (by decide)))

/-- An armed group that has no insertion in progress presents one request for each of its templates. -/
theorem groupTrigger_fires {g : Nat} (he : (d.group g).enable = true) (h1 : 1 ≤ fld (d.group g).trigger 28 4)
    (h3 : fld (d.group g).trigger 28 4 ≤ 3) (hidle : ((d.gs.presented ++ d.gs.granted).any fun w => w.group == some g) = false) :
    ∃ ws : List GlWork, ws.length = (d.group g).templates.length / 32 ∧ groupTrigger g d = groupFired g ws d := by
  have harmed : (!(d.group g).enable || fld (d.group g).trigger 28 4 == 0 || decide (4 ≤ fld (d.group g).trigger 28 4)) = false := by
    simp only [he, Bool.not_true, Bool.false_or, Bool.or_eq_false_iff, beq_eq_false_iff_ne, decide_eq_false_iff_not]
    omega
  unfold groupTrigger
  dsimp only
  rw [if_neg (Bool.eq_false_iff.mp harmed), if_neg (Bool.eq_false_iff.mp hidle)]
  exact ⟨_, by simp, rfl⟩

theorem exec_eventGroupTrigger {s : State} {g : Nat} (hg : g < 256) :
    exec (.eventGroupTrigger g) s = whenLiveDev true (groupTrigger g) s :=
  congrArg (fun ok => whenLiveDev ok (groupTrigger g) s) (decide_eq_true hg)

/-! ### The statement -/

/-- Settles O34: the request alone in the line is chosen; what completes, what a compaction visits and what a group presents go
through the operations' own equations. -/
theorem galleyArbitration : Obligations.GalleyArbitration := by
  intro s hl
  refine ⟨fun w n hp hgrp hroom hc hn => ?_, fun w rest hg hw hop hst hseq hfree => ?_, fun hc => ?_, fun hc hs hpos => ?_,
    fun hc => ?_, ?_, fun g hg he h1 h3 hidle => ?_⟩
  · exact runs_to hl rfl (galleyGrant_alone hp hgrp hroom hc hn) (sameBut_grantedAlone _ _ _) ⟨rfl, rfl⟩
  · refine runs_to hl rfl (galleyComplete_frees hg hw hop hst hseq hfree) (sameBut_freedByHost w rest _) ⟨?_, ?_, ?_, ?_⟩
    · simp [freedByHost, freeSlug_granted, grantsLeft]
    · simp [freedByHost, freeSlug_slug_same, grantsLeft_slug]
    · simp [freedByHost, glAnswer_gl]
    · exact (glAnswer_result (n := 0) (by decide)).trans (congrArg _ (Nat.zero_add w.sid))
  · exact runs_to hl rfl (compactBegin_starts hc) (sameBut_glLo _ _ _) ⟨rfl, rfl⟩
  · exact runs_to hl rfl (galleyGrant_visits hc hs)
      (sameBut_then (sameBut_compactVisit _) (by decide) (sameBut_mono (sameBut_gs _ _) (by decide)))
      ⟨compactVisit_position hpos, compactVisit_gl _, visited_granted _, fun hst => visited_slug_done hst, fun m hm => visited_slug_other hm⟩
  · have hlo := loFinish_lo compactionEnded (compactDone s.core.dev)
    refine runs_to hl rfl (compactFinish_running hc) (sameBut_then (sameBut_loFinish _ _) (by decide)
      (sameBut_mono (sameBut_compactDone _) (by decide))) ⟨?_, ?_, ?_⟩
    · exact congrArg Galley.compacting (loFinish_gl compactionEnded (compactDone s.core.dev))
    · exact congrArg (fun l => l.compact.state) hlo
    · exact congrArg (fun l => l.compact.position) hlo
  · exact runs_to hl rfl rfl (sameBut_gl _ _) rfl
  · obtain ⟨ws, hlen, hfires⟩ := groupTrigger_fires he h1 h3 hidle
    exact runs_to hl (exec_eventGroupTrigger hg) hfires (sameBut_groupFired g ws _)
      ⟨updGroup_same .., by simp [groupFired, hlen], rfl⟩

end Sys2Proof.Proofs
end

section
/-! O35: a host reads a slug's image through the galley window (R143). -/

namespace Sys2Proof.Proofs

open Sys2Proof Sys2Proof.Machine Sys2Proof.Laws

section
variable {sid : Nat} (hsid : sid < 262144)
include hsid

theorem windowImage_slug : windowImage (32 * sid) = some (32 * sid, 8) := by
  have hbase : 32 * sid / 32 * 32 = 32 * sid := by omega
  rw [windowImage, if_pos (by omega), hbase]

/-- Word `k` of the image of slug `sid`. -/
theorem windowPeek_slug {k : Nat} (d : Dev) (hk : k < 8) :
    windowPeek d (32 * sid + 4 * k) = (slugImage sid (d.slug sid) >>> (32 * k)).setWidth 32 := by
  have hslug : (32 * sid + 4 * k) / 32 = sid := by omega
  have hword : (32 * sid + 4 * k) / 4 % 8 * 32 = 32 * k := by omega
  rw [windowPeek, if_pos (by omega), hslug, hword]

end

/-- The words of a slug's image behind the first, as the read of the first latches them. -/
def wordsBehind (sid : Nat) (d : Dev) : List (Nat × W32) :=
  (List.range (8 - 1)).map fun k =>
    (windowKey (32 * sid + 4 * (k + 1)), windowPeek d (32 * sid + 4 * (k + 1)))

/-- The device after the read of the first word of slug `sid` through port `p`. -/
def windowLatched (p sid : Nat) (d : Dev) : Dev :=
  putData p (windowPeek d (32 * sid)) (setLatch p (wordsBehind sid d) d)

theorem sameBut_windowLatched (p sid : Nat) (d : Dev) : SameBut [.hi] d (windowLatched p sid d) :=
  sameBut_trans (sameBut_setLatch p _ d) (sameBut_putData p _ _)

theorem windowRead_slug {p sid : Nat} {c : Core} (hsid : sid < 262144) (hup : fabricUp c.dev = true) :
    windowRead p (32 * sid) c = { c with dev := windowLatched p sid c.dev } := by
  have hword : 32 * sid % 2 ^ 24 / 4 * 4 = 32 * sid := by omega
  rw [windowRead, hword, if_neg (by simp [hup]), windowImage_slug hsid]
  dsimp only
  rw [if_pos rfl, Core.mapDev, windowLatched, wordsBehind]

theorem exec_galleyWindowRead {s : State} {p sid : Nat} (hp : p < 2) (hsid : sid < 262144) :
    exec (.galleyWindowRead p (32 * sid)) s = onCore true (viaPort p (windowRead p (32 * sid))) s := by
  have hwf : Instr.wf (.galleyWindowRead p (32 * sid)) = true := by
    simp only [Instr.wf, isBar2, Bool.and_eq_true, decide_eq_true_eq]
    omega
  exact congrArg (fun ok => onCore ok (viaPort p (windowRead p (32 * sid))) s) hwf

/-- Settles O35: the read latches the words behind the first, each of them a word of the slug's image. -/
theorem galleyWindow : Obligations.GalleyWindow := by
  intro s p sid hp hsid ho
  have hsid : sid < 262144 := of_decide_eq_true hsid
  have hpath : isPath p = true := by simp [isPath, hp]
  obtain ⟨hup, -⟩ := ho.1 hp
  have hx := exec_galleyWindowRead (s := s) hp hsid
  rw [onCore_ok, viaPort_open hpath ho, windowRead_slug hsid hup] at hx
  have hlatch : ((windowLatched p sid s.core.dev).path p).latch = wordsBehind sid s.core.dev :=
    (congrArg PortPath.latch (putData_path ..)).trans (setLatch_latch ..)
  refine ⟨_, hx, changesOnly_sameBut (sameBut_windowLatched p sid _), (putData_data ..).trans ?_, ?_, ?_⟩
  · exact windowPeek_slug hsid s.core.dev (k := 0) (by decide)
  · exact (congrArg List.length hlatch).trans (by simp [wordsBehind])
  · exact (congrArg (fun l : List (Nat × W32) => (l.getD 6 (0, 0)).2) hlatch).trans
      (windowPeek_slug hsid s.core.dev (k := 6 + 1) (by decide))

end Sys2Proof.Proofs
end

section
/-! O28: the policy of an axis, served and walked (R148, R150, R151, R153). -/

namespace Sys2Proof.Proofs

open Sys2Proof Sys2Proof.Machine Sys2Proof.Laws

/-! ### The walks and the policy counts -/

section
variable (ws : List UpdReq) (f : PolicyCounts → PolicyCounts) (d : Dev)

/-- The device with `ws` as the walks under way. -/
def withWalks : Dev := { d with ax := { d.ax with walks := ws } }

theorem sameBut_withWalks : SameBut [.ax] d (withWalks ws d) := sameBut_ax d _

theorem sameBut_polCount : SameBut [.ax] d (polCount f d) := sameBut_ax d _

end

section
variable {d : Dev} {e a sid : Nat} {seq : W32} {ab : Bool} {t : Time64}

/-! ### An ended slug whose record is not selected (R127, R140) -/

/-- The galley's registers with one more slug MISSED. -/
def missCounted (x : Galley) : Galley := { x with missed := incSat x.missed }

/-- The device with slug `sid` retained in state `st`. -/
def marked (sid : Nat) (st : SlugState) (d : Dev) : Dev := d.updSlug sid fun x => { x with state := st }

theorem sameBut_marked (sid : Nat) (st : SlugState) (d : Dev) : SameBut [.gs] d (marked sid st d) := sameBut_updSlug d sid _

theorem marked_state (sid : Nat) (st : SlugState) (d : Dev) : ((marked sid st d).slug sid).state = st :=
  congrArg Slug.state (updSlug_same ..)

theorem marked_other {m : Nat} (st : SlugState) (d : Dev) (h : m ≠ sid) : (marked sid st d).slug m = d.slug m :=
  updSlug_other _ _ _ _ h

theorem missSlug_unrecorded {reason : Nat} (hrpt : (d.slug sid).rpt = false) (hfree : bit d.gl.cfg 0 = false)
    (hrec : recordSelected d (plainRecord sid (d.slug sid) .missed reason t) = false) :
    missSlug sid reason t d = marked sid .missed (withGl (missCounted d.gl) d) := by
  have hwrite := writeRecord_unselected (d := withGl (missCounted d.gl) d) (r := plainRecord sid (d.slug sid) .missed reason t)
    (by exact hrec)
  calc missSlug sid reason t d
      = retireSlug sid .missed (writeRecord (plainRecord sid (d.slug sid) .missed reason t) (withGl (missCounted d.gl) d)) :=
        if_neg (by simp [hrpt])
    _ = marked sid .missed (withGl (missCounted d.gl) d) := by rw [hwrite, retireSlug_retains _ (by exact hfree), marked]

theorem cancelSlug_unrecorded {reason : Nat} (hfree : bit d.gl.cfg 0 = false)
    (hrec : recordSelected d (plainRecord sid (d.slug sid) .cancelled reason t) = false) :
    cancelSlug sid reason t d = marked sid .cancelled d := by
  rw [cancelSlug, writeRecord_unselected hrec, retireSlug_retains _ hfree, marked]

/-! ### The policy matrix, cell by cell (R153) -/

/-- One more slug MISSED by a suppressed entry. -/
def countSuppressed (p : PolicyCounts) : PolicyCounts := { p with suppressedMissed := incSat p.suppressedMissed }

/-- One more slug CANCELLED by a SEARCH, a disable or a RESYNC. -/
def countSearch (p : PolicyCounts) : PolicyCounts := { p with searchCancelled := incSat p.searchCancelled }

/-- An armed slug of a suppressed entry is MISSED, and counted. -/
theorem serveEntry_suppressed (hst : (d.slug sid).state = .armed) (hseq : (d.slug sid).seq = seq)
    (hrpt : (d.slug sid).rpt = false) (hfree : bit d.gl.cfg 0 = false)
    (hrec : recordSelected d (plainRecord sid (d.slug sid) .missed 5 t) = false) :
    serveEntry .suppressed ab t (sid, seq) d = polCount countSuppressed (marked sid .missed (withGl (missCounted d.gl) d)) :=
  calc serveEntry .suppressed ab t (sid, seq) d
      = polCount countSuppressed (missSlug sid 5 t d) := if_pos (by simp [hst, hseq])
    _ = _ := by rw [missSlug_unrecorded hrpt hfree hrec]

/-- A parked slug of a disabled axis is CANCELLED, and counted. -/
theorem walkSlug_disabled (hst : (d.slug sid).state = .parked) (hseq : (d.slug sid).seq = seq)
    (hfree : bit d.gl.cfg 0 = false) (hrec : recordSelected d (plainRecord sid (d.slug sid) .cancelled 8 t) = false) :
    walkSlug .disabled ab t (sid, seq) d = polCount countSearch (marked sid .cancelled d) :=
  calc walkSlug .disabled ab t (sid, seq) d
      = polCount countSearch (cancelSlug sid 8 t d) := if_neg (by simp [hst, hseq])
    _ = _ := by rw [cancelSlug_unrecorded hfree hrec]

/-! ### The service (R25, R150) -/

theorem policyService_refused (h : canServe d e a = false) : policyService e a d = d := by
  unfold policyService
  split
  · rw [if_neg (by simp [h])]
  · rfl

/-- A request at the head of its queue is served, alone when no update request of the axis is left behind it. -/
theorem policyService_serves {kind : PolicyKind} {ents sids : List (Nat × W32)} {rest : List UpdReq} (hc : canServe d e a = true)
    (hq : d.queue (clusterOf a) = .policy a kind ab ents sids t :: rest)
    (hleft : (servePolicy e (.policy a kind ab ents sids t) d).queue (clusterOf a) = rest)
    (hu : rest.contains (.update a) = false) : policyService e a d = servePolicy e (.policy a kind ab ents sids t) d := by
  unfold policyService
  rw [hq]
  dsimp only [nextReq]
  rw [if_pos ⟨rfl, hc⟩, hleft, hu, Bool.false_and, if_neg (by decide)]

/-- The device with the request `r` out of the queue of axis `a`. -/
def unqueued (a : Nat) (r : UpdReq) (d : Dev) : Dev := d.updQueue (clusterOf a) fun q => q.erase r

theorem sameBut_unqueued (a : Nat) (r : UpdReq) (d : Dev) : SameBut [.ax] d (unqueued a r d) := sameBut_updQueue d _ _

theorem unqueued_head {r : UpdReq} {rest : List UpdReq} (hq : d.queue (clusterOf a) = r :: rest) :
    (unqueued a r d).queue (clusterOf a) = rest := by
  rw [unqueued, updQueue_same, hq, List.erase_cons_head]

/-- A request that has acted on no entry only passes its walk on. -/
theorem servePolicy_walkOnly {kind : PolicyKind} {sids : List (Nat × W32)} (hk : kind ≠ .suppressed) (hg : d.gs.granted = []) :
    servePolicy e (.policy a kind ab [] sids t) d =
      withWalks (d.ax.walks ++ [.policy a kind ab [] sids t])
        (chargeCredits e 0 (unqueued a (.policy a kind ab [] sids t) d)) := by
  unfold servePolicy
  dsimp only
  rw [if_neg hk, settleGranted_none (by exact hg)]
  rfl

/-- A request for one suppressed entry has no walk. -/
theorem servePolicy_suppressed (hg : d.gs.granted = []) :
    servePolicy e (.policy a .suppressed ab [(sid, seq)] [] t) d =
      chargeCredits e 12 (serveEntry .suppressed ab t (sid, seq) (unqueued a (.policy a .suppressed ab [(sid, seq)] [] t) d)) := by
  unfold servePolicy
  dsimp only
  rw [if_pos rfl, settleGranted_none (by exact hg)]
  rfl

/-- A request that acts on no entry costs one credit (log entry 40). -/
theorem chargeCredits_least (e : Nat) (d : Dev) : ((chargeCredits e 0 d).eng e).credits = (d.eng e).credits - 1 := by
  rw [chargeCredits, updEng_same]
  rfl

/-- The device after the service of one suppressed entry whose slug was still armed, `d` being the device with the request out of
its queue. -/
def suppressedServed (e sid : Nat) (d : Dev) : Dev :=
  chargeCredits e 12 (polCount countSuppressed (marked sid .missed (withGl (missCounted d.gl) d)))

theorem sameBut_suppressedServed (e sid : Nat) (d : Dev) : SameBut [.ax, .ne, .gl, .gs] d (suppressedServed e sid d) :=
  sameBut_then (sameBut_chargeCredits _ _ _) (by decide) (sameBut_then (sameBut_polCount _ _) (by decide)
    (sameBut_then (sameBut_marked _ _ _) (by decide) (sameBut_mono (sameBut_withGl _ d) (by decide))))

theorem suppressedServed_slug (e sid m : Nat) (d : Dev) : (suppressedServed e sid d).slug m = (marked sid .missed d).slug m := rfl

theorem suppressedServed_gl (e sid : Nat) (d : Dev) : (suppressedServed e sid d).gl = missCounted d.gl := rfl

theorem suppressedServed_queue (e sid q : Nat) (d : Dev) : (suppressedServed e sid d).queue q = d.queue q := rfl

/-! ### The walk (R151) -/

/-- No walk of axis `a` is under way or still to come: none waits, none follows a request of the queue, and no engine has a request
in hand. -/
def NoWalkLeft (a : Nat) (d : Dev) : Prop :=
  d.ax.walks = [] ∧ (d.queue (clusterOf a)).any (walksFor a) = false ∧ ∀ g ∈ d.ne, g.2.taken = none

/-- POLICY_BUSY falls. -/
def busyCleared (x : Axis) : Axis := { x with st := { x.st with policyBusy := false } }

/-- The one walk under way, over one slug, is the axis's last: POLICY_BUSY falls with it. -/
theorem policyWalk_last {kind : PolicyKind} {ents : List (Nat × W32)} {w : Nat × W32} {d1 : Dev}
    (hw : d.ax.walks = [.policy a kind ab ents [w] t]) (hg : d.gs.granted = [])
    (hslug : walkSlug kind ab t w (withWalks [] d) = d1) (hlast : NoWalkLeft a d1) :
    policyWalk a d = d1.updAxis a busyCleared := by
  obtain ⟨hwalks, hqueue, htaken⟩ := hlast
  have hstart : settleGranted { d with ax := { d.ax with walks := [] } } = withWalks [] d := settleGranted_none hg
  unfold policyWalk
  rw [hw, List.find?_cons_of_pos (by simp [isPolicyOf])]
  dsimp only
  rw [List.erase_cons_head, hstart, forEach, List.foldl_cons, List.foldl_nil, hslug, if_neg]
  · rfl
  · rw [hwalks, hqueue, List.any_nil, Bool.false_or, Bool.false_or, Bool.not_eq_true, List.any_eq_false]
    intro g hmem
    simp [htaken g hmem]

/-- The device after the walk over one slug that a disable cancels. -/
def disabledWalked (sid : Nat) (d : Dev) : Dev := polCount countSearch (marked sid .cancelled (withWalks [] d))

theorem sameBut_disabledWalked (sid : Nat) (d : Dev) : SameBut [.ax, .gs] d (disabledWalked sid d) :=
  sameBut_then (sameBut_polCount _ _) (by decide) (sameBut_then (sameBut_marked _ _ _) (by decide)
    (sameBut_mono (sameBut_withWalks [] d) (by decide)))

theorem disabledWalked_slug (sid m : Nat) (d : Dev) : (disabledWalked sid d).slug m = (marked sid .cancelled d).slug m := rfl

theorem disabledWalked_noWalkLeft (sid : Nat) (hq : (d.queue (clusterOf a)).any (walksFor a) = false)
    (ht : d.ne.all (fun g => g.2.taken.isNone) = true) : NoWalkLeft a (disabledWalked sid d) :=
  ⟨rfl, hq, fun g hg => Option.isNone_iff_eq_none.mp (List.all_eq_true.mp ht g hg)⟩

end

/-! ### The commands -/

theorem exec_policyWalk {s : State} {a : Nat} (ha : isAxis a = true) :
    exec (.policyWalk a) s = whenRunningDev true (policyWalk a) s :=
  congrArg (fun ok => whenRunningDev ok (policyWalk a) s) ha

/-- Settles O28: a service by the credits and by whether its request has a walk, the last walk by the one slug that it passes. -/
theorem policyWork : Obligations.PolicyWork := by
  intro s e a sid ab seq t0 he ha hl hrun hg
  have hx := exec_policyService (s := s) he ha
  refine ⟨fun hc => ?_, fun rest kind hc hk hu hq => ?_, fun rest hc hu hq hst hseq hrpt hfree hrec => ?_,
    fun hw hq ht hst hseq hfree hrec => ?_⟩
  · exact exec_idle_running hx (policyService_refused hc)
  · have hserve := servePolicy_walkOnly (e := e) (a := a) (ab := ab) (sids := [(sid, seq)]) (t := t0) hk hg
    have hleft : (servePolicy e (.policy a kind ab [] [(sid, seq)] t0) s.core.dev).queue (clusterOf a) = rest := by
      rw [hserve]
      exact unqueued_head hq
    refine runs_running_to hl hrun hx ((policyService_serves hc hq hleft hu).trans hserve)
      (sameBut_then (sameBut_withWalks _ _) (by decide) (sameBut_then (sameBut_chargeCredits _ _ _) (by decide)
        (sameBut_mono (sameBut_unqueued _ _ _) (by decide)))) ⟨unqueued_head hq, rfl, ?_⟩
    exact chargeCredits_least e _
  · have hserve : servePolicy e (.policy a .suppressed ab [(sid, seq)] [] t0) s.core.dev = suppressedServed e sid _ :=
      (servePolicy_suppressed hg).trans (congrArg (chargeCredits e 12)
        (serveEntry_suppressed (by exact hst) hseq hrpt hfree (by exact hrec)))
    have hleft : (servePolicy e (.policy a .suppressed ab [(sid, seq)] [] t0) s.core.dev).queue (clusterOf a) = rest := by
      rw [hserve, suppressedServed_queue, unqueued_head hq]
    refine runs_running_to hl hrun hx ((policyService_serves hc hq hleft hu).trans hserve)
      (sameBut_then (sameBut_suppressedServed _ _ _) (by decide) (sameBut_mono (sameBut_unqueued _ _ _) (by decide)))
      ⟨?_, congrArg Galley.missed (suppressedServed_gl ..), unqueued_head hq, fun m hm => ?_⟩
    · exact (congrArg Slug.state (suppressedServed_slug ..)).trans (marked_state ..)
    · exact (suppressedServed_slug ..).trans (marked_other _ _ hm)
  · have hwalk := policyWalk_last hw hg (walkSlug_disabled (by exact hst) hseq hfree (by exact hrec))
      (disabledWalked_noWalkLeft sid hq ht)
    refine runs_running_to hl hrun (exec_policyWalk ha) hwalk
      (sameBut_then (sameBut_updAxis _ _ _) (by decide) (sameBut_disabledWalked sid _)) ⟨?_, ?_, rfl, fun m hm => ?_⟩
    · exact (congrArg Slug.state (disabledWalked_slug ..)).trans (marked_state ..)
    · exact congrArg (fun x : Axis => x.st.policyBusy) (updAxis_same ..)
    · exact (disabledWalked_slug ..).trans (marked_other _ _ hm)

end Sys2Proof.Proofs
end

section
/-! SUPPORT. The output stage and the counter of one channel: how a command that changes one of them completes, the level that a stage
takes, the writes and the reload at the end of a TCLK, and the count and the run state of the next one (R166–R180, R209–R224). -/

namespace Sys2Proof.Proofs

open Sys2Proof Sys2Proof.Machine Sys2Proof.Laws

/-! ### Fields of words -/

/-- A field is what its bits are. -/
theorem fld_congr {v w : W32} {lo len : Nat} (h : ∀ j, lo ≤ j → j < lo + len → bit v j = bit w j) : fld v lo len = fld w lo len := by
  have hext : v.extractLsb' lo len = w.extractLsb' lo len := by
    apply BitVec.eq_of_getLsbD_eq
    intro j hj
    have hbit := h (lo + j) (by omega) (by omega)
    rw [bit, bit] at hbit
    rw [BitVec.getLsbD_extractLsb', BitVec.getLsbD_extractLsb', hbit]
  rw [fld_eq_extract, fld_eq_extract, hext]

theorem fld_orBit_other (w : W32) {i lo len : Nat} (h : i < lo ∨ lo + len ≤ i) : fld (orBit w i) lo len = fld w lo len :=
  fld_congr fun j _ _ => bit_orBit_other w i j (by omega)

theorem bit_and (v w : W32) (j : Nat) : bit (v &&& w) j = (bit v j && bit w j) := BitVec.getLsbD_and ..

/-! ### Commands on one channel -/

section
variable {i : Instr} {s : State} {n : Nat} {g : Dev → Dev}

/-- A well-formed command of the core has the effect of its row. -/
theorem exec_wellFormed (hw : Instr.wf i = true) (hx : exec i s = whenLiveDev (Instr.wf i) g s) : exec i s = whenLiveDev true g s := by
  rw [hx, hw]

/-- A command that changes one output stage. -/
theorem runs_updOut {f : ChanOut → ChanOut} (hl : live s.core.dev = true) (hx : exec i s = whenLiveDev true g s)
    (hg : g s.core.dev = s.core.dev.updOut n f) : Runs i s [.ch] fun t =>
      t.core.dev.chOut n = f (s.core.dev.chOut n) ∧ ∀ m, m ≠ n → t.core.dev.chOut m = s.core.dev.chOut m :=
  runs_to hl hx hg (sameBut_updOut _ n f) ⟨updOut_same _ n f, fun m hm => updOut_other _ n m f hm⟩

/-- A command that changes one counter. -/
theorem runs_updCnt {f : ChanCnt → ChanCnt} (hl : live s.core.dev = true) (hx : exec i s = whenLiveDev true g s)
    (hg : g s.core.dev = s.core.dev.updCnt n f) : Runs i s [.ch] fun t =>
      t.core.dev.chCnt n = f (s.core.dev.chCnt n) ∧ ∀ m, m ≠ n → t.core.dev.chCnt m = s.core.dev.chCnt m :=
  runs_to hl hx hg (sameBut_updCnt _ n f) ⟨updCnt_same _ n f, fun m hm => updCnt_other _ n m f hm⟩

end

theorem sameBut_ch (d : Dev) (x : Channels) : SameBut [.ch] d { d with ch := x } := by
  intro v b hb
  cases b
  case ch => simp at hb
  all_goals rfl

/-! ### Levels (R166, R176) -/

section
variable {d : Dev} {n : Nat} {v : Bool} {e : Time64} {g : Nat}

theorem putLevel_ch (n : Nat) (v : Bool) (e : Time64) (g : Nat) (d : Dev) : (putLevel n v e g d).ch =
    if (d.chOut n).lvl = v then d.ch else (d.updOut n fun o => { o with lvl := v, lvlAt := g }).ch := by
  unfold putLevel
  dsimp only
  split
  · rfl
  · split
    · exact kept_ch (sameBut_queueEdge n v _ e _) (by decide)
    · rfl

/-- The level is put; of its own stage it changes nothing else but the instant. -/
theorem putLevel_same (n : Nat) (v : Bool) (e : Time64) (g : Nat) (d : Dev) : ∃ k,
    (putLevel n v e g d).chOut n = { d.chOut n with lvl := v, lvlAt := k } := by
  unfold Dev.chOut
  rw [putLevel_ch]
  split
  · rename_i h
    exact ⟨(d.chOut n).lvlAt, by rw [← h]; rfl⟩
  · exact ⟨g, updOut_same ..⟩

theorem putLevel_other {m : Nat} (h : m ≠ n) : (putLevel n v e g d).chOut m = d.chOut m := by
  unfold Dev.chOut
  rw [putLevel_ch]
  split
  · rfl
  · exact updOut_other _ _ _ _ h

theorem putLevel_chEm (m : Nat) : (putLevel n v e g d).chEm m = d.chEm m := by
  unfold Dev.chEm
  rw [putLevel_ch]
  split <;> rfl

/-- A request sets the level and leaves the pending end of a pulse. -/
theorem setLevel_same (n : Nat) (v : Bool) (e : Time64) (g : Nat) (d : Dev) :
    ((setLevel n v e g d).chOut n).lvl = v ∧ ((setLevel n v e g d).chOut n).pulseEnd = (d.chOut n).pulseEnd := by
  have hput : ∀ x : Dev, ((putLevel n v e g x).chOut n).lvl = v ∧
      ((putLevel n v e g x).chOut n).pulseEnd = (x.chOut n).pulseEnd := fun x => by
    obtain ⟨k, hk⟩ := putLevel_same n v e g x
    rw [hk]
    exact ⟨rfl, rfl⟩
  unfold setLevel
  dsimp only
  split
  · exact ⟨‹_›, rfl⟩
  · exact ⟨(hput _).1, (hput _).2.trans (by rw [updOut_same])⟩

theorem setLevel_other {m : Nat} (h : m ≠ n) : (setLevel n v e g d).chOut m = d.chOut m := by
  unfold setLevel
  dsimp only
  split
  · rfl
  · rw [putLevel_other h, updOut_other _ _ _ _ h]

theorem levelRequest_sets (h : emulated d n = false) : levelRequest n v e g d = setLevel n v e g d :=
  if_neg (by simp [h])

theorem takeIdle_puts (h : emulated d n = false) : takeIdle n d = putLevel n (outIdl (d.chOut n)) d.tb.time d.localNow d :=
  if_neg (by simp [h])

theorem mergeDue_none {forced : Bool} (h : (d.chOut n).reqs = []) : ((mergeDue forced n d).chOut n).lvl = (d.chOut n).lvl := by
  simp [mergeDue, dueReqs, h, forEach]

/-- R179: at the start of the TCLK after an enable the level is IDL. -/
theorem openTclk_idles (he : emulated d n = false) (hr : (d.chOut n).reqs = []) :
    ((openTclk true n d).chOut n).lvl = outIdl (d.chOut n) := by
  obtain ⟨k, hk⟩ := putLevel_same n (outIdl (d.chOut n)) d.tb.time d.localNow d
  have hopen : openTclk true n d = mergeDue false n (putLevel n (outIdl (d.chOut n)) d.tb.time d.localNow d) := by
    simp [openTclk, he, takeIdle_puts he]
  rw [hopen, mergeDue_none (by rw [hk]; exact hr), hk]

end

/-! ### The end of a TCLK: writes and reloads (R169–R173) -/

theorem landWrite_ctl (o : ChanOut) (w : CompareLanding) : (landWrite o w).ctl = o.ctl := by
  unfold landWrite
  split <;> rfl

theorem landed_ctl (o : ChanOut) : (landed o).ctl = o.ctl := by
  unfold landed
  suffices h : ∀ (l : List CompareLanding) (x : ChanOut), (l.foldl landWrite x).ctl = x.ctl from h _ o
  intro l
  induction l with
  | nil => exact fun _ => rfl
  | cons w l ih => exact fun x => (ih _).trans (landWrite_ctl x w)

/-- The end of a TCLK leaves the control word. -/
theorem landOut_ctl (d : Dev) (n : Nat) (o : ChanOut) : (landOut d n o).ctl = o.ctl := by
  unfold landOut
  dsimp only
  rw [landed_ctl]
  repeat' split
  all_goals rfl

theorem nextOut_enNow (d : Dev) (n : Nat) : (nextOut d n).enNow = chEn (d.chOut n) :=
  congrArg (bit · 31) (landOut_ctl d n (d.chOut n))

/-! ### The next TCLK: run state and count (R178, R179, R210–R217) -/

section
variable {d : Dev} {n : Nat}

theorem nextCnt_run (d : Dev) (n : Nat) : (nextCnt d n).run = runNext d n := rfl

theorem runNext_disabled (h : chEn (d.chOut n) = false) : runNext d n = false := by simp [runNext, h]

/-- R179, R215: a stage that starts runs in the modes that need no start, unless HOLDEN holds it. -/
theorem runNext_starting (hen : chEn (d.chOut n) = true) (hs : (d.chOut n).starting = true) (hg : (d.chCnt n).go = false)
    (hh : (d.chCnt n).halt = false) :
    runNext d n = (chMode (d.chOut n) != 2 && chMode (d.chOut n) != 3 && !lnkHold (d.chCnt n)) := by
  by_cases h3 : chMode (d.chOut n) = 3
  · simp [runNext, isStage, h3]
  · simp [runNext, isStage, hen, hs, hg, hh, bne_iff_ne.mpr h3, beq_eq_false_iff_ne.mpr h3]

/-- The counter goes on, but for a one-shot at its terminal count (R213). -/
theorem runNext_terminal (hen : chEn (d.chOut n) = true) (hstage : isStage d n = false) (hrun : (d.chCnt n).run = true)
    (hs : (d.chOut n).starting = false) (hg : (d.chCnt n).go = false) (hh : (d.chCnt n).halt = false)
    (ht : (d.chCnt n).term = true) : runNext d n = (chMode (d.chOut n) != 2) := by
  by_cases h2 : chMode (d.chOut n) = 2 <;> simp [runNext, hen, hstage, hrun, hs, hg, hh, ht, h2]

theorem nextCnt_written {v : W32} (h : (d.chCnt n).wr = some v) : (nextCnt d n).cnt = v := by simp [nextCnt, countNext, h]

/-- R179, R217: an enable and a reset put the count to 0. -/
theorem nextCnt_zeroed (hw : (d.chCnt n).wr = none) (h : (d.chOut n).starting = true ∨ (d.chCnt n).rst = true) :
    (nextCnt d n).cnt = 0 := by simp [nextCnt, countNext, hw, h]

/-- So does a terminal count at which the counter moves (R167). -/
theorem nextCnt_terminal (hw : (d.chCnt n).wr = none) (hs : (d.chOut n).starting = false) (hg : (d.chCnt n).go = false)
    (hm : countMoves d n = true) (ht : (d.chCnt n).term = true) : (nextCnt d n).cnt = 0 := by
  by_cases hr : (d.chCnt n).rst = true
  · exact nextCnt_zeroed hw (.inr hr)
  · simp [nextCnt, countNext, hw, hs, hg, hm, ht, hr]

/-- The count of a disabled channel stays (log entry 90). -/
theorem nextCnt_disabled (hw : (d.chCnt n).wr = none) (hr : (d.chCnt n).rst = false) (hs : (d.chOut n).starting = false)
    (hg : (d.chCnt n).go = false) (hen : chEn (d.chOut n) = false) : (nextCnt d n).cnt = (d.chCnt n).cnt := by
  simp [nextCnt, countNext, countMoves, hw, hr, hs, hg, hen]

end

end Sys2Proof.Proofs
end

section
/-! O37: the output stages of the channels (R171, R172, R175, R177–R182, R184, R215). -/

namespace Sys2Proof.Proofs

open Sys2Proof Sys2Proof.Machine Sys2Proof.Laws

/-! ### Enable and disable (R178–R180, R215) -/

section
variable {d : Dev} {n : Nat}

theorem sameBut_channelStart (n : Nat) (d : Dev) : SameBut [.ch] d (channelStart n d) :=
  sameBut_trans (sameBut_updOut d n _) (sameBut_updCnt _ n _)
theorem sameBut_channelStop (n : Nat) (d : Dev) : SameBut [.ch] d (channelStop n d) :=
  sameBut_trans (sameBut_updOut d n _) (sameBut_updCnt _ n _)

theorem channelStart_chOut (n : Nat) (d : Dev) : (channelStart n d).chOut n = { d.chOut n with
    ctl := orBit (d.chOut n).ctl 31, starting := true, rel := true, pulseEnd := none, reqs := [] } := by simp [channelStart]
theorem channelStart_chCnt (n : Nat) (d : Dev) : (channelStart n d).chCnt n = { d.chCnt n with
    go := false, goCmd := false, halt := false, tstart := false } := by simp [channelStart]
theorem channelStart_other {m : Nat} (h : m ≠ n) :
    (channelStart n d).chOut m = d.chOut m ∧ (channelStart n d).chCnt m = d.chCnt m := by
  simp [channelStart, updOut_other _ _ _ _ h, updCnt_other _ _ _ _ h]

theorem channelStop_chOut (n : Nat) (d : Dev) : (channelStop n d).chOut n = { d.chOut n with
    ctl := clrBit (d.chOut n).ctl 31, starting := false, reqs := (d.chOut n).reqs.filter (!·.forced) } := by simp [channelStop]
theorem channelStop_chCnt (n : Nat) (d : Dev) : (channelStop n d).chCnt n = { d.chCnt n with
    go := false, goCmd := false, tstart := false } := by simp [channelStop]
theorem channelStop_other {m : Nat} (h : m ≠ n) :
    (channelStop n d).chOut m = d.chOut m ∧ (channelStop n d).chCnt m = d.chCnt m := by
  simp [channelStop, updOut_other _ _ _ _ h, updCnt_other _ _ _ _ h]

theorem channelEnable_starts (hen : chEn (d.chOut n) = false) (hr : enableRefused d n = false)
    (hs : (freeEntries d).filter (fun e => entryOfChan n e.2.2 && e.2.2.supp) = []) : channelEnable n d = channelStart n d := by
  simp [channelEnable, hen, hr, hs, forEach]

theorem channelEnable_refused (hen : chEn (d.chOut n) = false) (hr : enableRefused d n = true) :
    channelEnable n d = d.updOut n fun o => { o with stat := orBit o.stat 3 } := by
  simp [channelEnable, hen, hr, chFlag]

/-- An armed entry of a disabled channel is suppressed (R159). -/
def suppressEntry (e : Nat × Nat × Entry) (d : Dev) : Dev := putEntry e.1 e.2.1 (some { e.2.2 with supp := true }) d

theorem channelDisable_stops (hen : chEn (d.chOut n) = true) : channelDisable n d =
    forEach ((freeEntries d).filter fun e => entryOfChan n e.2.2) suppressEntry (channelStop n d) := if_pos hen

theorem sameBut_suppressEntries (l : List (Nat × Nat × Entry)) (d : Dev) : SameBut [.chases] d (forEach l suppressEntry d) :=
  sameBut_forEach suppressEntry (fun e d => sameBut_putEntry e.1 e.2.1 _ d) l d

theorem channelDisable_chOut (hen : chEn (d.chOut n) = true) (m : Nat) : (channelDisable n d).chOut m = (channelStop n d).chOut m := by
  rw [channelDisable_stops hen]
  exact kept_chOut (sameBut_suppressEntries _ _) (by decide) m

theorem channelDisable_chCnt (hen : chEn (d.chOut n) = true) (m : Nat) : (channelDisable n d).chCnt m = (channelStop n d).chCnt m := by
  rw [channelDisable_stops hen]
  exact kept_chCnt (sameBut_suppressEntries _ _) (by decide) m

theorem sameBut_channelDisable (n : Nat) (d : Dev) : SameBut [.chases, .ch] d (channelDisable n d) :=
  sameBut_ite (fun _ => sameBut_then (sameBut_suppressEntries _ _) (by decide) (sameBut_mono (sameBut_channelStop n d) (by decide)))
    fun _ => sameBut_refl _ d

theorem suppressEntry_puts (cs k : Nat) (x : Entry) (d : Dev) :
    Bank.get none ((suppressEntry (cs, k, x) d).chase cs).entries k = some { x with supp := true } := by
  rw [suppressEntry, putEntry, updChase_same]
  exact bank_get_set_same none _ k (some { x with supp := true })

end

/-! ### Forces (R177) -/

section
variable {d : Dev} {n : Nat} {v : Bool}

theorem forceLevel_takes (h : (isRemote n || !chTakes (d.chOut n) || pairEnabled (d.pair (n / 2)) || emulated d n) = false)
    (hf : forcing v (d.chOut n) = false) :
    forceLevel n v d = d.updOut n fun o => { o with reqs := o.reqs ++ [⟨d.tb.tclk + 3, 0, v, true⟩] } := by
  rw [forceLevel, if_neg (by simp [h]), if_neg (by simp [hf])]

theorem forceLevel_underWay (h : (isRemote n || !chTakes (d.chOut n) || pairEnabled (d.pair (n / 2)) || emulated d n) = false)
    (hf : forcing v (d.chOut n) = true) : forceLevel n v d = d := by
  rw [forceLevel, if_neg (by simp [h]), if_pos hf]

/-- A refused force sets FORCE_ERR, on an emulated channel ECOLL as well. -/
def forceRefused (n : Nat) (d : Dev) : Dev := if emulated d n then chFlag n 4 (chFlag n 7 d) else chFlag n 7 d

theorem forceLevel_refused (h : (isRemote n || !chTakes (d.chOut n) || pairEnabled (d.pair (n / 2)) || emulated d n) = true) :
    forceLevel n v d = forceRefused n d := if_pos h

theorem sameBut_chFlag (n b : Nat) (d : Dev) : SameBut [.ch] d (chFlag n b d) := sameBut_updOut d n _

theorem sameBut_forceRefused (n : Nat) (d : Dev) : SameBut [.ch] d (forceRefused n d) :=
  sameBut_ite (fun _ => sameBut_trans (sameBut_chFlag n 7 d) (sameBut_chFlag n 4 _)) fun _ => sameBut_chFlag n 7 d

theorem forceRefused_same (n : Nat) (d : Dev) : (forceRefused n d).chOut n = { d.chOut n with
    stat := if emulated d n then orBit (orBit (d.chOut n).stat 7) 4 else orBit (d.chOut n).stat 7 } := by
  unfold forceRefused chFlag
  split <;> simp

theorem forceRefused_other {m : Nat} (h : m ≠ n) : (forceRefused n d).chOut m = d.chOut m := by
  unfold forceRefused chFlag
  split <;> simp [updOut_other _ _ _ _ h]

end

/-! ### The pending end of a pulse (R175) -/

section
variable {d : Dev} {n : Nat}

theorem pulseEnds_none (h : (d.chOut n).pulseEnd = none) : pulseEnds n d = d := by simp [pulseEnds, h]

theorem pulsesDone_none {fin : Nat}
    (h : (d.gs.flight.filter fun o => o.chan == n && o.act == 2 && o.begun && decide (o.endAt ≤ fin)) = []) :
    pulsesDone n fin d = d := by rw [pulsesDone, h]; rfl

/-- The device after the end of a pulse whose edge time is `e` and with which no occurrence ends. -/
def pulseEnded (n : Nat) (e : Time64) (fin : Nat) (d : Dev) : Dev :=
  setLevel n false e fin (d.updOut n fun o => { o with pulseEnd := none, endLead := 0 })

theorem sameBut_pulseEnded (n : Nat) (e : Time64) (fin : Nat) (d : Dev) : SameBut outParts d (pulseEnded n e fin d) :=
  sameBut_then (sameBut_setLevel n false e fin _) (by decide) (sameBut_mono (sameBut_updOut d n _) (by decide))

theorem pulseEnds_ends {fin : Nat} (h : (d.chOut n).pulseEnd = some fin) (he : emulated d n = false)
    (hf : (d.gs.flight.filter fun o => o.chan == n && o.act == 2 && o.begun && decide (o.endAt ≤ fin)) = []) :
    ∃ e, pulseEnds n d = pulseEnded n e fin d := by
  refine ⟨plusInt (timeAt d fin) ((d.chOut n).endLead * 64 : Nat), ?_⟩
  have hreq := levelRequest_sets (v := false) (e := plusInt (timeAt d fin) ((d.chOut n).endLead * 64 : Nat)) (g := fin)
    (show emulated (d.updOut n fun o => { o with pulseEnd := none, endLead := 0 }) n = false from he)
  have hgs := kept_gs (sameBut_pulseEnded n (plusInt (timeAt d fin) ((d.chOut n).endLead * 64 : Nat)) fin d) (by decide)
  simp only [pulseEnds, h, hreq]
  exact pulsesDone_none (d := pulseEnded n _ fin d) (by rw [hgs]; exact hf)

end

/-! ### Encoder emulation (R180–R182, R184) -/

/-- An emulation with the control word that EMEN writes. -/
def enabling (e : ChanEm) : ChanEm := { e with emc := orBit e.emc 31 &&& 0xF8FF0FFF#32 }

theorem enabling_emEn (e : ChanEm) : emEn (enabling e) = true :=
  (bit_and ..).trans (by rw [bit_orBit_same _ _ (by decide)]; rfl)

theorem enabling_emSrc (e : ChanEm) : emSrc (enabling e) = emSrc e :=
  (bit_and ..).trans (by rw [bit_orBit_other _ _ _ (by decide)]; exact Bool.and_true _)

theorem enabling_emAxis (e : ChanEm) : emAxis (enabling e) = emAxis e := by
  refine fld_congr fun j _ hj => ?_
  have hmask : ∀ j < 12, bit 0xF8FF0FFF#32 j = true := by decide
  rw [enabling, bit_and, hmask j (by omega), Bool.and_true, bit_orBit_other _ _ _ (by omega)]

/-- The target depends on the axis and the steps alone. -/
theorem enabling_emTarget (d : Dev) (e : ChanEm) : emTarget d (enabling e) = emTarget d e := by
  have hs : emS d (enabling e) = emS d e := by
    unfold emS
    rw [enabling_emAxis]
    rfl
  unfold emTarget
  rw [hs, enabling_emAxis]

section
variable {d : Dev} {n : Nat}

theorem emPut_chEm (n g m : Nat) (d : Dev) : (emPut n g d).chEm m = d.chEm m := by
  unfold emPut
  split
  · exact putLevel_chEm m
  · rfl

theorem sameBut_emPut (n g : Nat) (d : Dev) : SameBut outParts d (emPut n g d) := by
  unfold emPut
  split
  · exact sameBut_putLevel n _ _ g d
  · exact sameBut_refl _ d

theorem emShow_chEm (b g m : Nat) (d : Dev) : (emShow b g d).chEm m = d.chEm m := by
  simp only [emShow, emPut_chEm]

theorem sameBut_emShow (b g : Nat) (d : Dev) : SameBut outParts d (emShow b g d) :=
  sameBut_trans (sameBut_emPut b g d) (sameBut_trans (sameBut_emPut (b + 1) g _) (sameBut_emPut (b + 2) g _))

/-- The count that an accepted enable gives: the target of an axis-following emulation, else the count as it is (R182, R184). -/
def enabledCount (d : Dev) (n : Nat) : Int := if emSrc (d.chEm n) then emTarget d (d.chEm n) else (d.chEm n).ec

/-- The emulation that an accepted enable leaves. -/
def emEnabledAs (k : Int) (e : ChanEm) : ChanEm :=
  { enabling e with last := none, was := none, moves := [], ec := k, shown := k }

theorem emcWrite_refused (hr : isRemote n = false) (he : emEn (d.chEm n) = false) (h : emRefused d n (enabling (d.chEm n)) = true) :
    emcWrite n (orBit (d.chEm n).emc 31) d =
      chFlag n 3 (d.updEm n fun e => { e with emc := clrBit (enabling (d.chEm n)).emc 31 }) := by
  unfold emcWrite
  rw [if_neg (by simp [hr])]
  dsimp only
  rw [if_neg (by simp [he])]
  exact if_pos (Bool.and_eq_true_iff.mpr ⟨enabling_emEn (d.chEm n), h⟩)

theorem emcWrite_enables (hr : isRemote n = false) (he : emEn (d.chEm n) = false) (h : emRefused d n (enabling (d.chEm n)) = false) :
    emcWrite n (orBit (d.chEm n).emc 31) d =
      emShow n d.localNow (d.updEm n (emEnabledAs (enabledCount d n))) := by
  have hcount : (if emSrc (enabling (d.chEm n)) then emTarget d (enabling (d.chEm n)) else (d.chEm n).ec) = enabledCount d n := by
    rw [enabling_emSrc, enabling_emTarget]
    rfl
  have hcond : ¬ (emEn (enabling (d.chEm n)) && emRefused d n (enabling (d.chEm n))) = true := by simp [h]
  unfold emcWrite
  rw [if_neg (by simp [hr])]
  dsimp only
  rw [if_neg (by simp [he])]
  refine (if_neg hcond).trans ((if_pos (enabling_emEn (d.chEm n))).trans ?_)
  rw [← hcount]
  rfl

/-- R184: where no axis is followed, nothing happens. -/
theorem emFollow_off (h : emEn (d.chEm n) = false ∨ emSrc (d.chEm n) = false ∨ (d.axis (emAxis (d.chEm n))).st.valid = false) :
    emFollow n d = d := by
  unfold emFollow
  dsimp only
  rw [if_pos (by simpa [or_assoc] using h)]

theorem emCross_le (was now : Ang64) (s : Nat) (ec : Int) (back : Bool) : emCross was now s ec back ≤ 64 := by
  unfold emCross
  dsimp only
  split <;> omega

/-- One step ahead of its axis, EMGAP after the one before it: the step is emitted. -/
theorem emFollow_emits (hen : emEn (d.chEm n) = true) (hsrc : emSrc (d.chEm n) = true)
    (hv : (d.axis (emAxis (d.chEm n))).st.valid = true)
    (hgap : ∀ k, (d.chEm n).last = some k → k + emGap (d.chEm n) * 64 ≤ d.localNow)
    (ht : emTarget d (d.chEm n) = (d.chEm n).ec + 1) (hs : 2 ≤ emS d (d.chEm n)) : emFollow n d = emEmit n false true d := by
  have hdiff : emTarget d (d.chEm n) - (d.chEm n).ec = 1 := by omega
  have hjump : ¬ (emS d (d.chEm n) : Int) < 2 * (1 : Nat) := by omega
  have habs : (1 : Int).natAbs = 1 := rfl
  unfold emFollow
  dsimp only
  rw [if_neg (by simp [hen, hsrc, hv]), hdiff, habs, if_neg (by decide), if_neg hjump, if_neg (by decide)]
  split
  · rename_i k hk
    rw [if_neg (by have := hgap k hk; omega)]
    rfl
  · rfl

theorem emEmit_same (n : Nat) (d : Dev) : ∃ g, g ≤ 64 ∧ (emEmit n false true d).chEm n = { d.chEm n with
    ec := (d.chEm n).ec + 1, last := some d.localNow, moves := (d.chEm n).moves ++ [⟨d.localNow + 128 + g, 1, true⟩] } :=
  ⟨_, emCross_le .., updEm_same ..⟩

end

/-! ### The commands -/

/-- A force, by the command that asks for it. -/
theorem force_runs {i : Instr} {s : State} {n : Nat} {v : Bool} (hl : live s.core.dev = true)
    (hx : exec i s = whenLiveDev true (forceLevel n v) s) :
    ((isRemote n || !chTakes (s.core.dev.chOut n) || pairEnabled (s.core.dev.pair (n / 2)) || emulated s.core.dev n) = false →
      (forcing v (s.core.dev.chOut n) = false →
        Runs i s [.ch] fun t =>
          t.core.dev.chOut n = { s.core.dev.chOut n with
            reqs := (s.core.dev.chOut n).reqs ++ [⟨s.core.dev.tb.tclk + 3, 0, v, true⟩] } ∧
          ∀ m, m ≠ n → t.core.dev.chOut m = s.core.dev.chOut m) ∧
      (forcing v (s.core.dev.chOut n) = true → exec i s = .next s)) ∧
    ((isRemote n || !chTakes (s.core.dev.chOut n) || pairEnabled (s.core.dev.pair (n / 2)) || emulated s.core.dev n) = true →
      Runs i s [.ch] fun t =>
        t.core.dev.chOut n = { s.core.dev.chOut n with
          stat := if emulated s.core.dev n then orBit (orBit (s.core.dev.chOut n).stat 7) 4 else orBit (s.core.dev.chOut n).stat 7 } ∧
        ∀ m, m ≠ n → t.core.dev.chOut m = s.core.dev.chOut m) :=
  ⟨fun h => ⟨fun hf => runs_updOut hl hx (forceLevel_takes h hf), fun hf => exec_idle hx (forceLevel_underWay h hf)⟩,
    fun h => runs_to hl hx (forceLevel_refused h) (sameBut_forceRefused n _) ⟨forceRefused_same n _, fun _ hm => forceRefused_other hm⟩⟩

section
variable {s : State} {n : Nat} (hn : isChannel n = true) (hl : live s.core.dev = true)
include hn hl

theorem channelEnable_runs (hen : chEn (s.core.dev.chOut n) = false) (hr : enableRefused s.core.dev n = false)
    (hs : (freeEntries s.core.dev).filter (fun e => entryOfChan n e.2.2 && e.2.2.supp) = []) :
    Runs (.channelEnable n) s [.ch] fun t =>
      t.core.dev.chOut n = { s.core.dev.chOut n with
        ctl := orBit (s.core.dev.chOut n).ctl 31, starting := true, rel := true, pulseEnd := none, reqs := [] } ∧
      t.core.dev.chCnt n = { s.core.dev.chCnt n with go := false, goCmd := false, halt := false, tstart := false } ∧
      (nextOut t.core.dev n).enNow = true ∧
      (nextCnt t.core.dev n).run = (chMode (s.core.dev.chOut n) != 2 && chMode (s.core.dev.chOut n) != 3 && !lnkHold (s.core.dev.chCnt n)) ∧
      ((s.core.dev.chCnt n).wr = none → (nextCnt t.core.dev n).cnt = 0) ∧
      ∀ m, m ≠ n → t.core.dev.chOut m = s.core.dev.chOut m ∧ t.core.dev.chCnt m = s.core.dev.chCnt m := by
  have hout := channelStart_chOut n s.core.dev
  have hcnt := channelStart_chCnt n s.core.dev
  have hmode : chMode ((channelStart n s.core.dev).chOut n) = chMode (s.core.dev.chOut n) := by
    rw [hout]
    exact fld_orBit_other _ (.inr (by decide))
  have hon : chEn ((channelStart n s.core.dev).chOut n) = true := by
    rw [hout]
    exact bit_orBit_same _ 31 (by decide)
  refine runs_to hl (exec_wellFormed hn rfl) (channelEnable_starts hen hr hs) (sameBut_channelStart n _)
    ⟨hout, hcnt, (nextOut_enNow ..).trans hon, ?_, fun hw => ?_, fun m hm => channelStart_other hm⟩
  · rw [nextCnt_run, runNext_starting hon (by rw [hout]) (by rw [hcnt]) (by rw [hcnt]), hmode, hcnt]
    rfl
  · exact nextCnt_zeroed (by rw [hcnt]; exact hw) (.inl (by rw [hout]))

theorem channelDisable_runs (hen : chEn (s.core.dev.chOut n) = true) :
    Runs (.channelDisable n) s [.chases, .ch] fun t =>
      t.core.dev.chOut n = { s.core.dev.chOut n with
        ctl := clrBit (s.core.dev.chOut n).ctl 31, starting := false, reqs := (s.core.dev.chOut n).reqs.filter (!·.forced) } ∧
      t.core.dev.chCnt n = { s.core.dev.chCnt n with go := false, goCmd := false, tstart := false } ∧
      (nextCnt t.core.dev n).run = false ∧
      ((s.core.dev.chCnt n).wr = none → (s.core.dev.chCnt n).rst = false → (nextCnt t.core.dev n).cnt = (s.core.dev.chCnt n).cnt) ∧
      (∀ cs k x, (freeEntries s.core.dev).filter (fun e => entryOfChan n e.2.2) = [(cs, k, x)] →
        Bank.get none (t.core.dev.chase cs).entries k = some { x with supp := true }) ∧
      ∀ m, m ≠ n → t.core.dev.chOut m = s.core.dev.chOut m ∧ t.core.dev.chCnt m = s.core.dev.chCnt m := by
  have hout := (channelDisable_chOut hen n).trans (channelStop_chOut n s.core.dev)
  have hcnt := (channelDisable_chCnt hen n).trans (channelStop_chCnt n s.core.dev)
  have hoff : chEn ((channelDisable n s.core.dev).chOut n) = false := (congrArg chEn hout).trans (bit_clrBit_same _ 31)
  refine runs_to hl (exec_wellFormed hn rfl) rfl (sameBut_channelDisable n _)
    ⟨hout, hcnt, runNext_disabled hoff, fun hw hr => ?_, fun cs k x h => ?_, fun m hm => ?_⟩
  · have hstays := nextCnt_disabled (by rw [hcnt]; exact hw) (by rw [hcnt]; exact hr) (by rw [hout]) (by rw [hcnt]) hoff
    exact hstays.trans (by rw [hcnt])
  · rw [channelDisable_stops hen, h]
    exact suppressEntry_puts cs k x _
  · obtain ⟨ho, hc⟩ := channelStop_other (d := s.core.dev) hm
    exact ⟨(channelDisable_chOut hen m).trans ho, (channelDisable_chCnt hen m).trans hc⟩

theorem pulseEnd_runs {fin : Nat} (h : (s.core.dev.chOut n).pulseEnd = some fin) (he : emulated s.core.dev n = false)
    (hf : (s.core.dev.gs.flight.filter fun o => o.chan == n && o.act == 2 && o.begun && decide (o.endAt ≤ fin)) = []) :
    Runs (.pulseEnd n) s [.gs, .ch, .ic, .ne, .fps, .lk, .heads] fun t =>
      (t.core.dev.chOut n).lvl = false ∧ (t.core.dev.chOut n).pulseEnd = none ∧ t.core.dev.gs = s.core.dev.gs ∧
      ∀ m, m ≠ n → t.core.dev.chOut m = s.core.dev.chOut m := by
  obtain ⟨e, hends⟩ := pulseEnds_ends h he hf
  have hframe := sameBut_pulseEnded n e fin s.core.dev
  obtain ⟨hlvl, hpend⟩ := setLevel_same n false e fin (s.core.dev.updOut n fun o => { o with pulseEnd := none, endLead := 0 })
  refine runs_to hl (exec_wellFormed hn rfl) hends (sameBut_mono hframe (by decide))
    ⟨hlvl, hpend.trans (by rw [updOut_same]), kept_gs hframe (by decide), fun m hm => ?_⟩
  exact (setLevel_other hm).trans (updOut_other _ n m _ hm)

theorem emenRefused_runs (hr : isRemote n = false) (he : emEn (s.core.dev.chEm n) = false)
    (h : emRefused s.core.dev n (enabling (s.core.dev.chEm n)) = true) :
    Runs (.emen n) s [.ch] fun t =>
      emEn (t.core.dev.chEm n) = false ∧ (t.core.dev.chEm n).ec = (s.core.dev.chEm n).ec ∧
      bit (t.core.dev.chOut n).stat 3 = true ∧ ∀ m, m ≠ n → t.core.dev.chEm m = s.core.dev.chEm m := by
  refine runs_to hl (exec_wellFormed hn rfl) (emcWrite_refused hr he h)
    (sameBut_trans (sameBut_updEm _ n _) (sameBut_chFlag n 3 _)) ⟨?_, ?_, ?_, fun m hm => (updOut_chEm ..).trans (updEm_other _ n m _ hm)⟩
  · simp [chFlag, emEn]
  · simp [chFlag]
  · simp [chFlag]

theorem emen_runs (hr : isRemote n = false) (he : emEn (s.core.dev.chEm n) = false)
    (h : emRefused s.core.dev n (enabling (s.core.dev.chEm n)) = false) :
    Runs (.emen n) s [.ch, .ic, .ne, .fps, .lk, .heads] fun t =>
      emEn (t.core.dev.chEm n) = true ∧
      (emSrc (s.core.dev.chEm n) = false → (t.core.dev.chEm n).ec = (s.core.dev.chEm n).ec) ∧
      (emSrc (s.core.dev.chEm n) = true → (t.core.dev.chEm n).ec = emTarget s.core.dev (s.core.dev.chEm n)) ∧
      (t.core.dev.chEm n).last = none ∧ (t.core.dev.chEm n).moves = [] ∧
      ∀ m, m ≠ n → t.core.dev.chEm m = s.core.dev.chEm m := by
  have hem : (emShow n s.core.dev.localNow (s.core.dev.updEm n (emEnabledAs (enabledCount s.core.dev n)))).chEm n =
      emEnabledAs (enabledCount s.core.dev n) (s.core.dev.chEm n) := (emShow_chEm ..).trans (updEm_same ..)
  refine runs_to hl (exec_wellFormed hn rfl) (emcWrite_enables hr he h)
    (sameBut_then (sameBut_emShow n _ _) (by decide) (sameBut_mono (sameBut_updEm _ n _) (by decide)))
    ⟨?_, fun hsrc => ?_, fun hsrc => ?_, congrArg ChanEm.last hem, congrArg ChanEm.moves hem, fun m hm => ?_⟩
  · exact (congrArg emEn hem).trans (enabling_emEn (s.core.dev.chEm n))
  · exact (congrArg ChanEm.ec hem).trans (if_neg (by simp [hsrc]))
  · exact (congrArg ChanEm.ec hem).trans (if_pos hsrc)
  · exact (emShow_chEm ..).trans (updEm_other _ n m _ hm)

theorem emulationAxisStep_runs (hen : emEn (s.core.dev.chEm n) = true) (hsrc : emSrc (s.core.dev.chEm n) = true)
    (hv : (s.core.dev.axis (emAxis (s.core.dev.chEm n))).st.valid = true)
    (hgap : ∀ k, (s.core.dev.chEm n).last = some k → k + emGap (s.core.dev.chEm n) * 64 ≤ s.core.dev.localNow)
    (ht : emTarget s.core.dev (s.core.dev.chEm n) = (s.core.dev.chEm n).ec + 1) (hs : 2 ≤ emS s.core.dev (s.core.dev.chEm n)) :
    Runs (.emulationAxisStep n) s [.ch] fun t =>
      t.core.dev.chOut n = s.core.dev.chOut n ∧
      (∃ g, g ≤ 64 ∧ t.core.dev.chEm n = { s.core.dev.chEm n with
        ec := (s.core.dev.chEm n).ec + 1, last := some s.core.dev.localNow
        moves := (s.core.dev.chEm n).moves ++ [⟨s.core.dev.localNow + 128 + g, 1, true⟩] }) ∧
      ∀ m, m ≠ n → t.core.dev.chEm m = s.core.dev.chEm m :=
  runs_to hl (exec_wellFormed hn rfl) (emFollow_emits hen hsrc hv hgap ht hs) (sameBut_updEm _ n _)
    ⟨rfl, emEmit_same n _, fun m hm => updEm_other _ n m _ hm⟩

end

/-- Settles O37: each command by its case of the output stage's operations, and what the next TCLK makes of it. -/
theorem outputStages : Obligations.OutputStages := by
  intro s n hn hl
  refine ⟨channelEnable_runs hn hl, openTclk_idles, fun hen hr => ?_, channelDisable_runs hn hl, fun h => ?_,
    fun fin => pulseEnd_runs hn hl, fun i v hi => ?_, fun v => ⟨?_, ?_⟩, emenRefused_runs hn hl, emen_runs hn hl, fun h => ?_,
    emulationAxisStep_runs hn hl⟩
  · exact runs_updOut hl (exec_wellFormed (i := .channelEnable n) hn rfl) (channelEnable_refused hen hr)
  · exact exec_idle (exec_wellFormed (i := .pulseEnd n) hn rfl) (pulseEnds_none h)
  · obtain ⟨rfl, rfl⟩ | ⟨rfl, rfl⟩ : (i = .frise n ∧ v = true) ∨ (i = .ffall n ∧ v = false) := by simpa using hi
    · exact force_runs hl (exec_wellFormed (i := .frise n) hn rfl)
    · exact force_runs hl (exec_wellFormed (i := .ffall n) hn rfl)
  · exact runs_to hl rfl rfl (sameBut_ch _ _) rfl
  · exact runs_to hl rfl rfl (sameBut_ch _ _) rfl
  · exact exec_idle (exec_wellFormed (i := .emulationAxisStep n) hn rfl) (emFollow_off h)

end Sys2Proof.Proofs
end

section
/-! O38: counters, compares, periods and reloads (R167–R173, R210, R213, R214, R221, R224). -/

namespace Sys2Proof.Proofs

open Sys2Proof Sys2Proof.Machine Sys2Proof.Laws

/-! ### Events that select nothing (R216) -/

section
variable {d : Dev} {n : Nat}

theorem chanEvent_unselected {ev : Nat} (h : bit (Bank.get 0 d.ic.chev (n / 8)) (4 * (n % 8) + ev) = false) :
    chanEvent n ev d = d := if_neg (ne_true_of_eq_false h)

theorem eventAction_terminalNone (h : fld (d.chCnt n).mactNow 21 3 = 0) : eventAction n 0 d = d := by
  simp [eventAction, matchAction, h]

theorem eventAction_riseNone (h : fld (d.chCnt n).mactNow 15 3 = 0) : eventAction n 1 d = d := by
  simp [eventAction, matchAction, h]

theorem counterEvent_riseNone (ha : fld (d.chCnt n).mactNow 15 3 = 0)
    (hb : bit (Bank.get 0 d.ic.chev (n / 8)) (4 * (n % 8) + 1) = false) : counterEvent n 1 d = d := by
  unfold counterEvent
  rw [chanEvent_unselected hb, eventAction_riseNone ha, ite_self]

/-! ### Terminal counts (R167, R213, R221) -/

theorem counterTerminal_none (h : terminalNow d n = false) : counterTerminal n d = d := if_neg (by simp [h])

/-- The device with the present TCLK marked as terminal for counter `n`. -/
def markTerminal (n : Nat) (d : Dev) : Dev := d.updCnt n fun c => { c with term := true }

theorem markTerminal_chCnt (n : Nat) (d : Dev) : (markTerminal n d).chCnt n = { d.chCnt n with term := true } := updCnt_same d n _

/-- A terminal count that reloads nothing, passes no carry up and selects nothing marks its TCLK and does no more. -/
theorem counterTerminal_marks (h : terminalNow d n = true) (hs : stageAbove d n = none) (ha : fld (d.chCnt n).mactNow 21 3 = 0)
    (hb : bit (Bank.get 0 d.ic.chev (n / 8)) (4 * (n % 8)) = false) (hr : 2 ≤ chRld (d.chOut n)) :
    counterTerminal n d = markTerminal n d := by
  have hfold : (d.updCnt n fun c => { c with term := true }) = markTerminal n d := rfl
  have hreload : reloadTerminal n (markTerminal n d) = markTerminal n d := if_neg (show ¬ chRld (d.chOut n) ≤ 1 by omega)
  have hevent : chanEvent n 0 (markTerminal n d) = markTerminal n d := chanEvent_unselected hb
  have haction : eventAction n 0 (markTerminal n d) = markTerminal n d :=
    eventAction_terminalNone (by rw [markTerminal_chCnt]; exact ha)
  unfold counterTerminal
  dsimp only
  rw [if_pos h, hfold, hreload, hs]
  simp only [hevent, ite_self, haction]

/-- What a counter that ends its count needs for it (R167, R212). -/
theorem countEnds_running (h : countEnds d n = true) :
    (d.chOut n).enNow = true ∧ (d.chCnt n).run = true ∧ isStage d n = false ∧ advances (d.chCnt n) = true := by
  unfold countEnds at h
  simp only [Bool.and_eq_true, Bool.not_eq_true'] at h
  obtain ⟨⟨⟨⟨hen, hrun⟩, hstage⟩, hadv⟩, -⟩ := h
  exact ⟨hen, hrun, hstage, hadv⟩

theorem lowestOf_single (h : isStage d n = false) : lowestOf d n = n := if_neg (by simp [h])

/-- A counter that is no stage of a chain moves when it runs, its source advances it and no stop holds it. -/
theorem countMoves_single (hs : isStage d n = false) (hnow : (d.chOut n).enNow = true) (hen : chEn (d.chOut n) = true)
    (hh : (d.chCnt n).halt = false) (hrun : (d.chCnt n).run = true) (hadv : advances (d.chCnt n) = true) :
    countMoves d n = true := by
  simp [countMoves, lowestOf_single hs, hs, hnow, hen, hh, hrun, hadv]

/-- After a terminal count the counter is at 0, and a one-shot stops (R167, R213). -/
theorem nextCnt_ended (h : countEnds d n = true) (hen : chEn (d.chOut n) = true) (hw : (d.chCnt n).wr = none)
    (hg : (d.chCnt n).go = false) (hh : (d.chCnt n).halt = false) (hs : (d.chOut n).starting = false) :
    (nextCnt (markTerminal n d) n).cnt = 0 ∧ (nextCnt (markTerminal n d) n).run = (chMode (d.chOut n) != 2) := by
  obtain ⟨hnow, hrun, hstage, hadv⟩ := countEnds_running h
  have hcnt := markTerminal_chCnt n d
  have hmoves : countMoves (markTerminal n d) n = true :=
    countMoves_single hstage hnow hen (by rw [hcnt]; exact hh) (by rw [hcnt]; exact hrun) (by rw [hcnt]; exact hadv)
  exact ⟨nextCnt_terminal (by rw [hcnt]; exact hw) hs (by rw [hcnt]; exact hg) hmoves (by rw [hcnt]),
    runNext_terminal hen hstage (by rw [hcnt]; exact hrun) hs (by rw [hcnt]; exact hg) (by rw [hcnt]; exact hh) (by rw [hcnt])⟩

/-! ### Compare matches (R168, R210) -/

theorem compareMatch_none {rise : Bool} (h : compareHits d n rise = false) : compareMatch n rise d = d := if_neg (by simp [h])

/-- The device after a match of CMPR whose event selects nothing: the match is noted and its request on the way. -/
def riseMatched (n : Nat) (d : Dev) : Dev :=
  (d.updCnt n fun c => { c with mr := true }).updOut n fun o => { o with reqs := o.reqs ++
    [⟨d.tb.tclk + 2, BitVec.ofNat 6 (fld (d.chOut n).cmpg 8 6), true, false⟩] }

theorem sameBut_riseMatched (n : Nat) (d : Dev) : SameBut [.ch] d (riseMatched n d) :=
  sameBut_trans (sameBut_updCnt d n _) (sameBut_updOut _ n _)

theorem riseMatched_chCnt (n : Nat) (d : Dev) : (riseMatched n d).chCnt n = { d.chCnt n with mr := true } := by
  simp [riseMatched]

theorem compareMatch_rise (h : compareHits d n true = true) (hr : isRemote n = false) (ha : fld (d.chCnt n).mactNow 15 3 = 0)
    (hb : bit (Bank.get 0 d.ic.chev (n / 8)) (4 * (n % 8) + 1) = false) : compareMatch n true d = riseMatched n d := by
  have hevent : counterEvent n 1 (riseMatched n d) = riseMatched n d :=
    counterEvent_riseNone (by rw [riseMatched_chCnt]; exact ha) hb
  have hmatch : compareMatch n true d = counterEvent n 1 (riseMatched n d) := by
    unfold compareMatch
    rw [if_pos h]
    simp [hr, riseMatched]
  exact hmatch.trans hevent

/-! ### Writes of the compares and the period, and where they land (R169, R170, R173) -/

theorem compareWrite_stages {r : Nat} {v : W32} (h : r ≠ 8) (h20 : r ≠ 20) : compareWrite n r v d =
    d.updOut n fun o => { o with writes := o.writes ++ [⟨!chShd o, r, v⟩] } := by
  simp [compareWrite, h, h20]

/-- Of CMPG only the two grains are kept. -/
theorem compareWrite_grains {v : W32} : compareWrite n 20 v d =
    d.updOut n fun o => { o with writes := o.writes ++ [⟨!chShd o, 20, v &&& 0x3F3F#32⟩] } := by
  simp [compareWrite]

theorem periodWrite_stages {v : W32} (h : 3 ≤ v.toNat) : compareWrite n 8 v d =
    d.updOut n fun o => { o with writes := o.writes ++ [⟨!chShd o, 8, v⟩] } := by
  have h2 : ¬ v.toNat < 2 := by omega
  have h3 : ¬ v.toNat < 3 := by omega
  simp [compareWrite, h2, h3]

theorem periodWrite_refused {v : W32} (h : v.toNat < 2) : compareWrite n 8 v d =
    d.updOut n fun o => { o with stat := orBit o.stat 3 } := by
  simp [compareWrite, h, chFlag]

theorem landOut_noReload {o : ChanOut} (h : (o.rel || (topNow d n && chRld o == 1)) = false) : landOut d n o = landed o := by
  simp only [landOut, h, Bool.not_false, if_true]

/-- A reload transfers the shadows before the writes of its TCLK land (R170). -/
theorem landOut_reloads {o : ChanOut} (h : o.rel = true) (hq : chQen o = false ∨ bit d.ch.quoinStart (chQg o) = false) :
    landOut d n o = landed (transfer o) := by
  have hopen : (chQen o && bit d.ch.quoinStart (chQg o)) = false := Bool.and_eq_false_iff.mpr hq
  simp [landOut, h, hopen]

/-- A closed quoin holds it back (R171). -/
theorem landOut_held {o : ChanOut} (h : o.rel = true) (hq : chQen o = true) (hc : bit d.ch.quoinStart (chQg o) = true) :
    landOut d n o = landed { o with stat := orBit o.stat 8 } := by
  simp [landOut, h, hq, hc]

theorem landed_none {o : ChanOut} (h : o.writes = []) : landed o = o := by rw [landed, h]; rfl

theorem landed_one {o : ChanOut} {w : CompareLanding} (h : o.writes = [w]) : landed o = landWrite o w := by rw [landed, h]; rfl

/-! ### Writes of the count (R214, R224) -/

theorem countWrite_single {v : W32} (ha : stageAbove d n = none) (hs : isStage d n = false) : countWrite n v d = countLoad n v d := by
  simp [countWrite, ha, hs]

theorem countWrite_staged {a : Nat} {v : W32} (ha : stageAbove d n = some a) :
    countWrite n v d = d.updCnt n fun c => { c with wshadow := some v } := by
  simp [countWrite, ha]

/-- The highest stage of a chain of two loads the staged count of the lower one with its own. -/
def chainLoaded (n : Nat) (v w : W32) (d : Dev) : Dev :=
  countLoad n v (countLoad (n - 1) w (d.updCnt (n - 1) fun c => { c with wshadow := none }))

theorem lowestOf_second (hs : isStage d n = true) (hl : isStage d (n - 1) = false) : lowestOf d n = n - 1 := by
  simp [lowestOf, hs, hl]

theorem countWrite_chain {v w : W32} (ha : stageAbove d n = none) (hs : isStage d n = true) (h1 : 1 ≤ n)
    (hl : isStage d (n - 1) = false) (hw : (d.chCnt (n - 1)).wshadow = some w) : countWrite n v d = chainLoaded n v w d := by
  have hbelow : (List.range (n - (n - 1))).map (n - 1 + ·) = [n - 1] := by
    rw [show n - (n - 1) = 1 by omega]
    rfl
  simp only [countWrite, ha, hs, if_true, lowestOf_second hs hl, hbelow, forEach, List.foldl, hw, chainLoaded]

theorem sameBut_chainLoaded (n : Nat) (v w : W32) (d : Dev) : SameBut [.ch] d (chainLoaded n v w d) :=
  sameBut_trans (sameBut_updCnt d (n - 1) _) (sameBut_trans (sameBut_updCnt _ (n - 1) _) (sameBut_updCnt _ n _))

theorem chainLoaded_top (n : Nat) (v w : W32) (d : Dev) : ((chainLoaded n v w d).chCnt n).wr = some v := by
  simp [chainLoaded, countLoad]

theorem chainLoaded_below {v w : W32} (h1 : 1 ≤ n) :
    (chainLoaded n v w d).chCnt (n - 1) = { d.chCnt (n - 1) with wshadow := none, wr := some w } := by
  rw [chainLoaded, countLoad, updCnt_other _ _ _ _ (by omega)]
  simp [countLoad]

theorem chainLoaded_other {m : Nat} {v w : W32} (h : m ≠ n) (h1 : m ≠ n - 1) : (chainLoaded n v w d).chCnt m = d.chCnt m := by
  simp [chainLoaded, countLoad, updCnt_other _ _ _ _ h, updCnt_other _ _ _ _ h1]

end

/-! ### The commands -/

section
variable {s : State} {n : Nat} (hn : isChannel n = true) (hl : live s.core.dev = true)
include hn hl

theorem counterTerminal_runs (h : terminalNow s.core.dev n = true) (hs : stageAbove s.core.dev n = none)
    (ha : fld (s.core.dev.chCnt n).mactNow 21 3 = 0) (hb : bit (Bank.get 0 s.core.dev.ic.chev (n / 8)) (4 * (n % 8)) = false)
    (hr : 2 ≤ chRld (s.core.dev.chOut n)) :
    Runs (.counterTerminal n) s [.ch] fun t =>
      t.core.dev.chCnt n = { s.core.dev.chCnt n with term := true } ∧
      t.core.dev.ch.out = s.core.dev.ch.out ∧ (∀ m, m ≠ n → t.core.dev.chCnt m = s.core.dev.chCnt m) ∧
      (countEnds s.core.dev n = true → chEn (s.core.dev.chOut n) = true → (s.core.dev.chCnt n).wr = none →
        (s.core.dev.chCnt n).go = false → (s.core.dev.chCnt n).halt = false → (s.core.dev.chOut n).starting = false →
        (nextCnt t.core.dev n).cnt = 0 ∧ (nextCnt t.core.dev n).run = (chMode (s.core.dev.chOut n) != 2)) :=
  runs_to hl (exec_wellFormed hn rfl) (counterTerminal_marks h hs ha hb hr) (sameBut_updCnt _ n _)
    ⟨markTerminal_chCnt n _, rfl, fun m hm => updCnt_other _ n m _ hm, nextCnt_ended⟩

theorem compareMatch_runs (h : compareHits s.core.dev n true = true) (hr : isRemote n = false)
    (ha : fld (s.core.dev.chCnt n).mactNow 15 3 = 0)
    (hb : bit (Bank.get 0 s.core.dev.ic.chev (n / 8)) (4 * (n % 8) + 1) = false) :
    Runs (.compareMatch n true) s [.ch] fun t =>
      t.core.dev.chOut n = { s.core.dev.chOut n with
        reqs := (s.core.dev.chOut n).reqs ++
          [⟨s.core.dev.tb.tclk + 2, BitVec.ofNat 6 (fld (s.core.dev.chOut n).cmpg 8 6), true, false⟩] } ∧
      t.core.dev.chCnt n = { s.core.dev.chCnt n with mr := true } ∧ ∀ m, m ≠ n → t.core.dev.chOut m = s.core.dev.chOut m :=
  runs_to hl (exec_wellFormed hn rfl) (compareMatch_rise h hr ha hb) (sameBut_riseMatched n _)
    ⟨updOut_same _ n _, riseMatched_chCnt n _, fun m hm => updOut_other _ n m _ hm⟩

theorem countWrite_runs (v : W32) (ha : stageAbove s.core.dev n = none) (hs : isStage s.core.dev n = false) :
    Runs (.countWrite n v) s [.ch] fun t =>
      t.core.dev.chCnt n = { s.core.dev.chCnt n with wr := some v } ∧ (nextCnt t.core.dev n).cnt = v ∧
      ∀ m, m ≠ n → t.core.dev.chCnt m = s.core.dev.chCnt m := by
  have hcnt := updCnt_same s.core.dev n fun c => { c with wr := some v }
  exact runs_to hl (exec_wellFormed hn rfl) (countWrite_single ha hs) (sameBut_updCnt _ n _)
    ⟨hcnt, nextCnt_written (congrArg ChanCnt.wr hcnt), fun m hm => updCnt_other _ n m _ hm⟩

theorem chainCountWrite_runs (v w : W32) (ha : stageAbove s.core.dev n = none) (hs : isStage s.core.dev n = true) (h1 : 1 ≤ n)
    (hlow : isStage s.core.dev (n - 1) = false) (hw : (s.core.dev.chCnt (n - 1)).wshadow = some w) :
    Runs (.chainCountWrite n v) s [.ch] fun t =>
      (t.core.dev.chCnt n).wr = some v ∧ (t.core.dev.chCnt (n - 1)).wr = some w ∧ (t.core.dev.chCnt (n - 1)).wshadow = none ∧
      (nextCnt t.core.dev n).cnt = v ∧ (nextCnt t.core.dev (n - 1)).cnt = w ∧
      ∀ m, m ≠ n → m ≠ n - 1 → t.core.dev.chCnt m = s.core.dev.chCnt m := by
  have htop := chainLoaded_top n v w s.core.dev
  have hbelow := chainLoaded_below (d := s.core.dev) (v := v) (w := w) h1
  have hbelowWr := congrArg ChanCnt.wr hbelow
  exact runs_to hl (exec_wellFormed hn rfl) (countWrite_chain ha hs h1 hlow hw) (sameBut_chainLoaded n v w _)
    ⟨htop, hbelowWr, congrArg ChanCnt.wshadow hbelow, nextCnt_written htop, nextCnt_written hbelowWr,
      fun _ hm hm1 => chainLoaded_other hm hm1⟩

/-- The writes of the compares and the period, each with its place among the writes of the TCLK. -/
theorem compareWrites_run (v : W32) :
    (∀ r, r = 12 ∨ r = 16 →
      Runs (.compareWrite n r v) s [.ch] fun t =>
        t.core.dev.chOut n = { s.core.dev.chOut n with
          writes := (s.core.dev.chOut n).writes ++ [⟨!chShd (s.core.dev.chOut n), r, v⟩] } ∧
        ∀ m, m ≠ n → t.core.dev.chOut m = s.core.dev.chOut m) ∧
    (Runs (.compareWrite n 20 v) s [.ch] fun t =>
      t.core.dev.chOut n = { s.core.dev.chOut n with
        writes := (s.core.dev.chOut n).writes ++ [⟨!chShd (s.core.dev.chOut n), 20, v &&& 0x3F3F#32⟩] } ∧
      ∀ m, m ≠ n → t.core.dev.chOut m = s.core.dev.chOut m) ∧
    (3 ≤ v.toNat → Runs (.periodWrite n v) s [.ch] fun t =>
      t.core.dev.chOut n = { s.core.dev.chOut n with
        writes := (s.core.dev.chOut n).writes ++ [⟨!chShd (s.core.dev.chOut n), 8, v⟩] } ∧
      ∀ m, m ≠ n → t.core.dev.chOut m = s.core.dev.chOut m) ∧
    (v.toNat < 2 → Runs (.periodWrite n v) s [.ch] fun t =>
      t.core.dev.chOut n = { s.core.dev.chOut n with stat := orBit (s.core.dev.chOut n).stat 3 } ∧
      ∀ m, m ≠ n → t.core.dev.chOut m = s.core.dev.chOut m) := by
  have hwf : ∀ {r}, isCompareReg r = true → Instr.wf (.compareWrite n r v) = true := fun hr => Bool.and_eq_true_iff.mpr ⟨hn, hr⟩
  refine ⟨fun r hr => ?_, ?_, fun h => ?_, fun h => ?_⟩
  · exact runs_updOut hl (exec_wellFormed (hwf (by rcases hr with rfl | rfl <;> rfl)) rfl)
      (compareWrite_stages (by omega) (by omega))
  · exact runs_updOut hl (exec_wellFormed (hwf rfl) rfl) compareWrite_grains
  · exact runs_updOut hl (exec_wellFormed (i := .periodWrite n v) hn rfl) (periodWrite_stages h)
  · exact runs_updOut hl (exec_wellFormed (i := .periodWrite n v) hn rfl) (periodWrite_refused h)

end

/-- Settles O38: each command by its case, the end of the TCLK by whether a reload comes first, and the next count by what precedes. -/
theorem countersAndCompares : Obligations.CountersAndCompares := by
  intro s n hn hl
  refine ⟨fun h => ?_, counterTerminal_runs hn hl, fun rise h => ?_, compareMatch_runs hn hl, compareWrites_run hn hl,
    fun o v h => ⟨fun hw => ?_, fun hw => ?_, fun hw => ?_⟩, fun o v h hq => ⟨fun hw => ?_, fun hw => ?_⟩,
    fun o h hq hc hw => (landOut_held h hq hc).trans (landed_none hw), ?_, countWrite_runs hn hl, fun a v ha => ?_,
    chainCountWrite_runs hn hl⟩
  · exact exec_idle (exec_wellFormed (i := .counterTerminal n) hn rfl) (counterTerminal_none h)
  · exact exec_idle (exec_wellFormed (i := .compareMatch n rise) hn rfl) (compareMatch_none h)
  · rw [landOut_noReload h, landed_one hw]
    exact ⟨rfl, rfl⟩
  · rw [landOut_noReload h, landed_one hw]
    exact ⟨rfl, rfl⟩
  · rw [landOut_noReload h, landed_one hw]
    rfl
  · rw [landOut_reloads h hq, landed_none (by exact hw)]
    rfl
  · rw [landOut_reloads h hq, landed_one (by exact hw)]
    exact ⟨rfl, rfl, rfl⟩
  · exact runs_updOut hl (exec_wellFormed (i := .reload n) hn rfl) rfl
  · exact runs_updCnt hl (exec_wellFormed (i := .chainCountWrite n v) hn rfl) (countWrite_staged ha)

end Sys2Proof.Proofs
end

section
/-! SUPPORT. What leaves the pairs of power bridges as they are: every operation of the device but the few that act on a pair, in the
order of the model's files. Each lemma cites the operation's frame where that leaves the bridges out, and otherwise the lemmas of the
operations it is built of. -/

namespace Sys2Proof.Proofs

open Sys2Proof Sys2Proof.Machine Sys2Proof.Laws

theorem pairs_kept {l : List Part} {d e : Dev} (h : SameBut l d e) (hb : Part.br ∉ l) : e.br.pairs = d.br.pairs := by
  rw [kept_br h hb]

section
variable {α : Type} {p : Prop} [Decidable p]

@[simp] theorem pairs_ite (d e : Dev) : (if p then d else e).br.pairs = if p then d.br.pairs else e.br.pairs := by
  split <;> rfl
@[simp] theorem pairs_ite_core (c e : Core) :
    (if p then c else e).dev.br.pairs = if p then c.dev.br.pairs else e.dev.br.pairs := by
  split <;> rfl
@[simp] theorem pairs_ite_snd (x y : α × Dev) :
    (if p then x else y).2.br.pairs = if p then x.2.br.pairs else y.2.br.pairs := by
  split <;> rfl
@[simp] theorem pairs_ite_snd_core (x y : α × Core) :
    (if p then x else y).2.dev.br.pairs = if p then x.2.dev.br.pairs else y.2.dev.br.pairs := by
  split <;> rfl

@[simp] theorem pairs_forEach (l : List α) (f : α → Dev → Dev) (d : Dev) (h : ∀ a d, (f a d).br.pairs = d.br.pairs) :
    (forEach l f d).br.pairs = d.br.pairs := by
  unfold forEach
  induction l generalizing d with
  | nil => rfl
  | cons a l ih => exact (ih _).trans (h a d)

@[simp] theorem pairs_foldl (l : List α) (f : Dev → α → Dev) (d : Dev) (h : ∀ d a, (f d a).br.pairs = d.br.pairs) :
    (l.foldl f d).br.pairs = d.br.pairs := by
  induction l generalizing d with
  | nil => rfl
  | cons a l ih => exact (ih _).trans (h d a)

@[simp] theorem pairs_foldl_core (l : List α) (f : Core → α → Core) (c : Core)
    (h : ∀ c a, (f c a).dev.br.pairs = c.dev.br.pairs) : (l.foldl f c).dev.br.pairs = c.dev.br.pairs := by
  induction l generalizing c with
  | nil => rfl
  | cons a l ih => exact (ih _).trans (h c a)
end

@[simp] theorem pairs_mapDev (c : Core) (f : Dev → Dev) : (c.mapDev f).dev.br.pairs = (f c.dev).br.pairs := by
  rw [mapDev_dev]

/-! ### Ops -/

@[simp] theorem pairs_draw (d : Dev) : (d.draw).2.br.pairs = d.br.pairs :=
  pairs_kept (sameBut_draw d) (by decide)
@[simp] theorem pairs_updOut (d : Dev) (n f) : (d.updOut n f).br.pairs = d.br.pairs :=
  pairs_kept (sameBut_updOut d n f) (by decide)
@[simp] theorem pairs_updCnt (d : Dev) (n f) : (d.updCnt n f).br.pairs = d.br.pairs :=
  pairs_kept (sameBut_updCnt d n f) (by decide)
@[simp] theorem pairs_updCap (d : Dev) (n f) : (d.updCap n f).br.pairs = d.br.pairs :=
  pairs_kept (sameBut_updCap d n f) (by decide)
@[simp] theorem pairs_updEm (d : Dev) (n f) : (d.updEm n f).br.pairs = d.br.pairs :=
  pairs_kept (sameBut_updEm d n f) (by decide)
@[simp] theorem pairs_updPin (d : Dev) (n f) : (d.updPin n f).br.pairs = d.br.pairs :=
  pairs_kept (sameBut_updPin d n f) (by decide)
@[simp] theorem pairs_updDec (d : Dev) (n f) : (d.updDec n f).br.pairs = d.br.pairs :=
  pairs_kept (sameBut_updDec d n f) (by decide)
@[simp] theorem pairs_updDecTrk (d : Dev) (n f) : (d.updDecTrk n f).br.pairs = d.br.pairs :=
  pairs_kept (sameBut_updDecTrk d n f) (by decide)
@[simp] theorem pairs_updAoq (d : Dev) (n f) : (d.updAoq n f).br.pairs = d.br.pairs :=
  pairs_kept (sameBut_updAoq d n f) (by decide)
@[simp] theorem pairs_updTrip (d : Dev) (n f) : (d.updTrip n f).br.pairs = d.br.pairs := by simp [Dev.updTrip]
@[simp] theorem pairs_updAxis (d : Dev) (n f) : (d.updAxis n f).br.pairs = d.br.pairs :=
  pairs_kept (sameBut_updAxis d n f) (by decide)
@[simp] theorem pairs_updQueue (d : Dev) (q f) : (d.updQueue q f).br.pairs = d.br.pairs :=
  pairs_kept (sameBut_updQueue d q f) (by decide)
@[simp] theorem pairs_updSlug (d : Dev) (n f) : (d.updSlug n f).br.pairs = d.br.pairs :=
  pairs_kept (sameBut_updSlug d n f) (by decide)
@[simp] theorem pairs_updChase (d : Dev) (n f) : (d.updChase n f).br.pairs = d.br.pairs :=
  pairs_kept (sameBut_updChase d n f) (by decide)
@[simp] theorem pairs_updComp (d : Dev) (n f) : (d.updComp n f).br.pairs = d.br.pairs :=
  pairs_kept (sameBut_updComp d n f) (by decide)
@[simp] theorem pairs_updSource (d : Dev) (n f) : (d.updSource n f).br.pairs = d.br.pairs :=
  pairs_kept (sameBut_updSource d n f) (by decide)
@[simp] theorem pairs_updEng (d : Dev) (n f) : (d.updEng n f).br.pairs = d.br.pairs :=
  pairs_kept (sameBut_updEng d n f) (by decide)
@[simp] theorem pairs_updHead (d : Dev) (n f) : (d.updHead n f).br.pairs = d.br.pairs :=
  pairs_kept (sameBut_updHead d n f) (by decide)
@[simp] theorem pairs_updFp (d : Dev) (n f) : (d.updFp n f).br.pairs = d.br.pairs :=
  pairs_kept (sameBut_updFp d n f) (by decide)
@[simp] theorem pairs_updPtpPort (d : Dev) (n f) : (d.updPtpPort n f).br.pairs = d.br.pairs :=
  pairs_kept (sameBut_updPtpPort d n f) (by decide)
@[simp] theorem pairs_updCtx (d : Dev) (e c f) : (d.updCtx e c f).br.pairs = d.br.pairs :=
  pairs_kept (sameBut_updCtx d e c f) (by decide)
@[simp] theorem pairs_updLane (d : Dev) (q f) : (d.updLane q f).br.pairs = d.br.pairs :=
  pairs_kept (sameBut_updLane d q f) (by decide)
@[simp] theorem pairs_updMac (d : Dev) (n f) : (d.updMac n f).br.pairs = d.br.pairs :=
  pairs_kept (sameBut_updMac d n f) (by decide)
@[simp] theorem pairs_updMember (d : Dev) (n f) : (d.updMember n f).br.pairs = d.br.pairs :=
  pairs_kept (sameBut_updMember d n f) (by decide)
@[simp] theorem pairs_updPath (d : Dev) (n f) : (d.updPath n f).br.pairs = d.br.pairs :=
  pairs_kept (sameBut_updPath d n f) (by decide)
@[simp] theorem pairs_updHstat (d : Dev) (n f) : (d.updHstat n f).br.pairs = d.br.pairs :=
  pairs_kept (sameBut_updHstat d n f) (by decide)
@[simp] theorem pairs_updBox (d : Dev) (n f) : (d.updBox n f).br.pairs = d.br.pairs :=
  pairs_kept (sameBut_updBox d n f) (by decide)
@[simp] theorem pairs_updUser (d : Dev) (n f) : (d.updUser n f).br.pairs = d.br.pairs :=
  pairs_kept (sameBut_updUser d n f) (by decide)
@[simp] theorem pairs_updGroup (d : Dev) (n f) : (d.updGroup n f).br.pairs = d.br.pairs :=
  pairs_kept (sameBut_updGroup d n f) (by decide)
@[simp] theorem pairs_setSession (d : Dev) (n s) : (d.setSession n s).br.pairs = d.br.pairs := by simp [Dev.setSession]
@[simp] theorem pairs_write64 (d : Dev) (a v) : (d.write64 a v).br.pairs = d.br.pairs :=
  pairs_kept (sameBut_write64 d a v) (by decide)
@[simp] theorem pairs_write128 (d : Dev) (a v) : (d.write128 a v).br.pairs = d.br.pairs :=
  pairs_kept (sameBut_write128 d a v) (by decide)

/-! ### Interrupt -/

@[simp] theorem pairs_wakeEngine (e c) (d : Dev) : (wakeEngine e c d).br.pairs = d.br.pairs :=
  pairs_kept (sameBut_wakeEngine e c d) (by decide)
@[simp] theorem pairs_settleVectors (d : Dev) : (settleVectors d).br.pairs = d.br.pairs :=
  pairs_kept (sameBut_settleVectors d) (by decide)
@[simp] theorem pairs_wakeIfFirst (t had) (d : Dev) : (wakeIfFirst t had d).br.pairs = d.br.pairs := by simp [wakeIfFirst]
@[simp] theorem pairs_fireSource (n) (d : Dev) : (fireSource n d).br.pairs = d.br.pairs :=
  pairs_kept (sameBut_fireSource n d) (by decide)
@[simp] theorem pairs_fireCrossing (b) (d : Dev) : (fireCrossing b d).br.pairs = d.br.pairs :=
  pairs_kept (sameBut_fireCrossing b d) (by decide)
@[simp] theorem pairs_crossOverrun (i k) (d : Dev) : (crossOverrun i k d).br.pairs = d.br.pairs :=
  pairs_kept (sameBut_crossOverrun i k d) (by decide)
@[simp] theorem pairs_memberEvent (n) (d : Dev) : (memberEvent n d).br.pairs = d.br.pairs :=
  pairs_kept (sameBut_memberEvent n d) (by decide)
@[simp] theorem pairs_chanEvent (n ev) (d : Dev) : (chanEvent n ev d).br.pairs = d.br.pairs :=
  pairs_kept (sameBut_chanEvent n ev d) (by decide)
@[simp] theorem pairs_axisEvent (a b) (d : Dev) : (axisEvent a b d).br.pairs = d.br.pairs :=
  pairs_kept (sameBut_axisEvent a b d) (by decide)
@[simp] theorem pairs_icFlag (b) (d : Dev) : (icFlag b d).br.pairs = d.br.pairs := by simp [icFlag]
@[simp] theorem pairs_icDoorbell (v) (d : Dev) : (icDoorbell v d).br.pairs = d.br.pairs := by simp [icDoorbell]
@[simp] theorem pairs_icSetPending (w v) (d : Dev) : (icSetPending w v d).br.pairs = d.br.pairs := by simp [icSetPending]
@[simp] theorem pairs_refireLevel (n) (d : Dev) : (refireLevel n d).br.pairs = d.br.pairs := by simp [refireLevel]
@[simp] theorem pairs_icClearPending (w v) (d : Dev) : (icClearPending w v d).br.pairs = d.br.pairs := by simp [icClearPending]
@[simp] theorem pairs_icClearLost (w v) (d : Dev) : (icClearLost w v d).br.pairs = d.br.pairs := by simp [icClearLost]
@[simp] theorem pairs_icClaim (t) (d : Dev) : (icClaim t d).2.br.pairs = d.br.pairs := by
  unfold icClaim
  repeat' split
  all_goals simp
@[simp] theorem pairs_icComplete (t v) (d : Dev) : (icComplete t v d).br.pairs = d.br.pairs := by simp [icComplete]
@[simp] theorem pairs_icSourceWrite (n v) (d : Dev) : (icSourceWrite n v d).br.pairs = d.br.pairs := by simp [icSourceWrite]
@[simp] theorem pairs_icSpanEnd (n) (d : Dev) : (icSpanEnd n d).br.pairs = d.br.pairs := by simp [icSpanEnd]
@[simp] theorem pairs_icSample (p) (d : Dev) : (icSample p d).br.pairs = d.br.pairs := by simp [icSample]
@[simp] theorem pairs_icTclk (d : Dev) : (icTclk d).br.pairs = d.br.pairs := by simp [icTclk]
@[simp] theorem pairs_icPinSense (n lvl) (d : Dev) : (icPinSense n lvl d).br.pairs = d.br.pairs := by simp [icPinSense]
@[simp] theorem pairs_icChwRead (g) (d : Dev) : (icChwRead g d).2.br.pairs = d.br.pairs := by simp [icChwRead]
@[simp] theorem pairs_icAxwRead (g) (d : Dev) : (icAxwRead g d).2.br.pairs = d.br.pairs := by simp [icAxwRead]
@[simp] theorem pairs_armWakeLatches (d : Dev) : (armWakeLatches d).br.pairs = d.br.pairs := by simp [armWakeLatches]
@[simp] theorem pairs_fireWakeLatches (d : Dev) : (fireWakeLatches d).br.pairs = d.br.pairs := by simp [fireWakeLatches]

/-! ### Channel -/

@[simp] theorem pairs_chFlag (n b) (d : Dev) : (chFlag n b d).br.pairs = d.br.pairs :=
  pairs_kept (sameBut_chFlag n b d) (by decide)
@[simp] theorem pairs_fpFlag (p b) (d : Dev) : (fpFlag p b d).br.pairs = d.br.pairs :=
  pairs_kept (sameBut_fpFlag p b d) (by decide)
@[simp] theorem pairs_hdFlag (h b) (d : Dev) : (hdFlag h b d).br.pairs = d.br.pairs :=
  pairs_kept (sameBut_hdFlag h b d) (by decide)
@[simp] theorem pairs_undoEdge (n h) (d : Dev) : (undoEdge n h d).br.pairs = d.br.pairs :=
  pairs_kept (sameBut_undoEdge n h d) (by decide)
@[simp] theorem pairs_queueEdge (n lvl net e) (d : Dev) : (queueEdge n lvl net e d).br.pairs = d.br.pairs :=
  pairs_kept (sameBut_queueEdge n lvl net e d) (by decide)
@[simp] theorem pairs_putLevel (n v e g) (d : Dev) : (putLevel n v e g d).br.pairs = d.br.pairs :=
  pairs_kept (sameBut_putLevel n v e g d) (by decide)
@[simp] theorem pairs_setLevel (n v e g) (d : Dev) : (setLevel n v e g d).br.pairs = d.br.pairs :=
  pairs_kept (sameBut_setLevel n v e g d) (by decide)
@[simp] theorem pairs_levelRequest (n v e g) (d : Dev) : (levelRequest n v e g d).br.pairs = d.br.pairs :=
  pairs_kept (sameBut_levelRequest n v e g d) (by decide)
@[simp] theorem pairs_takeIdle (n) (d : Dev) : (takeIdle n d).br.pairs = d.br.pairs :=
  pairs_kept (sameBut_takeIdle n d) (by decide)
@[simp] theorem pairs_withOwner (ps) (f : Dev → Dev) (d : Dev) : (withOwner ps f d).br.pairs = (f d).br.pairs := by
  simp [withOwner]
@[simp] theorem pairs_reportComplete (o) (d : Dev) : (reportComplete o d).br.pairs = d.br.pairs :=
  pairs_kept (sameBut_reportComplete o d) (by decide)
@[simp] theorem pairs_markPair (p) (d : Dev) : (markPair p d).br.pairs = d.br.pairs := by simp [markPair]
@[simp] theorem pairs_emPut (n g) (d : Dev) : (emPut n g d).br.pairs = d.br.pairs :=
  pairs_kept (sameBut_emPut n g d) (by decide)
@[simp] theorem pairs_emShow (b g) (d : Dev) : (emShow b g d).br.pairs = d.br.pairs :=
  pairs_kept (sameBut_emShow b g d) (by decide)
@[simp] theorem pairs_emMove (b m) (d : Dev) : (emMove b m d).br.pairs = d.br.pairs := by simp [emMove]
@[simp] theorem pairs_emMoves (b) (d : Dev) : (emMoves b d).br.pairs = d.br.pairs := by simp [emMoves]
@[simp] theorem pairs_emStep (n back g) (d : Dev) : (emStep n back g d).br.pairs = d.br.pairs := by simp [emStep]
@[simp] theorem pairs_galleyLevel (n sid e v) (d : Dev) : (galleyLevel n sid e v d).br.pairs = d.br.pairs :=
  pairs_kept (sameBut_galleyLevel n sid e v d) (by decide)
@[simp] theorem pairs_beginOcc (sid e fin) (d : Dev) : (beginOcc sid e fin d).br.pairs = d.br.pairs :=
  pairs_kept (sameBut_beginOcc sid e fin d) (by decide)
@[simp] theorem pairs_galleyPulse (n sid e dur) (d : Dev) : (galleyPulse n sid e dur d).br.pairs = d.br.pairs :=
  pairs_kept (sameBut_galleyPulse n sid e dur d) (by decide)
@[simp] theorem pairs_pulsesDone (n fin) (d : Dev) : (pulsesDone n fin d).br.pairs = d.br.pairs :=
  pairs_kept (sameBut_pulsesDone n fin d) (by decide)
@[simp] theorem pairs_pulseEnds (n) (d : Dev) : (pulseEnds n d).br.pairs = d.br.pairs :=
  pairs_kept (sameBut_pulseEnds n d) (by decide)
@[simp] theorem pairs_quoinClose (v) (d : Dev) : (quoinClose v d).br.pairs = d.br.pairs := by simp [quoinClose]
@[simp] theorem pairs_quoinOpen (v) (d : Dev) : (quoinOpen v d).br.pairs = d.br.pairs := by simp [quoinOpen]
@[simp] theorem pairs_forceLevel (n v) (d : Dev) : (forceLevel n v d).br.pairs = d.br.pairs := by simp [forceLevel]
@[simp] theorem pairs_emcWrite (n v) (d : Dev) : (emcWrite n v d).br.pairs = d.br.pairs := by simp [emcWrite]
@[simp] theorem pairs_emsWrite (n v) (d : Dev) : (emsWrite n v d).br.pairs = d.br.pairs := by simp [emsWrite]
@[simp] theorem pairs_emzWrite (n v) (d : Dev) : (emzWrite n v d).br.pairs = d.br.pairs := by simp [emzWrite]
@[simp] theorem pairs_outWrite (n v) (d : Dev) : (outWrite n v d).br.pairs = d.br.pairs := by simp [outWrite]
@[simp] theorem pairs_rmapWrite (n v) (d : Dev) : (rmapWrite n v d).br.pairs = d.br.pairs := by simp [rmapWrite]
@[simp] theorem pairs_emEmit (n back single) (d : Dev) : (emEmit n back single d).br.pairs = d.br.pairs := by simp [emEmit]
@[simp] theorem pairs_emFollow (n) (d : Dev) : (emFollow n d).br.pairs = d.br.pairs := by
  unfold emFollow; dsimp only
  repeat' split
  all_goals simp
@[simp] theorem pairs_emulationStep (n a sid e) (d : Dev) : (emulationStep n a sid e d).br.pairs = d.br.pairs := by
  unfold emulationStep; split <;> simp
@[simp] theorem pairs_captureArm (n sid e dur) (d : Dev) : (captureArm n sid e dur d).br.pairs = d.br.pairs := by
  unfold captureArm
  repeat' split
  all_goals simp
@[simp] theorem pairs_windowClose (n) (d : Dev) : (windowClose n d).br.pairs = d.br.pairs :=
  pairs_kept (sameBut_windowClose n d) (by decide)

/-! ### Galley -/

@[simp] theorem pairs_glFlag (b) (d : Dev) : (glFlag b d).br.pairs = d.br.pairs :=
  pairs_kept (sameBut_glFlag b d) (by decide)
@[simp] theorem pairs_nextSeq (d : Dev) : (nextSeq d).2.br.pairs = d.br.pairs :=
  pairs_kept (sameBut_nextSeq d) (by decide)
theorem pairs_allocSid {d e : Dev} {sid : Nat} (h : allocSid d = some (sid, e)) : e.br.pairs = d.br.pairs := by
  unfold allocSid at h; dsimp only at h
  repeat' split at h
  all_goals simp only [Option.some.injEq, Prod.mk.injEq, reduceCtorEq] at h
  all_goals rw [← h.2]
@[simp] theorem pairs_freeSlug (sid) (d : Dev) : (freeSlug sid d).br.pairs = d.br.pairs :=
  pairs_kept (sameBut_freeSlug sid d) (by decide)
@[simp] theorem pairs_writeRecord (r) (d : Dev) : (writeRecord r d).br.pairs = d.br.pairs :=
  pairs_kept (sameBut_writeRecord r d) (by decide)
@[simp] theorem pairs_raiseArm (a) (d : Dev) : (raiseArm a d).br.pairs = d.br.pairs := by simp [raiseArm]
@[simp] theorem pairs_maybeArm (a ang) (d : Dev) : (maybeArm a ang d).br.pairs = d.br.pairs :=
  pairs_kept (sameBut_maybeArm a ang d) (by decide)
@[simp] theorem pairs_reinsert (sid) (d : Dev) : (reinsert sid d).br.pairs = d.br.pairs :=
  pairs_kept (sameBut_reinsert sid d) (by decide)
@[simp] theorem pairs_retireSlug (sid st) (d : Dev) : (retireSlug sid st d).br.pairs = d.br.pairs :=
  pairs_kept (sameBut_retireSlug sid st d) (by decide)
@[simp] theorem pairs_missSlug (sid reason t) (d : Dev) : (missSlug sid reason t d).br.pairs = d.br.pairs :=
  pairs_kept (sameBut_missSlug sid reason t d) (by decide)
@[simp] theorem pairs_cancelSlug (sid reason t) (d : Dev) : (cancelSlug sid reason t d).br.pairs = d.br.pairs :=
  pairs_kept (sameBut_cancelSlug sid reason t d) (by decide)
@[simp] theorem pairs_putEntry (cs k e) (d : Dev) : (putEntry cs k e d).br.pairs = d.br.pairs :=
  pairs_kept (sameBut_putEntry cs k e d) (by decide)
@[simp] theorem pairs_placeEntry (q e) (d : Dev) : (placeEntry q e d).2.br.pairs = d.br.pairs :=
  pairs_kept (sameBut_placeEntry q e d) (by decide)
@[simp] theorem pairs_armSlug (sid t g) (d : Dev) : (armSlug sid t g d).br.pairs = d.br.pairs :=
  pairs_kept (sameBut_armSlug sid t g d) (by decide)
@[simp] theorem pairs_passMissed (sid) (d : Dev) : (passMissed sid d).br.pairs = d.br.pairs :=
  pairs_kept (sameBut_passMissed sid d) (by decide)
@[simp] theorem pairs_passSlug (sid) (d : Dev) : (passSlug sid d).br.pairs = d.br.pairs :=
  pairs_kept (sameBut_passSlug sid d) (by decide)
@[simp] theorem pairs_armingPass (a) (d : Dev) : (armingPass a d).br.pairs = d.br.pairs :=
  pairs_kept (sameBut_armingPass a d) (by decide)
@[simp] theorem pairs_retimeAxis (a) (d : Dev) : (retimeAxis a d).br.pairs = d.br.pairs :=
  pairs_kept (sameBut_retimeAxis a d) (by decide)
@[simp] theorem pairs_chaseCommit (cs) (d : Dev) : (chaseCommit cs d).br.pairs = d.br.pairs := by
  unfold chaseCommit; split <;> simp
@[simp] theorem pairs_landChases (d : Dev) : (landChases d).br.pairs = d.br.pairs := by simp [landChases]
@[simp] theorem pairs_opInsert (s reservedBit pub sq) (d : Dev) :
    (opInsert s reservedBit pub sq d).2.br.pairs = d.br.pairs := by
  unfold opInsert
  split
  · rfl
  · split
    · simp
    · have ha := pairs_allocSid ‹_›
      simp [ha]
@[simp] theorem pairs_renameSlug (sid old new) (d : Dev) : (renameSlug sid old new d).br.pairs = d.br.pairs :=
  pairs_kept (sameBut_renameSlug sid old new d) (by decide)
@[simp] theorem pairs_opRemove (sid seq) (d : Dev) : (opRemove sid seq d).2.br.pairs = d.br.pairs := by
  unfold opRemove; dsimp only
  repeat' split
  all_goals simp
@[simp] theorem pairs_opModify (sid seq n sq) (d : Dev) : (opModify sid seq n sq d).2.br.pairs = d.br.pairs := by simp [opModify]
@[simp] theorem pairs_opModifyDur (sid seq dur sq) (d : Dev) : (opModifyDur sid seq dur sq d).2.br.pairs = d.br.pairs := by
  unfold opModifyDur; dsimp only
  repeat' split
  all_goals simp
@[simp] theorem pairs_opFree (sid seq) (d : Dev) : (opFree sid seq d).2.br.pairs = d.br.pairs := by simp [opFree]
@[simp] theorem pairs_glAnswer (r) : (glAnswer r).br.pairs = r.2.br.pairs := by simp [glAnswer]
@[simp] theorem pairs_clearPeak (cs) (d : Dev) : (clearPeak cs d).br.pairs = d.br.pairs := by simp [clearPeak]

/-! ### Service -/

@[simp] theorem pairs_boxAnswer (p body) (d : Dev) : (boxAnswer p body d).br.pairs = d.br.pairs := by simp [boxAnswer]
@[simp] theorem pairs_orWait (m w) (leave : Dev → Dev) (d : Dev) (h : (leave d).br.pairs = d.br.pairs) :
    (orWait m w leave d).br.pairs = d.br.pairs := by simp [orWait, h]
@[simp] theorem pairs_datagramLeaves (n l) (d : Dev) : (datagramLeaves n l d).br.pairs = d.br.pairs :=
  pairs_kept (sameBut_datagramLeaves n l d) (by decide)
@[simp] theorem pairs_sendDatagram (m n l) (d : Dev) : (sendDatagram m n l d).br.pairs = d.br.pairs := by simp [sendDatagram]
@[simp] theorem pairs_respond (w body) (d : Dev) : (respond w body d).br.pairs = d.br.pairs := by
  unfold respond; dsimp only
  repeat' split
  all_goals simp
@[simp] theorem pairs_loFinish (f) (d : Dev) : (loFinish f d).br.pairs = d.br.pairs :=
  pairs_kept (sameBut_loFinish f d) (by decide)

/-! ### Galley Port -/

@[simp] theorem pairs_write256 (d : Dev) (a v) : (d.write256 a v).br.pairs = d.br.pairs := by simp [Dev.write256]
@[simp] theorem pairs_opMark (sid seq imm2) (d : Dev) : (opMark sid seq imm2 d).2.br.pairs = d.br.pairs := by
  unfold opMark; dsimp only
  repeat' split
  all_goals simp
@[simp] theorem pairs_portAnswer (r) : (portAnswer r).2.br.pairs = r.2.br.pairs := by simp [portAnswer]
@[simp] theorem pairs_opPop (a bound) (d : Dev) : (opPop a bound d).2.br.pairs = d.br.pairs := by
  unfold opPop; split <;> simp
@[simp] theorem pairs_runPort (w) (d : Dev) : (runPort w d).2.br.pairs = d.br.pairs := by
  unfold runPort; split <;> simp
@[simp] theorem pairs_deliverPort (e c blk r) : (deliverPort e c blk r).br.pairs = r.2.br.pairs := by
  unfold deliverPort; dsimp only; split <;> simp
@[simp] theorem pairs_glCmdWrite (v) (d : Dev) : (glCmdWrite v d).br.pairs = d.br.pairs := by simp [glCmdWrite]
@[simp] theorem pairs_glSwWrite (i v) (d : Dev) : (glSwWrite i v d).br.pairs = d.br.pairs := by simp [glSwWrite]
@[simp] theorem pairs_grantWork (w) (d : Dev) : (grantWork w d).2.br.pairs = d.br.pairs := by
  unfold grantWork; dsimp only; split <;> simp
@[simp] theorem pairs_compactVisit (d : Dev) : (compactVisit d).br.pairs = d.br.pairs :=
  pairs_kept (sameBut_compactVisit d) (by decide)
@[simp] theorem pairs_galleyGrant (d : Dev) : (galleyGrant d).br.pairs = d.br.pairs := by
  unfold galleyGrant
  repeat' split
  all_goals simp
@[simp] theorem pairs_runHost (w) (d : Dev) : (runHost w d).br.pairs = d.br.pairs := by
  unfold runHost; split <;> simp
@[simp] theorem pairs_galleyComplete (d : Dev) : (galleyComplete d).br.pairs = d.br.pairs := by
  unfold galleyComplete
  repeat' split
  all_goals simp
@[simp] theorem pairs_settleGranted (d : Dev) : (settleGranted d).br.pairs = d.br.pairs := by simp [settleGranted]
@[simp] theorem pairs_hostOp (op sid) (d : Dev) : (hostOp op sid d).br.pairs = d.br.pairs := by
  unfold hostOp; split <;> simp
@[simp] theorem pairs_galPort (e c op v imm2 blk axis) (d : Dev) : (galPort e c op v imm2 blk axis d).br.pairs = d.br.pairs := by
  simp [galPort]
@[simp] theorem pairs_directInsert (s reservedBit) (d : Dev) : (directInsert s reservedBit d).2.br.pairs = d.br.pairs := by
  simp [directInsert]
@[simp] theorem pairs_directRemove (sid seq) (d : Dev) : (directRemove sid seq d).2.br.pairs = d.br.pairs := by simp [directRemove]
@[simp] theorem pairs_commitRecord (d : Dev) : (commitRecord d).br.pairs = d.br.pairs := by
  unfold commitRecord; split <;> simp
@[simp] theorem pairs_actionComplete (d : Dev) : (actionComplete d).br.pairs = d.br.pairs := by
  unfold actionComplete; split <;> simp
@[simp] theorem pairs_groupTrigger (g) (d : Dev) : (groupTrigger g d).br.pairs = d.br.pairs := by simp [groupTrigger]
@[simp] theorem pairs_clearWmax (d : Dev) : (clearWmax d).br.pairs = d.br.pairs := by simp [clearWmax]
@[simp] theorem pairs_compactBegin (d : Dev) : (compactBegin d).br.pairs = d.br.pairs := by simp [compactBegin]
@[simp] theorem pairs_compactDone (d : Dev) : (compactDone d).br.pairs = d.br.pairs :=
  pairs_kept (sameBut_compactDone d) (by decide)
@[simp] theorem pairs_compactFinish (d : Dev) : (compactFinish d).br.pairs = d.br.pairs := by simp [compactFinish]

/-! ### Timers -/

@[simp] theorem pairs_tsFlag (n b) (d : Dev) : (tsFlag n b d).br.pairs = d.br.pairs := by simp [tsFlag]
@[simp] theorem pairs_reloadTerminal (n) (d : Dev) : (reloadTerminal n d).br.pairs = d.br.pairs :=
  pairs_kept (sameBut_reloadTerminal n d) (by decide)
@[simp] theorem pairs_reload (n) (d : Dev) : (reload n d).br.pairs = d.br.pairs := by simp [reload]
@[simp] theorem pairs_resetOne (n) (d : Dev) : (resetOne n d).br.pairs = d.br.pairs :=
  pairs_kept (sameBut_resetOne n d) (by decide)
@[simp] theorem pairs_counterResetBy (n) (d : Dev) : (counterResetBy n d).br.pairs = d.br.pairs :=
  pairs_kept (sameBut_counterResetBy n d) (by decide)
@[simp] theorem pairs_counterStartBy (cmd n) (d : Dev) : (counterStartBy cmd n d).br.pairs = d.br.pairs :=
  pairs_kept (sameBut_counterStartBy cmd n d) (by decide)
@[simp] theorem pairs_counterStop (n) (d : Dev) : (counterStop n d).br.pairs = d.br.pairs :=
  pairs_kept (sameBut_counterStop n d) (by decide)
@[simp] theorem pairs_matchAction (n code p) (d : Dev) : (matchAction n code p d).br.pairs = d.br.pairs :=
  pairs_kept (sameBut_matchAction n code p d) (by decide)
@[simp] theorem pairs_eventAction (n ev) (d : Dev) : (eventAction n ev d).br.pairs = d.br.pairs :=
  pairs_kept (sameBut_eventAction n ev d) (by decide)
@[simp] theorem pairs_counterEvent (n ev) (d : Dev) : (counterEvent n ev d).br.pairs = d.br.pairs :=
  pairs_kept (sameBut_counterEvent n ev d) (by decide)
@[simp] theorem pairs_counterReset (n) (d : Dev) : (counterReset n d).br.pairs = d.br.pairs :=
  pairs_kept (sameBut_counterReset n d) (by decide)
@[simp] theorem pairs_counterStart (n) (d : Dev) : (counterStart n d).br.pairs = d.br.pairs :=
  pairs_kept (sameBut_counterStart n d) (by decide)
@[simp] theorem pairs_carryInto (x0 x1) (x2 : Dev) : (carryInto x0 x1 x2).br.pairs = x2.br.pairs :=
  pairs_kept (sameBut_carryInto x0 x1 x2) (by decide)
@[simp] theorem pairs_counterTerminal (n) (d : Dev) : (counterTerminal n d).br.pairs = d.br.pairs :=
  pairs_kept (sameBut_counterTerminal n d) (by decide)
@[simp] theorem pairs_compareMatch (n rise) (d : Dev) : (compareMatch n rise d).br.pairs = d.br.pairs :=
  pairs_kept (sameBut_compareMatch n rise d) (by decide)
@[simp] theorem pairs_compareWrite (n r v) (d : Dev) : (compareWrite n r v d).br.pairs = d.br.pairs := by simp [compareWrite]
@[simp] theorem pairs_countLoad (n v) (d : Dev) : (countLoad n v d).br.pairs = d.br.pairs := by simp [countLoad]
@[simp] theorem pairs_countWrite (n v) (d : Dev) : (countWrite n v d).br.pairs = d.br.pairs := by
  unfold countWrite; dsimp only
  repeat' split
  · simp
  · rw [pairs_countLoad]
    exact pairs_forEach _ _ d fun k d => by split <;> simp
  · simp
@[simp] theorem pairs_lnkWrite (n v) (d : Dev) : (lnkWrite n v d).br.pairs = d.br.pairs := by simp [lnkWrite]
@[simp] theorem pairs_mactWrite (n v) (d : Dev) : (mactWrite n v d).br.pairs = d.br.pairs := by simp [mactWrite]
@[simp] theorem pairs_capcWrite (n v) (d : Dev) : (capcWrite n v d).br.pairs = d.br.pairs := by simp [capcWrite]
@[simp] theorem pairs_groupReset (n mask) (d : Dev) : (groupReset n mask d).br.pairs = d.br.pairs :=
  pairs_kept (sameBut_groupReset n mask d) (by decide)
@[simp] theorem pairs_groupStart (n mask) (d : Dev) : (groupStart n mask d).br.pairs = d.br.pairs :=
  pairs_kept (sameBut_groupStart n mask d) (by decide)
@[simp] theorem pairs_counterTstart (n) (d : Dev) : (counterTstart n d).br.pairs = d.br.pairs := by simp [counterTstart]
@[simp] theorem pairs_channelStart (n) (d : Dev) : (channelStart n d).br.pairs = d.br.pairs :=
  pairs_kept (sameBut_channelStart n d) (by decide)
@[simp] theorem pairs_channelStop (n) (d : Dev) : (channelStop n d).br.pairs = d.br.pairs :=
  pairs_kept (sameBut_channelStop n d) (by decide)
@[simp] theorem pairs_latchChain (n second) (d : Dev) : (latchChain n second d).br.pairs = d.br.pairs :=
  pairs_kept (sameBut_latchChain n second d) (by decide)
@[simp] theorem pairs_storeCapture (n second cnt stamp g sg) (d : Dev) :
    (storeCapture n second cnt stamp g sg d).br.pairs = d.br.pairs :=
  pairs_kept (sameBut_storeCapture n second cnt stamp g sg d) (by decide)
@[simp] theorem pairs_takeCapture (n fall stamp g sg) (d : Dev) : (takeCapture n fall stamp g sg d).br.pairs = d.br.pairs :=
  pairs_kept (sameBut_takeCapture n fall stamp g sg d) (by decide)
@[simp] theorem pairs_captureEdge (n rise at_ stamp g sg) (d : Dev) : (captureEdge n rise at_ stamp g sg d).br.pairs = d.br.pairs :=
  pairs_kept (sameBut_captureEdge n rise at_ stamp g sg d) (by decide)
@[simp] theorem pairs_captureEdges (p rise at_ stamp g sg) (d : Dev) : (captureEdges p rise at_ stamp g sg d).br.pairs = d.br.pairs :=
  pairs_kept (sameBut_captureEdges p rise at_ stamp g sg d) (by decide)
@[simp] theorem pairs_countEdges (p rise) (d : Dev) : (countEdges p rise d).br.pairs = d.br.pairs :=
  pairs_kept (sameBut_countEdges p rise d) (by decide)
@[simp] theorem pairs_softCapture (n) (d : Dev) : (softCapture n d).br.pairs = d.br.pairs := by simp [softCapture]
@[simp] theorem pairs_captureRead (n second) (d : Dev) : (captureRead n second d).2.br.pairs = d.br.pairs := by simp [captureRead]
@[simp] theorem pairs_ccmdWrite (n v) (d : Dev) : (ccmdWrite n v d).br.pairs = d.br.pairs := by simp [ccmdWrite]
@[simp] theorem pairs_landChannels (d : Dev) : (landChannels d).br.pairs = d.br.pairs := by simp [landChannels]
@[simp] theorem pairs_mergeDue (forced n) (d : Dev) : (mergeDue forced n d).br.pairs = d.br.pairs := by simp [mergeDue]
@[simp] theorem pairs_openTclk (starting n) (d : Dev) : (openTclk starting n d).br.pairs = d.br.pairs := by simp [openTclk]

/-! ### Policy -/

@[simp] theorem pairs_withdrawEntry (cs k) (d : Dev) : (withdrawEntry cs k d).br.pairs = d.br.pairs := by simp [withdrawEntry]
@[simp] theorem pairs_releaseEntry (cs k e coast) (d : Dev) : (releaseEntry cs k e coast d).br.pairs = d.br.pairs := by
  simp [releaseEntry]
@[simp] theorem pairs_entryAction (kind cs k e) (d : Dev) : (entryAction kind cs k e d).br.pairs = d.br.pairs :=
  pairs_kept (sameBut_entryAction kind cs k e d) (by decide)
@[simp] theorem pairs_disturbOne (kind a) (d : Dev) : (disturbOne kind a d).br.pairs = d.br.pairs :=
  pairs_kept (sameBut_disturbOne kind a d) (by decide)
@[simp] theorem pairs_disturb (kind a) (d : Dev) : (disturb kind a d).br.pairs = d.br.pairs :=
  pairs_kept (sameBut_disturb kind a d) (by decide)
@[simp] theorem pairs_polCount (f) (d : Dev) : (polCount f d).br.pairs = d.br.pairs :=
  pairs_kept (sameBut_polCount f d) (by decide)
@[simp] theorem pairs_parkSlug (sid) (d : Dev) : (parkSlug sid d).br.pairs = d.br.pairs := by simp [parkSlug]
@[simp] theorem pairs_serveEntry (kind absolute t e) (d : Dev) : (serveEntry kind absolute t e d).br.pairs = d.br.pairs := by
  unfold serveEntry; split <;> simp
@[simp] theorem pairs_walkSlug (kind absolute t e) (d : Dev) : (walkSlug kind absolute t e d).br.pairs = d.br.pairs := by
  unfold walkSlug; split <;> simp
@[simp] theorem pairs_chargeCredits (e cost) (d : Dev) : (chargeCredits e cost d).br.pairs = d.br.pairs :=
  pairs_kept (sameBut_chargeCredits e cost d) (by decide)
@[simp] theorem pairs_servePolicy (e r) (d : Dev) : (servePolicy e r d).br.pairs = d.br.pairs := by
  unfold servePolicy; split <;> simp
@[simp] theorem pairs_policyWalk (a) (d : Dev) : (policyWalk a d).br.pairs = d.br.pairs := by
  unfold policyWalk; split <;> simp
@[simp] theorem pairs_channelDisable (n) (d : Dev) : (channelDisable n d).br.pairs = d.br.pairs :=
  pairs_kept (sameBut_channelDisable n d) (by decide)
@[simp] theorem pairs_unsuppress (e) (d : Dev) : (unsuppress e d).br.pairs = d.br.pairs := by simp [unsuppress]
@[simp] theorem pairs_channelEnable (n) (d : Dev) : (channelEnable n d).br.pairs = d.br.pairs := by simp [channelEnable]
@[simp] theorem pairs_chCtlWrite (n v) (d : Dev) : (chCtlWrite n v d).br.pairs = d.br.pairs := by simp [chCtlWrite]

/-! ### Axis -/

@[simp] theorem pairs_axFlag (a b) (d : Dev) : (axFlag a b d).br.pairs = d.br.pairs :=
  pairs_kept (sameBut_axFlag a b d) (by decide)
@[simp] theorem pairs_lawTclk (a) (d : Dev) : (lawTclk a d).br.pairs = d.br.pairs := by simp [lawTclk]
@[simp] theorem pairs_publish (a) (d : Dev) : (publish a d).br.pairs = d.br.pairs := by simp [publish]
@[simp] theorem pairs_loadVirtual (v) (d : Dev) : (loadVirtual v d).br.pairs = d.br.pairs := by simp [loadVirtual]
@[simp] theorem pairs_refreshVirtuals (a) (d : Dev) : (refreshVirtuals a d).br.pairs = d.br.pairs := by simp [refreshVirtuals]
@[simp] theorem pairs_setSync (s a) (d : Dev) : (setSync s a d).br.pairs = d.br.pairs := by simp [setSync]
@[simp] theorem pairs_enterSearch (a) (d : Dev) : (enterSearch a d).br.pairs = d.br.pairs :=
  pairs_kept (sameBut_enterSearch a d) (by decide)
@[simp] theorem pairs_enterLost (a) (d : Dev) : (enterLost a d).br.pairs = d.br.pairs :=
  pairs_kept (sameBut_enterLost a d) (by decide)
@[simp] theorem pairs_checkReference (was a attr s p) (d : Dev) : (checkReference was a attr s p d).br.pairs = d.br.pairs := by
  unfold checkReference; dsimp only
  repeat' split
  all_goals simp
@[simp] theorem pairs_acceptAt (a s ghost) (d : Dev) : (acceptAt a s ghost d).br.pairs = d.br.pairs := by simp [acceptAt]
@[simp] theorem pairs_noteUpdate (a upd s sg ok inWin) (d : Dev) : (noteUpdate a upd s sg ok inWin d).br.pairs = d.br.pairs := by
  simp [noteUpdate]
@[simp] theorem pairs_afterTooth (was a attr upd s p inWin) (d : Dev) :
    (afterTooth was a attr upd s p inWin d).br.pairs = d.br.pairs := by
  simp [afterTooth]
@[simp] theorem pairs_reversal (a attr s) (d : Dev) : (reversal a attr s d).br.pairs = d.br.pairs :=
  pairs_kept (sameBut_reversal a attr s d) (by decide)
@[simp] theorem pairs_stopAxis (a) (d : Dev) : (stopAxis a d).br.pairs = d.br.pairs := by simp [stopAxis]
@[simp] theorem pairs_startTrack (a c attr upd s) (d : Dev) : (startTrack a c attr upd s d).br.pairs = d.br.pairs := by
  simp [startTrack]
@[simp] theorem pairs_searchTooth (a attr upd s) (d : Dev) : (searchTooth a attr upd s d).br.pairs = d.br.pairs :=
  pairs_kept (sameBut_searchTooth a attr upd s d) (by decide)
@[simp] theorem pairs_absorb (a attr upd s) (d : Dev) : (absorb a attr upd s d).br.pairs = d.br.pairs :=
  pairs_kept (sameBut_absorb a attr upd s d) (by decide)
@[simp] theorem pairs_runningTooth (a attr upd s) (d : Dev) : (runningTooth a attr upd s d).br.pairs = d.br.pairs :=
  pairs_kept (sameBut_runningTooth a attr upd s d) (by decide)
@[simp] theorem pairs_trackTooth (a stamp attr upd) (d : Dev) : (trackTooth a stamp attr upd d).br.pairs = d.br.pairs := by
  unfold trackTooth; dsimp only
  repeat' split
  all_goals simp
@[simp] theorem pairs_releaseHeld (a l) (d : Dev) : (releaseHeld a l d).br.pairs = d.br.pairs :=
  pairs_forEach _ _ d fun e d => by
    split
    all_goals simp
@[simp] theorem pairs_ghostDue (a) (d : Dev) : (ghostDue a d).br.pairs = d.br.pairs := by
  unfold ghostDue; dsimp only
  repeat' split
  all_goals simp
@[simp] theorem pairs_loadModel (a l) (d : Dev) : (loadModel a l d).br.pairs = d.br.pairs := by simp [loadModel]
@[simp] theorem pairs_segmentEvent (a old new wasOn) (d : Dev) : (segmentEvent a old new wasOn d).br.pairs = d.br.pairs := by
  simp [segmentEvent]
@[simp] theorem pairs_loadSegment (a s) (d : Dev) : (loadSegment a s d).br.pairs = d.br.pairs := by simp [loadSegment]
@[simp] theorem pairs_serveUpdate (a) (d : Dev) : (serveUpdate a d).br.pairs = d.br.pairs := by
  unfold serveUpdate; dsimp only
  repeat' split
  all_goals simp
@[simp] theorem pairs_takeUpdate (e a) (d : Dev) : (takeUpdate e a d).br.pairs = d.br.pairs := by simp [takeUpdate]
@[simp] theorem pairs_policyService (e a) (d : Dev) : (policyService e a d).br.pairs = d.br.pairs := by
  unfold policyService; split <;> simp
@[simp] theorem pairs_updateService (e a) (d : Dev) : (updateService e a d).br.pairs = d.br.pairs := by
  unfold updateService; split <;> simp
@[simp] theorem pairs_armingService (e a) (d : Dev) : (armingService e a d).br.pairs = d.br.pairs := by simp [armingService]
@[simp] theorem pairs_axisEnable (a) (d : Dev) : (axisEnable a d).br.pairs = d.br.pairs := by simp [axisEnable]
@[simp] theorem pairs_axisDisable (a) (d : Dev) : (axisDisable a d).br.pairs = d.br.pairs := by simp [axisDisable]
@[simp] theorem pairs_resync (a) (d : Dev) : (resync a d).br.pairs = d.br.pairs := by simp [resync]
@[simp] theorem pairs_aoqSeed (a) (d : Dev) : (aoqSeed a d).br.pairs = d.br.pairs := by simp [aoqSeed]
@[simp] theorem pairs_enterCoast (a) (d : Dev) : (enterCoast a d).br.pairs = d.br.pairs :=
  pairs_kept (sameBut_enterCoast a d) (by decide)
@[simp] theorem pairs_remoteMiss (a) (d : Dev) : (remoteMiss a d).br.pairs = d.br.pairs :=
  pairs_kept (sameBut_remoteMiss a d) (by decide)
@[simp] theorem pairs_coastLimit (a) (d : Dev) : (coastLimit a d).br.pairs = d.br.pairs :=
  pairs_kept (sameBut_coastLimit a d) (by decide)
@[simp] theorem pairs_coastMax (a) (d : Dev) : (coastMax a d).br.pairs = d.br.pairs :=
  pairs_kept (sameBut_coastMax a d) (by decide)
@[simp] theorem pairs_remoteSample (a pos stamp) (d : Dev) : (remoteSample a pos stamp d).br.pairs = d.br.pairs := by
  simp [remoteSample]
@[simp] theorem pairs_fitRemote (a) (d : Dev) : (fitRemote a d).br.pairs = d.br.pairs := by
  unfold fitRemote; dsimp only
  repeat' split
  all_goals simp
@[simp] theorem pairs_applySamples (a) (d : Dev) : (applySamples a d).br.pairs = d.br.pairs := by simp [applySamples]
@[simp] theorem pairs_axCfgWrite (a v) (d : Dev) : (axCfgWrite a v d).br.pairs = d.br.pairs := by simp [axCfgWrite]
@[simp] theorem pairs_axSrcWrite (a v) (d : Dev) : (axSrcWrite a v d).br.pairs = d.br.pairs := by simp [axSrcWrite]
@[simp] theorem pairs_axTptWrite (a v) (d : Dev) : (axTptWrite a v d).br.pairs = d.br.pairs := by simp [axTptWrite]
@[simp] theorem pairs_axWinWrite (a v) (d : Dev) : (axWinWrite a v d).br.pairs = d.br.pairs := by simp [axWinWrite]
@[simp] theorem pairs_axOfsWrite (a v) (d : Dev) : (axOfsWrite a v d).br.pairs = d.br.pairs := by simp [axOfsWrite]
@[simp] theorem pairs_axHorWrite (a v) (d : Dev) : (axHorWrite a v d).br.pairs = d.br.pairs := by simp [axHorWrite]
@[simp] theorem pairs_tracksTclk (d : Dev) : (tracksTclk d).br.pairs = d.br.pairs := by simp [tracksTclk]

/-! ### Tooth -/

@[simp] theorem pairs_tdFlag (n b) (d : Dev) : (tdFlag n b d).br.pairs = d.br.pairs := by simp [tdFlag]
@[simp] theorem pairs_pinTransition (p lvl g) (d : Dev) : (pinTransition p lvl g d).br.pairs = d.br.pairs := by simp [pinTransition]
@[simp] theorem pairs_sampleTclk (p) (d : Dev) : (sampleTclk p d).br.pairs = d.br.pairs := by simp [sampleTclk]
@[simp] theorem pairs_filterSample (p) (d : Dev) : (filterSample p d).br.pairs = d.br.pairs := by
  unfold filterSample; dsimp only; split <;> simp
@[simp] theorem pairs_edgeAccepted (p) (d : Dev) : (edgeAccepted p d).br.pairs = d.br.pairs := by
  unfold edgeAccepted; split <;> simp
@[simp] theorem pairs_pinWrite (p v) (d : Dev) : (pinWrite p v d).br.pairs = d.br.pairs := by simp [pinWrite]
@[simp] theorem pairs_driveBall (p) (d : Dev) : (driveBall p d).br.pairs = d.br.pairs := by
  unfold driveBall; dsimp only
  repeat' split
  all_goals simp
@[simp] theorem pairs_formTooth (n stamp sg coarse rev) (d : Dev) : (formTooth n stamp sg coarse rev d).br.pairs = d.br.pairs := by
  simp [formTooth]
@[simp] theorem pairs_advanceTotal (n) (d : Dev) : (advanceTotal n d).br.pairs = d.br.pairs := by
  unfold advanceTotal; split <;> simp
@[simp] theorem pairs_updateRequest (n) (d : Dev) : (updateRequest n d).br.pairs = d.br.pairs := by simp [updateRequest]
@[simp] theorem pairs_pulseWidthEdge (n rise stamp sg coarse) (d : Dev) :
    (pulseWidthEdge n rise stamp sg coarse d).br.pairs = d.br.pairs := by
  unfold pulseWidthEdge; dsimp only
  repeat' split
  all_goals simp
@[simp] theorem pairs_pwdFault (n) (d : Dev) : (pwdFault n d).br.pairs = d.br.pairs := by simp [pwdFault]
@[simp] theorem pairs_indexEdge (n stamp) (d : Dev) : (indexEdge n stamp d).br.pairs = d.br.pairs := by simp [indexEdge]
@[simp] theorem pairs_quadStage (n) (d : Dev) : (quadStage n d).br.pairs = d.br.pairs := by
  unfold quadStage; dsimp only
  repeat' split
  all_goals simp
@[simp] theorem pairs_decoderStage (n) (d : Dev) : (decoderStage n d).br.pairs = d.br.pairs := by
  unfold decoderStage; split <;> simp
@[simp] theorem pairs_indexStage (n) (d : Dev) : (indexStage n d).br.pairs = d.br.pairs := by
  unfold indexStage; split <;> simp
@[simp] theorem pairs_captureStage (p) (d : Dev) : (captureStage p d).br.pairs = d.br.pairs := by
  unfold captureStage; split <;> simp
@[simp] theorem pairs_countStage (p) (d : Dev) : (countStage p d).br.pairs = d.br.pairs := by
  unfold countStage; split <;> simp
@[simp] theorem pairs_movePipe (p) (d : Dev) : (movePipe p d).br.pairs = d.br.pairs := by simp [movePipe]
@[simp] theorem pairs_landDecoder (n) (d : Dev) : (landDecoder n d).br.pairs = d.br.pairs :=
  pairs_kept (sameBut_landDecoder n d) (by decide)
@[simp] theorem pairs_landTooth (d : Dev) : (landTooth d).br.pairs = d.br.pairs :=
  pairs_kept (sameBut_landTooth d) (by decide)
@[simp] theorem pairs_toothTclk (d : Dev) : (toothTclk d).br.pairs = d.br.pairs := by simp [toothTclk]
@[simp] theorem pairs_openPins (d : Dev) : (openPins d).br.pairs = d.br.pairs := by simp [openPins]
@[simp] theorem pairs_decoderEnable (n) (d : Dev) : (decoderEnable n d).br.pairs = d.br.pairs := by simp [decoderEnable]
@[simp] theorem pairs_decoderDisable (n) (d : Dev) : (decoderDisable n d).br.pairs = d.br.pairs := by simp [decoderDisable]
@[simp] theorem pairs_decoderClear (n) (d : Dev) : (decoderClear n d).br.pairs = d.br.pairs :=
  pairs_kept (sameBut_decoderClear n d) (by decide)
@[simp] theorem pairs_tdcWrite (n v) (d : Dev) : (tdcWrite n v d).br.pairs = d.br.pairs :=
  pairs_kept (sameBut_tdcWrite n v d) (by decide)
@[simp] theorem pairs_decCfgWrite (n same f) (d : Dev) : (decCfgWrite n same f d).br.pairs = d.br.pairs := by simp [decCfgWrite]
@[simp] theorem pairs_decWordWrite (n r v) (d : Dev) : (decWordWrite n r v d).br.pairs = d.br.pairs := by
  unfold decWordWrite; split <;> simp
@[simp] theorem pairs_udivWrite (n v) (d : Dev) : (udivWrite n v d).br.pairs = d.br.pairs := by simp [udivWrite]
@[simp] theorem pairs_preWrite (n v) (d : Dev) : (preWrite n v d).br.pairs = d.br.pairs := by simp [preWrite]
@[simp] theorem pairs_aoqTransition (k chB illegal nearPreset) (d : Dev) :
    (aoqTransition k chB illegal nearPreset d).br.pairs = d.br.pairs := by
  simp [aoqTransition]
@[simp] theorem pairs_aoqPreset (k) (d : Dev) : (aoqPreset k d).br.pairs = d.br.pairs := by simp [aoqPreset]
@[simp] theorem pairs_aoqCtlWrite (k v) (d : Dev) : (aoqCtlWrite k v d).br.pairs = d.br.pairs := by simp [aoqCtlWrite]

/-! ### Engine -/

@[simp] theorem pairs_updateCredit (e) (d : Dev) : (updateCredit e d).br.pairs = d.br.pairs := by simp [updateCredit]
@[simp] theorem pairs_capCredits (d : Dev) : (capCredits d).br.pairs = d.br.pairs := by simp [capCredits]
@[simp] theorem pairs_neFlag (e b) (d : Dev) : (neFlag e b d).br.pairs = d.br.pairs :=
  pairs_kept (sameBut_neFlag e b d) (by decide)
@[simp] theorem pairs_setReady (e c on) (d : Dev) : (setReady e c on d).br.pairs = d.br.pairs :=
  pairs_kept (sameBut_setReady e c on d) (by decide)
@[simp] theorem pairs_endWork (e c) (d : Dev) : (endWork e c d).br.pairs = d.br.pairs := by
  unfold endWork; split <;> simp
@[simp] theorem pairs_endwOp (e) (d : Dev) : (endwOp e d).br.pairs = d.br.pairs := by simp [endwOp]
@[simp] theorem pairs_takeRequest (e) (d : Dev) : (takeRequest e d).br.pairs = d.br.pairs := by
  unfold takeRequest; split <;> simp
@[simp] theorem pairs_requeue (e) (d : Dev) : (requeue e d).br.pairs = d.br.pairs := by
  unfold requeue; split <;> simp
@[simp] theorem pairs_goOffline (e) (d : Dev) : (goOffline e d).br.pairs = d.br.pairs := by simp [goOffline]
@[simp] theorem pairs_offlineRequest (e) (d : Dev) : (offlineRequest e d).br.pairs = d.br.pairs := by simp [offlineRequest]
@[simp] theorem pairs_onlineRequest (e) (d : Dev) : (onlineRequest e d).br.pairs = d.br.pairs := by simp [onlineRequest]
@[simp] theorem pairs_comeOnline (e) (d : Dev) : (comeOnline e d).br.pairs = d.br.pairs := by simp [comeOnline]
@[simp] theorem pairs_contextFault (code e c) (d : Dev) : (contextFault code e c d).br.pairs = d.br.pairs :=
  pairs_kept (sameBut_contextFault code e c d) (by decide)
@[simp] theorem pairs_takeFault (e) (d : Dev) : (takeFault e d).br.pairs = d.br.pairs := by
  unfold takeFault; split <;> simp
@[simp] theorem pairs_takeChalt (e) (d : Dev) : (takeChalt e d).br.pairs = d.br.pairs := by simp [takeChalt]
@[simp] theorem pairs_resume (e c) (d : Dev) : (resume e c d).br.pairs = d.br.pairs := by simp [resume]
@[simp] theorem pairs_safePoint (e) (d : Dev) : (safePoint e d).br.pairs = d.br.pairs := by
  unfold safePoint; dsimp only
  repeat' split
  all_goals simp
@[simp] theorem pairs_strobeReaches (e) (d : Dev) : (strobeReaches e d).br.pairs = d.br.pairs :=
  pairs_kept (sameBut_strobeReaches e d) (by decide)
@[simp] theorem pairs_takeLock (e) (d : Dev) : (takeLock e d).br.pairs = d.br.pairs := by simp [takeLock]
@[simp] theorem pairs_engineLoads (d : Dev) : (engineLoads d).br.pairs = d.br.pairs := by unfold engineLoads; rfl
@[simp] theorem pairs_boundaryEngines (d : Dev) : (boundaryEngines d).br.pairs = d.br.pairs := by simp [boundaryEngines]
@[simp] theorem pairs_cstart (e) (d : Dev) : (cstart e d).br.pairs = d.br.pairs := by simp [cstart]
@[simp] theorem pairs_chalt (e) (d : Dev) : (chalt e d).br.pairs = d.br.pairs := by simp [chalt]
@[simp] theorem pairs_lockWrite (e v) (d : Dev) : (lockWrite e v d).br.pairs = d.br.pairs := by simp [lockWrite]
@[simp] theorem pairs_neCtlWrite (e v) (d : Dev) : (neCtlWrite e v d).br.pairs = d.br.pairs := by simp [neCtlWrite]
@[simp] theorem pairs_engineWake (chan sid t) (d : Dev) : (engineWake chan sid t d).br.pairs = d.br.pairs := by
  unfold engineWake; split <;> simp
@[simp] theorem pairs_doorbellAction (chan sid t) (d : Dev) : (doorbellAction chan sid t d).br.pairs = d.br.pairs := by
  unfold doorbellAction; split <;> simp
@[simp] theorem pairs_lockstepMismatch (e) (d : Dev) : (lockstepMismatch e d).br.pairs = d.br.pairs := by simp [lockstepMismatch]

/-! ### Micro -/

@[simp] theorem pairs_tickEngine (e) (d : Dev) : (tickEngine e d).br.pairs = d.br.pairs := by simp [tickEngine]
@[simp] theorem pairs_memoryAccess (e c w a v r quiet) (d : Dev) : (memoryAccess e c w a v r quiet d).br.pairs = d.br.pairs := by
  unfold memoryAccess; split <;> simp
@[simp] theorem pairs_issueGal (e c w a v xt) (d : Dev) : (issueGal e c w a v xt d).br.pairs = d.br.pairs := by simp [issueGal]
@[simp] theorem pairs_issueChop (e c w a v xt) (d : Dev) : (issueChop e c w a v xt d).br.pairs = d.br.pairs := by simp [issueChop]
@[simp] theorem pairs_traceWrite (e c pc v) (d : Dev) : (traceWrite e c pc v d).br.pairs = d.br.pairs := by simp [traceWrite]
@[simp] theorem pairs_mirrorPair (e) (d : Dev) : (mirrorPair e d).br.pairs = d.br.pairs := by simp [mirrorPair]
@[simp] theorem pairs_spendCycle (e c) (d : Dev) : (spendCycle e c d).br.pairs = d.br.pairs := by simp [spendCycle]
@[simp] theorem pairs_executeWord (e c w r1 r2 r3 r4 r5 r6) (d : Dev) :
    (executeWord e c w r1 r2 r3 r4 r5 r6 d).br.pairs = d.br.pairs := by
  simp [executeWord]
@[simp] theorem pairs_microword (e) (d : Dev) : (microword e d).br.pairs = d.br.pairs := by simp [microword]
@[simp] theorem pairs_safePointOp (e) (d : Dev) : (safePointOp e d).br.pairs = d.br.pairs := by simp [safePointOp]

/-! ### Loader -/

@[simp] theorem pairs_loadReport (kind e) (d : Dev) : (loadReport kind e d).br.pairs = d.br.pairs := by simp [loadReport]
@[simp] theorem pairs_settleOpen (im e) (d : Dev) : (settleOpen im e d).br.pairs = d.br.pairs := by simp [settleOpen]
@[simp] theorem pairs_openLoadStart (d : Dev) : (openLoadStart d).br.pairs = d.br.pairs := by simp [openLoadStart]
@[simp] theorem pairs_openLoadDone (c : Core) : (openLoadDone c).dev.br.pairs = c.dev.br.pairs := by simp [openLoadDone]
@[simp] theorem pairs_openUnload (d : Dev) : (openUnload d).br.pairs = d.br.pairs := by simp [openUnload]
@[simp] theorem pairs_applyPatch (im) (c : Core) : (applyPatch im c).dev.br.pairs = c.dev.br.pairs := by simp [applyPatch]

/-! ### Compositor -/

@[simp] theorem pairs_cpFlag (k b) (d : Dev) : (cpFlag k b d).br.pairs = d.br.pairs :=
  pairs_kept (sameBut_cpFlag k b d) (by decide)
@[simp] theorem pairs_cpSet (k) (d : Dev) : (cpSet k d).br.pairs = d.br.pairs := by simp [cpSet]
@[simp] theorem pairs_cpOut (k) (d : Dev) : (cpOut k d).br.pairs = d.br.pairs := by simp [cpOut]
@[simp] theorem pairs_inputBit (k i) (d : Dev) : (inputBit k i d).2.br.pairs = d.br.pairs := by simp [inputBit]
@[simp] theorem pairs_cpIn (k) (d : Dev) : (cpIn k d).br.pairs = d.br.pairs := by simp [cpIn]
@[simp] theorem pairs_cpWait (k) (d : Dev) : (cpWait k d).br.pairs = d.br.pairs := by
  unfold cpWait; dsimp only
  repeat' split
  all_goals simp
@[simp] theorem pairs_cpMov (k) (d : Dev) : (cpMov k d).br.pairs = d.br.pairs := by simp [cpMov]
@[simp] theorem pairs_cpJmp (k) (d : Dev) : (cpJmp k d).br.pairs = d.br.pairs := by simp [cpJmp]
@[simp] theorem pairs_cpSig (k) (d : Dev) : (cpSig k d).br.pairs = d.br.pairs := by simp [cpSig]
@[simp] theorem pairs_cpHalt (k) (d : Dev) : (cpHalt k d).br.pairs = d.br.pairs := by simp [cpHalt]
@[simp] theorem pairs_cpIllop (k) (d : Dev) : (cpIllop k d).br.pairs = d.br.pairs := by simp [cpIllop]
@[simp] theorem pairs_cpDelayStep (k) (d : Dev) : (cpDelayStep k d).br.pairs = d.br.pairs := by simp [cpDelayStep]
@[simp] theorem pairs_txdWrite (k v) (d : Dev) : (txdWrite k v d).br.pairs = d.br.pairs := by simp [txdWrite]
@[simp] theorem pairs_rxdRead (k) (d : Dev) : (rxdRead k d).2.br.pairs = d.br.pairs := by
  unfold rxdRead; split <;> simp
@[simp] theorem pairs_cpStart (k clean atTick) (d : Dev) : (cpStart k clean atTick d).br.pairs = d.br.pairs := by simp [cpStart]
@[simp] theorem pairs_cpCmdHalt (k) (d : Dev) : (cpCmdHalt k d).br.pairs = d.br.pairs := by simp [cpCmdHalt]
@[simp] theorem pairs_cpCmdWrite (k v) (d : Dev) : (cpCmdWrite k v d).br.pairs = d.br.pairs := by simp [cpCmdWrite]
@[simp] theorem pairs_cpEnable (k) (d : Dev) : (cpEnable k d).br.pairs = d.br.pairs := by simp [cpEnable]
@[simp] theorem pairs_cpDisable (k) (d : Dev) : (cpDisable k d).br.pairs = d.br.pairs := by simp [cpDisable]
@[simp] theorem pairs_landComps (d : Dev) : (landComps d).br.pairs = d.br.pairs := by simp [landComps]
@[simp] theorem pairs_cpCtlWrite (k v) (d : Dev) : (cpCtlWrite k v d).br.pairs = d.br.pairs := by simp [cpCtlWrite]
@[simp] theorem pairs_cpPinsWrite (k v) (d : Dev) : (cpPinsWrite k v d).br.pairs = d.br.pairs := by simp [cpPinsWrite]
@[simp] theorem pairs_cpOliWrite (k v) (d : Dev) : (cpOliWrite k v d).br.pairs = d.br.pairs := by simp [cpOliWrite]
@[simp] theorem pairs_programWrite (k r v) (d : Dev) : (programWrite k r v d).br.pairs = d.br.pairs := by simp [programWrite]

/-! ### Timebase -/

@[simp] theorem pairs_tbFlag (b) (d : Dev) : (tbFlag b d).br.pairs = d.br.pairs :=
  pairs_kept (sameBut_tbFlag b d) (by decide)
@[simp] theorem pairs_settleAlign (d : Dev) : (settleAlign d).br.pairs = d.br.pairs :=
  pairs_kept (sameBut_settleAlign d) (by decide)
@[simp] theorem pairs_alignLost (d : Dev) : (alignLost d).br.pairs = d.br.pairs := by simp [alignLost]
@[simp] theorem pairs_setTrim (v) (d : Dev) : (setTrim v d).br.pairs = d.br.pairs :=
  pairs_kept (sameBut_setTrim v d) (by decide)
@[simp] theorem pairs_htrimWrite (v) (d : Dev) : (htrimWrite v d).br.pairs = d.br.pairs := by simp [htrimWrite]
@[simp] theorem pairs_stepCommit (v) (d : Dev) : (stepCommit v d).br.pairs = d.br.pairs := by simp [stepCommit]
@[simp] theorem pairs_dropHostStep (d : Dev) : (dropHostStep d).br.pairs = d.br.pairs := by
  unfold dropHostStep; split <;> simp
@[simp] theorem pairs_dropServo (d : Dev) : (dropServo d).br.pairs = d.br.pairs :=
  pairs_kept (sameBut_dropServo d) (by decide)
@[simp] theorem pairs_servoWrite (v) (d : Dev) : (servoWrite v d).br.pairs = d.br.pairs := by simp [servoWrite]
@[simp] theorem pairs_shiftAll (s) (d : Dev) : (shiftAll s d).br.pairs = d.br.pairs := by simp [shiftAll]
@[simp] theorem pairs_regrid (d : Dev) : (regrid d).br.pairs = d.br.pairs := by simp [regrid]
@[simp] theorem pairs_applyStep (d : Dev) : (applyStep d).br.pairs = d.br.pairs := by
  unfold applyStep; split <;> simp
@[simp] theorem pairs_passQuiet (d : Dev) : (passQuiet d).br.pairs = d.br.pairs := by
  unfold passQuiet; split <;> simp
@[simp] theorem pairs_advanceTclk (d : Dev) : (advanceTclk d).br.pairs = d.br.pairs := by simp [advanceTclk]
@[simp] theorem pairs_boundaryStep (takeover) (d : Dev) : (boundaryStep takeover d).br.pairs = d.br.pairs := by
  unfold boundaryStep; split <;> simp
@[simp] theorem pairs_servoTrim (d : Dev) : (servoTrim d).br.pairs = d.br.pairs := by simp [servoTrim]
@[simp] theorem pairs_slewTrim (o) (d : Dev) : (slewTrim o d).br.pairs = d.br.pairs := by simp [slewTrim]
@[simp] theorem pairs_captureEpoch (o) (d : Dev) : (captureEpoch o d).br.pairs = d.br.pairs := by simp [captureEpoch]
@[simp] theorem pairs_correct (o) (d : Dev) : (correct o d).br.pairs = d.br.pairs := by simp [correct]
@[simp] theorem pairs_setE0 (d : Dev) : (setE0 d).br.pairs = d.br.pairs := by simp [setE0]
@[simp] theorem pairs_servoOffset (o rx) (d : Dev) : (servoOffset o rx d).br.pairs = d.br.pairs := by simp [servoOffset]
@[simp] theorem pairs_takeSync (p plant rx origin) (d : Dev) : (takeSync p plant rx origin d).br.pairs = d.br.pairs := by
  simp [takeSync]
@[simp] theorem pairs_toInstance (p dom) (f : Bool → Dev → Dev) (d : Dev) (h : ∀ b, (f b d).br.pairs = d.br.pairs) :
    (toInstance p dom f d).br.pairs = d.br.pairs := by
  unfold toInstance; split <;> simp [h]
@[simp] theorem pairs_syncRx (p dom seq g oneStep) (d : Dev) : (syncRx p dom seq g oneStep d).br.pairs = d.br.pairs := by
  unfold syncRx; split <;> simp
@[simp] theorem pairs_followUp (p dom seq origin) (d : Dev) : (followUp p dom seq origin d).br.pairs = d.br.pairs :=
  pairs_toInstance _ _ _ d fun plant => by
    dsimp only
    repeat' split
    all_goals simp
@[simp] theorem pairs_settleBest (d : Dev) : (settleBest d).br.pairs = d.br.pairs :=
  pairs_kept (sameBut_settleBest d) (by decide)
@[simp] theorem pairs_announceRx (dom m) (d : Dev) : (announceRx dom m d).br.pairs = d.br.pairs := by simp [announceRx]
@[simp] theorem pairs_forgetMaster (d : Dev) : (forgetMaster d).br.pairs = d.br.pairs := by
  unfold forgetMaster; split <;> simp
@[simp] theorem pairs_enterUnset (d : Dev) : (enterUnset d).br.pairs = d.br.pairs :=
  pairs_kept (sameBut_enterUnset d) (by decide)
@[simp] theorem pairs_enterHoldover (d : Dev) : (enterHoldover d).br.pairs = d.br.pairs := by simp [enterHoldover]
@[simp] theorem pairs_syncTimeout (plant) (d : Dev) : (syncTimeout plant d).br.pairs = d.br.pairs := by
  unfold syncTimeout
  repeat' split
  all_goals simp
@[simp] theorem pairs_announceTimeout (plant) (d : Dev) : (announceTimeout plant d).br.pairs = d.br.pairs := by simp [announceTimeout]
@[simp] theorem pairs_settleRole (d : Dev) : (settleRole d).br.pairs = d.br.pairs :=
  pairs_kept (sameBut_settleRole d) (by decide)
@[simp] theorem pairs_sendPtp (m) (d : Dev) : (sendPtp m d).br.pairs = d.br.pairs :=
  pairs_kept (sameBut_sendPtp m d) (by decide)
@[simp] theorem pairs_pdelayRespLeaves (p seq rx g) (d : Dev) : (pdelayRespLeaves p seq rx g d).br.pairs = d.br.pairs :=
  pairs_kept (sameBut_pdelayRespLeaves p seq rx g d) (by decide)
@[simp] theorem pairs_pdelayReq (p seq g g2) (d : Dev) : (pdelayReq p seq g g2 d).br.pairs = d.br.pairs := by simp [pdelayReq]
@[simp] theorem pairs_pdelayReqLeaves (p g) (d : Dev) : (pdelayReqLeaves p g d).br.pairs = d.br.pairs :=
  pairs_kept (sameBut_pdelayReqLeaves p g d) (by decide)
@[simp] theorem pairs_pdelayReqSend (p g) (d : Dev) : (pdelayReqSend p g d).br.pairs = d.br.pairs := by simp [pdelayReqSend]
@[simp] theorem pairs_pdelayResp (p g t2) (d : Dev) : (pdelayResp p g t2 d).br.pairs = d.br.pairs := by simp [pdelayResp]
@[simp] theorem pairs_pdelayRespFollowUp (p t3) (d : Dev) : (pdelayRespFollowUp p t3 d).br.pairs = d.br.pairs := by
  unfold pdelayRespFollowUp; split <;> simp
@[simp] theorem pairs_syncLeaves (p g) (d : Dev) : (syncLeaves p g d).br.pairs = d.br.pairs :=
  pairs_kept (sameBut_syncLeaves p g d) (by decide)
@[simp] theorem pairs_syncSend (p g) (d : Dev) : (syncSend p g d).br.pairs = d.br.pairs := by simp [syncSend]
@[simp] theorem pairs_announceLeaves (p) (d : Dev) : (announceLeaves p d).br.pairs = d.br.pairs :=
  pairs_kept (sameBut_announceLeaves p d) (by decide)
@[simp] theorem pairs_announceSend (p) (d : Dev) : (announceSend p d).br.pairs = d.br.pairs := by simp [announceSend]
@[simp] theorem pairs_ptpManagement (_p) (d : Dev) : (ptpManagement _p d).br.pairs = d.br.pairs := by simp [ptpManagement]

/-! ### Link -/

@[simp] theorem pairs_emFlag (m b) (d : Dev) : (emFlag m b d).br.pairs = d.br.pairs :=
  pairs_kept (sameBut_emFlag m b d) (by decide)
@[simp] theorem pairs_settleDomain (d : Dev) : (settleDomain d).br.pairs = d.br.pairs :=
  pairs_kept (sameBut_settleDomain d) (by decide)
@[simp] theorem pairs_settleAll (d : Dev) : (settleAll d).br.pairs = d.br.pairs :=
  pairs_kept (sameBut_settleAll d) (by decide)
@[simp] theorem pairs_setRole (r) (d : Dev) : (setRole r d).br.pairs = d.br.pairs :=
  pairs_kept (sameBut_setRole r d) (by decide)
@[simp] theorem pairs_setPlant (v) (d : Dev) : (setPlant v d).br.pairs = d.br.pairs := by simp [setPlant]
@[simp] theorem pairs_sendTrajectory (m start) (d : Dev) : (sendTrajectory m start d).br.pairs = d.br.pairs := by
  unfold sendTrajectory; split <;> simp
@[simp] theorem pairs_memberWork (d : Dev) : (memberWork d).br.pairs = d.br.pairs := by simp [memberWork]
@[simp] theorem pairs_managerWork (d : Dev) : (managerWork d).br.pairs = d.br.pairs := by simp [managerWork]
@[simp] theorem pairs_gateOpen (m) (d : Dev) : (gateOpen m d).br.pairs = d.br.pairs := by simp [gateOpen]
@[simp] theorem pairs_replyLeaves (m kind dest data) (d : Dev) : (replyLeaves m kind dest data d).br.pairs = d.br.pairs :=
  pairs_kept (sameBut_replyLeaves m kind dest data d) (by decide)
@[simp] theorem pairs_leaves (m w) (d : Dev) : (leaves m w d).br.pairs = d.br.pairs :=
  pairs_kept (sameBut_leaves m w d) (by decide)
@[simp] theorem pairs_releaseWaiting (m) (d : Dev) : (releaseWaiting m d).br.pairs = d.br.pairs :=
  pairs_kept (sameBut_releaseWaiting m d) (by decide)
@[simp] theorem pairs_gateClose (m) (d : Dev) : (gateClose m d).br.pairs = d.br.pairs :=
  pairs_kept (sameBut_gateClose m d) (by decide)
@[simp] theorem pairs_appBytes (d : Dev) : (appBytes d).2.br.pairs = d.br.pairs := by
  unfold appBytes
  split
  · exact List.foldlRecOn (motive := fun q : List Byte × Dev => q.2.br.pairs = d.br.pairs) _ _ rfl fun q hq _ _ => by simpa using hq
  · rfl
@[simp] theorem pairs_takeBody (past) (d : Dev) : (takeBody past d).br.pairs = d.br.pairs := by simp [takeBody]
@[simp] theorem pairs_summarySend (m) (d : Dev) : (summarySend m d).br.pairs = d.br.pairs := by simp [summarySend]
@[simp] theorem pairs_summaryRx (m domain src a tick body full) (d : Dev) :
    (summaryRx m domain src a tick body full d).br.pairs = d.br.pairs := by
  simp [summaryRx]
@[simp] theorem pairs_workerLost (a) (d : Dev) : (workerLost a d).br.pairs = d.br.pairs :=
  pairs_kept (sameBut_workerLost a d) (by decide)
@[simp] theorem pairs_memberBoundary (a) (d : Dev) : (memberBoundary a d).br.pairs = d.br.pairs := by simp [memberBoundary]
@[simp] theorem pairs_staleFrame (m) (d : Dev) : (staleFrame m d).br.pairs = d.br.pairs :=
  pairs_kept (sameBut_staleFrame m d) (by decide)
@[simp] theorem pairs_demoteManager (f src) (d : Dev) : (demoteManager f src d).br.pairs = d.br.pairs := by simp [demoteManager]
@[simp] theorem pairs_takeFrame (f) (d : Dev) : (takeFrame f d).br.pairs = d.br.pairs := by simp [takeFrame]
@[simp] theorem pairs_acceptFrame (m src f newGen) (d : Dev) : (acceptFrame m src f newGen d).br.pairs = d.br.pairs := by
  simp [acceptFrame]
@[simp] theorem pairs_trajectoryRx (m src f) (d : Dev) : (trajectoryRx m src f d).br.pairs = d.br.pairs := by simp [trajectoryRx]
@[simp] theorem pairs_loadMaster (e tref a) (d : Dev) : (loadMaster e tref a d).br.pairs = d.br.pairs := by simp [loadMaster]
@[simp] theorem pairs_applyEntry (f e) (d : Dev) : (applyEntry f e d).br.pairs = d.br.pairs := by simp [applyEntry]
@[simp] theorem pairs_takeChange (f) (d : Dev) : (takeChange f d).br.pairs = d.br.pairs := by simp [takeChange]
@[simp] theorem pairs_afterApply (d : Dev) : (afterApply d).br.pairs = d.br.pairs := by simp [afterApply]
@[simp] theorem pairs_applyFrame (d : Dev) : (applyFrame d).br.pairs = d.br.pairs := by
  unfold applyFrame; split <;> simp
@[simp] theorem pairs_linkWork (d : Dev) : (linkWork d).br.pairs = d.br.pairs := by simp [linkWork]
@[simp] theorem pairs_masterLost (m) (d : Dev) : (masterLost m d).br.pairs = d.br.pairs :=
  pairs_kept (sameBut_masterLost m d) (by decide)
@[simp] theorem pairs_masterBoundary (m) (d : Dev) : (masterBoundary m d).br.pairs = d.br.pairs := by simp [masterBoundary]
@[simp] theorem pairs_takeover (d : Dev) : (takeover d).br.pairs = d.br.pairs :=
  pairs_kept (sameBut_takeover d) (by decide)
@[simp] theorem pairs_silentBoundary (d : Dev) : (silentBoundary d).br.pairs = d.br.pairs := by simp [silentBoundary]
@[simp] theorem pairs_coastBoundary (a) (d : Dev) : (coastBoundary a d).br.pairs = d.br.pairs := by simp [coastBoundary]
@[simp] theorem pairs_linkBoundary (past) (d : Dev) : (linkBoundary past d).br.pairs = d.br.pairs := by simp [linkBoundary]
@[simp] theorem pairs_sendReply (m kind dest data) (d : Dev) : (sendReply m kind dest data d).br.pairs = d.br.pairs := by
  simp [sendReply]
@[simp] theorem pairs_arpRequest (m sender target) (d : Dev) : (arpRequest m sender target d).br.pairs = d.br.pairs := by
  simp [arpRequest]
@[simp] theorem pairs_icmpEcho (m sender target data plain) (d : Dev) :
    (icmpEcho m sender target data plain d).br.pairs = d.br.pairs := by
  simp [icmpEcho]
@[simp] theorem pairs_receiveError (m) (d : Dev) : (receiveError m d).br.pairs = d.br.pairs := by simp [receiveError]
@[simp] theorem pairs_linkDown (m) (d : Dev) : (linkDown m d).br.pairs = d.br.pairs := by simp [linkDown]
@[simp] theorem pairs_linkUp (m) (d : Dev) : (linkUp m d).br.pairs = d.br.pairs := by simp [linkUp]
@[simp] theorem pairs_macEnable (m) (d : Dev) : (macEnable m d).br.pairs = d.br.pairs := by simp [macEnable]
@[simp] theorem pairs_macDisable (m queued) (d : Dev) : (macDisable m queued d).br.pairs = d.br.pairs := by simp [macDisable]
@[simp] theorem pairs_emCfgWrite (m v) (d : Dev) : (emCfgWrite m v d).br.pairs = d.br.pairs := by simp [emCfgWrite]

/-! ### Bridge -/

@[simp] theorem pairs_openBlanking (p) (d : Dev) : (openBlanking p d).br.pairs = d.br.pairs := by simp [openBlanking]
@[simp] theorem pairs_tiEvent (i) (d : Dev) : (tiEvent i d).br.pairs = d.br.pairs := by simp [tiEvent]
@[simp] theorem pairs_acceptTrip (i) (d : Dev) : (acceptTrip i d).br.pairs = d.br.pairs := by simp [acceptTrip]
@[simp] theorem pairs_openTrip (i) (d : Dev) : (openTrip i d).br.pairs = d.br.pairs := by simp [openTrip]
@[simp] theorem pairs_tripAccepted (i) (d : Dev) : (tripAccepted i d).br.pairs = d.br.pairs := by simp [tripAccepted]
@[simp] theorem pairs_tripInactive (i) (d : Dev) : (tripInactive i d).br.pairs = d.br.pairs := by simp [tripInactive]
@[simp] theorem pairs_softTrip (i) (d : Dev) : (softTrip i d).br.pairs = d.br.pairs := by simp [softTrip]
@[simp] theorem pairs_latchClear (i) (d : Dev) : (latchClear i d).br.pairs = d.br.pairs := by simp [latchClear]

/-! ### Keys -/

@[simp] theorem pairs_secFlag (b) (d : Dev) : (secFlag b d).br.pairs = d.br.pairs := by simp [secFlag]
@[simp] theorem pairs_voidAll (c : Core) : (voidAll c).dev.br.pairs = c.dev.br.pairs := by simp [voidAll]
@[simp] theorem pairs_tamper (c : Core) : (tamper c).dev.br.pairs = c.dev.br.pairs := by simp [tamper]
@[simp] theorem pairs_vbatLoss (c : Core) : (vbatLoss c).dev.br.pairs = c.dev.br.pairs := by simp [vbatLoss]
@[simp] theorem pairs_vbatRestore (c : Core) : (vbatRestore c).dev.br.pairs = c.dev.br.pairs := by simp [vbatRestore]
@[simp] theorem pairs_keyFailure (reason index sub) (d : Dev) : (keyFailure reason index sub d).br.pairs = d.br.pairs := by
  simp [keyFailure]
@[simp] theorem pairs_afterBoot (signed) (c : Core) : (afterBoot signed c).dev.br.pairs = c.dev.br.pairs := by simp [afterBoot]
@[simp] theorem pairs_writeCustHash (value) (c : Core) : (writeCustHash value c).2.dev.br.pairs = c.dev.br.pairs := by
  unfold writeCustHash
  repeat' split
  all_goals simp
@[simp] theorem pairs_bootKeyStep (n w) (c : Core) : (bootKeyStep n w c).dev.br.pairs = c.dev.br.pairs := by simp [bootKeyStep]
@[simp] theorem pairs_rwkReject (src addr) (d : Dev) : (rwkReject src addr d).br.pairs = d.br.pairs := by simp [rwkReject]

/-! ### Monitor -/

@[simp] theorem pairs_fmFlag (b) (d : Dev) : (fmFlag b d).br.pairs = d.br.pairs :=
  pairs_kept (sameBut_fmFlag b d) (by decide)
@[simp] theorem pairs_publishMargins (d : Dev) : (publishMargins d).br.pairs = d.br.pairs :=
  pairs_kept (sameBut_publishMargins d) (by decide)
@[simp] theorem pairs_surveyRequest (d : Dev) : (surveyRequest d).br.pairs = d.br.pairs := by simp [surveyRequest]
@[simp] theorem pairs_surveyStart (d : Dev) : (surveyStart d).br.pairs = d.br.pairs := by simp [surveyStart]
@[simp] theorem pairs_surveyAbandon (d : Dev) : (surveyAbandon d).br.pairs = d.br.pairs := by simp [surveyAbandon]
@[simp] theorem pairs_sentinelMeasured (value tj) (d : Dev) : (sentinelMeasured value tj d).br.pairs = d.br.pairs := by
  unfold sentinelMeasured; split <;> simp
@[simp] theorem pairs_surveyDone (drift) (d : Dev) : (surveyDone drift d).br.pairs = d.br.pairs := by simp [surveyDone]
theorem pairs_consentWrite {v} {d e : Dev} (h : consentWrite v d = some e) : e.br.pairs = d.br.pairs := by
  unfold consentWrite at h
  split at h
  · rw [← Option.some.inj h]
  · cases h
@[simp] theorem pairs_planTakesEffect (d : Dev) : (planTakesEffect d).br.pairs = d.br.pairs := by
  unfold planTakesEffect; split <;> simp
@[simp] theorem pairs_vtrimStep (d : Dev) : (vtrimStep d).br.pairs = d.br.pairs := by simp [vtrimStep]
@[simp] theorem pairs_bootConsent (v) (d : Dev) : (bootConsent v d).br.pairs = d.br.pairs := by simp [bootConsent]
@[simp] theorem pairs_calibrationStart (d : Dev) : (calibrationStart d).br.pairs = d.br.pairs := by simp [calibrationStart]
@[simp] theorem pairs_calibrationDone (ok) (d : Dev) : (calibrationDone ok d).br.pairs = d.br.pairs := by simp [calibrationDone]

/-! ### Power -/

@[simp] theorem pairs_cmdReject (d : Dev) : (cmdReject d).br.pairs = d.br.pairs := by simp [cmdReject]
@[simp] theorem pairs_powerRequest (r) (d : Dev) : (powerRequest r d).br.pairs = d.br.pairs := by simp [powerRequest]
@[simp] theorem pairs_gbPwrWrite (v) (d : Dev) : (gbPwrWrite v d).br.pairs = d.br.pairs := by simp [gbPwrWrite]
@[simp] theorem pairs_orderRestart (c) (d : Dev) : (orderRestart c d).br.pairs = d.br.pairs := by simp [orderRestart]
@[simp] theorem pairs_gbCmdWrite (v) (d : Dev) : (gbCmdWrite v d).br.pairs = d.br.pairs := by simp [gbCmdWrite]
@[simp] theorem pairs_settleStop (d : Dev) : (settleStop d).br.pairs = d.br.pairs := by simp [settleStop]
@[simp] theorem pairs_dropRequest (d : Dev) : (dropRequest d).br.pairs = d.br.pairs := by simp [dropRequest]
@[simp] theorem pairs_idleEntry (d : Dev) : (idleEntry d).br.pairs = d.br.pairs := by simp [idleEntry]
@[simp] theorem pairs_restartEngines (d : Dev) : (restartEngines d).br.pairs = d.br.pairs := by simp [restartEngines]
@[simp] theorem pairs_idleExit (d : Dev) : (idleExit d).br.pairs = d.br.pairs := by simp [idleExit]
@[simp] theorem pairs_microwordStep (e) (d : Dev) : (microwordStep e d).br.pairs = d.br.pairs := by simp [microwordStep]
@[simp] theorem pairs_safePointStep (e) (d : Dev) : (safePointStep e d).br.pairs = d.br.pairs := by simp [safePointStep]
@[simp] theorem pairs_mismatchStep (e) (d : Dev) : (mismatchStep e d).br.pairs = d.br.pairs := by simp [mismatchStep]
@[simp] theorem pairs_holdAbandon (d : Dev) : (holdAbandon d).br.pairs = d.br.pairs := by simp [holdAbandon]
@[simp] theorem pairs_holdEntry (d : Dev) : (holdEntry d).br.pairs = d.br.pairs := by simp [holdEntry]
@[simp] theorem pairs_pwrEnFall (d : Dev) : (pwrEnFall d).br.pairs = d.br.pairs := by simp [pwrEnFall]
@[simp] theorem pairs_beginWake (cause source) (d : Dev) : (beginWake cause source d).br.pairs = d.br.pairs := by simp [beginWake]
@[simp] theorem pairs_wakeLatch (n rise) (d : Dev) : (wakeLatch n rise d).br.pairs = d.br.pairs := by
  unfold wakeLatch; dsimp only
  repeat' split
  all_goals simp
@[simp] theorem pairs_holdExit (n) (d : Dev) : (holdExit n d).br.pairs = d.br.pairs := by simp [holdExit]
@[simp] theorem pairs_heldDeep (was) (c : Core) : (heldDeep was c).dev.br.pairs = c.dev.br.pairs := by simp [heldDeep]
@[simp] theorem pairs_scrubStep (d : Dev) : (scrubStep d).br.pairs = d.br.pairs :=
  pairs_kept (sameBut_scrubStep d) (by decide)

/-! ### Crossing -/

@[simp] theorem pairs_quiesce (i k) (d : Dev) : (quiesce i k d).br.pairs = d.br.pairs := by simp [quiesce]
@[simp] theorem pairs_xstatSet (b on) (d : Dev) : (xstatSet b on d).br.pairs = d.br.pairs := by simp [xstatSet]
@[simp] theorem pairs_resetPort (p) (d : Dev) : (resetPort p d).br.pairs = d.br.pairs := by simp [resetPort]
@[simp] theorem pairs_pcieReset (k) (d : Dev) : (pcieReset k d).br.pairs = d.br.pairs := by simp [pcieReset]
@[simp] theorem pairs_qspiReset (k) (d : Dev) : (qspiReset k d).br.pairs = d.br.pairs := by simp [qspiReset]
@[simp] theorem pairs_macLineReset (m k) (d : Dev) : (macLineReset m k d).br.pairs = d.br.pairs := by simp [macLineReset]
@[simp] theorem pairs_macDisableStep (m queued) (d : Dev) : (macDisableStep m queued d).br.pairs = d.br.pairs := by
  simp [macDisableStep]
@[simp] theorem pairs_crossingResync (k) (d : Dev) : (crossingResync k d).br.pairs = d.br.pairs := by
  unfold crossingResync; split <;> simp
@[simp] theorem pairs_jtagBypass (d : Dev) : (jtagBypass d).br.pairs = d.br.pairs := by simp [jtagBypass]
@[simp] theorem pairs_jtagIdcode (d : Dev) : (jtagIdcode d).br.pairs = d.br.pairs := by simp [jtagIdcode]
@[simp] theorem pairs_jtagSample (cells) (d : Dev) : (jtagSample cells d).br.pairs = d.br.pairs := by simp [jtagSample]
@[simp] theorem pairs_jtagDrive (ir) (d : Dev) : (jtagDrive ir d).br.pairs = d.br.pairs := by simp [jtagDrive]

/-! ### Field -/

@[simp] theorem pairs_planLoad (p) (d : Dev) : (planLoad p d).br.pairs = d.br.pairs := by
  unfold planLoad; split <;> simp
@[simp] theorem pairs_fpLoad (p) (d : Dev) : (fpLoad p d).br.pairs = d.br.pairs := by simp [fpLoad]
@[simp] theorem pairs_fpBoundary (p) (d : Dev) : (fpBoundary p d).br.pairs = d.br.pairs := by simp [fpBoundary]
@[simp] theorem pairs_cyclicStart (h) (d : Dev) : (cyclicStart h d).br.pairs = d.br.pairs := by simp [cyclicStart]
@[simp] theorem pairs_acyclicStart (p) (d : Dev) : (acyclicStart p d).br.pairs = d.br.pairs := by
  unfold acyclicStart; dsimp only; split <;> simp
@[simp] theorem pairs_enumNext (p) (d : Dev) : (enumNext p d).br.pairs = d.br.pairs := by
  unfold enumNext; split <;> simp
@[simp] theorem pairs_paramAnswer (r ok) (d : Dev) : (paramAnswer r ok d).br.pairs = d.br.pairs := by
  unfold paramAnswer
  repeat' split
  all_goals simp
@[simp] theorem pairs_headAbsent (h) (d : Dev) : (headAbsent h d).br.pairs = d.br.pairs := by simp [headAbsent]
@[simp] theorem pairs_acyFail (p r) (d : Dev) : (acyFail p r d).br.pairs = d.br.pairs := by
  unfold acyFail; split <;> simp
@[simp] theorem pairs_freeLine (p e) (d : Dev) : (freeLine p e d).br.pairs = d.br.pairs := by simp [freeLine]
@[simp] theorem pairs_exchangeFails (p e) (d : Dev) : (exchangeFails p e d).br.pairs = d.br.pairs := by
  unfold exchangeFails
  repeat' split
  all_goals simp
@[simp] theorem pairs_noResponse (p) (d : Dev) : (noResponse p d).br.pairs = d.br.pairs := by
  unfold noResponse; split <;> simp
@[simp] theorem pairs_badFrame (p e) (d : Dev) : (badFrame p e d).br.pairs = d.br.pairs := by simp [badFrame]
@[simp] theorem pairs_serviceDone (p e st) (d : Dev) : (serviceDone p e st d).br.pairs = d.br.pairs := by simp [serviceDone]
@[simp] theorem pairs_encoderResponse (p frame framing) (d : Dev) : (encoderResponse p frame framing d).br.pairs = d.br.pairs := by
  unfold encoderResponse; split <;> simp
@[simp] theorem pairs_gateResponse (p frame framing) (d : Dev) : (gateResponse p frame framing d).br.pairs = d.br.pairs := by
  unfold gateResponse; split <;> simp
@[simp] theorem pairs_ioResponse (p frame framing) (d : Dev) : (ioResponse p frame framing d).br.pairs = d.br.pairs := by
  unfold ioResponse; split <;> simp
@[simp] theorem pairs_clearLine (p) (d : Dev) : (clearLine p d).br.pairs = d.br.pairs := by simp [clearLine]
@[simp] theorem pairs_identifyResponse (p frame framing trip) (d : Dev) :
    (identifyResponse p frame framing trip d).br.pairs = d.br.pairs := by
  unfold identifyResponse; split <;> simp
@[simp] theorem pairs_readResponse (p frame framing) (d : Dev) : (readResponse p frame framing d).br.pairs = d.br.pairs := by
  unfold readResponse
  repeat' split
  all_goals simp
@[simp] theorem pairs_writeResponse (p frame framing) (d : Dev) : (writeResponse p frame framing d).br.pairs = d.br.pairs := by
  unfold writeResponse
  repeat' split
  all_goals simp
@[simp] theorem pairs_enumStart (p) (d : Dev) : (enumStart p d).br.pairs = d.br.pairs := by simp [enumStart]
@[simp] theorem pairs_enumDone (d : Dev) : (enumDone d).br.pairs = d.br.pairs := by simp [enumDone]
@[simp] theorem pairs_portEnable (p) (d : Dev) : (portEnable p d).br.pairs = d.br.pairs := by simp [portEnable]
@[simp] theorem pairs_portDisable (p) (d : Dev) : (portDisable p d).br.pairs = d.br.pairs := by simp [portDisable]
@[simp] theorem pairs_fpCfgWrite (p v) (d : Dev) : (fpCfgWrite p v d).br.pairs = d.br.pairs := by simp [fpCfgWrite]
@[simp] theorem pairs_fpCmdWrite (p v) (d : Dev) : (fpCmdWrite p v d).br.pairs = d.br.pairs := by simp [fpCmdWrite]
@[simp] theorem pairs_hdCfgWrite (h v) (d : Dev) : (hdCfgWrite h v d).br.pairs = d.br.pairs := by simp [hdCfgWrite]
theorem pairs_paramQueue {r} {d e : Dev} (h : paramQueue r d = some e) : e.br.pairs = d.br.pairs := by
  unfold paramQueue at h; dsimp only at h
  split at h
  · simp [← Option.some.inj h]
  · cases h

/-! ### Bus Write -/

@[simp] theorem pairs_pokeGb (o v) (d : Dev) : (pokeGb o v d).br.pairs = d.br.pairs := by
  unfold pokeGb; split <;> simp
@[simp] theorem pairs_pokeTb (src a o v) (d : Dev) : (pokeTb src a o v d).br.pairs = d.br.pairs := by
  unfold pokeTb; split <;> simp
@[simp] theorem pairs_pokeSc (o v) (d : Dev) : (pokeSc o v d).br.pairs = d.br.pairs := by
  unfold pokeSc
  repeat' split
  all_goals simp
@[simp] theorem pairs_pokeFm (src a o v) (d : Dev) : (pokeFm src a o v d).br.pairs = d.br.pairs := by
  unfold pokeFm; split <;> simp
@[simp] theorem pairs_glCfgWrite (v) (d : Dev) : (glCfgWrite v d).br.pairs = d.br.pairs := by simp [glCfgWrite]
@[simp] theorem pairs_pokeGl (o v) (d : Dev) : (pokeGl o v d).br.pairs = d.br.pairs := by
  unfold pokeGl; split <;> simp
@[simp] theorem pairs_mailboxGo (p v) (d : Dev) : (mailboxGo p v d).br.pairs = d.br.pairs := by simp [mailboxGo]
@[simp] theorem pairs_pokeHi (p o v) (d : Dev) : (pokeHi p o v d).br.pairs = d.br.pairs := by simp [pokeHi]
@[simp] theorem pairs_pokeIc (o v) (d : Dev) : (pokeIc o v d).br.pairs = d.br.pairs := by simp [pokeIc]
@[simp] theorem pairs_pokeCs (n o v) (d : Dev) : (pokeCs n o v d).br.pairs = d.br.pairs := by
  unfold pokeCs; split <;> simp
@[simp] theorem pairs_pokeTi (i o v) (d : Dev) : (pokeTi i o v d).br.pairs = d.br.pairs := by
  unfold pokeTi; split <;> simp
@[simp] theorem pairs_pokeNe (e o v) (d : Dev) : (pokeNe e o v d).br.pairs = d.br.pairs := by
  unfold pokeNe; split <;> simp
@[simp] theorem pairs_pokeEm (m o v) (d : Dev) : (pokeEm m o v d).br.pairs = d.br.pairs := by
  unfold pokeEm; split <;> simp
@[simp] theorem pairs_pokeFp (p o v) (d : Dev) : (pokeFp p o v d).br.pairs = d.br.pairs := by
  unfold pokeFp; split <;> simp
@[simp] theorem pairs_pokeCp (k o v) (d : Dev) : (pokeCp k o v d).br.pairs = d.br.pairs := by
  unfold pokeCp; split <;> simp
@[simp] theorem pairs_pokeHd (h o v) (d : Dev) : (pokeHd h o v d).br.pairs = d.br.pairs := by
  unfold pokeHd; split <;> simp
@[simp] theorem pairs_pokeAx (a o v) (d : Dev) : (pokeAx a o v d).br.pairs = d.br.pairs := by
  unfold pokeAx; split <;> simp
@[simp] theorem pairs_pokeDec (n o v) (d : Dev) : (pokeDec n o v d).br.pairs = d.br.pairs := by
  unfold pokeDec; split <;> simp
@[simp] theorem pairs_chCmdWrite (n v) (d : Dev) : (chCmdWrite n v d).br.pairs = d.br.pairs := by simp [chCmdWrite]
@[simp] theorem pairs_capsWrite (n v) (d : Dev) : (capsWrite n v d).br.pairs = d.br.pairs := by simp [capsWrite]
@[simp] theorem pairs_pokeCh (n o v) (d : Dev) : (pokeCh n o v d).br.pairs = d.br.pairs := by
  unfold pokeCh; split <;> simp

/-! ### Bus -/

@[simp] theorem pairs_hsFlag (p b) (d : Dev) : (hsFlag p b d).br.pairs = d.br.pairs := by simp [hsFlag]
@[simp] theorem pairs_markTorn (t p a) (d : Dev) : (markTorn t p a d).br.pairs = d.br.pairs := by
  unfold markTorn; split <;> simp
@[simp] theorem pairs_readEffect (a) (d : Dev) : (readEffect a d).br.pairs = d.br.pairs := by
  unfold readEffect; split <;> simp
@[simp] theorem pairs_setLatch (p l) (d : Dev) : (setLatch p l d).br.pairs = d.br.pairs :=
  pairs_kept (sameBut_setLatch p l d) (by decide)
@[simp] theorem pairs_capsRead (p a) (c : Core) : (capsRead p a c).2.dev.br.pairs = c.dev.br.pairs := by simp [capsRead]
@[simp] theorem pairs_lowRead (p a l) (c : Core) : (lowRead p a l c).2.dev.br.pairs = c.dev.br.pairs := by simp [lowRead]
@[simp] theorem pairs_highRead (p a) (c : Core) : (highRead p a c).2.dev.br.pairs = c.dev.br.pairs := by
  unfold highRead
  split
  · simp
  · dsimp only [mapDev_dev]
    split <;> simp
@[simp] theorem pairs_fabricRead (p a) (c : Core) : (fabricRead p a c).2.dev.br.pairs = c.dev.br.pairs := by
  unfold fabricRead; dsimp only
  repeat' split
  all_goals simp
@[simp] theorem pairs_lowWrite (p a v) (d : Dev) : (lowWrite p a v d).br.pairs = d.br.pairs := by simp [lowWrite]
@[simp] theorem pairs_commitWide (a lo v) (d : Dev) : (commitWide a lo v d).br.pairs = d.br.pairs := by
  unfold commitWide; split <;> simp
@[simp] theorem pairs_highWrite (p a v) (c : Core) : (highWrite p a v c).dev.br.pairs = c.dev.br.pairs := by
  unfold highWrite; split <;> simp
@[simp] theorem pairs_putData (p v) (d : Dev) : (putData p v d).br.pairs = d.br.pairs :=
  pairs_kept (sameBut_putData p v d) (by decide)
@[simp] theorem pairs_dropWrite (p) (d : Dev) : (dropWrite p d).br.pairs = d.br.pairs := by simp [dropWrite]
@[simp] theorem pairs_busRead (p a) (c : Core) : (busRead p a c).dev.br.pairs = c.dev.br.pairs := by simp [busRead]
@[simp] theorem pairs_windowRead (p a) (c : Core) : (windowRead p a c).dev.br.pairs = c.dev.br.pairs := by
  unfold windowRead; dsimp only
  repeat' split
  all_goals simp

/-! ### Host Port -/

@[simp] theorem pairs_hsStatWrite (p v) (d : Dev) : (hsStatWrite p v d).br.pairs = d.br.pairs := by simp [hsStatWrite]
@[simp] theorem pairs_badAccess (p) (d : Dev) : (badAccess p d).br.pairs = d.br.pairs := by simp [badAccess]
@[simp] theorem pairs_sendMessage (m) (d : Dev) : (sendMessage m d).br.pairs = d.br.pairs := by simp [sendMessage]
@[simp] theorem pairs_vectorMessage (v) (d : Dev) : (vectorMessage v d).br.pairs = d.br.pairs := by simp [vectorMessage]
@[simp] theorem pairs_msixUnmask (v) (d : Dev) : (msixUnmask v d).br.pairs = d.br.pairs := by simp [msixUnmask]
@[simp] theorem pairs_configWrite (o v) (d : Dev) : (configWrite o v d).br.pairs = d.br.pairs := by
  unfold configWrite; split <;> simp
@[simp] theorem pairs_tableWrite (o v) (d : Dev) : (tableWrite o v d).br.pairs = d.br.pairs := by simp [tableWrite]
@[simp] theorem pairs_qspiReadWord (first a) (c : Core) : (qspiReadWord first a c).dev.br.pairs = c.dev.br.pairs := by
  simp [qspiReadWord]
@[simp] theorem pairs_qspiBegin (c : Core) : (qspiBegin c).dev.br.pairs = c.dev.br.pairs := by simp [qspiBegin]
@[simp] theorem pairs_qspiRead (a n more) (c : Core) : (qspiRead a n more c).dev.br.pairs = c.dev.br.pairs := by simp [qspiRead]
@[simp] theorem pairs_readHostStatus (d : Dev) : (readHostStatus d).br.pairs = d.br.pairs := by simp [readHostStatus]
@[simp] theorem pairs_clearHostStatus (v) (d : Dev) : (clearHostStatus v d).br.pairs = d.br.pairs := by simp [clearHostStatus]
@[simp] theorem pairs_targetReset (d : Dev) : (targetReset d).br.pairs = d.br.pairs := by simp [targetReset]
@[simp] theorem pairs_unknownOpcode (d : Dev) : (unknownOpcode d).br.pairs = d.br.pairs := by simp [unknownOpcode]
@[simp] theorem pairs_csRise (crossed) (c : Core) : (csRise crossed c).dev.br.pairs = c.dev.br.pairs := by
  unfold csRise; dsimp only
  repeat' split
  all_goals simp
@[simp] theorem pairs_viaPort (p) (f : Core → Core) (c : Core) (h : (f c).dev.br.pairs = c.dev.br.pairs) :
    (viaPort p f c).dev.br.pairs = c.dev.br.pairs := by simp [viaPort, h]

/-! ### Period -/

@[simp] theorem pairs_settlePort (p) (d : Dev) : (settlePort p d).br.pairs = d.br.pairs := by
  unfold settlePort; split <;> simp
@[simp] theorem pairs_settlePorts (d : Dev) : (settlePorts d).br.pairs = d.br.pairs := by simp [settlePorts]
@[simp] theorem pairs_nextPeriodWrite (v) (d : Dev) : (nextPeriodWrite v d).2.br.pairs = d.br.pairs := by simp [nextPeriodWrite]
@[simp] theorem pairs_nextAnchorWrite (v) (d : Dev) : (nextAnchorWrite v d).2.br.pairs = d.br.pairs := by simp [nextAnchorWrite]

/-! ### Obj Base -/

@[simp] theorem pairs_noWrite (x0 x1) (x2 : Core) : (noWrite x0 x1 x2).2.dev.br.pairs = x2.dev.br.pairs := by simp [noWrite]

/-! ### Obj Chan -/

@[simp] theorem pairs_updAxCfg (a f) (d : Dev) : (updAxCfg a f d).br.pairs = d.br.pairs := by simp [updAxCfg]

/-! ### Obj Dev -/

@[simp] theorem pairs_updLk (f) (d : Dev) : (updLk f d).br.pairs = d.br.pairs := by simp [updLk]
@[simp] theorem pairs_updSo (f) (d : Dev) : (updSo f d).br.pairs = d.br.pairs := by simp [updSo]
@[simp] theorem pairs_updPtpObj (f) (d : Dev) : (updPtpObj f d).br.pairs = d.br.pairs := by simp [updPtpObj]
@[simp] theorem pairs_tickWrite (f : Dev → DictCode × Dev) (c : Core) :
    (tickWrite f c).2.dev.br.pairs = (f c.dev).2.br.pairs := by simp [tickWrite]
@[simp] theorem pairs_slugAnswerTo (w r) (c : Core) : (slugAnswerTo w r c).2.dev.br.pairs = r.2.br.pairs := by
  simp [slugAnswerTo]
@[simp] theorem pairs_slugInsert (w l) (c : Core) : (slugInsert w l c).2.dev.br.pairs = c.dev.br.pairs := by simp [slugInsert]
@[simp] theorem pairs_slugRemove (w v) (c : Core) : (slugRemove w v c).2.dev.br.pairs = c.dev.br.pairs := by simp [slugRemove]
@[simp] theorem pairs_customWrite (e l) (c : Core) : (customWrite e l c).2.dev.br.pairs = c.dev.br.pairs := by simp [customWrite]

/-! ### Dict -/

@[simp] theorem pairs_commitStart (c : Core) : (commitStart c).dev.br.pairs = c.dev.br.pairs := by simp [commitStart]
@[simp] theorem pairs_eraseStart (d : Dev) : (eraseStart d).br.pairs = d.br.pairs := by simp [eraseStart]
@[simp] theorem pairs_commitDone (ok) (d : Dev) : (commitDone ok d).br.pairs = d.br.pairs := by
  unfold commitDone
  repeat' split
  all_goals simp
@[simp] theorem pairs_captureEffect (w index sub) (d : Dev) : (captureEffect w index sub d).br.pairs = d.br.pairs := by
  unfold captureEffect; split <;> simp
@[simp] theorem pairs_dictReadEffect (w index sub) (c : Core) : (dictReadEffect w index sub c).dev.br.pairs = c.dev.br.pairs := by
  simp [dictReadEffect]
@[simp] theorem pairs_paramAccess (w svc h want k) (c : Core) :
    (paramAccess w svc h want k c).2.dev.br.pairs = c.dev.br.pairs := by
  unfold paramAccess
  split
  · exact pairs_paramQueue ‹_›
  · rfl
@[simp] theorem pairs_segmentOf (s ty offset count) (c : Core) : (segmentOf s ty offset count c).2.dev.br.pairs = c.dev.br.pairs := by
  simp [segmentOf]
@[simp] theorem pairs_setStage (w s) (c : Core) : (setStage w s c).dev.br.pairs = c.dev.br.pairs := by simp [setStage]
@[simp] theorem pairs_sessionRequest (m n tag body) (d : Dev) : (sessionRequest m n tag body d).br.pairs = d.br.pairs := by
  unfold sessionRequest; split <;> simp
@[simp] theorem pairs_sessionExpiry (n) (d : Dev) : (sessionExpiry n d).br.pairs = d.br.pairs := by simp [sessionExpiry]

/-! ### Boot -/

@[simp] theorem pairs_bootRefused (code e) (d : Dev) : (bootRefused code e d).br.pairs = d.br.pairs := by simp [bootRefused]
@[simp] theorem pairs_release (us warm) (d : Dev) : (release us warm d).br.pairs = d.br.pairs := by simp [release]

/-! ### Boundary -/

@[simp] theorem pairs_reachBoundary (d : Dev) : (reachBoundary d).br.pairs = d.br.pairs := by simp [reachBoundary]
@[simp] theorem pairs_raiseStrobe (d : Dev) : (raiseStrobe d).br.pairs = d.br.pairs := by simp [raiseStrobe]
@[simp] theorem pairs_takePeriod (d : Dev) : (takePeriod d).br.pairs = d.br.pairs := by simp [takePeriod]
@[simp] theorem pairs_takeGrid (tref p n) (d : Dev) : (takeGrid tref p n d).br.pairs = d.br.pairs := by simp [takeGrid]
@[simp] theorem pairs_adoptGrid (d : Dev) : (adoptGrid d).br.pairs = d.br.pairs := by
  unfold adoptGrid; split <;> simp
@[simp] theorem pairs_startCounters (d : Dev) : (startCounters d).br.pairs = d.br.pairs := by simp [startCounters]
@[simp] theorem pairs_strobeComps (d : Dev) : (strobeComps d).br.pairs = d.br.pairs := by simp [strobeComps]
@[simp] theorem pairs_remoteTick (a) (d : Dev) : (remoteTick a d).br.pairs = d.br.pairs := by
  unfold remoteTick; dsimp only
  repeat' split
  all_goals simp
@[simp] theorem pairs_afterHold (d : Dev) : (afterHold d).br.pairs = d.br.pairs := by simp [afterHold]
@[simp] theorem pairs_boundaryPower (d : Dev) : (boundaryPower d).br.pairs = d.br.pairs := by simp [boundaryPower]
@[simp] theorem pairs_tickBoundary (d : Dev) : (tickBoundary d).br.pairs = d.br.pairs := by simp [tickBoundary]
@[simp] theorem pairs_workAxes (l) (d : Dev) : (workAxes l d).br.pairs = d.br.pairs := by simp [workAxes]
@[simp] theorem pairs_tickWork (e) (d : Dev) : (tickWork e d).br.pairs = d.br.pairs := by simp [tickWork]

/-! ### Channel Bus -/

@[simp] theorem pairs_chopRead (a) (c : Core) : (chopRead a c).2.dev.br.pairs = c.dev.br.pairs := by simp [chopRead]
@[simp] theorem pairs_chopDecoder (n k) (c : Core) : (chopDecoder n k c).2.dev.br.pairs = c.dev.br.pairs := by simp [chopDecoder]
@[simp] theorem pairs_chopModel (a b) (c : Core) : (chopModel a b c).2.dev.br.pairs = c.dev.br.pairs := by simp [chopModel]
@[simp] theorem pairs_chopSegment (a b) (c : Core) : (chopSegment a b c).2.dev.br.pairs = c.dev.br.pairs := by simp [chopSegment]
@[simp] theorem pairs_chopChannel (n) (c : Core) : (chopChannel n c).2.dev.br.pairs = c.dev.br.pairs := by simp [chopChannel]
@[simp] theorem pairs_chopChain (n b) (c : Core) : (chopChain n b c).2.dev.br.pairs = c.dev.br.pairs := by simp [chopChain]
@[simp] theorem pairs_chopArm (b) (c : Core) : (chopArm b c).2.dev.br.pairs = c.dev.br.pairs := by simp [chopArm]
@[simp] theorem pairs_chopEntry (n ent f) (c : Core) : (chopEntry n ent f c).2.dev.br.pairs = c.dev.br.pairs := by
  unfold chopEntry; split <;> simp
@[simp] theorem pairs_chopComp (k sel v) (c : Core) : (chopComp k sel v c).2.dev.br.pairs = c.dev.br.pairs := by
  unfold chopComp; split <;> simp
@[simp] theorem pairs_chopDeliver (o put r) : (chopDeliver o put r).dev.br.pairs = r.2.dev.br.pairs := by
  simp [chopDeliver]

/-! ### Memory -/

@[simp] theorem pairs_correctableError (r w) (d : Dev) : (correctableError r w d).br.pairs = d.br.pairs := by simp [correctableError]
@[simp] theorem pairs_retireStorage (sid) (d : Dev) : (retireStorage sid d).br.pairs = d.br.pairs := by
  unfold retireStorage; split <;> simp
@[simp] theorem pairs_storeFault (e c allBad) (d : Dev) : (storeFault e c allBad d).br.pairs = d.br.pairs := by simp [storeFault]
@[simp] theorem pairs_traceLost (w) (d : Dev) : (traceLost w d).br.pairs = d.br.pairs := by simp [traceLost]
@[simp] theorem pairs_entryLost (n) (d : Dev) : (entryLost n d).br.pairs = d.br.pairs := by
  unfold entryLost; split <;> simp
@[simp] theorem pairs_bufferLost (r) (d : Dev) : (bufferLost r d).br.pairs = d.br.pairs := by
  unfold bufferLost
  repeat' split
  all_goals simp

/-! ### Exec -/

@[simp] theorem pairs_tripBall (i lvl) (d : Dev) : (tripBall i lvl d).br.pairs = d.br.pairs := by simp [tripBall]
@[simp] theorem pairs_ballTransition (p lvl g) (d : Dev) : (ballTransition p lvl g d).br.pairs = d.br.pairs := by simp [ballTransition]
@[simp] theorem pairs_ballLevel (p lvl) (d : Dev) : (ballLevel p lvl d).br.pairs = d.br.pairs := by simp [ballLevel]
@[simp] theorem pairs_linkLevel (m up) (d : Dev) : (linkLevel m up d).br.pairs = d.br.pairs := by simp [linkLevel]

/-! ### Tick -/

@[simp] theorem pairs_endsReached (d : Dev) : (endsReached d).br.pairs = d.br.pairs := by simp [endsReached]
@[simp] theorem pairs_endTracks (d : Dev) : (endTracks d).br.pairs = d.br.pairs := by simp [endTracks]

end Sys2Proof.Proofs
end

section
/-! SUPPORT. The interlock of a pair (R195, R203) and the operations that act on one: what turns a side on finds the other side off, a
trip turns both off, and everything else turns a side off or leaves both; then the ports and the channel bus, which reach the registers of
a pair, and the resets, which switch every pair off. -/

namespace Sys2Proof.Proofs

open Sys2Proof Sys2Proof.Machine Sys2Proof.Laws

/-- The interlock of one pair: not both sides on, and none while it is tripped. -/
def SidesSafe (x : Pair) : Prop :=
  ¬(x.high.on = true ∧ x.low.on = true) ∧ (x.state = .tripped → x.high.on = false ∧ x.low.on = false)

/-- The interlock of every pair that a bank holds. -/
structure PairsSafe (b : Bank Pair) : Prop where
  sides : ∀ n, SidesSafe (Bank.get {} b n)

theorem interlocked_iff (s : State) : Interlocked s ↔ PairsSafe s.core.dev.br.pairs := ⟨fun h => ⟨h⟩, fun h => h.sides⟩

theorem sidesSafe_default : SidesSafe {} := ⟨by simp, fun _ => ⟨rfl, rfl⟩⟩
theorem pairsSafe_nil : PairsSafe [] := ⟨fun _ => sidesSafe_default⟩

theorem sidesSafe_of_high_off {x : Pair} (hh : x.high.on = false) (hs : x.state ≠ .tripped) : SidesSafe x :=
  ⟨by simp [hh], fun ht => absurd ht hs⟩
theorem sidesSafe_of_low_off {x : Pair} (hl : x.low.on = false) (hs : x.state ≠ .tripped) : SidesSafe x :=
  ⟨by simp [hl], fun ht => absurd ht hs⟩
theorem sidesSafe_of_off {x : Pair} (hh : x.high.on = false) (hl : x.low.on = false) : SidesSafe x :=
  ⟨by simp [hh], fun _ => ⟨hh, hl⟩⟩

/-! ### Composition -/

/-- A change of one pair keeps the interlock of all when it keeps that pair's. -/
theorem safe_updPair {d : Dev} {p : Nat} {f : Pair → Pair} (h : PairsSafe d.br.pairs)
    (hf : SidesSafe (d.pair p) → SidesSafe (f (d.pair p))) : PairsSafe (d.updPair p f).br.pairs := by
  refine ⟨fun n => ?_⟩
  change SidesSafe ((d.updPair p f).pair n)
  by_cases hn : n = p
  · subst hn
    rw [updPair_same]
    exact hf (h.sides n)
  · rw [updPair_other _ _ _ _ hn]
    exact h.sides n

theorem safe_of_same {b b' : Bank Pair} (hb : b' = b) (h : PairsSafe b) : PairsSafe b' := hb ▸ h

theorem safe_forEach {α : Type} {f : α → Dev → Dev} (hf : ∀ a d, PairsSafe d.br.pairs → PairsSafe (f a d).br.pairs)
    (l : List α) {d : Dev} (h : PairsSafe d.br.pairs) : PairsSafe (forEach l f d).br.pairs := by
  unfold forEach
  induction l generalizing d with
  | nil => exact h
  | cons a l ih => exact ih (hf a d h)

theorem safe_ite {p : Prop} [Decidable p] {d e : Dev} (hd : p → PairsSafe d.br.pairs) (he : ¬p → PairsSafe e.br.pairs) :
    PairsSafe (if p then d else e).br.pairs := by
  split
  · exact hd ‹_›
  · exact he ‹_›

theorem safe_ite_core {p : Prop} [Decidable p] {a b : Core} (ha : p → PairsSafe a.dev.br.pairs) (hb : ¬p → PairsSafe b.dev.br.pairs) :
    PairsSafe (if p then a else b).dev.br.pairs := by
  split
  · exact ha ‹_›
  · exact hb ‹_›

theorem safe_foldl {α : Type} {f : Core → α → Core} (hf : ∀ c a, PairsSafe c.dev.br.pairs → PairsSafe (f c a).dev.br.pairs)
    (l : List α) {c : Core} (h : PairsSafe c.dev.br.pairs) : PairsSafe (l.foldl f c).dev.br.pairs := by
  induction l generalizing c with
  | nil => exact h
  | cons a l ih => exact ih (hf c a h)

/-! ### Sides and flags (R195–R198) -/

section
variable {d : Dev} (h : PairsSafe d.br.pairs)
include h

theorem safe_bpFlag (p b : Nat) : PairsSafe (bpFlag p b d).br.pairs := by
  rw [bpFlag, pairs_memberEvent]
  exact safe_updPair h id

/-- A side that turns off cannot break the interlock. -/
theorem safe_turnOff (p : Nat) (high : Bool) (t : Nat) : PairsSafe (turnOff p high t d).br.pairs := by
  rw [turnOff, pairs_openBlanking]
  refine safe_updPair h fun ⟨hboth, htrip⟩ => ?_
  cases high
  · exact ⟨by simp, fun ht => ⟨(htrip ht).1, rfl⟩⟩
  · exact ⟨by simp, fun ht => ⟨rfl, (htrip ht).2⟩⟩

omit h in
/-- R195: a side that may turn on finds its pair in RUN and the other side off. -/
theorem mayTurnOn_high {x : Pair} {t : Nat} (hm : mayTurnOn x true t = true) : x.state = .run ∧ x.low.on = false := by
  simp only [mayTurnOn, Bool.and_eq_true, beq_iff_eq, if_true, Bool.not_eq_true'] at hm
  exact ⟨hm.1, hm.2.1.2⟩
omit h in
theorem mayTurnOn_low {x : Pair} {t : Nat} (hm : mayTurnOn x false t = true) : x.state = .run ∧ x.high.on = false := by
  simp only [mayTurnOn, Bool.and_eq_true, beq_iff_eq, Bool.not_eq_true', Bool.false_eq_true, if_false] at hm
  exact ⟨hm.1, hm.2.1.2⟩

theorem safe_sideTurnOn (p : Nat) (high : Bool) (t : Nat) : PairsSafe (sideTurnOn p high t d).br.pairs := by
  unfold sideTurnOn
  split
  next hm =>
    rw [turnOn, pairs_openBlanking]
    refine safe_updPair h fun _ => ?_
    cases high
    · obtain ⟨hrun, hoff⟩ := mayTurnOn_low hm
      exact sidesSafe_of_high_off hoff (by simp [hrun])
    · obtain ⟨hrun, hoff⟩ := mayTurnOn_high hm
      exact sidesSafe_of_low_off hoff (by simp [hrun])
  next => exact h

theorem safe_sideTurnOff (p : Nat) (high : Bool) (t : Nat) : PairsSafe (sideTurnOff p high t d).br.pairs :=
  safe_ite (fun _ => safe_ite (fun _ => safe_bpFlag (safe_turnOff h p high t) p 10) fun _ => safe_turnOff h p high t) fun _ => h

/-! ### Filters, commands and refresh (R190, R193, R198) -/

theorem safe_countFilt (p : Nat) : PairsSafe (countFilt p d).br.pairs := safe_bpFlag (safe_updPair h id) p 8

theorem safe_countEaten (p : Nat) : PairsSafe (countEaten p d).br.pairs := safe_bpFlag (safe_updPair h id) p 9

theorem safe_minPulseFilter (p : Nat) (high : Bool) (t : Nat) : PairsSafe (minPulseFilter p high t d).br.pairs := by
  refine safe_ite (fun _ => ?_) fun _ => h
  have h1 : PairsSafe (d.updPair p fun x =>
      if high then { x with fhigh := { x.fhigh with qf := x.fhigh.q, qfAt := t } }
      else { x with flow := { x.flow with qf := x.flow.q, qfAt := t } }).br.pairs :=
    safe_updPair h (by cases high <;> exact id)
  have h2 := fun c : Bool => safe_ite (p := c = true) (fun _ => safe_countEaten h1 p) fun _ => h1
  exact safe_ite (fun _ => safe_bpFlag (safe_updPair (h2 _) id) p 13) fun _ => h2 _

theorem safe_takeCommand (p : Nat) (high : Bool) : PairsSafe (takeCommand p high d).br.pairs := by
  have h1 : PairsSafe (d.updPair p fun x =>
      if high then { x with fhigh := { x.fhigh with
        q := (d.chOut (if high then 2 * p else 2 * p + 1)).lvl, qAt := (d.chOut (if high then 2 * p else 2 * p + 1)).lvlAt } }
      else { x with flow := { x.flow with
        q :=
          (d.chOut (if high then 2 * p else 2 * p + 1)).lvl, qAt := (d.chOut (if high then 2 * p else 2 * p + 1)).lvlAt } }).br.pairs :=
    safe_updPair h (by cases high <;> exact id)
  exact safe_ite (fun _ => safe_countFilt h1 p) fun _ => h1

theorem safe_refreshStart (p t : Nat) : PairsSafe (refreshStart p t d).br.pairs :=
  safe_ite (fun _ => safe_bpFlag (safe_updPair (safe_turnOff h p true t) id) p 11) fun _ => h

theorem safe_refreshEnd (p t : Nat) : PairsSafe (refreshEnd p t d).br.pairs := by
  have h1 : PairsSafe (d.updPair p fun x => { x with refresh := none }).br.pairs := safe_updPair h id
  unfold refreshEnd; dsimp only
  split
  · exact safe_ite (fun _ => safe_ite (fun _ => safe_turnOff h1 p false t) fun _ => h1) fun _ => h
  · exact h

/-! ### Enable, disable, trip and resume (R199–R205) -/

theorem safe_pairEnable (p : Nat) : PairsSafe (pairEnable p d).br.pairs :=
  safe_ite (fun _ => h) fun _ => safe_ite (fun _ => safe_bpFlag h p 14) fun _ => safe_updPair h id

theorem safe_pairDisable (p : Nat) : PairsSafe (pairDisable p d).br.pairs := safe_updPair h id

theorem safe_pairResume (p : Nat) : PairsSafe (pairResume p d).br.pairs :=
  safe_ite (fun _ => safe_bpFlag h p 14) fun _ => safe_ite (fun _ => safe_updPair h id) fun _ => h

/-- A pair enters RUN with both sides off. -/
theorem safe_enterRun (p : Nat) : PairsSafe (enterRun p d).br.pairs := by
  rw [enterRun, pairs_withOwner]
  exact safe_updPair h fun _ => sidesSafe_of_off rfl rfl

/-- R203: a trip turns both sides off. -/
theorem safe_tripPair (p : Nat) : PairsSafe (tripPair p d).br.pairs := by
  refine safe_ite (fun _ => h) fun _ => ?_
  rw [pairs_markPair]
  have h1 := safe_bpFlag (safe_updPair (p := p) (f := fun x => { x with
      state := .tripped, tripc := incSat x.tripc, refresh := none
      high := if x.high.on then ⟨false, x.high.onAt, d.localNow, deadFall d x⟩ else x.high
      low := if x.low.on then ⟨false, x.low.onAt, d.localNow, deadRise d x⟩ else x.low }) h
    fun _ => sidesSafe_of_off (by grind) (by grind)) p 12
  exact safe_ite (fun _ => safe_of_same (pairs_openBlanking p _) h1) fun _ => h1

theorem safe_enterStopping (p : Nat) : PairsSafe (enterStopping p d).br.pairs := by
  refine safe_ite (fun _ => ?_) fun _ => h
  rw [pairs_markPair]
  exact safe_updPair h fun ⟨hboth, _⟩ => ⟨hboth, nofun⟩

theorem safe_stoppingDone (p : Nat) : PairsSafe (stoppingDone p d).br.pairs := by
  refine safe_ite (fun _ => ?_) fun _ => h
  rw [pairs_withOwner, pairs_markPair]
  exact safe_updPair h fun ⟨hboth, _⟩ => ⟨hboth, nofun⟩

theorem safe_openPair (p : Nat) : PairsSafe (openPair p d).br.pairs := by
  unfold openPair; dsimp only
  have h1 : PairsSafe (d.updPair p fun x => { x with
      dtrNow := x.dtr, dtfNow := x.dtf, enableDue := false, resumeDue := false, stopDue := false }).br.pairs := safe_updPair h id
  have h2 := safe_ite (p := (d.pair p).enableDue = true) (fun _ => safe_of_same (pairs_markPair p _) (safe_enterRun h1 p)) fun _ =>
    safe_ite (p := (d.pair p).resumeDue = true)
      (fun _ => safe_of_same (pairs_markPair p _)
        (safe_updPair (p := p) (f := fun x => { x with state := .run }) h1 fun ⟨hboth, _⟩ => ⟨hboth, nofun⟩))
      fun _ => h1
  have h3 := fun c : Bool => safe_ite (p := c = true) (fun _ => safe_tripPair h2 p) fun _ => h2
  exact safe_ite (fun _ => safe_enterStopping (h3 _) p) fun _ => h3 _

theorem safe_openBridge : PairsSafe (openBridge d).br.pairs := by
  unfold openBridge
  simp only [pairs_forEach, pairs_openTrip, implies_true]
  exact safe_forEach (fun p _ h => safe_openPair h p) _ h

/-! ### Registers of a pair (R196, R200) -/

theorem safe_bpCtlWrite (p : Nat) (v : W32) : PairsSafe (bpCtlWrite p v d).br.pairs :=
  safe_ite (fun _ => safe_ite (fun _ => safe_bpFlag h p 15) fun _ => h) fun _ => safe_updPair h id

theorem safe_pokeBp (src a p o : Nat) (v : W32) : PairsSafe (pokeBp src a p o v d).br.pairs := by
  unfold pokeBp
  split
  · exact safe_bpCtlWrite (safe_ite (fun _ => safe_of_same (pairs_rwkReject ..) h) fun _ => h) p v
  iterate 5 exact safe_updPair h id
  · exact safe_ite (fun _ => safe_pairDisable h p) fun _ => h
  iterate 3 exact safe_updPair h id
  · exact h

/-- A write of any register: only those of a pair reach the pairs. -/
theorem safe_regPoke (p a : Nat) (v : W32) : PairsSafe (regPoke p a v d).br.pairs := by
  unfold regPoke; dsimp only
  split
  · exact h
  next b _ _ _ =>
    cases b with
    | bp => exact safe_pokeBp h ..
    | _ => exact safe_of_same (by simp) h
end

/-! ### The ports' writes (R324, R416, R419) -/

section
variable {c : Core} (h : PairsSafe c.dev.br.pairs)
include h

theorem safe_mapDev {f : Dev → Dev} (hf : ∀ d, (f d).br.pairs = d.br.pairs) : PairsSafe (c.mapDev f).dev.br.pairs :=
  safe_of_same (hf _) h

theorem safe_fabricWrite (p a : Nat) (v : W32) : PairsSafe (fabricWrite p a v c).dev.br.pairs :=
  safe_ite_core (fun _ => safe_of_same (by simp) h) fun _ =>
    safe_ite_core (fun _ => safe_of_same (by simp) h) fun _ => safe_regPoke h ..

theorem safe_busWrite (p a : Nat) (v : W32) : PairsSafe (busWrite p a v c).dev.br.pairs :=
  safe_ite_core (fun _ => safe_of_same (by simp) h) fun _ => safe_fabricWrite h ..

theorem safe_viaPort (p : Nat) {f : Core → Core} (hf : PairsSafe (f c).dev.br.pairs) : PairsSafe (viaPort p f c).dev.br.pairs :=
  safe_ite_core (fun _ => h) fun _ => hf

theorem safe_registerWrite (p a : Nat) (v : W32) : PairsSafe (registerWrite p a v c).dev.br.pairs :=
  safe_ite_core (fun _ => safe_of_same (by simp) h) fun _ =>
    safe_ite_core (fun _ => safe_of_same (by simp) h) fun _ => safe_viaPort h p (safe_busWrite h p a v)

theorem safe_qspiWriteWord (first a : Nat) (v : W32) : PairsSafe (qspiWriteWord first a v c).dev.br.pairs :=
  safe_ite_core (fun _ => safe_ite_core (fun _ => safe_busWrite h ..) fun _ => h) fun _ => safe_of_same (by simp) h

theorem safe_qspiWords (first a : Nat) (l : List W32) : PairsSafe (qspiWords first a l c).dev.br.pairs := by
  induction l generalizing a c with
  | nil => exact h
  | cons v l ih => exact ih (safe_qspiWriteWord h first a v) (a + 4)

theorem safe_qspiWrite (a : Nat) (l : List W32) (more : Option W32) : PairsSafe (qspiWrite a l more c).dev.br.pairs := by
  refine safe_ite_core (fun _ => h) fun _ => ?_
  have h1 : PairsSafe (qspiWords a a l (qspiBegin c)).dev.br.pairs := safe_qspiWords (safe_of_same (by simp) h) ..
  split <;> exact h1

/-! ### The channel bus (R264–R266) -/

theorem safe_chop (o : ChanOp) : PairsSafe (chop o c).2.dev.br.pairs := by
  unfold chop; dsimp only
  split
  case h_2 => exact safe_fabricWrite h ..
  case h_4 => exact safe_fabricWrite h ..
  case h_15 =>
    unfold chopGreg; dsimp only
    split
    · exact safe_fabricWrite h ..
    · exact safe_of_same (by simp) h
  all_goals exact safe_of_same (by simp) h

theorem safe_chopRow (op e k target : Nat) (imm2 : W32) (v : W64) (blk : Nat) :
    PairsSafe (chopRow op e k target imm2 v blk c).dev.br.pairs :=
  safe_ite_core (fun _ => safe_of_same (pairs_chopDeliver ..) (safe_chop h _)) fun _ => safe_of_same (by simp) h

theorem safe_channelGrant (q : Nat) : PairsSafe (channelGrant q c).dev.br.pairs := by
  unfold channelGrant; dsimp only
  split
  · exact h
  · split
    · exact h
    · rw [pairs_chopDeliver]
      exact safe_chop (safe_of_same (by simp) h) _

/-! ### Resets (R320, R460) -/

omit h in
theorem safe_coreReset (cause : ResetCause) (c : Core) : PairsSafe (coreReset cause c).dev.br.pairs := pairsSafe_nil

theorem safe_wakeN (n : Nat) : PairsSafe (wakeN n c).dev.br.pairs := by
  unfold wakeN; dsimp only
  split
  · exact safe_ite (fun _ => h) fun _ => safe_of_same (by simp) h
  · exact safe_ite_core (fun _ => h) fun _ => safe_coreReset ..
  · exact safe_ite_core (fun _ => safe_of_same (by simp) h) fun _ => h

theorem safe_sysRstN (low : Bool) : PairsSafe (sysRstN low c).dev.br.pairs :=
  safe_ite_core (fun _ => safe_of_same (pairs_heldDeep ..) (safe_coreReset ..)) fun _ => h

omit h in
theorem safe_supplyFault (c : Core) : PairsSafe (supplyFault c).dev.br.pairs := safe_of_same (pairs_heldDeep ..) (safe_coreReset ..)

theorem safe_warmRestart : PairsSafe (warmRestart c).dev.br.pairs := by
  unfold warmRestart
  split
  · exact h
  · exact safe_ite_core (fun _ => h) fun _ => pairsSafe_nil
end

end Sys2Proof.Proofs
end

section
/-! SUPPORT. The interlock and the objects of the dictionary: a write of any of them keeps it, whether it acts on a pair or not. -/

namespace Sys2Proof.Proofs

open Sys2Proof Sys2Proof.Machine Sys2Proof.Laws

/-! ### Objects of the dictionary (R377–R379) -/

@[simp] theorem pairsSafe_ite {p : Prop} [Decidable p] (b b' : Bank Pair) :
    PairsSafe (if p then b else b') ↔ (p → PairsSafe b) ∧ (¬p → PairsSafe b') := by
  split <;> simp [*]

/-- A write of the object keeps the interlock of the pairs. -/
structure KeepsPairs (o : Obj) : Prop where
  wr : ∀ w l c, PairsSafe c.dev.br.pairs → PairsSafe (o.wr w l c).2.dev.br.pairs

/-- So does every object that a subindex may name. -/
structure AllKeep (x : Option Obj) : Prop where
  each : ∀ o, x = some o → KeepsPairs o

@[simp] theorem allKeep_none : AllKeep none := ⟨nofun⟩
@[simp] theorem allKeep_some (o : Obj) : AllKeep (some o) ↔ KeepsPairs o := ⟨fun h => h.each o rfl, fun h => ⟨by rintro _ ⟨⟩; exact h⟩⟩
@[simp] theorem allKeep_ite {p : Prop} [Decidable p] (x y : Option Obj) :
    AllKeep (if p then x else y) ↔ (p → AllKeep x) ∧ (¬p → AllKeep y) := by
  split <;> simp [*]

theorem allKeep_of_ite {p : Prop} [Decidable p] {x y : Option Obj} (hx : AllKeep x) (hy : AllKeep y) :
    AllKeep (if p then x else y) := (allKeep_ite x y).mpr ⟨fun _ => hx, fun _ => hy⟩

@[simp] theorem keeps_mk (ty acc persist limit rd) (wr : DictWho → List Byte → Core → DictCode × Core) :
    KeepsPairs ⟨ty, acc, persist, limit, rd, wr⟩ ↔ ∀ w l c, PairsSafe c.dev.br.pairs → PairsSafe (wr w l c).2.dev.br.pairs :=
  ⟨fun h => h.wr, fun h => ⟨h⟩⟩
@[simp] theorem keeps_roNat (ty f) : KeepsPairs (roNat ty f) := ⟨fun _ _ _ h => h⟩
@[simp] theorem keeps_constNat (ty n) : KeepsPairs (constNat ty n) := ⟨fun _ _ _ h => h⟩
@[simp] theorem keeps_roBytes (limit f) : KeepsPairs (roBytes limit f) := ⟨fun _ _ _ h => h⟩
@[simp] theorem keeps_roField (ty a lo len) : KeepsPairs (roField ty a lo len) := ⟨fun _ _ _ h => h⟩
@[simp] theorem keeps_roWide (ty a) : KeepsPairs (roWide ty a) := ⟨fun _ _ _ h => h⟩
@[simp] theorem keeps_volatile (o : Obj) (h : KeepsPairs o) : KeepsPairs o.volatile := ⟨h.wr⟩

section
variable {g : Nat → Core → DictCode × Core} (h : ∀ v c, PairsSafe c.dev.br.pairs → PairsSafe (g v c).2.dev.br.pairs)
include h

@[simp] theorem keeps_woNat (ty) : KeepsPairs (woNat ty g) := ⟨fun _ _ _ hc => h _ _ hc⟩
@[simp] theorem keeps_rwNat (ty f) : KeepsPairs (rwNat ty f g) := ⟨fun _ _ _ hc => h _ _ hc⟩
@[simp] theorem keeps_rwkNat (ty persist f) : KeepsPairs (rwkNat ty persist f g) := ⟨fun _ _ _ hc => h _ _ hc⟩
end

@[simp] theorem keeps_rwBytes (limit f) (g : List Byte → Core → DictCode × Core)
    (h : ∀ l c, PairsSafe c.dev.br.pairs → PairsSafe (g l c).2.dev.br.pairs) : KeepsPairs (rwBytes limit f g) :=
  ⟨fun _ _ _ hc => h _ _ hc⟩
@[simp] theorem keeps_countObj (ty f) (clear : Dev → Dev) (h : ∀ d, (clear d).br.pairs = d.br.pairs) :
    KeepsPairs (countObj ty f clear) := keeps_volatile _ (keeps_rwNat (by simp [h]) ..)
@[simp] theorem keeps_rangeObj (ty f lo hi) (g : Nat → Dev → Dev) (h : ∀ v d, (g v d).br.pairs = d.br.pairs) :
    KeepsPairs (rangeObj ty f lo hi g) := keeps_rwNat (by simp [h]) ..
@[simp] theorem keeps_srangeObj (ty bits f lo hi) (g : Int → Dev → Dev) (h : ∀ v d, (g v d).br.pairs = d.br.pairs) :
    KeepsPairs (srangeObj ty bits f lo hi g) := keeps_rwNat (by simp [h]) ..

@[simp] theorem safe_regSet (a lo len mask v) (c : Core) (h : PairsSafe c.dev.br.pairs) :
    PairsSafe (regSet a lo len mask v c).2.dev.br.pairs := by
  have h1 : PairsSafe (c.mapDev (regPoke 16 a (setFld (reg c a) lo len v))).dev.br.pairs := safe_regPoke h ..
  unfold regSet; dsimp only
  split
  · exact h1
  · exact safe_ite_core (fun _ => h1) fun _ => h

@[simp] theorem keeps_fieldObj (ty a lo len off mn mx) : KeepsPairs (fieldObj ty a lo len off mn mx) := by
  refine keeps_rwNat (fun v c h => ?_) ..
  have h1 := fun v => safe_regSet a lo len (2 ^ len - 1) v c h
  split
  · split
    · exact h
    · exact safe_ite_core (fun _ => h) fun _ => h1 _
  · exact h1 _
@[simp] theorem keeps_wordObj (a mask) : KeepsPairs (wordObj a mask) := keeps_rwNat (fun _ c h => safe_regSet _ _ _ _ _ c h) ..
@[simp] theorem keeps_bitObj (a b) : KeepsPairs (bitObj a b) := keeps_fieldObj ..

/-- A flag put aside and put back around an act that leaves the pairs alone. -/
@[simp] theorem pairs_flagged (get) (put : W32 → Dev → Dev) (mask) (act : Dev → Dev) (c : Core)
    (hp : ∀ w d, (put w d).br.pairs = d.br.pairs) (ha : ∀ d, (act d).br.pairs = d.br.pairs) :
    (flagged get put mask act c).2.dev.br.pairs = c.dev.br.pairs := by
  simp [flagged, hp, ha]

theorem safe_flagged_pair (p : Nat) (get mask) (act : Dev → Dev) (c : Core) (h : PairsSafe c.dev.br.pairs)
    (ha : ∀ d : Dev, PairsSafe d.br.pairs → PairsSafe (act d).br.pairs) :
    PairsSafe (flagged get (fun w d => d.updPair p fun x => { x with stat := w }) mask act c).2.dev.br.pairs :=
  safe_updPair (ha _ (safe_updPair h id)) id

@[simp] theorem keeps_pairEnableObj (p) : KeepsPairs (pairEnableObj p) := by
  refine keeps_rwkNat (fun v c h => ?_) ..
  split
  · exact safe_flagged_pair _ _ _ _ _ h fun d hd => safe_pairEnable hd p
  · exact safe_pairDisable h p
@[simp] theorem keeps_pairResumeObj (p) : KeepsPairs (pairResumeObj p) := by
  refine keeps_rwkNat (fun v c h => ?_) ..
  split
  · exact safe_flagged_pair _ _ _ _ _ h fun d hd => safe_pairResume hd p
  · exact h
@[simp] theorem safe_mapDev_pairDisable (p) (c : Core) (h : PairsSafe c.dev.br.pairs) :
    PairsSafe (pairDisable p c.dev).br.pairs := safe_pairDisable h p

@[simp] theorem keeps_capTimeObj (n sub a) : KeepsPairs (capTimeObj n sub a) := by simp [capTimeObj]
@[simp] theorem keeps_compareObj (n r get) : KeepsPairs (compareObj n r get) := by simp [compareObj]
@[simp] theorem keeps_grainObj (n lo) : KeepsPairs (grainObj n lo) := by simp [grainObj]
@[simp] theorem keeps_quoinObj (n) : KeepsPairs (quoinObj n) := by simp +contextual [quoinObj]
@[simp] theorem keeps_patternObj (n) : KeepsPairs (patternObj n) := by
  refine keeps_rwBytes _ _ _ fun l c h => ?_
  rw [pairs_ite_snd_core, pairs_flagged _ _ _ _ _ (by simp) (fun d => pairs_forEach _ _ d (by simp)), ite_self]
  exact h
@[simp] theorem allKeep_chanOut (n sub) : AllKeep (chanOut n sub) := by
  unfold chanOut; split <;> simp +contextual
@[simp] theorem allKeep_decObj (n sub) : AllKeep (decObj n sub) := by
  unfold decObj; dsimp only
  repeat' split
  all_goals simp +contextual
@[simp] theorem allKeep_chanObj (n sub) : AllKeep (chanObj n sub) := by
  unfold chanObj; split <;> simp
@[simp] theorem allKeep_axisObj (a sub) : AllKeep (axisObj a sub) := by
  unfold axisObj; split <;> simp
@[simp] theorem keeps_polarityObj (b) : KeepsPairs (polarityObj b) := by simp +contextual [polarityObj]
@[simp] theorem allKeep_pairObj (p sub) : AllKeep (pairObj p sub) := by
  unfold pairObj; split <;> simp +contextual
@[simp] theorem keeps_latchedObj (i) : KeepsPairs (latchedObj i) := by simp [latchedObj]
@[simp] theorem allKeep_tripObj (i sub) : AllKeep (tripObj i sub) := by
  unfold tripObj; split <;> simp
@[simp] theorem keeps_programObj (k) : KeepsPairs (programObj k) := by simp [programObj]
@[simp] theorem keeps_txdObj (k) : KeepsPairs (txdObj k) := by simp [txdObj]
@[simp] theorem keeps_cpCommandObj (k) : KeepsPairs (cpCommandObj k) := by simp [cpCommandObj]
@[simp] theorem allKeep_compObj (k sub) : AllKeep (compObj k sub) := by
  unfold compObj; split <;> simp +contextual
@[simp] theorem keeps_customerCmd (e) : KeepsPairs (customerCmd e) := by simp [customerCmd]
@[simp] theorem allKeep_engineObj (e sub) : AllKeep (engineObj e sub) := by
  unfold engineObj; split <;> simp +contextual
@[simp] theorem keeps_fpCommandObj (p) : KeepsPairs (fpCommandObj p) := by simp [fpCommandObj]
@[simp] theorem allKeep_portObj (p sub) : AllKeep (portObj p sub) := by
  unfold portObj; split <;> simp
@[simp] theorem keeps_rateObj (b) : KeepsPairs (rateObj b) := by
  refine keeps_rwNat (fun v c h => ?_) ..
  split
  · exact safe_regSet _ _ _ _ _ c h
  · exact h
@[simp] theorem keeps_paramObj : KeepsPairs paramObj := by simp [paramObj]
@[simp] theorem allKeep_headObj (h sub) : AllKeep (headObj h sub) := by
  unfold headObj; split <;> simp
@[simp] theorem allKeep_slotObj (n sub) : AllKeep (slotObj n sub) := by
  unfold slotObj; split <;> simp
@[simp] theorem keeps_domObj (ty f lo hi g) : KeepsPairs (domObj ty f lo hi g) := by simp [domObj]
@[simp] theorem keeps_windowObj (f g) : KeepsPairs (windowObj f g) := by simp [windowObj]
@[simp] theorem allKeep_domainObj (sub) : AllKeep (domainObj sub) := by
  unfold domainObj; split <;> simp
@[simp] theorem allKeep_sourceObj (sub) : AllKeep (sourceObj sub) := by simp [sourceObj]
@[simp] theorem allKeep_macObj (m sub) : AllKeep (macObj m sub) := by
  unfold macObj; split <;> simp
@[simp] theorem allKeep_memberObj (a sub) : AllKeep (memberObj a sub) := by
  unfold memberObj; split <;> simp
@[simp] theorem keeps_epochObj (ty hi f g) : KeepsPairs (epochObj ty hi f g) := by simp [epochObj]
@[simp] theorem allKeep_timebaseObj (sub) : AllKeep (timebaseObj sub) := by
  unfold timebaseObj; split <;> simp
@[simp] theorem allKeep_ptpObj (sub) : AllKeep (ptpObj sub) := by
  unfold ptpObj; split <;> simp
@[simp] theorem allKeep_ptpPortObj (m sub) : AllKeep (ptpPortObj m sub) := by
  unfold ptpPortObj; split <;> simp
@[simp] theorem allKeep_tickObj (sub) : AllKeep (tickObj sub) := by
  unfold tickObj; split <;> simp
@[simp] theorem allKeep_loadObj (sub) : AllKeep (loadObj sub) := by
  unfold loadObj; split <;> simp
@[simp] theorem allKeep_quoinsObj (sub) : AllKeep (quoinsObj sub) := by
  unfold quoinsObj; split <;> simp
@[simp] theorem keeps_storeCmd (f : Dev → Dev) (hf : ∀ d, (f d).br.pairs = d.br.pairs) : KeepsPairs (storeCmd f) := by
  simp [storeCmd, hf]
@[simp] theorem allKeep_storeObj (sub) : AllKeep (storeObj sub) := by
  unfold storeObj; split <;> simp
@[simp] theorem allKeep_longOpObj (f sub) : AllKeep (longOpObj f sub) := by
  unfold longOpObj; split <;> simp
@[simp] theorem keeps_startObj (f) (g : Dev → Dev) (hg : ∀ d, (g d).br.pairs = d.br.pairs) : KeepsPairs (startObj f g) := by
  simp [startObj, hg]
@[simp] theorem allKeep_longObj (i sub) : AllKeep (longObj i sub) := by
  unfold longObj; split <;> simp
@[simp] theorem keeps_sourcesObj : KeepsPairs sourcesObj := by simp [sourcesObj]
@[simp] theorem allKeep_icObj (sub) : AllKeep (icObj sub) := by
  unfold icObj; split <;> simp
@[simp] theorem allKeep_crossObj (sub) : AllKeep (crossObj sub) := by
  unfold crossObj; dsimp only
  repeat' split
  all_goals simp +contextual
@[simp] theorem allKeep_galleyObj (sub) : AllKeep (galleyObj sub) := by
  unfold galleyObj; split <;> simp +contextual
@[simp] theorem allKeep_slugCmdObj (sub) : AllKeep (slugCmdObj sub) := by
  unfold slugCmdObj; split <;> simp
@[simp] theorem keeps_polObj (f g) : KeepsPairs (polObj f g) := by simp [polObj]
@[simp] theorem allKeep_policyObj (sub) : AllKeep (policyObj sub) := by
  unfold policyObj; split <;> simp
@[simp] theorem allKeep_chaseObj (n sub) : AllKeep (chaseObj n sub) := by
  unfold chaseObj; split <;> simp
@[simp] theorem allKeep_groupObj (g sub) : AllKeep (groupObj g sub) := by
  unfold groupObj; split <;> simp
@[simp] theorem keeps_consentObj : KeepsPairs consentObj := by
  refine keeps_rwkNat (fun v c h => ?_) ..
  split
  · exact safe_of_same (pairs_consentWrite ‹_›) h
  · exact h
@[simp] theorem allKeep_fastObj (sub) : AllKeep (fastObj sub) := by
  unfold fastObj; split <;> simp
@[simp] theorem allKeep_memoryObj (sub) : AllKeep (memoryObj sub) := by
  unfold memoryObj; split <;> simp
@[simp] theorem keeps_requestObj : KeepsPairs requestObj := by simp [requestObj]
@[simp] theorem allKeep_powerObj (sub) : AllKeep (powerObj sub) := by
  unfold powerObj; split <;> simp
@[simp] theorem allKeep_traceObj (sub) : AllKeep (traceObj sub) := by
  unfold traceObj; split <;> simp
@[simp] theorem allKeep_customDeclObj (sub) : AllKeep (customDeclObj sub) := by
  unfold customDeclObj; split <;> simp
@[simp] theorem allKeep_customObj (c : Core) (index sub) : AllKeep (customObj c index sub) := by
  refine ⟨fun o ho => ?_⟩
  obtain ⟨e, _, rfl⟩ := Option.map_eq_some_iff.mp ho
  simp
@[simp] theorem allKeep_typeObj (t sub) : AllKeep (typeObj t sub) := by
  unfold typeObj; split <;> simp
/-- R397: a device that is retired disables its pairs. -/
theorem safe_writeLifecycle {v : Nat} {c e : Core} (h : PairsSafe c.dev.br.pairs) (he : writeLifecycle v c = some e) :
    PairsSafe e.dev.br.pairs := by
  have hr : PairsSafe (forEach (List.range 128) (fun p d => if bit (d.pair p).ctl 31 then pairDisable p d else d) c.dev).br.pairs :=
    safe_forEach (fun p _ h => safe_ite (fun _ => safe_pairDisable h p) fun _ => h) _ h
  unfold writeLifecycle at he
  dsimp only at he
  repeat' split at he
  all_goals cases he
  · exact h
  · exact h
  · exact safe_of_same (pairs_secFlag 7 _) hr
  · exact hr
  · exact safe_of_same (pairs_secFlag 7 _) hr
  · exact hr

@[simp] theorem allKeep_securityObj (sub) : AllKeep (securityObj sub) := by
  unfold securityObj
  split
  case h_2 =>
    refine (allKeep_some _).mpr (keeps_rwkNat (fun v c h => ?_) ..)
    split
    · exact safe_writeLifecycle h ‹_›
    · exact h
  all_goals simp

@[simp] theorem allKeep_coreObj (index sub) (c : Core) : AllKeep (coreObj index sub c) := by
  unfold coreObj
  repeat refine allKeep_of_ite (by simp) ?_
  exact allKeep_none

end Sys2Proof.Proofs
end

section
/-! SUPPORT. The interlock and what serves, boots or repairs the device, and the device by itself. -/

namespace Sys2Proof.Proofs

open Sys2Proof Sys2Proof.Machine Sys2Proof.Laws

/-! ### Defaults and the dictionary store (R390, R391) -/

section
variable {c : Core} (h : PairsSafe c.dev.br.pairs)
include h

theorem safe_takeDefault (e : Nat × Nat × Obj) (he : KeepsPairs e.2.2) : PairsSafe (takeDefault e c).dev.br.pairs :=
  safe_ite_core (fun _ => h) fun _ => safe_ite_core (fun _ => h) fun _ => he.wr _ _ _ h

omit h in
/-- The persistent objects of an index are objects of the dictionary. -/
theorem keeps_of_mem_persistAt {i : Nat} {e : Nat × Nat × Obj} (c : Core) (he : e ∈ persistAt c i) : KeepsPairs e.2.2 := by
  obtain ⟨k, -, hk⟩ := List.mem_filterMap.mp he
  split at hk
  next o ho =>
    split at hk
    · cases hk
      exact (allKeep_coreObj ..).each o ho
    · cases hk
  next => cases hk

omit h in
theorem safe_takeDefaults (l : List (Nat × Nat × Obj)) (hl : ∀ e ∈ l, KeepsPairs e.2.2) (c : Core)
    (h : PairsSafe c.dev.br.pairs) : PairsSafe (l.foldl (fun c e => takeDefault e c) c).dev.br.pairs := by
  induction l generalizing c with
  | nil => exact h
  | cons e l ih =>
    exact ih (fun x hx => hl x (List.mem_cons_of_mem _ hx)) _ (safe_takeDefault h e (hl e List.mem_cons_self))

theorem safe_restoreDefaults : PairsSafe (restoreDefaults c).dev.br.pairs := by
  unfold restoreDefaults
  refine safe_ite_core (fun _ => h) fun _ => safe_foldl (fun c i h => ?_) _ h
  refine safe_takeDefaults _ (fun e he => ?_) c h
  rcases List.mem_append.mp he with he | he <;> exact keeps_of_mem_persistAt c (List.mem_of_mem_filter he)

omit h in
@[simp] theorem allKeep_dictStoreObj (sub) : AllKeep (dictStoreObj sub) := by
  have hr : ∀ c : Core, PairsSafe c.dev.br.pairs → PairsSafe (restoreDefaults c).dev.br.pairs := fun _ => safe_restoreDefaults
  unfold dictStoreObj
  split <;> simp +contextual [hr]

omit h in
@[simp] theorem allKeep_objAt (index sub) (c : Core) : AllKeep (objAt index sub c) := by
  unfold objAt; split <;> simp

omit h in
theorem keeps_findObj {index sub : Nat} {c : Core} {o : Obj} (ho : findObj index sub c = .ok o) : KeepsPairs o := by
  unfold findObj at ho
  repeat' split at ho
  all_goals cases ho
  · exact keeps_constNat ..
  · exact (allKeep_objAt ..).each o ‹_›

/-! ### The services (R382, R383, R402) -/

theorem safe_writeValue (w index sub v keyed) : PairsSafe (writeValue w index sub v keyed c).2.dev.br.pairs := by
  unfold writeValue
  split
  · exact h
  next ho =>
    have hw := (keeps_findObj ho).wr w v c h
    simp only [pairs_ite_snd_core, pairsSafe_ite, h, implies_true, true_and]
    intros
    split
    · exact h
    · exact hw

theorem safe_svcRead (w index sub) : PairsSafe (svcRead w index sub c).2.dev.br.pairs := by
  unfold svcRead
  split <;> simp [h]

theorem safe_svcWriteAs (svc w index sub v) : PairsSafe (svcWriteAs svc w index sub v c).2.dev.br.pairs := by
  have hw := safe_writeValue h w index sub v false
  unfold svcWriteAs
  simp [h, hw]

theorem safe_svcDescribe (index sub) : PairsSafe (svcDescribe index sub c).2.dev.br.pairs := by
  unfold svcDescribe; split <;> exact h

theorem safe_svcReadSeg (w index sub offset count) : PairsSafe (svcReadSeg w index sub offset count c).2.dev.br.pairs := by
  unfold svcReadSeg
  split
  · exact h
  · dsimp only
    repeat' split
    all_goals simp [h]

theorem safe_svcWriteSeg (w index sub offset last v) : PairsSafe (svcWriteSeg w index sub offset last v c).2.dev.br.pairs := by
  have h1 : ∀ s, PairsSafe (setStage w s c).dev.br.pairs := fun s => safe_of_same (by simp) h
  unfold svcWriteSeg
  split
  · exact h
  · dsimp only
    split
    · exact h1 _
    · split
      · exact safe_svcWriteAs (h1 _) ..
      · exact h1 _

theorem safe_svcReadAll (w index) : PairsSafe (svcReadAll w index c).2.dev.br.pairs := by
  simp [svcReadAll, h]

theorem safe_svcKeyedWrite (w index sub l) : PairsSafe (svcKeyedWrite w index sub l c).2.dev.br.pairs := by
  unfold svcKeyedWrite; dsimp only
  split
  · exact h
  · split
    · simpa using h
    · split
      · exact h
      · split
        · exact h
        · split
          · simpa using h
          · split
            · split
              · simpa using h
              · simpa using h
            · exact safe_writeValue (c := { c with vault := takeCounter _ c.vault }) h ..

/-! ### Requests (R371, R372, R381, R423) -/

omit h in
theorem pairs_answerSvc (w svc index sub) (r : SvcAnswer × Core) : (answerSvc w svc index sub r).dev.br.pairs = r.2.dev.br.pairs := by
  unfold answerSvc; split <;> simp

theorem safe_serveBody (w l) : PairsSafe (serveBody w l c).dev.br.pairs := by
  unfold serveBody; dsimp only
  rw [pairs_answerSvc]
  split
  · exact h
  · split
    · exact safe_svcRead h ..
    · exact safe_svcWriteAs h ..
    · exact safe_svcKeyedWrite h ..
    · exact safe_svcDescribe h ..
    · exact safe_svcReadSeg h ..
    · exact safe_svcWriteSeg h ..
    · exact safe_svcReadAll h ..
    · exact h

theorem safe_serveFront : PairsSafe (serveFront c).dev.br.pairs := by
  unfold serveFront
  split
  next r rest _ => exact safe_serveBody (c := c.mapDev fun d => { d with ds := { d.ds with queue := rest } }) h ..
  · exact h

omit h in
theorem safe_serveSessions (n : Nat) (c : Core) (h : PairsSafe c.dev.br.pairs) : PairsSafe (serveSessions n c).dev.br.pairs := by
  induction n generalizing c with
  | zero => exact h
  | succ n ih =>
    unfold serveSessions
    split
    · exact ih _ (safe_serveFront h)
    · exact h

theorem safe_drainSessions : PairsSafe (drainSessions c).dev.br.pairs :=
  safe_ite_core (fun _ => safe_serveSessions _ c h) fun _ => h

theorem safe_serveOwn : PairsSafe (serveOwn c).dev.br.pairs := by
  unfold serveOwn
  split
  · exact safe_drainSessions h
  · exact h

theorem safe_mailboxResponse (p) : PairsSafe (mailboxResponse p c).dev.br.pairs := by
  unfold mailboxResponse
  split
  · exact safe_ite_core (fun _ => safe_drainSessions (safe_serveFront h)) fun _ => h
  · exact h

theorem safe_acyclicDatagram (m ip port target dest l plain) :
    PairsSafe (acyclicDatagram m ip port target dest l plain c).dev.br.pairs := by
  unfold acyclicDatagram; dsimp only
  refine safe_ite_core (fun _ => h) fun _ => safe_ite_core (fun _ => safe_of_same (by simp) h) fun _ => ?_
  split
  · refine safe_ite_core (fun _ => safe_ite_core (fun _ => h) fun _ => safe_of_same (by simp) h) fun _ =>
      safe_ite_core (fun _ => safe_of_same (by simp) h) fun _ => safe_drainSessions (safe_of_same (by simp) h)
  · split
    · exact safe_of_same (by simp) h
    · exact safe_drainSessions (safe_of_same (by simp) h)

/-! ### Boot (R389, R395, R463) -/

theorem safe_entryWrite (ok e) : PairsSafe (entryWrite ok e c).2.dev.br.pairs := by
  unfold entryWrite
  split
  · exact h
  next ho =>
    have hw := (keeps_findObj ho).wr .pcie e.value c h
    simp only [pairs_ite_snd_core, pairsSafe_ite, h, implies_true, true_and]
    intros
    split
    · exact h
    · split
      · exact safe_of_same (by simp) h
      · exact hw

theorem safe_applyEntryAt (ok e) : PairsSafe (applyEntryAt ok e c).dev.br.pairs :=
  safe_ite_core (fun _ => safe_entryWrite h ok e) fun _ => safe_of_same (by simp) (safe_entryWrite h ok e)

omit h in
theorem safe_landRegisters {d : Dev} (h : PairsSafe d.br.pairs) : PairsSafe (landRegisters d).br.pairs := by
  unfold landRegisters; dsimp only
  simp only [pairs_forEach, pairs_openTclk, implies_true]
  exact safe_forEach (fun p _ h => safe_openPair h p) _ (safe_of_same (by simp) h)

theorem safe_bootEntry (ok e) : PairsSafe (bootEntry ok e c).dev.br.pairs := by
  rw [bootEntry, pairs_mapDev]
  exact safe_landRegisters (safe_applyEntryAt h ok e)

theorem safe_applyImage (im) : PairsSafe (applyImage im c).dev.br.pairs := by
  unfold applyImage; dsimp only
  exact safe_foldl (fun c e h => safe_bootEntry h _ e) _ (safe_foldl (fun c e h => safe_bootEntry h _ e) _ h)

theorem safe_setObj (index sub v) : PairsSafe (setObj index sub v c).dev.br.pairs := by
  unfold setObj
  split
  next o ho =>
    rw [pairs_mapDev]
    exact safe_landRegisters (((allKeep_coreObj ..).each o ho).wr _ _ _ h)
  · exact h

theorem safe_standAlone (strap) : PairsSafe (standAlone strap c).dev.br.pairs := by
  have hs : ∀ {c : Core} (index sub v), PairsSafe c.dev.br.pairs → PairsSafe (setObj index sub v c).dev.br.pairs :=
    fun _ _ _ h => safe_setObj h ..
  have h3 := hs 0x1110 0x01 1 (hs 0x1110 0x02 (if strap.getLsbD 3 then 1 else 0) (hs 0x4000 0x01 1 (hs 0x4000 0x0B 0 (hs 0x4000 0x03 2
    (hs 0x3002 0x4B 1 (hs 0x3002 0x43 5 (hs 0x3000 0x4B 1 (hs 0x3000 0x43 3 h))))))))
  exact safe_ite_core (fun _ => hs _ _ _ (safe_foldl (fun _ _ h => hs _ _ _ (hs _ _ _ h)) _ h3)) fun _ => h3

theorem safe_boot (strap xt32 patch us) : PairsSafe (boot strap xt32 patch us c).dev.br.pairs := by
  unfold boot; dsimp only
  refine safe_ite_core (fun _ => h) fun _ => ?_
  simp only [pairs_mapDev, pairs_release, pairs_settleDomain]
  split
  · refine safe_applyImage ?_ _
    repeat' split
    all_goals simpa using h
  · refine safe_standAlone ?_ _
    repeat' split
    all_goals simpa using h

theorem safe_thirdPass : PairsSafe (thirdPass c).dev.br.pairs :=
  safe_ite_core (fun _ => safe_foldl (fun _ e h => safe_applyEntryAt h _ e) _ h) fun _ => h

/-! ### SRAM errors (R447, R448) -/

theorem safe_objectLost (index sub who) : PairsSafe (objectLost index sub who c).dev.br.pairs := by
  unfold objectLost
  split
  · exact h
  next o ho =>
    have h1 := ((allKeep_objAt ..).each o ho).wr .pcie ((storedValue index sub c.dev).getD (defaultOf o)) c h
    dsimp only
    split
    · exact safe_of_same (by simp) h1
    · exact h1

theorem safe_uncorrectableError (r w by_ allBad) : PairsSafe (uncorrectableError r w by_ allBad c).dev.br.pairs := by
  unfold uncorrectableError; dsimp only
  split
  case h_5 => exact safe_objectLost (safe_of_same (by simp) h) ..
  all_goals exact safe_of_same (by simp) h
end

/-! ### The passage of a TCLK (R190, R193, R199–R205) -/

section
variable {d : Dev} (h : PairsSafe d.br.pairs)
include h

theorem safe_followLevel (p high) : PairsSafe (followLevel p high d).br.pairs :=
  safe_ite (fun _ => safe_takeCommand h p high) fun _ => h

theorem safe_takeCommands : PairsSafe (takeCommands d).br.pairs :=
  safe_forEach (fun p _ h => safe_ite (fun _ => safe_followLevel (safe_followLevel h p false) p true)
    fun _ => safe_followLevel (safe_followLevel h p true) p false) _ h

theorem safe_endChannels : PairsSafe (endChannels d).br.pairs := by
  have h1 := safe_takeCommands h
  simpa [endChannels] using h1

theorem safe_openStages (starts) : PairsSafe (openStages starts d).br.pairs := by
  have h1 : PairsSafe (openBridge (openPins (icTclk d))).br.pairs := safe_openBridge (safe_of_same (by simp) h)
  simpa [openStages] using h1

theorem safe_passTclk : PairsSafe (passTclk d).br.pairs := by
  have h1 : PairsSafe (endTracks (endChannels d)).br.pairs := safe_of_same (pairs_endTracks _) (safe_endChannels h)
  unfold passTclk; dsimp only
  refine safe_openStages ?_ _
  simpa only [pairs_advanceTclk, pairs_landChases, pairs_landComps, pairs_landChannels] using h1
end

/-- The device by itself keeps the interlock. -/
theorem interlocked_idleStep (s : State) (h : Interlocked s) : Interlocked (idleStep s) := by
  rw [interlocked_iff] at h ⊢
  unfold idleStep; dsimp only
  split
  · split
    · dsimp only
      exact safe_ite (fun _ => safe_takeCommands h) fun _ => h
    · dsimp only
      exact safe_passTclk (safe_serveOwn h)
  · exact h

end Sys2Proof.Proofs
end

section
/-! SUPPORT. The interlock and a step: every command keeps it, and so does the device by itself. -/

namespace Sys2Proof.Proofs

open Sys2Proof Sys2Proof.Machine Sys2Proof.Laws

@[simp] theorem pairs_liveOr (f g : Dev → Dev) (hf : ∀ d, (f d).br.pairs = d.br.pairs) (hg : ∀ d, (g d).br.pairs = d.br.pairs)
    (c : Core) : (liveOr f g c).dev.br.pairs = c.dev.br.pairs := by
  unfold liveOr
  split
  · exact hf _
  · exact hg _
@[simp] theorem pairs_byEngine (e : Nat) (f : Dev → Dev) (hf : ∀ d, (f d).br.pairs = d.br.pairs) (c : Core) :
    (byEngine e f c).dev.br.pairs = c.dev.br.pairs := by
  unfold byEngine
  split
  · exact hf _
  · rfl
theorem safe_byEngineC {c : Core} {e : Nat} {f : Core → Core} (h : PairsSafe c.dev.br.pairs) (hf : PairsSafe (f c).dev.br.pairs) :
    PairsSafe (byEngineC e f c).dev.br.pairs := safe_ite_core (fun _ => hf) fun _ => h

theorem safe_answerSvc {w : DictWho} {svc index sub : Nat} {r : SvcAnswer × Core} (h : PairsSafe r.2.dev.br.pairs) :
    PairsSafe (answerSvc w svc index sub r).dev.br.pairs := safe_of_same (pairs_answerSvc ..) h

/-! ### The runners of commands: a command that keeps the interlock keeps it whether or not it is let act -/

section
variable {ok : Bool} {s t : State}

theorem interlocked_onCore {f : Core → Core} (hf : ∀ c, PairsSafe c.dev.br.pairs → PairsSafe (f c).dev.br.pairs)
    (hs : Interlocked s) (ht : onCore ok f s = .next t) : Interlocked t := by
  rw [interlocked_iff] at hs ⊢
  obtain ⟨-, hr⟩ | ⟨-, hr⟩ := onCore_cases ok f s <;> obtain rfl := Host.Outcome.next.inj (hr.symm.trans ht)
  · exact hs
  · exact hf _ hs

theorem interlocked_onDevice {f : Dev → Dev} (hf : ∀ d, PairsSafe d.br.pairs → PairsSafe (f d).br.pairs)
    (hs : Interlocked s) (ht : onDevice ok f s = .next t) : Interlocked t := interlocked_onCore (fun c => hf c.dev) hs ht

theorem interlocked_whenLive {f : Core → Core} (hf : ∀ c, PairsSafe c.dev.br.pairs → PairsSafe (f c).dev.br.pairs)
    (hs : Interlocked s) (ht : whenLive ok f s = .next t) : Interlocked t :=
  interlocked_onCore (fun c h => safe_ite_core (fun _ => hf c h) fun _ => h) hs ht

theorem interlocked_whenLiveDev {f : Dev → Dev} (hf : ∀ d, PairsSafe d.br.pairs → PairsSafe (f d).br.pairs)
    (hs : Interlocked s) (ht : whenLiveDev ok f s = .next t) : Interlocked t := interlocked_whenLive (fun c => hf c.dev) hs ht

theorem interlocked_whenRunning {f : Core → Core} (hf : ∀ c, PairsSafe c.dev.br.pairs → PairsSafe (f c).dev.br.pairs)
    (hs : Interlocked s) (ht : whenRunning ok f s = .next t) : Interlocked t :=
  interlocked_whenLive (fun c h => safe_ite_core (fun _ => hf c h) fun _ => h) hs ht

/-! The same for a command that changes no pair. -/

theorem interlocked_onCore_same {f : Core → Core} (hf : ∀ c, (f c).dev.br.pairs = c.dev.br.pairs) :
    Interlocked s → onCore ok f s = .next t → Interlocked t := interlocked_onCore fun c => safe_of_same (hf c)

theorem interlocked_onDevice_same {f : Dev → Dev} (hf : ∀ d, (f d).br.pairs = d.br.pairs) :
    Interlocked s → onDevice ok f s = .next t → Interlocked t := interlocked_onDevice fun d => safe_of_same (hf d)

theorem interlocked_whenLive_same {f : Core → Core} (hf : ∀ c, (f c).dev.br.pairs = c.dev.br.pairs) :
    Interlocked s → whenLive ok f s = .next t → Interlocked t := interlocked_whenLive fun c => safe_of_same (hf c)

theorem interlocked_whenLiveDev_same {f : Dev → Dev} (hf : ∀ d, (f d).br.pairs = d.br.pairs) :
    Interlocked s → whenLiveDev ok f s = .next t → Interlocked t := interlocked_whenLiveDev fun d => safe_of_same (hf d)

theorem interlocked_whenRunning_same {f : Core → Core} (hf : ∀ c, (f c).dev.br.pairs = c.dev.br.pairs) :
    Interlocked s → whenRunning ok f s = .next t → Interlocked t := interlocked_whenRunning fun c => safe_of_same (hf c)

theorem interlocked_whenRunningDev_same {f : Dev → Dev} (hf : ∀ d, (f d).br.pairs = d.br.pairs) :
    Interlocked s → whenRunningDev ok f s = .next t → Interlocked t := interlocked_whenRunning_same fun c => hf c.dev
end

/-- Every command keeps the interlock; first those that reach a pair, then the rest of each runner's. -/
theorem interlocked_exec (i : Instr) (s t : State) (hs : Interlocked s) (ht : exec i s = .next t) : Interlocked t := by
  cases i with
  | registerWrite =>
    exact interlocked_onCore (fun _ h => safe_registerWrite h ..) hs ht
  | wideValueLowWrite | wideValueCommit | mailboxGo =>
    exact interlocked_onCore (fun _ h => safe_viaPort h _ (safe_busWrite h ..)) hs ht
  | qspiWrite =>
    exact interlocked_onCore (fun _ h => safe_qspiWrite h ..) hs ht
  | wakeN =>
    exact interlocked_onCore (fun _ h => safe_wakeN h _) hs ht
  | sysRstN =>
    exact interlocked_onCore (fun _ h => safe_sysRstN h _) hs ht
  | supplyFault =>
    exact interlocked_onCore (fun _ _ => safe_supplyFault _) hs ht
  | warmRestart =>
    exact interlocked_onCore (fun _ h => safe_warmRestart h) hs ht
  | boot =>
    exact interlocked_onCore (fun _ h => safe_boot h ..) hs ht
  | wideValueLowRead | wideValueHighRead | pinTransition | ustampLoRead | galleyWindowRead | chainCountRead | captureRead
  | rxdRead | claim | chwRead | axwLoRead | linkDown | linkUp | qspiRead | hqCsNRise | badAccess | tamper | vbatLoss
  | vbatRestore =>
    exact interlocked_onCore_same (by simp) hs ht
  | crd | cwr | ard | awr | decrd | mload | segld | chrd | chwr | arm | retime | wdraw | durw | cpop | greg =>
    exact interlocked_whenLive (fun _ h => safe_byEngineC h (safe_chopRow h ..)) hs ht
  | channelBusGrant =>
    exact interlocked_whenLive (fun _ h => safe_channelGrant h _) hs ht
  | acyclicDatagram =>
    exact interlocked_whenLive (fun _ h => safe_acyclicDatagram h ..) hs ht
  | mailboxResponse =>
    exact interlocked_whenLive (fun _ h => safe_mailboxResponse h _) hs ht
  | dictionaryThirdPass =>
    exact interlocked_whenLive (fun _ h => safe_thirdPass h) hs ht
  | uncorrectableError =>
    exact interlocked_whenLive (fun _ h => safe_uncorrectableError h ..) hs ht
  | ins | rem | mod | modd | galleyPortFree | pop | pend | mark | galleyPortRead | openFormeLoadDone =>
    exact interlocked_whenLive_same (by simp) hs ht
  | slugInsertObject | slugRemoveObject | write =>
    exact interlocked_whenRunning (fun _ h => safe_answerSvc (safe_svcWriteAs h ..)) hs ht
  | read =>
    exact interlocked_whenRunning (fun _ h => safe_answerSvc (safe_svcRead h ..)) hs ht
  | keyedWrite =>
    exact interlocked_whenRunning (fun _ h => safe_answerSvc (safe_svcKeyedWrite h ..)) hs ht
  | describe =>
    exact interlocked_whenRunning (fun _ h => safe_answerSvc (safe_svcDescribe h ..)) hs ht
  | readSeg =>
    exact interlocked_whenRunning (fun _ h => safe_answerSvc (safe_svcReadSeg h ..)) hs ht
  | writeSeg =>
    exact interlocked_whenRunning (fun _ h => safe_answerSvc (safe_svcWriteSeg h ..)) hs ht
  | readAll =>
    exact interlocked_whenRunning (fun _ h => safe_answerSvc (safe_svcReadAll h ..)) hs ht
  | restore =>
    exact interlocked_whenRunning (fun _ h => safe_restoreDefaults h) hs ht
  | commit =>
    exact interlocked_whenRunning_same (by simp) hs ht
  | minPulseFilter =>
    exact interlocked_whenLiveDev (fun _ h => safe_minPulseFilter h ..) hs ht
  | sideTurnOn =>
    exact interlocked_whenLiveDev (fun _ h => safe_sideTurnOn h ..) hs ht
  | sideTurnOff =>
    exact interlocked_whenLiveDev (fun _ h => safe_sideTurnOff h ..) hs ht
  | refreshStart =>
    exact interlocked_whenLiveDev (fun _ h => safe_refreshStart h ..) hs ht
  | refreshEnd =>
    exact interlocked_whenLiveDev (fun _ h => safe_refreshEnd h ..) hs ht
  | dis =>
    exact interlocked_whenLiveDev (fun _ h => safe_pairDisable h _) hs ht
  | stoppingDone =>
    exact interlocked_whenLiveDev (fun _ h => safe_stoppingDone h _) hs ht
  | tickBoundary | nextPeriodWrite | nextAnchorWrite | updateCredit | tbHtrimWrite | tbStepCommit | servoWrite | sync
  | followUp | announce | pdelayReq | pdelayResp | pdelayRespFollowUp | ptpManagementMessage | syncReceiptTimeout
  | announceReceiptTimeout | syncSend | announceSend | pdelayReqSend | alignLost | edgeAccepted | pwdFault | updateRequest
  | pinWrite | decoderEnable | decoderDisable | clr | preset | ghost | stopped | resync | axisEnable | axisDisable | aoqSeed
  | remoteMiss | coastLimit | coastMax | tickWork | insert | remove | modify | modifyDur | free | compact | compactionDone
  | clrpk | galleyGrant | galleyOpComplete | chaseCommit | commitRecord | actionComplete | edgeRise | edgeFall | pulse
  | toggle | captureArm | engineWake | doorbell | emulationStep | pulseEnd | channelEnable | channelDisable
  | counterTerminal | compareMatch | compareWrite | periodWrite | quoinClose | quoinOpen | frise | ffall | reload
  | countWrite | emen | emulationAxisStep | tripAccepted | swtrip | latchClear | gstart | greset | counterTstart
  | counterStart | counterStop | swcap | chainCountWrite | captureWindowClose | cpSet | cpOut | cpIn | cpWait | cpMov
  | cpJmp | cpSig | cpHalt | cpIllop | compositorDelayStep | txdWrite | compositorStart | compositorTstart | compositorHalt
  | compositorEnable | compositorDisable | programWrite | microword | safePoint | endw | cstart | chalt | offlineRequest
  | onlineRequest | lockWrite | lockstepMismatch | interruptEvent | pinSenseAccept | icDbell | icSetp | icPendClear
  | complete | icSourceWrite | hostVectorMessage | macLineReset | clrw | cyclicExchangeStart | encoderResponse
  | gateDriveResponse | ioResponse | noResponse | acyclicExchangeStart | identifyResponse | readResponse | writeResponse
  | portEnable | portDisable | load | enum | enumerationDone | cyclicGateOpen | cyclicGateClose | trajectoryFrame
  | summarySend | summary | fullStatus | masterLost | takeover | workerLost | arp | icmpEcho | sessionExpiry | macEnable
  | macDisable | receiveError | commitDone | eventGroupTrigger | powerRequest | idleEntry | idleExit | holdEntry | wrst
  | survey | surveyStart | sentinelMeasured | surveyDone | marginPlanTakesEffect | vtrimStep | calibrationStart
  | calibrationDone | correctableError | scrub | claimableSpanEnd | tripLevelInactive =>
    exact interlocked_whenLiveDev_same (by simp) hs ht
  | tickStrobeReachesEngine | updateService | armingPass | policyService | policyWalk | erase =>
    exact interlocked_whenRunningDev_same (by simp) hs ht
  | aoqTransition | msixUnmask | wakeLatch | pcieReset | crossingResync | readHostStatus | clearHostStatus | targetReset
  | qspiUnknownOpcode | hqRstN | pwrEnFall | holdExit | bypass | idcode | samplePreload | extest | highz =>
    exact interlocked_onDevice_same (by simp) hs ht

/-- Settles O59: each command of the queue keeps the interlock, and so does the device by itself. -/
theorem stepsKeepInterlock : Obligations.StepsKeepInterlock := by
  unfold Obligations.StepsKeepInterlock
  intro s t hs ht
  unfold step at ht
  split at ht
  next c rest _ => exact interlocked_exec c { s with pending := rest } t hs ht
  next => exact Host.Outcome.next.inj ht ▸ interlocked_idleStep s hs

end Sys2Proof.Proofs
end

section
/-! SUPPORT. The operations on the sides of one pair (R190–R198): what each makes of its pair, and that it leaves the other pairs and
the parts outside the bridge and its events alone. -/

namespace Sys2Proof.Proofs

open Sys2Proof Sys2Proof.Machine Sys2Proof.Laws

/-! ### Operations on one pair -/

/-- Outside the parts `l` the devices are the same, and so are their pairs but `p`. -/
structure PairOnly (l : List Part) (p : Nat) (d e : Dev) : Prop where
  frame : SameBut l d e
  others : ∀ m, m ≠ p → e.pair m = d.pair m

section
variable {l : List Part} {p : Nat} {d e f : Dev}

theorem pairOnly_refl (l : List Part) (p : Nat) (d : Dev) : PairOnly l p d d := ⟨sameBut_refl l d, fun _ _ => rfl⟩
theorem pairOnly_then {m : List Part} (h : PairOnly m p d e) (hs : ∀ b ∈ m, b ∈ l) (k : PairOnly l p f d) : PairOnly l p f e :=
  ⟨sameBut_then h.frame hs k.frame, fun n hn => (h.others n hn).trans (k.others n hn)⟩
theorem pairOnly_mono {m : List Part} (h : PairOnly m p d e) (hs : ∀ b ∈ m, b ∈ l) : PairOnly l p d e :=
  ⟨sameBut_mono h.frame hs, h.others⟩
theorem pairOnly_ite {c : Prop} [Decidable c] (h : PairOnly l p d e) (h2 : PairOnly l p d f) : PairOnly l p d (if c then e else f) :=
  by
  split
  · exact h
  · exact h2

theorem pairOnly_updPair (d : Dev) (p : Nat) (g) : PairOnly [.br] p d (d.updPair p g) :=
  ⟨sameBut_updPair d p g, fun m hm => updPair_other d p m g hm⟩
end

section
variable (p : Nat) (high : Bool) (t : Nat) (d : Dev)

theorem memberEvent_pair (n m : Nat) : (memberEvent n d).pair m = d.pair m := kept_pair (sameBut_memberEvent n d) (by decide) m

/-- An event bit of the pair: it is set, and nothing else of the pair changes. -/
@[simp] theorem bpFlag_same (b : Nat) : (bpFlag p b d).pair p = { d.pair p with stat := orBit (d.pair p).stat b } := by
  rw [bpFlag, memberEvent_pair, updPair_same]
theorem pairOnly_bpFlag (b : Nat) : PairOnly [.br, .ic, .ne] p d (bpFlag p b d) :=
  ⟨sameBut_bpFlag p b d, fun m hm => by rw [bpFlag, memberEvent_pair, updPair_other _ _ _ _ hm]⟩

@[simp] theorem openBlanking_pair (m : Nat) : (openBlanking p d).pair m = d.pair m := by
  rw [Dev.pair, pairs_openBlanking, Dev.pair]
theorem sameBut_openBlanking : SameBut [.br] d (openBlanking p d) :=
  sameBut_forEach _ (fun i d => sameBut_ite (fun _ => sameBut_updTrip d i _) fun _ => sameBut_refl _ d) _ d
theorem pairOnly_openBlanking : PairOnly [.br] p d (openBlanking p d) :=
  ⟨sameBut_openBlanking p d, fun m _ => openBlanking_pair p d m⟩

/-! ### The sides (R195–R198) -/

@[simp] theorem turnOn_high : (turnOn p true t d).pair p =
    { d.pair p with high := { (d.pair p).high with on := true, onAt := t } } := by simp [turnOn]
@[simp] theorem turnOn_low : (turnOn p false t d).pair p =
    { d.pair p with low := { (d.pair p).low with on := true, onAt := t } } := by simp [turnOn]
@[simp] theorem turnOff_high : (turnOff p true t d).pair p =
    { d.pair p with high := { (d.pair p).high with on := false, offAt := t, dead := deadFall d (d.pair p) } } := by simp [turnOff]
@[simp] theorem turnOff_low : (turnOff p false t d).pair p =
    { d.pair p with low := { (d.pair p).low with on := false, offAt := t, dead := deadRise d (d.pair p) } } := by simp [turnOff]
theorem pairOnly_turnOn : PairOnly [.br] p d (turnOn p high t d) :=
  pairOnly_then (pairOnly_openBlanking p _) (by simp) (pairOnly_updPair d p _)
theorem pairOnly_turnOff : PairOnly [.br] p d (turnOff p high t d) :=
  pairOnly_then (pairOnly_openBlanking p _) (by simp) (pairOnly_updPair d p _)

theorem pairOnly_sideTurnOff : PairOnly [.br, .ic, .ne] p d (sideTurnOff p high t d) := by
  have h1 := pairOnly_mono (l := [.br, .ic, .ne]) (pairOnly_turnOff p high t d) (by decide)
  exact pairOnly_ite (pairOnly_ite (pairOnly_then (pairOnly_bpFlag p _ 10) (by simp) h1) h1) (pairOnly_refl _ p d)

theorem pairOnly_countEaten : PairOnly [.br, .ic, .ne] p d (countEaten p d) :=
  pairOnly_then (pairOnly_bpFlag p _ 9) (by simp) (pairOnly_mono (pairOnly_updPair d p _) (by decide))

theorem pairOnly_minPulseFilter : PairOnly [.br, .ic, .ne] p d (minPulseFilter p high t d) := by
  have h1 := fun f => pairOnly_mono (l := [.br, .ic, .ne]) (pairOnly_updPair d p f) (by decide)
  have h2 := fun (c : Bool) f => pairOnly_ite (c := c = true) (pairOnly_then (pairOnly_countEaten p _) (by simp) (h1 f)) (h1 f)
  exact pairOnly_ite (pairOnly_ite (pairOnly_then (pairOnly_bpFlag p _ 13) (by simp)
    (pairOnly_then (pairOnly_updPair _ p _) (by simp) (h2 _ _))) (h2 _ _)) (pairOnly_refl _ p d)

theorem pairOnly_refreshStart : PairOnly [.br, .ic, .ne] p d (refreshStart p t d) :=
  pairOnly_ite (pairOnly_then (pairOnly_bpFlag p _ 11) (by simp) (pairOnly_then (pairOnly_updPair _ p _) (by simp)
    (pairOnly_mono (pairOnly_turnOff p true t d) (by decide)))) (pairOnly_refl _ p d)

theorem pairOnly_refreshEnd : PairOnly [.br] p d (refreshEnd p t d) := by
  have h1 := fun f => pairOnly_updPair d p f
  unfold refreshEnd
  dsimp only
  split
  · exact pairOnly_ite (pairOnly_ite (pairOnly_then (pairOnly_turnOff p false t _) (by simp) (h1 _)) (h1 _)) (pairOnly_refl _ p d)
  · exact pairOnly_refl _ p d
end

section
variable {p t : Nat} {high : Bool} {d : Dev}

theorem sideTurnOn_allowed (h : mayTurnOn (d.pair p) high t = true) : sideTurnOn p high t d = turnOn p high t d := if_pos h
theorem sideTurnOn_notAllowed (h : mayTurnOn (d.pair p) high t = false) : sideTurnOn p high t d = d := if_neg (by simp [h])
theorem sideTurnOff_notAllowed (h : mayTurnOff (d.pair p) high t = false) : sideTurnOff p high t d = d := if_neg (by simp [h])

/-- A side that turns off, and HELD if the hold kept it past the end of its command (R197). -/
theorem sideTurnOff_high (h : mayTurnOff (d.pair p) true t = true) :
    ((sideTurnOff p true t d).pair p).high = { (d.pair p).high with on := false, offAt := t, dead := deadFall d (d.pair p) } ∧
    ((sideTurnOff p true t d).pair p).low = (d.pair p).low ∧
    (endedAt (d.pair p) true < (d.pair p).high.onAt + minPulse (d.pair p) → bit ((sideTurnOff p true t d).pair p).stat 10 = true) := by
  unfold sideTurnOff
  simp only [h, if_true]
  split
  · simp
  next hlate => simp [hlate]

theorem sideTurnOff_low (h : mayTurnOff (d.pair p) false t = true) :
    ((sideTurnOff p false t d).pair p).low = { (d.pair p).low with on := false, offAt := t, dead := deadRise d (d.pair p) } ∧
    ((sideTurnOff p false t d).pair p).high = (d.pair p).high ∧
    (endedAt (d.pair p) false < (d.pair p).low.onAt + minPulse (d.pair p) → bit ((sideTurnOff p false t d).pair p).stat 10 = true) :=
      by
  unfold sideTurnOff
  simp only [h, if_true, Bool.false_eq_true, if_false]
  split
  · simp
  next hlate => simp [hlate]

/-! ### Commands and filters (R190, R193, R197) -/

theorem takeCommand_high : ((takeCommand p true d).pair p).fhigh.q = (d.chOut (2 * p)).lvl ∧
    ((takeCommand p true d).pair p).fhigh.qAt = (d.chOut (2 * p)).lvlAt ∧
    ((takeCommand p true d).pair p).filtc =
      if (d.chOut (2 * p)).lvlAt < (d.pair p).fhigh.qAt + minPulse (d.pair p) then incSat (d.pair p).filtc else (d.pair p).filtc := by
  simp only [takeCommand, countFilt, if_true]
  split <;> simp

theorem minPulseFilter_notDue (h : filterDue (d.pair p) (if high then (d.pair p).fhigh else (d.pair p).flow) t = false) :
    minPulseFilter p high t d = d := if_neg (by simp [h])
theorem minPulseFilter_notInterlocked (h : bpInter (d.pair p) = false) : minPulseFilter p false t d = d := if_neg (by simp [h])

/-- The commanded level that the filter of the high side lets pass, with what it counts: EATEN and OVERLAP. -/
theorem minPulseFilter_high (hdue : filterDue (d.pair p) (d.pair p).fhigh t = true) (hen : pairEnabled (d.pair p) = true) :
    ((minPulseFilter p true t d).pair p).fhigh = { (d.pair p).fhigh with qf := (d.pair p).fhigh.q, qfAt := t } ∧
    ((minPulseFilter p true t d).pair p).high = (d.pair p).high ∧ ((minPulseFilter p true t d).pair p).flow = (d.pair p).flow ∧
    ((d.pair p).state = .run → (d.pair p).fhigh.qf = true → (d.pair p).high.on = false → (d.pair p).high.onAt < (d.pair p).fhigh.qfAt →
      ((minPulseFilter p true t d).pair p).eatc = incSat (d.pair p).eatc ∧ bit ((minPulseFilter p true t d).pair p).stat 9 = true) ∧
    ((minPulseFilter p true t d).pair p).ovlc =
      if overlapAt (d.pair p) t = true ∧ (d.pair p).fhigh.q = true then incSat (d.pair p).ovlc else (d.pair p).ovlc := by
  simp only [minPulseFilter, hdue, hen, Bool.true_or, Bool.and_true, if_true, Bool.and_eq_true]
  refine ⟨?_, ?_, ?_, fun hrun hcmd hoff hat => ?_, ?_⟩
  case refine_4 =>
    simp only [hrun, hcmd, hoff, hat]
    split <;> simp [countEaten, bit_orBit_other]
  all_goals
    repeat' split
    all_goals simp [countEaten]

/-! ### Refresh (R198) -/

theorem refreshStart_notDue (h : refreshDue (d.pair p) t = false) : refreshStart p t d = d := if_neg (by simp [h])

theorem refreshStart_due (h : refreshDue (d.pair p) t = true) :
    ((refreshStart p t d).pair p).refresh = some t ∧ ((refreshStart p t d).pair p).refc = incSat (d.pair p).refc ∧
    ((refreshStart p t d).pair p).high.on = false ∧ ((refreshStart p t d).pair p).high.offAt = t ∧
    bit ((refreshStart p t d).pair p).stat 11 = true := by
  simp [refreshStart, h]

/-- The end of a refresh: the low side stays on if it is commanded on. -/
theorem refreshEnd_due {r : Nat} (hr : (d.pair p).refresh = some r)
    (ht : r + (d.pair p).high.dead + fld (d.pair p).bspw 0 12 * 64 ≤ t) :
    ((refreshEnd p t d).pair p).refresh = none ∧
    ((refreshEnd p t d).pair p).low.on = ((d.pair p).low.on && qLow (d.pair p)) ∧
    ((refreshEnd p t d).pair p).high = (d.pair p).high := by
  simp only [refreshEnd, hr, ht, if_true]
  split
  next h =>
    rw [Bool.and_eq_true, Bool.not_eq_true'] at h
    simp [h.1]
  next h =>
    cases hq : qLow (d.pair p) <;> simp_all

theorem refreshEnd_notDue
    (h : ∀ r, (d.pair p).refresh = some r → t < r + (d.pair p).high.dead + fld (d.pair p).bspw 0 12 * 64) :
    refreshEnd p t d = d := by
  unfold refreshEnd
  dsimp only
  split
  next r hr => exact if_neg (Nat.not_le.mpr (h r hr))
  next => rfl
end

/-- Settles O40: each command by whether R195, the filter or the refresh lets it act, and the commanded level as its channel has it. -/
theorem sidesOfAPair : Obligations.SidesOfAPair := by
  unfold Obligations.SidesOfAPair
  intro s p t hp hl
  refine ⟨fun high h => exec_idle (exec_wellFormed (i := .sideTurnOn p high t) hp rfl) (sideTurnOn_notAllowed h),
    fun high h => exec_idle (exec_wellFormed (i := .sideTurnOff p high t) hp rfl) (sideTurnOff_notAllowed h),
    fun h => runs_to hl (exec_wellFormed (i := .sideTurnOn p true t) hp rfl) (sideTurnOn_allowed h) (pairOnly_turnOn p true t _).frame
      ⟨turnOn_high .., ?_, (pairOnly_turnOn ..).others⟩,
    fun h => runs_to hl (exec_wellFormed (i :=
      .sideTurnOn p false t) hp rfl) (sideTurnOn_allowed h) (pairOnly_turnOn p false t _).frame
      ⟨turnOn_low .., ?_, (pairOnly_turnOn ..).others⟩,
    fun h => ?_, fun h => ?_, takeCommand_high,
    fun h => exec_idle (exec_wellFormed (i := .minPulseFilter p false t) hp rfl) (minPulseFilter_notInterlocked h),
    fun high h => exec_idle (exec_wellFormed (i := .minPulseFilter p high t) hp rfl) (minPulseFilter_notDue h),
    fun hdue hen => ?_, fun h => exec_idle (exec_wellFormed (i := .refreshStart p t) hp rfl) (refreshStart_notDue h), fun h => ?_,
    fun r hr ht => ?_, fun h => exec_idle (exec_wellFormed (i := .refreshEnd p t) hp rfl) (refreshEnd_notDue h)⟩
  · exact (congrArg (·.low.on) (turnOn_high ..)).trans (mayTurnOn_high h).2
  · exact (congrArg (·.high.on) (turnOn_low ..)).trans (mayTurnOn_low h).2
  · obtain ⟨hoff, hother, hheld⟩ := sideTurnOff_high h
    exact runs_dev hl (exec_wellFormed (i := .sideTurnOff p true t) hp rfl) (pairOnly_sideTurnOff p true t _).frame
      ⟨hoff, hother, hheld, (pairOnly_sideTurnOff p true t _).others⟩
  · obtain ⟨hoff, hother, hheld⟩ := sideTurnOff_low h
    exact runs_dev hl (exec_wellFormed (i := .sideTurnOff p false t) hp rfl) (pairOnly_sideTurnOff p false t _).frame
      ⟨hoff, hother, hheld, (pairOnly_sideTurnOff p false t _).others⟩
  · obtain ⟨hq, hside, hlow, heaten, hovl⟩ := minPulseFilter_high hdue hen
    exact runs_dev hl (exec_wellFormed (i := .minPulseFilter p true t) hp rfl) (pairOnly_minPulseFilter p true t _).frame
      ⟨hq, hside, hlow, heaten, hovl, (pairOnly_minPulseFilter p true t _).others⟩
  · obtain ⟨hr, hcount, hoff, hat, hflag⟩ := refreshStart_due h
    exact runs_dev hl (exec_wellFormed (i := .refreshStart p t) hp rfl) (pairOnly_refreshStart p t _).frame
      ⟨hr, hcount, hoff, hat, hflag, (pairOnly_refreshStart p t _).others⟩
  · obtain ⟨hend, hlow, hhigh⟩ := refreshEnd_due hr ht
    exact runs_dev hl (exec_wellFormed (i := .refreshEnd p t) hp rfl) (pairOnly_refreshEnd p t _).frame
      ⟨hend, hlow, hhigh, (pairOnly_refreshEnd p t _).others⟩

end Sys2Proof.Proofs
end

section
/-! SUPPORT. The end of STOPPING, the trip inputs and the start of a TCLK for a pair (R166, R196, R199–R205). -/

namespace Sys2Proof.Proofs

open Sys2Proof Sys2Proof.Machine Sys2Proof.Laws

/-! ### A disable and the end of STOPPING (R200) -/

section
variable {p : Nat} {d : Dev}

@[simp] theorem markPair_pair (m : Nat) : (markPair p d).pair m = d.pair m := rfl
theorem sameBut_markPair (p : Nat) (d : Dev) : SameBut [.gs] d (markPair p d) := by
  intro v b hb
  cases b
  case gs => simp at hb
  all_goals rfl

theorem sameBut_forEach_mem {α : Type} {l : List Part} (f : α → Dev → Dev) (as : List α) (h : ∀ a ∈ as, ∀ d, SameBut l d (f a d))
    (d : Dev) : SameBut l d (forEach as f d) := by
  unfold forEach
  induction as generalizing d with
  | nil => exact sameBut_refl l d
  | cons a as ih =>
    exact sameBut_trans (h a List.mem_cons_self d) (ih (fun b hb => h b (List.mem_cons_of_mem a hb)) (f a d))

/-- The level of a channel with a pin of its own (R187). -/
theorem sameBut_takeIdle_local {n : Nat} (hn : n < 256) (d : Dev) : SameBut [.ch] d (takeIdle n d) := by
  have hlocal : isRemote n = false := decide_eq_false (by omega)
  refine sameBut_ite (fun _ => sameBut_refl _ d) fun _ => ?_
  unfold putLevel
  simp only [hlocal, Bool.false_eq_true, if_false]
  exact sameBut_ite (fun _ => sameBut_refl _ d) fun _ => sameBut_updOut d n _

/-- After the change of owners itself only the levels of the pins change. -/
theorem sameBut_withOwner_local {ps : List Nat} (hps : ∀ n ∈ ps, n < 256) (f : Dev → Dev) (d : Dev) :
    SameBut [.ch] (f d) (withOwner ps f d) :=
  sameBut_forEach_mem _ ps (fun n hn x => sameBut_ite (fun _ => sameBut_refl _ x) fun _ => sameBut_takeIdle_local (hps n hn) x) (f d)

theorem takeIdle_other {n m : Nat} (h : m ≠ n) (d : Dev) : (takeIdle n d).chOut m = d.chOut m := by
  unfold takeIdle
  split
  · rfl
  · exact putLevel_other h

/-- R166: the stage of the first of two pins starts at IDL when the pin's owner changes. -/
theorem withOwner_first {f : Dev → Dev} {n m : Nat} (hm : n ≠ m) (ho : pinOwner d n ≠ pinOwner (f d) n)
    (he : emulated (f d) n = false) : ((withOwner [n, m] f d).chOut n).lvl = outIdl ((f d).chOut n) := by
  have hfirst : ((takeIdle n (f d)).chOut n).lvl = outIdl ((f d).chOut n) := by
    obtain ⟨k, hk⟩ := putLevel_same n (outIdl ((f d).chOut n)) (f d).tb.time (f d).localNow (f d)
    rw [takeIdle_puts he, hk]
  simp only [withOwner, forEach, List.foldl_cons, List.foldl_nil, if_neg ho]
  split
  · exact hfirst
  · rw [takeIdle_other hm, hfirst]

theorem pinOwner_pair {n : Nat} (h : pairEnabled (d.pair (n / 2)) = true) : pinOwner d n = .pair (n / 2) := if_pos h

theorem pinOwner_notPair {n : Nat} (h : pairEnabled (d.pair (n / 2)) = false) (q : Nat) : pinOwner d n ≠ .pair q := by
  simp only [pinOwner, h]
  split
  · simp_all
  · split
    · split <;> simp
    · split <;> simp

/-- R200: the pair is DISABLED, with EN 0. -/
def disabledPair (x : Pair) : Pair := { x with ctl := clrBit x.ctl 31, state := .disabled }

theorem stoppingDone_notYet (h : (d.pair p).state ≠ .stopping ∨ (d.pair p).high.on = true ∨ (d.pair p).low.on = true) :
    stoppingDone p d = d := if_neg (by grind)

theorem pairEnabled_iff (x : Pair) : pairEnabled x = true ↔ x.state ≠ .disabled := by simp [pairEnabled]

section
variable (hs : (d.pair p).state = .stopping) (hh : (d.pair p).high.on = false) (hl : (d.pair p).low.on = false)
include hs hh hl

theorem stoppingDone_off :
    stoppingDone p d = withOwner [2 * p, 2 * p + 1] (fun d => markPair p (d.updPair p disabledPair)) d := if_pos (by simp [hs, hh, hl])

/-- What the end of STOPPING changes besides the levels of the two pins. -/
theorem sameBut_stoppingDone_ch (hp : isPair p = true) : SameBut [.ch] (markPair p (d.updPair p disabledPair)) (stoppingDone p d) := by
  have hlt : p < 128 := of_decide_eq_true hp
  rw [stoppingDone_off hs hh hl]
  refine sameBut_withOwner_local (fun n hn => ?_) _ d
  simp only [List.mem_cons, List.not_mem_nil, or_false] at hn
  omega

theorem sameBut_stoppingDone (hp : isPair p = true) : SameBut [.br, .gs, .ch] d (stoppingDone p d) :=
  sameBut_then (sameBut_stoppingDone_ch hs hh hl hp) (by simp)
    (sameBut_then (sameBut_markPair p _) (by simp) (sameBut_mono (sameBut_updPair d p _) (by simp)))

theorem stoppingDone_gs (hp : isPair p = true) : (stoppingDone p d).gs = (markPair p (d.updPair p disabledPair)).gs :=
  kept_gs (sameBut_stoppingDone_ch hs hh hl hp) (by decide)

theorem stoppingDone_pair (m : Nat) : (stoppingDone p d).pair m = (d.updPair p disabledPair).pair m := by
  rw [stoppingDone_off hs hh hl, Dev.pair, pairs_withOwner]
  rfl

/-- The pair's pins pass to their channels at IDL. -/
theorem stoppingDone_lvl (he : emulated d (2 * p) = false) : ((stoppingDone p d).chOut (2 * p)).lvl = outIdl (d.chOut (2 * p)) := by
  have hdiv : 2 * p / 2 = p := by omega
  have hbefore : pinOwner d (2 * p) = .pair p := by
    rw [pinOwner_pair (by simp [hdiv, pairEnabled_iff, hs]), hdiv]
  rw [stoppingDone_off hs hh hl]
  refine withOwner_first (by omega) (hbefore ▸ (pinOwner_notPair ?_ p).symm) he
  simp [hdiv, pairEnabled, disabledPair]
end
end

/-! ### Trip inputs (R202, R203, R205) -/

/-- Outside the parts `l` the devices are the same, and so are all pairs and the trip inputs but `j`. -/
structure TripOnly (l : List Part) (j : Nat) (d e : Dev) : Prop where
  frame : SameBut l d e
  pairs : e.br.pairs = d.br.pairs
  others : ∀ m, m ≠ j → e.trip m = d.trip m

section
variable {j : Nat} {d : Dev}

theorem tripOnly_then {l m : List Part} {e f : Dev} (h : TripOnly m j d e) (hs : ∀ b ∈ m, b ∈ l) (k : TripOnly l j f d) : TripOnly l j f e :=
  ⟨sameBut_then h.frame hs k.frame, h.pairs.trans k.pairs, fun n hn => (h.others n hn).trans (k.others n hn)⟩

theorem tripOnly_updTrip (d : Dev) (j : Nat) (f) : TripOnly [.br] j d (d.updTrip j f) :=
  ⟨sameBut_updTrip d j f, rfl, fun m hm => updTrip_other d j m f hm⟩

/-- An event of the input leaves its state alone. -/
@[simp] theorem tiEvent_trip (i m : Nat) (d : Dev) : (tiEvent i d).trip m = d.trip m :=
  kept_trip (sameBut_memberEvent _ d) (by decide) m

theorem tripOnly_tiEvent (i : Nat) (f) (d : Dev) : TripOnly [.br, .ic, .ne] j d (tiEvent i (d.updTrip j f)) :=
  ⟨sameBut_then (sameBut_memberEvent _ _) (by simp) (sameBut_mono (sameBut_updTrip d j f) (by simp)),
    pairs_memberEvent _ _, fun m hm => (tiEvent_trip i m _).trans (updTrip_other d j m f hm)⟩

@[simp] theorem acceptTrip_same (i : Nat) (d : Dev) : (acceptTrip i d).trip i = { d.trip i with
    latch := true, tripc := incSat (d.trip i).tripc, hit := true, acceptedIn := some d.tb.tclk } := by
  rw [acceptTrip, tiEvent_trip, updTrip_same]

theorem tripOnly_acceptTrip (j : Nat) (d : Dev) : TripOnly [.br, .ic, .ne] j d (acceptTrip j d) := tripOnly_tiEvent j _ d

theorem tripAccepted_due (h : tripDue (d.trip j) = true) :
    tripAccepted j d = acceptTrip j (d.updTrip j fun t => { t with level := true }) := if_pos h
theorem tripAccepted_notDue (h : tripDue (d.trip j) = false) : tripAccepted j d = d := if_neg (by simp [h])

theorem tripOnly_tripAccepted (h : tripDue (d.trip j) = true) : TripOnly [.br, .ic, .ne] j d (tripAccepted j d) := by
  rw [tripAccepted_due h]
  exact tripOnly_then (tripOnly_acceptTrip j _) (by simp)
    ⟨sameBut_mono (sameBut_updTrip d j _) (by simp), rfl, (tripOnly_updTrip d j _).others⟩

theorem latchClear_inactive (h : (d.trip j).level = false) (ha : (d.trip j).acceptedIn ≠ some d.tb.tclk) :
    latchClear j d = d.updTrip j fun t => { t with latch := false } := (if_neg (by simp [h])).trans (if_neg ha)
theorem latchClear_sameTclk (h : (d.trip j).level = false) (ha : (d.trip j).acceptedIn = some d.tb.tclk) : latchClear j d = d :=
  (if_neg (by simp [h])).trans (if_pos ha)
theorem latchClear_active (h : (d.trip j).level = true) :
    latchClear j d = tiEvent j (d.updTrip j fun t => { t with clrRej := true }) := if_pos h

theorem tripInactive_inactive (h : (d.trip j).active = 0) : tripInactive j d = d.updTrip j fun t => { t with level :=
  false } := if_pos h
theorem tripInactive_active (h : (d.trip j).active ≠ 0) : tripInactive j d = d := if_neg h

/-- A command that changes one input. -/
theorem runs_updTrip {i : Instr} {s : State} {g : Dev → Dev} {f : Trip → Trip} (hl : live s.core.dev = true)
    (hx : exec i s = whenLiveDev true g s) (hg : g s.core.dev = s.core.dev.updTrip j f) : Runs i s [.br] fun t =>
      t.core.dev.trip j = f (s.core.dev.trip j) ∧ t.core.dev.br.pairs = s.core.dev.br.pairs ∧
      ∀ m, m ≠ j → t.core.dev.trip m = s.core.dev.trip m :=
  runs_to hl hx hg (sameBut_updTrip _ j f) ⟨updTrip_same .., rfl, fun m hm => updTrip_other _ j m f hm⟩

/-- A sample touches neither the software trip nor the count of trips. -/
theorem sampleTrip_soft (x : Trip) : (sampleTrip x).soft = x.soft := by
  unfold sampleTrip
  repeat' split
  all_goals rfl
theorem sampleTrip_tripc (x : Trip) : (sampleTrip x).tripc = x.tripc := by
  unfold sampleTrip
  repeat' split
  all_goals rfl

/-- A software trip is accepted at the start of the TCLK after it, whatever the sample of that TCLK is. -/
theorem openTrip_soft (h : (d.trip j).soft = true) :
    ((openTrip j d).trip j).latch = true ∧ ((openTrip j d).trip j).hit = true ∧ ((openTrip j d).trip j).soft = false ∧
    ((openTrip j d).trip j).tripc = incSat (d.trip j).tripc ∧ ((openTrip j d).trip j).acceptedIn = some d.tb.tclk := by
  simp only [openTrip, h, if_true, acceptTrip_same, updTrip_same, updTrip_tb, sampleTrip_soft, sampleTrip_tripc, and_self]

/-- A sample inside a window counts as inactive before the input has been active as long as a window lasts (R202). -/
theorem sampleTrip_inWindow {x : Trip} (he : tiEn x = true) (hb : (x.ball == bit x.ctl 30) = true) (hw : x.window = true)
    (hr : x.raw < tiBlank x) : (sampleTrip x).active = 0 ∧ (x.raw = 0 → (sampleTrip x).blankc = incSat x.blankc) := by
  simp +contextual [sampleTrip, he, hb, hw, Nat.not_le.mpr hr]
theorem sampleTrip_noWindow {x : Trip} (he : tiEn x = true) (hb : (x.ball == bit x.ctl 30) = true) (hw : x.window = false) :
    (sampleTrip x).active = min 16 (x.active + 1) ∧ (sampleTrip x).blankc = x.blankc := by
  simp [sampleTrip, he, hb, hw]
end

/-! ### The start of a TCLK for a pair (R196, R199–R205) -/

/-- A pair at the start of a TCLK that no write of the TCLK before enables, resumes or disables. -/
def openedPair (x : Pair) : Pair :=
  { x with dtrNow := x.dtr, dtfNow := x.dtf, enableDue := false, resumeDue := false, stopDue := false }

/-- With nothing due only the dead times change. -/
theorem openedPair_notDue {x : Pair} (he : x.enableDue = false) (hr : x.resumeDue = false) :
    openedPair x = { x with dtrNow := x.dtr, dtfNow := x.dtf, stopDue := false } := by
  cases x
  cases he
  cases hr
  rfl

section
variable {p : Nat} {d : Dev}

/-- A side that a trip turns off if it is on is off (R203). -/
theorem trippedSide_off (x : Side) (t dead : Nat) : (if x.on then ⟨false, x.onAt, t, dead⟩ else x : Side).on = false := by
  split
  · rfl
  next h => simpa using h

/-- An enabled pair that trips: TRIPPED, both sides off, counted and flagged (R203). -/
theorem tripPair_enabled (h : pairEnabled (d.pair p) = true) :
    ((tripPair p d).pair p).state = .tripped ∧ ((tripPair p d).pair p).high.on = false ∧ ((tripPair p d).pair p).low.on = false ∧
    ((tripPair p d).pair p).tripc = incSat (d.pair p).tripc ∧ bit ((tripPair p d).pair p).stat 12 = true := by
  unfold tripPair
  simp only [h, Bool.not_true, Bool.false_eq_true, if_false, markPair_pair]
  split <;> simp [trippedSide_off]

theorem enterStopping_enabled (h : pairEnabled (d.pair p) = true) :
    (enterStopping p d).pair p = { d.pair p with state := .stopping, refresh := none, stopAt := d.localNow } := by
  rw [enterStopping, if_pos h, markPair_pair, updPair_same]

theorem enterStopping_disabled (h : pairEnabled (d.pair p) = false) : enterStopping p d = d := if_neg (by simp [h])

variable (he : (d.pair p).enableDue = false) (hr : (d.pair p).resumeDue = false)
include he hr

/-- A trip accepted in the TCLK before takes the pair; a disable is not due. -/
theorem openPair_hit (hh : ∃ j < 16, Nat.testBit (bpMask (d.pair p)) j = true ∧ (d.trip j).hit = true) (hs : (d.pair p).stopDue = false) :
    openPair p d = tripPair p (d.updPair p openedPair) := by
  have hany : ((List.range 16).any fun i => Nat.testBit (bpMask (d.pair p)) i && (d.trip i).hit) = true := by
    obtain ⟨j, hj, hm⟩ := hh
    exact List.any_eq_true.mpr ⟨j, List.mem_range.mpr hj, by simp [hm]⟩
  simp only [openPair, he, hr, hs, hany, Bool.false_eq_true, if_false, if_true]
  rfl

/-- Without one only a disable acts. -/
theorem openPair_noHit (hh : ∀ j, j < 16 → Nat.testBit (bpMask (d.pair p)) j = false ∨ (d.trip j).hit = false) :
    openPair p d = if (d.pair p).stopDue then enterStopping p (d.updPair p openedPair) else d.updPair p openedPair := by
  have hany : ((List.range 16).any fun i => Nat.testBit (bpMask (d.pair p)) i && (d.trip i).hit) = false :=
    List.any_eq_false.mpr fun j hj => by
      rw [Bool.not_eq_true, Bool.and_eq_false_iff]
      exact hh j (List.mem_range.mp hj)
  simp only [openPair, he, hr, hany, Bool.false_eq_true, if_false]
  rfl
end

/-- Settles O41: each command by the case of its operation, and the start of a TCLK by what the TCLK before it has ordered: a trip,
a disable, or nothing. -/
theorem stopsAndTrips : Obligations.StopsAndTrips := by
  unfold Obligations.StopsAndTrips
  refine ⟨fun s hl => ⟨fun p hp => ⟨?_, fun hs hh hlow => ?_, fun h => ?_⟩,
      fun j hj => ⟨fun h => ?_, fun h => ?_, ?_, fun h ha => ?_, fun h ha => ?_, fun h => ?_, fun h => ?_, fun h => ?_⟩⟩,
    fun d p he hr => ⟨fun j hj hm hh hen hs => ?_, fun hh => ⟨fun hs => ?_, fun hs hen => ?_, fun hs hd => ?_⟩⟩,
    fun d j hs => openTrip_soft hs, fun x he hb => ⟨sampleTrip_inWindow he hb, sampleTrip_noWindow he hb⟩⟩
  · exact runs_to hl (exec_wellFormed (i := .dis p) hp rfl) rfl (sameBut_updPair _ p _)
      ⟨updPair_same .., rfl, fun m hm => updPair_other _ p m _ hm⟩
  · exact runs_dev hl (exec_wellFormed (i := .stoppingDone p) hp rfl) (sameBut_stoppingDone hs hh hlow hp)
      ⟨(stoppingDone_pair hs hh hlow p).trans (updPair_same ..), stoppingDone_lvl hs hh hlow,
        congrArg (·.fifo) (stoppingDone_gs hs hh hlow hp), congrArg (·.slugs) (stoppingDone_gs hs hh hlow hp),
        fun m hm => (stoppingDone_pair hs hh hlow m).trans (updPair_other _ p m _ hm)⟩
  · exact exec_idle (exec_wellFormed (i := .stoppingDone p) hp rfl) (stoppingDone_notYet h)
  · exact exec_idle (exec_wellFormed (i := .tripAccepted j) hj rfl) (tripAccepted_notDue h)
  · exact runs_dev hl (exec_wellFormed (i := .tripAccepted j) hj rfl) (tripOnly_tripAccepted h).frame
      ⟨by simp [tripAccepted_due h], (tripOnly_tripAccepted h).pairs, (tripOnly_tripAccepted h).others⟩
  · exact runs_updTrip hl (exec_wellFormed (i := .swtrip j) hj rfl) rfl
  · exact runs_updTrip hl (exec_wellFormed (i := .latchClear j) hj rfl) (latchClear_inactive h ha)
  · exact exec_idle (exec_wellFormed (i := .latchClear j) hj rfl) (latchClear_sameTclk h ha)
  · have hrej := tripOnly_tiEvent (j := j) j (fun t => { t with clrRej := true }) s.core.dev
    exact runs_to hl (exec_wellFormed (i := .latchClear j) hj rfl) (latchClear_active h) hrej.frame
      ⟨by simp, hrej.pairs, hrej.others⟩
  · exact runs_updTrip hl (exec_wellFormed (i := .tripLevelInactive j) hj rfl) (tripInactive_inactive h)
  · exact exec_idle (exec_wellFormed (i := .tripLevelInactive j) hj rfl) (tripInactive_active h)
  · rw [openPair_hit he hr ⟨j, hj, hm, hh⟩ hs]
    have htrip := tripPair_enabled (p := p) (d := d.updPair p openedPair) (by rw [updPair_same]; exact hen)
    rwa [updPair_same] at htrip
  · rw [openPair_noHit he hr hh, if_neg (by simp [hs]), updPair_same, openedPair_notDue he hr, ← hs]
  · rw [openPair_noHit he hr hh, if_pos hs, enterStopping_enabled (by rw [updPair_same]; exact hen), updPair_same,
      openedPair_notDue he hr]
    rfl
  · rw [openPair_noHit he hr hh, if_pos hs, enterStopping_disabled (by simp [openedPair, pairEnabled, hd]), updPair_same]
    exact hd

end Sys2Proof.Proofs
end

section
/-! SUPPORT. The counter commands case by case, and the operations of a group of eight that touch the counters of its members alone
(R213, R215–R219). -/

namespace Sys2Proof.Proofs

open Sys2Proof Sys2Proof.Machine Sys2Proof.Laws

section
variable {d : Dev} {n : Nat}

/-! ### Start, stop and TSTART of one counter -/

/-- A counter with a start by a command in the present TCLK. -/
def started (c : ChanCnt) : ChanCnt := { c with go := true, goCmd := true }

theorem counterStart_disabled (h : chEn (d.chOut n) = false) : counterStart n d = tsFlag n 2 d := by
  simp [counterStart, counterStartBy, h]

theorem counterStop_disabled (h : chEn (d.chOut n) = false) : counterStop n d = tsFlag n 2 d := by
  simp [counterStop, h]

theorem counterTstart_disabled (h : chEn (d.chOut n) = false) : counterTstart n d = tsFlag n 2 d := by
  simp [counterTstart, h]

theorem counterStop_halts (hen : chEn (d.chOut n) = true) (hs : isStage d n = false) :
    counterStop n d = d.updCnt n fun c => { c with halt := true, tstart := false } := by
  simp [counterStop, hen, hs]

theorem counterTstart_waits (hen : chEn (d.chOut n) = true) (hs : isStage d n = false) :
    counterTstart n d = d.updCnt n fun c => { c with tstart := !c.halt } := by
  simp [counterTstart, hen, hs]

/-- A one-shot that runs ignores a start that neither retriggers it nor comes with a reset (R213, R218). -/
theorem counterStart_busy (hm : chMode (d.chOut n) = 2) (hrun : (d.chCnt n).run = true) (ht : lnkRtrg (d.chCnt n) = false)
    (hr : (d.chCnt n).rst = false) : counterStart n d = tsFlag n 2 d := by
  simp [counterStart, counterStartBy, hm, hrun, ht, hr]

theorem counterStart_starts (hen : chEn (d.chOut n) = true) (hs : isStage d n = false)
    (h : chMode (d.chOut n) ≠ 2 ∨ (d.chCnt n).run = false ∨ lnkRtrg (d.chCnt n) = true) :
    counterStart n d = d.updCnt n started := by
  have hfree : (chMode (d.chOut n) == 2 && (d.chCnt n).run && !lnkRtrg (d.chCnt n) && !(d.chCnt n).rst) = false := by
    rcases h with h | h | h <;> simp [h]
  simp only [counterStart, counterStartBy, hen, hs, hfree, Bool.not_true, Bool.or_self, Bool.false_eq_true, if_false, Bool.or_true]
  rfl

/-- Whatever a start meets, it changes one counter, and not the actions of its events. -/
theorem counterStart_updates (n : Nat) (d : Dev) : ∃ f : ChanCnt → ChanCnt,
    (∀ c, (f c).mactNow = c.mactNow) ∧ counterStart n d = d.updCnt n f := by
  unfold counterStart counterStartBy
  dsimp only
  repeat' split
  all_goals
    refine ⟨_, ?_, rfl⟩
    exact fun _ => rfl

theorem sameBut_counterStart_ch (n : Nat) (d : Dev) : SameBut [.ch] d (counterStart n d) := by
  obtain ⟨f, -, hf⟩ := counterStart_updates n d
  rw [hf]
  exact sameBut_updCnt d n f

theorem sameBut_groupStart_ch (n mask : Nat) (d : Dev) : SameBut [.ch] d (groupStart n mask d) :=
  sameBut_forEach _ (fun _ x => sameBut_ite (fun _ => sameBut_counterStart_ch _ x) fun _ => sameBut_refl _ x) _ d

/-! ### Their effect in the next TCLK -/

theorem runNext_halted (h : (d.chCnt n).halt = true) : runNext d n = false := by simp [runNext, h]

/-- A start runs the counter, unless a stop of the same TCLK prevails (R218). -/
theorem runNext_started (hen : chEn (d.chOut n) = true) (hs : isStage d n = false) (hg : (d.chCnt n).go = true) :
    runNext d n = !(d.chCnt n).halt := by
  cases hh : (d.chCnt n).halt <;> simp [runNext, hen, hs, hg, hh]

/-- The start of a one-shot puts its count to 0 (R213). -/
theorem nextCnt_oneShot (hm : chMode (d.chOut n) = 2) (hg : (d.chCnt n).go = true) (hh : (d.chCnt n).halt = false)
    (hw : (d.chCnt n).wr = none) : (nextCnt d n).cnt = 0 := by
  simp [nextCnt, countNext, hm, hg, hh, hw]

/-- After a reset an up-down count begins in its up phase (R212, R217). -/
theorem nextCnt_reset_up (h : (d.chCnt n).rst = true) : (nextCnt d n).down = false := by simp [nextCnt, downNext, h]

end

/-! ### An operation on one counter -/

/-- The control words and the actions of the events are the same in both devices. -/
structure SameSetup (d e : Dev) : Prop where
  ctl (m : Nat) : (e.chOut m).ctl = (d.chOut m).ctl
  mact (m : Nat) : (e.chCnt m).mactNow = (d.chCnt m).mactNow

/-- An operation on counter `q` leaves the set-up of every channel and all other counters. -/
structure OnlyCounter (q : Nat) (d e : Dev) : Prop extends SameSetup d e where
  others (m : Nat) (h : m ≠ q) : e.chCnt m = d.chCnt m

section
variable {d e x : Dev} {n q : Nat}

theorem sameSetup_refl (d : Dev) : SameSetup d d := ⟨fun _ => rfl, fun _ => rfl⟩

theorem sameSetup_trans (h : SameSetup d e) (k : SameSetup e x) : SameSetup d x :=
  ⟨fun m => (k.ctl m).trans (h.ctl m), fun m => (k.mact m).trans (h.mact m)⟩

theorem SameSetup.en (h : SameSetup d e) (m : Nat) : chEn (e.chOut m) = chEn (d.chOut m) := congrArg (bit · 31) (h.ctl m)

theorem SameSetup.mode (h : SameSetup d e) (m : Nat) : chMode (e.chOut m) = chMode (d.chOut m) := congrArg (fld · 29 2) (h.ctl m)

theorem SameSetup.stage (h : SameSetup d e) (m : Nat) : isStage e m = isStage d m := congrArg (· == 3) (h.mode m)

theorem SameSetup.above (h : SameSetup d e) (m : Nat) : stageAbove e m = stageAbove d m := by
  rw [stageAbove, stageAbove, h.stage, h.en]

theorem onlyCounter_trans (h : OnlyCounter q d e) (k : OnlyCounter q e x) : OnlyCounter q d x :=
  ⟨sameSetup_trans h.toSameSetup k.toSameSetup, fun m hm => (k.others m hm).trans (h.others m hm)⟩

theorem onlyCounter_of_ch (q : Nat) (h : e.ch = d.ch) : OnlyCounter q d e :=
  ⟨⟨fun m => by rw [Dev.chOut, h, Dev.chOut], fun m => by rw [Dev.chCnt, h, Dev.chCnt]⟩,
    fun m _ => by rw [Dev.chCnt, h, Dev.chCnt]⟩

theorem onlyCounter_updCnt (q : Nat) (d : Dev) {f : ChanCnt → ChanCnt} (hf : ∀ c, (f c).mactNow = c.mactNow) :
    OnlyCounter q d (d.updCnt q f) := by
  refine ⟨⟨fun m => rfl, fun m => ?_⟩, fun m hm => updCnt_other d q m f hm⟩
  by_cases hm : m = q
  · rw [hm, updCnt_same, hf]
  · rw [updCnt_other d q m f hm]

theorem onlyCounter_updOut (q : Nat) (d : Dev) {f : ChanOut → ChanOut} (hf : ∀ o, (f o).ctl = o.ctl) :
    OnlyCounter q d (d.updOut q f) := by
  refine ⟨⟨fun m => ?_, fun m => rfl⟩, fun m _ => rfl⟩
  by_cases hm : m = q
  · rw [hm, updOut_same, hf]
  · rw [updOut_other d q m f hm]

theorem onlyCounter_counterStart (q : Nat) (d : Dev) : OnlyCounter q d (counterStart q d) := by
  obtain ⟨f, hm, hf⟩ := counterStart_updates q d
  rw [hf]
  exact onlyCounter_updCnt q d hm

/-! ### A reset of one counter (R217) -/

theorem chanEvent_ch (n ev : Nat) (d : Dev) : (chanEvent n ev d).ch = d.ch := kept_ch (sameBut_chanEvent n ev d) (by decide)

theorem reloadTerminal_chCnt (n m : Nat) (d : Dev) : (reloadTerminal n d).chCnt m = d.chCnt m := by
  unfold reloadTerminal
  split <;> rfl

theorem onlyCounter_reloadTerminal (n : Nat) (d : Dev) : OnlyCounter n d (reloadTerminal n d) := by
  unfold reloadTerminal
  split
  · exact onlyCounter_updOut n d fun _ => rfl
  · exact onlyCounter_of_ch n rfl

/-- The event TM of a reset, which a counter that is terminal or reset already does not raise again. -/
def resetRecord (n : Nat) (d : Dev) : Dev := if (d.chCnt n).term || (d.chCnt n).rst then d else chanEvent n 0 d

theorem resetOne_eq (n : Nat) (d : Dev) :
    resetOne n d = reloadTerminal n ((resetRecord n d).updCnt n fun c => { c with rst := true }) := rfl

theorem resetRecord_ch (n : Nat) (d : Dev) : (resetRecord n d).ch = d.ch := by
  unfold resetRecord
  split
  · rfl
  · exact chanEvent_ch n 0 d

theorem resetOne_same (n : Nat) (d : Dev) : (resetOne n d).chCnt n = { d.chCnt n with rst := true } := by
  rw [resetOne_eq, reloadTerminal_chCnt, updCnt_same, Dev.chCnt, resetRecord_ch, Dev.chCnt]

theorem onlyCounter_resetOne (n : Nat) (d : Dev) : OnlyCounter n d (resetOne n d) := by
  rw [resetOne_eq]
  refine onlyCounter_trans (onlyCounter_of_ch n (resetRecord_ch n d)) (onlyCounter_trans ?_ (onlyCounter_reloadTerminal n _))
  exact onlyCounter_updCnt n _ fun _ => rfl

theorem stagesAbove_none (h : stageAbove d n = none) : stagesAbove d n = [] := by simp [stagesAbove, h]

theorem counterReset_disabled (h : chEn (d.chOut n) = false) : counterReset n d = tsFlag n 2 d := by
  simp [counterReset, counterResetBy, h]

/-- A reset of an enabled counter without stages, whose terminal count selects no action. -/
theorem counterReset_single (hen : chEn (d.chOut n) = true) (hs : isStage d n = false) (ha : stageAbove d n = none)
    (hm : fld (d.chCnt n).mactNow 21 3 = 0) :
    counterReset n d = if (d.chCnt n).term then resetOne n d else markTerminal n (resetOne n d) := by
  have hby : counterResetBy n d = resetOne n d := by simp [counterResetBy, hen, hs, stagesAbove_none ha, forEach]
  have hnone : eventAction n 0 (markTerminal n (resetOne n d)) = markTerminal n (resetOne n d) :=
    eventAction_terminalNone (by rw [markTerminal_chCnt, resetOne_same]; exact hm)
  simp only [counterReset, hen, hby, Bool.not_true, Bool.false_or]
  exact if_congr Iff.rfl rfl hnone

theorem counterReset_same (hen : chEn (d.chOut n) = true) (hs : isStage d n = false) (ha : stageAbove d n = none)
    (hm : fld (d.chCnt n).mactNow 21 3 = 0) : (counterReset n d).chCnt n = { d.chCnt n with rst := true, term := true } := by
  rw [counterReset_single hen hs ha hm]
  split
  case isTrue h => rw [resetOne_same, ← h]
  case isFalse => rw [markTerminal_chCnt, resetOne_same]

theorem onlyCounter_counterReset (hs : isStage d n = false) (ha : stageAbove d n = none)
    (hm : fld (d.chCnt n).mactNow 21 3 = 0) : OnlyCounter n d (counterReset n d) := by
  cases hen : chEn (d.chOut n)
  · rw [counterReset_disabled hen]
    exact onlyCounter_updCnt n d fun _ => rfl
  · rw [counterReset_single hen hs ha hm]
    split
    · exact onlyCounter_resetOne n d
    · exact onlyCounter_trans (onlyCounter_resetOne n d) (onlyCounter_updCnt n _ fun _ => rfl)

end

/-! ### The members of a group that a mask selects (R219) -/

/-- Operation `f` on the positions `l` that `mask` selects, in the group that begins at channel `base`. -/
def overGroup (f : Nat → Dev → Dev) (base mask : Nat) (l : List Nat) (d : Dev) : Dev :=
  forEach l (fun p d => if Nat.testBit mask p then f (base + p) d else d) d

theorem groupStart_eq (n mask : Nat) (d : Dev) : groupStart n mask d = overGroup counterStart (n / 8 * 8) mask (List.range 8) d := rfl

theorem groupReset_eq (n mask : Nat) (d : Dev) : groupReset n mask d = overGroup counterReset (n / 8 * 8) mask (List.range 8) d := rfl

/-- In the set-up of `d`, operation `f` on a member of the group at `base` touches its counter alone. -/
def ActsOnMembers (f : Nat → Dev → Dev) (base : Nat) (d : Dev) : Prop :=
  ∀ p, p < 8 → ∀ e, SameSetup d e → OnlyCounter (base + p) e (f (base + p) e)

section
variable {f : Nat → Dev → Dev} {base mask : Nat} {d : Dev} (hf : ActsOnMembers f base d)
include hf

/-- Only the counters of selected members change. -/
theorem overGroup_keeps {l : List Nat} (hl : ∀ p ∈ l, p < 8) {e : Dev} (he : SameSetup d e) :
    SameSetup d (overGroup f base mask l e) ∧
    ∀ m, (∀ p ∈ l, Nat.testBit mask p = true → m ≠ base + p) → (overGroup f base mask l e).chCnt m = e.chCnt m := by
  induction l generalizing e with
  | nil => exact ⟨he, fun _ _ => rfl⟩
  | cons p l ih =>
    have hrest : ∀ q ∈ l, q < 8 := fun q hq => hl q (List.mem_cons_of_mem p hq)
    by_cases hb : Nat.testBit mask p = true
    · have hone := hf p (hl p List.mem_cons_self) e he
      have hcons : overGroup f base mask (p :: l) e = overGroup f base mask l (f (base + p) e) :=
        congrArg (overGroup f base mask l) (if_pos hb)
      obtain ⟨hsetup, hothers⟩ := ih hrest (sameSetup_trans he hone.toSameSetup)
      rw [hcons]
      exact ⟨hsetup, fun m hm => (hothers m fun q hq => hm q (List.mem_cons_of_mem p hq)).trans
        (hone.others m (hm p List.mem_cons_self hb))⟩
    · have hcons : overGroup f base mask (p :: l) e = overGroup f base mask l e :=
        congrArg (overGroup f base mask l) (if_neg hb)
      obtain ⟨hsetup, hothers⟩ := ih hrest he
      rw [hcons]
      exact ⟨hsetup, fun m hm => hothers m fun q hq => hm q (List.mem_cons_of_mem p hq)⟩

/-- A selected member finds its counter and the set-up as they stood, and what its operation makes of the counter remains. -/
theorem overGroup_member {p : Nat} (hp : p < 8) (hb : Nat.testBit mask p = true) : ∃ e, SameSetup d e ∧
    e.chCnt (base + p) = d.chCnt (base + p) ∧
    (overGroup f base mask (List.range 8) d).chCnt (base + p) = (f (base + p) e).chCnt (base + p) := by
  obtain ⟨l₁, l₂, hrange⟩ := List.append_of_mem (List.mem_range.mpr hp)
  have hlt : ∀ q ∈ l₁ ++ p :: l₂, q < 8 := fun q hq => List.mem_range.mp (hrange ▸ hq)
  have hnot : p ∉ l₁ ++ l₂ := (List.nodup_middle.mp (hrange ▸ List.nodup_range)).notMem
  have hfresh : ∀ q ∈ l₁ ++ l₂, Nat.testBit mask q = true → base + p ≠ base + q := fun q hq _ heq =>
    hnot (by rwa [show p = q by omega])
  obtain ⟨hsetup, hbefore⟩ := overGroup_keeps (mask := mask) hf (l := l₁) (fun q hq => hlt q (by simp [hq])) (sameSetup_refl d)
  have hone := hf p hp _ hsetup
  obtain ⟨-, hafter⟩ := overGroup_keeps (mask := mask) hf (l := l₂) (fun q hq => hlt q (by simp [hq]))
    (sameSetup_trans hsetup hone.toSameSetup)
  refine ⟨overGroup f base mask l₁ d, hsetup, hbefore _ fun q hq => hfresh q (by simp [hq]), ?_⟩
  have hsplit : overGroup f base mask (List.range 8) d = overGroup f base mask l₂ (f (base + p) (overGroup f base mask l₁ d)) := by
    rw [hrange]
    simp [overGroup, forEach, hb]
  rw [hsplit]
  exact hafter _ fun q hq => hfresh q (by simp [hq])

end

section
variable {d : Dev} {n : Nat} {mask : Nat}

theorem actsOnMembers_counterStart (base : Nat) (d : Dev) : ActsOnMembers counterStart base d := fun _ _ e _ =>
  onlyCounter_counterStart _ e

/-- In a group without stages no member has one above it (R220). -/
theorem stageAbove_group (h : ∀ k, k < 8 → isStage d (n / 8 * 8 + k) = false) {p : Nat} (hp : p < 8) :
    stageAbove d (n / 8 * 8 + p) = none := by
  refine if_neg fun habove => ?_
  simp only [Bool.and_eq_true, decide_eq_true_eq] at habove
  obtain ⟨⟨hlast, hstage⟩, -⟩ := habove
  exact Bool.false_ne_true ((h (p + 1) (by omega)).symm.trans hstage)

theorem actsOnMembers_counterReset (h : ∀ k, k < 8 → isStage d (n / 8 * 8 + k) = false)
    (hm : ∀ k, k < 8 → fld (d.chCnt (n / 8 * 8 + k)).mactNow 21 3 = 0) : ActsOnMembers counterReset (n / 8 * 8) d :=
  fun p hp _ he => onlyCounter_counterReset (by rw [he.stage, h p hp]) (by rw [he.above, stageAbove_group h hp])
    (by rw [he.mact, hm p hp])

/-- A channel outside the group, or that the mask leaves out, is none of its selected members. -/
theorem ne_selected {m : Nat} (h : m / 8 ≠ n / 8 ∨ Nat.testBit mask (m % 8) = false) :
    ∀ p ∈ List.range 8, Nat.testBit mask p = true → m ≠ n / 8 * 8 + p := by
  intro p hp hb heq
  have hlt := List.mem_range.mp hp
  rcases h with h | h
  · omega
  · rw [show m % 8 = p by omega, hb] at h
    exact Bool.noConfusion h

end

end Sys2Proof.Proofs
end

section
/-! SUPPORT. A software capture with its chain, and the end of a capture window (R226, R229, R230). -/

namespace Sys2Proof.Proofs

open Sys2Proof Sys2Proof.Machine Sys2Proof.Laws

section
variable {d : Dev} {n : Nat}

/-! ### The counts of the higher stages (R226) -/

theorem lt_of_stageAbove {a : Nat} (h : stageAbove d n = some a) : n < a := by
  unfold stageAbove at h
  split at h
  · injection h with h
    omega
  · exact nomatch h

/-- Every stage of the list is above `n`. -/
theorem lt_of_mem_stagesAbove {m : Nat} (h : m ∈ stagesAbove d n) : n < m := by
  unfold stagesAbove at h
  split at h
  · exact nomatch h
  · next a ha =>
    have hna := lt_of_stageAbove ha
    split at h
    · simp only [List.mem_singleton] at h
      omega
    · next b hb =>
      have hab := lt_of_stageAbove hb
      split at h
      · simp only [List.mem_cons, List.not_mem_nil, or_false] at h
        omega
      · next c hc =>
        have hbc := lt_of_stageAbove hc
        simp only [List.mem_cons, List.not_mem_nil, or_false] at h
        omega

/-- Stage `k` latches its count into its CAP0. -/
def latchCount (k : Nat) (d : Dev) : Dev := d.updCap k fun c => { c with cap0 := (d.chCnt k).cnt }

/-- The stages `l` latch their counts. -/
def latchCounts (l : List Nat) (d : Dev) : Dev := forEach l latchCount d

theorem latchChain_first (n : Nat) (d : Dev) : latchChain n false d = if isStage d n then d else latchCounts (stagesAbove d n) d := rfl

theorem latchCounts_chCnt (l : List Nat) (d : Dev) (m : Nat) : (latchCounts l d).chCnt m = d.chCnt m := by
  induction l generalizing d with
  | nil => rfl
  | cons k l ih => exact ih (latchCount k d)

theorem latchCounts_chOut (l : List Nat) (d : Dev) (m : Nat) : (latchCounts l d).chOut m = d.chOut m := by
  induction l generalizing d with
  | nil => rfl
  | cons k l ih => exact ih (latchCount k d)

theorem latchCounts_other {l : List Nat} {m : Nat} (h : m ∉ l) (d : Dev) : (latchCounts l d).chCap m = d.chCap m := by
  induction l generalizing d with
  | nil => rfl
  | cons k l ih =>
    obtain ⟨hk, hl⟩ := not_or.mp (mt List.mem_cons.mpr h)
    exact (ih hl (latchCount k d)).trans (updCap_other d k m _ hk)

theorem latchCounts_member {l : List Nat} {m : Nat} (h : m ∈ l) (d : Dev) : ((latchCounts l d).chCap m).cap0 = (d.chCnt m).cnt := by
  induction l generalizing d with
  | nil => exact nomatch h
  | cons k l ih =>
    by_cases hl : m ∈ l
    · exact ih hl (latchCount k d)
    · obtain rfl : m = k := (List.mem_cons.mp h).resolve_right hl
      exact (congrArg ChanCap.cap0 (latchCounts_other hl (latchCount m d))).trans (by rw [latchCount, updCap_same])

theorem sameBut_latchFirst (n : Nat) (d : Dev) : SameBut [.ch] d (latchChain n false d) := by
  rw [latchChain_first]
  exact sameBut_ite (fun _ => sameBut_refl _ d) fun _ => sameBut_forEach latchCount (fun k x => sameBut_updCap x k _) _ d

theorem latchFirst_chCnt (m : Nat) : (latchChain n false d).chCnt m = d.chCnt m := by
  rw [latchChain_first]
  split
  · rfl
  · exact latchCounts_chCnt _ d m

theorem latchFirst_chOut (m : Nat) : (latchChain n false d).chOut m = d.chOut m := by
  rw [latchChain_first]
  split
  · rfl
  · exact latchCounts_chOut _ d m

theorem latchFirst_other {m : Nat} (h : m ∉ stagesAbove d n) : (latchChain n false d).chCap m = d.chCap m := by
  rw [latchChain_first]
  split
  · rfl
  · exact latchCounts_other h d

theorem latchFirst_stage {m : Nat} (hs : isStage d n = false) (h : m ∈ stagesAbove d n) :
    ((latchChain n false d).chCap m).cap0 = (d.chCnt m).cnt := by
  rw [latchChain_first, if_neg (by simp [hs])]
  exact latchCounts_member h d

/-! ### The capture itself (R226, R227, R230) -/

/-- CAPS after a capture into CAP0 of generation `sg` and grain 0: FULL0, and over an unread capture OVR0 and one more overrun. -/
def capsStored (caps : W32) (sg : BitVec 2) : W32 :=
  let s := orBit (setFld (setFld caps 16 6 0) 22 2 sg.toNat) 1
  if bit caps 1 then setFld (orBit s 3) 8 8 (min 255 (fld s 8 8 + 1)) else s

theorem capsStored_full (caps : W32) (sg : BitVec 2) : bit (capsStored caps sg) 1 = true := by
  unfold capsStored
  dsimp only
  split
  · rw [bit_setFld_other _ _ _ _ _ (by decide), bit_orBit_other _ _ _ (by decide), bit_orBit_same _ 1 (by decide)]
  · exact bit_orBit_same _ 1 (by decide)

theorem capsStored_overrun {caps : W32} {sg : BitVec 2} (h : bit caps 1 = true) : bit (capsStored caps sg) 3 = true := by
  unfold capsStored
  dsimp only
  rw [if_pos h, bit_setFld_other _ _ _ _ _ (by decide), bit_orBit_same _ 3 (by decide)]

/-- The capture registers of channel `n` with the present count, stamp and generation in CAP0. -/
def firstStored (n : Nat) (d : Dev) : Dev := d.updCap n fun c =>
  { c with caps := capsStored c.caps d.tb.stepGen, cap0 := (d.chCnt n).cnt, cap0t := d.tb.time }

/-- A software capture into CAP0 whose event selects nothing: the registers, those of the chain, and the flag of the capture. -/
def softCaptured (n : Nat) (d : Dev) : Dev := tsFlag n 1 (latchChain n false (firstStored n d))

theorem sameBut_softCaptured (n : Nat) (d : Dev) : SameBut [.ch] d (softCaptured n d) :=
  sameBut_trans (sameBut_updCap d n _) (sameBut_trans (sameBut_latchFirst n _) (sameBut_updCnt _ n _))

theorem softCapture_ignored (h : (isRemote n || !bit (d.chCap n).capc 31) = true) : softCapture n d = d := if_pos h

/-- The event CP selects no action and no interrupt record. -/
theorem counterEvent_captureNone (ha : fld (d.chCnt n).mactNow 3 3 = 0)
    (hb : bit (Bank.get 0 d.ic.chev (n / 8)) (4 * (n % 8) + 3) = false) : counterEvent n 3 d = d := by
  have haction : eventAction n 3 d = d := by simp [eventAction, matchAction, ha]
  rw [counterEvent, chanEvent_unselected hb, haction, ite_self]

theorem softCapture_stores (h : (isRemote n || !bit (d.chCap n).capc 31) = false) (hm : fld (d.chCap n).capc 28 2 = 0)
    (hw : bit (d.chCap n).caps 6 = false)
    (hev : chTakes (d.chOut n) = true →
      fld (d.chCnt n).mactNow 3 3 = 0 ∧ bit (Bank.get 0 d.ic.chev (n / 8)) (4 * (n % 8) + 3) = false) :
    softCapture n d = softCaptured n d := by
  have hevent : counterEvent n 3 (softCaptured n d) = softCaptured n d := by
    have hout : (softCaptured n d).chOut n = d.chOut n := (updCnt_chOut ..).trans (latchFirst_chOut n)
    have hmact : ((softCaptured n d).chCnt n).mactNow = (d.chCnt n).mactNow := by
      rw [softCaptured, tsFlag, updCnt_same, latchFirst_chCnt, firstStored, updCap_chCnt]
    cases ht : chTakes (d.chOut n)
    · exact if_pos (by rw [hout, ht]; rfl)
    · obtain ⟨ha, hb⟩ := hev ht
      exact counterEvent_captureNone (by rw [hmact, ha]) (by rw [kept_ic (sameBut_softCaptured n d) (by decide), hb])
  have htake : softCapture n d = counterEvent n 3 (softCaptured n d) := by
    simp only [softCapture, h, Bool.false_eq_true, if_false, takeCapture, hm, storeCapture, hw, Bool.false_and]
    rfl
  rw [htake, hevent]

theorem softCaptured_same (n : Nat) (d : Dev) : (softCaptured n d).chCap n =
    { d.chCap n with caps := capsStored (d.chCap n).caps d.tb.stepGen, cap0 := (d.chCnt n).cnt, cap0t := d.tb.time } := by
  have hself : n ∉ stagesAbove (firstStored n d) n := fun h => Nat.lt_irrefl n (lt_of_mem_stagesAbove h)
  exact (updCnt_chCap ..).trans ((latchFirst_other hself).trans (updCap_same d n _))

theorem softCaptured_flag (n : Nat) (d : Dev) : bit ((softCaptured n d).chCnt n).tstat 1 = true := by
  rw [softCaptured, tsFlag, updCnt_same]
  exact bit_orBit_same _ 1 (by decide)

theorem softCaptured_stage {m : Nat} (hs : isStage d n = false) (h : m ∈ stagesAbove d n) :
    ((softCaptured n d).chCap m).cap0 = (d.chCnt m).cnt := latchFirst_stage (d := firstStored n d) hs h

theorem softCaptured_other {m : Nat} (hm : m ≠ n) (h : m ∉ stagesAbove d n) : (softCaptured n d).chCap m = d.chCap m :=
  (latchFirst_other (d := firstStored n d) h).trans (updCap_other d n m _ hm)

/-! ### The end of a capture window (R229) -/

theorem windowClose_closed (h : bit (d.chCap n).caps 6 = false) : windowClose n d = d := if_neg (by simp [h])

/-- The capture registers of a window that has closed. -/
def windowClosed (c : ChanCap) : ChanCap :=
  { c with caps := clrBit c.caps 6, closeFirst := false, closeAt := match c.closeAt with
    | some p => some p
    | none => some c.openAt }

/-- The occurrences that opened the window of channel `n`. -/
def windowOpeners (n : Nat) (d : Dev) : List Occurrence := d.gs.flight.filter fun o => o.chan == n && o.act == 4 && o.begun

theorem windowClose_open (h : bit (d.chCap n).caps 6 = true) :
    windowClose n d = forEach (windowOpeners n d) reportComplete (d.updCap n windowClosed) := if_pos h

theorem reportsComplete_slugs (l : List Occurrence) (d : Dev) : (forEach l reportComplete d).gs.slugs = d.gs.slugs := by
  induction l generalizing d with
  | nil => rfl
  | cons o l ih => exact ih (reportComplete o d)

theorem windowClose_chCap (h : bit (d.chCap n).caps 6 = true) (m : Nat) :
    (windowClose n d).chCap m = (d.updCap n windowClosed).chCap m := by
  rw [windowClose_open h]
  exact kept_chCap (sameBut_forEach reportComplete sameBut_reportComplete _ _) (by decide) m

end

end Sys2Proof.Proofs
end

section
/-! O39: the counter commands, software captures and capture windows (R213, R215, R217–R219, R226, R229, R230). -/

namespace Sys2Proof.Proofs

open Sys2Proof Sys2Proof.Machine Sys2Proof.Laws

/-- A command that is ignored with START_IGN (R215). -/
theorem runs_startIgn {i : Instr} {s : State} {n : Nat} {g : Dev → Dev} (hl : live s.core.dev = true)
    (hx : exec i s = whenLiveDev true g s) (hg : g s.core.dev = tsFlag n 2 s.core.dev) :
    Runs i s [.ch] fun t =>
      t.core.dev.chCnt n = { s.core.dev.chCnt n with tstat := orBit (s.core.dev.chCnt n).tstat 2 } ∧
      t.core.dev.ch.out = s.core.dev.ch.out ∧ ∀ m, m ≠ n → t.core.dev.chCnt m = s.core.dev.chCnt m :=
  runs_to hl hx hg (sameBut_updCnt _ n _) ⟨updCnt_same _ n _, rfl, fun m hm => updCnt_other _ n m _ hm⟩

section
variable {s : State} {n : Nat} (hn : isChannel n = true) (hl : live s.core.dev = true)
include hn hl

theorem counterStop_runs (hen : chEn (s.core.dev.chOut n) = true) (hs : isStage s.core.dev n = false) :
    Runs (.counterStop n) s [.ch] fun t =>
      t.core.dev.chCnt n = { s.core.dev.chCnt n with halt := true, tstart := false } ∧ (nextCnt t.core.dev n).run = false ∧
      ∀ m, m ≠ n → t.core.dev.chCnt m = s.core.dev.chCnt m := by
  have hcnt := updCnt_same s.core.dev n fun c => { c with halt := true, tstart := false }
  exact runs_to hl (exec_wellFormed hn rfl) (counterStop_halts hen hs) (sameBut_updCnt _ n _)
    ⟨hcnt, runNext_halted (congrArg ChanCnt.halt hcnt), fun m hm => updCnt_other _ n m _ hm⟩

theorem counterStart_runs (hen : chEn (s.core.dev.chOut n) = true) (hs : isStage s.core.dev n = false)
    (h : chMode (s.core.dev.chOut n) ≠ 2 ∨ (s.core.dev.chCnt n).run = false ∨ lnkRtrg (s.core.dev.chCnt n) = true) :
    Runs (.counterStart n) s [.ch] fun t =>
      t.core.dev.chCnt n = { s.core.dev.chCnt n with go := true, goCmd := true } ∧
      (nextCnt t.core.dev n).run = !(s.core.dev.chCnt n).halt ∧
      (chMode (s.core.dev.chOut n) = 2 → (s.core.dev.chCnt n).halt = false → (s.core.dev.chCnt n).wr = none →
        (nextCnt t.core.dev n).cnt = 0) ∧
      t.core.dev.ch.out = s.core.dev.ch.out ∧ ∀ m, m ≠ n → t.core.dev.chCnt m = s.core.dev.chCnt m := by
  have hcnt := updCnt_same s.core.dev n started
  have hgo : ((s.core.dev.updCnt n started).chCnt n).go = true := congrArg ChanCnt.go hcnt
  have hhalt : ((s.core.dev.updCnt n started).chCnt n).halt = (s.core.dev.chCnt n).halt := by rw [hcnt, started]
  have hrun := runNext_started (d := s.core.dev.updCnt n started) hen hs hgo
  exact runs_to hl (exec_wellFormed hn rfl) (counterStart_starts hen hs h) (sameBut_updCnt _ n _)
    ⟨hcnt, hrun.trans (congrArg (! ·) hhalt),
      fun hm hh hw => nextCnt_oneShot hm hgo (hhalt.trans hh) ((congrArg ChanCnt.wr hcnt).trans hw),
      rfl, fun m hm => updCnt_other _ n m _ hm⟩

theorem gstart_runs {mask : Nat} (hmask : mask < 256) (hs : ∀ k, k < 8 → isStage s.core.dev (n / 8 * 8 + k) = false) :
    Runs (.gstart n mask) s [.ch] fun t =>
      (∀ k, k < 8 → Nat.testBit mask k = true → chEn (s.core.dev.chOut (n / 8 * 8 + k)) = true →
        chMode (s.core.dev.chOut (n / 8 * 8 + k)) ≠ 2 ∨ (s.core.dev.chCnt (n / 8 * 8 + k)).run = false →
        (t.core.dev.chCnt (n / 8 * 8 + k)) = { s.core.dev.chCnt (n / 8 * 8 + k) with go := true, goCmd := true } ∧
        (nextCnt t.core.dev (n / 8 * 8 + k)).run = !(s.core.dev.chCnt (n / 8 * 8 + k)).halt) ∧
      (∀ m, m / 8 ≠ n / 8 ∨ Nat.testBit mask (m % 8) = false → t.core.dev.chCnt m = s.core.dev.chCnt m) := by
  have hacts := actsOnMembers_counterStart (n / 8 * 8) s.core.dev
  obtain ⟨hsetup, hothers⟩ := overGroup_keeps (mask := mask) hacts (l := List.range 8) (fun _ => List.mem_range.mp) (sameSetup_refl _)
  refine runs_to hl (exec_wellFormed (Bool.and_eq_true_iff.mpr ⟨hn, decide_eq_true hmask⟩) rfl) (groupStart_eq n mask _)
    (sameBut_groupStart_ch n mask _) ⟨fun k hk hb hen hfree => ?_, fun m hm => hothers m (ne_selected hm)⟩
  obtain ⟨e, he, hsame, hmember⟩ := overGroup_member hacts hk hb
  have hstart : counterStart (n / 8 * 8 + k) e = e.updCnt (n / 8 * 8 + k) started :=
    counterStart_starts (by rw [he.en, hen]) (by rw [he.stage, hs k hk]) (by rw [he.mode, hsame]; exact hfree.imp_right .inl)
  rw [hstart, updCnt_same, hsame] at hmember
  refine ⟨hmember, (runNext_started ?_ ?_ ?_).trans ?_⟩
  · rw [hsetup.en, hen]
  · rw [hsetup.stage, hs k hk]
  · exact congrArg ChanCnt.go hmember
  · exact (congrArg (fun c : ChanCnt => !c.halt) hmember :)

theorem greset_runs {mask : Nat} (hmask : mask < 256) (hs : ∀ k, k < 8 → isStage s.core.dev (n / 8 * 8 + k) = false)
    (hm : ∀ k, k < 8 → fld (s.core.dev.chCnt (n / 8 * 8 + k)).mactNow 21 3 = 0) :
    Runs (.greset n mask) s [.ch, .ic, .ne] fun t =>
      (∀ k, k < 8 → Nat.testBit mask k = true → chEn (s.core.dev.chOut (n / 8 * 8 + k)) = true →
        (t.core.dev.chCnt (n / 8 * 8 + k)) = { s.core.dev.chCnt (n / 8 * 8 + k) with rst := true, term := true } ∧
        ((s.core.dev.chCnt (n / 8 * 8 + k)).wr = none → (nextCnt t.core.dev (n / 8 * 8 + k)).cnt = 0) ∧
        (nextCnt t.core.dev (n / 8 * 8 + k)).down = false) ∧
      (∀ m, m / 8 ≠ n / 8 ∨ Nat.testBit mask (m % 8) = false → t.core.dev.chCnt m = s.core.dev.chCnt m) := by
  have hacts := actsOnMembers_counterReset hs hm
  obtain ⟨-, hothers⟩ := overGroup_keeps (mask := mask) hacts (l := List.range 8) (fun _ => List.mem_range.mp) (sameSetup_refl _)
  refine runs_to hl (exec_wellFormed (Bool.and_eq_true_iff.mpr ⟨hn, decide_eq_true hmask⟩) rfl) (groupReset_eq n mask _)
    (sameBut_groupReset n mask _) ⟨fun k hk hb hen => ?_, fun m hm => hothers m (ne_selected hm)⟩
  obtain ⟨e, he, hsame, hmember⟩ := overGroup_member hacts hk hb
  rw [counterReset_same (by rw [he.en, hen]) (by rw [he.stage, hs k hk]) (by rw [he.above, stageAbove_group hs hk])
    (by rw [he.mact, hm k hk]), hsame] at hmember
  have hrst := congrArg ChanCnt.rst hmember
  exact ⟨hmember, fun hw => nextCnt_zeroed ((congrArg ChanCnt.wr hmember).trans hw) (.inr hrst), nextCnt_reset_up hrst⟩

theorem swcap_runs (h : (isRemote n || !bit (s.core.dev.chCap n).capc 31) = false) (hm : fld (s.core.dev.chCap n).capc 28 2 = 0)
    (hw : bit (s.core.dev.chCap n).caps 6 = false)
    (hev : chTakes (s.core.dev.chOut n) = true →
      fld (s.core.dev.chCnt n).mactNow 3 3 = 0 ∧ bit (Bank.get 0 s.core.dev.ic.chev (n / 8)) (4 * (n % 8) + 3) = false) :
    Runs (.swcap n) s [.ch] fun t =>
      (t.core.dev.chCap n).cap0 = (s.core.dev.chCnt n).cnt ∧ (t.core.dev.chCap n).cap0t = s.core.dev.tb.time ∧
      bit (t.core.dev.chCap n).caps 1 = true ∧ (t.core.dev.chCap n).cap1 = (s.core.dev.chCap n).cap1 ∧
      (bit (s.core.dev.chCap n).caps 1 = true → bit (t.core.dev.chCap n).caps 3 = true) ∧
      bit (t.core.dev.chCnt n).tstat 1 = true ∧
      (isStage s.core.dev n = false → ∀ m, m ∈ stagesAbove s.core.dev n → (t.core.dev.chCap m).cap0 = (s.core.dev.chCnt m).cnt) ∧
      ∀ m, m ≠ n → m ∉ stagesAbove s.core.dev n → t.core.dev.chCap m = s.core.dev.chCap m := by
  have hcap := softCaptured_same n s.core.dev
  have hcaps := congrArg ChanCap.caps hcap
  exact runs_to hl (exec_wellFormed hn rfl) (softCapture_stores h hm hw hev) (sameBut_softCaptured n _)
    ⟨congrArg ChanCap.cap0 hcap, congrArg ChanCap.cap0t hcap, (congrArg (bit · 1) hcaps).trans (capsStored_full _ _),
      (congrArg ChanCap.cap1 hcap :), fun hfull => (congrArg (bit · 3) hcaps).trans (capsStored_overrun hfull),
      softCaptured_flag n _, fun hs _ => softCaptured_stage hs, fun _ => softCaptured_other⟩

theorem captureWindowClose_runs (h : bit (s.core.dev.chCap n).caps 6 = true) :
    Runs (.captureWindowClose n) s [.ch, .gs] fun t =>
      bit (t.core.dev.chCap n).caps 6 = false ∧ (t.core.dev.chCap n).closeFirst = false ∧
      (t.core.dev.chCap n).cap0 = (s.core.dev.chCap n).cap0 ∧ (t.core.dev.chCap n).cap1 = (s.core.dev.chCap n).cap1 ∧
      t.core.dev.gs.slugs = s.core.dev.gs.slugs ∧ ∀ m, m ≠ n → t.core.dev.chCap m = s.core.dev.chCap m := by
  have hcap : (windowClose n s.core.dev).chCap n = windowClosed (s.core.dev.chCap n) :=
    (windowClose_chCap h n).trans (updCap_same _ n _)
  have hslugs : (windowClose n s.core.dev).gs.slugs = s.core.dev.gs.slugs := by
    rw [windowClose_open h, reportsComplete_slugs]
    rfl
  exact runs_to hl (exec_wellFormed hn rfl) rfl (sameBut_windowClose n _)
    ⟨(congrArg (fun c : ChanCap => bit c.caps 6) hcap).trans (bit_clrBit_same _ 6), congrArg ChanCap.closeFirst hcap,
      (congrArg ChanCap.cap0 hcap :), (congrArg ChanCap.cap1 hcap :), hslugs,
      fun m hm => (windowClose_chCap h m).trans (updCap_other _ n m _ hm)⟩

end

/-- Settles O39: each command by its case; over a group by what its operation makes of one member, which those before it leave. -/
theorem counterCommands : Obligations.CounterCommands := by
  intro s n hn hl
  refine ⟨fun i hi hen => ?_,
    fun hen hs => ⟨counterStop_runs hn hl hen hs, ?_, fun hm hrun ht hr => ?_, counterStart_runs hn hl hen hs⟩,
    fun mask hmask hs => ⟨gstart_runs hn hl hmask hs, greset_runs hn hl hmask hs⟩,
    fun h => ?_, swcap_runs hn hl, fun h => ?_, captureWindowClose_runs hn hl⟩
  · simp only [List.mem_cons, List.not_mem_nil, or_false] at hi
    rcases hi with rfl | rfl | rfl
    · exact runs_startIgn hl (exec_wellFormed hn rfl) (counterStart_disabled hen)
    · exact runs_startIgn hl (exec_wellFormed hn rfl) (counterStop_disabled hen)
    · exact runs_startIgn hl (exec_wellFormed hn rfl) (counterTstart_disabled hen)
  · exact runs_updCnt hl (exec_wellFormed (i := .counterTstart n) hn rfl) (counterTstart_waits hen hs)
  · exact runs_updCnt hl (exec_wellFormed (i := .counterStart n) hn rfl) (counterStart_busy hm hrun ht hr)
  · exact exec_idle (exec_wellFormed (i := .swcap n) hn rfl) (softCapture_ignored h)
  · exact exec_idle (exec_wellFormed (i := .captureWindowClose n) hn rfl) (windowClose_closed h)

end Sys2Proof.Proofs
end

section
/-! SUPPORT. Commands on one compositor (R233–R249): that they leave the other compositors alone, what a flag and an event change, and
how such a command completes. -/

namespace Sys2Proof.Proofs

open Sys2Proof Sys2Proof.Machine Sys2Proof.Laws

/-- Outside the parts `l` the devices are the same, and so are their compositors but `k`. -/
structure CompOnly (l : List Part) (k : Nat) (d e : Dev) : Prop where
  frame : SameBut l d e
  others : ∀ m, m ≠ k → e.comp m = d.comp m

section
variable {l m : List Part} {k : Nat} {d e f : Dev}

theorem compOnly_refl (l : List Part) (k : Nat) (d : Dev) : CompOnly l k d d := ⟨sameBut_refl l d, fun _ _ => rfl⟩
theorem compOnly_mono (h : CompOnly m k d e) (hs : ∀ b ∈ m, b ∈ l) : CompOnly l k d e := ⟨sameBut_mono h.frame hs, h.others⟩
theorem compOnly_then (h : CompOnly m k e f) (hs : ∀ b ∈ m, b ∈ l) (h0 : CompOnly l k d e) : CompOnly l k d f :=
  ⟨sameBut_then h.frame hs h0.frame, fun n hn => (h.others n hn).trans (h0.others n hn)⟩

theorem compOnly_updComp (d : Dev) (k : Nat) (g) : CompOnly [.comps] k d (d.updComp k g) :=
  ⟨sameBut_updComp d k g, fun n hn => updComp_other d k n g hn⟩
end

/-- The compositor with bit `b` of its STAT set. -/
def withFlag (b : Nat) (c : Comp) : Comp := { c with r := { c.r with stat := orBit c.r.stat b } }

section
variable (k b n : Nat) (d : Dev)

@[simp] theorem memberEvent_comp (m : Nat) : (memberEvent n d).comp m = d.comp m := kept_comp (sameBut_memberEvent n d) (by decide) m

theorem compOnly_memberEvent : CompOnly [.ic, .ne] k d (memberEvent n d) := ⟨sameBut_memberEvent n d, fun m _ => memberEvent_comp n d m⟩

@[simp] theorem cpFlag_same : (cpFlag k b d).comp k = withFlag b (d.comp k) := (cpFlag_comp k b k d).trans (updComp_same d k _)

theorem compOnly_cpFlag : CompOnly [.comps, .ic, .ne] k d (cpFlag k b d) :=
  ⟨sameBut_cpFlag k b d, fun m hm => (cpFlag_comp k b m d).trans (updComp_other d k m _ hm)⟩

theorem bit_withFlag {b : Nat} (hb : b < 32) (c : Comp) : bit (withFlag b c).r.stat b = true := bit_orBit_same _ b hb

theorem compOnly_cpFlag_updComp (f) : CompOnly [.comps, .ic, .ne] k d (cpFlag k b (d.updComp k f)) :=
  compOnly_then (compOnly_cpFlag k b _) (by decide) (compOnly_mono (compOnly_updComp d k f) (by decide))

/-- A flag other than ILLOP, SELF_HALT and SIG fires no source (R298). -/
theorem cpFlag_silent (hb : b < 8 ∨ 10 < b) : cpFlag k b d = d.updComp k (withFlag b) := if_neg (by simp; omega)
end

section
variable {i : Instr} {s : State} {k : Nat} {g : Dev → Dev} {l : List Part}

/-- What a run ends in may be said with fewer words. -/
theorem runs_imp {P Q : State → Prop} (h : Runs i s l P) (hPQ : ∀ t, P t → Q t) : Runs i s l Q := by
  obtain ⟨t, ht, hf, hp⟩ := h
  exact ⟨t, ht, hf, hPQ t hp⟩

/-- A command that leaves the other compositors alone. -/
theorem runs_compOnly {e : Dev} (hl : live s.core.dev = true) (hx : exec i s = whenLiveDev true g s) (hg : g s.core.dev = e)
    (ho : CompOnly l k s.core.dev e) : Runs i s l fun t =>
      t.core.dev.comp k = e.comp k ∧ ∀ m, m ≠ k → t.core.dev.comp m = s.core.dev.comp m :=
  runs_to hl hx hg ho.frame ⟨rfl, ho.others⟩

/-- A command that changes one compositor. -/
theorem runs_updComp {f : Comp → Comp} (hl : live s.core.dev = true) (hx : exec i s = whenLiveDev true g s)
    (hg : g s.core.dev = s.core.dev.updComp k f) : Runs i s [.comps] fun t =>
      t.core.dev.comp k = f (s.core.dev.comp k) ∧ ∀ m, m ≠ k → t.core.dev.comp m = s.core.dev.comp m := by
  simpa only [updComp_same] using runs_compOnly hl hx hg (compOnly_updComp _ k f)

/-- A command that changes one compositor and sets a flag of it. -/
theorem runs_updComp_flag {f : Comp → Comp} {b : Nat} (hl : live s.core.dev = true) (hx : exec i s = whenLiveDev true g s)
    (hg : g s.core.dev = cpFlag k b (s.core.dev.updComp k f)) : Runs i s [.comps, .ic, .ne] fun t =>
      t.core.dev.comp k = withFlag b (f (s.core.dev.comp k)) ∧ ∀ m, m ≠ k → t.core.dev.comp m = s.core.dev.comp m := by
  simpa only [cpFlag_same, updComp_same] using runs_compOnly hl hx hg (compOnly_cpFlag_updComp k b _ f)
end

end Sys2Proof.Proofs
end

section
/-! O42: the instructions of a compositor at its step (R236–R242), case by case. -/

namespace Sys2Proof.Proofs

open Sys2Proof Sys2Proof.Machine Sys2Proof.Laws

section
variable {d : Dev} {k : Nat}

/-! ### SET (R238) -/

theorem cpSet_levels (hx : cpExecutes (d.comp k) 0 = true) (ht : fld (cpWord (d.comp k)) 22 2 = 0) :
    cpSet k d = d.updComp k fun c => cpNext { keepPins c with
      levels := cpMerge c c.levels (BitVec.ofNat 8 (fld (cpWord (d.comp k)) 8 8)) (BitVec.ofNat 8 (fld (cpWord (d.comp k)) 0 8)) }
      (c.r.pc + 1) := by
  simp only [cpSet, hx, ht, if_true]

theorem cpSet_c0 (hx : cpExecutes (d.comp k) 0 = true) (ht : fld (cpWord (d.comp k)) 22 2 = 2) :
    cpSet k d = d.updComp k fun c =>
      cpNext { c with r := { c.r with c0 := BitVec.ofNat 32 (fld (cpWord (d.comp k)) 0 16) } } (c.r.pc + 1) := by
  simp only [cpSet, hx, ht, if_true]

/-! ### OUT (R239) -/

/-- The `j`-th single-bit shift of an OUT with word `w`. -/
def outBit (w : W32) (c : Comp) (j : Nat) : Comp :=
  let o := shiftOut (bit c.r.ctl 29) c.r.s
  let i := fld w 16 3 + j
  let one : BitVec 8 := BitVec.ofNat 8 (2 ^ i)
  { c with r := { c.r with s := o.2, bc := c.r.bc - 1 },
           levels := if i < cpOcnt c then (if o.1 then c.levels ||| one else c.levels &&& ~~~one) else c.levels }

theorem cpOut_shifts (hx : cpExecutes (d.comp k) 1 = true) :
    cpOut k d = d.updComp k fun c =>
      cpNext ((List.range (fld (cpWord (d.comp k)) 0 3 + 1)).foldl (outBit (cpWord (d.comp k))) (keepPins c)) (c.r.pc + 1) := if_pos hx

/-- `n` shifts move the shifter by `n` and take `n` off the bit count. -/
theorem foldl_outBit_r (w : W32) (n : Nat) (c : Comp) : ((List.range n).foldl (outBit w) c).r =
    { c.r with s := if bit c.r.ctl 29 then c.r.s >>> n else c.r.s <<< n, bc := c.r.bc - n } := by
  induction n with
  | zero => simp
  | succ n ih =>
    rw [List.range_succ, List.foldl_append]
    by_cases hd : bit c.r.ctl 29 = true
    · simp [outBit, shiftOut, ih, hd, BitVec.shiftRight_add, Nat.sub_sub]
    · simp [outBit, shiftOut, ih, hd, BitVec.shiftLeft_add, Nat.sub_sub]

theorem foldl_outBit_drives (w : W32) (n : Nat) (c : Comp) : ((List.range n).foldl (outBit w) c).drives = c.drives := by
  induction n with
  | zero => rfl
  | succ n ih => rw [List.range_succ, List.foldl_append]; exact ih

/-- The first shift puts the bit that leaves the shifter at the output index that the word names. -/
theorem outBit_level (w : W32) {c : Comp} (h : fld w 16 3 < cpOcnt c) :
    (outBit w c 0).levels.getLsbD (fld w 16 3) = (if bit c.r.ctl 29 then c.r.s.getLsbD 0 else c.r.s.getLsbD 63) := by
  have hi : fld w 16 3 < 8 := Nat.mod_lt _ (by decide)
  have hone : (BitVec.ofNat 8 (2 ^ fld w 16 3)).getLsbD (fld w 16 3) = true := by
    rw [BitVec.getLsbD_ofNat, Nat.testBit_two_pow_self, decide_eq_true hi, Bool.true_and]
  have hput (b : Bool) : (if b then c.levels ||| BitVec.ofNat 8 (2 ^ fld w 16 3)
      else c.levels &&& ~~~BitVec.ofNat 8 (2 ^ fld w 16 3)).getLsbD (fld w 16 3) = b := by
    cases b
    · simp only [Bool.false_eq_true, if_false, BitVec.getLsbD_and, BitVec.getLsbD_not, hone, Bool.not_true, Bool.and_false]
    · simp only [if_true, BitVec.getLsbD_or, hone, Bool.or_true]
  simp only [outBit, Nat.add_zero, if_pos h]
  rw [hput, shiftOut]
  split <;> rfl

/-! ### IN (R239) -/

/-- The `j`-th single-bit shift of an IN with word `w`. -/
def inBit (k : Nat) (w : W32) (j : Nat) (d : Dev) : Dev :=
  let b := inputBit k (fld w 16 3 + j) d
  b.2.updComp k fun c => { c with r := { c.r with s := shiftIn (bit c.r.ctl 30) b.1 c.r.s, bc := min (c.r.bc + 1) 64 } }

theorem cpIn_shifts (hx : cpExecutes (d.comp k) 2 = true) :
    cpIn k d = (forEach (List.range (fld (cpWord (d.comp k)) 0 3 + 1)) (inBit k (cpWord (d.comp k))) d).updComp k fun c =>
      cpNext c (c.r.pc + 1) := if_pos hx

/-- An IN of one bit reads the input that the word names. -/
theorem cpIn_one (hx : cpExecutes (d.comp k) 2 = true) (hc : fld (cpWord (d.comp k)) 0 3 = 0) :
    cpIn k d = (d.updComp k fun c => { c with r := { c.r with
      s := shiftIn (bit c.r.ctl 30) (cpInput d (d.comp k) (fld (cpWord (d.comp k)) 16 3)) c.r.s, bc := min (c.r.bc + 1) 64 } }).updComp k
        fun c => cpNext c (c.r.pc + 1) := by
  have hi : fld (cpWord (d.comp k)) 16 3 < 8 := Nat.mod_lt _ (by decide)
  rw [cpIn_shifts hx, hc]
  simp only [forEach, List.range_succ, List.range_zero, List.nil_append, List.foldl_cons, List.foldl_nil, inBit, inputBit,
    Nat.add_zero, if_pos hi]

theorem compOnly_inBit (w : W32) (j : Nat) (d : Dev) : CompOnly [.comps, .free] k d (inBit k w j d) := by
  refine compOnly_then (compOnly_updComp _ k _) (by decide) ?_
  unfold inputBit
  split
  · exact compOnly_refl _ k d
  · exact ⟨sameBut_mono (sameBut_draw d) (by decide), fun _ _ => rfl⟩

theorem inBit_pc (w : W32) (j : Nat) (d : Dev) : ((inBit k w j d).comp k).r.pc = (d.comp k).r.pc := by
  rw [inBit, updComp_same]
  unfold inputBit
  split <;> rfl

theorem forEach_inBit_pc (w : W32) (l : List Nat) (d : Dev) : ((forEach l (inBit k w) d).comp k).r.pc = (d.comp k).r.pc := by
  induction l generalizing d with
  | nil => rfl
  | cons j l ih => exact (ih (inBit k w j d)).trans (inBit_pc w j d)

/-! ### WAIT (R240) -/

theorem cpWait_pin (hx : cpExecutes (d.comp k) 3 = true) (hs : fld (cpWord (d.comp k)) 22 2 = 0) :
    cpWait k d = d.updComp k fun c =>
      if cpInput d (d.comp k) (fld (cpWord (d.comp k)) 16 3) = bit (cpWord (d.comp k)) 8 then cpNext c (c.r.pc + 1) else cpRetry c := by
  simp only [cpWait, hx, hs, if_true]
  split <;> rfl

theorem cpWait_time (hx : cpExecutes (d.comp k) 3 = true) (hs : fld (cpWord (d.comp k)) 22 2 = 2) :
    cpWait k d = d.updComp k fun c =>
      if atOrAfter d.tb.time ((d.comp k).wtWas.getD (d.comp k).r.wt) then cpNext c (c.r.pc + 1) else cpRetry c := by
  simp only [cpWait, hx, hs, if_true]
  split <;> rfl

/-! ### MOV (R241) -/

/-- A MOV stalls while its source is an empty TXD. -/
theorem cpMov_stalls (hx : cpExecutes (d.comp k) 4 = true) (hs : fld (cpWord (d.comp k)) 16 4 = 0)
    (h : (d.comp k).r.txf = false ∨ (d.comp k).txNew = true) : cpMov k d = d.updComp k cpRetry := by
  have hstall : (!(d.comp k).r.txf || (d.comp k).txNew) = true := by simpa using h
  simp only [cpMov, hx, hs, hstall, if_true, beq_self_eq_true, Bool.true_and, Bool.true_or]

/-- A MOV between counters: neither holding register takes part in it. -/
theorem cpMov_invertC0 (hx : cpExecutes (d.comp k) 4 = true) (hs : fld (cpWord (d.comp k)) 16 4 = 3)
    (ht : fld (cpWord (d.comp k)) 20 4 = 4) (ho : fld (cpWord (d.comp k)) 14 2 = 1) :
    cpMov k d = d.updComp k fun c => cpNext { c with r := { c.r with c1 := ~~~(d.comp k).r.c0 } } (c.r.pc + 1) := by
  simp [cpMov, hx, hs, ht, ho, cpSource, cpDest]

/-- The compositor after a MOV of `v` from TXD to the shifter. -/
def takenToShifter (v : W32) (c : Comp) : Comp := cpNext (cpDest (txTake c) 1 v) (c.r.pc + 1)

section
variable (hx : cpExecutes (d.comp k) 4 = true) (hs : fld (cpWord (d.comp k)) 16 4 = 0) (ht : fld (cpWord (d.comp k)) 20 4 = 1)
  (ho : fld (cpWord (d.comp k)) 14 2 = 0) (hf : (d.comp k).r.txf = true) (hn : (d.comp k).txNew = false)
include hx hs ht ho hf hn

/-- TXF falls with the take, which fires the source. -/
theorem cpMov_takes (h : (d.comp k).txTry = none) :
    cpMov k d = memberEvent (0x280 + k) (d.updComp k (takenToShifter (d.comp k).r.txd)) := by
  simp only [cpMov, hx, hs, ht, ho, hf, hn, h]
  rfl

/-- A write that waits for the take keeps TXF at 1. -/
theorem cpMov_takes_waiting {v : W32} {o : Bool} (h : (d.comp k).txTry = some (v, o)) :
    cpMov k d = d.updComp k (takenToShifter (d.comp k).r.txd) := by
  simp only [cpMov, hx, hs, ht, ho, hf, hn, h]
  rfl
end

theorem takenToShifter_r {v : W32} {c : Comp} (h : c.txTry = none) : (takenToShifter v c).r =
    { c.r with s := v.setWidth 64, bc := 32, txf := false, pc := c.r.pc + 1 } := by
  simp only [takenToShifter, txTake, h, cpDest, cpNext]

theorem takenToShifter_r_waiting {v x : W32} {o : Bool} {c : Comp} (h : c.txTry = some (x, o)) : (takenToShifter v c).r =
    { c.r with s := v.setWidth 64, bc := 32, txd := x, stat := putBit c.r.stat 11 o, pc := c.r.pc + 1 } := by
  simp only [takenToShifter, txTake, h, cpDest, cpNext]

/-! ### JMP, SIG, HALT, reserved words and delays (R236, R242) -/

theorem cpJmp_countsDown (hx : cpExecutes (d.comp k) 5 = true) (hc : fld (cpWord (d.comp k)) 19 5 = 1) :
    cpJmp k d = d.updComp k fun c =>
      if (d.comp k).r.c0 = 0 then cpNext c (c.r.pc + 1)
      else cpNext { c with r := { c.r with c0 := c.r.c0 - 1 } } (BitVec.ofNat 6 (fld (cpWord (d.comp k)) 0 6)) := by
  simp only [cpJmp, hx, cpCond, hc, if_true, bne_iff_ne, ne_eq, ite_not]
  split <;> rfl

/-- The device after a SIG: the event groups that name the compositor are triggered. -/
def signalled (k : Nat) (d : Dev) : Dev :=
  let d1 := cpFlag k 8 (d.updComp k fun c => cpNext c (c.r.pc + 1))
  { d1 with ds := { d1.ds with trigs := d1.ds.trigs ++ sigGroups d k } }

theorem compOnly_signalled (k : Nat) (d : Dev) : CompOnly [.comps, .ic, .ne, .ds] k d (signalled k d) :=
  have h := compOnly_cpFlag_updComp k 8 d fun c => cpNext c (c.r.pc + 1)
  ⟨sameBut_then (sameBut_ds _ _) (by decide) (sameBut_mono h.frame (by decide)), h.others⟩

theorem signalled_same (k : Nat) (d : Dev) :
    (signalled k d).comp k = withFlag 8 (cpNext (d.comp k) ((d.comp k).r.pc + 1)) :=
  (cpFlag_same k 8 _).trans (congrArg (withFlag 8) (updComp_same d k _))

theorem signalled_ds (k : Nat) (d : Dev) : (signalled k d).ds = { d.ds with trigs := d.ds.trigs ++ sigGroups d k } :=
  congrArg (fun x : DictStore => { x with trigs := x.trigs ++ sigGroups d k })
    (kept_ds (compOnly_cpFlag_updComp k 8 d _).frame (by decide))

theorem cpSig_signals (hx : cpExecutes (d.comp k) 6 = true) : cpSig k d = signalled k d := if_pos hx

theorem cpHalt_ends (hx : cpExecutes (d.comp k) 7 = true) (hd : fld (cpWord (d.comp k)) 24 4 = 0) :
    cpHalt k d = cpFlag k 9 (d.updComp k fun c => cpEnds { c with r := { c.r with pc := c.r.pc + 1 } }) :=
  (if_pos hx).trans (if_pos hd)

theorem cpIllop_ends (hr : (d.comp k).run = true) (hd : (d.comp k).dly = 0) (hh : (d.comp k).halting = false)
    (hi : cpIllegal (cpWord (d.comp k)) = true) : cpIllop k d = cpFlag k 10 (d.updComp k cpEnds) := if_pos (by simp [hr, hd, hh, hi])

theorem cpDelayStep_passes (hr : (d.comp k).run = true) (hd : 0 < (d.comp k).dly) (hh : (d.comp k).halting = false) :
    cpDelayStep k d = d.updComp k fun c => { c with dly := c.dly - 1, until_ := fld c.r.ctl 0 16 + 1 } :=
  (if_pos (by simp [hr, hd])).trans (if_neg (by simp [hh]))
end

/-- A halted compositor executes no instruction: a command that acts only where one executes changes nothing. -/
theorem exec_halted {i : Instr} {s : State} {k op : Nat} {f : Dev → Dev} {e : Dev} (hx : exec i s = whenLiveDev true f s)
    (hf : f s.core.dev = if cpExecutes (s.core.dev.comp k) op = true then e else s.core.dev) (hr : (s.core.dev.comp k).run = false) :
    exec i s = .next s := exec_idle hx (hf.trans (if_neg (by simp [cpExecutes, hr])))

/-- Settles O42: each instruction by its case; what a step changes is its own compositor, with the events of its flags. -/
theorem compositorInstructions : Obligations.CompositorInstructions := by
  rintro s k _ hk hl rfl
  refine ⟨fun hr i hi => ?halted, fun hx ht => ?setLevels, fun hx ht => ?setC0, fun hx => ?out, fun hx hc => ?inOne,
    fun hx _ => ?inAny, fun hx hs => ?waitPin, fun hx hs => ?waitTime, fun hx hs ht ho => ?movC0, fun hx hs h => ?movStalls,
    fun hx hs ht ho hf hn => ⟨fun h => ?movTakes, fun v o h => ?movWaiting⟩, fun hx hc => ?jmp, fun hx => ?sig,
    fun hx hd => ?halt, fun hr hd hh hi => ?illop, fun hr hd hh => ?delay⟩
  case halted =>
    simp only [List.mem_cons, List.not_mem_nil, or_false] at hi
    rcases hi with rfl | rfl | rfl | rfl | rfl | rfl | rfl | rfl | rfl | rfl
    iterate 8 exact exec_halted (exec_wellFormed hk rfl) rfl hr
    · exact exec_idle (exec_wellFormed (i := .cpIllop k) hk rfl) (if_neg (by simp [hr]))
    · exact exec_idle (exec_wellFormed (i := .compositorDelayStep k) hk rfl) (if_neg (by simp [hr]))
  case setLevels => exact runs_updComp hl (exec_wellFormed (i := .cpSet k) hk rfl) (cpSet_levels hx ht)
  case setC0 =>
    refine runs_imp (runs_updComp hl (exec_wellFormed hk rfl) (cpSet_c0 hx ht)) fun t ⟨hc, _⟩ => ?_
    rw [hc]
    exact ⟨rfl, rfl, rfl⟩
  case out =>
    refine runs_imp (runs_updComp hl (exec_wellFormed hk rfl) (cpOut_shifts hx)) fun t ⟨hc, ho⟩ => ?_
    simp only [hc, cpNext, foldl_outBit_r, foldl_outBit_drives, keepPins, true_and]
    exact ⟨fun h0 hp => by rw [h0]; exact outBit_level (c := keepPins _) _ hp, ho⟩
  case inOne =>
    refine runs_imp (runs_compOnly hl (exec_wellFormed hk rfl) (cpIn_one hx hc)
      (compOnly_then (compOnly_updComp _ k _) (by decide) (compOnly_updComp _ k _))) fun t ⟨hc, ho⟩ => ?_
    rw [hc, updComp_same, updComp_same]
    exact ⟨rfl, rfl, rfl, ho⟩
  case inAny =>
    refine runs_to hl (exec_wellFormed hk rfl) (cpIn_shifts hx) (sameBut_then (sameBut_updComp _ k _) (by decide)
      (sameBut_forEach _ (fun j d => (compOnly_inBit _ j d).frame) _ _)) ?_
    show (Dev.comp (Dev.updComp _ k _) k).r.pc = _
    rw [updComp_same]
    exact congrArg (· + 1) (forEach_inBit_pc ..)
  case waitPin => exact runs_updComp hl (exec_wellFormed (i := .cpWait k) hk rfl) (cpWait_pin hx hs)
  case waitTime => exact runs_imp (runs_updComp hl (exec_wellFormed hk rfl) (cpWait_time hx hs)) fun t h => h.1
  case movC0 =>
    refine runs_imp (runs_updComp hl (exec_wellFormed hk rfl) (cpMov_invertC0 hx hs ht ho)) fun t ⟨hc, ho⟩ => ?_
    rw [hc]
    exact ⟨rfl, ho⟩
  case movStalls => exact runs_updComp hl (exec_wellFormed (i := .cpMov k) hk rfl) (cpMov_stalls hx hs h)
  case movTakes =>
    refine runs_imp (runs_compOnly hl (exec_wellFormed hk rfl) (cpMov_takes hx hs ht ho hf hn h)
      (compOnly_then (compOnly_memberEvent k _ _) (by decide) (compOnly_mono (compOnly_updComp _ k _) (by decide)))) fun t ⟨hc, _⟩ => ?_
    rw [hc, memberEvent_comp, updComp_same, takenToShifter_r h]
  case movWaiting =>
    refine runs_imp (runs_updComp hl (exec_wellFormed hk rfl) (cpMov_takes_waiting hx hs ht ho hf hn h)) fun t ⟨hc, _⟩ => ?_
    rw [hc, takenToShifter_r_waiting h]
  case jmp => exact runs_updComp hl (exec_wellFormed (i := .cpJmp k) hk rfl) (cpJmp_countsDown hx hc)
  case sig =>
    have hc := signalled_same k s.core.dev
    exact runs_to hl (exec_wellFormed hk rfl) (cpSig_signals hx) (compOnly_signalled k _).frame
      ⟨(congrArg (fun c : Comp => bit c.r.stat 8) hc).trans (bit_withFlag (by decide) _), (congrArg (fun c : Comp => c.r.pc) hc :),
        signalled_ds k _, (compOnly_signalled k _).others⟩
  case halt =>
    refine runs_imp (runs_updComp_flag hl (exec_wellFormed hk rfl) (cpHalt_ends hx hd)) fun t ⟨hc, ho⟩ => ?_
    rw [hc]
    exact ⟨rfl, rfl, bit_withFlag (by decide) _, rfl, ho⟩
  case illop =>
    refine runs_imp (runs_updComp_flag hl (exec_wellFormed hk rfl) (cpIllop_ends hr hd hh hi)) fun t ⟨hc, ho⟩ => ?_
    rw [hc]
    exact ⟨rfl, rfl, bit_withFlag (by decide) _, ho⟩
  case delay => exact runs_updComp hl (exec_wellFormed (i := .compositorDelayStep k) hk rfl) (cpDelayStep_passes hr hd hh)

end Sys2Proof.Proofs
end

section
/-! O43: the control of a compositor and the writes of its program (R234, R243, R245–R249, R499), case by case. -/

namespace Sys2Proof.Proofs

open Sys2Proof Sys2Proof.Machine Sys2Proof.Laws

section
variable {d : Dev} {k : Nat}

/-! ### TXD (R243) -/

theorem txdWrite_stores {v : W32} (h : (d.comp k).r.txf = false) :
    txdWrite k v d = d.updComp k fun c => { c with r := { c.r with txd := v, txf := true }, txNew := true } := if_neg (by simp [h])

/-- The device after a write that has found TXD full: the first such write of a TCLK waits for a take, unless the word it found came in
that TCLK. -/
def txdWaits (k : Nat) (v : W32) (d : Dev) : Dev :=
  let c := d.comp k
  if c.txNew || c.txTry.isSome then d else d.updComp k fun c => { c with txTry := some (v, bit c.r.stat 11) }

theorem txdWrite_ignored {v : W32} (h : (d.comp k).r.txf = true) :
    txdWrite k v d = (txdWaits k v d).updComp k (withFlag 11) := (if_pos h).trans (cpFlag_silent k 11 _ (by decide))

theorem compOnly_txdWaits (k : Nat) (v : W32) (d : Dev) : CompOnly [.comps] k d (txdWaits k v d) := by
  unfold txdWaits
  dsimp only
  split
  · exact compOnly_refl _ k d
  · exact compOnly_updComp d k _

theorem txdWaits_r (k : Nat) (v : W32) (d : Dev) : ((txdWaits k v d).comp k).r = (d.comp k).r := by
  unfold txdWaits
  dsimp only
  split
  · rfl
  · rw [updComp_same]

/-! ### START, TSTART and HALT (R246, R247) -/

/-- The compositor as CLEAN, if it is written, leaves it. -/
def cleaned (clean : Bool) (c : Comp) : Comp := if clean then { c with r := { c.r with s := 0, bc := 0, c0 := 0, c1 := 0 } } else c

section
variable {clean : Bool}

theorem cpStart_starts (he : cpEn (d.comp k) = true) (hr : (d.comp k).run = false) (hs : (d.comp k).stop = false)
    (hd : (d.comp k).ended = false) : cpStart k clean false d = d.updComp k fun c =>
      { cleaned clean c with run := true, fresh := true, tpend := false, dly := 0, halting := false, until_ := 1 } :=
  (if_neg (by simp [he])).trans (if_neg (by simp [hr, hs, hd]))

theorem cpStart_waits (he : cpEn (d.comp k) = true) (hr : (d.comp k).run = false) (hs : (d.comp k).stop = false)
    (hd : (d.comp k).ended = false) : cpStart k clean true d = d.updComp k fun c => { cleaned clean c with tpend := true } :=
  (if_neg (by simp [he])).trans (if_neg (by simp [hr, hs, hd]))

theorem cpStart_ignored {atTick : Bool} (he : cpEn (d.comp k) = true) (h : (d.comp k).run = true ∨ (d.comp k).stop = true) :
    cpStart k clean atTick d = d := by
  have hbusy : ((d.comp k).run || (d.comp k).stop || (d.comp k).ended) = true := by
    simp only [Bool.or_eq_true]
    exact .inl h
  exact (if_neg (by simp [he])).trans (if_pos hbusy)

theorem cpStart_disabled {atTick : Bool} (he : cpEn (d.comp k) = false) : cpStart k clean atTick d = d.updComp k (withFlag 5) :=
  (if_pos (by simp [he])).trans (cpFlag_silent k 5 d (by decide))

theorem cleaned_r (clean : Bool) (c : Comp) :
    (cleaned clean c).r = if clean then { c.r with s := 0, bc := 0, c0 := 0, c1 := 0 } else c.r := by cases clean <;> rfl
theorem cleaned_run (clean : Bool) (c : Comp) : (cleaned clean c).run = c.run := by cases clean <;> rfl
end

/-! ### What the next TCLK makes of a compositor (R234, R247) -/

theorem cpLand_run {c : Comp} (h : c.stop = true) : (cpLand c).run = false := by simp only [cpLand, h, if_true, cpHalted]
theorem cpLand_r (c : Comp) : (cpLand c).r = c.r := by cases h : c.stop <;> simp [cpLand, h, cpHalted]
theorem cpLand_levels (c : Comp) : (cpLand c).levels = c.levels := by cases h : c.stop <;> simp [cpLand, h, cpHalted]
theorem cpLand_drives (c : Comp) : (cpLand c).drives = c.drives := by cases h : c.stop <;> simp [cpLand, h, cpHalted]
theorem compPins_cpLand (c : Comp) : compPins (cpLand c) = (cpEn c, c.levels, c.drives) := by
  rw [← cpLand_levels, ← cpLand_drives, cpEn, ← cpLand_r]
  rfl

/-! ### Enable and disable (R245) -/

/-- The compositor after an accepted enable: its pins stay until the next TCLK. -/
def enabledComp (c : Comp) : Comp :=
  { keepPins c with r := { c.r with ctl := orBit c.r.ctl 31 }, levels := c.r.oli, drives := BitVec.ofNat 8 (fld c.r.pins 0 8) }

/-- The compositor after a disable: it halts, and its pins stay until the next TCLK. -/
def disabledComp (c : Comp) : Comp :=
  { keepPins c with r := { c.r with ctl := clrBit c.r.ctl 31 }, stop := true, tpend := false }

theorem cpEnable_accepted (he : cpEn (d.comp k) = false) (hr : cpRefused d k = false) : cpEnable k d = d.updComp k enabledComp :=
  (if_neg (by simp [he])).trans (if_neg (by simp [hr]))
theorem cpEnable_refused (he : cpEn (d.comp k) = false) (hr : cpRefused d k = true) : cpEnable k d = d.updComp k (withFlag 5) :=
  (if_neg (by simp [he])).trans ((if_pos hr).trans (cpFlag_silent k 5 d (by decide)))
theorem cpDisable_enabled (he : cpEn (d.comp k) = true) : cpDisable k d = d.updComp k disabledComp := if_pos he

theorem cpEn_enabledComp (c : Comp) : cpEn (enabledComp c) = true := bit_orBit_same _ 31 (by decide)
theorem cpEn_disabledComp (c : Comp) : cpEn (disabledComp c) = false := bit_clrBit_same _ 31
theorem compPins_enabledComp (c : Comp) : compPins (enabledComp c) = compPins c := rfl
theorem compPins_disabledComp (c : Comp) : compPins (disabledComp c) = compPins c := rfl

/-! ### The program (R248, R499) -/

theorem programWrite_halted {r : Nat} {v : W32} (h : (((d.comp k).run && !(d.comp k).fresh) || (d.comp k).ended) = false) :
    programWrite k r v d = d.updComp k (putProgram r v) := if_neg (by simp [h])
theorem programWrite_same {r : Nat} {v : W32} (h : (((d.comp k).run && !(d.comp k).fresh) || (d.comp k).ended) = true)
    (hv : putProgram r v (d.comp k) = d.comp k) : programWrite k r v d = d := (if_pos h).trans (if_pos hv)
theorem programWrite_busy {r : Nat} {v : W32} (h : (((d.comp k).run && !(d.comp k).fresh) || (d.comp k).ended) = true)
    (hv : putProgram r v (d.comp k) ≠ d.comp k) : programWrite k r v d = d.updComp k (withFlag 7) :=
  (if_pos h).trans ((if_neg hv).trans (cpFlag_silent k 7 d (by decide)))

/-- The offsets 100h to 1FCh are those of IMEM. -/
theorem putProgram_imem {j : Nat} (hj : j < 64) (v : W32) (c : Comp) :
    putProgram (0x100 + 4 * j) v c = { c with imem := Bank.set 0 c.imem j v } := by
  have hidx : (0x100 + 4 * j - 0x100) / 4 = j := by omega
  rw [putProgram, if_neg (by omega), if_neg (by omega), if_neg (by omega), if_pos (by omega), hidx]

theorem isProgramReg_imem {j : Nat} (hj : j < 64) : isProgramReg (0x100 + 4 * j) = true := by
  have h : 0x100 ≤ 0x100 + 4 * j ∧ 0x100 + 4 * j < 0x200 ∧ (0x100 + 4 * j) % 4 = 0 := by omega
  simp [isProgramReg, h]
end

/-! ### The commands -/

section
variable {s : State} {k : Nat}

/-- START and TSTART of a disabled compositor set CFG_ERR alone (R246). -/
theorem startDisabled_runs {i : Instr} {clean atTick : Bool} (hl : live s.core.dev = true)
    (hx : exec i s = whenLiveDev true (cpStart k clean atTick) s) (he : cpEn (s.core.dev.comp k) = false) : Runs i s [.comps] fun t =>
      (t.core.dev.comp k).r = { (s.core.dev.comp k).r with stat := orBit (s.core.dev.comp k).r.stat 5 } ∧
      (t.core.dev.comp k).run = (s.core.dev.comp k).run ∧ ∀ m, m ≠ k → t.core.dev.comp m = s.core.dev.comp m := by
  refine runs_imp (runs_updComp hl hx (cpStart_disabled he)) fun t ⟨hc, ho⟩ => ?_
  rw [hc]
  exact ⟨rfl, rfl, ho⟩

theorem programWrite_wf {r : Nat} {v : W32} (hk : isComp k = true) (hr : isProgramReg r = true) :
    Instr.wf (.programWrite k r v) = true := Bool.and_eq_true_iff.mpr ⟨hk, hr⟩

/-- A write of the program of a halted compositor changes it as the register says. -/
theorem programWrite_runs {r : Nat} {v : W32} (hk : isComp k = true) (hl : live s.core.dev = true) (hr : isProgramReg r = true)
    (h : (((s.core.dev.comp k).run && !(s.core.dev.comp k).fresh) || (s.core.dev.comp k).ended) = false) :
    Runs (.programWrite k r v) s [.comps] fun t => t.core.dev.comp k = putProgram r v (s.core.dev.comp k) :=
  runs_imp (runs_updComp hl (exec_wellFormed (programWrite_wf hk hr) rfl) (programWrite_halted h)) fun _ ht => ht.1
end

/-- Settles O43: each command by its case, and what the next TCLK makes of the compositor that it leaves. -/
theorem compositorControl : Obligations.CompositorControl := by
  intro s k hk hl
  refine ⟨fun v h => ?txdStored, fun v h => ?txdIgnored, fun clean he hr hs hd => ⟨?start, ?tstart⟩,
    fun clean i hi he h => ?startIgnored, fun clean i hi he => ?startDisabled, ?stops, fun he hr => ?enable, fun he hr => ?refused,
    fun he => ?disable, fun v h => ⟨?pc, ?c0, ?c1, fun j hj => ?imem⟩, fun v r hr h => ⟨fun hv => ?same, fun hv => ?busy⟩⟩
  case txdStored =>
    refine runs_imp (runs_updComp hl (exec_wellFormed hk rfl) (txdWrite_stores h)) fun t ⟨hc, ho⟩ => ?_
    rw [hc]
    exact ⟨rfl, rfl, ho⟩
  case txdIgnored =>
    refine runs_imp (runs_compOnly hl (exec_wellFormed hk rfl) (txdWrite_ignored h)
      (compOnly_then (compOnly_updComp _ k _) (by decide) (compOnly_txdWaits k v _))) fun t ⟨hc, ho⟩ => ?_
    rw [hc, updComp_same, withFlag, txdWaits_r]
    exact ⟨rfl, ho⟩
  case start =>
    refine runs_imp (runs_updComp hl (exec_wellFormed hk rfl) (cpStart_starts he hr hs hd)) fun t ⟨hc, ho⟩ => ?_
    rw [hc]
    exact ⟨rfl, rfl, rfl, cleaned_r clean _, ho⟩
  case tstart =>
    refine runs_imp (runs_updComp hl (exec_wellFormed hk rfl) (cpStart_waits he hr hs hd)) fun t ⟨hc, ho⟩ => ?_
    rw [hc]
    exact ⟨(cleaned_run clean _).trans hr, rfl, ho⟩
  case startIgnored =>
    simp only [List.mem_cons, List.not_mem_nil, or_false] at hi
    rcases hi with rfl | rfl
    · exact exec_idle (exec_wellFormed (i := .compositorStart k clean) hk rfl) (cpStart_ignored he h)
    · exact exec_idle (exec_wellFormed (i := .compositorTstart k clean) hk rfl) (cpStart_ignored he h)
  case startDisabled =>
    simp only [List.mem_cons, List.not_mem_nil, or_false] at hi
    rcases hi with rfl | rfl
    · exact startDisabled_runs hl (exec_wellFormed (i := .compositorStart k clean) hk rfl) he
    · exact startDisabled_runs hl (exec_wellFormed (i := .compositorTstart k clean) hk rfl) he
  case stops =>
    refine runs_imp (runs_updComp (f := fun c => { c with stop := true, tpend := false }) hl
      (exec_wellFormed (i := .compositorHalt k) hk rfl) rfl) fun t ⟨hc, ho⟩ => ?_
    rw [hc]
    exact ⟨rfl, cpLand_run rfl, cpLand_r _, cpLand_levels _, ho⟩
  case enable =>
    refine runs_imp (runs_updComp hl (exec_wellFormed hk rfl) (cpEnable_accepted he hr)) fun t ⟨hc, ho⟩ => ?_
    rw [hc, compPins_cpLand, cpEn_enabledComp]
    exact ⟨rfl, rfl, compPins_enabledComp _, rfl, ho⟩
  case refused =>
    refine runs_imp (runs_updComp hl (exec_wellFormed hk rfl) (cpEnable_refused he hr)) fun t ⟨hc, ho⟩ => ?_
    rw [hc]
    exact ⟨he, bit_withFlag (by decide) _, ho⟩
  case disable =>
    refine runs_imp (runs_updComp hl (exec_wellFormed hk rfl) (cpDisable_enabled he)) fun t ⟨hc, ho⟩ => ?_
    rw [hc, compPins_cpLand, cpEn_disabledComp]
    exact ⟨rfl, compPins_disabledComp _, cpLand_run rfl, rfl, ho⟩
  case pc => exact programWrite_runs hk hl rfl h
  case c0 => exact programWrite_runs hk hl rfl h
  case c1 => exact programWrite_runs hk hl rfl h
  case imem =>
    refine runs_imp (programWrite_runs hk hl (isProgramReg_imem hj) h) fun t hc => ?_
    rw [hc, putProgram_imem hj]
    exact ⟨bank_get_set_same .., rfl, fun i hi => bank_get_set_other _ _ _ _ _ hi⟩
  case same => exact exec_idle (exec_wellFormed (programWrite_wf hk hr) rfl) (programWrite_same h hv)
  case busy => exact runs_updComp hl (exec_wellFormed (programWrite_wf hk hr) rfl) (programWrite_busy h hv)

end Sys2Proof.Proofs
end

section
/-! SUPPORT. Engines: what an event does to an engine's control block, and what engines leaving service leave alone
(R270, R274, R276). -/

namespace Sys2Proof.Proofs

open Sys2Proof Sys2Proof.Machine Sys2Proof.Laws

/-! ### Events and wakes -/

/-- Control block `h` is `g`, its ready contexts and its pending wakes aside: the most that a wake can do to it (R270). -/
def SameButWakes (g h : EngineCtl) : Prop := ∃ r p, h = { g with ready := r, pendWake := p }

section
variable {g h k : EngineCtl}

theorem sameButWakes_refl (g : EngineCtl) : SameButWakes g g := ⟨g.ready, g.pendWake, rfl⟩

theorem sameButWakes_trans : SameButWakes g h → SameButWakes h k → SameButWakes g k := by
  rintro ⟨_, _, rfl⟩ ⟨r, p, rfl⟩
  exact ⟨r, p, rfl⟩

theorem SameButWakes.stat : SameButWakes g h → h.stat = g.stat := by rintro ⟨_, _, rfl⟩; rfl
theorem SameButWakes.online : SameButWakes g h → h.online = g.online := by rintro ⟨_, _, rfl⟩; rfl
theorem SameButWakes.offReq : SameButWakes g h → h.offReq = g.offReq := by rintro ⟨_, _, rfl⟩; rfl
theorem SameButWakes.chalted : SameButWakes g h → h.chalted = g.chalted := by rintro ⟨_, _, rfl⟩; rfl
theorem SameButWakes.faultc : SameButWakes g h → h.faultc = g.faultc := by rintro ⟨_, _, rfl⟩; rfl

end

section
variable (x : Nat) (d : Dev)

theorem wakeEngine_sameButWakes (e c : Nat) : SameButWakes (d.eng x) ((wakeEngine e c d).eng x) := by
  unfold wakeEngine
  dsimp only
  by_cases h : x = e
  · subst h
    split <;> exact ⟨_, _, updEng_same d x _⟩
  · split <;> exact ⟨_, _, updEng_other d e x _ h⟩

theorem fireSource_sameButWakes (n : Nat) : SameButWakes (d.eng x) ((fireSource n d).eng x) := by
  unfold fireSource wakeIfFirst
  dsimp only
  split
  · split <;> exact sameButWakes_refl _
  · split
    · exact wakeEngine_sameButWakes x _ _ _
    · exact sameButWakes_refl _

theorem crossOverrun_sameButWakes (i k : Nat) : SameButWakes (d.eng x) ((crossOverrun i k d).eng x) := by
  unfold crossOverrun fireCrossing
  split
  · exact sameButWakes_refl _
  · split
    · exact fireSource_sameButWakes x _ _
    · exact sameButWakes_refl _

/-- An event can wake an engine, and does no more to it. -/
theorem memberEvent_sameButWakes (n : Nat) : SameButWakes (d.eng x) ((memberEvent n d).eng x) := by
  unfold memberEvent
  dsimp only
  split
  · exact sameButWakes_refl _
  · split
    · exact fireSource_sameButWakes x _ _
    · split
      · exact crossOverrun_sameButWakes x _ _ _
      · exact fireSource_sameButWakes x _ _

end

/-! ### The flags of NExx_STAT -/

section
variable {e x : Nat} (b : Nat) (d : Dev)

/-- A flag of an engine is set in its NExx_STAT, and its event can wake an engine. -/
theorem neFlag_same : SameButWakes { d.eng e with stat := orBit (d.eng e).stat b } ((neFlag e b d).eng e) := by
  have h := memberEvent_sameButWakes e (d.updEng e fun g => { g with stat := orBit g.stat b }) (0x390 + e)
  rwa [updEng_same] at h

theorem neFlag_other (h : x ≠ e) : SameButWakes (d.eng x) ((neFlag e b d).eng x) := by
  have hw := memberEvent_sameButWakes x (d.updEng e fun g => { g with stat := orBit g.stat b }) (0x390 + e)
  rwa [updEng_other _ _ _ _ h] at hw

end

/-! ### Leaving service (R274) -/

section
variable {e x : Nat} {d : Dev}

theorem sameBut_requeue (e : Nat) (d : Dev) : SameBut [.ax, .ne] d (requeue e d) := by
  unfold requeue
  split
  · exact sameBut_then (sameBut_updEng _ _ _) (by decide) (sameBut_mono (sameBut_updQueue d _ _) (by decide))
  · exact sameBut_refl _ d

theorem requeue_other (h : x ≠ e) : (requeue e d).eng x = d.eng x := by
  unfold requeue
  split
  · rw [updEng_other _ _ _ _ h, updQueue_eng]
  · rfl

theorem requeue_faultc (e : Nat) (d : Dev) : ((requeue e d).eng e).faultc = (d.eng e).faultc := by
  unfold requeue
  split
  · rw [updEng_same, updQueue_eng]
  · rfl

theorem sameBut_goOffline (e : Nat) (d : Dev) : SameBut [.ne, .ctxs, .ax] d (goOffline e d) :=
  sameBut_then (sameBut_updEng _ _ _) (by decide)
    (sameBut_then (sameBut_forEach _ (fun c d => sameBut_updCtx d e c _) _ _) (by decide)
      (sameBut_mono (sameBut_requeue e d) (by decide)))

theorem goOffline_other (h : x ≠ e) : (goOffline e d).eng x = d.eng x := by
  unfold goOffline
  dsimp only
  rw [updEng_other _ _ _ _ h]
  exact requeue_other h

theorem goOffline_online (e : Nat) (d : Dev) : ((goOffline e d).eng e).online = false := by
  unfold goOffline
  dsimp only
  rw [updEng_same]

theorem goOffline_faultc (e : Nat) (d : Dev) : ((goOffline e d).eng e).faultc = (d.eng e).faultc := by
  unfold goOffline
  dsimp only
  rw [updEng_same]
  exact requeue_faultc e d

end

end Sys2Proof.Proofs
end

section
/-! O45: the control of an engine and of a checked pair (R270, R274–R276). -/

namespace Sys2Proof.Proofs

open Sys2Proof Sys2Proof.Machine Sys2Proof.Laws

section
variable {d : Dev} {e x : Nat}

/-! ### CSTART (R270) -/

/-- Context 3 starts at its entry address. -/
def customerStarted (e : Nat) (d : Dev) : Dev :=
  setReady e 3 true ((d.updEng e fun g => { g with chalted := false, chaltReq := false }).updCtx e 3 fun x =>
    { x with start := true, stack := [] })

theorem cstart_accepted (ho : d.store.openState = 2) (hlo : 0x6000 ≤ (d.eng e).centry.toNat)
    (hhi : (d.eng e).centry.toNat ≤ 0x7FFF) : cstart e d = customerStarted e d :=
  if_neg (by simp only [ho]; omega)

theorem cstart_refused (ho : d.store.openState ≠ 2) : cstart e d = neFlag e 12 d := if_pos (.inl ho)

theorem sameBut_customerStarted (e : Nat) (d : Dev) : SameBut [.ne, .ctxs] d (customerStarted e d) :=
  sameBut_then (sameBut_setReady _ _ _ _) (by decide)
    (sameBut_then (sameBut_updCtx _ _ _ _) (by decide) (sameBut_mono (sameBut_updEng d e _) (by decide)))

theorem setReady_ctx (e c : Nat) (on : Bool) (d : Dev) (x k : Nat) : (setReady e c on d).ctx x k = d.ctx x k := rfl

theorem customerStarted_ctx (e : Nat) (d : Dev) :
    (customerStarted e d).ctx e 3 = { d.ctx e 3 with start := true, stack := [] } := by
  rw [customerStarted, setReady_ctx, updCtx_same]
  rfl

theorem customerStarted_same (e : Nat) (d : Dev) : (customerStarted e d).eng e =
    { d.eng e with chalted := false, chaltReq := false, ready := (d.eng e).ready ||| 8#4 } := by
  rw [customerStarted, eng_setReady_same, updCtx_eng, updEng_same]
  rfl

theorem customerStarted_other (h : x ≠ e) : (customerStarted e d).eng x = d.eng x := by
  rw [customerStarted, eng_setReady_other _ _ _ h, updCtx_eng, updEng_other _ _ _ _ h]

/-! ### OFFLINE and LOCK (R274–R276) -/

/-- An engine that runs alone goes offline if another of its cluster stays (R274). -/
theorem offlineRequest_unpaired (ho : (d.eng e).online = true) (hr : (d.eng e).offReq = false) (hp : (d.eng e).paired = false) :
    offlineRequest e d = if ((staying d (e / 4)).filter fun x => x != e).isEmpty then neFlag e 12 d
      else d.updEng e fun g => { g with offReq := true, ctl := orBit g.ctl 0 } := by
  simp [offlineRequest, ho, hr, hp, bne]

theorem onlineRequest_offline (ho : (d.eng e).online = false) (hr : (d.eng e).offReq = false) :
    onlineRequest e d = d.updEng e fun g => { g with onReq := true, ctl := clrBit g.ctl 0 } := by
  simp [onlineRequest, ho, hr]

theorem lockWrite_even {v : Bool} (h : e % 2 = 0) :
    lockWrite e v d = d.updEng e fun g => { g with ctl := putBit g.ctl 2 v } := if_pos h

theorem lockWrite_odd {v : Bool} (h : e % 2 = 1) : lockWrite e v d = d := if_neg (by omega)

/-! ### A mismatch (R276) -/

/-- Engine `e` of a pair leaves service on a mismatch, with fault 06h recorded. -/
def mismatchLeft (e : Nat) (d : Dev) : Dev :=
  neFlag e 14 (neFlag e 15 ((goOffline e d).updEng e fun g => { g with
    fault := BitVec.ofNat 32 (6 * 2 ^ 24 + (d.eng e).ctx * 65536 + (d.ctx e (d.eng e).ctx).pc.toNat), faultc := incSat g.faultc }))

theorem lockstepMismatch_pair (hp : (d.eng (e / 2 * 2)).paired = true) (ho : (d.eng (e / 2 * 2)).online = true) :
    lockstepMismatch e d = mismatchLeft (e / 2 * 2 + 1) (mismatchLeft (e / 2 * 2) d) := if_pos (by simp [hp, ho])

theorem sameBut_mismatchLeft (e : Nat) (d : Dev) : SameBut [.ne, .ctxs, .ic, .ax] d (mismatchLeft e d) :=
  sameBut_then (sameBut_neFlag _ _ _) (by decide) (sameBut_then (sameBut_neFlag _ _ _) (by decide)
    (sameBut_then (sameBut_updEng _ _ _) (by decide) (sameBut_mono (sameBut_goOffline e d) (by decide))))

theorem mismatchLeft_other (h : x ≠ e) : SameButWakes (d.eng x) ((mismatchLeft e d).eng x) := by
  refine sameButWakes_trans ?_ (neFlag_other _ _ h)
  refine sameButWakes_trans ?_ (neFlag_other _ _ h)
  rw [updEng_other _ _ _ _ h, goOffline_other h]
  exact sameButWakes_refl _

theorem mismatchLeft_same (e : Nat) (d : Dev) :
    ((mismatchLeft e d).eng e).online = false ∧ bit ((mismatchLeft e d).eng e).stat 15 = true ∧
      bit ((mismatchLeft e d).eng e).stat 14 = true ∧ ((mismatchLeft e d).eng e).faultc = incSat (d.eng e).faultc := by
  unfold mismatchLeft
  generalize hd : (goOffline e d).updEng e _ = d1
  have honline : (d1.eng e).online = false := by rw [← hd, updEng_same, goOffline_online]
  have hfaultc : (d1.eng e).faultc = incSat (d.eng e).faultc := by rw [← hd, updEng_same, goOffline_faultc]
  have h15 := neFlag_same (e := e) 15 d1
  have h14 := neFlag_same (e := e) 14 (neFlag e 15 d1)
  refine ⟨?_, ?_, ?_, ?_⟩
  · rw [h14.online, h15.online, honline]
  · rw [h14.stat, bit_orBit_other _ _ _ (by decide), h15.stat, bit_orBit_same _ _ (by decide)]
  · rw [h14.stat, bit_orBit_same _ _ (by decide)]
  · rw [h14.faultc, h15.faultc, hfaultc]

/-- While an engine of the cluster stays online there is no warm restart. -/
theorem mismatchStep_staysUp {k : Nat} (hk : k < 4) (ho : ((lockstepMismatch e d).eng (4 * (e / 4) + k)).online = true) :
    mismatchStep e d = lockstepMismatch e d :=
  if_pos (List.any_eq_true.mpr ⟨k, List.mem_range.mpr hk, ho⟩)

/-- A mismatch of a pair in a cluster where an engine outside it is online: that engine stays so, and nothing restarts. -/
theorem mismatchStep_pair {k : Nat} (hk : k < 4) (hko : (d.eng (4 * (e / 4) + k)).online = true)
    (hne : 4 * (e / 4) + k ≠ e / 2 * 2) (hno : 4 * (e / 4) + k ≠ e / 2 * 2 + 1) (hp : (d.eng (e / 2 * 2)).paired = true)
    (ho : (d.eng (e / 2 * 2)).online = true) :
    mismatchStep e d = mismatchLeft (e / 2 * 2 + 1) (mismatchLeft (e / 2 * 2) d) ∧
      ((mismatchStep e d).eng (4 * (e / 4) + k)).online = true := by
  have hpair := lockstepMismatch_pair hp ho
  have hother : ((lockstepMismatch e d).eng (4 * (e / 4) + k)).online = true := by
    rw [hpair, (mismatchLeft_other hno).online, (mismatchLeft_other hne).online, hko]
  have hup := mismatchStep_staysUp hk hother
  exact ⟨hup.trans hpair, hup ▸ hother⟩

/-- What the even engine of a pair and the odd one show after both have left service. -/
theorem mismatchLeft_both (a : Nat) (d : Dev) :
    ((mismatchLeft (a + 1) (mismatchLeft a d)).eng a).online = false ∧
      ((mismatchLeft (a + 1) (mismatchLeft a d)).eng (a + 1)).online = false ∧
      bit ((mismatchLeft (a + 1) (mismatchLeft a d)).eng a).stat 15 = true ∧
      bit ((mismatchLeft (a + 1) (mismatchLeft a d)).eng a).stat 14 = true ∧
      ((mismatchLeft (a + 1) (mismatchLeft a d)).eng a).faultc = incSat (d.eng a).faultc := by
  obtain ⟨honline, h15, h14, hfaultc⟩ := mismatchLeft_same a d
  have hodd := (mismatchLeft_same (a + 1) (mismatchLeft a d)).1
  have heven : SameButWakes _ ((mismatchLeft (a + 1) (mismatchLeft a d)).eng a) := mismatchLeft_other a.lt_succ_self.ne
  rw [heven.online, heven.stat, heven.faultc]
  exact ⟨honline, hodd, h15, h14, hfaultc⟩

/-! ### The commands -/

variable {i : Instr} {s : State} {g : Dev → Dev}

/-- A command that changes the control block of one engine. -/
theorem runs_updEng {f : EngineCtl → EngineCtl} (hl : live s.core.dev = true) (hx : exec i s = whenLiveDev true g s)
    (hg : g s.core.dev = s.core.dev.updEng e f) : Runs i s [.ne] fun t =>
      t.core.dev.eng e = f (s.core.dev.eng e) ∧ ∀ m, m ≠ e → t.core.dev.eng m = s.core.dev.eng m :=
  runs_to hl hx hg (sameBut_updEng _ e f) ⟨updEng_same _ e f, fun m hm => updEng_other _ e m f hm⟩

/-- A command that is refused with CFG_ERR: the engine's control block shows it, and wakes aside is as it was. -/
theorem runs_cfgErr (hl : live s.core.dev = true) (hx : exec i s = whenLiveDev true g s)
    (hg : g s.core.dev = neFlag e 12 s.core.dev) : Runs i s [.ne, .ic] fun t =>
      SameButWakes { s.core.dev.eng e with stat := orBit (s.core.dev.eng e).stat 12 } (t.core.dev.eng e) :=
  runs_to hl hx hg (sameBut_neFlag e 12 _) (neFlag_same 12 _)

end

/-- Settles O45: each command by its case, and a mismatch by what each engine of the pair leaves of the other's control block. -/
theorem engineControl : Obligations.EngineControl := by
  intro s e he hl
  refine ⟨fun ho hlo hhi => ?cstart, fun ho => ?cstartRefused, ?chalt, fun ho hr hp hs => ?offline, fun ho hr hp hs => ?offlineRefused,
    fun ho hr => ?online, fun v hv => ?lock, fun v hv => ?lockOdd, fun k hk hko hne hno hp ho => ?mismatch⟩
  case cstart =>
    refine runs_to hl (exec_wellFormed (i := .cstart e) he rfl) (cstart_accepted ho hlo hhi) (sameBut_customerStarted e _)
      ⟨customerStarted_same e _, ?_, ?_, fun m hm => customerStarted_other hm⟩
    · dsimp only; rw [customerStarted_ctx]
    · dsimp only; rw [customerStarted_ctx]
  case cstartRefused =>
    refine runs_imp (runs_cfgErr hl (exec_wellFormed (i := .cstart e) he rfl) (cstart_refused ho)) fun t ht => ⟨?_, ht.chalted⟩
    rw [ht.stat, bit_orBit_same _ _ (by decide)]
  case chalt => exact runs_updEng hl (exec_wellFormed (i := .chalt e) he rfl) rfl
  case offline =>
    exact runs_updEng hl (exec_wellFormed (i := .offlineRequest e) he rfl)
      ((offlineRequest_unpaired ho hr hp).trans (if_neg (by simp [hs])))
  case offlineRefused =>
    refine runs_imp (runs_cfgErr hl (exec_wellFormed (i := .offlineRequest e) he rfl)
      ((offlineRequest_unpaired ho hr hp).trans (if_pos hs)))
      fun t ht => ⟨?_, ht.offReq.trans hr, ht.online.trans ho⟩
    rw [ht.stat, bit_orBit_same _ _ (by decide)]
  case online => exact runs_updEng hl (exec_wellFormed (i := .onlineRequest e) he rfl) (onlineRequest_offline ho hr)
  case lock => exact runs_updEng hl (exec_wellFormed (i := .lockWrite e v) he rfl) (lockWrite_even hv)
  case lockOdd => exact exec_idle (exec_wellFormed (i := .lockWrite e v) he rfl) (lockWrite_odd hv)
  case mismatch =>
    obtain ⟨heq, hother⟩ := mismatchStep_pair hk hko hne hno hp ho
    have hboth := mismatchLeft_both (e / 2 * 2) s.core.dev
    have hframe := sameBut_trans (sameBut_mismatchLeft (e / 2 * 2) s.core.dev) (sameBut_mismatchLeft (e / 2 * 2 + 1) _)
    rw [← heq] at hboth hframe
    obtain ⟨heven, hodd, h15, h14, hfaultc⟩ := hboth
    exact runs_dev hl (exec_wellFormed (i := .lockstepMismatch e) he rfl) hframe ⟨heven, hodd, h15, h14, hfaultc, hother⟩

end Sys2Proof.Proofs
end

section
/-! O44: microwords, safe points and ends of work of an engine (R255–R258, R268, R269). -/

namespace Sys2Proof.Proofs

open Sys2Proof Sys2Proof.Machine Sys2Proof.Laws

/-! ### The contexts of an engine -/

section
variable {d : Dev} {e c : Nat}

/-- A change of the contexts `l` of an engine, each once, reaches context `c` if it is one of them. -/
theorem forEach_updCtx_ctx (f : Ctx → Ctx) {l : List Nat} (hl : l.Nodup) (hc : c ∈ l) (d : Dev) :
    (forEach l (fun c d => d.updCtx e c f) d).ctx e c = f (d.ctx e c) := by
  have hother : ∀ (l : List Nat) (d : Dev), c ∉ l → (forEach l (fun c d => d.updCtx e c f) d).ctx e c = d.ctx e c := by
    intro l
    induction l with
    | nil => exact fun d _ => rfl
    | cons k l ih =>
      intro d hk
      rw [List.mem_cons, not_or] at hk
      exact (ih _ hk.2).trans (updCtx_other d e k e c f (by omega))
  induction l generalizing d with
  | nil => simp at hc
  | cons k l ih =>
    obtain ⟨hk, hl⟩ := List.nodup_cons.mp hl
    by_cases h : c = k
    · subst h
      exact (hother l _ hk).trans (updCtx_same d e c f)
    · exact (ih hl ((List.mem_cons.mp hc).resolve_left h) _).trans
        (congrArg f (updCtx_other d e k e c f (by omega)))

/-! ### One ECLK of the results in flight (R256, R265) -/

/-- Context `y` has the registers, the flags Z, N and C, the address and the stack of `x`. -/
structure SameProgram (x y : Ctx) : Prop where
  regs : y.regs = x.regs
  z : y.z = x.z
  n : y.n = x.n
  c : y.c = x.c
  pc : y.pc = x.pc
  stack : y.stack = x.stack

/-- The results that arrive in an ECLK go to latches. -/
theorem tickCtx_sameProgram (x : Ctx) : SameProgram x (tickCtx x) :=
  List.foldlRecOn _ _ ⟨rfl, rfl, rfl, rfl, rfl, rfl⟩ fun _ h _ _ => ⟨h.regs, h.z, h.n, h.c, h.pc, h.stack⟩

theorem updEng_ctx (d : Dev) (e : Nat) (f) (x c : Nat) : (d.updEng e f).ctx x c = d.ctx x c := rfl

theorem sameBut_tickEngine (e : Nat) (d : Dev) : SameBut [.ctxs, .ne] d (tickEngine e d) :=
  sameBut_then (sameBut_updEng _ _ _) (by decide)
    (sameBut_mono (sameBut_forEach _ (fun c d => sameBut_updCtx d e c _) _ d) (by decide))

theorem tickEngine_ctx (hc : c < 4) : (tickEngine e d).ctx e c = tickCtx (d.ctx e c) := by
  rw [tickEngine, updEng_ctx]
  exact forEach_updCtx_ctx tickCtx (by decide) (by simp; omega) d

theorem tickEngine_eng (e : Nat) (d : Dev) : (tickEngine e d).eng e = { d.eng e with divBusy := (d.eng e).divBusy - 1 } := by
  rw [tickEngine, updEng_same, kept_eng (sameBut_forEach _ (fun c d => sameBut_updCtx d e c _) _ d) (by decide)]

/-! ### A word that adds (R255–R258) -/

/-- The word adds in ALU-A and uses no other unit, and its sequencer takes NXT. -/
structure AddsOnly (w : Microword) : Prop where
  aop : mwAop w = 3
  bop : mwBop w = 0
  mdu : mwMdu w = 0
  ang : mwAng w = 0
  gal : mwGal w = 0
  chop : mwChop w = 0
  dmop : mwDmop w = 0
  trc : mwTrc w = false
  bcond : mwBcond w = 0
  seq : mwSeq w = 0

theorem aluApply_nop (dst : Nat) (flags : Bool) (a b v r : W64) (x : Ctx) : aluApply 0 dst flags a b v r x = x := by
  cases flags <;> rfl

/-- The sum that the word forms (R255). -/
def addSum (w : Microword) (x : Ctx) : W64 := gReg x (mwAsa w) + operandAB x w

/-- The context after the word: its register and its flags written, the sequencer at `pc`. -/
def added (w : Microword) (r : W64) (pc : BitVec 15) (x : Ctx) : Ctx :=
  { aluApply 3 (mwAdst w) (mwFa w) (gReg x (mwAsa w)) (operandAB x w) (addSum w x) r x with
    pc := pc, stack := x.stack, faulted := x.faulted }

section
variable {w : Microword} {r : W64} {pc : BitVec 15} {x : Ctx}

theorem added_gReg_same : gReg (added w r pc x) (mwAdst w) = addSum w x := by
  unfold added aluApply
  cases mwFa w <;> exact bank_get_set_same _ _ _ _

theorem added_gReg_other {i : Nat} (h : i ≠ mwAdst w) : gReg (added w r pc x) i = gReg x i := by
  unfold added aluApply
  cases mwFa w <;> exact bank_get_set_other _ _ _ _ _ h

theorem added_keepsFlags (h : mwFa w = false) : (added w r pc x).z = x.z ∧ (added w r pc x).c = x.c := by
  simp [added, aluApply, aluWrites, setReg, h]

theorem added_setsFlags (h : mwFa w = true) :
    (added w r pc x).z = (addSum w x == 0) ∧ (added w r pc x).n = (addSum w x).msb := by
  simp [added, aluApply, aluWrites, aluFlags, setReg, h]

end

theorem wordFault_adds {w : Microword} (h : AddsOnly w) (q : Nat) (x : Ctx) (cond : Bool) : wordFault q x w cond = none := by
  simp [wordFault, h.aop, h.bop, h.gal, h.chop, h.dmop, h.seq, galBlock, chopBlock]

theorem sequence_adds {w : Microword} (h : AddsOnly w) (d : Dev) (x : Ctx) (r : W64) :
    Machine.sequence d x w true r = (redirect d (mwNxt w), x.stack) := by
  simp [Machine.sequence, h.seq]

/-- The device after a word that adds, before the results in flight come nearer. -/
def addedDev (e c : Nat) (w : Microword) (r : W64) (d : Dev) : Dev :=
  spendCycle e c (((d.updCtx e c (added w r (redirect d (mwNxt w)))).updEng e fun g => { g with atSafe := mwSafe w }).updEng e
    fun g => { g with traced := false })

/-- A context's new value depends on its old one alone. -/
theorem updCtx_congr {f g : Ctx → Ctx} (h : f (d.ctx e c) = g (d.ctx e c)) : d.updCtx e c f = d.updCtx e c g := by
  simp only [Dev.updCtx, Bank.upd]
  exact congrArg (fun y => { d with ctxs := Bank.set {} d.ctxs (4 * e + c) y }) h

theorem executeWord_adds {w : Microword} (h : AddsOnly w) (r1 r2 r3 r4 r5 r6 : W64) (d : Dev) :
    executeWord e c w r1 r2 r3 r4 r5 r6 d = tickEngine e (addedDev e c w r2 d) := by
  unfold executeWord
  extract_lets x q cond fault quiet aA aB bA bB va vb a sq d1 d2 d3 d4 d5 d6 d7
  have hcond : cond = true := by simp only [cond, h.bcond]; rfl
  have hfault : fault = none := wordFault_adds h _ _ _
  have hquiet : quiet = x.faulted := by simp [quiet, hfault]
  have hsq : sq = (redirect d (mwNxt w), x.stack) := by simp only [sq, hcond, sequence_adds h]
  have hva : va = addSum w x := by simp only [va, h.aop]; rfl
  have h1 : d1 = d := by simp only [d1, memoryAccess, h.dmop]
  have h2 : d2 = d := (if_pos (.inl h.gal)).trans h1
  have h3 : d3 = d := (if_pos (.inl h.chop)).trans h2
  have h4 : d4 = d.updCtx e c (added w r2 (redirect d (mwNxt w))) := by
    unfold d4
    rw [h3]
    refine updCtx_congr ?_
    extract_lets y1 y2 inFlight y3 y4
    have hy1 : y1 = aluApply 3 (mwAdst w) (mwFa w) aA aB (addSum w x) r2 x := by simp only [y1, h.aop, hva]; rfl
    have hy2 : y2 = y1 := by simp only [y2, h.bop, aluApply_nop]
    have hy3 : y3 = y2 := if_pos h.mdu
    have hy4 : y4 = y3 := if_pos h.ang
    rw [hy4, hy3, hy2, hy1, hsq, hquiet]
    rfl
  have h5 : d5 = d4.updEng e fun g => { g with atSafe := mwSafe w } := by
    unfold d5
    rw [h.mdu, hfault]
    congr 1
    funext g
    cases g.pendFault <;> rfl
  have h6 : d6 = d5.updEng e fun g => { g with traced := false } := if_neg (by simp [h.trc])
  rw [if_neg (by simp [h.aop, h.bop])]
  unfold d7 addedDev
  rw [h6, h5, h4]

theorem sameBut_addedDev (e c : Nat) (w : Microword) (r : W64) (d : Dev) : SameBut [.ctxs, .ne] d (addedDev e c w r d) :=
  sameBut_then (sameBut_updEng _ _ _) (by decide) (sameBut_then (sameBut_updEng _ _ _) (by decide)
    (sameBut_then (sameBut_updEng _ _ _) (by decide) (sameBut_mono (sameBut_updCtx d e c _) (by decide))))

theorem addedDev_ctx (e c : Nat) (w : Microword) (r : W64) (d : Dev) :
    (addedDev e c w r d).ctx e c = added w r (redirect d (mwNxt w)) (d.ctx e c) := by
  simp only [addedDev, spendCycle, updEng_ctx, updCtx_same]

theorem addedDev_control (e c : Nat) (w : Microword) (r : W64) (d : Dev) :
    ((addedDev e c w r d).eng e).atSafe = mwSafe w ∧ ((addedDev e c w r d).eng e).paired = (d.eng e).paired := by
  simp only [addedDev, spendCycle, updEng_same, updCtx_eng, and_self]

/-- The whole effect of a word that adds on its engine's control block: what the safe point and the pair look at. -/
theorem wordAdded_control (e c : Nat) (w : Microword) (r : W64) (d : Dev) :
    ((tickEngine e (addedDev e c w r d)).eng e).atSafe = mwSafe w ∧
      ((tickEngine e (addedDev e c w r d)).eng e).paired = (d.eng e).paired := by
  obtain ⟨hsafe, hpair⟩ := addedDev_control e c w r d
  rw [tickEngine_eng]
  exact ⟨hsafe, hpair⟩

/-- Its effect on its context, the results in flight aside. -/
theorem wordAdded_ctx (hc : c < 4) (w : Microword) (r : W64) (d : Dev) :
    SameProgram (added w r (redirect d (mwNxt w)) (d.ctx e c)) ((tickEngine e (addedDev e c w r d)).ctx e c) := by
  rw [tickEngine_ctx hc, addedDev_ctx]
  exact tickCtx_sameProgram _

theorem sameBut_wordAdded (e c : Nat) (w : Microword) (r : W64) (d : Dev) :
    SameBut [.ctxs, .ne] d (tickEngine e (addedDev e c w r d)) :=
  sameBut_trans (sameBut_addedDev e c w r d) (sameBut_tickEngine e _)

/-! ### The word of an engine -/

theorem microwordStep_runs (h : enginesRun d = true) : microwordStep e d = microword e d := if_pos (by simp [h])

/-- An engine that is offline, or the odd one of a checked pair, executes no word (R274, R276). -/
theorem microword_absent (h : (d.eng e).online = false ∨ ((d.eng e).paired = true ∧ e % 2 = 1)) : microword e d = d := by
  refine if_pos ?_
  rcases h with ho | ⟨hp, hodd⟩
  · simp [ho]
  · simp [hp, hodd]

theorem mirrorPair_unpaired (h : (d.eng e).paired = false) : mirrorPair e d = d := if_neg (by simp [h])

/-- The device after the free values of a word are drawn. -/
def wordDrawn (d : Dev) : Dev := d.draw.2.draw.2.draw.2.draw.2.draw.2.draw.2

theorem sameBut_wordDrawn (d : Dev) : SameBut [.free] d (wordDrawn d) := by
  have h := fun d => sameBut_draw d
  exact sameBut_trans (h _) (sameBut_trans (h _) (sameBut_trans (h _) (sameBut_trans (h _) (sameBut_trans (h _) (h _)))))

/-- An engine that is at work, and not at a safe point, executes the word at its context's address if it does not stall. -/
theorem microword_issues (ho : (d.eng e).online = true) (hp : (d.eng e).paired = false) (hb : (d.eng e).busy = true)
    (ha : (d.eng e).atSafe = false)
    (hs : stalls (d.eng e) (d.ctx e (d.eng e).ctx) (fetchWord d (d.ctx e (d.eng e).ctx).pc) = false) :
    ∃ r1 r2 r3 r4 r5 r6, microword e d = mirrorPair e (executeWord e (d.eng e).ctx
      (fetchWord d (d.ctx e (d.eng e).ctx).pc) r1 r2 r3 r4 r5 r6 (wordDrawn d)) := by
  unfold microword
  extract_lets g c w f1 f2 f3 f4 f5 f6
  refine ⟨f1.1, f2.1, f3.1, f4.1, f5.1, f6.1, ?_⟩
  rw [if_neg (by simp [g, ho, hp]), if_neg (by simp [g, hb, ha]), if_neg (by simpa using hs)]
  rfl

/-- So a word that adds is executed. -/
theorem microword_adds {w : Microword} (ho : (d.eng e).online = true) (hp : (d.eng e).paired = false)
    (hb : (d.eng e).busy = true) (ha : (d.eng e).atSafe = false) (hc : (d.eng e).ctx = c)
    (hw : fetchWord d (d.ctx e c).pc = w) (hs : stalls (d.eng e) (d.ctx e c) w = false) (h : AddsOnly w) :
    ∃ r, microword e d = tickEngine e (addedDev e c w r (wordDrawn d)) := by
  subst hc hw
  obtain ⟨r1, r2, r3, r4, r5, r6, hm⟩ := microword_issues ho hp hb ha hs
  refine ⟨r2, ?_⟩
  rw [hm, executeWord_adds h, mirrorPair_unpaired]
  exact (wordAdded_control e (d.eng e).ctx _ r2 (wordDrawn d)).2.trans hp

/-- What a word that adds leaves in its context, by the results in flight unchanged. -/
theorem added_shown {w : Microword} {r : W64} {pc : BitVec 15} {x y : Ctx} (h : SameProgram (added w r pc x) y) :
    gReg y (mwAdst w) = addSum w x ∧ (∀ i, i ≠ mwAdst w → gReg y i = gReg x i) ∧
      (mwFa w = false → y.z = x.z ∧ y.c = x.c) ∧
      (mwFa w = true → y.z = (addSum w x == 0) ∧ y.n = (addSum w x).msb) ∧ y.pc = pc ∧ y.stack = x.stack := by
  have hreg : ∀ i, gReg y i = gReg (added w r pc x) i := fun i => congrArg (fun b => Bank.get 0 b i) h.regs
  refine ⟨(hreg _).trans added_gReg_same, fun i hi => (hreg i).trans (added_gReg_other hi), fun hf => ?_, fun hf => ?_, h.pc, h.stack⟩
  · rw [h.z, h.c]
    exact added_keepsFlags hf
  · rw [h.z, h.n]
    exact added_setsFlags hf

/-! ### Safe points (R268, R269) -/

theorem safePointStep_unpaired (hr : enginesRun d = true) (hp : (d.eng e).paired = false) :
    safePointStep e d = mirrorPair e (safePoint e d) := by
  rw [safePointStep, if_pos hr, safePointOp, if_neg (by simp [hp])]

/-- Between safe points, and offline, there is no poll. -/
theorem safePoint_notDue (h : (d.eng e).online = false ∨ ((d.eng e).busy = true ∧ (d.eng e).atSafe = false)) :
    safePoint e d = d := by
  refine if_pos ?_
  rcases h with ho | ⟨hb, ha⟩
  · simp [ho]
  · simp [hb, ha]

theorem takeFault_none (h : (d.eng e).pendFault = none) : takeFault e d = d := by
  unfold takeFault
  rw [h]

theorem takeChalt_none (h : (d.eng e).chaltReq = false) : takeChalt e d = d := if_neg (by simp [h])

/-- The poll is over. -/
def polled (e : Nat) (d : Dev) : Dev := d.updEng e fun g => { g with atSafe := false }

theorem polled_same (e : Nat) (d : Dev) : (polled e d).eng e = { d.eng e with atSafe := false } := updEng_same d e _

theorem polled_other {x : Nat} (h : x ≠ e) : (polled e d).eng x = d.eng x := updEng_other d e x _ h

theorem polled_hasRequest (e : Nat) (d : Dev) : hasRequest (polled e d) e = hasRequest d e := by
  simp only [hasRequest, shadowed, polled_same]
  rfl

/-- Context 0 is picked when it is ready and context 1 has nothing to serve (R24). -/
theorem pickContext_tick (hq : hasRequest d e = false) (h1 : bit (d.eng e).ready 1 = false) (h0 : bit (d.eng e).ready 0 = true) :
    pickContext d e = some 0 := by
  simp [pickContext, hq, h1, h0]

theorem safePoint_resumes {k : Nat} (ho : (d.eng e).online = true) (hb : (d.eng e).busy = false)
    (hr : (d.eng e).offReq = false) (hf : (d.eng e).pendFault = none) (hc : (d.eng e).chaltReq = false)
    (hk : pickContext (polled e d) e = some k) : safePoint e d = resume e k (polled e d) := by
  have hfault : takeFault e (polled e d) = polled e d := takeFault_none (by rw [polled_same]; exact hf)
  have hchalt : takeChalt e (polled e d) = polled e d := takeChalt_none (by rw [polled_same]; exact hc)
  unfold safePoint
  dsimp only
  rw [if_neg (by simp [ho, hb]), if_neg (by simp [hr])]
  have hpolled : (d.updEng e fun g => { g with atSafe := false }) = polled e d := rfl
  rw [hpolled, hfault, hchalt, hk]

/-- Context 0 as it begins a tick's work: at its entry address, the tick and the ticks behind it in G63 (R271). -/
def tickBegun (g : EngineCtl) (x : Ctx) : Ctx :=
  setReg { x with start := false, pc := 0x10#15 } 63 (BitVec.ofNat 64 (g.tback.toNat * 65536 + g.tickNo.toNat))

theorem resume_tick (h : (d.ctx e 0).start = true) :
    resume e 0 d = ((d.updCtx e 0 fun x => if x.start then { x with start := false, pc := entryOf (d.eng e) 0 } else x).updCtx e 0
      fun x => setReg x 63 (BitVec.ofNat 64 ((d.eng e).tback.toNat * 65536 + (d.eng e).tickNo.toNat))).updEng e
        fun g => { g with ctx := 0, busy := true, atSafe := false, ready := g.ready ||| BitVec.ofNat 4 (2 ^ 0) } := by
  simp [resume, h]

theorem sameBut_resumeTick (h : (d.ctx e 0).start = true) : SameBut [.ctxs, .ne] d (resume e 0 d) := by
  rw [resume_tick h]
  exact sameBut_then (sameBut_updEng _ _ _) (by decide) (sameBut_then (sameBut_updCtx _ _ _ _) (by decide)
    (sameBut_mono (sameBut_updCtx d e 0 _) (by decide)))

theorem resumeTick_ctx (h : (d.ctx e 0).start = true) : (resume e 0 d).ctx e 0 = tickBegun (d.eng e) (d.ctx e 0) := by
  rw [resume_tick h, updEng_ctx, updCtx_same, updCtx_same, if_pos h]
  rfl

theorem resumeTick_same (h : (d.ctx e 0).start = true) : (resume e 0 d).eng e =
    { d.eng e with ctx := 0, busy := true, atSafe := false, ready := (d.eng e).ready ||| BitVec.ofNat 4 (2 ^ 0) } := by
  rw [resume_tick h, updEng_same, updCtx_eng, updCtx_eng]

theorem resumeTick_other {x : Nat} (h : (d.ctx e 0).start = true) (hx : x ≠ e) : (resume e 0 d).eng x = d.eng x := by
  rw [resume_tick h, updEng_other _ _ _ _ hx, updCtx_eng, updCtx_eng]

/-! ### End of work (R269) -/

/-- The end of context 2's work, with no wake kept. -/
def serviceEnded (e : Nat) (d : Dev) : Dev :=
  (setReady e 2 false (d.updCtx e 2 fun x => { x with start := true, stack := [] })).updEng e fun g => { g with atSafe := true }

theorem endwOp_service (ho : (d.eng e).online = true) (hb : (d.eng e).busy = true) (hc : (d.eng e).ctx = 2)
    (hw : bit (d.eng e).pendWake 2 = false) : endwOp e d = serviceEnded e d := by
  simp [endwOp, endWork, serviceEnded, ho, hb, hc, hw]

theorem endwOp_idle (h : (d.eng e).busy = false) : endwOp e d = d := if_neg (by simp [h])

theorem sameBut_serviceEnded (e : Nat) (d : Dev) : SameBut [.ctxs, .ne] d (serviceEnded e d) :=
  sameBut_then (sameBut_updEng _ _ _) (by decide) (sameBut_then (sameBut_setReady _ _ _ _) (by decide)
    (sameBut_mono (sameBut_updCtx d e 2 _) (by decide)))

theorem serviceEnded_ctx (e : Nat) (d : Dev) : (serviceEnded e d).ctx e 2 = { d.ctx e 2 with start := true, stack := [] } := by
  rw [serviceEnded, updEng_ctx, setReady_ctx, updCtx_same]

theorem serviceEnded_same (e : Nat) (d : Dev) : (serviceEnded e d).eng e =
    { d.eng e with ready := (d.eng e).ready &&& ~~~ BitVec.ofNat 4 (2 ^ 2), atSafe := true } := by
  rw [serviceEnded, updEng_same, eng_setReady_same, updCtx_eng]
  rfl

theorem serviceEnded_other {x : Nat} (h : x ≠ e) : (serviceEnded e d).eng x = d.eng x := by
  rw [serviceEnded, updEng_other _ _ _ _ h, eng_setReady_other _ _ _ h, updCtx_eng]

end

/-- Settles O44: the word by the stages of its execution, the safe point by the context it picks, the end of work by its case. -/
theorem engineWork : Obligations.EngineWork := by
  intro s e he hl hr
  have hword : exec (.microword e) s = whenLiveDev true (microwordStep e) s := exec_wellFormed (i := .microword e) he rfl
  have hpoll : exec (.safePoint e) s = whenLiveDev true (safePointStep e) s := exec_wellFormed (i := .safePoint e) he rfl
  have hend : exec (.endw e) s = whenLiveDev true (endwOp e) s := exec_wellFormed (i := .endw e) he rfl
  refine ⟨fun h => ?absent, fun c w ho hp hb ha hc hc4 hw hs haop hbop hmdu hang hgal hchop hdmop htrc hbcond hseq => ?adds,
    fun hp h => ?notDue, fun ho hp hb hoff hf hh hq h1 h0 hst => ?resumes, fun ho hb hc hw => ?ends, fun hb => ?idle⟩
  case absent => exact exec_idle hword ((microwordStep_runs hr).trans (microword_absent h))
  case adds =>
    obtain ⟨r, hm⟩ := microword_adds ho hp hb ha hc hw hs ⟨haop, hbop, hmdu, hang, hgal, hchop, hdmop, htrc, hbcond, hseq⟩
    refine runs_to hl hword ((microwordStep_runs hr).trans hm)
      (sameBut_then (sameBut_wordAdded e c w r _) (by decide) (sameBut_mono (sameBut_wordDrawn _) (by decide))) ?_
    obtain ⟨hdst, hregs, hkept, hset, hpc, hstack⟩ := added_shown (wordAdded_ctx hc4 w r (wordDrawn s.core.dev))
    exact ⟨hdst, hregs, hkept, hset, hpc, hstack, (wordAdded_control e c w r _).1⟩
  case notDue =>
    refine exec_idle hpoll ?_
    rw [safePointStep_unpaired hr hp, safePoint_notDue h, mirrorPair_unpaired hp]
  case resumes =>
    have hpick : pickContext (polled e s.core.dev) e = some 0 :=
      pickContext_tick ((polled_hasRequest e _).trans hq) (by rw [polled_same]; exact h1) (by rw [polled_same]; exact h0)
    have hsafe := safePoint_resumes ho hb hoff hf hh hpick
    have hst' : ((polled e s.core.dev).ctx e 0).start = true := hst
    have hpair : ((resume e 0 (polled e s.core.dev)).eng e).paired = false := by
      rw [resumeTick_same hst', polled_same]
      exact hp
    refine runs_to hl hpoll ((safePointStep_unpaired hr hp).trans (by rw [hsafe, mirrorPair_unpaired hpair]))
      (sameBut_then (sameBut_resumeTick hst') (by decide) (sameBut_mono (sameBut_updEng _ e _) (by decide))) ?_
    dsimp only
    rw [resumeTick_same hst', resumeTick_ctx hst', polled_same]
    exact ⟨rfl, rfl, rfl, rfl, bank_get_set_same _ _ _ _, fun m hm => (resumeTick_other hst' hm).trans (polled_other hm)⟩
  case ends =>
    refine runs_to hl hend (endwOp_service ho hb hc hw) (sameBut_serviceEnded e _) ?_
    dsimp only
    rw [serviceEnded_same, serviceEnded_ctx]
    exact ⟨bit_andNot_same 2, rfl, rfl, rfl, rfl, fun m hm => serviceEnded_other hm⟩
  case idle => exact exec_idle hend (endwOp_idle hb)

end Sys2Proof.Proofs
end

section
/-! SUPPORT. The key store and the operations on the core: which leave it as it is, and what it means that fuses are only blown (R397,
R398). -/

namespace Sys2Proof.Proofs

open Sys2Proof Sys2Proof.Machine Sys2Proof.Laws

/-! ### Fuses that are only blown -/

/-- From key store `v` to `w` the lifecycle has not moved back, and a fused customer key hash has stayed (R397, R398). -/
structure FusesKept (v w : Vault) : Prop where
  lifecycle : lifecycleCode v.lifecycle ≤ lifecycleCode w.lifecycle
  hash : ∀ g, v.custHash = some g → w.custHash = some g

namespace FusesKept

variable {u v w : Vault}

@[simp] theorem refl (v : Vault) : FusesKept v v := ⟨Nat.le_refl _, fun _ => id⟩

theorem of_eq (h : w = v) : FusesKept v w := h ▸ refl v

theorem trans (h : FusesKept u v) (k : FusesKept v w) : FusesKept u w :=
  ⟨Nat.le_trans h.lifecycle k.lifecycle, fun g hg => k.hash g (h.hash g hg)⟩

/-- A change that leaves both fields keeps the fuses. -/
theorem of_fields (hl : w.lifecycle = v.lifecycle) (hc : w.custHash = v.custHash) : FusesKept v w :=
  ⟨by rw [hl], fun _ h => hc.trans h⟩

@[simp] theorem updSlot (v : Vault) (n : Nat) (f) : FusesKept v (v.updSlot n f) := of_fields rfl rfl

theorem updSlots (f : Nat → KeySlot → KeySlot) (l : List Nat) (v : Vault) : FusesKept v (l.foldl (fun v n => v.updSlot n (f n)) v) := by
  induction l generalizing v with
  | nil => exact refl v
  | cons n l ih => exact (updSlot v n _).trans (ih _)

variable {p : Prop} [Decidable p]

theorem ite {a b : Core} (ha : p → FusesKept v a.vault) (hb : ¬p → FusesKept v b.vault) :
    FusesKept v (if p then a else b).vault := by
  split
  · exact ha ‹_›
  · exact hb ‹_›

theorem ite_snd {α : Type} {a b : α × Core} (ha : p → FusesKept v a.2.vault) (hb : ¬p → FusesKept v b.2.vault) :
    FusesKept v (if p then a else b).2.vault := by
  split
  · exact ha ‹_›
  · exact hb ‹_›

theorem foldl {α : Type} {f : Core → α → Core} (hf : ∀ c a, FusesKept c.vault (f c a).vault) (l : List α) (c : Core) :
    FusesKept c.vault (l.foldl f c).vault := by
  induction l generalizing c with
  | nil => exact refl _
  | cons a l ih => exact (hf c a).trans (ih _)

end FusesKept

/-- What the statement says of a state is said of its key store, and lasts while the fuses are kept. -/
theorem fusedAs_of_kept {l : Nat} {h : Option (BitVec 256)} {s t : State} (hs : FusedAs l h s)
    (hk : FusesKept s.core.vault t.core.vault) : FusedAs l h t :=
  ⟨Nat.le_trans hs.1 hk.lifecycle, fun g hg => hk.hash g (hs.2 g hg)⟩

/-! ### What leaves the key store as it is -/

section
variable {α : Type} {p : Prop} [Decidable p]

@[simp] theorem vault_ite (a b : Core) : (if p then a else b).vault = if p then a.vault else b.vault := by
  split <;> rfl
@[simp] theorem vault_ite_snd (x y : α × Core) : (if p then x else y).2.vault = if p then x.2.vault else y.2.vault := by
  split <;> rfl
theorem vault_foldl {f : Core → α → Core} (hf : ∀ c a, (f c a).vault = c.vault) (l : List α) (c : Core) :
    (l.foldl f c).vault = c.vault := by
  induction l generalizing c with
  | nil => rfl
  | cons a l ih => exact (ih _).trans (hf c a)
end

/-! Accesses of the ports (R418, R419, R143) -/

@[simp] theorem vault_fabricRead (p a : Nat) (c : Core) : (fabricRead p a c).2.vault = c.vault := by
  unfold fabricRead highRead
  dsimp only
  split
  · rfl
  · split
    · rfl
    · split <;> rfl

@[simp] theorem vault_fabricWrite (p a : Nat) (v : W32) (c : Core) : (fabricWrite p a v c).vault = c.vault := by
  unfold fabricWrite highWrite
  dsimp only
  split
  · rfl
  · split
    · split
      · split <;> rfl
      · rfl
    · rfl

@[simp] theorem vault_busRead (p a : Nat) (c : Core) : (busRead p a c).vault = c.vault := by
  simp [busRead]
@[simp] theorem vault_busWrite (p a : Nat) (v : W32) (c : Core) : (busWrite p a v c).vault = c.vault := by
  simp [busWrite]
@[simp] theorem vault_windowRead (p a : Nat) (c : Core) : (windowRead p a c).vault = c.vault := by
  unfold windowRead
  dsimp only
  split
  · rfl
  · split
    · rfl
    · split
      · rfl
      · split <;> rfl
@[simp] theorem vault_viaPort (p : Nat) {f : Core → Core} (hf : ∀ c, (f c).vault = c.vault) (c : Core) :
    (viaPort p f c).vault = c.vault := by
  simp [viaPort, hf]
@[simp] theorem vault_registerWrite (p a : Nat) (v : W32) (c : Core) : (registerWrite p a v c).vault = c.vault := by
  simp [registerWrite]
@[simp] theorem vault_liveOr (f g : Dev → Dev) (c : Core) : (liveOr f g c).vault = c.vault := by
  simp [liveOr]

/-! The QSPI target (R414–R416) -/

@[simp] theorem vault_qspiReadWord (first a : Nat) (c : Core) : (qspiReadWord first a c).vault = c.vault := by
  simp [qspiReadWord]
@[simp] theorem vault_qspiWriteWord (first a : Nat) (v : W32) (c : Core) : (qspiWriteWord first a v c).vault = c.vault := by
  simp [qspiWriteWord]
@[simp] theorem vault_qspiWords (first a : Nat) (l : List W32) (c : Core) : (qspiWords first a l c).vault = c.vault := by
  induction l generalizing a c with
  | nil => rfl
  | cons v l ih => exact (ih _ _).trans (vault_qspiWriteWord ..)
@[simp] theorem vault_qspiRead (a n : Nat) (more : Bool) (c : Core) : (qspiRead a n more c).vault = c.vault := by
  have h := vault_foldl (fun c k => vault_qspiReadWord a (a + 4 * k) c) (List.range n) (qspiBegin c)
  simp only [qspiRead, vault_ite, mapDev_vault, h]
  simp [qspiBegin]
@[simp] theorem vault_qspiWrite (a : Nat) (l : List W32) (more : Option W32) (c : Core) : (qspiWrite a l more c).vault = c.vault := by
  unfold qspiWrite
  cases more <;> simp [qspiBegin]
@[simp] theorem vault_csRise (crossed : Bool) (c : Core) : (csRise crossed c).vault = c.vault := by
  unfold csRise
  dsimp only
  split
  · rfl
  · rw [mapDev_vault]
    split
    · simp
    · rfl

/-! The engines' operations (R264–R266, R291) -/

@[simp] theorem vault_byEngine (e : Nat) (f : Dev → Dev) (c : Core) : (byEngine e f c).vault = c.vault := by
  simp [byEngine]
@[simp] theorem vault_byEngineC (e : Nat) {f : Core → Core} (hf : ∀ c, (f c).vault = c.vault) (c : Core) :
    (byEngineC e f c).vault = c.vault := by
  simp [byEngineC, hf]

@[simp] theorem vault_chop (o : ChanOp) (c : Core) : (chop o c).2.vault = c.vault := by
  unfold chop
  dsimp only
  split
  case h_2 | h_4 => simp [chopWrite]
  case h_11 | h_12 | h_13 =>
    unfold chopEntry
    split
    · split <;> rfl
    · rfl
  case h_14 =>
    unfold chopComp
    dsimp only
    split <;> rfl
  case h_15 => simp [chopGreg]
  all_goals rfl

@[simp] theorem vault_chopDeliver (o : ChanOp) (put) (r : ChopDone × Core) : (chopDeliver o put r).vault = r.2.vault := rfl
@[simp] theorem vault_chopRow (op e k target : Nat) (imm2 : W32) (v : W64) (blk : Nat) (c : Core) :
    (chopRow op e k target imm2 v blk c).vault = c.vault := by
  simp [chopRow, chopNow]
@[simp] theorem vault_channelGrant (q : Nat) (c : Core) : (channelGrant q c).vault = c.vault := by
  unfold channelGrant
  dsimp only
  split
  · rfl
  · split <;> simp
@[simp] theorem vault_openLoadDone (c : Core) : (openLoadDone c).vault = c.vault := by
  simp [openLoadDone]
@[simp] theorem vault_applyPatch (im : List Byte) (c : Core) : (applyPatch im c).vault = c.vault := by
  simp [applyPatch]
@[simp] theorem vault_commitStart (c : Core) : (commitStart c).vault = c.vault := by
  simp [commitStart]

/-! ### Keys, tamper and resets (R399, R401, R406, R409, R460) -/

theorem fusesKept_voidSlots {u v : Vault} (h : FusesKept u v) : FusesKept u (voidSlots v) := by
  have h1 : FusesKept v { v with bootCounter := 0 } := .of_fields rfl rfl
  exact (h.trans h1).trans (.updSlots _ _ _)

theorem fusesKept_tamper (c : Core) : FusesKept c.vault (tamper c).vault :=
  fusesKept_voidSlots (v := { c.vault with tamper := true }) (.of_fields rfl rfl)

theorem fusesKept_vbatLoss (c : Core) : FusesKept c.vault (vbatLoss c).vault :=
  (fusesKept_voidSlots (u := c.vault) (v := { c.vault with vbatLost := true }) (.of_fields rfl rfl)).trans (.updSlots _ _ _)

theorem fusesKept_vbatRestore (c : Core) : FusesKept c.vault (vbatRestore c).vault :=
  .ite (fun _ => fusesKept_voidSlots (v := { c.vault with vbatLost := false, tamper := true }) (.of_fields rfl rfl))
    fun _ => .refl _

theorem fusesKept_takeCounter (t : Trailer) (v : Vault) : FusesKept v (takeCounter t v) := by
  unfold takeCounter
  split
  · exact .of_fields rfl rfl
  · exact .updSlot v _ _

theorem fusesKept_writeKey (n : Nat) (k : BitVec 256) (v : Vault) : FusesKept v (writeKey n k v) := .updSlot v n _

theorem fusesKept_afterBoot (signed : Bool) {c : Core} {v : Vault} (h : FusesKept v c.vault) :
    FusesKept v (afterBoot signed c).vault :=
  .ite (fun _ => h.trans (.of_fields rfl rfl)) fun _ => h.trans (.of_fields rfl rfl)

theorem fusesKept_bootKey (n : Nat) (w : List Byte) (v : Vault) : FusesKept v (bootKey n w v) := by
  unfold bootKey
  split <;> exact .updSlot v n _

theorem fusesKept_coreReset (cause : ResetCause) (c : Core) : FusesKept c.vault (coreReset cause c).vault := by
  have h1 : FusesKept c.vault { c.vault with bootNonce := c.dev.draw.1 } := .of_fields rfl rfl
  exact h1.trans (.updSlots _ _ _)

@[simp] theorem vault_heldDeep (was : PowerState) (c : Core) : (heldDeep was c).vault = c.vault := by
  simp [heldDeep]

theorem fusesKept_wakeN (n : Nat) (c : Core) : FusesKept c.vault (wakeN n c).vault := by
  unfold wakeN
  dsimp only
  split
  · exact .refl _
  · exact .ite (fun _ => .refl _) fun _ => fusesKept_coreReset .por { c with dev := _ }
  · exact .ite (fun _ => .refl _) fun _ => .refl _

theorem fusesKept_heldReset (was : PowerState) (cause : ResetCause) (c : Core) :
    FusesKept c.vault (heldDeep was (coreReset cause c)).vault := by
  rw [vault_heldDeep]
  exact fusesKept_coreReset cause c

theorem fusesKept_sysRstN (low : Bool) (c : Core) : FusesKept c.vault (sysRstN low c).vault :=
  .ite (fun _ => fusesKept_heldReset ..) fun _ => .refl _

theorem fusesKept_supplyFault (c : Core) : FusesKept c.vault (supplyFault c).vault := fusesKept_heldReset ..

theorem fusesKept_warmRestart (c : Core) : FusesKept c.vault (warmRestart c).vault := by
  unfold warmRestart
  split
  · exact .refl _
  · exact .ite (fun _ => .refl _) fun _ => fusesKept_coreReset ‹_› c

/-! ### The lifecycle and the customer key hash (R397, R398) -/

/-- An accepted write of the lifecycle moves it on, or leaves it. -/
theorem fusesKept_writeLifecycle {v : Nat} {c e : Core} (h : writeLifecycle v c = some e) : FusesKept c.vault e.vault := by
  have hr : ∀ {x y : Lifecycle}, c.vault.lifecycle = x → lifecycleCode x ≤ lifecycleCode y →
      FusesKept c.vault { c.vault with lifecycle := y } := fun hx hy => ⟨hx ▸ hy, fun _ => id⟩
  unfold writeLifecycle at h
  dsimp only at h
  split at h
  · cases h; exact .refl _
  · split at h
    next hx _ => cases h; exact hr hx (by decide)
    next hx _ => cases h; exact (hr (y := .retired) hx (by decide)).trans (.updSlots _ _ _)
    next hx _ => cases h; exact (hr (y := .retired) hx (by decide)).trans (.updSlots _ _ _)
    next => cases h

/-- The customer key hash is fused once. -/
theorem fusesKept_writeCustHash (value : List Byte) (c : Core) : FusesKept c.vault (writeCustHash value c).2.vault := by
  unfold writeCustHash
  refine .ite_snd (fun _ => .refl _) fun _ => .ite_snd (fun _ => .refl _) fun _ => ?_
  split
  · exact .refl _
  next hnone =>
    refine .ite_snd (fun _ => ⟨Nat.le_refl _, fun g hg => ?_⟩) fun _ => .refl _
    rw [hnone] at hg
    cases hg

end Sys2Proof.Proofs
end

section
/-! SUPPORT. The fuses and the objects of the dictionary: a write of any of them keeps the fuses; only the lifecycle, the customer key
hash and the key slots reach the key store at all. -/

namespace Sys2Proof.Proofs

open Sys2Proof Sys2Proof.Machine Sys2Proof.Laws

/-- A write of the object keeps the fuses. -/
structure KeepsFuses (o : Obj) : Prop where
  wr : ∀ w l c, FusesKept c.vault (o.wr w l c).2.vault

/-- So does every object that a subindex may name. -/
structure AllKeepFuses (x : Option Obj) : Prop where
  each : ∀ o, x = some o → KeepsFuses o

@[simp] theorem allKeepFuses_none : AllKeepFuses none := ⟨nofun⟩
@[simp] theorem allKeepFuses_some (o : Obj) : AllKeepFuses (some o) ↔ KeepsFuses o :=
  ⟨fun h => h.each o rfl, fun h => ⟨by rintro _ ⟨⟩; exact h⟩⟩
theorem allKeepFuses_ite {p : Prop} [Decidable p] {x y : Option Obj} (hx : AllKeepFuses x) (hy : AllKeepFuses y) :
    AllKeepFuses (if p then x else y) := by
  split
  · exact hx
  · exact hy

/-! ### The kinds of objects (R377–R379) -/

@[simp] theorem keepsFuses_mk (ty acc persist limit rd wr) :
    KeepsFuses ⟨ty, acc, persist, limit, rd, wr⟩ ↔ ∀ w l c, FusesKept c.vault (wr w l c).2.vault := ⟨fun h => h.wr, fun h => ⟨h⟩⟩
@[simp] theorem vault_noWrite (w l) (c : Core) : (noWrite w l c).2.vault = c.vault := rfl
@[simp] theorem keepsFuses_volatile (o : Obj) : KeepsFuses o.volatile ↔ KeepsFuses o := ⟨fun h => ⟨h.wr⟩, fun h => ⟨h.wr⟩⟩
@[simp] theorem keepsFuses_roNat (ty f) : KeepsFuses (roNat ty f) := by simp [roNat]
@[simp] theorem keepsFuses_constNat (ty n) : KeepsFuses (constNat ty n) := by simp [constNat]
@[simp] theorem keepsFuses_roBytes (limit f) : KeepsFuses (roBytes limit f) := by simp [roBytes]
@[simp] theorem keepsFuses_roField (ty a lo len) : KeepsFuses (roField ty a lo len) := keepsFuses_roNat ..
@[simp] theorem keepsFuses_roWide (ty a) : KeepsFuses (roWide ty a) := keepsFuses_roNat ..
@[simp] theorem keepsFuses_woNat (ty g) : KeepsFuses (woNat ty g) ↔ ∀ l c, FusesKept c.vault (g (beNat l) c).2.vault :=
  ⟨fun h => h.wr .pcie, fun h => ⟨fun _ => h⟩⟩
@[simp] theorem keepsFuses_rwNat (ty f g) : KeepsFuses (rwNat ty f g) ↔ ∀ l c, FusesKept c.vault (g (beNat l) c).2.vault :=
  ⟨fun h => h.wr .pcie, fun h => ⟨fun _ => h⟩⟩
@[simp] theorem keepsFuses_rwkNat (ty persist f g) :
    KeepsFuses (rwkNat ty persist f g) ↔ ∀ l c, FusesKept c.vault (g (beNat l) c).2.vault :=
  ⟨fun h => h.wr .pcie, fun h => ⟨fun _ => h⟩⟩
@[simp] theorem keepsFuses_rwBytes (limit f g) : KeepsFuses (rwBytes limit f g) ↔ ∀ l c, FusesKept c.vault (g l c).2.vault :=
  ⟨fun h => h.wr .pcie, fun h => ⟨fun _ => h⟩⟩
@[simp] theorem keepsFuses_countObj (ty f clear) : KeepsFuses (countObj ty f clear) := by simp [countObj]
@[simp] theorem keepsFuses_rangeObj (ty f lo hi g) : KeepsFuses (rangeObj ty f lo hi g) := by simp [rangeObj]
@[simp] theorem keepsFuses_srangeObj (ty bits f lo hi g) : KeepsFuses (srangeObj ty bits f lo hi g) := by simp [srangeObj]

@[simp] theorem vault_regSet (a lo len mask v) (c : Core) : (regSet a lo len mask v c).2.vault = c.vault := by
  unfold regSet
  dsimp only
  split
  · rfl
  · simp
@[simp] theorem keepsFuses_fieldObj (ty a lo len off mn mx) : KeepsFuses (fieldObj ty a lo len off mn mx) := by simp [fieldObj]
@[simp] theorem keepsFuses_wordObj (a mask) : KeepsFuses (wordObj a mask) := by simp [wordObj]
@[simp] theorem keepsFuses_bitObj (a b) : KeepsFuses (bitObj a b) := keepsFuses_fieldObj ..
@[simp] theorem vault_flagged (get put mask act) (c : Core) : (flagged get put mask act c).2.vault = c.vault := rfl
@[simp] theorem vault_tickWrite (f) (c : Core) : (tickWrite f c).2.vault = c.vault := rfl

/-! ### The objects by their blocks -/

@[simp] theorem allKeepFuses_typeObj (t sub) : AllKeepFuses (typeObj t sub) := by
  unfold typeObj; split <;> simp
@[simp] theorem allKeepFuses_chanOut (n sub) : AllKeepFuses (chanOut n sub) := by
  unfold chanOut; split <;> simp [compareObj, grainObj, capTimeObj, quoinObj]
@[simp] theorem allKeepFuses_decObj (n sub) : AllKeepFuses (decObj n sub) := by
  unfold decObj; dsimp only
  repeat' split
  all_goals simp [patternObj]
@[simp] theorem allKeepFuses_chanObj (n sub) : AllKeepFuses (chanObj n sub) := by
  unfold chanObj; split <;> simp
@[simp] theorem allKeepFuses_axisObj (a sub) : AllKeepFuses (axisObj a sub) := by
  unfold axisObj; split <;> simp
@[simp] theorem allKeepFuses_pairObj (p sub) : AllKeepFuses (pairObj p sub) := by
  unfold pairObj; split <;> simp [polarityObj, pairEnableObj, pairResumeObj]
@[simp] theorem allKeepFuses_tripObj (i sub) : AllKeepFuses (tripObj i sub) := by
  unfold tripObj; split <;> simp [latchedObj]
@[simp] theorem allKeepFuses_compObj (k sub) : AllKeepFuses (compObj k sub) := by
  unfold compObj; split <;> simp [cpCommandObj, txdObj, programObj]
@[simp] theorem allKeepFuses_engineObj (e sub) : AllKeepFuses (engineObj e sub) := by
  unfold engineObj; split <;> simp [customerCmd]
@[simp] theorem allKeepFuses_portObj (p sub) : AllKeepFuses (portObj p sub) := by
  unfold portObj; split <;> simp [fpCommandObj]
@[simp] theorem keepsFuses_rateObj (b) : KeepsFuses (rateObj b) := by
  refine (keepsFuses_rwNat ..).mpr fun l c => ?_
  split <;> simp
@[simp] theorem allKeepFuses_headObj (h sub) : AllKeepFuses (headObj h sub) := by
  unfold headObj; split <;> simp [paramObj]
@[simp] theorem allKeepFuses_domainObj (sub) : AllKeepFuses (domainObj sub) := by
  unfold domainObj; split <;> simp [domObj, windowObj]
@[simp] theorem allKeepFuses_sourceObj (sub) : AllKeepFuses (sourceObj sub) := by
  unfold sourceObj; split <;> simp
@[simp] theorem allKeepFuses_macObj (m sub) : AllKeepFuses (macObj m sub) := by
  unfold macObj; split <;> simp
@[simp] theorem allKeepFuses_memberObj (a sub) : AllKeepFuses (memberObj a sub) := by
  unfold memberObj; split <;> simp
@[simp] theorem allKeepFuses_timebaseObj (sub) : AllKeepFuses (timebaseObj sub) := by
  unfold timebaseObj; split <;> simp [epochObj]
@[simp] theorem allKeepFuses_ptpObj (sub) : AllKeepFuses (ptpObj sub) := by
  unfold ptpObj; split <;> simp
@[simp] theorem allKeepFuses_ptpPortObj (m sub) : AllKeepFuses (ptpPortObj m sub) := by
  unfold ptpPortObj; split <;> simp
@[simp] theorem allKeepFuses_tickObj (sub) : AllKeepFuses (tickObj sub) := by
  unfold tickObj; split <;> simp
@[simp] theorem allKeepFuses_loadObj (sub) : AllKeepFuses (loadObj sub) := by
  unfold loadObj; split <;> simp
@[simp] theorem allKeepFuses_quoinsObj (sub) : AllKeepFuses (quoinsObj sub) := by
  unfold quoinsObj; split <;> simp
@[simp] theorem allKeepFuses_storeObj (sub) : AllKeepFuses (storeObj sub) := by
  unfold storeObj; split <;> simp [storeCmd]
@[simp] theorem allKeepFuses_longOpObj (f sub) : AllKeepFuses (longOpObj f sub) := by
  unfold longOpObj; split <;> simp
@[simp] theorem allKeepFuses_longObj (i sub) : AllKeepFuses (longObj i sub) := by
  unfold longObj; split <;> simp [startObj]
@[simp] theorem allKeepFuses_icObj (sub) : AllKeepFuses (icObj sub) := by
  unfold icObj; split <;> simp [sourcesObj]
@[simp] theorem allKeepFuses_crossObj (sub) : AllKeepFuses (crossObj sub) := by
  unfold crossObj; dsimp only
  repeat' split
  all_goals simp
@[simp] theorem allKeepFuses_galleyObj (sub) : AllKeepFuses (galleyObj sub) := by
  unfold galleyObj; split <;> simp [startObj]
@[simp] theorem vault_slugInsert (w l) (c : Core) : (slugInsert w l c).2.vault = c.vault := by
  simp [slugInsert, slugAnswerTo]
@[simp] theorem vault_slugRemove (w v) (c : Core) : (slugRemove w v c).2.vault = c.vault := by
  simp [slugRemove, slugAnswerTo]
@[simp] theorem allKeepFuses_slugCmdObj (sub) : AllKeepFuses (slugCmdObj sub) := by
  unfold slugCmdObj; split <;> simp
@[simp] theorem allKeepFuses_policyObj (sub) : AllKeepFuses (policyObj sub) := by
  unfold policyObj; split <;> simp [polObj]
@[simp] theorem allKeepFuses_chaseObj (n sub) : AllKeepFuses (chaseObj n sub) := by
  unfold chaseObj; split <;> simp
@[simp] theorem allKeepFuses_groupObj (g sub) : AllKeepFuses (groupObj g sub) := by
  unfold groupObj; split <;> simp
@[simp] theorem keepsFuses_consentObj : KeepsFuses consentObj := by
  refine (keepsFuses_rwkNat ..).mpr fun l c => ?_
  split <;> simp
@[simp] theorem allKeepFuses_fastObj (sub) : AllKeepFuses (fastObj sub) := by
  unfold fastObj; split <;> simp
@[simp] theorem allKeepFuses_memoryObj (sub) : AllKeepFuses (memoryObj sub) := by
  unfold memoryObj; split <;> simp
@[simp] theorem allKeepFuses_powerObj (sub) : AllKeepFuses (powerObj sub) := by
  unfold powerObj; split <;> simp [requestObj]
@[simp] theorem allKeepFuses_traceObj (sub) : AllKeepFuses (traceObj sub) := by
  unfold traceObj; split <;> simp
@[simp] theorem allKeepFuses_customDeclObj (sub) : AllKeepFuses (customDeclObj sub) := by
  unfold customDeclObj; split <;> simp
@[simp] theorem allKeepFuses_customObj (c : Core) (index sub) : AllKeepFuses (customObj c index sub) := by
  refine ⟨fun o ho => ?_⟩
  obtain ⟨e, _, rfl⟩ := Option.map_eq_some_iff.mp ho
  simp [customWrite]

/-! ### The objects that reach the key store (R397–R401) -/

@[simp] theorem allKeepFuses_slotObj (n sub) : AllKeepFuses (slotObj n sub) := by
  unfold slotObj
  split
  · exact (allKeepFuses_some _).mpr ⟨fun _ l c => fusesKept_bootKey n l c.vault⟩
  · exact (allKeepFuses_some _).mpr ⟨fun _ _ _ => .ite_snd (fun _ => .refl _) fun _ => .updSlot ..⟩
  all_goals simp

@[simp] theorem allKeepFuses_securityObj (sub) : AllKeepFuses (securityObj sub) := by
  unfold securityObj
  split
  case h_2 =>
    refine (allKeepFuses_some _).mpr ⟨fun _ l c => ?_⟩
    dsimp only [rwkNat]
    split
    · exact fusesKept_writeLifecycle ‹_›
    · exact .refl _
  case h_4 => exact (allKeepFuses_some _).mpr ⟨fun _ l c => fusesKept_writeCustHash l c⟩
  all_goals simp

@[simp] theorem allKeepFuses_coreObj (index sub) (c : Core) : AllKeepFuses (coreObj index sub c) := by
  unfold coreObj
  repeat refine allKeepFuses_ite (by simp) ?_
  exact allKeepFuses_none

end Sys2Proof.Proofs
end

section
/-! SUPPORT. The fuses and what serves, boots or repairs the device, every command, and a step (R397, R398). -/

namespace Sys2Proof.Proofs

open Sys2Proof Sys2Proof.Machine Sys2Proof.Laws

/-! ### Defaults and the dictionary store (R390, R391) -/

theorem fusesKept_takeDefault {e : Nat × Nat × Obj} (he : KeepsFuses e.2.2) (c : Core) :
    FusesKept c.vault (takeDefault e c).vault :=
  .ite (fun _ => .refl _) fun _ => .ite (fun _ => .updSlot ..) fun _ => he.wr ..

/-- The persistent objects of an index are objects of the dictionary. -/
theorem keepsFuses_of_mem_persistAt {i : Nat} {e : Nat × Nat × Obj} (c : Core) (he : e ∈ persistAt c i) : KeepsFuses e.2.2 := by
  obtain ⟨k, -, hk⟩ := List.mem_filterMap.mp he
  split at hk
  next o ho =>
    split at hk
    · cases hk
      exact (allKeepFuses_coreObj ..).each o ho
    · cases hk
  next => cases hk

theorem fusesKept_takeDefaults (l : List (Nat × Nat × Obj)) (hl : ∀ e ∈ l, KeepsFuses e.2.2) (c : Core) :
    FusesKept c.vault (l.foldl (fun c e => takeDefault e c) c).vault := by
  induction l generalizing c with
  | nil => exact .refl _
  | cons e l ih =>
    exact (fusesKept_takeDefault (hl e List.mem_cons_self) c).trans (ih (fun x hx => hl x (List.mem_cons_of_mem _ hx)) _)

theorem fusesKept_restoreDefaults (c : Core) : FusesKept c.vault (restoreDefaults c).vault := by
  unfold restoreDefaults
  split
  · exact .refl _
  · refine .foldl (fun c i => fusesKept_takeDefaults _ (fun e he => ?_) c) _ c
    rcases List.mem_append.mp he with he | he <;> exact keepsFuses_of_mem_persistAt c (List.mem_of_mem_filter he)

theorem allKeepFuses_dictStoreObj (sub) : AllKeepFuses (dictStoreObj sub) := by
  unfold dictStoreObj
  split
  case h_2 =>
    refine (allKeepFuses_some _).mpr ⟨fun _ l c => ?_⟩
    exact .ite_snd (fun _ => .refl _) fun _ => .ite_snd (fun _ => .refl _) fun _ => fusesKept_restoreDefaults c
  all_goals simp

theorem allKeepFuses_objAt (index sub) (c : Core) : AllKeepFuses (objAt index sub c) :=
  allKeepFuses_ite (allKeepFuses_dictStoreObj sub) (allKeepFuses_coreObj index sub c)

theorem keepsFuses_findObj {index sub : Nat} {c : Core} {o : Obj} (ho : findObj index sub c = .ok o) : KeepsFuses o := by
  unfold findObj at ho
  repeat' split at ho
  all_goals cases ho
  · exact keepsFuses_constNat ..
  · exact (allKeepFuses_objAt ..).each o ‹_›

/-! ### The services (R382, R383, R402) -/

theorem fusesKept_writeValue (w index sub v keyed) (c : Core) : FusesKept c.vault (writeValue w index sub v keyed c).2.vault := by
  unfold writeValue
  split
  · exact .refl _
  next ho =>
    refine .ite_snd (fun _ => .refl _) fun _ => .ite_snd (fun _ => .refl _) fun _ => .ite_snd (fun _ => .refl _) fun _ => ?_
    split
    · exact .refl _
    · exact (keepsFuses_findObj ho).wr ..

@[simp] theorem vault_paramAccess (w svc h want k) (c : Core) : (paramAccess w svc h want k c).2.vault = c.vault := by
  unfold paramAccess
  split <;> rfl

@[simp] theorem vault_dictReadEffect (w index sub) (c : Core) : (dictReadEffect w index sub c).vault = c.vault := by
  unfold dictReadEffect
  repeat' split
  · exact mapDev_vault ..
  · exact mapDev_vault ..
  · exact mapDev_vault ..
  · rfl

@[simp] theorem vault_segmentOf (s ty offset count) (c : Core) : (segmentOf s ty offset count c).2.vault = c.vault := by
  simp [segmentOf]

@[simp] theorem vault_svcRead (w index sub) (c : Core) : (svcRead w index sub c).2.vault = c.vault := by
  unfold svcRead
  split <;> simp

@[simp] theorem vault_svcDescribe (index sub) (c : Core) : (svcDescribe index sub c).2.vault = c.vault := by
  unfold svcDescribe
  split <;> rfl

@[simp] theorem vault_svcReadSeg (w index sub offset count) (c : Core) : (svcReadSeg w index sub offset count c).2.vault = c.vault := by
  unfold svcReadSeg
  split
  · rfl
  · dsimp only
    repeat' split
    all_goals simp

@[simp] theorem vault_svcReadAll (w index) (c : Core) : (svcReadAll w index c).2.vault = c.vault := by
  have h := fun items : List (Nat × Nat × List Byte) =>
    vault_foldl (fun c e => vault_dictReadEffect w index e.1 c) items c
  simp [svcReadAll, h]

theorem fusesKept_svcWriteAs (svc w index sub v) (c : Core) : FusesKept c.vault (svcWriteAs svc w index sub v c).2.vault :=
  .ite_snd (fun _ => .of_eq (by simp)) fun _ => fusesKept_writeValue ..

theorem fusesKept_svcWriteSeg (w index sub offset last v) (c : Core) :
    FusesKept c.vault (svcWriteSeg w index sub offset last v c).2.vault := by
  unfold svcWriteSeg
  split
  · exact .refl _
  · dsimp only
    split
    · exact .refl _
    · exact .ite_snd (fun _ => fusesKept_svcWriteAs _ _ _ _ _ (setStage w none c)) fun _ => .refl _

/-- A keyed write takes its counter, writes its key, or writes its object. -/
theorem fusesKept_svcKeyedWrite (w index sub l) (c : Core) : FusesKept c.vault (svcKeyedWrite w index sub l c).2.vault := by
  unfold svcKeyedWrite
  dsimp only
  split
  · exact .refl _
  refine .ite_snd (fun _ => .refl _) fun _ => .ite_snd (fun _ => .refl _) fun _ => .ite_snd (fun _ => .refl _) fun _ => ?_
  split
  · exact .refl _
  have hc := fusesKept_takeCounter (trailerOf (l.drop (l.length - 32))) c.vault
  split
  · split
    · exact hc
    next k _ =>
      have hk := hc.trans (fusesKept_writeKey ‹Nat› k _)
      exact .ite (fun _ => fusesKept_afterBoot _ hk) fun _ => hk
  · exact hc.trans (fusesKept_writeValue _ _ _ _ _ { c with vault := _ })

/-! ### Requests (R371, R372, R381, R423) -/

@[simp] theorem vault_answerSvc (w svc index sub) (r : SvcAnswer × Core) : (answerSvc w svc index sub r).vault = r.2.vault := by
  unfold answerSvc
  split <;> rfl

theorem fusesKept_answerSvc (w svc index sub) {r : SvcAnswer × Core} {v : Vault} (h : FusesKept v r.2.vault) :
    FusesKept v (answerSvc w svc index sub r).vault := (vault_answerSvc w svc index sub r).symm ▸ h

theorem fusesKept_serveBody (w l) (c : Core) : FusesKept c.vault (serveBody w l c).vault := by
  refine fusesKept_answerSvc _ _ _ _ (.ite_snd (fun _ => .refl _) fun _ => ?_)
  split
  · exact .of_eq (by simp)
  · exact fusesKept_svcWriteAs ..
  · exact fusesKept_svcKeyedWrite ..
  · exact .of_eq (by simp)
  · exact .of_eq (by simp)
  · exact fusesKept_svcWriteSeg ..
  · exact .of_eq (by simp)
  · exact .refl _

theorem fusesKept_serveFront (c : Core) : FusesKept c.vault (serveFront c).vault := by
  unfold serveFront
  split
  next r rest _ => exact fusesKept_serveBody _ _ (c.mapDev fun d => { d with ds := { d.ds with queue := rest } })
  · exact .refl _

theorem fusesKept_serveSessions (n : Nat) (c : Core) : FusesKept c.vault (serveSessions n c).vault := by
  induction n generalizing c with
  | zero => exact .refl _
  | succ n ih =>
    unfold serveSessions
    split
    · exact (fusesKept_serveFront c).trans (ih _)
    · exact .refl _

theorem fusesKept_drainSessions (c : Core) : FusesKept c.vault (drainSessions c).vault :=
  .ite (fun _ => fusesKept_serveSessions ..) fun _ => .refl _

theorem fusesKept_serveOwn (c : Core) : FusesKept c.vault (serveOwn c).vault := by
  unfold serveOwn
  split
  · exact fusesKept_drainSessions c
  · exact .refl _

theorem fusesKept_mailboxResponse (p) (c : Core) : FusesKept c.vault (mailboxResponse p c).vault := by
  unfold mailboxResponse
  split
  · exact .ite (fun _ => (fusesKept_serveFront c).trans (fusesKept_drainSessions _)) fun _ => .refl _
  · exact .refl _

theorem fusesKept_acyclicDatagram (m ip port target dest l plain) (c : Core) :
    FusesKept c.vault (acyclicDatagram m ip port target dest l plain c).vault := by
  have hd : ∀ f : Dev → Dev, FusesKept c.vault (drainSessions (c.mapDev f)).vault := fun f => fusesKept_drainSessions (c.mapDev f)
  unfold acyclicDatagram
  dsimp only
  refine .ite (fun _ => .refl _) fun _ => .ite (fun _ => .refl _) fun _ => ?_
  split
  · exact .ite (fun _ => .ite (fun _ => .refl _) fun _ => .refl _) fun _ => .ite (fun _ => .refl _) fun _ => hd _
  · split
    · exact .refl _
    · exact hd _

/-! ### Boot (R389, R395, R463) -/

theorem fusesKept_entryWrite (ok e) (c : Core) : FusesKept c.vault (entryWrite ok e c).2.vault := by
  unfold entryWrite
  split
  · exact .refl _
  next ho =>
    refine .ite_snd (fun _ => .refl _) fun _ => .ite_snd (fun _ => .refl _) fun _ => .ite_snd (fun _ => .refl _) fun _ => ?_
    split
    · exact .refl _
    · exact .ite_snd (fun _ => .refl _) fun _ => (keepsFuses_findObj ho).wr ..

theorem fusesKept_applyEntryAt (ok e) (c : Core) : FusesKept c.vault (applyEntryAt ok e c).vault :=
  .ite (fun _ => fusesKept_entryWrite ok e c) fun _ => fusesKept_entryWrite ok e c

theorem fusesKept_bootEntry (ok e) (c : Core) : FusesKept c.vault (bootEntry ok e c).vault := by
  rw [bootEntry, mapDev_vault]
  exact fusesKept_applyEntryAt ok e c

theorem fusesKept_applyImage (im) (c : Core) : FusesKept c.vault (applyImage im c).vault := by
  have hl : ∀ ok (l : List DictEntry) (c : Core), FusesKept c.vault (l.foldl (fun c e => bootEntry ok e c) c).vault :=
    fun ok => .foldl fun c e => fusesKept_bootEntry ok e c
  unfold applyImage
  dsimp only
  rw [mapDev_vault]
  exact (FusesKept.of_eq (mapDev_vault c _)).trans ((hl _ _ _).trans (hl _ _ _))

theorem fusesKept_setObj (index sub v) (c : Core) : FusesKept c.vault (setObj index sub v c).vault := by
  unfold setObj
  split
  next o ho => exact ((allKeepFuses_coreObj ..).each o ho).wr ..
  · exact .refl _

theorem fusesKept_standAlone (strap) (c : Core) : FusesKept c.vault (standAlone strap c).vault := by
  have hs : ∀ {c e : Core} (index sub v), FusesKept c.vault e.vault → FusesKept c.vault (setObj index sub v e).vault :=
    fun _ _ _ h => h.trans (fusesKept_setObj ..)
  have h3 := hs 0x1110 0x01 1 (hs 0x1110 0x02 (if strap.getLsbD 3 then 1 else 0) (hs 0x4000 0x01 1 (hs 0x4000 0x0B 0 (hs 0x4000 0x03 2
    (hs 0x3002 0x4B 1 (hs 0x3002 0x43 5 (hs 0x3000 0x4B 1 (hs 0x3000 0x43 3 (.refl c.vault)))))))))
  exact .ite (fun _ => hs _ _ _ (h3.trans (.foldl (fun _ _ => hs _ _ _ (hs _ _ _ (.refl _))) _ _))) fun _ => h3

theorem fusesKept_boot (strap xt32 patch us) (c : Core) : FusesKept c.vault (boot strap xt32 patch us c).vault := by
  unfold boot
  dsimp only
  split
  · exact .refl _
  · rw [mapDev_vault]
    split
    · refine .trans (.of_eq ?_) (fusesKept_applyImage ..)
      repeat' split
      all_goals simp
    · refine .trans (.of_eq ?_) (fusesKept_standAlone ..)
      repeat' split
      all_goals simp

theorem fusesKept_thirdPass (c : Core) : FusesKept c.vault (thirdPass c).vault :=
  .ite (fun _ => .foldl (fun c e => fusesKept_applyEntryAt true e c) _ c) fun _ => .refl _

/-! ### SRAM errors (R447, R448) -/

theorem fusesKept_objectLost (index sub who) (c : Core) : FusesKept c.vault (objectLost index sub who c).vault := by
  unfold objectLost
  split
  · exact .refl _
  next o ho =>
    have h1 := ((allKeepFuses_objAt ..).each o ho).wr .pcie ((storedValue index sub c.dev).getD (defaultOf o)) c
    dsimp only
    split <;> exact h1

theorem fusesKept_uncorrectableError (r w by_ allBad) (c : Core) :
    FusesKept c.vault (uncorrectableError r w by_ allBad c).vault := by
  unfold uncorrectableError
  dsimp only
  split
  case h_5 => exact fusesKept_objectLost _ _ _ (c.mapDev _)
  all_goals exact .refl _

/-! ### The runners of commands, every command, and a step -/

section
variable {ok : Bool} {s t : State} {f : Core → Core}

theorem kept_onCore (hf : ∀ c, FusesKept c.vault (f c).vault) (ht : onCore ok f s = .next t) :
    FusesKept s.core.vault t.core.vault := by
  obtain ⟨-, hr⟩ | ⟨-, hr⟩ := onCore_cases ok f s <;> obtain rfl := Host.Outcome.next.inj (hr.symm.trans ht)
  · exact .refl _
  · exact hf _

theorem kept_whenLive (hf : ∀ c, FusesKept c.vault (f c).vault) (ht : whenLive ok f s = .next t) :
    FusesKept s.core.vault t.core.vault := kept_onCore (fun c => .ite (fun _ => hf c) fun _ => .refl _) ht

theorem kept_whenRunning (hf : ∀ c, FusesKept c.vault (f c).vault) (ht : whenRunning ok f s = .next t) :
    FusesKept s.core.vault t.core.vault := kept_whenLive (fun c => .ite (fun _ => hf c) fun _ => .refl _) ht

/-! The same for a command that leaves the whole key store, as every command of the device does. -/

theorem kept_onCore_same (hf : ∀ c, (f c).vault = c.vault) : onCore ok f s = .next t → FusesKept s.core.vault t.core.vault :=
  kept_onCore fun c => .of_eq (hf c)
theorem kept_whenLive_same (hf : ∀ c, (f c).vault = c.vault) : whenLive ok f s = .next t → FusesKept s.core.vault t.core.vault :=
  kept_whenLive fun c => .of_eq (hf c)
theorem kept_whenRunning_same (hf : ∀ c, (f c).vault = c.vault) :
    whenRunning ok f s = .next t → FusesKept s.core.vault t.core.vault := kept_whenRunning fun c => .of_eq (hf c)
theorem kept_onDevice {f : Dev → Dev} : onDevice ok f s = .next t → FusesKept s.core.vault t.core.vault :=
  kept_onCore_same fun _ => rfl
theorem kept_whenLiveDev {f : Dev → Dev} : whenLiveDev ok f s = .next t → FusesKept s.core.vault t.core.vault :=
  kept_whenLive_same fun _ => rfl
theorem kept_whenRunningDev {f : Dev → Dev} : whenRunningDev ok f s = .next t → FusesKept s.core.vault t.core.vault :=
  kept_whenRunning_same fun _ => rfl
end

/-- Every command keeps the fuses; first those that reach the key store, then the rest of each runner's. -/
theorem fusesKept_exec (i : Instr) (s t : State) (ht : exec i s = .next t) : FusesKept s.core.vault t.core.vault := by
  cases i with
  | tamper => exact kept_onCore fusesKept_tamper ht
  | vbatLoss => exact kept_onCore fusesKept_vbatLoss ht
  | vbatRestore => exact kept_onCore fusesKept_vbatRestore ht
  | wakeN => exact kept_onCore (fusesKept_wakeN _) ht
  | sysRstN => exact kept_onCore (fusesKept_sysRstN _) ht
  | supplyFault => exact kept_onCore fusesKept_supplyFault ht
  | warmRestart => exact kept_onCore fusesKept_warmRestart ht
  | boot => exact kept_onCore (fusesKept_boot _ _ _ _) ht
  | acyclicDatagram => exact kept_whenLive (fusesKept_acyclicDatagram _ _ _ _ _ _ _) ht
  | mailboxResponse => exact kept_whenLive (fusesKept_mailboxResponse _) ht
  | dictionaryThirdPass => exact kept_whenLive fusesKept_thirdPass ht
  | uncorrectableError => exact kept_whenLive (fusesKept_uncorrectableError _ _ _ _) ht
  | slugInsertObject | slugRemoveObject | write =>
    exact kept_whenRunning (fun c => fusesKept_answerSvc _ _ _ _ (fusesKept_svcWriteAs 2 _ _ _ _ c)) ht
  | keyedWrite => exact kept_whenRunning (fun c => fusesKept_answerSvc _ _ _ _ (fusesKept_svcKeyedWrite _ _ _ _ c)) ht
  | writeSeg => exact kept_whenRunning (fun c => fusesKept_answerSvc _ _ _ _ (fusesKept_svcWriteSeg _ _ _ _ _ _ c)) ht
  | restore => exact kept_whenRunning fusesKept_restoreDefaults ht
  | registerWrite | wideValueLowWrite | wideValueCommit | mailboxGo | qspiWrite | wideValueLowRead | wideValueHighRead
  | pinTransition | ustampLoRead | galleyWindowRead | chainCountRead | captureRead | rxdRead | claim | chwRead | axwLoRead
  | linkDown | linkUp | qspiRead | hqCsNRise =>
    exact kept_onCore_same (by simp) ht
  | crd | cwr | ard | awr | decrd | mload | segld | chrd | chwr | arm | retime | wdraw | durw | cpop | greg | channelBusGrant
  | ins | rem | mod | modd | galleyPortFree | pop | pend | mark | galleyPortRead | openFormeLoadDone =>
    exact kept_whenLive_same (by simp) ht
  | badAccess => exact kept_onCore_same (vault_viaPort 0 fun c => mapDev_vault c (badAccess 0)) ht
  | read => exact kept_whenRunning (fun c => fusesKept_answerSvc _ _ _ _ (.of_eq (vault_svcRead _ _ _ c))) ht
  | describe => exact kept_whenRunning (fun c => fusesKept_answerSvc _ _ _ _ (.of_eq (vault_svcDescribe _ _ c))) ht
  | readSeg => exact kept_whenRunning (fun c => fusesKept_answerSvc _ _ _ _ (.of_eq (vault_svcReadSeg _ _ _ _ _ c))) ht
  | readAll => exact kept_whenRunning (fun c => fusesKept_answerSvc _ _ _ _ (.of_eq (vault_svcReadAll _ _ c))) ht
  | commit => exact kept_whenRunning_same (by simp) ht
  | tickStrobeReachesEngine | updateService | armingPass | policyService | policyWalk | erase =>
    exact kept_whenRunningDev ht
  | aoqTransition | msixUnmask | wakeLatch | pcieReset | crossingResync | readHostStatus | clearHostStatus | targetReset
  | qspiUnknownOpcode | hqRstN | pwrEnFall | holdExit | bypass | idcode | samplePreload | extest | highz =>
    exact kept_onDevice ht
  | _ => exact kept_whenLiveDev ht

/-- So does the device by itself, which serves the requests of sessions. -/
theorem fusesKept_idleStep (s : State) : FusesKept s.core.vault (idleStep s).core.vault := by
  unfold idleStep
  dsimp only
  split
  · split
    · exact .refl _
    · exact fusesKept_serveOwn s.core
  · exact .refl _

/-- Settles O60: each command of the queue keeps the fuses, and so does the device by itself. -/
theorem stepsKeepFuses : Obligations.StepsKeepFuses := by
  intro l h s t hs ht
  refine fusedAs_of_kept hs ?_
  unfold step at ht
  split at ht
  next c rest _ => exact fusesKept_exec c { s with pending := rest } t ht
  next => exact Host.Outcome.next.inj ht ▸ fusesKept_idleStep s

end Sys2Proof.Proofs
end

section
/-! O1, O2, O3: a step of the machine, the command at the front of the queue or the device by itself, and what every command answers
(log entries 36 and 64). -/

namespace Sys2Proof.Proofs

open Sys2Proof Sys2Proof.Machine Sys2Proof.Laws

/-- Settles O1: the queue of a step begins with its command. -/
theorem stepRunsFrontCommand : Obligations.StepRunsFrontCommand := fun _ _ => rfl

/-! ### The idle step (log entry 36) -/

section
variable {s : State} {d : Dev}

theorem step_idle (h : s.pending = []) : step s = .next (idleStep s) := by
  unfold step
  rw [h]

theorem idleStep_stopped (h : live s.core.dev = false) : idleStep s = s := by
  simp [idleStep, h]

theorem idleStep_polls {n : Nat} {l : List Instr} (h : live s.core.dev = true)
    (hp : nextPoll s.core.dev.polled s.core.dev = some (n, l)) :
    idleStep s = { core := { s.core with dev :=
      { (if n / 16 = 10 then takeCommands s.core.dev else s.core.dev) with polled := n } }, pending := l } := by
  simp [idleStep, h, hp]

theorem idleStep_passes (h : live s.core.dev = true) (hp : nextPoll s.core.dev.polled s.core.dev = none) :
    idleStep s = { s with core := { serveOwn s.core with dev := { passTclk (serveOwn s.core).dev with polled := 0 } } } := by
  simp [idleStep, h, hp]

/-- A stage that is polled has something due. -/
theorem nextPoll_due {k n : Nat} {l : List Instr} (h : nextPoll k d = some (n, l)) : l ≠ [] := by
  obtain ⟨j, -, hj⟩ := List.exists_of_findSome?_eq_some h
  dsimp only at hj
  generalize (if j = k / 16 then k % 16 else 0) = r at hj
  split at hj
  · cases hj
  · split at hj
    · cases hj
    next hne => cases hj; exact hne

theorem serveOwn_noSession {c : Core} (h : ∀ n b, c.dev.ds.queue.head? ≠ some ⟨.session n, b⟩) : serveOwn c = c := by
  unfold serveOwn
  split
  next n b rest hq => exact absurd (by rw [hq]; rfl) (h n b)
  · rfl

end

/-- Settles O2: the three cases of the idle step; a stage is polled only when it has something due. -/
theorem idleStepGoesOn : Obligations.IdleStepGoesOn := by
  intro s hs
  refine ⟨fun hl => ?_, fun n l hl hp => ⟨nextPoll_due hp, ?_⟩, fun hl hp => ⟨?_, serveOwn_noSession⟩⟩
  · rw [step_idle hs, idleStep_stopped hl]
  · rw [step_idle hs, idleStep_polls hl hp]
  · rw [step_idle hs, idleStep_passes hl hp]

/-! ### What every command answers (log entry 64) -/

section
variable {ok : Bool} {s : State} {f : Core → Core}

theorem onCore_wf (hok : ok = true) : onCore ok f s = .next { s with core := f s.core } := by
  rw [hok, onCore_ok]

theorem onDevice_wf {f : Dev → Dev} (hok : ok = true) : onDevice ok f s = .next { s with core := s.core.mapDev f } := onCore_wf hok

theorem whenLive_wf (hok : ok = true) (hl : live s.core.dev = true) : whenLive ok f s = .next { s with core := f s.core } := by
  rw [hok, whenLive_ok f s hl]

theorem whenRunning_wf (hok : ok = true) (hl : live s.core.dev = true) (hr : enginesRun s.core.dev = true) :
    whenRunning ok f s = .next { s with core := f s.core } := by
  rw [hok, whenRunning_ok f s hl hr]

theorem whenLiveDev_wf {f : Dev → Dev} (hok : ok = true) (hl : live s.core.dev = true) :
    whenLiveDev ok f s = .next { s with core := s.core.mapDev f } := whenLive_wf hok hl

theorem whenRunningDev_wf {f : Dev → Dev} (hok : ok = true) (hl : live s.core.dev = true) (hr : enginesRun s.core.dev = true) :
    whenRunningDev ok f s = .next { s with core := s.core.mapDev f } := whenRunning_wf hok hl hr

end

/-- Every command is an effect on the core, which it has if it is well formed. -/
theorem exec_onCore (i : Instr) (s : State) : ∃ f, exec i s = onCore i.wf f s := by
  cases i with
  | aoqTransition | msixUnmask | wakeLatch | pcieReset | crossingResync | readHostStatus | clearHostStatus | targetReset
  | qspiUnknownOpcode | hqRstN | pwrEnFall | holdExit | bypass | idcode | samplePreload | extest | highz =>
    exact ⟨fun c => c.mapDev _, rfl⟩
  | _ => exact ⟨_, rfl⟩

theorem exec_keeps_queue (i : Instr) (s : State) : ∃ t, exec i s = .next t ∧ t.pending = s.pending := by
  obtain ⟨f, hf⟩ := exec_onCore i s
  refine ⟨_, hf, ?_⟩
  split <;> rfl

theorem exec_illFormed {i : Instr} (s : State) (h : i.wf = false) : exec i s = .next s := by
  obtain ⟨f, hf⟩ := exec_onCore i s
  rw [hf, h, onCore, if_neg (by decide)]

/-- A step of a command leaves the queue's rest. -/
theorem step_pending {s t : State} {c : Instr} {l : List Instr} (hs : s.pending = c :: l) (ht : step s = .next t) : t.pending = l := by
  obtain ⟨u, hu, hp⟩ := exec_keeps_queue c { s with pending := l }
  have hstep : step s = exec c { s with pending := l } := by
    unfold step
    rw [hs]
  rw [hstep, hu] at ht
  cases ht
  exact hp

theorem runsOn (s : State) : RunsOn s := by
  unfold RunsOn step
  split
  next c rest _ =>
    obtain ⟨t, ht, -⟩ := exec_keeps_queue c { s with pending := rest }
    exact ⟨t, ht⟩
  · exact ⟨_, rfl⟩

/-- Settles O3: a well-formed command by its runner; an ill-formed one, and the queue, by the form that all commands share. -/
theorem everyCommandAnswers : Obligations.EveryCommandAnswers := by
  refine ⟨fun i s => ⟨exec_keeps_queue i s, exec_illFormed s, fun hw hl hr => ?_⟩, fun s => ⟨runsOn s, fun c l t hs ht => ?_⟩⟩
  · cases i with
    | registerWrite | wideValueLowWrite | wideValueCommit | mailboxGo | qspiWrite | wideValueLowRead | wideValueHighRead
    | pinTransition | ustampLoRead | galleyWindowRead | chainCountRead | captureRead | rxdRead | claim | chwRead | axwLoRead
    | linkDown | linkUp | qspiRead | hqCsNRise | badAccess | tamper | vbatLoss | vbatRestore | wakeN | sysRstN | supplyFault
    | warmRestart | boot => exact onCore_wf hw
    | aoqTransition | msixUnmask | wakeLatch | pcieReset | crossingResync | readHostStatus | clearHostStatus | targetReset
    | qspiUnknownOpcode | hqRstN | pwrEnFall | holdExit | bypass | idcode | samplePreload | extest | highz => exact onDevice_wf hw
    | restore | commit => exact whenRunning_wf hw hl hr
    | slugInsertObject w l => exact whenRunning_wf (f := fun c => answerSvc w 2 0x5001 1 (svcWrite w 0x5001 1 l c)) hw hl hr
    | slugRemoveObject w l => exact whenRunning_wf (f := fun c => answerSvc w 2 0x5001 2 (svcWrite w 0x5001 2 l c)) hw hl hr
    | read w i k => exact whenRunning_wf (f := fun c => answerSvc w 1 i k (svcRead w i k c)) hw hl hr
    | write w i k l => exact whenRunning_wf (f := fun c => answerSvc w 2 i k (svcWrite w i k l c)) hw hl hr
    | keyedWrite w i k l => exact whenRunning_wf (f := fun c => answerSvc w 3 i k (svcKeyedWrite w i k l c)) hw hl hr
    | describe w i k => exact whenRunning_wf (f := fun c => answerSvc w 4 i k (svcDescribe i k c)) hw hl hr
    | readSeg w i k o n => exact whenRunning_wf (f := fun c => answerSvc w 5 i k (svcReadSeg w i k o n c)) hw hl hr
    | writeSeg w i k o b l => exact whenRunning_wf (f := fun c => answerSvc w 6 i k (svcWriteSeg w i k o b l c)) hw hl hr
    | readAll w i => exact whenRunning_wf (f := fun c => answerSvc w 7 i 0 (svcReadAll w i c)) hw hl hr
    | tickStrobeReachesEngine | updateService | armingPass | policyService | policyWalk | erase =>
      exact whenRunningDev_wf hw hl hr
    | acyclicDatagram | mailboxResponse | dictionaryThirdPass | uncorrectableError | crd | cwr | ard | awr | decrd | mload
    | segld | chrd | chwr | arm | retime | wdraw | durw | cpop | greg | channelBusGrant | ins | rem | mod | modd
    | galleyPortFree | pop | pend | mark | galleyPortRead | openFormeLoadDone => exact whenLive_wf hw hl
    | _ => exact whenLiveDev_wf hw hl
  · have hp := step_pending hs ht
    refine ⟨hp, fun hq i hi => hq i ?_⟩
    rw [hs]
    exact List.mem_cons_of_mem _ (hp ▸ hi)

end Sys2Proof.Proofs
end

section
/-! O5, O6, O8: accesses of BAR0 through a port — in reset (R324), of a wide value (R418), and of a register (R422, R426). -/

namespace Sys2Proof.Proofs

open Sys2Proof Sys2Proof.Machine Sys2Proof.Laws

/-- A command of the whole core that turns the device into `e` and leaves the key store. -/
theorem runs_core_to {i : Instr} {s : State} {l : List Part} {P : State → Prop} {f : Core → Core} {e : Dev}
    (hx : exec i s = onCore true f s) (hf : f s.core = { s.core with dev := e }) (hs : SameBut l s.core.dev e)
    (hp : P { s with core := { s.core with dev := e } }) : Runs i s l P :=
  ⟨_, by rw [hx, onCore_ok, hf], changesOnly_sameBut hs, hp⟩

theorem sameBut_hi (d : Dev) (x : HostIf) : SameBut [.hi] d { d with hi := x } := by
  intro v b hb
  cases b
  case hi => simp at hb
  all_goals rfl

/-! ### The commands of an access -/

section
variable {s : State} {c : Core} {p a : Nat} {v : W32}

theorem exec_lowRead (hp : isPath p = true) (ha : isBar0 a = true) :
    exec (.wideValueLowRead p a) s = onCore true (viaPort p (busRead p a)) s :=
  congrArg (fun ok => onCore ok (viaPort p (busRead p a)) s) (Bool.and_eq_true_iff.mpr ⟨hp, ha⟩)

theorem exec_highRead (hp : isPath p = true) (ha : isBar0 a = true) :
    exec (.wideValueHighRead p a) s = onCore true (viaPort p (busRead p a)) s :=
  congrArg (fun ok => onCore ok (viaPort p (busRead p a)) s) (Bool.and_eq_true_iff.mpr ⟨hp, ha⟩)

theorem exec_wideCommit (hp : isPath p = true) (ha : isBar0 a = true) :
    exec (.wideValueCommit p a v) s = onCore true (viaPort p (busWrite p a v)) s :=
  congrArg (fun ok => onCore ok (viaPort p (busWrite p a v)) s) (Bool.and_eq_true_iff.mpr ⟨hp, ha⟩)

theorem isPath_host (hp : p < 2) : isPath p = true := by simp [isPath, hp]

/-! ### A port in reset (R324) -/

/-- An access of a host port whose own domain is out of reset reaches the crossing. -/
theorem viaPort_host (hp : p < 2) (hr : (if p = 0 then c.dev.hi.pcieReset else c.dev.hi.qspiReset) = false) (f : Core → Core) :
    viaPort p f c = f c := by
  obtain rfl | rfl : p = 0 ∨ p = 1 := by omega
  · have h0 : c.dev.hi.pcieReset = false := hr
    simp [viaPort, h0]
  · have h1 : c.dev.hi.qspiReset = false := hr
    simp [viaPort, h1]

theorem busRead_reset (hp : p < 2) (hf : fabricUp c.dev = false) : busRead p a c = c.mapDev (putData p 0xFFFFFFFF#32) := by
  simp [busRead, hp, hf]

theorem busWrite_reset (hp : p < 2) (hf : fabricUp c.dev = false) : busWrite p a v c = c.mapDev (dropWrite p) := by
  simp [busWrite, hp, hf]

theorem sameBut_dropWrite (p : Nat) (d : Dev) : SameBut [.hi] d (dropWrite p d) :=
  sameBut_trans (sameBut_updHstat d p _) (sameBut_updHstat _ p _)

theorem dropWrite_hstat (p : Nat) (d : Dev) : (dropWrite p d).hstat p =
    { d.hstat p with dropc := incSat (d.hstat p).dropc, stat := orBit (d.hstat p).stat 4 } := by
  simp [dropWrite, hsFlag]

theorem bit_or (v w : W32) (j : Nat) : bit (v ||| w) j = (bit v j || bit w j) := BitVec.getLsbD_or ..

/-- While the core is in reset HS_STAT shows that the port is not live. -/
theorem hsStatRead_reset (p : Nat) {d : Dev} (hf : fabricUp d = false) : bit (hsStatRead p d) 1 = true := by
  have hl : portLive p d = false := by simp [portLive, hf]
  have h1 : bit (atBit (!portLive p d) 1) 1 = true := by rw [hl]; decide
  unfold hsStatRead
  dsimp only
  rw [bit_or, bit_or, h1, Bool.or_true, Bool.true_or]

end

/-- Settles O5: with the core in reset a read answers FFFF_FFFFh and a write is counted as dropped, whatever the address. -/
theorem coreInResetAnswersHosts : Obligations.CoreInResetAnswersHosts := by
  intro s p hp hf hr
  refine ⟨fun a ha => ?_, fun a v ha => ?_, hsStatRead_reset p hf⟩
  · refine runs_core_to (exec_lowRead (isPath_host hp) ha) ((viaPort_host hp hr _).trans (busRead_reset hp hf))
      (sameBut_putData p _ _) ⟨putData_data p _ _, rfl, rfl⟩
  · refine runs_core_to (exec_wideCommit (isPath_host hp) ha) ((viaPort_host hp hr _).trans (busWrite_reset hp hf))
      (sameBut_dropWrite p _) ?_
    dsimp only
    rw [dropWrite_hstat]
    exact ⟨rfl, bit_orBit_same _ 4 (by decide), rfl⟩

/-! ### The timebase's wide value (R418) -/

section
variable {c : Core} {p a : Nat} {v : W32}

/-- A read of a word that latches nothing behind it. -/
theorem fabricRead_high (ha : isBar0 a = true) (hc : isCaps a = false) (hl : linkedWords c.dev a = none) :
    fabricRead p a c = highRead p a c := by
  unfold fabricRead
  dsimp only
  rw [isBar0_aligned ha, hc, if_neg (by decide), hl]

theorem fabricRead_timeLow : fabricRead p 0x1008 c =
    (loWord c.dev.tb.time, c.mapDev (setLatch p [(0x100C, hiWord c.dev.tb.time)])) :=
  (fabricRead_low (l := [0x100C]) rfl rfl rfl).trans rfl

theorem fabricRead_timeLatched (h : (c.dev.path p).latch = [(0x100C, v)]) :
    fabricRead p 0x100C c = (v, c.mapDev (setLatch p [])) := by
  rw [fabricRead_high rfl rfl rfl, highRead, h]
  rfl

theorem fabricRead_timeTorn (h : (c.dev.path p).latch = []) : fabricRead p 0x100C c =
    (hiWord c.dev.tb.time, c.mapDev (tbFlag 7)) := by
  rw [fabricRead_high rfl rfl rfl, highRead, h]
  rfl

end

theorem tbFlag_torn (d : Dev) : tbFlag 7 d = { d with tb := { d.tb with stat := orBit d.tb.stat 7 } } := rfl

/-- Settles O6: the read of TB_TIME_LO latches the high word; its later read takes it from there, or live and torn. -/
theorem wideReadsLatch : Obligations.WideReadsLatch := by
  intro s p hp ho
  refine ⟨?_, fun v hl => ?_, fun hl => ?_⟩
  · refine runs_read hp ho (exec_lowRead hp rfl) fabricRead_timeLow rfl (sameBut_setLatch p _ _) (by simp)
      ⟨putData_data p _ _, ?_, fun q hq => updPath_other s.core.dev p q (fun x => { x with latch := [(0x100C, _)] }) hq⟩
    exact congrArg PortPath.latch (updPath_same s.core.dev p fun x => { x with latch := [(0x100C, _)] })
  · refine runs_read hp ho (exec_highRead hp rfl) (fabricRead_timeLatched hl) rfl (sameBut_setLatch p _ _) (by simp)
      ⟨putData_data p _ _, congrArg PortPath.latch (updPath_same s.core.dev p fun x => { x with latch := [] })⟩
  · refine runs_read hp ho (exec_highRead hp rfl) (fabricRead_timeTorn hl) rfl ?_ (by simp) ⟨putData_data p _ _, rfl⟩
    exact sameBut_mono (sameBut_tb _ _) (by simp)

/-! ### A write of one register (R422, R426) -/

section
variable {s : State} {c : Core} {p a : Nat} {v : W32}

theorem exec_registerWrite_bar0 (hp : isPath p = true) (ha : isBar0 a = true) :
    exec (.registerWrite p a v) s = onCore true (viaPort p (busWrite p a v)) s := by
  simp only [isPath, isBar0, Bool.or_eq_true, Bool.and_eq_true, decide_eq_true_eq] at hp ha
  have hw : Instr.wf (.registerWrite p a v) = true := by
    have h : isWritePath p = true := by simp only [isWritePath, Bool.or_eq_true, Bool.and_eq_true, decide_eq_true_eq]; omega
    exact Bool.and_eq_true_iff.mpr ⟨Bool.and_eq_true_iff.mpr ⟨h, by simp [ha.1]⟩, by simp [isRegisterAddr, ha.2]⟩
  have hf : registerWrite p a v = viaPort p (busWrite p a v) := by
    funext c
    rw [registerWrite, if_neg (by omega), if_neg (by omega)]
  exact (congrArg (fun ok => onCore ok (registerWrite p a v) s) hw).trans (by rw [hf])

/-- The window of a block in BAR0 (R425): its base, its instances and the bytes of each. -/
def window (b : Blk) : Nat × Nat × Nat :=
  match b with
  | .gb => (0, 1, 0x1000)
  | .tb => (0x1000, 1, 0x1000)
  | .sc => (0x2000, 1, 0x1000)
  | .fm => (0x3000, 1, 0x1000)
  | .gl => (0x4000, 1, 0x1000)
  | .hi => (0x8000, 1, 0x4000)
  | .ic => (0x10000, 1, 0x2000)
  | .cs => (0x14000, 16, 16)
  | .ti => (0x15000, 16, 16)
  | .ne => (0x16000, 16, 64)
  | .em => (0x17000, 4, 64)
  | .bp => (0x20000, 128, 64)
  | .fp => (0x24000, 64, 64)
  | .cp => (0x28000, 64, 512)
  | .hd => (0x30000, 2048, 32)
  | .ax => (0x80000, 4096, 128)
  | .ch => (0x100000, 512, 256)

theorem locate_window {i o : Nat} {b : Blk} (h : locate a = some (b, i, o)) :
    i < (window b).2.1 ∧ o < (window b).2.2 ∧ a = (window b).1 + i * (window b).2.2 + o := by
  unfold locate at h
  iterate 27
    obtain ⟨hc, hb⟩ | ⟨hc, hr⟩ := ite_eq_iff.mp h
    · cases hb <;> (dsimp only [window]; omega)
    clear h
    rename' hr => h
  cases h

/-- The word after one that a port stages lies in the same window. -/
theorem locate_of_staged {b : Nat} (h : stagedOf b = true) : (locate (b + 4)).isSome = true := by
  unfold stagedOf at h
  split at h
  next i hb =>
    obtain ⟨hi, -, rfl⟩ := locate_window hb
    obtain rfl : i = 0 := Nat.lt_one_iff.mp hi
    rfl
  next i hb =>
    obtain ⟨hi, -, rfl⟩ := locate_window hb
    exact congrArg Option.isSome (locate_ax i 0x1C hi (by decide))
  next k hb =>
    obtain ⟨hk, -, rfl⟩ := locate_window hb
    exact congrArg Option.isSome (locate_cp k 0x34 hk (by decide))
  next m hb =>
    obtain ⟨hm, -, rfl⟩ := locate_window hb
    dsimp only [window] at hm
    interval_cases m <;> rfl
  next => simp at h

theorem fabricWrite_plain (ha : isBar0 a = true) (h : stagedOf a = false) (h4 : 4 ≤ a → stagedOf (a - 4) = false) :
    fabricWrite p a v c = c.mapDev (regPoke p a v) := by
  have h5 : ¬(4 ≤ a ∧ stagedOf (a - 4) = true) := fun hc => by simp [h4 hc.1] at hc
  unfold fabricWrite
  dsimp only
  rw [isBar0_aligned ha, h, if_neg (by decide), if_neg h5]

theorem fabricWrite_reserved (ha : isBar0 a = true) (h : locate a = none) : fabricWrite p a v c = c := by
  have h0 : stagedOf a = false := by simp [stagedOf, h]
  rw [fabricWrite_plain ha h0]
  · simp [regPoke, h, Core.mapDev]
  · intro h4
    by_contra hs
    have hn := locate_of_staged (Bool.not_eq_false _ ▸ hs)
    rw [Nat.sub_add_cancel h4, h] at hn
    cases hn

/-- The dead time of a pair's rise (R426). -/
theorem fabricWrite_deadTime {n : Nat} (hn : n < 128) : fabricWrite p (0x20004 + n * 64) v c =
    c.mapDev fun d => d.updPair n fun x => { x with dtr := v &&& 0x3FFFF#32 } := by
  have ha : 0x20004 + n * 64 = 0x20000 + n * 64 + 4 := by omega
  have hl := locate_bp n 4 hn (by decide)
  have hl0 := locate_bp n 0 hn (by decide)
  have hb : isBar0 (0x20000 + n * 64 + 4) = true := by simp only [isBar0, Bool.and_eq_true, decide_eq_true_eq]; omega
  have h0 : stagedOf (0x20000 + n * 64 + 4 - 4) = false := by
    unfold stagedOf
    rw [show 0x20000 + n * 64 + 4 - 4 = 0x20000 + n * 64 + 0 by omega, hl0]
  rw [ha, fabricWrite_plain hb (by simp [stagedOf, hl]) fun _ => h0]
  unfold Core.mapDev regPoke
  rw [hl]
  rfl

end

/-- Settles O8: the dead time takes the written value, a reserved address nothing, Command word bit 10 is Interrupt Disable. -/
theorem registerWrites : Obligations.RegisterWrites := by
  intro s v
  refine ⟨fun p n hp ho hn => ?_, fun p a hp ho ha hl => ?_, ?_⟩
  · have hb : isBar0 (0x20004 + n * 64) = true := by simp only [isBar0, Bool.and_eq_true, decide_eq_true_eq]; omega
    refine runs_core_to (exec_registerWrite_bar0 hp hb)
      ((viaPort_open hp ho _).trans ((busWrite_open _ v ho).trans (fabricWrite_deadTime hn))) (sameBut_updPair _ n _) ?_
    exact ⟨updPair_same _ n _, rfl, fun m hm => updPair_other _ n m _ hm⟩
  · rw [exec_registerWrite_bar0 hp ha, onCore_ok, viaPort_open hp ho, busWrite_open a v ho, fabricWrite_reserved ha hl]
  · exact runs_core_to rfl rfl (sameBut_hi _ _) rfl

end Sys2Proof.Proofs
end

section
/-! O49: resets on one side of a crossing and their resync (R320–R323, R375). -/

namespace Sys2Proof.Proofs

open Sys2Proof Sys2Proof.Machine Sys2Proof.Laws

/-! ### A crossing that is quiesced (R321) -/

section
variable {d : Dev} {i k : Nat}

/-- The interrupt controller after `k` entries in flight have been discarded, with neither event of the crossings selected. -/
def quiesced (i k : Nat) (x : IntCtl) : IntCtl :=
  { x with xovr := Bank.upd 0 x.xovr i (addSat · k), xstat := orBit (orBit x.xstat 1) 0 }

theorem quiesce_empty (i : Nat) (d : Dev) : quiesce i 0 d = d := rfl

theorem fireCrossing_unselected (b : Nat) (hx : d.ic.xsel = 0) : fireCrossing b d = d := by
  unfold fireCrossing
  rw [hx]
  exact if_neg (by simp [bit])

theorem quiesce_unselected (hk : 0 < k) (hx : d.ic.xsel = 0) : quiesce i k d = { d with ic := quiesced i k d.ic } := by
  unfold quiesce
  rw [if_neg (Nat.ne_of_gt hk)]
  exact fireCrossing_unselected _ hx

theorem sameBut_quiesce (i k : Nat) (d : Dev) : SameBut [.ic, .ne] d (quiesce i k d) := by
  unfold quiesce
  split
  · exact sameBut_refl _ d
  · exact sameBut_trans (sameBut_mono (sameBut_ic d _) (by decide)) (sameBut_fireCrossing _ _)

theorem quiesced_xovr (x : IntCtl) : Bank.get 0 (quiesced i k x).xovr i = addSat (Bank.get 0 x.xovr i) k :=
  bank_get_upd_same 0 x.xovr i (addSat · k)

theorem quiesced_overrun (x : IntCtl) : bit (quiesced i k x).xstat 1 = true :=
  (bit_orBit_other _ 0 1 (by decide)).trans (bit_orBit_same _ 1 (by decide))

end

/-! ### The reset flags and what a port's reset clears (R320, R323) -/

theorem sameBut_xstatSet (b : Nat) (on : Bool) (d : Dev) : SameBut [.ic] d (xstatSet b on d) := sameBut_ic d _

theorem xstatSet_same {b : Nat} (hb : b < 32) (on : Bool) (d : Dev) : bit (xstatSet b on d).ic.xstat b = on :=
  bit_putBit_same _ b on hb

theorem xstatSet_other {b j : Nat} (hb : b ≠ j) (on : Bool) (d : Dev) : bit (xstatSet b on d).ic.xstat j = bit d.ic.xstat j :=
  bit_putBit_other _ b j on hb

/-- A reset of a host port changes its crossing's flags and counters and the host interfaces. -/
theorem sameBut_portReset (p b : Nat) {d d1 : Dev} (f : HostIf → HostIf) (h : SameBut [.ic] d d1) :
    SameBut [.ic, .hi] d
      { resetPort p (xstatSet b true d1) with hi := f (resetPort p (xstatSet b true d1)).hi } :=
  sameBut_then (sameBut_trans (sameBut_hi (xstatSet b true d1) _) (sameBut_hi _ _)) (by decide)
    (sameBut_then (sameBut_xstatSet b true d1) (by decide) (sameBut_mono h (by decide)))

theorem sameBut_pcieReset {k : Nat} {d : Dev} (h : SameBut [.ic] d (quiesce 2 k d)) : SameBut [.ic, .hi] d (pcieReset k d) :=
  sameBut_portReset 0 2 (fun x => { x with pcieReset := true, pcie := { sent := x.pcie.sent } }) h

theorem sameBut_qspiReset {k : Nat} {d : Dev} (h : SameBut [.ic] d (quiesce 3 k d)) : SameBut [.hi, .ic] d (qspiReset k d) :=
  sameBut_mono (sameBut_portReset 1 3 (fun x => { x with qspiReset := true, txn := {} }) h) (by decide)

theorem sameBut_qspiReset_empty (d : Dev) : SameBut [.hi, .ic] d (qspiReset 0 d) :=
  sameBut_qspiReset (k := 0) (sameBut_refl [.ic] d)

theorem pcieReset_path_same (k : Nat) (d : Dev) : (pcieReset k d).path 0 = {} :=
  bank_get_set_same ({} : PortPath) (quiesce 2 k d).hi.paths 0 {}

theorem pcieReset_path_other {q : Nat} (hq : q ≠ 0) (k : Nat) (d : Dev) : (pcieReset k d).path q = d.path q := by
  have h : (pcieReset k d).path q = (quiesce 2 k d).path q := bank_get_set_other ({} : PortPath) (quiesce 2 k d).hi.paths 0 q {} hq
  exact h.trans (congrArg (fun x : HostIf => Bank.get ({} : PortPath) x.paths q) (kept_hi (sameBut_quiesce 2 k d) (by decide)))

/-- The flag of MAC `m` at its line-side reset (R375). -/
theorem macLineReset_empty {m : Nat} (hm : m < 4) (d : Dev) : macLineReset m 0 d = xstatSet (4 + m) true d := by
  simp [macLineReset, hm, quiesce_empty]

theorem exec_crossingResync {s : State} {k : Nat} (hk : k < 6) :
    exec (.crossingResync k) s = onDevice true (crossingResync k) s :=
  congrArg (fun ok => onDevice ok (crossingResync k) s) (decide_eq_true hk)

/-- Settles O49: each reset's flag and counter are read off the crossing, and the resync clears the flag. -/
theorem crossingResets : Obligations.CrossingResets := by
  intro s
  refine ⟨?_, fun k hk hx => ?_, fun m hm hl => ?_, ?_, ?_, fun m hm => ⟨fun he => ?_, fun he => ?_⟩⟩
  · refine runs_onDevice rfl rfl (sameBut_pcieReset (sameBut_refl _ _)) ?_
    exact ⟨rfl, xstatSet_same (by decide) true s.core.dev, congrArg PortPath.latch (pcieReset_path_same 0 s.core.dev), rfl, rfl,
      fun q hq => pcieReset_path_other hq 0 s.core.dev⟩
  · have hq := quiesce_unselected (i := 2) hk hx
    refine runs_onDevice rfl rfl (sameBut_pcieReset (by rw [hq]; exact sameBut_ic _ _)) ?_
    dsimp only
    rw [pcieReset, hq]
    exact ⟨quiesced_xovr _, (bit_putBit_other _ 2 1 true (by decide)).trans (quiesced_overrun _),
      bit_putBit_same _ 2 true (by decide), rfl⟩
  · have hm4 : m < 4 := of_decide_eq_true hm
    refine runs_to hl ?_ (macLineReset_empty hm4 _) (sameBut_xstatSet _ _ _) ⟨xstatSet_same (by omega) true _, rfl⟩
    exact congrArg (fun ok => whenLiveDev ok (macLineReset m 0) s) hm
  · exact runs_onDevice (exec_crossingResync (by decide)) rfl
      (sameBut_then (sameBut_hi _ _) (by decide) (sameBut_mono (sameBut_xstatSet 2 false _) (by decide)))
      ⟨rfl, xstatSet_same (by decide) false s.core.dev, rfl⟩
  · exact runs_onDevice (exec_crossingResync (by decide)) rfl
      (sameBut_then (sameBut_hi _ _) (by decide) (sameBut_mono (sameBut_xstatSet 3 false _) (by decide)))
      ⟨rfl, xstatSet_same (by decide) false s.core.dev⟩
  · exact runs_onDevice (exec_crossingResync (by omega)) (if_pos ⟨hm, he⟩) (sameBut_xstatSet _ _ _)
      (xstatSet_same (by omega) false s.core.dev)
  · rw [exec_crossingResync (by omega)]
    have h : crossingResync (m + 2) s.core.dev = s.core.dev := if_neg fun hc => by simp [he] at hc
    simp [onDevice, onCore, Core.mapDev, h]

end Sys2Proof.Proofs
end

section
/-! O55: the QSPI target (R413–R416, R420). -/

namespace Sys2Proof.Proofs

open Sys2Proof Sys2Proof.Machine Sys2Proof.Laws

/-! ### The status and the place of a word (R415) -/

section
variable {a : Nat} {d : Dev}

theorem qspiStatus_bar0 (ha : a < 67108864) (h4 : a % 4 = 0) : qspiStatus a a d = if portLive 1 d then 0x80 else 0x81 := by
  have h0 : a / 2 ^ 28 = 0 := by omega
  have hm : a % 2 ^ 26 = a := by omega
  unfold qspiStatus
  simp only [h0, hm, h4, if_true, Nat.sub_self, Nat.add_zero]
  exact if_neg (by omega)

theorem qspiOffset_bar0 (ha : a < 67108864) : qspiOffset a a = a := by
  have h0 : a / 2 ^ 28 = 0 := by omega
  have hm : a % 2 ^ 26 = a := by omega
  simp only [qspiOffset, h0, hm, if_true, Nat.sub_self, Nat.add_zero]

theorem qspiStatus_window (ha : a < 16777216) (h4 : a % 4 = 0) (hl : portLive 1 d = true) :
    qspiStatus (268435456 + a) (268435456 + a) d = 0x80 := by
  have h0 : (268435456 + a) / 2 ^ 28 = 1 := by omega
  unfold qspiStatus
  simp only [h0, hl, if_true, Nat.sub_self, Nat.add_zero, if_neg Nat.one_ne_zero]
  exact if_neg (by omega)

theorem qspiStatus_outside (h : 536870912 ≤ a ∨ a % 4 ≠ 0) (first : Nat) (hf : first = a) : qspiStatus first a d = 0x82 := by
  subst hf
  unfold qspiStatus
  exact if_pos (by omega)

end

/-! ### The words of a transaction (R415, R416) -/

/-- One more word answered in the transaction. -/
def answer (st : Byte) (v : W32) (d : Dev) : Dev :=
  { d with hi := { d.hi with txn := { d.hi.txn with answers := d.hi.txn.answers ++ [(st, v)] } } }

/-- The word answered is what the read has put out. -/
theorem answer_read (st : Byte) (v : W32) (d : Dev) :
    answer st (Bank.get 0 (putData 1 v d).hi.data 1) (putData 1 v d) = answer st v (putData 1 v d) :=
  congrArg (fun w => answer st w (putData 1 v d)) (putData_data 1 v d)

/-- A transaction that has begun: nothing of a former one is left. -/
def begun (d : Dev) : Dev := { d with hi := { d.hi with txn := {} } }

theorem answer_hstat (st : Byte) (v : W32) (d : Dev) (p : Nat) : (answer st v d).hstat p = d.hstat p := rfl
theorem putData_hstat (q : Nat) (v : W32) (d : Dev) (p : Nat) : (putData q v d).hstat p = d.hstat p := rfl
theorem sameBut_answer (st : Byte) (v : W32) (d : Dev) : SameBut [.hi] d (answer st v d) := sameBut_hi d _
theorem sameBut_begun (d : Dev) : SameBut [.hi] d (begun d) := sameBut_hi d _
theorem sameBut_badAccess (p : Nat) (d : Dev) : SameBut [.hi] d (badAccess p d) :=
  sameBut_trans (sameBut_updHstat d p _) (sameBut_updHstat _ p _)

section
variable {c : Core} {a first : Nat} {v : W32} {g : Dev → Dev}

theorem portLive_fabricUp {p : Nat} {d : Dev} (h : portLive p d = true) : fabricUp d = true := (Bool.and_eq_true_iff.mp h).1

theorem busRead_up {p : Nat} (h : fabricUp c.dev = true) (hr : fabricRead p a c = (v, c.mapDev g)) :
    busRead p a c = c.mapDev fun d => putData p v (g d) := by
  simp [busRead, h, hr, Core.mapDev]

theorem busWrite_up {p : Nat} (h : fabricUp c.dev = true) : busWrite p a v c = fabricWrite p a v c := by
  simp [busWrite, h]

/-- A word of BAR0 that is read. -/
theorem qspiReadWord_ok (hst : qspiStatus first a c.dev = 0x80) (hsp : first / 2 ^ 28 = 0) (hl : portLive 1 c.dev = true)
    (hr : fabricRead 1 (qspiOffset first a) c = (v, c.mapDev g)) :
    qspiReadWord first a c = c.mapDev fun d => answer 0x80 v (putData 1 v (g d)) := by
  unfold qspiReadWord
  dsimp only
  rw [hst, hsp, if_pos rfl, if_pos rfl, busRead_up (portLive_fabricUp hl) hr]
  exact congrArg (Core.mk c.vault) (answer_read _ _ _)

theorem qspiReadWord_abort (hst : qspiStatus first a c.dev = 0x81) :
    qspiReadWord first a c = c.mapDev fun d => answer 0x81 0xFFFFFFFF#32 (putData 1 0xFFFFFFFF#32 d) := by
  unfold qspiReadWord
  dsimp only
  rw [hst, if_neg (by decide), if_pos rfl]
  exact congrArg (Core.mk c.vault) (answer_read _ _ _)

theorem qspiReadWord_error (hst : qspiStatus first a c.dev = 0x82) :
    qspiReadWord first a c = c.mapDev fun d => answer 0x82 0 (putData 1 0 (badAccess 1 d)) := by
  unfold qspiReadWord
  dsimp only
  rw [hst, if_neg (by decide), if_neg (by decide)]
  exact congrArg (Core.mk c.vault) (answer_read _ _ _)

theorem qspiWriteWord_ok (hst : qspiStatus first a c.dev = 0x80) (hsp : first / 2 ^ 28 = 0) (hl : portLive 1 c.dev = true)
    (hw : fabricWrite 1 (qspiOffset first a) v c = c.mapDev g) :
    qspiWriteWord first a v c = c.mapDev fun d => answer 0x80 v (g d) := by
  unfold qspiWriteWord
  dsimp only
  rw [hst, hsp, if_pos rfl, if_pos rfl, busWrite_up (portLive_fabricUp hl), hw]
  rfl

theorem qspiWriteWord_window (hst : qspiStatus first a c.dev = 0x80) (hsp : first / 2 ^ 28 ≠ 0) :
    qspiWriteWord first a v c = c.mapDev (answer 0x80 v) := by
  unfold qspiWriteWord
  dsimp only
  rw [hst, if_pos rfl, if_neg hsp]
  rfl

theorem qspiWriteWord_abort (hst : qspiStatus first a c.dev = 0x81) :
    qspiWriteWord first a v c = c.mapDev fun d => answer 0x81 v (dropWrite 1 d) := by
  unfold qspiWriteWord
  dsimp only
  rw [hst, if_neg (by decide)]
  rfl

theorem qspiWriteWord_error (hst : qspiStatus first a c.dev = 0x82) :
    qspiWriteWord first a v c = c.mapDev fun d => answer 0x82 v (badAccess 1 d) := by
  unfold qspiWriteWord
  dsimp only
  rw [hst, if_neg (by decide)]
  rfl

theorem latch_setLatch (p : Nat) (l : List (Nat × W32)) (d : Dev) : ((setLatch p l d).path p).latch = l :=
  congrArg PortPath.latch (updPath_same d p fun x => { x with latch := l })

/-- TB_TIME_LO answered. -/
def timeLowDone (d : Dev) : Dev :=
  answer 0x80 (loWord d.tb.time) (putData 1 (loWord d.tb.time) (setLatch 1 [(0x100C, hiWord d.tb.time)] d))

/-- TB_TIME_HI answered from the latch. -/
def timeHighDone (v : W32) (d : Dev) : Dev := answer 0x80 v (putData 1 v (setLatch 1 [] d))

theorem timeLowDone_latch (d : Dev) : ((timeLowDone d).path 1).latch = [(0x100C, hiWord d.tb.time)] :=
  latch_setLatch 1 [(0x100C, hiWord d.tb.time)] d
theorem timeHighDone_latch (v : W32) (d : Dev) : ((timeHighDone v d).path 1).latch = [] := latch_setLatch 1 [] d

theorem sameBut_timeLowDone (d : Dev) : SameBut [.hi] d (timeLowDone d) :=
  sameBut_trans (sameBut_trans (sameBut_setLatch 1 _ d) (sameBut_putData 1 _ _)) (sameBut_answer _ _ _)
theorem sameBut_timeHighDone (v : W32) (d : Dev) : SameBut [.hi] d (timeHighDone v d) :=
  sameBut_trans (sameBut_trans (sameBut_setLatch 1 _ d) (sameBut_putData 1 _ _)) (sameBut_answer _ _ _)

/-- TB_TIME_LO read by a transaction. -/
theorem qspiReadWord_timeLow (hl : portLive 1 c.dev = true) : qspiReadWord 0x1008 0x1008 c = c.mapDev timeLowDone :=
  qspiReadWord_ok (by rw [qspiStatus_bar0 (by decide) (by decide), if_pos hl]) rfl hl fabricRead_timeLow

/-- TB_TIME_HI read behind it. -/
theorem qspiReadWord_timeHigh (hl : portLive 1 c.dev = true) (h : (c.dev.path 1).latch = [(0x100C, v)]) :
    qspiReadWord 0x1008 0x100C c = c.mapDev (timeHighDone v) := by
  have hst : qspiStatus 0x1008 0x100C c.dev = 0x80 := by
    unfold qspiStatus
    rw [hl]
    rfl
  exact qspiReadWord_ok hst rfl hl (fabricRead_timeLatched h)

theorem qspiReads_time (hl : portLive 1 c.dev = true) : qspiReadWord 0x1008 0x100C (qspiReadWord 0x1008 0x1008 c) =
    c.mapDev fun d => timeHighDone (hiWord c.dev.tb.time) (timeLowDone d) := by
  rw [qspiReadWord_timeLow hl]
  exact qspiReadWord_timeHigh (c := c.mapDev timeLowDone) hl (timeLowDone_latch c.dev)

/-! ### The transactions -/

theorem qspiRead_one (hr : c.dev.hi.qspiReset = false) : qspiRead a 1 false c = qspiReadWord a a (c.mapDev begun) := by
  simp [qspiRead, hr]
  rfl

theorem qspiRead_two (hr : c.dev.hi.qspiReset = false) :
    qspiRead a 2 false c = qspiReadWord a (a + 4) (qspiReadWord a a (c.mapDev begun)) := by
  simp [qspiRead, hr, List.range_succ]
  rfl

theorem qspiRead_inFlight (hr : c.dev.hi.qspiReset = false) (hst : qspiStatus a a c.dev = 0x80) :
    qspiRead a 0 true c = c.mapDev fun d => { d with hi := { d.hi with txn := { open_ := some (a, none) } } } := by
  have h : qspiStatus a a (qspiBegin c).dev = 0x80 := hst
  simp [qspiRead, hr, h]
  rfl

theorem qspiWrite_one (hr : c.dev.hi.qspiReset = false) : qspiWrite a [v] none c = qspiWriteWord a a v (c.mapDev begun) := by
  simp [qspiWrite, hr, qspiWords]
  rfl

theorem qspiWrite_inFlight (hr : c.dev.hi.qspiReset = false) : qspiWrite a [] (some v) c =
    c.mapDev fun d => { d with hi := { d.hi with txn := { open_ := some (a, some v) } } } := by
  simp [qspiWrite, hr, qspiWords]
  rfl

/-! ### The end of a transaction (R416) -/

/-- Only the answers of the transaction remain. -/
def ended (l : List (Byte × W32)) (d : Dev) : Dev := { d with hi := { d.hi with txn := { answers := l } } }

theorem csRise_reset (x : Bool) (h : c.dev.hi.txn.resetDue = true) : csRise x c = c.mapDev fun d => qspiReset 0 (begun d) := by
  simp only [csRise, h, if_true]
  rfl

theorem csRise_answered {x : Bool} (h : c.dev.hi.txn.resetDue = false)
    (ho : (∀ a, c.dev.hi.txn.open_ ≠ some (a, none)) ∨ x = false) : csRise x c = c.mapDev (ended c.dev.hi.txn.answers) := by
  unfold csRise
  dsimp only
  rw [h, if_neg (by decide)]
  split
  next a he =>
    obtain ho | rfl := ho
    · exact absurd he (ho a)
    · rfl
  next => rfl

/-- A read that has crossed is carried out, and its data lost. -/
theorem csRise_crossed (h : c.dev.hi.txn.resetDue = false) (ho : c.dev.hi.txn.open_ = some (a, none)) :
    csRise true c = ((qspiReadWord a a c).mapDev (putData 1 (Bank.get 0 c.dev.hi.data 1))).mapDev (ended c.dev.hi.txn.answers) := by
  unfold csRise
  dsimp only
  rw [h, if_neg (by decide), ho]
  rfl

/-- TB_TIME_LO read after the end: the word latched behind it stands, and the data is that of the read before. -/
def timeLowLost (d : Dev) : Dev := ended d.hi.txn.answers (putData 1 (Bank.get 0 d.hi.data 1) (timeLowDone d))

theorem sameBut_timeLowLost (d : Dev) : SameBut [.hi] d (timeLowLost d) :=
  sameBut_trans (sameBut_trans (sameBut_timeLowDone d) (sameBut_putData 1 _ _)) (sameBut_hi _ _)

theorem csRise_timeLow (h : c.dev.hi.txn.resetDue = false) (ho : c.dev.hi.txn.open_ = some (0x1008, none))
    (hl : portLive 1 c.dev = true) : csRise true c = c.mapDev timeLowLost := by
  rw [csRise_crossed h ho, qspiReadWord_timeLow hl]
  simp only [Core.mapDev, timeLowLost]

end

/-! ### Host status in the domain itself, resets of the domain (R414, R420) -/

theorem bit_statusMask (b : Nat) : bit (0x78#32) b = decide (3 ≤ b ∧ b ≤ 6) := by
  by_cases h : b < 32
  · have hall : ∀ b < 32, bit (0x78#32) b = decide (3 ≤ b ∧ b ≤ 6) := by decide
    exact hall b h
  · rw [decide_eq_false (by omega)]
    exact BitVec.getLsbD_of_ge _ _ (by omega)

theorem bit_not {b : Nat} (h : b < 32) (w : W32) : bit (~~~w) b = !bit w b := by
  simp [bit, h]

/-- Bits 3 to 6 of HS_STAT are cleared by a 1. -/
theorem bit_w1c_status (w v : W32) (b : Nat) : bit (w1c 0x78#32 w v) b = (bit w b && !(decide (3 ≤ b ∧ b ≤ 6) && bit v b)) := by
  unfold w1c
  by_cases h : b < 32
  · rw [bit_and, bit_not h, bit_and, bit_statusMask, Bool.and_comm (bit v b)]
  · have h1 : ∀ x : W32, bit x b = false := fun x => BitVec.getLsbD_of_ge _ _ (by omega)
    simp [h1]

theorem clearHostStatus_hstat (v : W32) (d : Dev) : (clearHostStatus v d).hstat 1 =
    { d.hstat 1 with stat := w1c 0x78#32 (d.hstat 1).stat v, linten := bit v 0 } := by
  simp [clearHostStatus, hsStatWrite]

theorem clearHostStatus_other {p : Nat} (hp : p ≠ 1) (v : W32) (d : Dev) : (clearHostStatus v d).hstat p = d.hstat p :=
  (updHstat_other _ 1 p _ hp).trans (updHstat_other _ 1 p _ hp)

theorem sameBut_clearHostStatus (v : W32) (d : Dev) : SameBut [.hi] d (clearHostStatus v d) :=
  sameBut_trans (sameBut_updHstat d 1 _) (sameBut_updHstat _ 1 _)

theorem unknownOpcode_badop (d : Dev) : bit ((unknownOpcode d).hstat 1).stat 6 = true := by
  rw [unknownOpcode, hsFlag, updHstat_same]
  exact bit_orBit_same _ 6 (by decide)

theorem badAccess_hstat (p : Nat) (d : Dev) : (badAccess p d).hstat p =
    { d.hstat p with stat := orBit (d.hstat p).stat 5, badc := incSat (d.hstat p).badc } := by
  simp [badAccess, hsFlag]

theorem badAccess_other {p q : Nat} (hq : q ≠ p) (d : Dev) : (badAccess p d).hstat q = d.hstat q :=
  (updHstat_other _ p q _ hq).trans (updHstat_other _ p q _ hq)

theorem qspiReset_path_same (k : Nat) (d : Dev) : (qspiReset k d).path 1 = {} :=
  bank_get_set_same ({} : PortPath) (quiesce 3 k d).hi.paths 1 {}

theorem qspiReset_hstat_same (k : Nat) (d : Dev) : (qspiReset k d).hstat 1 = {} :=
  bank_get_set_same ({} : HostStat) (quiesce 3 k d).hi.stats 1 {}

theorem qspiReset_path_other {q : Nat} (hq : q ≠ 1) (d : Dev) : (qspiReset 0 d).path q = d.path q :=
  bank_get_set_other ({} : PortPath) d.hi.paths 1 q {} hq

/-! ### The commands -/

section
variable {s : State} {a : Nat} {l : List Part} {P : State → Prop} {e : Dev}

theorem exec_qspiRead (n : Nat) (m : Bool) (ha : a < 4294967296) :
    exec (.qspiRead a n m) s = onCore true (qspiRead a n m) s :=
  congrArg (fun ok => onCore ok (qspiRead a n m) s) (decide_eq_true ha)

theorem exec_qspiWrite (w : List W32) (x : Option W32) (ha : a < 4294967296) :
    exec (.qspiWrite a w x) s = onCore true (qspiWrite a w x) s :=
  congrArg (fun ok => onCore ok (qspiWrite a w x) s) (decide_eq_true ha)

theorem qspiStopped (hr : s.core.dev.hi.qspiReset = true) (n : Nat) (w : List W32) (m : Bool) (x : Option W32)
    (ha : a < 4294967296) : exec (.qspiRead a n m) s = .next s ∧ exec (.qspiWrite a w x) s = .next s := by
  rw [exec_qspiRead n m ha, exec_qspiWrite w x ha, onCore_ok, onCore_ok]
  simp [qspiRead, qspiWrite, hr]

theorem runs_qspiRead_one (hr : s.core.dev.hi.qspiReset = false) (ha : a < 4294967296)
    (hw : qspiReadWord a a (s.core.mapDev begun) = { s.core with dev := e }) (hs : SameBut l s.core.dev e)
    (hp : P { s with core := { s.core with dev := e } }) : Runs (.qspiRead a 1 false) s l P :=
  runs_core_to (exec_qspiRead 1 false ha) ((qspiRead_one hr).trans hw) hs hp

theorem runs_qspiWrite_one {v : W32} (hr : s.core.dev.hi.qspiReset = false) (ha : a < 4294967296)
    (hw : qspiWriteWord a a v (s.core.mapDev begun) = { s.core with dev := e }) (hs : SameBut l s.core.dev e)
    (hp : P { s with core := { s.core with dev := e } }) : Runs (.qspiWrite a [v] none) s l P :=
  runs_core_to (exec_qspiWrite [v] none ha) ((qspiWrite_one hr).trans hw) hs hp

end

/-- The frame of one word's transaction: only the host interfaces change. -/
theorem sameBut_wordOf {d e : Dev} (h : SameBut [.hi] (begun d) e) (st : Byte) (v : W32) : SameBut [.hi] d (answer st v e) :=
  sameBut_trans (sameBut_trans (sameBut_begun d) h) (sameBut_answer st v e)

section
variable {c : Core} {a : Nat}

theorem status_live (hl : portLive 1 c.dev = true) (ha : a < 67108864) (h4 : a % 4 = 0) : qspiStatus a a c.dev = 0x80 := by
  rw [qspiStatus_bar0 ha h4, if_pos hl]

theorem status_stopped (hl : portLive 1 c.dev = false) (ha : a < 67108864) (h4 : a % 4 = 0) : qspiStatus a a c.dev = 0x81 := by
  rw [qspiStatus_bar0 ha h4, hl]
  rfl

/-- A pair's dead time written by a transaction. -/
theorem qspiWriteWord_deadTime {n : Nat} (v : W32) (hl : portLive 1 c.dev = true) (hn : n < 128) :
    qspiWriteWord (0x20004 + n * 64) (0x20004 + n * 64) v c =
      c.mapDev fun d => answer 0x80 v (d.updPair n fun x => { x with dtr := v &&& 0x3FFFF#32 }) := by
  refine qspiWriteWord_ok (status_live hl (by omega) (by omega)) (by omega) hl ?_
  rw [qspiOffset_bar0 (by omega), fabricWrite_deadTime hn]

end

/-- Settles O55: the words of a transaction, host status, and the end of a transaction, each by the law of its operation. -/
theorem hostTarget : Obligations.HostTarget := by
  intro s
  refine ⟨fun hr a n w m x ha => qspiStopped hr n w m x ha, fun hr => ⟨fun hl => ⟨?_, ?_, fun a ha h4 => ?_, fun n v hn => ?_,
    fun a v ha h4 => ?_⟩, fun hl => ⟨fun a ha h4 => ?_, fun a v ha h4 => ?_⟩, fun a v ha ho => ⟨?_, ?_⟩, fun a v ha => ?_⟩,
    ?_, fun v => ?_, ?_, ?_, fun x hd => ?_, fun hd => ⟨fun x ho => ?_, fun ho hl => ?_⟩, ?_, fun k hk hx => ?_,
    fun hr => ?_, fun hr => ?_⟩
  · exact runs_qspiRead_one hr (by decide) (qspiReadWord_timeLow (c := s.core.mapDev begun) hl)
      (sameBut_trans (sameBut_begun _) (sameBut_timeLowDone _)) ⟨rfl, timeLowDone_latch (begun s.core.dev)⟩
  · refine runs_core_to (exec_qspiRead 2 false (by decide)) ((qspiRead_two hr).trans (qspiReads_time (c := s.core.mapDev begun) hl))
      ?_ ⟨rfl, timeHighDone_latch _ (timeLowDone (begun s.core.dev))⟩
    exact sameBut_trans (sameBut_trans (sameBut_begun _) (sameBut_timeLowDone _)) (sameBut_timeHighDone _ _)
  · exact runs_core_to (exec_qspiRead 0 true (by omega)) (qspiRead_inFlight hr (status_live hl ha h4)) (sameBut_hi _ _) rfl
  · refine runs_qspiWrite_one hr (by omega) (qspiWriteWord_deadTime (c := s.core.mapDev begun) v hl hn) ?_
      ⟨updPair_same _ n _, rfl, fun m hm => updPair_other _ n m _ hm⟩
    exact sameBut_then (sameBut_answer _ _ _) (by decide) (sameBut_then (sameBut_updPair _ n _) (by decide)
      (sameBut_mono (sameBut_begun _) (by decide)))
  · exact runs_qspiWrite_one hr (by omega) (qspiWriteWord_window (c := s.core.mapDev begun) (qspiStatus_window ha h4 hl) (by omega))
      (sameBut_wordOf (e := begun s.core.dev) (sameBut_refl _ _) 0x80 v) rfl
  · exact runs_qspiRead_one hr (by omega) (qspiReadWord_abort (c := s.core.mapDev begun) (status_stopped hl ha h4))
      (sameBut_wordOf (sameBut_putData 1 _ _) _ _) ⟨rfl, rfl⟩
  · refine runs_qspiWrite_one hr (by omega) (qspiWriteWord_abort (c := s.core.mapDev begun) (status_stopped hl ha h4))
      (sameBut_wordOf (sameBut_dropWrite 1 _) _ _) ⟨rfl, ?_⟩
    dsimp only
    rw [answer_hstat, dropWrite_hstat]
    exact ⟨bit_orBit_same _ 4 (by decide), rfl⟩
  · refine runs_qspiRead_one hr ha (qspiReadWord_error (c := s.core.mapDev begun) (qspiStatus_outside ho a rfl))
      (sameBut_wordOf (sameBut_trans (sameBut_badAccess 1 _) (sameBut_putData 1 _ _)) _ _) ⟨rfl, ?_⟩
    dsimp only
    rw [answer_hstat, putData_hstat, badAccess_hstat]
    exact ⟨bit_orBit_same _ 5 (by decide), rfl⟩
  · refine runs_qspiWrite_one hr ha (qspiWriteWord_error (c := s.core.mapDev begun) (qspiStatus_outside ho a rfl))
      (sameBut_wordOf (sameBut_badAccess 1 _) _ _) ⟨rfl, ?_⟩
    dsimp only
    rw [answer_hstat, badAccess_hstat]
    exact ⟨bit_orBit_same _ 5 (by decide), rfl⟩
  · exact runs_core_to (exec_qspiWrite [] (some v) ha) (qspiWrite_inFlight hr) (sameBut_hi _ _) rfl
  · exact runs_onDevice rfl rfl (sameBut_putData 1 _ _) rfl
  · have h := clearHostStatus_hstat v s.core.dev
    refine runs_onDevice rfl rfl (sameBut_clearHostStatus v _) ⟨?_, fun b => ?_, rfl, fun p hp => clearHostStatus_other hp v _⟩
    · dsimp only
      rw [h]
    · dsimp only
      rw [h]
      exact bit_w1c_status _ v b
  · exact runs_onDevice rfl rfl (sameBut_hi _ _) rfl
  · refine runs_onDevice rfl rfl (sameBut_trans (sameBut_hi s.core.dev _) (sameBut_updHstat _ 1 _)) ⟨rfl, ?_,
      fun p hp => updHstat_other _ 1 p _ hp⟩
    exact unknownOpcode_badop s.core.dev
  · refine runs_core_to rfl (csRise_reset x hd) (sameBut_trans (sameBut_mono (sameBut_begun _) (by decide))
      (sameBut_qspiReset_empty _)) ?_
    exact ⟨rfl, rfl, qspiReset_path_same 0 _, qspiReset_hstat_same 0 _, xstatSet_same (by decide) true s.core.dev, rfl⟩
  · exact runs_core_to rfl (csRise_answered hd ho) (sameBut_hi _ _) rfl
  · refine runs_core_to rfl (csRise_timeLow hd ho hl) (sameBut_timeLowLost s.core.dev) ?_
    exact ⟨rfl, timeLowDone_latch s.core.dev, putData_data 1 _ (timeLowDone s.core.dev)⟩
  · refine runs_onDevice rfl rfl (sameBut_qspiReset_empty _) ?_
    exact ⟨rfl, rfl, qspiReset_path_same 0 _, qspiReset_hstat_same 0 _, qspiReset_path_other (by decide) _,
      xstatSet_same (by decide) true s.core.dev, rfl⟩
  · have hq := quiesce_unselected (i := 3) hk hx
    refine runs_onDevice rfl rfl (sameBut_qspiReset (by rw [hq]; exact sameBut_ic _ _)) ?_
    dsimp only
    rw [qspiReset, hq]
    exact ⟨rfl, bit_putBit_same _ 3 true (by decide), (bit_putBit_other _ 3 1 true (by decide)).trans (quiesced_overrun _),
      quiesced_xovr _⟩
  · exact congrArg Host.Outcome.next (show _ = s by simp [viaPort, hr])
  · have h := badAccess_hstat 0 s.core.dev
    exact runs_core_to rfl (viaPort_host (p := 0) (by decide) hr _) (sameBut_badAccess 0 _) ⟨h, fun p hp => badAccess_other hp _⟩

end Sys2Proof.Proofs
end

section
/-! O48: the sources of the interrupt controller, doorbells, host vectors and wake latches (R299–R309, R422). -/

namespace Sys2Proof.Proofs

open Sys2Proof Sys2Proof.Machine Sys2Proof.Laws

/-! ### An event or a software set (R301) -/

section
variable {n m : Nat} {d : Dev}

theorem sameBut_wakeIfFirst (t : Nat) (had : Bool) (d : Dev) : SameBut [.ne] d (wakeIfFirst t had d) :=
  sameBut_ite (fun _ => sameBut_wakeEngine _ _ _) fun _ => sameBut_refl _ d

theorem wakeIfFirst_source (t : Nat) (had : Bool) (d : Dev) (m : Nat) : (wakeIfFirst t had d).source m = d.source m :=
  kept_source (sameBut_wakeIfFirst t had d) (by decide) m

theorem fireSource_fresh (hp : (d.source n).pend = false) (ha : (d.source n).act = false) :
    (fireSource n d).source n = { d.source n with pend := true } := by
  simp [fireSource, hp, ha, wakeIfFirst_source]

theorem fireSource_lost (h : (d.source n).pend = true) (hn : n < 0x100 ∨ 0x200 ≤ n) :
    fireSource n d = d.updSource n fun s => { s with lost := true } := by
  have hl : decide (0x100 ≤ n ∧ n < 0x200) = false := decide_eq_false (by omega)
  simp [fireSource, h, hl]

theorem fireSource_other (hm : m ≠ n) : (fireSource n d).source m = d.source m := by
  have h := fun f => updSource_other d n m f hm
  unfold fireSource
  dsimp only
  split
  · split
    · rfl
    · exact h _
  · exact (wakeIfFirst_source _ _ _ m).trans (h _)

theorem fireSource_act : ((fireSource n d).source n).act = (d.source n).act := by
  unfold fireSource
  dsimp only
  split
  · split
    · rfl
    · rw [updSource_same]
  · rw [wakeIfFirst_source, updSource_same]

end

/-! ### Writes of one bit of a record (R301) -/

/-- An operation over a list that acts on one element alone. -/
theorem forEach_only {α : Type} {g : α → Dev → Dev} {k : α} (l : List α) (hn : l.Nodup) (hk : k ∈ l)
    (h : ∀ b, b ≠ k → ∀ d, g b d = d) (d : Dev) : forEach l g d = g k d := by
  have hid : ∀ (t : List α), k ∉ t → ∀ d, forEach t g d = d := by
    intro t ht
    induction t with
    | nil => exact fun _ => rfl
    | cons b t ih =>
      intro d
      have hb : b ≠ k := fun he => ht (he ▸ List.mem_cons_self)
      exact (congrArg (forEach t g) (h b hb d)).trans (ih (fun hm => ht (List.mem_cons_of_mem _ hm)) d)
  induction l generalizing d with
  | nil => cases hk
  | cons b t ih =>
    obtain ⟨hbt, hnt⟩ := List.nodup_cons.mp hn
    obtain rfl | hkt := List.mem_cons.mp hk
    · exact hid t hbt (g k d)
    · have hb : b ≠ k := fun he => hbt (he ▸ hkt)
      exact (congrArg (forEach t g) (h b hb d)).trans (ih hnt hkt d)

/-- A write of a 1 to the bit of source `n` alone. -/
theorem forEach_oneBit (n : Nat) (f : Nat → Dev → Dev) (d : Dev) :
    forEach (List.range 32) (fun b d => if bit (BitVec.ofNat 32 (2 ^ (n % 32))) b then f (32 * (n / 32) + b) d else d) d = f n d := by
  have hn : n % 32 < 32 := Nat.mod_lt _ (by decide)
  have hb : ∀ b, bit (BitVec.ofNat 32 (2 ^ (n % 32))) b = (decide (b < 32) && decide (n % 32 = b)) := getLsbD_two_pow (n % 32)
  rw [forEach_only (k := n % 32) _ List.nodup_range (List.mem_range.mpr hn)]
  · rw [hb, if_pos (by simp [hn]), Nat.div_add_mod]
  · intro b hne d
    rw [hb, if_neg (by simp [Ne.symm hne])]

section
variable {n m : Nat} {d : Dev}

theorem icSetPending_one : icSetPending (n / 32) (BitVec.ofNat 32 (2 ^ (n % 32))) d = fireSource n d :=
  forEach_oneBit n fireSource d

theorem icClearPending_one : icClearPending (n / 32) (BitVec.ofNat 32 (2 ^ (n % 32))) d =
    refireLevel n (settleVectors (d.updSource n fun s => { s with pend := false })) :=
  (forEach_oneBit n refireLevel _).trans
    (congrArg (fun e => refireLevel n (settleVectors e)) (forEach_oneBit n (fun k d => d.updSource k fun s => { s with pend := false }) d))

/-- Only a pin source fires again by its level (R300). -/
theorem refireLevel_notPin (hn : n < 0x100 ∨ 0x200 ≤ n) : refireLevel n d = d := by
  have hl : decide (0x100 ≤ n ∧ n < 0x200) = false := decide_eq_false (by omega)
  simp [refireLevel, hl]

theorem sameBut_refireLevel (n : Nat) (d : Dev) : SameBut [.ic, .ne] d (refireLevel n d) :=
  sameBut_ite (fun _ => sameBut_fireSource n d) fun _ => sameBut_refl _ d

theorem refireLevel_other (hm : m ≠ n) : (refireLevel n d).source m = d.source m := by
  unfold refireLevel
  dsimp only
  split
  · exact fireSource_other hm
  · rfl

/-- A pin source that is not pending is pending again when it is of level sense, high and not active. -/
theorem refireLevel_pin (h1 : 0x100 ≤ n) (h2 : n < 0x200) (hp : (d.source n).pend = false) :
    (refireLevel n d).source n = { d.source n with
      pend := decide (srcSense (d.source n) = 3) && (d.source n).level && !(d.source n).act } := by
  unfold refireLevel
  dsimp only
  rw [decide_eq_true ⟨h1, h2⟩, hp]
  split
  next h =>
    simp only [Bool.and_eq_true, beq_iff_eq, Bool.not_eq_true', Bool.not_false] at h
    obtain ⟨⟨⟨⟨-, hs⟩, hl⟩, -⟩, ha⟩ := h
    rw [fireSource_fresh hp ha]
    simp [hs, hl, ha]
  next h =>
    have hf : (decide (srcSense (d.source n) = 3) && (d.source n).level && !(d.source n).act) = false := by simpa using h
    rw [hf, ← hp]

end

/-! ### The register of a source (R307) -/

/-- The register of a source that is neither enabled nor active, after a write: EN, TGT and PRI are taken. -/
def srcWritten (v w : W32) : W32 :=
  putBit ((setFld w 0 3 (fld v 0 3) &&& ~~~fmask 16 5) ||| (v &&& fmask 16 5)) 31 (bit v 31)

theorem srcWritten_en (v w : W32) : bit (srcWritten v w) 31 = bit v 31 := bit_putBit_same _ 31 _ (by decide)

theorem srcWritten_tgt (v w : W32) : fld (srcWritten v w) 16 5 = fld v 16 5 := by
  have hmask : ∀ j < 21, 16 ≤ j → bit (fmask 16 5) j = true := by decide
  refine fld_congr fun j h1 h2 => ?_
  rw [srcWritten, bit_putBit_other _ 31 j _ (by omega), bit_or, bit_and, bit_and, bit_not (by omega), hmask j h2 h1]
  simp

theorem srcWritten_pri (v w : W32) : fld (srcWritten v w) 0 3 = fld v 0 3 := by
  have hmask : ∀ j < 3, bit (fmask 16 5) j = false := by decide
  have h : fld (srcWritten v w) 0 3 = fld (setFld w 0 3 (fld v 0 3)) 0 3 := by
    refine fld_congr fun j _ h2 => ?_
    rw [srcWritten, bit_putBit_other _ 31 j _ (by omega), bit_or, bit_and, bit_and, bit_not (by omega), hmask j h2]
    simp
  rw [h, fld_setFld_same _ _ _ _ (by decide), fld, Nat.mod_mod]

section
variable {n m : Nat} {v : W32} {d : Dev}

theorem icSourceWrite_free (h : n < 0x3AE) (he : srcEn (d.source n) = false) (ha : (d.source n).act = false)
    (hn : n < 0x100 ∨ 0x200 ≤ n) : icSourceWrite n v d =
      settleVectors (wakeIfFirst (fld (srcWritten v (d.source n).src) 16 5)
        (winner (fld (srcWritten v (d.source n).src) 16 5) d).isSome
        (d.updSource n fun s => { s with
          src := srcWritten v (d.source n).src
          span := if bit v 31 then false else (d.source n).span
          spanAt := if srcEn s && !bit v 31 then d.tb.tclk else s.spanAt })) := by
  have hl : decide (0x100 ≤ n ∧ n < 0x200) = false := decide_eq_false (by omega)
  have hb : (decide (0x3AF ≤ n) || (n == 0x3AE && d.ic.xsel &&& 3#32 == 0#32)) = false := by
    rw [decide_eq_false (by omega), beq_false_of_ne (by omega)]
    rfl
  unfold icSourceWrite
  dsimp only
  rw [refireLevel_notPin hn]
  simp only [hl, hb, he, ha, Bool.or_self, Bool.false_and, Bool.and_false, Bool.false_eq_true, if_false]
  rfl

theorem sameBut_sourceWrite (t : Nat) (had : Bool) (f : IntSource → IntSource) :
    SameBut [.ic, .ne] d (settleVectors (wakeIfFirst t had (d.updSource n f))) :=
  sameBut_then (sameBut_settleVectors _) (by decide) (sameBut_then (sameBut_wakeIfFirst _ _ _) (by decide)
    (sameBut_mono (sameBut_updSource d n f) (by decide)))

theorem sourceWrite_source (t : Nat) (had : Bool) (f : IntSource → IntSource) (m : Nat) :
    (settleVectors (wakeIfFirst t had (d.updSource n f))).source m = (d.updSource n f).source m :=
  (settleVectors_source _ m).trans (wakeIfFirst_source t had _ m)

/-- The span of a source that is not enabled ends (R306). -/
theorem icSpanEnd_disabled (he : srcEn (d.source n) = false) : (icSpanEnd n d).source n = { d.source n with span := false } := by
  rw [icSpanEnd, settleVectors_source, updSource_same, he]
  rfl

end

/-! ### Host vectors and their messages (R422) -/

/-- Vector `v` is 1. -/
def vectorUp (v : Nat) (d : Dev) : Dev := { d with ic := { d.ic with vlevel := d.ic.vlevel ||| BitVec.ofNat 4 (2 ^ v) } }

/-- The message of a masked MSI-X entry waits. -/
def messageWaits (v : Nat) (d : Dev) : Dev :=
  { d with hi := { d.hi with pcie := { d.hi.pcie with pend := d.hi.pcie.pend ||| BitVec.ofNat 4 (2 ^ v) } } }

/-- Entry `v` of the MSI-X table is unmasked, and no message waits there. -/
def entryOpen (v : Nat) (d : Dev) : Dev :=
  { d with hi := { d.hi with pcie := { d.hi.pcie with
    mask := d.hi.pcie.mask &&& ~~~BitVec.ofNat 4 (2 ^ v), pend := d.hi.pcie.pend &&& ~~~BitVec.ofNat 4 (2 ^ v) } } }

section
variable {v : Nat} {d : Dev}

theorem vectorMessage_none (h : winner v d = none) : vectorMessage v d = d := by simp [vectorMessage, h]

theorem vectorMessage_masked {n : Nat} (hv : v < 4) (hw : winner v d = some n) (hl : d.ic.vlevel.getLsbD v = false)
    (hr : d.hi.pcieReset = false) (hx : d.hi.pcie.msixEn = true) (hm : d.hi.pcie.mask.getLsbD v = true) :
    vectorMessage v d = messageWaits v (vectorUp v d) := by
  have hr' : ¬d.hi.pcieReset = true := by simp [hr]
  unfold vectorMessage
  rw [if_pos ⟨hv, by rw [hw]; rfl, hl⟩]
  dsimp only
  rw [if_neg hr', if_pos hx, if_pos hm]
  rfl

theorem msixUnmask_quiet (hv : v < 4) (h : (d.hi.pcie.msixEn && d.hi.pcie.pend.getLsbD v && d.ic.vlevel.getLsbD v) = false) :
    msixUnmask v d = entryOpen v d := by
  unfold msixUnmask
  dsimp only
  rw [if_neg (by omega), h]
  rfl

end

/-! ### Pin sources (R300, R309) -/

section
variable {p : Nat} {d : Dev}

/-- The filter of pin source `n` has taken level `lvl`. -/
def levelTaken (n : Nat) (lvl : Bool) (d : Dev) : Dev := d.updSource n fun s => { s with level := lvl, count := 0 }

/-- SENSE 00b: the source fires as the level rises. -/
theorem icPinSense_rise (lvl : Bool) (hs : srcSense (d.source (0x100 + p)) = 0) : icPinSense p lvl d =
    if !(d.source (0x100 + p)).level && lvl then fireSource (0x100 + p) (levelTaken (0x100 + p) lvl d)
    else levelTaken (0x100 + p) lvl d := by
  unfold icPinSense
  dsimp only
  rw [hs]
  rfl

theorem wakeLatch_awake (rise : Bool) (h : d.pw.state ≠ .hold) : wakeLatch p rise d = d := by
  simp [wakeLatch, h]

/-- A latch that catches while an earlier source's wake is under way. -/
theorem wakeLatch_later (rise : Bool) (hp : p < 256) (hh : d.pw.state = .hold)
    (hc : wakeLatchCatches (d.source (0x100 + p)) rise = true) (hw : d.pw.waking = true) (hs : d.pw.wakeSource ≤ 0x100 + p) :
    wakeLatch p rise d = d.updSource (0x100 + p) fun s => { s with wakeSet := true } := by
  have hlt : ¬(0x100 + p < d.pw.wakeSource) := by omega
  simp [wakeLatch, hh, hp, hc, hw, hlt]

end

/-! ### Doorbells and completions (R299, R304) -/

section
variable {n k : Nat} {v : W32} {d : Dev}

theorem icDoorbell_message (hv : fld v 0 10 = n) (h : n < 256) : icDoorbell v = fireSource n := by
  subst hv
  exact funext fun d => if_pos h

theorem icDoorbell_refused (h : 256 ≤ fld v 0 10) : icDoorbell v d = icFlag 0 d := if_neg (by omega)

theorem sameBut_icFlag (b : Nat) (d : Dev) : SameBut [.ic] d (icFlag b d) := sameBut_ic d _

theorem icComplete_active (hv : fld v 0 10 = n) (ht : isTarget k = true) (ha : (d.source n).act = true)
    (hk : srcTgt (d.source n) = k) (hn : n < 0x100 ∨ 0x200 ≤ n) :
    icComplete k v d = d.updSource n fun s => { s with act := false } := by
  subst hv
  simp [icComplete, ht, ha, hk, refireLevel_notPin hn]

theorem icComplete_refused (hv : fld v 0 10 = n) (ha : (d.source n).act = false) : icComplete k v d = icFlag 2 d := by
  subst hv
  simp [icComplete, ha]

end

/-! ### The commands -/

section
variable {s : State} {n w : Nat}

theorem exec_interruptEvent (hn : isSource n = true) : exec (.interruptEvent n) s = whenLiveDev true (fireSource n) s :=
  congrArg (fun ok => whenLiveDev ok (fireSource n) s) hn

theorem exec_icSetp (v : W32) (hw : w < 32) : exec (.icSetp w v) s = whenLiveDev true (icSetPending w v) s :=
  congrArg (fun ok => whenLiveDev ok (icSetPending w v) s) (decide_eq_true hw)

theorem exec_icPendClear (v : W32) (hw : w < 32) : exec (.icPendClear w v) s = whenLiveDev true (icClearPending w v) s :=
  congrArg (fun ok => whenLiveDev ok (icClearPending w v) s) (decide_eq_true hw)

theorem exec_complete (v : W32) (hw : w < 32) : exec (.complete w v) s = whenLiveDev true (icComplete w v) s :=
  congrArg (fun ok => whenLiveDev ok (icComplete w v) s) (decide_eq_true hw)

theorem exec_icSourceWrite (v : W32) (hn : isSource n = true) : exec (.icSourceWrite n v) s = whenLiveDev true (icSourceWrite n v) s :=
  congrArg (fun ok => whenLiveDev ok (icSourceWrite n v) s) hn

theorem exec_claimableSpanEnd (hn : isSource n = true) : exec (.claimableSpanEnd n) s = whenLiveDev true (icSpanEnd n) s :=
  congrArg (fun ok => whenLiveDev ok (icSpanEnd n) s) hn

theorem exec_hostVectorMessage (hw : w < 4) : exec (.hostVectorMessage w) s = whenLiveDev true (vectorMessage w) s :=
  congrArg (fun ok => whenLiveDev ok (vectorMessage w) s) (decide_eq_true hw)

theorem exec_pinSenseAccept (lvl : Bool) (hn : isPin n = true) :
    exec (.pinSenseAccept n lvl) s = whenLiveDev true (icPinSense n lvl) s :=
  congrArg (fun ok => whenLiveDev ok (icPinSense n lvl) s) hn

theorem exec_msixUnmask (hw : w < 4) : exec (.msixUnmask w) s = onDevice true (msixUnmask w) s :=
  congrArg (fun ok => onDevice ok (msixUnmask w) s) (decide_eq_true hw)

theorem exec_wakeLatch (rise : Bool) (hn : n < 256) : exec (.wakeLatch n rise) s = onDevice true (wakeLatch n rise) s :=
  congrArg (fun ok => onDevice ok (wakeLatch n rise) s) (decide_eq_true hn)

end

/-- Settles O48: the operations on one source, on a host vector and on a wake latch, each by its law. -/
theorem interruptSources : Obligations.InterruptSources := by
  intro s n hn
  have hn' : n < 1024 := of_decide_eq_true hn
  have hdiv : n / 32 < 32 := by omega
  have hother : ∀ f m, m ≠ n → (s.core.dev.updSource n f).source m = s.core.dev.source m :=
    fun f m hm => updSource_other _ n m f hm
  refine ⟨fun hl => ⟨fun hp ha => ?_, fun hp hr => ?_, fun v hv hlt hp ha => ?_, fun v hv hlt => ?_, fun v hv hle => ?_, ?_,
    fun hr => ?_, fun h1 h2 => ?_, fun k v hk hv ht ha htgt hr => ?_, fun k v hk hv ha => ?_, fun v hlt he ha hr => ?_,
    fun he => ?_, fun v hv hw hlev hres hx hm => ?_, fun v hv hw => ?_⟩, fun p lvl hp hpn hl hs hpend ha => ?_,
    fun v hv hq => ?_, fun p rise hp => ⟨fun hst => ?_, fun hst hc hw _ hsrc => ?_⟩⟩
  · exact runs_to hl (exec_interruptEvent hn) rfl (sameBut_fireSource n _) ⟨fireSource_fresh hp ha, fun m hm => fireSource_other hm⟩
  · exact runs_to hl (exec_interruptEvent hn) (fireSource_lost hp hr) (sameBut_updSource _ n _)
      ⟨updSource_same _ n _, hother _⟩
  · exact runs_to hl rfl (congrFun (icDoorbell_message hv hlt) _) (sameBut_fireSource n _) (fireSource_fresh hp ha)
  · rw [exec_interruptEvent hn, ← icDoorbell_message hv hlt]
    rfl
  · exact runs_to hl rfl (icDoorbell_refused (by omega)) (sameBut_icFlag 0 _) rfl
  · refine runs_to hl (exec_icSetp _ hdiv) icSetPending_one (sameBut_fireSource n _) ⟨?_, fun m hm => fireSource_other hm⟩
    exact (fireSource_taken n s.core.dev).imp_right fun h => ⟨fireSource_act.symm.trans h, h⟩
  · refine runs_to hl (exec_icPendClear _ hdiv) (icClearPending_one.trans (refireLevel_notPin hr))
      (sameBut_trans (sameBut_updSource _ n _) (sameBut_settleVectors _)) ⟨?_, fun m hm => ?_⟩
    · exact (settleVectors_source _ n).trans (updSource_same _ n _)
    · exact (settleVectors_source _ m).trans (hother _ m hm)
  · refine runs_to hl (exec_icPendClear _ hdiv) icClearPending_one ?_ ⟨?_, fun m hm => ?_⟩
    · exact sameBut_trans (sameBut_mono (sameBut_trans (sameBut_updSource _ n _) (sameBut_settleVectors _)) (by decide))
        (sameBut_refireLevel n _)
    · have hc : (settleVectors (s.core.dev.updSource n fun s => { s with pend := false })).source n =
          { s.core.dev.source n with pend := false } := (settleVectors_source _ n).trans (updSource_same _ n _)
      have h := refireLevel_pin (d := settleVectors (s.core.dev.updSource n fun s => { s with pend := false })) h1 h2 (by rw [hc])
      rw [hc] at h
      exact h
    · exact (refireLevel_other hm).trans ((settleVectors_source _ m).trans (hother _ m hm))
  · exact runs_to hl (exec_complete v hk) (icComplete_active hv ht ha htgt hr) (sameBut_updSource _ n _)
      ⟨updSource_same _ n _, hother _⟩
  · exact runs_to hl (exec_complete v hk) (icComplete_refused hv ha) (sameBut_icFlag 2 _) rfl
  · refine runs_to hl (exec_icSourceWrite v hn) (icSourceWrite_free hlt he ha hr) (sameBut_sourceWrite _ _ _) ?_
    dsimp only
    rw [sourceWrite_source, updSource_same]
    exact ⟨srcWritten_en v _, srcWritten_tgt v _, srcWritten_pri v _, rfl,
      fun m hm => (sourceWrite_source _ _ _ m).trans (hother _ m hm)⟩
  · exact runs_to hl (exec_claimableSpanEnd hn) rfl (sameBut_trans (sameBut_updSource _ n _) (sameBut_settleVectors _))
      ⟨icSpanEnd_disabled he, fun m hm => (settleVectors_source _ m).trans (hother _ m hm)⟩
  · exact runs_to hl (exec_hostVectorMessage hv) (vectorMessage_masked hv hw hlev hres hx hm)
      (sameBut_then (sameBut_hi _ _) (by decide) (sameBut_mono (sameBut_ic _ _) (by decide)))
      ⟨bit_or_same v hv, bit_or_same v hv, rfl⟩
  · rw [exec_hostVectorMessage hv, whenLiveDev_ok _ _ hl, vectorMessage_none hw]
  · subst hpn
    have hsrc : (levelTaken (0x100 + p) lvl s.core.dev).source (0x100 + p) =
        { s.core.dev.source (0x100 + p) with level := lvl, count := 0 } := updSource_same _ _ _
    refine runs_to hl (exec_pinSenseAccept lvl hp) (icPinSense_rise lvl hs) ?_ ⟨?_, fun m hm => ?_⟩
    · exact sameBut_ite (fun _ => sameBut_trans (sameBut_mono (sameBut_updSource _ _ _) (by decide)) (sameBut_fireSource _ _))
        fun _ => sameBut_mono (sameBut_updSource _ _ _) (by decide)
    · dsimp only
      split
      next h =>
        rw [fireSource_fresh (by rw [hsrc]; exact hpend) (by rw [hsrc]; exact ha), hsrc, h]
      next h =>
        have hf := Bool.eq_false_of_not_eq_true h
        rw [hsrc, hf, ← hpend]
    · dsimp only
      split
      · exact (fireSource_other hm).trans (hother _ m hm)
      · exact hother _ m hm
  · exact runs_onDevice (exec_msixUnmask hv) (msixUnmask_quiet hv hq) (sameBut_hi _ _)
      ⟨bit_andNot_same v, bit_andNot_same v, rfl⟩
  · rw [exec_wakeLatch rise hp]
    exact congrArg Host.Outcome.next (by simp [Core.mapDev, wakeLatch_awake rise hst])
  · exact runs_onDevice (exec_wakeLatch rise hp) (wakeLatch_later rise hp hst hc hw hsrc) (sameBut_updSource _ _ _)
      (updSource_same _ _ _)

end Sys2Proof.Proofs
end

section
/-! O52: ARP, echo, sessions and the MAC (R360, R370–R372, R375). -/

namespace Sys2Proof.Proofs

open Sys2Proof Sys2Proof.Machine Sys2Proof.Laws

/-- A command of the whole core, while its clocks run, that turns the device into `e` and leaves the key store. -/
theorem runs_whenLive_to {i : Instr} {s : State} {l : List Part} {P : State → Prop} {f : Core → Core} {e : Dev}
    (hl : live s.core.dev = true) (hx : exec i s = whenLive true f s) (hf : f s.core = { s.core with dev := e })
    (hs : SameBut l s.core.dev e) (hp : P { s with core := { s.core with dev := e } }) : Runs i s l P :=
  ⟨_, by rw [hx, whenLive_ok _ _ hl, hf], changesOnly_sameBut hs, hp⟩

/-- A command of the core that changes nothing now. -/
theorem exec_unchanged {i : Instr} {s : State} {f : Dev → Dev} (hl : live s.core.dev = true)
    (hx : exec i s = whenLiveDev true f s) (hf : f s.core.dev = s.core.dev) : exec i s = .next s := by
  rw [hx, whenLiveDev_ok _ _ hl, hf]

/-- A command that changes one MAC. -/
theorem runs_updMac {i : Instr} {s : State} {m : Nat} {f : Dev → Dev} {g : Mac → Mac} (hl : live s.core.dev = true)
    (hx : exec i s = whenLiveDev true f s) (hf : f s.core.dev = s.core.dev.updMac m g) :
    Runs i s [.lk] fun t => t.core.dev.mac m = g (s.core.dev.mac m) ∧ ∀ k, k ≠ m → t.core.dev.mac k = s.core.dev.mac k :=
  runs_to hl hx hf (sameBut_updMac _ m g) ⟨updMac_same _ m g, fun k hk => updMac_other _ m k g hk⟩

/-! ### ARP and echo (R370) -/

section
variable {s : State} {d : Dev} {m kind : Nat} {sender target : W32} {data : List Byte}

theorem exec_arp (hm : isMac m = true) : exec (.arp m sender target) s = whenLiveDev true (arpRequest m sender target) s :=
  congrArg (fun ok => whenLiveDev ok (arpRequest m sender target) s) hm

theorem exec_icmpEcho (plain : Bool) (hm : isMac m = true) :
    exec (.icmpEcho m sender target data plain) s = whenLiveDev true (icmpEcho m sender target data plain) s :=
  congrArg (fun ok => whenLiveDev ok (icmpEcho m sender target data plain) s) hm

theorem arpRequest_own (hs : macServes d m = true) (ht : target = (d.mac m).ip) :
    arpRequest m sender target d = sendReply m 0 sender (beBytes 6 (d.mac m).addr.toNat) d := by
  simp [arpRequest, hs, ht]

theorem arpRequest_other (ht : target ≠ (d.mac m).ip) : arpRequest m sender target d = d := by
  simp [arpRequest, ht]

theorem icmpEcho_own (hs : macServes d m = true) (ht : target = (d.mac m).ip) :
    icmpEcho m sender target data true d = sendReply m 1 sender data d := by
  simp [icmpEcho, hs, ht]

theorem icmpEcho_other (plain : Bool) (ht : target ≠ (d.mac m).ip) : icmpEcho m sender target data plain d = d := by
  simp [icmpEcho, ht]

theorem icmpEcho_notPlain : icmpEcho m sender target data false d = d := by
  simp [icmpEcho]

/-- A reply leaves at once while the cyclic gate is closed. -/
theorem runs_reply {i : Instr} {f : Dev → Dev} (hl : live s.core.dev = true) (hx : exec i s = whenLiveDev true f s)
    (hf : f s.core.dev = sendReply m kind sender data s.core.dev) (hg : (s.core.dev.mac m).gate = false) :
    Runs i s [.lk] fun t => t.core.dev.lk.replies = s.core.dev.lk.replies ++ [(m, kind, sender, data)] ∧
      t.core.dev.lk.macs = s.core.dev.lk.macs :=
  runs_to hl hx (hf.trans (orWait_leaves _ _ hg)) (sameBut_replyLeaves _ _ _ _ _) ⟨rfl, rfl⟩

/-- While it is open the reply waits. -/
theorem runs_replyWaits {i : Instr} {f : Dev → Dev} (hl : live s.core.dev = true) (hx : exec i s = whenLiveDev true f s)
    (hf : f s.core.dev = sendReply m kind sender data s.core.dev) (hg : (s.core.dev.mac m).gate = true) :
    Runs i s [.lk] fun t =>
      t.core.dev.mac m = { s.core.dev.mac m with held := (s.core.dev.mac m).held ++ [.reply kind sender data] } ∧
      t.core.dev.lk.replies = s.core.dev.lk.replies :=
  runs_to hl hx (hf.trans (orWait_waits _ _ hg)) (sameBut_withHeld _ _ _) ⟨updMac_same _ m _, rfl⟩

end

/-! ### Datagrams of the acyclic service (R371, R372) -/

section
variable {s : State} {c : Core} {m port dest n : Nat} {ip target : W32} {l : List Byte} {plain : Bool}

theorem exec_acyclicDatagram (hm : isMac m = true) (hp : port < 65536) (hd : dest < 65536) :
    exec (.acyclicDatagram m ip port target dest l plain) s = whenLive true (acyclicDatagram m ip port target dest l plain) s :=
  congrArg (fun ok => whenLive ok (acyclicDatagram m ip port target dest l plain) s) (by simp [Instr.wf, hm, hp, hd])

theorem acyclicDatagram_ignored
    (h : macServes c.dev m = false ∨ target ≠ (c.dev.mac m).ip ∨ dest ≠ c.dev.lk.cfg.udpPort ∨ plain = false) :
    acyclicDatagram m ip port target dest l plain c = c := by
  unfold acyclicDatagram
  dsimp only
  refine if_pos ?_
  simp only [Bool.or_eq_true, Bool.not_eq_true', bne_iff_ne]
  tauto

/-- The datagram is for the acyclic service of this device, and not in fragments. -/
theorem acyclicDatagram_taken (hs : macServes c.dev m = true) (ht : target = (c.dev.mac m).ip)
    (hd : dest = c.dev.lk.cfg.udpPort) : (!macServes c.dev m || target != (c.dev.mac m).ip || dest != c.dev.lk.cfg.udpPort || !true) = false := by
  simp [hs, ht, hd]

theorem acyclicDatagram_short (hs : macServes c.dev m = true) (ht : target = (c.dev.mac m).ip)
    (hd : dest = c.dev.lk.cfg.udpPort) (hl : l.length < 8) : acyclicDatagram m ip port target dest l true c =
      c.mapDev fun d => d.updMac m fun x => { x with acyerr := incSat x.acyerr } := by
  unfold acyclicDatagram
  dsimp only
  rw [acyclicDatagram_taken hs ht hd, if_neg (by decide), if_pos (.inl hl)]

/-- Another request of a session whose last is in service is answered busy. -/
theorem acyclicDatagram_busy {x : Session} (hs : macServes c.dev m = true) (ht : target = (c.dev.mac m).ip)
    (hd : dest = c.dev.lk.cfg.udpPort) (hx : sessionOf c.dev ip port = some (n, x)) (hb : x.busy = true) (htag : x.tag ≠ 0x101) :
    acyclicDatagram m ip port target dest [0x42, 0x4C, 1, 1, 1, 1, 0, 0] true c =
      c.mapDev (sendDatagram m n (datagram 3 0x101 [])) := by
  unfold acyclicDatagram
  dsimp only
  rw [acyclicDatagram_taken hs ht hd, if_neg (by decide), if_neg (by decide), hx]
  dsimp only
  rw [if_pos hb]
  exact if_neg htag

end

/-! ### Sessions and MACs (R372, R375) -/

section
variable {s : State} {d : Dev} {m n : Nat}

theorem exec_sessionExpiry (hn : n < 8) : exec (.sessionExpiry n) s = whenLiveDev true (sessionExpiry n) s :=
  congrArg (fun ok => whenLiveDev ok (sessionExpiry n) s) (decide_eq_true hn)

theorem sessionExpiry_free (h : d.session n = none) : sessionExpiry n d = d := by simp [sessionExpiry, h]

/-- Session `n` is over, with what its requester had and the requests it had queued. -/
def expired (n : Nat) (d : Dev) : Dev :=
  let d1 := (d.setSession n none).updUser (2 + n) fun _ => {}
  { d1 with ds := { d1.ds with queue := d1.ds.queue.filter fun r => r.who != .session n } }

theorem sessionExpiry_open (h : (d.session n).isSome = true) : sessionExpiry n d = expired n d := if_pos h

theorem sameBut_expired (n : Nat) (d : Dev) : SameBut [.ds] d (expired n d) :=
  sameBut_trans (sameBut_trans (sameBut_ds d _) (sameBut_updUser _ (2 + n) _)) (sameBut_ds _ _)

theorem macEnable_mac (hm : m < 4) : macEnable m d = d.updMac m fun x => { x with cfg := orBit x.cfg 31 } := if_pos hm

/-- MAC `m` after its disable, with `q` frames in its FIFOs. -/
def macStopped (q : Nat) (x : Mac) : Mac :=
  { x with cfg := clrBit x.cfg 31, gate := false, held := [], rxdropc := addSat x.rxdropc (q + x.held.length) }

theorem macDisableStep_on (q : Nat) (hm : m < 4) (he : emEnabled (d.mac m) = true) : macDisableStep m q d =
    { d.updMac m (macStopped q) with ic := { d.ic with xstat := orBit d.ic.xstat (4 + m) } } := by
  unfold macDisableStep
  rw [if_pos he]
  exact if_pos hm

theorem macDisableStep_off (q : Nat) (he : emEnabled (d.mac m) = false) : macDisableStep m q d = d := by
  simp [macDisableStep, he]

theorem receiveError_off (he : emEnabled (d.mac m) = false) : receiveError m d = d := by
  simp [receiveError, he]

theorem exec_macEnable (hm : isMac m = true) : exec (.macEnable m) s = whenLiveDev true (macEnable m) s :=
  congrArg (fun ok => whenLiveDev ok (macEnable m) s) hm

theorem exec_macDisable (q : Nat) (hm : isMac m = true) : exec (.macDisable m q) s = whenLiveDev true (macDisableStep m q) s :=
  congrArg (fun ok => whenLiveDev ok (macDisableStep m q) s) hm

theorem exec_receiveError (hm : isMac m = true) : exec (.receiveError m) s = whenLiveDev true (receiveError m) s :=
  congrArg (fun ok => whenLiveDev ok (receiveError m) s) hm

theorem exec_linkDown (hl : live s.core.dev = true) (hm : isMac m = true) : exec (.linkDown m) s = onDevice true (linkDown m) s :=
  (congrArg (fun ok => onCore ok (liveOr (linkDown m) (linkLevel m false)) s) hm).trans (liveOr_live hl)

theorem exec_linkUp (hl : live s.core.dev = true) (hm : isMac m = true) : exec (.linkUp m) s = onDevice true (linkUp m) s :=
  (congrArg (fun ok => onCore ok (liveOr (linkUp m) (linkLevel m true)) s) hm).trans (liveOr_live hl)

/-- A change of MAC `m` that sets its status bit `b`. -/
theorem sameBut_macFlagged (b : Nat) (f : Mac → Mac) : SameBut [.lk, .ic, .ne] d (emFlag m b (d.updMac m f)) :=
  sameBut_trans (sameBut_mono (sameBut_updMac d m f) (by decide)) (sameBut_emFlag m b _)

theorem macFlagged_mac (b : Nat) (f : Mac → Mac) :
    (emFlag m b (d.updMac m f)).mac m = { f (d.mac m) with stat := orBit (f (d.mac m)).stat b } := by
  rw [emFlag_mac_same, updMac_same]

end

/-- Settles O52: each datagram, session and MAC by the law of its operation. -/
theorem linkServices : Obligations.LinkServices := by
  intro s m hm hl
  have hm4 : m < 4 := of_decide_eq_true hm
  refine ⟨fun sender target hserve => ⟨fun ht => ⟨fun hg => ⟨?_, fun data => ?_⟩, fun hg => ⟨?_, fun data => ?_⟩⟩,
    fun ht => ⟨?_, fun data => ?_⟩, fun data => ?_⟩,
    fun ip port target dest l plain hp hd => ⟨fun h => ?_, fun hserve ht hdest => ⟨fun hlen => ?_,
      fun n x hx hb htag hbytes hg => ?_, fun n x hx hb htag hbytes hg => ?_⟩⟩,
    fun n hn => ⟨fun h => ?_, fun h => ?_⟩, ?_, fun q he => ?_, fun q he => ?_, fun hup => ?_, ?_, fun he => ?_, fun he => ?_⟩
  · exact runs_reply hl (exec_arp hm) (arpRequest_own hserve ht) hg
  · exact runs_reply hl (exec_icmpEcho true hm) (icmpEcho_own hserve ht) hg
  · exact runs_replyWaits hl (exec_arp hm) (arpRequest_own hserve ht) hg
  · exact runs_replyWaits hl (exec_icmpEcho true hm) (icmpEcho_own hserve ht) hg
  · exact exec_unchanged hl (exec_arp hm) (arpRequest_other ht)
  · exact exec_unchanged hl (exec_icmpEcho true hm) (icmpEcho_other true ht)
  · exact exec_unchanged hl (exec_icmpEcho false hm) icmpEcho_notPlain
  · rw [exec_acyclicDatagram hm hp hd, whenLive_ok _ _ hl, acyclicDatagram_ignored h]
  · exact runs_whenLive_to hl (exec_acyclicDatagram hm hp hd) (acyclicDatagram_short hserve ht hdest hlen)
      (sameBut_updMac _ m _) ⟨updMac_same _ m _, fun k hk => updMac_other _ m k _ hk⟩
  · subst hbytes
    exact runs_whenLive_to hl (exec_acyclicDatagram hm hp hd) ((acyclicDatagram_busy hserve ht hdest hx hb htag).trans
      (congrArg (Core.mk s.core.vault) (orWait_leaves _ _ hg))) (sameBut_datagramLeaves _ _ _) rfl
  · subst hbytes
    exact runs_whenLive_to hl (exec_acyclicDatagram hm hp hd) ((acyclicDatagram_busy hserve ht hdest hx hb htag).trans
      (congrArg (Core.mk s.core.vault) (orWait_waits _ _ hg))) (sameBut_withHeld _ _ _) (updMac_same _ m _)
  · exact exec_unchanged hl (exec_sessionExpiry hn) (sessionExpiry_free h)
  · exact runs_to hl (exec_sessionExpiry hn) (sessionExpiry_open h) (sameBut_expired n _)
      ⟨setSession_same _ n none, updUser_same (s.core.dev.setSession n none) (2 + n) fun _ => {}, fun k hk => setSession_other _ n k none hk, rfl⟩
  · exact runs_updMac hl (exec_macEnable hm) (macEnable_mac hm4)
  · have hmac := updMac_same s.core.dev m (macStopped q)
    refine runs_to hl (exec_macDisable q hm) (macDisableStep_on q hm4 he)
      (sameBut_then (sameBut_ic _ _) (by decide) (sameBut_mono (sameBut_updMac _ m _) (by decide))) ?_
    refine ⟨(congrArg emEnabled hmac).trans (bit_clrBit_same _ 31), congrArg Mac.gate hmac, congrArg Mac.held hmac,
      congrArg Mac.rxdropc hmac, bit_orBit_same _ (4 + m) (by omega), fun k hk => updMac_other _ m k _ hk⟩
  · exact exec_unchanged hl (exec_macDisable q hm) (macDisableStep_off q he)
  · have hmac := macFlagged_mac (d := s.core.dev) (m := m) 3 fun x => { x with linkUp := false }
    exact runs_onDevice (exec_linkDown hl hm) (if_pos hup) (sameBut_macFlagged 3 _)
      ⟨congrArg Mac.linkUp hmac, (congrArg (fun x : Mac => bit x.stat 3) hmac).trans (bit_orBit_same _ 3 (by decide))⟩
  · exact runs_onDevice (exec_linkUp hl hm) (if_pos hm4) (sameBut_updMac _ m _)
      ⟨updMac_same _ m _, fun k hk => updMac_other _ m k _ hk⟩
  · have hmac := macFlagged_mac (d := s.core.dev) (m := m) 5 fun x => { x with rxerrc := incSat x.rxerrc }
    exact runs_to hl (exec_receiveError hm) (if_pos he) (sameBut_macFlagged 5 _)
      ⟨congrArg Mac.rxerrc hmac, (congrArg (fun x : Mac => bit x.stat 5) hmac).trans (bit_orBit_same _ 5 (by decide))⟩
  · exact exec_unchanged hl (exec_receiveError hm) (receiveError_off he)

end Sys2Proof.Proofs
end

section
/-! O54, RESTORE: the defaults of the persistent objects are written back (R391). -/

namespace Sys2Proof.Proofs

open Sys2Proof Sys2Proof.Machine Sys2Proof.Laws

/-! ### The objects of a core (R377) -/

section
variable {c c' : Core}

/-- Only the customer's declarations say which objects there are. -/
theorem coreObj_congr (h : c'.dev.ds.custom = c.dev.ds.custom) (i k : Nat) : coreObj i k c' = coreObj i k c := by
  have hc : customObj c' i k = customObj c i k := by unfold customObj; rw [h]
  unfold coreObj
  rw [hc]

theorem persistAt_congr (h : c'.dev.ds.custom = c.dev.ds.custom) (i : Nat) : persistAt c' i = persistAt c i := by
  unfold persistAt
  simp only [coreObj_congr h]

theorem persistAt_coreObj {i : Nat} {e : Nat × Nat × Obj} (he : e ∈ persistAt c i) : e.1 = i ∧ coreObj e.1 e.2.1 c = some e.2.2 := by
  obtain ⟨k, -, hk⟩ := List.mem_filterMap.mp he
  split at hk
  next o ho =>
    split at hk
    · obtain rfl := Option.some.inj hk
      exact ⟨rfl, ho⟩
    · cases hk
  next => cases hk

theorem persistAt_mem {i : Nat} {e : Nat × Nat × Obj} (hi : i ∈ objIndices c) (he : e ∈ persistAt c i) : e ∈ persistObjs c :=
  List.mem_flatMap.mpr ⟨i, hi, he⟩

/-- A persistent object is one of its index. -/
theorem mem_persistAt {i k : Nat} {o : Obj} (h : (i, k, o) ∈ persistObjs c) : i ∈ objIndices c ∧ (i, k, o) ∈ persistAt c i := by
  obtain ⟨j, hj, hm⟩ := List.mem_flatMap.mp h
  obtain rfl := (persistAt_coreObj hm).1
  exact ⟨hj, hm⟩

end

/-! ### The objects of one index -/

/-- The objects of one index in the order in which RESTORE takes them: enabling entries first. -/
def restoreOrder (l : List (Nat × Nat × Obj)) : List (Nat × Nat × Obj) :=
  (l.filter fun e => Machine.enabling e.1 e.2.1) ++ l.filter fun e => !Machine.enabling e.1 e.2.1

theorem mem_restoreOrder {l : List (Nat × Nat × Obj)} {e : Nat × Nat × Obj} : e ∈ restoreOrder l ↔ e ∈ l := by
  simp only [restoreOrder, List.mem_append, List.mem_filter]
  cases Machine.enabling e.1 e.2.1 <;> simp

/-- One index restored. -/
def restoreAt (c : Core) (i : Nat) : Core := (restoreOrder (persistAt c i)).foldl (fun c e => takeDefault e c) c

theorem restoreDefaults_enabled {c : Core} {p : Nat} (hp : p < 128) (he : pairEnabled (c.dev.pair p) = true) : restoreDefaults c = c := by
  have ha : ((List.range 128).any fun p => pairEnabled (c.dev.pair p)) = true :=
    List.any_eq_true.mpr ⟨p, List.mem_range.mpr hp, he⟩
  unfold restoreDefaults
  rw [if_pos ha]

theorem restoreDefaults_disabled {c : Core} (h : ∀ p, p < 128 → pairEnabled (c.dev.pair p) = false) :
    restoreDefaults c = (objIndices c).foldl restoreAt c := by
  have ha : ¬((List.range 128).any fun p => pairEnabled (c.dev.pair p)) = true := by
    intro ha
    obtain ⟨p, hp, he⟩ := List.any_eq_true.mp ha
    rw [h p (List.mem_range.mp hp)] at he
    cases he
  unfold restoreDefaults
  rw [if_neg ha]
  rfl

section
variable {c : Core} {e : Nat × Nat × Obj} {l : List (Nat × Nat × Obj)}

theorem takeDefault_same (h : e.2.2.rd .pcie c = defaultOf e.2.2) : takeDefault e c = c := if_pos h

theorem takeDefault_writes (h : e.2.2.rd .pcie c ≠ defaultOf e.2.2) (hk : ¬(0x1012 ≤ e.1 ∧ e.1 ≤ 0x1015 ∧ e.2.1 = 1)) :
    takeDefault e c = (e.2.2.wr .pcie (defaultOf e.2.2) c).2 := by
  unfold takeDefault
  dsimp only
  rw [if_neg h, if_neg hk]

/-- Objects at their defaults are left as they are. -/
theorem takeDefaults_same (h : ∀ e ∈ l, e.2.2.rd .pcie c = defaultOf e.2.2) : l.foldl (fun c e => takeDefault e c) c = c := by
  induction l with
  | nil => rfl
  | cons a t ih =>
    rw [List.foldl_cons, takeDefault_same (h a List.mem_cons_self)]
    exact ih fun e he => h e (List.mem_cons_of_mem a he)

theorem restoreAt_same {i : Nat} (h : ∀ e ∈ persistAt c i, e.2.2.rd .pcie c = defaultOf e.2.2) : restoreAt c i = c :=
  takeDefaults_same fun e he => h e (mem_restoreOrder.mp he)

theorem restore_same {is : List Nat} (h : ∀ i ∈ is, ∀ e ∈ persistAt c i, e.2.2.rd .pcie c = defaultOf e.2.2) :
    is.foldl restoreAt c = c := by
  induction is with
  | nil => rfl
  | cons i t ih =>
    rw [List.foldl_cons, restoreAt_same (h i List.mem_cons_self)]
    exact ih fun j hj => h j (List.mem_cons_of_mem i hj)

/-! ### One object that differs from its default -/

variable {c' : Core} {x : Nat × Nat × Obj}

/-- The objects of the index of `x`: those before it leave the core, `x` is written, those after it are at their defaults then. -/
theorem takeDefaults_one (hx : takeDefault x c = c') (hm : x ∈ l)
    (h : ∀ e ∈ l, e ≠ x → e.2.2.rd .pcie c = defaultOf e.2.2) (h' : ∀ e ∈ l, e.2.2.rd .pcie c' = defaultOf e.2.2) :
    l.foldl (fun c e => takeDefault e c) c = c' := by
  induction l with
  | nil => cases hm
  | cons a t ih =>
    have ht := fun e he => h e (List.mem_cons_of_mem a he)
    have ht' := fun e he => h' e (List.mem_cons_of_mem a he)
    by_cases ha : a = x
    · rw [List.foldl_cons, ha, hx]
      exact takeDefaults_same ht'
    · rw [List.foldl_cons, takeDefault_same (h a List.mem_cons_self ha)]
      exact ih ((List.mem_cons.mp hm).resolve_left (Ne.symm ha)) ht ht'

/-- The indices: those before that of `x` leave the core, and those after it. -/
theorem restore_one {is : List Nat} (hx : takeDefault x c = c') (hm : x ∈ persistAt c x.1) (hi : x.1 ∈ is)
    (hcustom : c'.dev.ds.custom = c.dev.ds.custom)
    (h : ∀ i ∈ is, ∀ e ∈ persistAt c i, e ≠ x → e.2.2.rd .pcie c = defaultOf e.2.2)
    (h' : ∀ i ∈ is, ∀ e ∈ persistAt c' i, e.2.2.rd .pcie c' = defaultOf e.2.2) : is.foldl restoreAt c = c' := by
  induction is with
  | nil => cases hi
  | cons i t ih =>
    have ht := fun j hj => h j (List.mem_cons_of_mem i hj)
    have ht' := fun j hj => h' j (List.mem_cons_of_mem i hj)
    rw [List.foldl_cons]
    by_cases he : i = x.1
    · have hone : restoreAt c i = c' := by
        refine takeDefaults_one hx (mem_restoreOrder.mpr (he ▸ hm)) (fun e hm => h i List.mem_cons_self e (mem_restoreOrder.mp hm))
          fun e hm => h' i List.mem_cons_self e ?_
        rw [persistAt_congr hcustom]
        exact mem_restoreOrder.mp hm
      rw [hone]
      exact restore_same ht'
    · have hsame : restoreAt c i = c := by
        refine restoreAt_same fun e hm => h i List.mem_cons_self e hm fun hex => he ?_
        rw [← (persistAt_coreObj hm).1, hex]
      rw [hsame]
      exact ih ((List.mem_cons.mp hi).resolve_left (Ne.symm he)) ht ht'

end

/-! ### The command -/

section
variable {s : State}

theorem exec_restore (hl : live s.core.dev = true) (hr : enginesRun s.core.dev = true) :
    exec .restore s = .next { s with core := restoreDefaults s.core } := whenRunning_ok restoreDefaults s hl hr

theorem restore_pairEnabled {p : Nat} (hl : live s.core.dev = true) (hr : enginesRun s.core.dev = true) (hp : p < 128)
    (he : pairEnabled (s.core.dev.pair p) = true) : exec .restore s = .next s := by
  rw [exec_restore hl hr, restoreDefaults_enabled hp he]

theorem restore_defaults (hl : live s.core.dev = true) (hr : enginesRun s.core.dev = true)
    (hp : ∀ p, p < 128 → pairEnabled (s.core.dev.pair p) = false)
    (h : ∀ e, e ∈ persistObjs s.core → e.2.2.rd .pcie s.core = defaultOf e.2.2) : exec .restore s = .next s := by
  rw [exec_restore hl hr, restoreDefaults_disabled hp, restore_same fun i hi e he => h e (persistAt_mem hi he)]

/-- The one object that differs is written back. -/
theorem restore_differs {i k : Nat} {o : Obj} {c : Core} (hl : live s.core.dev = true) (hr : enginesRun s.core.dev = true)
    (hp : ∀ p, p < 128 → pairEnabled (s.core.dev.pair p) = false) (hk : ¬(0x1012 ≤ i ∧ i ≤ 0x1015 ∧ k = 1))
    (hm : (i, k, o) ∈ persistObjs s.core) (hd : o.rd .pcie s.core ≠ defaultOf o) (hw : (o.wr .pcie (defaultOf o) s.core).2 = c)
    (hc : c.dev.ds.custom = s.core.dev.ds.custom)
    (h : ∀ e, e ∈ persistObjs s.core → (e.1, e.2.1) ≠ (i, k) → e.2.2.rd .pcie s.core = defaultOf e.2.2)
    (h' : ∀ e, e ∈ persistObjs c → e.2.2.rd .pcie c = defaultOf e.2.2) : exec .restore s = .next { s with core := c } := by
  obtain ⟨hi, hmi⟩ := mem_persistAt hm
  have hind : objIndices c = objIndices s.core := by unfold objIndices; rw [hc]
  rw [exec_restore hl hr, restoreDefaults_disabled hp, restore_one (x := (i, k, o)) ((takeDefault_writes hd hk).trans hw) hmi hi hc]
  · intro j hj e he hne
    refine h e (persistAt_mem hj he) fun heq => hne ?_
    obtain ⟨h1, h2⟩ := Prod.mk.inj heq
    have ho := (persistAt_coreObj he).2
    rw [h1, h2, (persistAt_coreObj hmi).2] at ho
    exact Prod.ext h1 (Prod.ext h2 (Option.some.inj ho).symm)
  · intro j hj e he
    rw [← hind] at hj
    exact h' e (persistAt_mem hj he)

end

end Sys2Proof.Proofs
end

section
/-! O54: commit and erase, the third pass of the boot image, and the mailboxes (R389, R390, R423). -/

namespace Sys2Proof.Proofs

open Sys2Proof Sys2Proof.Machine Sys2Proof.Laws

/-- A command that is known to turn the device into `e`. -/
theorem runs_next {i : Instr} {s : State} {l : List Part} {P : State → Prop} {e : Dev}
    (hx : exec i s = .next { s with core := { s.core with dev := e } }) (hs : SameBut l s.core.dev e)
    (hp : P { s with core := { s.core with dev := e } }) : Runs i s l P := ⟨_, hx, changesOnly_sameBut hs, hp⟩

/-! ### The images of the flash (R388, R390) -/

/-- The image committed is the one that a boot chooses: its GEN is one above that of the copy that stays. -/
theorem bestImage_committed (im : FlashImage) (f : Flash) : bestImage (committed im f).1 = some (committed im f).2 := by
  have hminus : (4294967295#32).msb = true := by decide
  unfold committed
  dsimp only
  split
  next a b ha hb =>
    split
    · simp [bestImage, ha]
    · simp [bestImage, hb, hminus]
  next a ha hb => simp [bestImage, ha]
  next b ha hb => simp [bestImage, hb, hminus]
  next ha hb => simp [bestImage, hb]

theorem committed_entries (im : FlashImage) (f : Flash) : (committed im f).2.entries = im.entries := by
  unfold committed
  dsimp only
  split
  · split <;> rfl
  all_goals rfl

/-- Only the two copies count. -/
theorem bestImage_openForme (f : Flash) (x : Option (List Byte)) : bestImage { f with openForme := x } = bestImage f := rfl

section
variable {s : State} {c : Core} {d : Dev}

/-! ### A commit or an erase in progress -/

theorem commitStart_busy (h : c.dev.lo.flash.state = 1) : commitStart c = c := by
  unfold commitStart
  rw [if_pos h]

/-- The device with the snapshot of its changed objects taken and the flash being written. -/
def committing (c : Core) : Dev :=
  { c.dev with
    ds := { c.dev.ds with snap := some ⟨0, changedEntries c, sealOf (changedEntries c)⟩ }
    lo := { c.dev.lo with flash := ⟨1, 0, 0⟩, flashKind := 1 } }

theorem commitStart_idle (h : c.dev.lo.flash.state ≠ 1) : commitStart c = { c with dev := committing c } := by
  unfold commitStart
  rw [if_neg h]
  rfl

/-- The device with the flash being erased. -/
def erasing (d : Dev) : Dev :=
  { d with ds := { d.ds with snap := none }, lo := { d.lo with flash := ⟨1, 0, 0⟩, flashKind := 2 } }

theorem eraseStart_busy (h : d.lo.flash.state = 1) : eraseStart d = d := if_pos h
theorem eraseStart_idle (h : d.lo.flash.state ≠ 1) : eraseStart d = erasing d := if_neg h

theorem sameBut_flashOp (d : Dev) (x : DictStore) (y : LongOps) : SameBut [.ds, .lo] d { d with ds := x, lo := y } :=
  sameBut_then (sameBut_lo { d with ds := x } y) (by decide) (sameBut_mono (sameBut_ds d x) (by decide))

theorem sameBut_committing (c : Core) : SameBut [.ds, .lo] c.dev (committing c) := sameBut_flashOp c.dev _ _
theorem sameBut_erasing (d : Dev) : SameBut [.ds, .lo] d (erasing d) := sameBut_flashOp d _ _

theorem exec_commit (hl : live s.core.dev = true) (hr : enginesRun s.core.dev = true) :
    exec .commit s = .next { s with core := commitStart s.core } := whenRunning_ok commitStart s hl hr

theorem exec_erase (hl : live s.core.dev = true) (hr : enginesRun s.core.dev = true) :
    exec .erase s = .next { s with core := { s.core with dev := eraseStart s.core.dev } } := whenRunningDev_ok eraseStart s hl hr

/-! ### Its end -/

theorem commitDone_idle (ok : Bool) (h : d.lo.flash.state ≠ 1) : commitDone ok d = d := if_pos h

/-- The flash has ended with outcome `ok`, and the snapshot is gone. -/
def flashEnded (ok : Bool) (d : Dev) : Dev :=
  loFinish (fun l => { l with flash := l.flash.finish ok }) { d with ds := { d.ds with snap := none } }

theorem flashEnded_lo (ok : Bool) (d : Dev) : (flashEnded ok d).lo = { d.lo with flash := d.lo.flash.finish ok } := loFinish_lo _ _

theorem flashEnded_ds (ok : Bool) (d : Dev) : (flashEnded ok d).ds = { d.ds with snap := none } :=
  kept_ds (sameBut_loFinish _ { d with ds := { d.ds with snap := none } }) (by decide)

theorem sameBut_flashEnded (ok : Bool) (d : Dev) : SameBut [.ds, .lo, .ic, .ne] d (flashEnded ok d) :=
  sameBut_then (sameBut_loFinish _ { d with ds := { d.ds with snap := none } }) (by decide) (sameBut_mono (sameBut_ds d _) (by decide))

theorem commitDone_failed (h : d.lo.flash.state = 1) : commitDone false d = flashEnded false d := if_neg fun hn => hn h

/-- The erase has left no image. -/
def erased (d : Dev) : Dev := { d with ds := { d.ds with flash := { d.ds.flash with a := none, b := none }, imageState := 0 } }

theorem commitDone_erase (h : d.lo.flash.state = 1) (hs : d.ds.snap = none) : commitDone true d = flashEnded true (erased d) := by
  unfold commitDone
  rw [if_neg fun hn => hn h, hs]
  rfl

/-- The image `im` stands in the flash, with the Open Forme image in use. -/
def imageStored (im : FlashImage) (d : Dev) : Dev :=
  let r := committed im d.ds.flash
  let fm := if d.store.openState = 2 then some d.store.running else none
  { d with
    ds := { d.ds with flash := { r.1 with openForme := fm }, imageState := 1, imageGen := r.2.gen, imageSize := imageLen r.2 }
    lo := { d.lo with flash := { d.lo.flash with position := imageLen r.2 + 16 } } }

theorem commitDone_image {im : FlashImage} (h : d.lo.flash.state = 1) (hs : d.ds.snap = some im) (hlen : imageLen im ≤ 524272) :
    commitDone true d = flashEnded true (imageStored im d) := by
  unfold commitDone
  rw [if_neg fun hn => hn h, hs]
  dsimp only
  rw [decide_eq_true hlen]
  rfl

theorem imageStored_best (im : FlashImage) (d : Dev) :
    bestImage (imageStored im d).ds.flash = some (committed im d.ds.flash).2 := bestImage_committed im d.ds.flash

theorem exec_commitDone (ok : Bool) : exec (.commitDone ok) s = whenLiveDev true (commitDone ok) s := rfl

/-- An end of the flash whose effect on the device before it is known. -/
theorem runs_flashEnded {ok : Bool} {e : Dev} {P : State → Prop} (hl : live s.core.dev = true)
    (h : commitDone ok s.core.dev = flashEnded ok e) (he : SameBut [.ds, .lo] s.core.dev e)
    (hp : P { s with core := { s.core with dev := flashEnded ok e } }) : Runs (.commitDone ok) s [.ds, .lo, .ic, .ne] P :=
  runs_to hl (exec_commitDone ok) h (sameBut_trans (sameBut_mono he (by decide)) (sameBut_flashEnded ok e)) hp

/-! ### The third pass (R389) -/

theorem exec_thirdPass (hl : live s.core.dev = true) : exec .dictionaryThirdPass s = .next { s with core := thirdPass s.core } :=
  whenLive_ok thirdPass s hl

theorem thirdPass_early (h2 : c.dev.lo.enum.op.state ≠ 2) (h3 : c.dev.lo.enum.op.state ≠ 3) : thirdPass c = c :=
  if_neg fun h => h.elim h2 h3

theorem thirdPass_none (h : c.dev.lo.enum.op.state = 2 ∨ c.dev.lo.enum.op.state = 3) (ht : c.dev.ds.third = []) :
    thirdPass c = c := by
  unfold thirdPass
  rw [if_pos h, ht]
  exact congrArg (fun l => ({ c with dev := { c.dev with ds := { c.dev.ds with third := l } } } : Core)) ht.symm

theorem thirdPass_one {e : DictEntry} (h : c.dev.lo.enum.op.state = 2 ∨ c.dev.lo.enum.op.state = 3) (ht : c.dev.ds.third = [e]) :
    thirdPass c = (applyEntryAt true e c).mapDev fun d => { d with ds := { d.ds with third := [] } } := by
  unfold thirdPass
  rw [if_pos h, ht]
  rfl

theorem applyEntryAt_ok {e : DictEntry} {x : DictCode} {c' : Core} (hw : entryWrite true e c = (x, c')) (hx : x = .ok) :
    applyEntryAt true e c = c' := by
  unfold applyEntryAt
  rw [hw]
  exact if_pos hx

theorem applyEntryAt_refused {e : DictEntry} {x : DictCode} {c' : Core} (hw : entryWrite true e c = (x, c')) (hx : x ≠ .ok) :
    applyEntryAt true e c = c'.mapDev (bootRefused x e) := by
  unfold applyEntryAt
  rw [hw]
  exact if_neg hx

/-! ### A mailbox request (R423) -/

theorem mailbox_or (v : W32) : orBit v 31 &&& 0x40FF07FF#32 = v &&& 0x40FF07FF#32 := by
  have h : BitVec.ofNat 32 (2 ^ 31) &&& 0x40FF07FF#32 = 0#32 := by decide
  rw [orBit, BitVec.and_or_distrib_right, h, BitVec.or_zero]

variable {p : Nat} {v : W32}

theorem fabricWrite_mailbox (hp : p < 2) : fabricWrite p 0x8000 v c = c.mapDev (mailboxGo p v) := by
  rw [fabricWrite_plain rfl rfl fun _ => rfl]
  have h : regPoke p 0x8000 v = pokeHi p 0 v := rfl
  rw [h]
  unfold pokeHi
  simp [Nat.not_le.mpr hp]

theorem exec_mailboxGo (hp : p < 2) (ho : PortOpen p s.core.dev) :
    exec (.mailboxGo p v) s = .next { s with core := s.core.mapDev (mailboxGo p (orBit v 31)) } := by
  have hx : exec (.mailboxGo p v) s = onCore true (viaPort p (busWrite p 0x8000 (orBit v 31))) s :=
    congrArg (fun ok => onCore ok (viaPort p (busWrite p 0x8000 (orBit v 31))) s) (decide_eq_true hp)
  rw [hx, onCore_ok, viaPort_open (isPath_host hp) ho, busWrite_open _ _ ho, fabricWrite_mailbox hp]

theorem runs_mailboxGo {e : Dev} {l : List Part} {P : State → Prop} (hp : p < 2) (ho : PortOpen p s.core.dev)
    (hf : mailboxGo p (orBit v 31) s.core.dev = e) (hs : SameBut l s.core.dev e)
    (hP : P { s with core := { s.core with dev := e } }) : Runs (.mailboxGo p v) s l P := by
  subst hf
  exact runs_next (exec_mailboxGo hp ho) hs hP

theorem mailboxGo_repeated (hg : (d.box p).go = true) (h : v &&& 0x40FF07FF#32 = (d.box p).ctl) :
    mailboxGo p (orBit v 31) d = d := by
  simp [mailboxGo, hg, mailbox_or, h]

theorem mailboxGo_busy (hg : (d.box p).go = true) (h : v &&& 0x40FF07FF#32 ≠ (d.box p).ctl) :
    mailboxGo p (orBit v 31) d = d.updBox p fun b => { b with stat := orBit b.stat 12 } := by
  unfold mailboxGo
  dsimp only
  rw [if_pos hg, mailbox_or, if_neg h]

/-- The fields of HI_MBCTL are stored. -/
def boxWritten (p : Nat) (v : W32) (d : Dev) : Dev := d.updBox p fun b => { b with ctl := v &&& 0x40FF07FF#32 }

theorem mailboxGo_refused (hg : (d.box p).go = false) (h : fld v 0 11 < 12 ∨ 1464 < fld v 0 11) :
    mailboxGo p (orBit v 31) d = (boxWritten p v d).updBox p fun b => { b with stat := orBit b.stat 13 } := by
  unfold mailboxGo
  dsimp only
  rw [if_neg (by simp [hg]), mailbox_or, if_pos (bit_orBit_same v 31 (by decide)), fld_orBit_other v (by decide), if_pos h]
  rfl

/-- The body of a request of `len` bytes in mailbox `b`. -/
def requestBytes (b : Mailbox) (len : Nat) : List Byte :=
  (List.range len).map fun k => BitVec.ofNat 8 (fld (Bank.get 0 b.req (k / 4)) (24 - k % 4 * 8) 8)

/-- The request is on its way to the service context. -/
def requestQueued (p : Nat) (r : SvcReq) (d : Dev) : Dev :=
  { d.updBox p (fun b => { b with go := true }) with ds := { d.ds with queue := d.ds.queue ++ [r] } }

theorem mailboxGo_taken (hg : (d.box p).go = false) (h1 : 12 ≤ fld v 0 11) (h2 : fld v 0 11 ≤ 1464) :
    mailboxGo p (orBit v 31) d =
      requestQueued p ⟨if p = 0 then .pcie else .qspi, requestBytes (d.box p) (fld v 0 11)⟩ (boxWritten p v d) := by
  unfold mailboxGo
  dsimp only
  rw [if_neg (by simp [hg]), mailbox_or, if_pos (bit_orBit_same v 31 (by decide)), fld_orBit_other v (by decide), if_neg (by omega)]
  rfl

theorem sameBut_requestQueued (p : Nat) (r : SvcReq) (d : Dev) : SameBut [.hi, .ds] d (requestQueued p r d) :=
  sameBut_then (sameBut_ds _ _) (by decide) (sameBut_mono (sameBut_updBox d p _) (by decide))

/-! ### A mailbox request served (R381) -/

theorem length_beBytes (n k : Nat) : (beBytes n k).length = n := by simp [beBytes]

theorem length_responseBody (svc : Nat) (code : DictCode) (index sub ty total : Nat) (data : List Byte) :
    (responseBody svc code index sub ty total data).length = 12 + data.length := by
  simp only [responseBody, List.length_append, List.length_cons, List.length_nil, length_beBytes]

/-- The body of a READ request of object `index`:`sub`. -/
def readRequest (index sub : Nat) : List Byte := [1, 0] ++ beBytes 2 index ++ [BitVec.ofNat 8 sub, 0, 0, 0, 0, 0, 0, 0]

variable {w : DictWho} {index sub : Nat} {o : Obj}

theorem serveBody_read (hi : index < 65536) (hs : sub < 256) :
    serveBody w (readRequest index sub) c = answerSvc w 1 index sub (svcRead w index sub c) := by
  have hb : readRequest index sub =
      [1, 0, BitVec.ofNat 8 (index / 256), BitVec.ofNat 8 index, BitVec.ofNat 8 sub, 0, 0, 0, 0, 0, 0, 0] := by
    simp [readRequest, beBytes, List.range_succ]
  have hindex : beNat (slice (readRequest index sub) 2 2) = index := by
    simp [hb, slice, beNat]
    omega
  have hsub : beNat (slice (readRequest index sub) 4 1) = sub := by
    simp [hb, slice, beNat]
    omega
  have hsvc : beNat (slice (readRequest index sub) 0 1) = 1 := by simp [hb, slice, beNat]
  have hcount : beNat (slice (readRequest index sub) 6 2) = 0 := by simp [hb, slice, beNat]
  have hres : beNat (slice (readRequest index sub) 5 1) = 0 := by simp [hb, slice, beNat]
  have hflags : beNat (slice (readRequest index sub) 1 1) = 0 := by simp [hb, slice, beNat]
  have hlen : (readRequest index sub).length = 12 := by rw [hb]; rfl
  have hgood : ¬((readRequest index sub).length ≠ 12 + beNat (slice (readRequest index sub) 6 2) ∨
      1452 < beNat (slice (readRequest index sub) 6 2) ∨ beNat (slice (readRequest index sub) 5 1) ≠ 0 ∨
      2 ≤ beNat (slice (readRequest index sub) 1 1)) := by
    rw [hcount, hres, hflags, hlen]
    decide
  unfold serveBody
  dsimp only
  rw [hindex, hsub, hsvc, if_neg hgood]
  rfl

/-- A core whose requests alone differ has the same objects. -/
theorem findObj_congr {c' : Core} (h : c'.dev.ds.custom = c.dev.ds.custom) (i k : Nat) : findObj i k c' = findObj i k c := by
  have hat : ∀ k, objAt i k c' = objAt i k c := fun k => by unfold objAt; rw [coreObj_congr h]
  have hsubs : subsOf i c' = subsOf i c := by unfold subsOf; simp only [hat]
  unfold findObj indexPresent
  rw [hat, hsubs]

/-- The front of the queue has been taken. -/
def dequeued (rest : List SvcReq) (c : Core) : Core := c.mapDev fun d => { d with ds := { d.ds with queue := rest } }

theorem drainSessions_empty (h : c.dev.ds.queue = []) : drainSessions c = c := by
  simp [drainSessions, h, serveSessions]

theorem mailboxResponse_idle (h : c.dev.ds.queue = [] ∨ enginesRun c.dev = false ∨ serviceRuns c.dev = false) :
    mailboxResponse p c = c := by
  unfold mailboxResponse
  split
  next r rest hq =>
    refine if_neg ?_
    obtain h | h | h := h
    · rw [hq] at h
      cases h
    all_goals simp [h]
  next => rfl

theorem mailboxResponse_alone {body : List Byte} (hw : w = if p = 0 then DictWho.pcie else .qspi)
    (hq : c.dev.ds.queue = [⟨w, body⟩]) (hr : enginesRun c.dev = true) (hs : serviceRuns c.dev = true) :
    mailboxResponse p c = drainSessions (serveBody w body (dequeued [] c)) := by
  subst hw
  unfold mailboxResponse
  rw [hq]
  dsimp only
  rw [if_pos (by simp [hr, hs]), serveFront, hq]
  rfl

theorem exec_mailboxResponse (hl : live s.core.dev = true) (hp : p < 2) :
    exec (.mailboxResponse p) s = .next { s with core := mailboxResponse p s.core } := by
  have hx : exec (.mailboxResponse p) s = whenLive true (mailboxResponse p) s :=
    congrArg (fun ok => whenLive ok (mailboxResponse p) s) (decide_eq_true hp)
  rw [hx, whenLive_ok _ _ hl]

/-- A READ through a mailbox is answered with the value. -/
theorem mailboxResponse_read (hw : w = if p = 0 then DictWho.pcie else .qspi) (hi : index < 65536) (hsub : sub < 256)
    (hq : c.dev.ds.queue = [⟨w, readRequest index sub⟩]) (hr : enginesRun c.dev = true) (hs : serviceRuns c.dev = true)
    (h : findObj index sub c = .ok o) (ha : o.acc ≠ 2) (hpar : isParam index sub = false)
    (hlen : (o.rd w (dequeued [] c)).length ≤ 1452) (he : ∀ c, dictReadEffect w index sub c = c) :
    mailboxResponse p c = (dequeued [] c).mapDev (respond w (responseBody 1 .ok index sub o.ty
      (o.rd w (dequeued [] c)).length (o.rd w (dequeued [] c)))) := by
  have hfind : findObj index sub (dequeued [] c) = .ok o := (findObj_congr rfl index sub).trans h
  have hserved := served_respond w (responseBody 1 .ok index sub o.ty (o.rd w (dequeued [] c)).length (o.rd w (dequeued [] c)))
    (dequeued [] c) []
  obtain ⟨-, -, hds, -⟩ := hserved
  rw [mailboxResponse_alone hw hq hr hs, serveBody_read hi hsub, svcRead_value hfind ha hpar hlen, he]
  exact drainSessions_empty (congrArg DictStore.queue hds)

/-- What a mailbox's answer leaves alone: the link too. -/
theorem runs_boxServed {i : Instr} {body : List Byte} {P : State → Prop} {t : State} {e : Dev} (hx : exec i s = .next t)
    (hpend : t.pending = s.pending) (ht : Served w body { s.core with dev := e } t) (hw : w = .pcie ∨ w = .qspi)
    (he : SameBut [.ds] s.core.dev e) (hP : P t) : Runs i s [.ds, .hi, .ic, .ne] P := by
  obtain ⟨-, -, -, -, -, hlk, -, -, hsame⟩ := ht
  have hlk' := hlk fun n _ hn => by rcases hw with h | h <;> rw [h] at hn <;> cases hn
  refine ⟨t, hx, ⟨hpend, fun b hb => ?_⟩, hP⟩
  refine part_same_trans b _ _ _ (he s.core.vault b fun hm => hb (by simp_all)) ?_
  by_cases hm : b = .lk
  · subst hm
    exact hlk'
  · exact hsame b (by simp_all)

end

/-- Settles O54: the flash, the objects at their defaults, the third pass and the mailboxes, each by its law. -/
theorem dictionaryStore : Obligations.DictionaryStore := by
  intro s
  refine ⟨fun hl hr => ⟨fun h => ⟨?_, ?_⟩, fun h => ⟨?_, ?_⟩, fun p hp he => restore_pairEnabled hl hr hp he,
    fun hp h => restore_defaults hl hr hp h, fun i k o c hp _ hk hm hd hw hc h h' => restore_differs hl hr hp hk hm hd hw hc h h'⟩,
    fun hl => ⟨fun ok h => ?_, fun h => ⟨?_, fun hs => ?_, fun im hs hlen => ?_⟩, fun h2 h3 => ?_,
      fun h => ⟨fun ht => ?_, fun e x c ht hw => ⟨fun hok => ?_, fun hok => ?_⟩⟩,
      fun p who body index sub o v hp hwho hq hr hs hi hsub hbody hf ha hpar hv hlen he _ hv' => ?_, fun p hp h => ?_⟩,
    fun p v hp ho => ⟨fun hg h => ?_, fun hg h => ?_, fun hg h => ?_, fun hg h1 h2 => ?_⟩⟩
  · rw [exec_commit hl hr, commitStart_busy h]
  · rw [exec_erase hl hr, eraseStart_busy h]
  · exact runs_next ((exec_commit hl hr).trans (by rw [commitStart_idle h])) (sameBut_committing s.core) ⟨rfl, rfl, rfl⟩
  · exact runs_next ((exec_erase hl hr).trans (by rw [eraseStart_idle h])) (sameBut_erasing s.core.dev) ⟨rfl, rfl⟩
  · exact exec_unchanged hl (exec_commitDone ok) (commitDone_idle ok h)
  · refine runs_flashEnded hl (commitDone_failed h) (sameBut_refl _ _) ⟨?_, flashEnded_ds false _⟩
    dsimp only
    rw [flashEnded_lo]
    rfl
  · refine runs_flashEnded hl (commitDone_erase h hs) (sameBut_mono (sameBut_ds _ _) (by decide)) ?_
    dsimp only
    rw [flashEnded_lo, flashEnded_ds]
    exact ⟨rfl, rfl, rfl, rfl⟩
  · refine runs_flashEnded hl (commitDone_image h hs hlen) (sameBut_flashOp s.core.dev _ _) ?_
    dsimp only
    rw [flashEnded_lo, flashEnded_ds]
    dsimp only
    rw [imageStored_best]
    exact ⟨rfl, congrArg some (committed_entries im _), rfl, rfl, rfl⟩
  · rw [exec_thirdPass hl, thirdPass_early h2 h3]
  · rw [exec_thirdPass hl, thirdPass_none h ht]
  · rw [exec_thirdPass hl, thirdPass_one h ht, applyEntryAt_ok hw hok]
  · rw [exec_thirdPass hl, thirdPass_one h ht, applyEntryAt_refused hw hok]
  · subst hbody
    have hno : whoNo who = p := by
      obtain rfl | rfl : p = 0 ∨ p = 1 := by omega
      all_goals rw [hwho]; rfl
    have hbox : who = .pcie ∨ who = .qspi := by
      rw [hwho]
      split
      · exact .inl rfl
      · exact .inr rfl
    have hnew : o.rd who (dequeued [] s.core) = v := hv'
    have hx := exec_mailboxResponse hl hp
    rw [mailboxResponse_read hwho hi hsub hq hr hs hf ha hpar (by rw [hnew]; exact hlen) he, hnew] at hx
    have ht := served_respond who (responseBody 1 .ok index sub o.ty v.length v) (dequeued [] s.core) s.pending
    refine runs_boxServed hx rfl ht hbox (sameBut_ds _ _) ?_
    obtain ⟨huser, -, hds, -, hgo, -⟩ := ht
    rw [hno] at huser hgo
    refine ⟨congrArg DictUser.answer huser, congrArg DictStore.queue hds, fun hg => ?_⟩
    obtain ⟨h1, h2, h3⟩ := hgo hbox hg
    exact ⟨h1, h2, h3.trans (length_responseBody ..)⟩
  · rw [exec_mailboxResponse hl hp, mailboxResponse_idle h]
  · rw [exec_mailboxGo hp ho]
    exact congrArg (fun d => Host.Outcome.next { s with core := { s.core with dev := d } }) (mailboxGo_repeated hg h)
  · exact runs_mailboxGo hp ho (mailboxGo_busy hg h) (sameBut_updBox _ p _) (updBox_same _ p _)
  · have hbox : ((boxWritten p v s.core.dev).updBox p fun b => { b with stat := orBit b.stat 13 }).box p =
        { s.core.dev.box p with ctl := v &&& 0x40FF07FF#32, stat := orBit (s.core.dev.box p).stat 13 } := by
      rw [updBox_same, boxWritten, updBox_same]
    refine runs_mailboxGo hp ho (mailboxGo_refused hg h) (sameBut_trans (sameBut_updBox _ p _) (sameBut_updBox _ p _)) ?_
    dsimp only
    rw [hbox]
    exact ⟨bit_orBit_same _ 13 (by decide), hg⟩
  · refine runs_mailboxGo hp ho (mailboxGo_taken hg h1 h2)
      (sameBut_trans (sameBut_mono (sameBut_updBox _ p _) (by decide)) (sameBut_requestQueued p _ _)) ?_
    exact ⟨congrArg Mailbox.go (updBox_same (boxWritten p v s.core.dev) p fun b => { b with go := true }),
      requestBytes (s.core.dev.box p) (fld v 0 11), by simp [requestBytes], rfl⟩

end Sys2Proof.Proofs
end

section
/-! O57, keys and power states: tamper and the loss of VBAT (R399, R409), the requests of GB_PWR and GB_CMD (R431, R432, R465), IDLE,
HOLD and DEEP (R466–R469). -/

namespace Sys2Proof.Proofs

open Sys2Proof Sys2Proof.Machine Sys2Proof.Laws

theorem sameBut_pw (d : Dev) (x : Power) : SameBut [.pw] d { d with pw := x } := by
  intro v b hb
  cases b
  case pw => simp at hb
  all_goals rfl

theorem sameBut_tooth (d : Dev) (x : Tooth) : SameBut [.tooth] d { d with tooth := x } := by
  intro v b hb
  cases b
  case tooth => simp at hb
  all_goals rfl

/-- A command of the whole core that changes the key store too. -/
theorem runs_vault_to {i : Instr} {s : State} {l : List Part} {P : State → Prop} {f : Core → Core} {v : Vault} {e : Dev}
    (hx : exec i s = onCore true f s) (hf : f s.core = ⟨v, e⟩) (hs : SameBut l s.core.dev e)
    (hp : P { s with core := ⟨v, e⟩ }) : Runs i s (.vault :: l) P := by
  have hn : exec i s = .next { s with core := ⟨v, e⟩ } := by rw [hx, onCore_ok, hf]
  refine ⟨_, hn, ⟨rfl, fun b hb => ?_⟩, hp⟩
  have hv : b ≠ .vault := fun h => hb (by simp [h])
  have h := hs s.core.vault b fun hm => hb (List.mem_cons_of_mem _ hm)
  cases b <;> first | exact absurd rfl hv | exact h

/-! ### The slots of the key store (R399) -/

section
variable {v : Vault} {d : Dev} {c : Core} {n : Nat}

/-- A change of each of the four slots. -/
theorem eachSlot_slot (f : KeySlot → KeySlot) (v : Vault) (hn : n < 4) :
    ([0, 1, 2, 3].foldl (fun v n => v.updSlot n f) v).slot n = f (v.slot n) := by
  have hstep : ∀ (k : Nat) (w : Vault), (w.updSlot k f).slot n = if n = k then f (w.slot n) else w.slot n := by
    intro k w
    split
    next h => rw [h, updSlot_same]
    next h => exact updSlot_other w k n f h
  simp only [List.foldl_cons, List.foldl_nil, hstep]
  interval_cases n <;> rfl

/-- A change of slots leaves the rest of the key store. -/
theorem eachSlot_others (f : KeySlot → KeySlot) (l : List Nat) (v : Vault) :
    l.foldl (fun v n => v.updSlot n f) v = { v with slots := (l.foldl (fun v n => v.updSlot n f) v).slots } := by
  induction l generalizing v with
  | nil => rfl
  | cons n t ih =>
    rw [List.foldl_cons, ih]
    rfl

/-- The void of one slot. -/
def voided (s : KeySlot) : KeySlot :=
  { s with counter := 0, state := match s.state with | .empty => .empty | _ => .voided }

theorem voidSlots_others (v : Vault) : voidSlots v = { v with bootCounter := 0, slots := (voidSlots v).slots } :=
  eachSlot_others voided _ { v with bootCounter := 0 }

theorem voidSlots_slot (hn : n < 4) : (voidSlots v).slot n = voided (v.slot n) := eachSlot_slot voided { v with bootCounter := 0 } hn

theorem voided_state (s : KeySlot) : (voided s).state = if s.state = .empty then .empty else .voided := by
  cases h : s.state <;> simp [voided, h]

theorem voided_notValid (s : KeySlot) : (voided s).state ≠ .valid := by
  rw [voided_state]
  split <;> decide

theorem sameBut_secFlag (b : Nat) (d : Dev) : SameBut [.ic, .ne, .sec] d (secFlag b d) := by
  refine sameBut_then (sameBut_memberEvent _ { d with sec := { d.sec with stat := orBit d.sec.stat b } }) (by decide) ?_
  intro w p hp
  cases p <;> first | rfl | simp at hp

theorem sameBut_voidAll (c : Core) : SameBut [.ic, .ne, .sec] c.dev (voidAll c).dev := by
  unfold voidAll
  dsimp only
  split
  · exact sameBut_secFlag 7 _
  · exact sameBut_refl _ _

/-- What the tamper latch and the loss of VBAT do to the vault `v`. -/
theorem tamper_runs {i : Instr} {s : State} {w : Vault} {P : State → Prop} (hx : exec i s = onCore true (fun c => tamper { c with vault := w }) s)
    (hp : ∀ e, P { s with core := ⟨voidSlots { w with tamper := true }, e⟩ }) : Runs i s [.vault, .ic, .ne, .sec] P :=
  runs_vault_to hx rfl (sameBut_voidAll ⟨{ w with tamper := true }, s.core.dev⟩) (hp _)

/-- The AOQ counters after a loss of VBAT, with the levels at their balls. -/
def aoqLost (d : Dev) : Dev :=
  { d with
    tooth := { d.tooth with aoq := d.tooth.aoq.map fun e => (e.1, { ({} : Aoq) with ab := e.2.ab }) }
    pw := { d.pw with wakeCause := 0, wakeSource := 0xFFFF } }

theorem bank_get_map {α : Type} (f : α → α) (z : α) (hz : f z = z) (b : Bank α) (k : Nat) :
    Bank.get z (b.map fun e => (e.1, f e.2)) k = f (Bank.get z b k) := by
  induction b with
  | nil => exact hz.symm
  | cons e t ih =>
    obtain ⟨j, w⟩ := e
    simp only [List.map_cons, Bank.get]
    split
    · rfl
    · exact ih

theorem aoqLost_aoq (d : Dev) (n : Nat) : (aoqLost d).aoq n = { ab := (d.aoq n).ab } :=
  bank_get_map (fun a : Aoq => { ({} : Aoq) with ab := a.ab }) {} rfl d.tooth.aoq n

theorem vbatLoss_eq (c : Core) : vbatLoss c =
    ⟨[0, 1, 2, 3].foldl (fun v n => v.updSlot n fun s => { s with finger := 0 }) (voidSlots { c.vault with vbatLost := true }),
      aoqLost (secFlag 4 (voidAll { c with vault := { c.vault with vbatLost := true } }).dev)⟩ := rfl

end

/-! ### Requests (R431, R432, R465) -/

section
variable {s : State} {d : Dev} {r : Nat}

theorem powerRequest_inProgress (h : d.pw.go = true) : powerRequest r d = { d with pw := { d.pw with cmdRej := true } } := if_pos h

theorem powerRequest_same (h : d.pw.go = false) (hr : r = powerCode d.pw.state) :
    powerRequest r d = { d with pw := { d.pw with req := r } } := by
  unfold powerRequest
  rw [if_neg (by simp [h]), if_pos hr]

/-- Whether a request is refused does not depend on the one before. -/
theorem powerRefused_pw (d : Dev) (x : Power) (r : Nat) : powerRefused { d with pw := x } r = powerRefused d r := rfl

theorem powerRequest_refused (h : d.pw.go = false) (hr : r ≠ powerCode d.pw.state) (hf : powerRefused d r = true) :
    powerRequest r d = { d with pw := { d.pw with req := r, cmdRej := true } } := by
  unfold powerRequest
  dsimp only
  rw [if_neg (by simp [h]), if_neg hr, powerRefused_pw, if_pos hf]
  rfl

/-- The request is taken: GO is set until the state is reached. -/
def requested (r : Nat) (d : Dev) : Dev :=
  { d with pw := { d.pw with
    req := r, go := true, before := d.pw.state, pendAtGo := wakePending d
    toward := if r = 2 then some .hold else if r = 3 then some .deep else none } }

theorem powerRequest_taken (h : d.pw.go = false) (hr : r ≠ powerCode d.pw.state) (hf : powerRefused d r = false) :
    powerRequest r d = requested r d := by
  unfold powerRequest
  dsimp only
  rw [if_neg (by simp [h]), if_neg hr, powerRefused_pw, if_neg (by simp [hf])]
  rfl

theorem exec_powerRequest (hr : r < 4) : exec (.powerRequest r) s = whenLiveDev true (powerRequest r) s :=
  congrArg (fun ok => whenLiveDev ok (powerRequest r) s) (decide_eq_true hr)

/-! ### IDLE (R466) -/

theorem idleEntry_none (h : d.pw.go = false) : idleEntry d = d := by simp [idleEntry, h]
theorem idleExit_none (h : d.pw.go = false) : idleExit d = d := by simp [idleExit, h]
theorem holdEntry_none (h : d.pw.go = false) : holdEntry d = d := by simp [holdEntry, h]

/-- IDLE is entered; engines that are busy run to a safe point. -/
def idling (d : Dev) : Dev :=
  { d with pw := { d.pw with
    state := .idle, stopping := true, wasOnline := (List.range 16).filter fun e => (d.eng e).online } }

theorem idleEntry_taken (h : d.pw.go = true) (hs : d.pw.state = .run) (hr : 1 ≤ d.pw.req)
    (hf : powerRefused d d.pw.req = false) : idleEntry d = settleStop (idling d) := by
  unfold idleEntry
  rw [if_pos (by simp [h, hs, hr]), if_neg (by simp [hf])]
  rfl

theorem settleStop_idling (d : Dev) : settleStop (idling d) = { idling d with pw := { (idling d).pw with
    stopping := anyBusy d, go := if anyBusy d then d.pw.go else d.pw.go && d.pw.toward.isSome } } := by
  have hb : anyBusy (idling d) = anyBusy d := rfl
  unfold settleStop
  rw [hb]
  cases h : anyBusy d with
  | true => rw [if_neg (by simp)]; rfl
  | false => rw [if_pos ⟨rfl, rfl, rfl⟩]; rfl

/-- The device in RUN again, its engines still to start. -/
def runAgain (d : Dev) : Dev := { d with pw := { d.pw with state := .run, stopping := false, go := false, toward := none } }

theorem idleExit_taken (h : d.pw.go = true) (hs : d.pw.state = .idle) (hr : d.pw.req = 0) :
    idleExit d = restartEngines (runAgain d) := by
  unfold idleExit
  rw [if_pos (by simp [h, hs, hr])]
  rfl

/-- A context at its entry address. -/
def restarted (x : Ctx) : Ctx := { x with start := true, stack := [], faulted := false }

theorem forEach_cons {α : Type} (f : α → Dev → Dev) (a : α) (l : List α) (d : Dev) : forEach (a :: l) f d = forEach l f (f a d) := rfl

/-- One engine starts again. -/
def engineStarts (e : Nat) (d : Dev) : Dev :=
  (forEach [0, 1, 2] (fun c d => d.updCtx e c restarted) d).updEng e fun g => { g with busy := false, atSafe := false }

theorem restartEngines_eq (d : Dev) : restartEngines d = forEach d.pw.wasOnline engineStarts d := rfl

theorem sameBut_engineStarts (e : Nat) (d : Dev) : SameBut [.ctxs, .ne] d (engineStarts e d) :=
  sameBut_then (sameBut_updEng _ e _) (by decide)
    (sameBut_mono (sameBut_forEach (fun c d => d.updCtx e c restarted) (fun c d => sameBut_updCtx d e c restarted) [0, 1, 2] d) (by decide))

theorem sameBut_restartEngines (d : Dev) : SameBut [.ctxs, .ne] d (restartEngines d) :=
  sameBut_forEach engineStarts sameBut_engineStarts d.pw.wasOnline d

/-- The start of an engine puts its contexts at their entry addresses, and keeps there those of the others. -/
theorem engineStarts_start {e x k : Nat} (hk : k < 3) (h : x = e ∨ (d.ctx x k).start = true) : ((engineStarts e d).ctx x k).start = true := by
  by_cases hx : x = e
  · subst hx
    exact congrArg Ctx.start (forEach_updCtx_ctx (c := k) restarted (by decide) (by simp; omega) d)
  · have hc := fun (d : Dev) c (hc : c < 3) => updCtx_other d e c x k restarted (by omega)
    have hd := h.resolve_left hx
    have : (engineStarts e d).ctx x k = d.ctx x k :=
      (hc _ 2 (by decide)).trans ((hc _ 1 (by decide)).trans (hc d 0 (by decide)))
    rw [this, hd]

theorem restartEngines_start {e k : Nat} (hk : k < 3) (l : List Nat) (d : Dev) (h : e ∈ l ∨ (d.ctx e k).start = true) :
    ((forEach l engineStarts d).ctx e k).start = true := by
  induction l generalizing d with
  | nil => exact h.resolve_left (by simp)
  | cons x t ih =>
    rw [forEach_cons]
    refine ih (engineStarts x d) ?_
    obtain h | h := h
    · obtain rfl | h := List.mem_cons.mp h
      · exact .inr (engineStarts_start hk (.inl rfl))
      · exact .inl h
    · exact .inr (engineStarts_start hk (.inr h))

/-! ### HOLD and DEEP (R466–R469) -/

/-- The clocks of the core stop. -/
def holding (d : Dev) : Dev := { d with pw := { d.pw with state := .hold, coreUp := false, waking := false } }

theorem armWakeLatches_pw (d : Dev) : SameBut [.ic] d (armWakeLatches d) :=
  sameBut_forEach _ (fun _ _ => sameBut_ite (fun _ => sameBut_updSource _ _ _) fun _ => sameBut_refl _ _) _ d

theorem holdEntry_taken (h : d.pw.go = true) (hs : d.pw.state = .idle) (hst : d.pw.stopping = false)
    (ht : d.pw.toward.isSome = true) (hf : powerRefused d d.pw.req = false) (hw : wakePending d = []) (hsv : d.lo.survey.state ≠ 1) :
    holdEntry d = holding (armWakeLatches d) := by
  have hsurvey : surveyAbandon (armWakeLatches d) = armWakeLatches d :=
    if_neg (by rw [kept_lo (armWakeLatches_pw d) (by decide)]; exact hsv)
  unfold holdEntry
  dsimp only
  rw [if_pos (by simp [h, hs, hst, ht]), if_neg (by simp [hf, hw]), hsurvey]
  rfl

theorem holding_dead (d : Dev) : live (holding d) = false := by simp [live, holding]

theorem pwrEnFall_deep (hs : d.pw.state = .hold) (hw : d.pw.waking = false) (ht : d.pw.toward = some .deep) :
    pwrEnFall d = { d with pw := { d.pw with state := .deep, pwrEn := false } } := by
  unfold pwrEnFall
  rw [if_pos (by simp [hs, hw, ht])]

theorem pwrEnFall_hold (ht : d.pw.toward ≠ some .deep) : pwrEnFall d = d := by simp [pwrEnFall, ht]

theorem holdExit_asleep (n : Nat) (hw : d.pw.waking = false) : holdExit n d = d := by simp [holdExit, hw]

/-- The clocks run again after `n` periods of XT32. -/
def awake (n : Nat) (d : Dev) : Dev :=
  { d with
    tb := { d.tb with
      time := d.tb.time + BitVec.ofNat 64 (if d.pw.xt32 then n * 16000000000 / 32768 else 0), lockedOnce := false, plantHold := false }
    so := { d.so with servo := .unset, within := 0, setDone := false }
    pw := { d.pw with
      state := .run, go := false, toward := none, waking := false, restart := true, coreUp := true, req := 0
      holdTime := BitVec.ofNat 64 (if d.pw.xt32 then n else 0) } }

theorem holdExit_waking (n : Nat) (hs : d.pw.state = .hold) (hw : d.pw.waking = true) :
    holdExit n d = fireWakeLatches (settleAlign (regrid (dropServo (awake n d)))) := by
  unfold holdExit
  rw [if_pos (by simp [hs, hw])]
  rfl

theorem sameBut_fireWakeLatches (d : Dev) : SameBut [.ic, .ne] d (fireWakeLatches d) := by
  refine sameBut_forEach _ (fun n d => sameBut_ite (fun _ => ?_) fun _ => sameBut_refl _ _) _ d
  refine sameBut_then (sameBut_updSource _ _ _) (by decide) ?_
  exact sameBut_ite (fun _ => sameBut_fireSource _ _) fun _ => sameBut_refl _ _

theorem sameBut_regrid (d : Dev) : SameBut [.tb, .tick] d (regrid d) := by
  intro v b hb
  cases b <;> first | rfl | simp at hb

theorem sameBut_awake (n : Nat) (d : Dev) : SameBut [.tb, .so, .pw] d (awake n d) := by
  intro v b hb
  cases b <;> first | rfl | simp at hb

/-- From HOLD to the first boundary: the clocks, the grid, the wake latches. -/
theorem sameBut_wakeUp (d : Dev) : SameBut [.tb, .so, .tick, .ic, .ne] d (fireWakeLatches (settleAlign (regrid (dropServo d)))) :=
  sameBut_then (sameBut_fireWakeLatches _) (by decide) (sameBut_then (sameBut_settleAlign _) (by decide)
    (sameBut_then (sameBut_regrid _) (by decide) (sameBut_mono (sameBut_dropServo d) (by decide))))

theorem wakeUp_time (d : Dev) : (fireWakeLatches (settleAlign (regrid (dropServo d)))).tb.time = d.tb.time := by
  rw [kept_tb (sameBut_fireWakeLatches _) (by decide)]
  obtain ⟨ok, st, h⟩ := settleAlign_tb (d := regrid (dropServo d))
  rw [h]
  rfl

theorem wakeUp_pw (d : Dev) : (fireWakeLatches (settleAlign (regrid (dropServo d)))).pw = d.pw :=
  kept_pw (sameBut_wakeUp d) (by decide)

/-! ### Orders of a restart (R431, R450) -/

theorem wrst_word (code : BitVec 16) :
    bit (BitVec.ofNat 32 (code.toNat * 65536 + 1)) 0 = true ∧ fld (BitVec.ofNat 32 (code.toNat * 65536 + 1)) 16 16 = code.toNat := by
  have h := code.isLt
  have hn : (BitVec.ofNat 32 (code.toNat * 65536 + 1)).toNat = code.toNat * 65536 + 1 := by
    rw [BitVec.toNat_ofNat]
    omega
  constructor
  · rw [bit, BitVec.getLsbD, hn, Nat.testBit_zero]
    exact decide_eq_true (by omega)
  · rw [fld, hn]
    omega

theorem wrst_badKey {code : BitVec 16} (h : code ≠ 0x5752#16) :
    gbCmdWrite (BitVec.ofNat 32 (code.toNat * 65536 + 1)) d = cmdReject d := by
  obtain ⟨h0, hf⟩ := wrst_word code
  have hk : ¬code.toNat = 0x5752 := fun hc => h (BitVec.eq_of_toNat_eq hc)
  unfold gbCmdWrite
  rw [if_pos h0, hf, if_neg hk]

theorem wrst_key : gbCmdWrite (BitVec.ofNat 32 ((0x5752#16).toNat * 65536 + 1)) d = orderRestart .warmCmd
    (if d.pw.go then cmdReject { d with pw := { d.pw with go := false, toward := none } } else d) := rfl

theorem orderRestart_first {c : ResetCause} (h : d.pw.ordered = none) :
    orderRestart c d = { d with pw := { d.pw with ordered := some c } } := by
  simp [orderRestart, h]

end

end Sys2Proof.Proofs
end

section
/-! O57: the resets of the core, the warm restart, BOOT and the JTAG instructions (R320, R450, R460, R463, R495). -/

namespace Sys2Proof.Proofs

open Sys2Proof Sys2Proof.Machine Sys2Proof.Laws

/-! ### A core reset (R320, R460) -/

section
variable {s : State} {c : Core} {d : Dev} {n : Nat}

/-- A slot after a core reset: its counter and its fingerprint stand in the island. -/
def slotEmptied (s : KeySlot) : KeySlot := { s with state := .empty, key := 0, wrapped := [], scope := 0 }

theorem resetVault_slot (nonce : W64) (v : Vault) (hn : n < 4) : (resetVault nonce v).slot n = slotEmptied (v.slot n) :=
  eachSlot_slot slotEmptied { v with bootNonce := nonce } hn

theorem resetVault_others (nonce : W64) (v : Vault) :
    resetVault nonce v = { v with bootNonce := nonce, slots := (resetVault nonce v).slots } :=
  eachSlot_others slotEmptied _ { v with bootNonce := nonce }

theorem coreReset_vault (cause : ResetCause) (c : Core) : (coreReset cause c).vault = resetVault c.dev.draw.1 c.vault := rfl

theorem coreReset_counter (cause : ResetCause) (c : Core) (hn : n < 4) :
    ((coreReset cause c).vault.slot n).counter = (c.vault.slot n).counter := by
  rw [coreReset_vault, resetVault_slot _ _ hn, slotEmptied]

theorem coreReset_lifecycle (cause : ResetCause) (c : Core) : (coreReset cause c).vault.lifecycle = c.vault.lifecycle := by
  rw [coreReset_vault, resetVault_others]

/-- The power state of a core in reset: DEEP holds. -/
def heldPw (was : PowerState) (x : Power) : Power := if was = .deep then { x with state := .deep, pwrEn := false } else x

section
variable (was : PowerState) (x : Power)

theorem heldPw_state : (heldPw was x).state = if was = .deep then .deep else x.state := by unfold heldPw; split <;> rfl
theorem heldPw_inReset : (heldPw was x).inReset = x.inReset := by unfold heldPw; split <;> rfl
theorem heldPw_rstc : (heldPw was x).rstc = x.rstc := by unfold heldPw; split <;> rfl

end

theorem heldDeep_eq (was : PowerState) (c : Core) : heldDeep was c = { c with dev := { c.dev with pw := heldPw was c.dev.pw } } := by
  unfold heldDeep heldPw
  split <;> rfl

theorem sysRstN_low (c : Core) : sysRstN true c = { coreReset .ext c with dev := { (coreReset .ext c).dev with
    pw := { heldPw c.dev.pw.state (coreReset .ext c).dev.pw with sysRst := true } } } := by
  unfold sysRstN
  rw [if_pos rfl, heldDeep_eq]

theorem supplyFault_eq (c : Core) : supplyFault c = { coreReset .por c with dev := { (coreReset .por c).dev with
    pw := { heldPw c.dev.pw.state (coreReset .por c).dev.pw with supplyLow := true } } } := by
  unfold supplyFault
  rw [heldDeep_eq]

/-- WAKE_N takes a device out of DEEP by a power-on reset that keeps the record of the wake. -/
theorem wakeN_deep (k : Nat) (hs : c.dev.pw.state = .deep) (hv : c.vault.vbatLost = false) : wakeN k c =
    coreReset .por { c with dev := { c.dev with pw := { c.dev.pw with
      pwrEn := true, wakeCause := 3, wakeSource := 0xFFFF, holdTime := BitVec.ofNat 64 (if c.dev.pw.xt32 then k else 0) } } } := by
  unfold wakeN
  dsimp only
  rw [hs]
  exact if_neg (by simp [hv])

theorem wakeN_hold (k : Nat) (hs : c.dev.pw.state = .hold) (hw : c.dev.pw.waking = false) :
    wakeN k c = { c with dev := beginWake 1 0xFFFF c.dev } := by
  simp [wakeN, hs, hw]

theorem wakeN_run (k : Nat) (hs : c.dev.pw.state = .run) (hg : c.dev.pw.go = false) : wakeN k c = c := by
  simp [wakeN, hs, hg]

/-! ### The warm restart (R450) -/

/-- A bank filled from a list of keys. -/
theorem bank_get_fill {α : Type} [DecidableEq α] (z : α) (v : Nat → α) (l : List Nat) (b : Bank α) (k : Nat) :
    Bank.get z (l.foldl (fun b n => Bank.set z b n (v n)) b) k = if k ∈ l then v k else Bank.get z b k := by
  induction l generalizing b with
  | nil => simp
  | cons a t ih =>
    rw [List.foldl_cons, ih]
    by_cases ht : k ∈ t
    · rw [if_pos ht, if_pos (List.mem_cons_of_mem a ht)]
    · by_cases ha : k = a
      · rw [if_neg ht, ha, bank_get_set_same, if_pos List.mem_cons_self]
      · rw [if_neg ht, bank_get_set_other _ _ _ _ _ ha, if_neg (by simp [ht, ha])]

/-- What pin `n` keeps through a warm restart. -/
def frozenLevel (d : Dev) (n : Nat) : Option Bool :=
  match pinOwner d n with
  | .pair p => some (if n % 2 = 0 then bit (d.pair p).ctl 27 else bit (d.pair p).ctl 26)
  | _ => pinDrive d n

theorem frozenPins_get (d : Dev) (hn : n < 256) : Bank.get none (frozenPins d) n = frozenLevel d n :=
  (bank_get_fill none (frozenLevel d) (List.range 256) [] n).trans (if_pos (List.mem_range.mpr hn))

theorem frozenLevel_pair {p : Nat} (h : pinOwner d n = .pair p) :
    frozenLevel d n = some (if n % 2 = 0 then bit (d.pair p).ctl 27 else bit (d.pair p).ctl 26) := by
  unfold frozenLevel
  rw [h]

theorem warmRestart_none (h : c.dev.pw.ordered = none) : warmRestart c = c := by
  unfold warmRestart
  rw [h]

theorem warmRestart_ordered {cause : ResetCause} (h : c.dev.pw.ordered = some cause) (hr : c.dev.pw.inReset = none) :
    warmRestart c = { coreReset cause c with dev := { (coreReset cause c).dev with
      pw := { (coreReset cause c).dev.pw with frozen := some (frozenPins c.dev) } } } := by
  unfold warmRestart
  rw [h, hr]
  rfl

/-! ### BOOT (R463) -/

theorem sameBut_enumStart (p : Nat) (d : Dev) : SameBut [.fps, .lk, .ic, .ne, .lo] d (enumStart p d) := by
  unfold enumStart
  dsimp only
  split
  · exact sameBut_mono (sameBut_fpFlag p 2 d) (by decide)
  · split
    · exact sameBut_refl _ d
    · exact sameBut_then (sameBut_lo _ _) (by decide) (sameBut_mono (sameBut_updFp d p _) (by decide))

theorem release_pw (us : Nat) (warm : Bool) (d : Dev) : (release us warm d).pw = { d.pw with
    boot := 5, coreUp := true, frozen := none, bootTime := BitVec.ofNat 32 us
    restartTime := if warm then BitVec.ofNat 32 us else d.pw.restartTime } :=
  kept_pw (l := [.fps, .lk, .ic, .ne, .lo]) (sameBut_forEach _ (fun p d => sameBut_ite (fun _ => sameBut_enumStart p d)
    fun _ => sameBut_refl _ d) _ _) (by decide)

theorem boot_barred (strap : BitVec 4) (x : Bool) (patch : Option (List Byte)) (us : Nat)
    (h : c.dev.pw.coreUp = true ∨ c.dev.pw.sysRst = true ∨ c.dev.pw.state ≠ .run) : boot strap x patch us c = c := by
  have hb : (c.dev.pw.coreUp || c.dev.pw.sysRst || c.dev.pw.state != .run) = true := by
    rcases h with h | h | h <;> simp [h]
  unfold boot
  dsimp only
  rw [if_pos hb]

/-- A boot that is carried out ends with the release of the pins. -/
theorem boot_releases (strap : BitVec 4) (x : Bool) (patch : Option (List Byte)) (us : Nat) (hu : c.dev.pw.coreUp = false)
    (hr : c.dev.pw.sysRst = false) (hs : c.dev.pw.state = .run) : ∃ warm d, (boot strap x patch us c).dev = release us warm d := by
  have hb : ¬(c.dev.pw.coreUp || c.dev.pw.sysRst || c.dev.pw.state != .run) = true := by simp [hu, hr, hs]
  unfold boot
  dsimp only
  rw [if_neg hb]
  exact ⟨_, _, rfl⟩

/-! ### JTAG (R495) -/

theorem sameBut_jtag (d : Dev) (x : Jtag) : SameBut [.jtag] d { d with jtag := x } := by
  intro v b hb
  cases b
  case jtag => simp at hb
  all_goals rfl

theorem sameBut_jtagIdcode (d : Dev) : SameBut [.jtag, .free] d (jtagIdcode d) :=
  sameBut_then (sameBut_jtag _ _) (by decide) (sameBut_mono (sameBut_draw d) (by decide))

/-- The word of IDCODE has the part number and the fixed 1. -/
theorem jtagIdcode_code (d : Dev) : fld (jtagIdcode d).jtag.code 12 16 = 0x4096 ∧ bit (jtagIdcode d).jtag.code 0 = true :=
  ⟨(fld_orBit_other _ (by decide)).trans (fld_setFld_same _ 12 16 0x4096 (by decide)), bit_orBit_same _ 0 (by decide)⟩

theorem jtagDrive_low (ir : JtagIr) (h : d.pw.sysRst = true) : jtagDrive ir d = { d with jtag := { d.jtag with ir := ir } } := by
  simp [jtagDrive, h]

theorem jtagDrive_high (ir : JtagIr) (h : d.pw.sysRst = false) : jtagDrive ir d = { d with jtag := { d.jtag with ir := .bypass } } := by
  simp [jtagDrive, h]

end

end Sys2Proof.Proofs
end

section
/-! O57: the obligation on keys, power states, resets, BOOT and JTAG. -/

namespace Sys2Proof.Proofs

open Sys2Proof Sys2Proof.Machine Sys2Proof.Laws

section
variable {s : State}

theorem exec_wrst (code : BitVec 16) :
    exec (.wrst code) s = whenLiveDev true (gbCmdWrite (BitVec.ofNat 32 (code.toNat * 65536 + 1))) s := rfl

/-- A command of the device that changes nothing now. -/
theorem exec_onDevice_same {i : Instr} {f : Dev → Dev} (hx : exec i s = onDevice true f s) (hf : f s.core.dev = s.core.dev) :
    exec i s = .next s := by
  rw [hx, onDevice, onCore_ok, Core.mapDev, hf]

/-- A command of the core that changes nothing now. -/
theorem exec_onCore_same {i : Instr} {f : Core → Core} (hx : exec i s = onCore true f s) (hf : f s.core = s.core) :
    exec i s = .next s := by
  rw [hx, onCore_ok, hf]

/-! ### Keys (R399, R409) -/

section
variable (v : Vault)

theorem voidSlots_tamper : (voidSlots v).tamper = v.tamper := by rw [voidSlots_others]
theorem voidSlots_vbatLost : (voidSlots v).vbatLost = v.vbatLost := by rw [voidSlots_others]
theorem voidSlots_bootCounter : (voidSlots v).bootCounter = 0 := by rw [voidSlots_others]
theorem voidSlots_lifecycle : (voidSlots v).lifecycle = v.lifecycle := by rw [voidSlots_others]

/-- The fingerprints of the slots are lost with VBAT. -/
def fingersLost : Vault := [0, 1, 2, 3].foldl (fun v n => v.updSlot n fun s => { s with finger := 0 }) v

theorem fingersLost_others : fingersLost v = { v with slots := (fingersLost v).slots } := eachSlot_others _ _ v

theorem fingersLost_slot {n : Nat} (hn : n < 4) : (fingersLost v).slot n = { v.slot n with finger := 0 } := eachSlot_slot _ v hn

theorem fingersLost_vbatLost : (fingersLost v).vbatLost = v.vbatLost := by rw [fingersLost_others]
theorem fingersLost_bootCounter : (fingersLost v).bootCounter = v.bootCounter := by rw [fingersLost_others]
theorem fingersLost_lifecycle : (fingersLost v).lifecycle = v.lifecycle := by rw [fingersLost_others]

end

theorem tamper_clause : Runs .tamper s [.vault, .ic, .ne, .sec] fun t =>
    t.core.vault.tamper = true ∧ t.core.vault.bootCounter = 0 ∧ t.core.vault.lifecycle = s.core.vault.lifecycle ∧
    ∀ n, n < 4 → (t.core.vault.slot n).counter = 0 ∧
      (t.core.vault.slot n).state = (if (s.core.vault.slot n).state = .empty then .empty else .voided) := by
  refine tamper_runs (w := s.core.vault) rfl fun e => ?_
  dsimp only
  rw [voidSlots_tamper, voidSlots_bootCounter, voidSlots_lifecycle]
  refine ⟨rfl, rfl, rfl, fun n hn => ?_⟩
  rw [voidSlots_slot hn]
  exact ⟨rfl, voided_state _⟩

theorem sameBut_aoqLost (d : Dev) : SameBut [.tooth, .pw] d (aoqLost d) := by
  intro v b hb
  cases b <;> first | rfl | simp at hb

/-- The device whose key store has lost VBAT: the flags, then the AOQ counters. -/
theorem vbatLoss_device (c : Core) : ∃ d, SameBut [.ic, .ne, .sec] c.dev d ∧
    vbatLoss c = ⟨fingersLost (voidSlots { c.vault with vbatLost := true }), aoqLost d⟩ :=
  ⟨_, sameBut_trans (sameBut_voidAll { c with vault := { c.vault with vbatLost := true } }) (sameBut_secFlag 4 _), vbatLoss_eq c⟩

theorem vbatLoss_clause : Runs .vbatLoss s [.vault, .ic, .ne, .sec, .tooth, .pw] fun t =>
    t.core.vault.vbatLost = true ∧ t.core.vault.bootCounter = 0 ∧ t.core.vault.lifecycle = s.core.vault.lifecycle ∧
    t.core.dev.tooth = { s.core.dev.tooth with aoq := t.core.dev.tooth.aoq } ∧
    (∀ n, t.core.dev.aoq n = { ab := (s.core.dev.aoq n).ab }) ∧
    t.core.dev.pw = { s.core.dev.pw with wakeCause := 0, wakeSource := 0xFFFF } ∧
    ∀ n, n < 4 → (t.core.vault.slot n).counter = 0 ∧ (t.core.vault.slot n).state ≠ .valid := by
  obtain ⟨d, hd, hv⟩ := vbatLoss_device s.core
  have htooth : d.tooth = s.core.dev.tooth := kept_tooth hd (by decide)
  have hpw : d.pw = s.core.dev.pw := kept_pw hd (by decide)
  refine runs_vault_to (f := vbatLoss) rfl hv (sameBut_then (sameBut_aoqLost d) (by decide) (sameBut_mono hd (by decide))) ?_
  dsimp only
  rw [fingersLost_vbatLost, fingersLost_bootCounter, fingersLost_lifecycle, voidSlots_vbatLost, voidSlots_bootCounter,
    voidSlots_lifecycle]
  refine ⟨rfl, rfl, rfl, ?_, fun n => ?_, ?_, fun n hn => ?_⟩
  · rw [← htooth]
    rfl
  · rw [aoqLost_aoq, Dev.aoq, htooth]
    rfl
  · rw [← hpw]
    rfl
  · rw [fingersLost_slot _ hn, voidSlots_slot hn]
    exact ⟨rfl, voided_notValid _⟩

theorem vbatRestore_clause (h : s.core.vault.vbatLost = true) : Runs .vbatRestore s [.vault, .ic, .ne, .sec] fun t =>
    t.core.vault.tamper = true ∧ t.core.vault.vbatLost = false := by
  have hr : vbatRestore s.core = tamper { s.core with vault := { s.core.vault with vbatLost := false } } := if_pos h
  refine runs_vault_to (f := vbatRestore) rfl hr
    (sameBut_voidAll ⟨{ s.core.vault with vbatLost := false, tamper := true }, s.core.dev⟩) ?_
  dsimp only
  exact ⟨voidSlots_tamper _, voidSlots_vbatLost _⟩

/-! ### Power states (R431, R465–R469) -/

theorem powerRequest_clause {r : Nat} {d : Dev} {P : State → Prop} (hl : live s.core.dev = true) (hr : r < 4)
    (hf : powerRequest r s.core.dev = d) (hd : SameBut [.pw] s.core.dev d) (hp : P { s with core := { s.core with dev := d } }) :
    Runs (.powerRequest r) s [.pw] P :=
  runs_to hl (exec_powerRequest hr) hf hd hp

theorem idleEntry_clause (hl : live s.core.dev = true) (hg : s.core.dev.pw.go = true) (hs : s.core.dev.pw.state = .run)
    (hr : 1 ≤ s.core.dev.pw.req) (hf : powerRefused s.core.dev s.core.dev.pw.req = false) : Runs .idleEntry s [.pw] fun t =>
      t.core.dev.pw.state = .idle ∧ t.core.dev.pw.stopping = anyBusy s.core.dev ∧
      (anyBusy s.core.dev = false → t.core.dev.pw.go = s.core.dev.pw.toward.isSome) := by
  refine runs_to (f := idleEntry) hl rfl ((idleEntry_taken hg hs hr hf).trans (settleStop_idling s.core.dev)) (sameBut_pw s.core.dev _)
    ⟨rfl, rfl, fun hb => ?_⟩
  dsimp only
  rw [hb, hg]
  rfl

theorem idleExit_clause (hl : live s.core.dev = true) (hg : s.core.dev.pw.go = true) (hs : s.core.dev.pw.state = .idle)
    (hr : s.core.dev.pw.req = 0) : Runs .idleExit s [.pw, .ctxs, .ne] fun t =>
      t.core.dev.pw = { s.core.dev.pw with state := .run, stopping := false, go := false, toward := none } ∧
      ∀ e c, e ∈ s.core.dev.pw.wasOnline → c < 3 → (t.core.dev.ctx e c).start = true := by
  have hd := sameBut_restartEngines (runAgain s.core.dev)
  refine runs_to (f := idleExit) hl rfl (idleExit_taken hg hs hr)
    (sameBut_then hd (by decide) (sameBut_mono (sameBut_pw s.core.dev _) (by decide))) ⟨kept_pw hd (by decide), fun e c he hc => ?_⟩
  dsimp only
  rw [restartEngines_eq]
  exact restartEngines_start hc s.core.dev.pw.wasOnline _ (.inl he)

theorem holdEntry_clause (hl : live s.core.dev = true) (hg : s.core.dev.pw.go = true) (hs : s.core.dev.pw.state = .idle)
    (hst : s.core.dev.pw.stopping = false) (ht : s.core.dev.pw.toward.isSome = true)
    (hf : powerRefused s.core.dev s.core.dev.pw.req = false) (hw : wakePending s.core.dev = []) (hsv : s.core.dev.lo.survey.state ≠ 1) :
    Runs .holdEntry s [.pw, .ic] fun t =>
      t.core.dev.pw = { s.core.dev.pw with state := .hold, coreUp := false, waking := false } ∧ live t.core.dev = false := by
  have hd := armWakeLatches_pw s.core.dev
  have hpw : (armWakeLatches s.core.dev).pw = s.core.dev.pw := kept_pw hd (by decide)
  refine runs_to (f := holdEntry) hl rfl (holdEntry_taken hg hs hst ht hf hw hsv)
    (sameBut_then (sameBut_pw (armWakeLatches s.core.dev) _) (by decide) (sameBut_mono hd (by decide))) ⟨?_, holding_dead _⟩
  rw [← hpw]
  rfl

theorem holdExit_clause (n : Nat) (hs : s.core.dev.pw.state = .hold) (hw : s.core.dev.pw.waking = true) :
    Runs (.holdExit n) s [.tb, .so, .tick, .pw, .ic, .ne] fun t =>
      t.core.dev.pw.state = .run ∧ t.core.dev.pw.coreUp = true ∧ t.core.dev.pw.go = false ∧ t.core.dev.pw.req = 0 ∧
      t.core.dev.tb.time =
        s.core.dev.tb.time + BitVec.ofNat 64 (if s.core.dev.pw.xt32 then n * 16000000000 / 32768 else 0) := by
  refine runs_onDevice (f := holdExit n) rfl (holdExit_waking n hs hw)
    (sameBut_then (sameBut_wakeUp _) (by decide) (sameBut_mono (sameBut_awake n s.core.dev) (by decide))) ?_
  dsimp only
  rw [wakeUp_pw, wakeUp_time]
  exact ⟨rfl, rfl, rfl, rfl, rfl⟩

/-! ### Orders of a restart (R431) -/

theorem wrst_clause {d : Dev} (hl : live s.core.dev = true) (ho : d.pw.ordered = none)
    (hg : (if s.core.dev.pw.go then cmdReject { s.core.dev with pw := { s.core.dev.pw with go := false, toward := none } }
      else s.core.dev) = d) (hd : SameBut [.pw] s.core.dev d) :
    Runs (.wrst 0x5752#16) s [.pw] fun t => t.core.dev.pw = { d.pw with ordered := some .warmCmd } := by
  refine runs_to hl (exec_wrst _) (wrst_key.trans ?_) (sameBut_trans hd (sameBut_pw d _)) rfl
  rw [hg, orderRestart_first ho]

/-! ### Resets (R320, R460) -/

theorem wakeN_deep_clause (hs : s.core.dev.pw.state = .deep) (hv : s.core.vault.vbatLost = false) (k : Nat) :
    ∃ t, exec (.wakeN k) s = .next t ∧ t.pending = s.pending ∧
      t.core.dev.pw.state = .run ∧ (s.core.dev.pw.xt32 = true → t.core.dev.pw.holdTime = BitVec.ofNat 64 k) ∧
      t.core.dev.pw.inReset = some .por ∧ t.core.dev.pw.pwrEn = true ∧ t.core.dev.pw.wakeCause = 3 ∧ t.core.dev.pw.rstc = 1#5 ∧
      t.core.dev.pw.coreUp = false ∧ t.core.dev.tooth.aoq = s.core.dev.tooth.aoq ∧ t.core.dev.ds.flash = s.core.dev.ds.flash ∧
      (∀ n, t.core.dev.pair n = {}) ∧ ∀ n, n < 4 → (t.core.vault.slot n).counter = (s.core.vault.slot n).counter := by
  have hx : exec (.wakeN k) s = .next { s with core := wakeN k s.core } := rfl
  rw [wakeN_deep k hs hv] at hx
  refine ⟨_, hx, rfl, rfl, fun h32 => ?_, rfl, rfl, rfl, rfl, rfl, rfl, rfl, fun _ => rfl, fun n hn => ?_⟩
  · have hp : (BitVec.ofNat 64 (if s.core.dev.pw.xt32 then k else 0)) = BitVec.ofNat 64 k := by rw [if_pos h32]
    exact hp
  · rw [coreReset_counter .por _ hn]

theorem sysRstN_low_clause : ∃ t, exec (.sysRstN true) s = .next t ∧ t.pending = s.pending ∧ t.core.dev.pw.inReset = some .ext ∧
    t.core.dev.pw.state = (if s.core.dev.pw.state = .deep then .deep else .run) ∧
    t.core.dev.pw.sysRst = true ∧ t.core.dev.pw.rstc = s.core.dev.pw.rstc ||| 2#5 ∧
    t.core.dev.tooth.aoq = s.core.dev.tooth.aoq ∧ t.core.dev.ds.flash = s.core.dev.ds.flash ∧ t.core.dev.jtag = s.core.dev.jtag ∧
    t.core.dev.hi.stats = s.core.dev.hi.stats ∧ (∀ n, t.core.dev.pair n = {}) ∧
    t.core.vault.lifecycle = s.core.vault.lifecycle ∧
    ∀ n, n < 4 → (t.core.vault.slot n).counter = (s.core.vault.slot n).counter := by
  have hx : exec (.sysRstN true) s = .next { s with core := sysRstN true s.core } := rfl
  rw [sysRstN_low] at hx
  exact ⟨_, hx, rfl, heldPw_inReset _ _, heldPw_state _ _, rfl, heldPw_rstc _ _, rfl, rfl, rfl, rfl, fun _ => rfl,
    coreReset_lifecycle .ext s.core, fun n hn => coreReset_counter .ext s.core hn⟩

theorem sameBut_pw_jtag (d : Dev) (x : Power) (j : Jtag) : SameBut [.pw, .jtag] d { d with pw := x, jtag := j } := by
  intro v b hb
  cases b <;> first | rfl | simp at hb

theorem sysRstN_high_clause : Runs (.sysRstN false) s [.pw, .jtag] fun t =>
    t.core.dev.pw = { s.core.dev.pw with sysRst := false } ∧
    (s.core.dev.jtag.ir ≠ .extest → s.core.dev.jtag.ir ≠ .highz → t.core.dev.jtag = s.core.dev.jtag) ∧
    (s.core.dev.pw.sysRst = true → s.core.dev.jtag.ir = .extest ∨ s.core.dev.jtag.ir = .highz →
      t.core.dev.jtag = { s.core.dev.jtag with ir := .idcode }) := by
  refine runs_core_to (f := sysRstN false) rfl rfl (sameBut_pw_jtag s.core.dev _ _)
    ⟨rfl, fun h1 h2 => ?_, fun hr h => ?_⟩
  · exact if_neg (by simp [h1, h2])
  · exact if_pos (by rcases h with h | h <;> simp [hr, h])

theorem supplyFault_clause : ∃ t, exec .supplyFault s = .next t ∧ t.pending = s.pending ∧ t.core.dev.pw.inReset = some .por ∧
    t.core.dev.pw.state = (if s.core.dev.pw.state = .deep then .deep else .run) ∧
    t.core.dev.pw.supplyLow = true ∧ t.core.dev.pw.rstc = 1#5 ∧ t.core.dev.tooth.aoq = s.core.dev.tooth.aoq ∧
    t.core.dev.ds.flash = s.core.dev.ds.flash ∧ t.core.dev.hi = {} := by
  have hx : exec .supplyFault s = .next { s with core := supplyFault s.core } := rfl
  rw [supplyFault_eq] at hx
  exact ⟨_, hx, rfl, heldPw_inReset _ _, heldPw_state _ _, rfl, heldPw_rstc _ _, rfl, rfl, rfl⟩

theorem warmRestart_clause (ho : s.core.dev.pw.ordered = some .warmCmd) (hr : s.core.dev.pw.inReset = none) :
    ∃ t, exec .warmRestart s = .next t ∧
      t.pending = s.pending ∧ t.core.dev.pw.inReset = some .warmCmd ∧ t.core.dev.pw.rstc = s.core.dev.pw.rstc ||| 4#5 ∧
      t.core.dev.pw.warmRestarts = s.core.dev.pw.warmRestarts + 1 ∧
      t.core.dev.tooth.aoq = s.core.dev.tooth.aoq ∧ t.core.dev.ds.flash = s.core.dev.ds.flash ∧
      t.core.dev.hi.stats = s.core.dev.hi.stats ∧
      (∃ b, t.core.dev.pw.frozen = some b ∧ ∀ n p, n < 256 → pinOwner s.core.dev n = .pair p →
        Bank.get none b n = some (if n % 2 = 0 then bit (s.core.dev.pair p).ctl 27 else bit (s.core.dev.pair p).ctl 26)) := by
  have hx : exec .warmRestart s = .next { s with core := warmRestart s.core } := rfl
  rw [warmRestart_ordered ho hr] at hx
  exact ⟨_, hx, rfl, rfl, rfl, rfl, rfl, rfl, rfl, _, rfl, fun n p hn hp => (frozenPins_get _ hn).trans (frozenLevel_pair hp)⟩

theorem boot_clause (strap : BitVec 4) (x : Bool) (patch : Option (List Byte)) (us : Nat) (hu : s.core.dev.pw.coreUp = false)
    (hr : s.core.dev.pw.sysRst = false) (hs : s.core.dev.pw.state = .run) :
    ∃ t, exec (.boot strap x patch us) s = .next t ∧ t.pending = s.pending ∧ t.core.dev.pw.coreUp = true ∧
      t.core.dev.pw.boot = 5 ∧ t.core.dev.pw.frozen = none ∧ t.core.dev.pw.bootTime = BitVec.ofNat 32 us := by
  obtain ⟨warm, d, hd⟩ := boot_releases (c := s.core) strap x patch us hu hr hs
  have hx : exec (.boot strap x patch us) s = .next { s with core := boot strap x patch us s.core } := rfl
  refine ⟨_, hx, rfl, ?_⟩
  dsimp only
  rw [hd, release_pw]
  exact ⟨rfl, rfl, rfl, rfl⟩

/-! ### JTAG (R495) -/

theorem idcode_clause : Runs .idcode s [.jtag, .free] fun t =>
    t.core.dev.jtag = { s.core.dev.jtag with ir := .idcode, code := t.core.dev.jtag.code } ∧
    fld t.core.dev.jtag.code 12 16 = 0x4096 ∧ bit t.core.dev.jtag.code 0 = true :=
  runs_onDevice (f := jtagIdcode) rfl rfl (sameBut_jtagIdcode s.core.dev) ⟨rfl, jtagIdcode_code s.core.dev⟩

theorem samplePreload_clause {cells : List Bool} (hc : cells.length = 256) : Runs (.samplePreload cells) s [.jtag] fun t =>
    t.core.dev.jtag.ir = .sample ∧ t.core.dev.jtag.preload = cells ∧
    t.core.dev.jtag.sampled = (List.range 256).map (tpLevel s.core.dev) :=
  runs_onDevice (f := jtagSample cells) (congrArg (fun ok => onDevice ok (jtagSample cells) s) (decide_eq_true hc)) rfl
    (sameBut_jtag s.core.dev _) ⟨rfl, rfl, rfl⟩

/-- EXTEST and HIGHZ are loaded as they are, or BYPASS in their place. -/
theorem jtagDrive_runs {i : Instr} {a b : JtagIr} (hx : exec i s = onDevice true (jtagDrive a) s)
    (hf : jtagDrive a s.core.dev = { s.core.dev with jtag := { s.core.dev.jtag with ir := b } }) :
    Runs i s [.jtag] fun t => t.core.dev.jtag = { s.core.dev.jtag with ir := b } :=
  runs_onDevice hx hf (sameBut_jtag s.core.dev _) rfl

end

/-- Settles O57: each command by the law of its operation. -/
theorem powerAndResets : Obligations.PowerAndResets := by
  intro s
  refine ⟨tamper_clause, vbatLoss_clause, fun h => ?_, vbatRestore_clause, fun hl => ⟨fun r hr => ⟨fun hg => ?_, fun hg he => ?_,
      fun hg he hf => ?_, fun hg he hf => ?_⟩, fun hg => ⟨?_, ?_, ?_⟩, idleEntry_clause hl, idleExit_clause hl, holdEntry_clause hl,
      fun hg ho => ?_, fun hg ho => ?_, fun code hc => ?_⟩,
    fun hs hw => ⟨fun ht => ?_, fun ht => ?_, fun k => ?_, fun n => ?_⟩, holdExit_clause, fun hs hg k => ?_,
    wakeN_deep_clause, sysRstN_low_clause, sysRstN_high_clause, supplyFault_clause, fun ho => ?_, warmRestart_clause,
    fun strap x patch us => ⟨fun h => ?_, boot_clause strap x patch us⟩,
    ?_, idcode_clause, fun cells => samplePreload_clause, fun hr => ⟨?_, ?_⟩, fun hr => ⟨?_, ?_⟩⟩
  · exact exec_onCore_same (f := vbatRestore) rfl (if_neg (by simp [h]))
  · exact powerRequest_clause hl hr (powerRequest_inProgress hg) (sameBut_pw s.core.dev _) rfl
  · exact powerRequest_clause hl hr (powerRequest_same hg he) (sameBut_pw s.core.dev _) rfl
  · exact powerRequest_clause hl hr (powerRequest_refused hg he hf) (sameBut_pw s.core.dev _) rfl
  · exact powerRequest_clause hl hr (powerRequest_taken hg he hf) (sameBut_pw s.core.dev _) ⟨rfl, rfl, rfl, rfl⟩
  · exact exec_unchanged (f := idleEntry) hl rfl (idleEntry_none hg)
  · exact exec_unchanged (f := idleExit) hl rfl (idleExit_none hg)
  · exact exec_unchanged (f := holdEntry) hl rfl (holdEntry_none hg)
  · exact wrst_clause hl ho (if_neg (by simp [hg])) (sameBut_refl [.pw] s.core.dev)
  · exact wrst_clause (d := cmdReject { s.core.dev with pw := { s.core.dev.pw with go := false, toward := none } }) hl ho (if_pos hg)
      (sameBut_pw s.core.dev _)
  · exact runs_to hl (exec_wrst code) (wrst_badKey hc) (sameBut_pw s.core.dev _) rfl
  · exact runs_onDevice (f := pwrEnFall) rfl (pwrEnFall_deep hs hw ht) (sameBut_pw s.core.dev _) rfl
  · exact exec_onDevice_same (f := pwrEnFall) rfl (pwrEnFall_hold ht)
  · exact runs_core_to (f := wakeN k) rfl (wakeN_hold k hs hw) (sameBut_pw s.core.dev _) rfl
  · exact exec_onDevice_same (f := holdExit n) rfl (holdExit_asleep n hw)
  · exact exec_onCore_same (f := wakeN k) rfl (wakeN_run k hs hg)
  · exact exec_onCore_same (f := warmRestart) rfl (warmRestart_none ho)
  · exact exec_onCore_same (f := boot strap x patch us) rfl (boot_barred strap x patch us h)
  · exact runs_onDevice (f := jtagBypass) rfl rfl (sameBut_jtag s.core.dev _) rfl
  · exact jtagDrive_runs (a := .extest) rfl (jtagDrive_low .extest hr)
  · exact jtagDrive_runs (a := .highz) rfl (jtagDrive_low .highz hr)
  · exact jtagDrive_runs (a := .extest) rfl (jtagDrive_high .extest hr)
  · exact jtagDrive_runs (a := .highz) rfl (jtagDrive_high .highz hr)

end Sys2Proof.Proofs
end

section
/-! O50, the line of a field port: its flags, the requests that leave, and the ends of an exchange (R332–R346). -/

namespace Sys2Proof.Proofs

open Sys2Proof Sys2Proof.Machine Sys2Proof.Laws

section
variable {d : Dev} {p q h b : Nat} {e : Exchange} {frame : List Byte}

/-! ### Flags of ports and heads -/

theorem fpFlag_fps (p b : Nat) (d : Dev) : (fpFlag p b d).fps = (d.updFp p fun f => { f with stat := orBit f.stat b }).fps := by
  unfold fpFlag
  dsimp only
  split
  · rw [kept_fps (sameBut_memberEvent _ _) (by decide)]
  · rfl

@[simp] theorem fpFlag_fp_same (p b : Nat) (d : Dev) : (fpFlag p b d).fp p = { d.fp p with stat := orBit (d.fp p).stat b } := by
  unfold Dev.fp
  rw [fpFlag_fps]
  exact updFp_same d p _

theorem fpFlag_fp_other (b : Nat) (d : Dev) (hq : q ≠ p) : (fpFlag p b d).fp q = d.fp q := by
  unfold Dev.fp
  rw [fpFlag_fps]
  exact updFp_other d p q _ hq

@[simp] theorem fpFlag_head (p b : Nat) (d : Dev) (k : Nat) : (fpFlag p b d).head k = d.head k :=
  kept_head (sameBut_fpFlag p b d) (by decide) k

@[simp] theorem hdFlag_head_same (h b : Nat) (d : Dev) : (hdFlag h b d).head h = { d.head h with stat := orBit (d.head h).stat b } :=
  (kept_head (sameBut_memberEvent _ _) (by decide) h).trans (updHead_same d h _)

@[simp] theorem hdFlag_fp (h b : Nat) (d : Dev) (k : Nat) : (hdFlag h b d).fp k = d.fp k := kept_fp (sameBut_hdFlag h b d) (by decide) k

/-! ### A cyclic exchange starts (R337, R341–R343, R346) -/

theorem headFree_iff (hp : h / 32 = p) : headFree d h = true ↔ fpEn (d.fp p) = true ∧ (d.fp p).line = none ∧
    (d.fp p).unplanned = false ∧ planned (d.head h) (d.head h).use = true ∧
    d.tick.number.toNat % 2 ^ hdRdiv (d.head h).use = hdRph (d.head h).use := by
  subst hp
  simp [headFree, hasTurn, and_assoc]

theorem cyclicStart_barred (hf : headFree d h = false) : cyclicStart h d = d := by
  unfold cyclicStart
  dsimp only
  rw [if_pos (by simp [hf])]

/-- The request `e` of head `h` leaves with the edge entries `l` under a new SEQB. -/
def requestLeaves (h : Nat) (l : List EdgeEntry) (e : Exchange) (d : Dev) : Dev :=
  (d.updHead h fun x => { x with sent := l, seqb := (d.head h).seqb ^^^ 1#4, moved := false, served := true }).updFp (h / 32) fun f =>
    { f with line := some e }

/-- Entries that leave too late for their instants are counted. -/
def lateNoted (p : Nat) (late : List EdgeEntry) (d : Dev) : Dev :=
  if late.isEmpty then d else fpFlag p 6 (d.updFp p fun f => { f with latec := addSat f.latec late.length })

theorem requestLeaves_line (l : List EdgeEntry) (hp : h / 32 = p) : ((requestLeaves h l e d).fp p).line = some e := by
  subst hp
  rw [requestLeaves, updFp_same]

theorem requestLeaves_fp_other (l : List EdgeEntry) (hp : h / 32 = p) (hq : q ≠ p) : (requestLeaves h l e d).fp q = d.fp q := by
  subst hp
  rw [requestLeaves, updFp_other _ _ _ _ hq, kept_fp (sameBut_updHead d h _) (by decide)]

theorem requestLeaves_head (l : List EdgeEntry) : (requestLeaves h l e d).head h =
    { d.head h with sent := l, seqb := (d.head h).seqb ^^^ 1#4, moved := false, served := true } := by
  rw [requestLeaves, kept_head (sameBut_updFp _ _ _) (by decide), updHead_same]

theorem sameBut_requestLeaves (l : List EdgeEntry) : SameBut [.heads, .fps] d (requestLeaves h l e d) :=
  sameBut_then (sameBut_updFp _ _ _) (by decide) (sameBut_mono (sameBut_updHead d h _) (by decide))

section
variable (l : List EdgeEntry)

theorem lateNoted_line (p : Nat) (d : Dev) : ((lateNoted p l d).fp p).line = (d.fp p).line := by
  unfold lateNoted
  split
  · rfl
  · simp

theorem lateNoted_fp_other (d : Dev) (hq : q ≠ p) : (lateNoted p l d).fp q = d.fp q := by
  unfold lateNoted
  split
  · rfl
  · exact (fpFlag_fp_other 6 _ hq).trans (updFp_other d p q _ hq)

theorem sameBut_lateNoted (p : Nat) (d : Dev) : SameBut [.fps, .lk, .ic, .ne] d (lateNoted p l d) :=
  sameBut_ite (fun _ => sameBut_refl _ d) fun _ => sameBut_then (sameBut_fpFlag p 6 _) (by decide)
    (sameBut_mono (sameBut_updFp d p _) (by decide))

end

/-- A cyclic exchange that starts now. -/
def cyclicRequest (h : Nat) (frame : List Byte) (n : Nat) (xnom : Time64) (skip : Bool) (tick : Nat) (d : Dev) : Exchange :=
  { head := h, frame := frame, x := d.tb.time, xnom := xnom, start := d.tb.tclk, skip := skip, n := n, tick := tick }

/-- The request to an encoder head has no body. -/
theorem cyclicStart_encoder (hf : headFree d h = true) (hs : (d.head h).sent = []) (ht : (d.head h).htype = 1) :
    ∃ cmd xnom skip n tick,
      cyclicStart h d = requestLeaves h [] (cyclicRequest h (requestFrame h cmd []) n xnom skip tick d) d := by
  unfold cyclicStart
  dsimp only
  rw [if_neg (by simp [hf]), hs, ht]
  exact ⟨_, _, _, _, _, rfl⟩

/-- The request to a gate-drive head carries the oldest entries that were queued 4 TCLK before. -/
theorem cyclicStart_gateDrive (hf : headFree d h = true) (hs : (d.head h).sent = []) (ht : (d.head h).htype = 2) {l : List EdgeEntry}
    (hl : (((d.head h).eq.filter fun e => decide (e.tclk + 4 ≤ d.tb.tclk)).take (hdN (d.head h) (d.head h).use)) = l) :
    ∃ cmd xnom skip tick late, cyclicStart h d = lateNoted (h / 32) late (requestLeaves h l (cyclicRequest h
      (requestFrame h cmd (l.flatMap fun e => leBytes 4 (edgeWord d.tb.time e).toNat)) l.length xnom skip tick d) d) := by
  unfold cyclicStart
  dsimp only
  rw [if_neg (by simp [hf]), hs, ht]
  subst hl
  exact ⟨_, _, _, _, _, rfl⟩

theorem length_requestFrame (h cmd : Nat) (body : List Byte) : (requestFrame h cmd body).length = body.length + 4 := by
  simp [requestFrame, length_beBytes]

theorem requestFrame_head (h cmd : Nat) (body : List Byte) : (requestFrame h cmd body).head? = some (BitVec.ofNat 8 (h % 32)) := rfl

/-! ### A good cyclic response (R332–R339, R343) -/

theorem lineOf_cyclic {ty : Nat} (hl : (d.fp p).line = some e) (ha : e.acy = none) (ht : (d.head e.head).htype = ty) :
    lineOf d p ty = some e := by
  simp [lineOf, hl, ha, ht]

theorem freeLine_line (p : Nat) (e : Exchange) (d : Dev) : ((freeLine p e d).fp p).line = none :=
  congrArg FieldPort.line (updFp_same d p _)

/-- The device after a good cyclic response whose status reports no error. -/
def serviced (p : Nat) (e : Exchange) (st : Byte) (d : Dev) : Dev :=
  (freeLine p e d).updHead e.head fun x => { x with hstat := st, eq := x.eq.drop x.sent.length, sent := [] }

theorem serviceDone_clean {st : Byte} (h6 : bit st 6 = false) (h7 : bit st 7 = false) :
    serviceDone p e st d = serviced p e st d := by
  unfold serviceDone
  rw [if_neg (by simp [h6]), if_neg (by simp [h7])]
  rfl

section
variable (p : Nat) (e : Exchange) (st : Byte) (d : Dev)

theorem serviced_line : ((serviced p e st d).fp p).line = none := by
  rw [serviced, kept_fp (sameBut_updHead _ _ _) (by decide), freeLine_line]

theorem serviced_head : (serviced p e st d).head e.head =
    { d.head e.head with hstat := st, eq := (d.head e.head).eq.drop (d.head e.head).sent.length, sent := [] } :=
  updHead_same (freeLine p e d) e.head _

theorem serviced_fp_other (hq : q ≠ p) : (serviced p e st d).fp q = d.fp q := by
  rw [serviced, kept_fp (sameBut_updHead _ _ _) (by decide), freeLine, updFp_other _ _ _ _ hq]

theorem serviced_head_other (hq : q ≠ e.head) : (serviced p e st d).head q = d.head q := updHead_other (freeLine p e d) e.head q _ hq

theorem sameBut_serviced : SameBut [.heads, .fps] d (serviced p e st d) :=
  sameBut_then (sameBut_updHead _ _ _) (by decide) (sameBut_mono (sameBut_updFp d p _) (by decide))

end

/-- Head `h` has latched the inputs `v`, whose edges trigger the event groups `gs`. -/
def inputsTaken (h : Nat) (v : BitVec 16) (gs : List Nat) (d : Dev) : Dev :=
  { (d.updHead h fun x => { x with inputs := v }) with ds := { d.ds with trigs := d.ds.trigs ++ gs } }

theorem inputsTaken_head (h : Nat) (v : BitVec 16) (gs : List Nat) (d : Dev) :
    (inputsTaken h v gs d).head h = { d.head h with inputs := v } := updHead_same d h fun x => { x with inputs := v }

theorem sameBut_inputsTaken (h : Nat) (v : BitVec 16) (gs : List Nat) (d : Dev) : SameBut [.heads, .ds] d (inputsTaken h v gs d) :=
  sameBut_then (sameBut_ds _ _) (by decide) (sameBut_mono (sameBut_updHead d h _) (by decide))

section
variable {st : Byte} (hl : (d.fp p).line = some e) (ha : e.acy = none) (hst : frameStatus frame = st) (h6 : bit st 6 = false)
  (h7 : bit st 7 = false)
include hl ha hst h6 h7

theorem gateResponse_good (ht : (d.head e.head).htype = 2) (hg : frameGood e frame false 0 = true) :
    gateResponse p frame false d = serviced p e st d := by
  unfold gateResponse
  rw [lineOf_cyclic hl ha ht]
  dsimp only
  rw [if_neg (by simp [hg]), hst, serviceDone_clean h6 h7]

theorem ioResponse_good (ht : (d.head e.head).htype = 3) (hg : frameGood e frame false 2 = true) :
    ioResponse p frame false d = inputsTaken e.head (BitVec.ofNat 16 (leNat (frameBody frame)))
      (edgeGroups d e.head (d.head e.head).inputs (BitVec.ofNat 16 (leNat (frameBody frame)))) (serviced p e st d) := by
  unfold ioResponse
  rw [lineOf_cyclic hl ha ht]
  dsimp only
  rw [if_neg (by simp [hg]), hst, serviceDone_clean h6 h7]
  rfl

/-- The samples of an encoder response, stamped X_nom − (S − 1 − j) × Q. -/
def sampleList (d : Dev) (e : Exchange) (frame : List Byte) : List (W32 × Time64 × Nat) :=
  (List.range e.n).map fun j =>
    (BitVec.ofNat 32 (leNat (slice (frameBody frame) (3 * j) 3)),
     plusInt e.xnom (-(((e.n - 1 - j) * hdQ d (d.head e.head) (d.head e.head).use * 64 : Nat) : Int)), e.tick)

/-- An axis takes samples. -/
def takeSamples (l : List (W32 × Time64 × Nat)) (a : Nat) (d : Dev) : Dev :=
  d.updAxis a fun x => { x with mdl := { x.mdl with samples := x.mdl.samples ++ l } }

theorem encoderResponse_good (ht : (d.head e.head).htype = 1) (hg : frameGood e frame false (3 * e.n) = true) :
    encoderResponse p frame false d = if bit st 4 = false ∨ e.skip = true then serviced p e st d
      else forEach (axesOfHead d e.head) (takeSamples (sampleList d e frame)) (serviced p e st d) := by
  unfold encoderResponse
  rw [lineOf_cyclic hl ha ht]
  dsimp only
  rw [if_neg (by simp [hg]), hst, serviceDone_clean h6 h7]
  by_cases hs : bit st 4 = false ∨ e.skip = true
  · rw [if_pos hs, if_pos (by simpa using hs)]
  · rw [if_neg hs, if_neg (by simpa using hs)]
    rfl

end

theorem sameBut_takeSamples (l : List (W32 × Time64 × Nat)) (as : List Nat) (d : Dev) : SameBut [.ax] d (forEach as (takeSamples l) d) :=
  sameBut_forEach _ (fun a d => sameBut_updAxis d a _) as d

/-! ### A missing response (R336, R343) -/

/-- A response that has not come is counted. -/
def missed (p : Nat) (d : Dev) : Dev := fpFlag p 4 (d.updFp p fun f => { f with norc := incSat f.norc })

theorem noResponse_line (hl : (d.fp p).line = some e) : noResponse p d = exchangeFails p e (missed p d) := by
  unfold noResponse
  rw [hl]
  rfl

theorem noResponse_free (hl : (d.fp p).line = none) : noResponse p d = d := by
  unfold noResponse
  rw [hl]

theorem missed_fp (p : Nat) (d : Dev) :
    (missed p d).fp p = { d.fp p with norc := incSat (d.fp p).norc, stat := orBit (d.fp p).stat 4 } := by
  rw [missed, fpFlag_fp_same, updFp_same]

theorem sameBut_missed (p : Nat) (d : Dev) : SameBut [.fps, .lk, .ic, .ne] d (missed p d) :=
  sameBut_then (sameBut_fpFlag p 4 _) (by decide) (sameBut_mono (sameBut_updFp d p _) (by decide))

/-- The exchange goes out again. -/
def againNow (e : Exchange) (d : Dev) : Exchange := { e with tries := e.tries + 1, x := d.tb.time, start := d.tb.tclk }

/-- While retries remain the exchange is repeated at once, and a cyclic one moves back what follows it. -/
theorem exchangeFails_repeats (ht : e.tries < fpRetry (d.fp p)) (hl : e.last = false)
    (hr : ∀ r, e.acy = some r → acyInTime d (d.fp p) r = true) :
    SameBut [.fps] d (exchangeFails p e d) ∧ ((exchangeFails p e d).fp p).line = some (againNow e d) ∧
    (e.acy = none → ((exchangeFails p e d).fp p).delay =
      (d.fp p).delay + hdLen (d.head e.head) (d.head e.head).use * fpBt (d.fp p)) ∧
    ((exchangeFails p e d).fp p).norc = (d.fp p).norc ∧ ((exchangeFails p e d).fp p).retryc = incSat (d.fp p).retryc ∧
    ((exchangeFails p e d).fp p).stat = (d.fp p).stat := by
  have hs := fun f g => sameBut_trans (sameBut_updFp d p f) (sameBut_updFp (d.updFp p f) p g)
  unfold exchangeFails
  dsimp only
  rw [if_pos ⟨ht, hl⟩]
  cases ha : e.acy with
  | none =>
    dsimp only
    rw [updFp_same, updFp_same]
    exact ⟨hs _ _, congrArg some (by rw [againNow, ← ha]), fun _ => rfl, rfl, rfl, rfl⟩
  | some r =>
    dsimp only
    rw [if_pos (hr r ha)]
    rw [updFp_same, updFp_same]
    exact ⟨hs _ _, congrArg some (by rw [againNow, ← ha]), fun h => (by cases h), rfl, rfl, rfl⟩

/-- With its retries spent a cyclic service is skipped. -/
theorem exchangeFails_skips (ht : fpRetry (d.fp p) ≤ e.tries) (ha : e.acy = none) :
    exchangeFails p e d = hdFlag e.head 3 (freeLine p e d) := by
  unfold exchangeFails
  dsimp only
  rw [if_neg (by omega), ha]

/-! ### Acyclic exchanges (R340, R345, R348) -/

theorem acyclicStart_identify {rest : List AcyReq} (hq : (d.fp p).acy = { head := h, kind := .identify } :: rest)
    (he : fpEn (d.fp p) = true) (hl : (d.fp p).line = none)
    (ht : (bitGrains (d.fp p) 160 : Int) ≤ sdiff d.tick.next d.tb.time) : ∃ n, acyclicStart p d = d.updFp p fun f => { f with
      acy := rest
      line := some { head := h, acy := some { head := h, kind := .identify }, frame := requestFrame h 0xC1 [0, 0], x := d.tb.time,
                     xnom := d.tb.time, start := d.tb.tclk, n := n } } := by
  have hin : acyInTime d (d.fp p) { head := h, kind := .identify } = true := decide_eq_true ht
  unfold acyclicStart
  dsimp only
  rw [hq]
  dsimp only
  rw [if_neg (by simp [he, hl, hin])]
  exact ⟨_, rfl⟩

theorem acyLine_some {r : AcyReq} (hl : (d.fp p).line = some e) (ha : e.acy = some r) : acyLine d p = some (e, r) := by
  simp [acyLine, hl, ha]

theorem acyLine_none (hl : (d.fp p).line = none) : acyLine d p = none := by simp [acyLine, hl]

theorem lineOf_none (ty : Nat) (hl : (d.fp p).line = none) : lineOf d p ty = none := by simp [lineOf, hl]

/-- The line is cleared and a request goes to the front of the acyclic queue. -/
def resumes (p : Nat) (r : AcyReq) (d : Dev) : Dev := (clearLine p d).updFp p fun f => { f with acy := r :: f.acy }

theorem resumes_fp (p : Nat) (r : AcyReq) (d : Dev) :
    ((resumes p r d).fp p).line = none ∧ ((resumes p r d).fp p).acy = r :: (d.fp p).acy := by
  rw [resumes, clearLine, updFp_same, updFp_same]
  exact ⟨rfl, rfl⟩

theorem sameBut_resumes (p : Nat) (r : AcyReq) (d : Dev) : SameBut [.fps] d (resumes p r d) :=
  sameBut_trans (sameBut_updFp d p _) (sameBut_updFp _ p _)

/-- The write of the parameters of a head that has answered with TYPE, VERSION and CAP. -/
def setupRequest (h : Nat) (b : List Byte) (ld q : Nat) : AcyReq :=
  { head := h, kind := .setup (b.getD 0 0).toNat (b.getD 1 0).toNat (b.getD 2 0).toNat ld q }

theorem identifyResponse_good {trip : Nat} (hl : (d.fp p).line = some e) (ha : e.acy = some { head := e.head, kind := .identify })
    (hg : frameGood e frame false 4 = true) (ht : 2 * ((trip + 32) / 64 * 32) ≤ bitGrains (d.fp p) 10) :
    ∃ q, identifyResponse p frame false trip d =
      resumes p (setupRequest e.head ((frameBody frame).drop 1) ((trip + 32) / 64 * 32) q) d := by
  unfold identifyResponse
  rw [acyLine_some hl ha]
  dsimp only
  rw [if_neg (by simp [hg]), if_neg (by omega)]
  exact ⟨_, rfl⟩

theorem readResponse_part {r : AcyReq} {pidx : Nat} (hl : (d.fp p).line = some e) (ha : e.acy = some r)
    (hk : r.kind = .read pidx (r.done + e.n + 1)) (hg : frameGood e frame false (1 + e.n) = true) :
    readResponse p frame false d =
      resumes p { r with done := r.done + e.n, tries := 0, got := r.got ++ (frameBody frame).drop 1 } d := by
  unfold readResponse
  rw [acyLine_some hl ha]
  dsimp only
  rw [hk]
  dsimp only
  rw [if_neg (by simp [hg]), if_pos (by omega)]
  rfl

theorem enumNext_none (he : (d.fp p).enumAt = none) : enumNext p d = d := by
  unfold enumNext
  rw [he]

/-- The last bytes of its setup enumerate a head. -/
theorem writeResponse_enumerates {r : AcyReq} {ty ver cap ld q : Nat} (hl : (d.fp p).line = some e) (ha : e.acy = some r)
    (hk : r.kind = .setup ty ver cap ld q) (hty : ty ≤ 3) (hn : 8 ≤ r.done + e.n) (hg : frameGood e frame false 1 = true)
    (he : (d.fp p).enumAt = none) : writeResponse p frame false d = (clearLine p d).updHead e.head fun x => { x with
      enumd := true, htype := ty, version := BitVec.ofNat 8 ver, cap := BitVec.ofNat 32 cap, ld := BitVec.ofNat 20 ld, q := q } := by
  have hlen : (acyData r).2.length = 8 := by simp [acyData, hk, leBytes]
  have hdone : ¬r.done + e.n < (acyData r).2.length := by omega
  have hen : ∀ f, (((clearLine p d).updHead e.head f).fp p).enumAt = none := fun f => by
    rw [kept_fp (sameBut_updHead _ _ _) (by decide), clearLine, updFp_same]
    exact he
  unfold writeResponse
  rw [acyLine_some hl ha]
  dsimp only
  have hd : (acyData { r with done := r.done + e.n, tries := 0 }) = acyData r := rfl
  rw [hk]
  dsimp only
  rw [if_neg (by simp [hg])]
  rw [if_neg hdone, enumNext_none (hen _), if_pos hty]

end

end Sys2Proof.Proofs
end

section
/-! O50, the plan of a field port: load, enable, disable, enumeration (R344, R348–R350, R392). -/

namespace Sys2Proof.Proofs

open Sys2Proof Sys2Proof.Machine Sys2Proof.Laws

section
variable {d : Dev} {p h : Nat}

/-! ### The heads of a port -/

/-- The 32 heads of port `p`. -/
def portHeads (p : Nat) : List Nat := (List.range 32).map (32 * p + ·)

theorem mem_portHeads : h ∈ portHeads p ↔ h / 32 = p := by
  simp only [portHeads, List.mem_map, List.mem_range]
  constructor
  · rintro ⟨i, hi, rfl⟩
    omega
  · intro hp
    exact ⟨h % 32, by omega, by omega⟩

theorem nodup_portHeads (p : Nat) : (portHeads p).Nodup := List.nodup_range.map fun a b (h : 32 * p + a = 32 * p + b) => by omega

/-- A change of each head of a list. -/
def updHeads (l : List Nat) (f : Head → Head) (d : Dev) : Dev := forEach l (fun h d => d.updHead h f) d

theorem updHeads_other {l : List Nat} (f : Head → Head) (hh : h ∉ l) (d : Dev) : (updHeads l f d).head h = d.head h := by
  unfold updHeads
  induction l generalizing d with
  | nil => rfl
  | cons a t ih =>
    rw [forEach_cons, ih (fun hm => hh (List.mem_cons_of_mem a hm)), updHead_other]
    rintro rfl
    exact hh List.mem_cons_self

theorem updHeads_mem {l : List Nat} (f : Head → Head) (hl : l.Nodup) (hh : h ∈ l) (d : Dev) : (updHeads l f d).head h = f (d.head h) := by
  induction l generalizing d with
  | nil => cases hh
  | cons a t ih =>
    obtain ⟨ha, ht⟩ := List.nodup_cons.mp hl
    have hc : updHeads (a :: t) f d = updHeads t f (d.updHead a f) := rfl
    rw [hc]
    obtain rfl | hm := List.mem_cons.mp hh
    · rw [updHeads_other f ha, updHead_same]
    · rw [ih ht hm, updHead_other]
      rintro rfl
      exact ha hm

theorem sameBut_updHeads (l : List Nat) (f : Head → Head) (d : Dev) : SameBut [.heads] d (updHeads l f d) :=
  sameBut_forEach _ (fun h d => sameBut_updHead d h f) l d

/-! ### Load and enable (R344) -/

/-- A load that is accepted: the staged values wait for the next boundary, behind the writes `w` of the new Q. -/
def planTaken (p : Nat) (w : List AcyReq) (d : Dev) : Dev :=
  (updHeads (portHeads p) (fun x => { x with next := some x.cfg }) d).updFp p fun f => { f with planBusy := true, acy := f.acy ++ w }

theorem planLoad_taken (hs : (planSlot d p (stagedCfg d)).isSome = true) : ∃ w, planLoad p d = planTaken p w d := by
  obtain ⟨n, hn⟩ := Option.isSome_iff_exists.mp hs
  unfold planLoad
  rw [hn]
  exact ⟨_, rfl⟩

section
variable (w : List AcyReq)

theorem planTaken_fp (p : Nat) (d : Dev) : (planTaken p w d).fp p = { d.fp p with planBusy := true, acy := (d.fp p).acy ++ w } := by
  rw [planTaken, updFp_same, kept_fp (sameBut_updHeads _ _ d) (by decide)]

theorem planTaken_next (d : Dev) (hh : h / 32 = p) : ((planTaken p w d).head h).next = some (d.head h).cfg := by
  rw [planTaken, kept_head (sameBut_updFp _ _ _) (by decide), updHeads_mem _ (nodup_portHeads p) (mem_portHeads.mpr hh)]

theorem sameBut_planTaken (p : Nat) (d : Dev) : SameBut [.fps, .heads] d (planTaken p w d) :=
  sameBut_then (sameBut_updFp _ _ _) (by decide) (sameBut_mono (sameBut_updHeads _ _ d) (by decide))

end

theorem fpLoad_busy (hb : (d.fp p).planBusy = true) : fpLoad p d = fpFlag p 10 d := if_pos hb

theorem fpLoad_dropped (hb : (d.fp p).planBusy = false) (he : fpEn (d.fp p) = false) (ho : (d.fp p).offIn = some d.tb.tclk) :
    fpLoad p d = d := by
  unfold fpLoad
  rw [if_neg (by simp [hb]), if_pos (by simp [he, ho])]

theorem fpLoad_loads (hb : (d.fp p).planBusy = false) (h : fpEn (d.fp p) = true ∨ (d.fp p).offIn ≠ some d.tb.tclk) :
    fpLoad p d = planLoad p d := by
  unfold fpLoad
  rw [if_neg (by simp [hb]), if_neg (by rcases h with h | h <;> simp [h])]

/-- The port enabled, its plan still to load. -/
def portOn (p : Nat) (d : Dev) : Dev :=
  d.updFp p fun f => { f with cfg := orBit f.cfg 31, shifted := false, delay := 0, unplanned := false }

theorem portEnable_slow (he : fpEn (d.fp p) = false) (hb : fld (d.fp p).cfg 8 8 < 4) : portEnable p d = fpFlag p 2 d := by
  unfold portEnable
  dsimp only
  rw [if_neg (by simp [he]), if_pos hb]

theorem portEnable_loads (he : fpEn (d.fp p) = false) (hb : 4 ≤ fld (d.fp p).cfg 8 8) : portEnable p d = planLoad p (portOn p d) := by
  unfold portEnable
  dsimp only
  rw [if_neg (by simp [he]), if_neg (by omega)]
  rfl

theorem portOn_enabled (p : Nat) (d : Dev) : fpEn ((portOn p d).fp p) = true := by
  rw [portOn, updFp_same]
  exact bit_orBit_same _ 31 (by decide)

/-! ### Disable (R349, R350) -/

/-- The port disabled with no acyclic request waiting and its queues of edges empty. -/
def portOff (p : Nat) (d : Dev) : Dev :=
  fpFlag p 8 (updHeads (portHeads p) (fun x => { x with eq := [], sent := [], next := none }) (d.updFp p fun f => { f with
    cfg := clrBit f.cfg 31, planBusy := false, acy := [], enumAt := none, offIn := some d.tb.tclk
    line := f.line.map fun e => { e with last := true }
    discc := addSat f.discc (f.acy.length + (portHeads p).foldl (fun n h => n + (d.head h).eq.length) 0) }))

theorem portDisable_off (he : fpEn (d.fp p) = false) : portDisable p d = d := by
  unfold portDisable
  dsimp only
  rw [if_pos (by simp [he])]

theorem forEach_nil {α : Type} (f : α → Dev → Dev) (d : Dev) : forEach [] f d = d := rfl

theorem portDisable_on (he : fpEn (d.fp p) = true) (ha : (d.fp p).acy = []) (hn : (d.fp p).enumAt = none) :
    ∃ l, portDisable p d = forEach l remoteMiss (portOff p d) := by
  unfold portDisable
  dsimp only
  rw [if_neg (by simp [he]), ha, hn, forEach_nil, if_neg (by simp)]
  exact ⟨_, rfl⟩

theorem sameBut_misses (l : List Nat) (d : Dev) : SameBut [.ax, .ic, .ne] d (forEach l remoteMiss d) :=
  sameBut_forEach remoteMiss (fun a d => sameBut_ite (fun _ => sameBut_enterCoast a d) fun _ => sameBut_refl _ d) l d

theorem sameBut_portOff (p : Nat) (d : Dev) : SameBut [.fps, .lk, .heads, .ic, .ne] d (portOff p d) :=
  sameBut_then (sameBut_fpFlag p 8 _) (by decide) (sameBut_then (sameBut_updHeads _ _ _) (by decide)
    (sameBut_mono (sameBut_updFp d p _) (by decide)))

theorem portOff_fp (p : Nat) (d : Dev) : fpEn ((portOff p d).fp p) = false ∧ ((portOff p d).fp p).planBusy = false ∧
    ((portOff p d).fp p).acy = [] := by
  rw [portOff, fpFlag_fp_same, kept_fp (sameBut_updHeads _ _ _) (by decide), updFp_same]
  exact ⟨bit_clrBit_same _ 31, rfl, rfl⟩

theorem portOff_head (d : Dev) (hh : h / 32 = p) : ((portOff p d).head h).eq = [] ∧ ((portOff p d).head h).sent = [] := by
  rw [portOff, fpFlag_head, updHeads_mem _ (nodup_portHeads p) (mem_portHeads.mpr hh)]
  exact ⟨rfl, rfl⟩

theorem portOff_head_other (d : Dev) (hh : h / 32 ≠ p) : (portOff p d).head h = d.head h := by
  rw [portOff, fpFlag_head, updHeads_other _ (fun hm => hh (mem_portHeads.mp hm)), kept_head (sameBut_updFp d p _) (by decide)]

/-! ### Enumeration (R348, R392) -/

theorem enumStart_off (he : fpEn (d.fp p) = false) : enumStart p d = fpFlag p 2 d := by
  unfold enumStart
  dsimp only
  rw [if_pos (by simp [he])]

/-- The first enumeration since the last one has ended: each address of one port. -/
def enumBegun (p : Nat) (d : Dev) : Dev :=
  { (d.updFp p fun f => { f with enumAt := some 0, acy := f.acy ++ [{ head := 32 * p, kind := .identify }] }) with
    lo := { d.lo with enum := { op := LongOp.begin, total := 32 } } }

theorem enumStart_first (he : fpEn (d.fp p) = true) (hn : (d.fp p).enumAt = none) (hs : d.lo.enum.op.state ≠ 1) :
    enumStart p d = enumBegun p d := by
  unfold enumStart
  dsimp only
  rw [if_neg (by simp [he]), if_neg (by simp [hn]), if_neg hs]
  rfl

theorem enumBegun_fp (p : Nat) (d : Dev) : ((enumBegun p d).fp p).enumAt = some 0 ∧
    ((enumBegun p d).fp p).acy = (d.fp p).acy ++ [{ head := 32 * p, kind := .identify }] := by
  have h : (enumBegun p d).fp p = _ := updFp_same d p fun f =>
    { f with enumAt := some 0, acy := f.acy ++ [{ head := 32 * p, kind := .identify }] }
  rw [h]
  exact ⟨rfl, rfl⟩

theorem sameBut_enumBegun (p : Nat) (d : Dev) : SameBut [.fps, .lo] d (enumBegun p d) :=
  sameBut_then (sameBut_lo _ _) (by decide) (sameBut_mono (sameBut_updFp d p _) (by decide))

theorem enumDone_idle (hs : d.lo.enum.op.state ≠ 1) : enumDone d = d := if_neg fun h => hs h.1

/-- Enumeration ends. -/
def enumEnded (l : LongOps) : LongOps := { l with enum := { l.enum with op := l.enum.op.finish (!l.enum.refused), boot := false } }

theorem enumDone_ends (hs : d.lo.enum.op.state = 1) (hb : d.lo.enum.boot = false) (hall : (d.fps.all fun e => e.2.enumAt.isNone) = true) :
    enumDone d = loFinish enumEnded d := by
  unfold enumDone
  rw [if_pos ⟨hs, hall⟩, if_neg (by simp [hb])]
  rfl

end

end Sys2Proof.Proofs
end

section
/-! O50: the obligation on the exchanges and commands of a field port. -/

namespace Sys2Proof.Proofs

open Sys2Proof Sys2Proof.Machine Sys2Proof.Laws

section
variable {s : State} {p : Nat}

/-! ### The commands of a port -/

theorem exec_cyclicExchangeStart {h : Nat} (hh : h < 2048) :
    exec (.cyclicExchangeStart h) s = whenLiveDev true (cyclicStart h) s :=
  congrArg (fun ok => whenLiveDev ok (cyclicStart h) s) (decide_eq_true hh)

section
variable (hp : isFieldPort p = true) (frame : List Byte) (framing : Bool)
include hp

theorem exec_gateDriveResponse : exec (.gateDriveResponse p frame framing) s = whenLiveDev true (gateResponse p frame framing) s :=
  congrArg (fun ok => whenLiveDev ok (gateResponse p frame framing) s) hp
theorem exec_encoderResponse : exec (.encoderResponse p frame framing) s = whenLiveDev true (encoderResponse p frame framing) s :=
  congrArg (fun ok => whenLiveDev ok (encoderResponse p frame framing) s) hp
theorem exec_ioResponse : exec (.ioResponse p frame framing) s = whenLiveDev true (ioResponse p frame framing) s :=
  congrArg (fun ok => whenLiveDev ok (ioResponse p frame framing) s) hp
theorem exec_identifyResponse (trip : Nat) :
    exec (.identifyResponse p frame framing trip) s = whenLiveDev true (identifyResponse p frame framing trip) s :=
  congrArg (fun ok => whenLiveDev ok (identifyResponse p frame framing trip) s) hp
theorem exec_readResponse : exec (.readResponse p frame framing) s = whenLiveDev true (readResponse p frame framing) s :=
  congrArg (fun ok => whenLiveDev ok (readResponse p frame framing) s) hp
theorem exec_writeResponse : exec (.writeResponse p frame framing) s = whenLiveDev true (writeResponse p frame framing) s :=
  congrArg (fun ok => whenLiveDev ok (writeResponse p frame framing) s) hp

omit frame framing

theorem exec_noResponse : exec (.noResponse p) s = whenLiveDev true (noResponse p) s :=
  congrArg (fun ok => whenLiveDev ok (noResponse p) s) hp
theorem exec_acyclicExchangeStart : exec (.acyclicExchangeStart p) s = whenLiveDev true (acyclicStart p) s :=
  congrArg (fun ok => whenLiveDev ok (acyclicStart p) s) hp
theorem exec_portEnable : exec (.portEnable p) s = whenLiveDev true (portEnable p) s :=
  congrArg (fun ok => whenLiveDev ok (portEnable p) s) hp
theorem exec_portDisable : exec (.portDisable p) s = whenLiveDev true (portDisable p) s :=
  congrArg (fun ok => whenLiveDev ok (portDisable p) s) hp
theorem exec_load : exec (.load p) s = whenLiveDev true (fpLoad p) s := congrArg (fun ok => whenLiveDev ok (fpLoad p) s) hp
theorem exec_enum : exec (.enum p) s = whenLiveDev true (enumStart p) s := congrArg (fun ok => whenLiveDev ok (enumStart p) s) hp

end

section
variable (hl : live s.core.dev = true)
include hl

/-! ### Cyclic exchanges -/

section
variable {h : Nat} (hh : h < 2048) (hp : h / 32 = p) (hf : headFree s.core.dev h = true) (hsent : (s.core.dev.head h).sent = [])
include hh hp hf hsent

theorem encoderStart_clause (ht : (s.core.dev.head h).htype = 1) : Runs (.cyclicExchangeStart h) s [.heads, .fps] fun t =>
    (∃ x, (t.core.dev.fp p).line = some x ∧ x.head = h ∧ x.acy = none ∧ x.x = s.core.dev.tb.time ∧
      x.start = s.core.dev.tb.tclk ∧ x.frame.length = 4 ∧ x.frame.head? = some (BitVec.ofNat 8 (h % 32))) ∧
    (t.core.dev.head h).seqb = (s.core.dev.head h).seqb ^^^ 1#4 ∧ (t.core.dev.head h).moved = false ∧
    ∀ q, q ≠ p → t.core.dev.fp q = s.core.dev.fp q := by
  obtain ⟨cmd, xnom, skip, n, tick, hc⟩ := cyclicStart_encoder hf hsent ht
  refine runs_to hl (exec_cyclicExchangeStart hh) hc (sameBut_requestLeaves []) ?_
  dsimp only
  rw [requestLeaves_head]
  exact ⟨⟨_, requestLeaves_line [] hp, rfl, rfl, rfl, rfl, length_requestFrame h cmd [], requestFrame_head h cmd []⟩, rfl, rfl,
    fun q hq => requestLeaves_fp_other [] hp hq⟩

theorem gateDriveStart_clause (l : List EdgeEntry) (ht : (s.core.dev.head h).htype = 2)
    (hq : (((s.core.dev.head h).eq.filter fun e => decide (e.tclk + 4 ≤ s.core.dev.tb.tclk)).take
      (hdN (s.core.dev.head h) (s.core.dev.head h).use)) = l) :
    Runs (.cyclicExchangeStart h) s [.heads, .fps, .lk, .ic, .ne] fun t =>
      (∃ x cmd, (t.core.dev.fp p).line = some x ∧ x.head = h ∧ x.acy = none ∧ x.n = l.length ∧
        x.frame = requestFrame h cmd (l.flatMap fun e => leBytes 4 (edgeWord s.core.dev.tb.time e).toNat)) ∧
      (t.core.dev.head h).sent = l ∧ (t.core.dev.head h).eq = (s.core.dev.head h).eq ∧
      ∀ q, q ≠ p → t.core.dev.fp q = s.core.dev.fp q := by
  obtain ⟨cmd, xnom, skip, tick, late, hc⟩ := cyclicStart_gateDrive hf hsent ht hq
  rw [hp] at hc
  refine runs_to hl (exec_cyclicExchangeStart hh) hc
    (sameBut_then (sameBut_lateNoted late p _) (by decide) (sameBut_mono (sameBut_requestLeaves l) (by decide))) ?_
  dsimp only
  rw [lateNoted_line, kept_head (sameBut_lateNoted late p _) (by decide), requestLeaves_head]
  exact ⟨⟨_, cmd, requestLeaves_line l hp, rfl, rfl, rfl, rfl⟩, rfl, rfl,
    fun q hq => (lateNoted_fp_other late _ hq).trans (requestLeaves_fp_other l hp hq)⟩

end

section
variable (hp : isFieldPort p = true) {x : Exchange} {frame : List Byte} {st : Byte} (hx : (s.core.dev.fp p).line = some x)
include hp hx

section
variable (ha : x.acy = none) (hst : frameStatus frame = st) (h6 : bit st 6 = false) (h7 : bit st 7 = false)
include ha hst h6 h7

theorem gateDriveResponse_clause (ht : (s.core.dev.head x.head).htype = 2) (hg : frameGood x frame false 0 = true) :
    Runs (.gateDriveResponse p frame false) s [.heads, .fps] fun t =>
      (t.core.dev.fp p).line = none ∧ (t.core.dev.head x.head).hstat = st ∧ (t.core.dev.head x.head).sent = [] ∧
      (t.core.dev.head x.head).eq = (s.core.dev.head x.head).eq.drop (s.core.dev.head x.head).sent.length ∧
      (∀ q, q ≠ p → t.core.dev.fp q = s.core.dev.fp q) ∧ ∀ q, q ≠ x.head → t.core.dev.head q = s.core.dev.head q := by
  refine runs_to hl (exec_gateDriveResponse hp frame false) (gateResponse_good hx ha hst h6 h7 ht hg)
    (sameBut_serviced p x st s.core.dev) ?_
  dsimp only
  rw [serviced_line, serviced_head]
  exact ⟨rfl, rfl, rfl, rfl, fun q hq => serviced_fp_other p x st s.core.dev hq, fun q hq => serviced_head_other p x st s.core.dev hq⟩

theorem encoderResponse_clause (ht : (s.core.dev.head x.head).htype = 1) (hg : frameGood x frame false (3 * x.n) = true) :
    Runs (.encoderResponse p frame false) s [.heads, .fps, .ax] fun t =>
      (t.core.dev.fp p).line = none ∧ (t.core.dev.head x.head).hstat = st ∧
      (bit st 4 = false ∨ x.skip = true → t.core.dev.ax = s.core.dev.ax) ∧
      (∀ a, bit st 4 = true → x.skip = false → axesOfHead s.core.dev x.head = [a] →
        (t.core.dev.axis a).mdl.samples = (s.core.dev.axis a).mdl.samples ++ sampleList s.core.dev x frame) := by
  have hs := sameBut_serviced p x st s.core.dev
  have he := encoderResponse_good hx ha hst h6 h7 ht hg
  by_cases hd : bit st 4 = false ∨ x.skip = true
  · rw [if_pos hd] at he
    refine runs_to hl (exec_encoderResponse hp frame false) he (sameBut_mono hs (by decide)) ?_
    dsimp only
    rw [serviced_line, serviced_head]
    refine ⟨rfl, rfl, fun _ => kept_ax hs (by decide), fun a h4 hk => ?_⟩
    rcases hd with hd | hd
    · rw [hd] at h4
      cases h4
    · rw [hd] at hk
      cases hk
  · rw [if_neg hd] at he
    have hax := sameBut_takeSamples (sampleList s.core.dev x frame) (axesOfHead s.core.dev x.head) (serviced p x st s.core.dev)
    refine runs_to hl (exec_encoderResponse hp frame false) he (sameBut_then hax (by decide) (sameBut_mono hs (by decide))) ?_
    dsimp only
    rw [kept_fp hax (by decide), kept_head hax (by decide), serviced_line, serviced_head]
    refine ⟨rfl, rfl, fun h => absurd h hd, fun a _ _ hone => ?_⟩
    rw [hone, forEach_cons, forEach_nil, takeSamples, updAxis_same, kept_axis hs (by decide)]

theorem ioResponse_clause (ht : (s.core.dev.head x.head).htype = 3) (hg : frameGood x frame false 2 = true) :
    Runs (.ioResponse p frame false) s [.heads, .fps, .ds] fun t =>
      (t.core.dev.fp p).line = none ∧
      (t.core.dev.head x.head).inputs = BitVec.ofNat 16 (leNat (frameBody frame)) ∧
      t.core.dev.ds.trigs = s.core.dev.ds.trigs ++
        edgeGroups s.core.dev x.head (s.core.dev.head x.head).inputs (BitVec.ofNat 16 (leNat (frameBody frame))) := by
  have hs := sameBut_serviced p x st s.core.dev
  have hi := fun v gs => sameBut_inputsTaken x.head v gs (serviced p x st s.core.dev)
  refine runs_to hl (exec_ioResponse hp frame false) (ioResponse_good hx ha hst h6 h7 ht hg)
    (sameBut_then (hi _ _) (by decide) (sameBut_mono hs (by decide))) ?_
  dsimp only
  rw [kept_fp (hi _ _) (by decide), serviced_line, inputsTaken_head]
  refine ⟨rfl, rfl, ?_⟩
  rw [← kept_ds hs (by decide)]
  rfl

end

/-! ### Missing responses -/

theorem repeat_clause (ht : x.tries < fpRetry (s.core.dev.fp p)) (hlast : x.last = false)
    (hr : ∀ r, x.acy = some r → acyInTime s.core.dev (s.core.dev.fp p) r = true) :
    Runs (.noResponse p) s [.fps, .lk, .ic, .ne] fun t =>
      (t.core.dev.fp p).line =
        some { x with tries := x.tries + 1, x := s.core.dev.tb.time, start := s.core.dev.tb.tclk } ∧
      (x.acy = none → (t.core.dev.fp p).delay = (s.core.dev.fp p).delay +
        hdLen (s.core.dev.head x.head) (s.core.dev.head x.head).use * fpBt (s.core.dev.fp p)) ∧
      (t.core.dev.fp p).norc = incSat (s.core.dev.fp p).norc ∧ (t.core.dev.fp p).retryc = incSat (s.core.dev.fp p).retryc ∧
      bit (t.core.dev.fp p).stat 4 = true := by
  have hm := sameBut_missed p s.core.dev
  have hf := missed_fp p s.core.dev
  have htries : x.tries < fpRetry ((missed p s.core.dev).fp p) := by
    rw [hf]
    exact ht
  have htime : ∀ r, x.acy = some r → acyInTime (missed p s.core.dev) ((missed p s.core.dev).fp p) r = true := fun r h => by
    rw [hf, acyInTime, kept_tick hm (by decide), kept_tb hm (by decide)]
    exact hr r h
  obtain ⟨hs, hline, hdelay, hnorc, hretry, hstat⟩ := exchangeFails_repeats htries hlast htime
  refine runs_to hl (exec_noResponse hp) (noResponse_line hx) (sameBut_then hs (by decide) hm) ?_
  dsimp only
  rw [hline, hnorc, hretry, hstat, againNow, kept_tb hm (by decide), hf]
  rw [hf, kept_head hm (by decide)] at hdelay
  exact ⟨rfl, hdelay, rfl, rfl, bit_orBit_same _ 4 (by decide)⟩

theorem skip_clause (ha : x.acy = none) (ht : fpRetry (s.core.dev.fp p) ≤ x.tries) :
    Runs (.noResponse p) s [.fps, .lk, .heads, .ic, .ne] fun t =>
      (t.core.dev.fp p).line = none ∧ bit (t.core.dev.head x.head).stat 3 = true ∧
      (t.core.dev.head x.head).eq = (s.core.dev.head x.head).eq := by
  have hm := sameBut_missed p s.core.dev
  have hr : fpRetry ((missed p s.core.dev).fp p) ≤ x.tries := by
    rw [missed_fp]
    exact ht
  refine runs_to hl (exec_noResponse hp) ((noResponse_line hx).trans (exchangeFails_skips hr ha))
    (sameBut_then (sameBut_hdFlag _ _ _) (by decide) (sameBut_then (sameBut_updFp _ p _) (by decide) (sameBut_mono hm (by decide)))) ?_
  dsimp only
  rw [hdFlag_fp, freeLine_line, hdFlag_head_same, freeLine, kept_head (sameBut_updFp _ p _) (by decide), kept_head hm (by decide)]
  exact ⟨rfl, bit_orBit_same _ 3 (by decide), rfl⟩

end

/-- A response of any kind, or its absence, while no exchange is on the line. -/
theorem idleLine_clause (hp : isFieldPort p = true) (hx : (s.core.dev.fp p).line = none) {i : Instr}
    (hi : i ∈ [Instr.noResponse p, .gateDriveResponse p [] true, .encoderResponse p [] true, .ioResponse p [] true,
      .identifyResponse p [] true 0, .readResponse p [] true, .writeResponse p [] true]) : exec i s = .next s := by
  have hn := acyLine_none hx
  have hc := fun ty => lineOf_none ty hx
  simp only [List.mem_cons, List.not_mem_nil, or_false] at hi
  obtain rfl | rfl | rfl | rfl | rfl | rfl | rfl := hi
  · exact exec_unchanged hl (exec_noResponse hp) (noResponse_free hx)
  · exact exec_unchanged hl (exec_gateDriveResponse hp [] true) (by rw [gateResponse, hc])
  · exact exec_unchanged hl (exec_encoderResponse hp [] true) (by rw [encoderResponse, hc])
  · exact exec_unchanged hl (exec_ioResponse hp [] true) (by rw [ioResponse, hc])
  · exact exec_unchanged hl (exec_identifyResponse hp [] true 0) (by rw [identifyResponse, hn])
  · exact exec_unchanged hl (exec_readResponse hp [] true) (by rw [readResponse, hn])
  · exact exec_unchanged hl (exec_writeResponse hp [] true) (by rw [writeResponse, hn])

/-! ### Acyclic exchanges -/

section
variable (hp : isFieldPort p = true)
include hp

theorem acyclicStart_clause {h : Nat} {rest : List AcyReq} (hq : (s.core.dev.fp p).acy = { head := h, kind := .identify } :: rest)
    (he : fpEn (s.core.dev.fp p) = true) (hx : (s.core.dev.fp p).line = none)
    (ht : (bitGrains (s.core.dev.fp p) 160 : Int) ≤ sdiff s.core.dev.tick.next s.core.dev.tb.time) :
    Runs (.acyclicExchangeStart p) s [.fps] fun t =>
      (t.core.dev.fp p).acy = rest ∧
      (∃ x, (t.core.dev.fp p).line = some x ∧ x.head = h ∧ x.frame = requestFrame h 0xC1 [0, 0]) ∧
      ∀ q, q ≠ p → t.core.dev.fp q = s.core.dev.fp q := by
  obtain ⟨n, hn⟩ := acyclicStart_identify hq he hx ht
  refine runs_to hl (exec_acyclicExchangeStart hp) hn (sameBut_updFp s.core.dev p _) ?_
  dsimp only
  rw [updFp_same]
  exact ⟨rfl, ⟨_, rfl, rfl, rfl⟩, fun q hq => updFp_other s.core.dev p q _ hq⟩

section
variable {x : Exchange} {frame : List Byte} (hx : (s.core.dev.fp p).line = some x)
include hx

theorem identifyResponse_clause {trip : Nat} (ha : x.acy = some { head := x.head, kind := .identify })
    (hg : frameGood x frame false 4 = true) (ht : 2 * ((trip + 32) / 64 * 32) ≤ bitGrains (s.core.dev.fp p) 10) :
    Runs (.identifyResponse p frame false trip) s [.fps] fun t =>
      (t.core.dev.fp p).line = none ∧
      (∀ b, (frameBody frame).drop 1 = b → ∃ q k, k = AcyKind.setup (b.getD 0 0).toNat (b.getD 1 0).toNat (b.getD 2 0).toNat
          ((trip + 32) / 64 * 32) q ∧
        (t.core.dev.fp p).acy = { head := x.head, kind := k } :: (s.core.dev.fp p).acy) := by
  obtain ⟨q, hq⟩ := identifyResponse_good hx ha hg ht
  obtain ⟨hline, hacy⟩ := resumes_fp p (setupRequest x.head ((frameBody frame).drop 1) ((trip + 32) / 64 * 32) q) s.core.dev
  refine runs_to hl (exec_identifyResponse hp frame false trip) hq (sameBut_resumes p _ s.core.dev) ⟨hline, ?_⟩
  rintro b rfl
  exact ⟨q, _, rfl, hacy⟩

theorem readResponse_clause {r : AcyReq} {pidx : Nat} (ha : x.acy = some r) (hk : r.kind = .read pidx (r.done + x.n + 1))
    (hg : frameGood x frame false (1 + x.n) = true) :
    Runs (.readResponse p frame false) s [.fps] fun t =>
      (t.core.dev.fp p).line = none ∧
      (t.core.dev.fp p).acy =
        { r with done := r.done + x.n, tries := 0, got := r.got ++ (frameBody frame).drop 1 } :: (s.core.dev.fp p).acy :=
  runs_to hl (exec_readResponse hp frame false) (readResponse_part hx ha hk hg) (sameBut_resumes p _ s.core.dev)
    (resumes_fp p _ s.core.dev)

theorem writeResponse_clause {r : AcyReq} {ty ver cap ld q : Nat} (ha : x.acy = some r) (hk : r.kind = .setup ty ver cap ld q)
    (hty : ty ≤ 3) (hn : 8 ≤ r.done + x.n) (hg : frameGood x frame false 1 = true) (he : (s.core.dev.fp p).enumAt = none) :
    Runs (.writeResponse p frame false) s [.fps, .heads] fun t =>
      (t.core.dev.fp p).line = none ∧ (t.core.dev.head x.head).enumd = true ∧ (t.core.dev.head x.head).htype = ty ∧
      (t.core.dev.head x.head).cap = BitVec.ofNat 32 cap ∧ (t.core.dev.head x.head).ld = BitVec.ofNat 20 ld ∧
      (t.core.dev.head x.head).q = q := by
  refine runs_to hl (exec_writeResponse hp frame false) (writeResponse_enumerates hx ha hk hty hn hg he)
    (sameBut_then (sameBut_updHead _ x.head _) (by decide) (sameBut_mono (sameBut_updFp s.core.dev p _) (by decide))) ?_
  dsimp only
  rw [kept_fp (sameBut_updHead _ x.head _) (by decide), updHead_same, clearLine, updFp_same]
  exact ⟨rfl, rfl, rfl, rfl, rfl, rfl⟩

end

/-! ### Enable, disable, load, enumeration -/

theorem portEnable_slow_clause (he : fpEn (s.core.dev.fp p) = false) (hb : fld (s.core.dev.fp p).cfg 8 8 < 4) :
    Runs (.portEnable p) s [.fps, .lk, .ic, .ne] fun t =>
      fpEn (t.core.dev.fp p) = false ∧ bit (t.core.dev.fp p).stat 2 = true := by
  refine runs_to hl (exec_portEnable hp) (portEnable_slow he hb) (sameBut_fpFlag p 2 s.core.dev) ?_
  dsimp only
  rw [fpFlag_fp_same]
  exact ⟨he, bit_orBit_same _ 2 (by decide)⟩

theorem portEnable_clause (he : fpEn (s.core.dev.fp p) = false) (hb : 4 ≤ fld (s.core.dev.fp p).cfg 8 8)
    (hs : (planSlot (portOn p s.core.dev) p (stagedCfg s.core.dev)).isSome = true) :
    Runs (.portEnable p) s [.fps, .heads] fun t =>
      fpEn (t.core.dev.fp p) = true ∧ (t.core.dev.fp p).planBusy = true ∧
      ∀ h, h / 32 = p → (t.core.dev.head h).next = some (s.core.dev.head h).cfg := by
  have hon : SameBut [.fps] s.core.dev (portOn p s.core.dev) := sameBut_updFp s.core.dev p _
  obtain ⟨w, hw⟩ := planLoad_taken (d := portOn p s.core.dev) hs
  refine runs_to hl (exec_portEnable hp) ((portEnable_loads he hb).trans hw)
    (sameBut_then (sameBut_planTaken w p _) (by decide) (sameBut_mono hon (by decide))) ?_
  dsimp only
  rw [planTaken_fp]
  refine ⟨portOn_enabled p s.core.dev, rfl, fun h hh => ?_⟩
  rw [planTaken_next w _ hh, kept_head hon (by decide)]

theorem portDisable_clause (he : fpEn (s.core.dev.fp p) = true) (ha : (s.core.dev.fp p).acy = [])
    (hn : (s.core.dev.fp p).enumAt = none) : Runs (.portDisable p) s [.fps, .lk, .heads, .ax, .ic, .ne] fun t =>
      fpEn (t.core.dev.fp p) = false ∧ (t.core.dev.fp p).planBusy = false ∧ (t.core.dev.fp p).acy = [] ∧
      (∀ h, h / 32 = p → (t.core.dev.head h).eq = [] ∧ (t.core.dev.head h).sent = []) ∧
      ∀ h, h / 32 ≠ p → t.core.dev.head h = s.core.dev.head h := by
  obtain ⟨l, hd⟩ := portDisable_on he ha hn
  have hm := sameBut_misses l (portOff p s.core.dev)
  obtain ⟨hoff, hbusy, hacy⟩ := portOff_fp p s.core.dev
  refine runs_to hl (exec_portDisable hp) hd
    (sameBut_then hm (by decide) (sameBut_mono (sameBut_portOff p s.core.dev) (by decide))) ?_
  dsimp only
  rw [kept_fp hm (by decide)]
  refine ⟨hoff, hbusy, hacy, fun h hh => ?_, fun h hh => ?_⟩
  · rw [kept_head hm (by decide)]
    exact portOff_head s.core.dev hh
  · rw [kept_head hm (by decide), portOff_head_other s.core.dev hh]

theorem load_busy_clause (hb : (s.core.dev.fp p).planBusy = true) : Runs (.load p) s [.fps, .lk, .ic, .ne] fun t =>
    bit (t.core.dev.fp p).stat 10 = true ∧ (t.core.dev.fp p).acy = (s.core.dev.fp p).acy := by
  refine runs_to hl (exec_load hp) (fpLoad_busy hb) (sameBut_fpFlag p 10 s.core.dev) ?_
  dsimp only
  rw [fpFlag_fp_same]
  exact ⟨bit_orBit_same _ 10 (by decide), rfl⟩

theorem load_clause (hb : (s.core.dev.fp p).planBusy = false)
    (ho : fpEn (s.core.dev.fp p) = true ∨ (s.core.dev.fp p).offIn ≠ some s.core.dev.tb.tclk)
    (hs : (planSlot s.core.dev p (stagedCfg s.core.dev)).isSome = true) :
    Runs (.load p) s [.fps, .heads] fun t =>
      (t.core.dev.fp p).planBusy = true ∧ ∀ h, h / 32 = p → (t.core.dev.head h).next = some (s.core.dev.head h).cfg := by
  obtain ⟨w, hw⟩ := planLoad_taken hs
  refine runs_to hl (exec_load hp) ((fpLoad_loads hb ho).trans hw) (sameBut_planTaken w p s.core.dev) ?_
  dsimp only
  rw [planTaken_fp]
  exact ⟨rfl, fun h hh => planTaken_next w s.core.dev hh⟩

theorem enum_clause (he : fpEn (s.core.dev.fp p) = true) (hn : (s.core.dev.fp p).enumAt = none)
    (hs : s.core.dev.lo.enum.op.state ≠ 1) : Runs (.enum p) s [.fps, .lo] fun t =>
      (t.core.dev.fp p).enumAt = some 0 ∧
      (t.core.dev.fp p).acy = (s.core.dev.fp p).acy ++ [{ head := 32 * p, kind := .identify }] ∧
      t.core.dev.lo.enum.op.state = 1 ∧ t.core.dev.lo.enum.total = 32 := by
  obtain ⟨hat, hacy⟩ := enumBegun_fp p s.core.dev
  exact runs_to hl (exec_enum hp) (enumStart_first he hn hs) (sameBut_enumBegun p s.core.dev) ⟨hat, hacy, rfl, rfl⟩

theorem enum_off_clause (he : fpEn (s.core.dev.fp p) = false) : Runs (.enum p) s [.fps, .lk, .ic, .ne] fun t =>
    bit (t.core.dev.fp p).stat 2 = true ∧ (t.core.dev.fp p).enumAt = (s.core.dev.fp p).enumAt := by
  refine runs_to hl (exec_enum hp) (enumStart_off he) (sameBut_fpFlag p 2 s.core.dev) ?_
  dsimp only
  rw [fpFlag_fp_same]
  exact ⟨bit_orBit_same _ 2 (by decide), rfl⟩

end

theorem enumerationDone_clause (hs : s.core.dev.lo.enum.op.state = 1) (hb : s.core.dev.lo.enum.boot = false)
    (hr : s.core.dev.lo.enum.refused = false) (hall : (s.core.dev.fps.all fun e => e.2.enumAt.isNone) = true) :
    Runs .enumerationDone s [.lo, .ic, .ne] fun t =>
      t.core.dev.lo.enum.op.state = 2 ∧ t.core.dev.lo.enum.op.progress = 10000 := by
  refine runs_to (f := enumDone) hl rfl (enumDone_ends hs hb hall) (sameBut_loFinish enumEnded s.core.dev) ?_
  dsimp only
  rw [loFinish_lo, enumEnded, hr]
  exact ⟨rfl, rfl⟩

end

end

/-- Settles O50: each command by the law of its operation. -/
theorem fieldPorts : Obligations.FieldPorts := by
  intro s p hp hl
  refine ⟨fun h hh hen hline hpl hun hturn hsent => ?_, fun h hh hhp hen => ?_, fun x frame st hx ha hst h6 h7 =>
      ⟨gateDriveResponse_clause hl hp hx ha hst h6 h7, encoderResponse_clause hl hp hx ha hst h6 h7, ioResponse_clause hl hp hx ha hst h6 h7⟩,
    fun x => repeat_clause hl hp, fun x => skip_clause hl hp, fun hx i => idleLine_clause hl hp hx,
    fun h rest => acyclicStart_clause hl hp, fun x frame trip hx => identifyResponse_clause hl hp hx,
    fun x frame r pidx hx => readResponse_clause hl hp hx, fun x frame r ty ver cap ld q hx => writeResponse_clause hl hp hx,
    portEnable_slow_clause hl hp, portEnable_clause hl hp, portDisable_clause hl hp,
    fun he => exec_unchanged hl (exec_portDisable hp) (portDisable_off he), load_busy_clause hl hp,
    fun hb he ho => exec_unchanged hl (exec_load hp) (fpLoad_dropped hb he ho), load_clause hl hp, enum_clause hl hp,
    enum_off_clause hl hp, fun hs => exec_unchanged (f := enumDone) hl rfl (enumDone_idle hs), enumerationDone_clause hl⟩
  · have hf : headFree s.core.dev h = true := (headFree_iff hh).mpr ⟨hen, hline, hun, hpl, hturn⟩
    have h2 : h < 2048 := by
      have := of_decide_eq_true hp
      omega
    exact ⟨encoderStart_clause hl h2 hh hf hsent, gateDriveStart_clause hl h2 hh hf hsent⟩
  · refine exec_unchanged hl (exec_cyclicExchangeStart hh) (cyclicStart_barred ?_)
    cases hf : headFree s.core.dev h with
    | false => rfl
    | true =>
      obtain ⟨ht, _⟩ := (headFree_iff hhp).mp hf
      rw [hen] at ht
      cases ht

end Sys2Proof.Proofs
end
